-- ==== Sys2Proof/Word.lean ====
section
/-! DEFINITION. The word types and the plain map type of the model. -/

namespace Sys2Proof

/-- A 32-bit word: an instruction word, a lane value, a scalar register (spec/05 R57). -/
abbrev Word := BitVec 32

/-- A 64-bit value: an address, a pair, a time (spec/05 R58). -/
abbrev DWord := BitVec 64

/-- Sparse data by number: pairs of a key and a value. -/
abbrev FMap (α : Type) := List (Nat × α)

end Sys2Proof
end

