-- ==== Sys2Proof/Syntax.lean ====
section
/-! DEFINITION. The instructions and events of the module: one constructor per row of spec/opcode_table.json.
Word fields keep the names of the table and their widths; an event carries what selects its occasion. -/

namespace Sys2Proof

/-- One operation or event of the module (spec/07 R102, Table 7.2; events: spec/95). -/
inductive Instr where
  /-- VADD_I32: Adds two 32-bit lane values modulo 2^32 (R134) -/
  | vaddI32 (g : BitVec 3) (d : BitVec 7) (a : BitVec 7) (b : BitVec 7)
  /-- VSUB_I32: Subtracts two 32-bit lane values modulo 2^32 (R134) -/
  | vsubI32 (g : BitVec 3) (d : BitVec 7) (a : BitVec 7) (b : BitVec 7)
  /-- VMULLO_I32: Writes the low 32 bits of the lane product (R134) -/
  | vmulloI32 (g : BitVec 3) (d : BitVec 7) (a : BitVec 7) (b : BitVec 7)
  /-- VMULHI_I32: Writes the high 32 bits of the signed lane product (R134) -/
  | vmulhiI32 (g : BitVec 3) (d : BitVec 7) (a : BitVec 7) (b : BitVec 7)
  /-- VMULHI_N32: Writes the high 32 bits of the unsigned lane product (R134) -/
  | vmulhiN32 (g : BitVec 3) (d : BitVec 7) (a : BitVec 7) (b : BitVec 7)
  /-- VMAD_I32: Writes a times b plus a third source, modulo 2^32 (R134) -/
  | vmadI32 (g : BitVec 3) (d : BitVec 7) (a : BitVec 7) (b : BitVec 7)
  /-- VMIN_I32: Writes the signed minimum of two lane values (R134) -/
  | vminI32 (g : BitVec 3) (d : BitVec 7) (a : BitVec 7) (b : BitVec 7)
  /-- VMIN_N32: Writes the unsigned minimum of two lane values (R134) -/
  | vminN32 (g : BitVec 3) (d : BitVec 7) (a : BitVec 7) (b : BitVec 7)
  /-- VMAX_I32: Writes the signed maximum of two lane values (R134) -/
  | vmaxI32 (g : BitVec 3) (d : BitVec 7) (a : BitVec 7) (b : BitVec 7)
  /-- VMAX_N32: Writes the unsigned maximum of two lane values (R134) -/
  | vmaxN32 (g : BitVec 3) (d : BitVec 7) (a : BitVec 7) (b : BitVec 7)
  /-- VABSD_I32: Writes the absolute signed difference of two lane values (R134) -/
  | vabsdI32 (g : BitVec 3) (d : BitVec 7) (a : BitVec 7) (b : BitVec 7)
  /-- VABSD_N32: Writes the absolute unsigned difference of two lane values (R134) -/
  | vabsdN32 (g : BitVec 3) (d : BitVec 7) (a : BitVec 7) (b : BitVec 7)
  /-- VADDS_I32: Adds signed lane values with saturation, setting SAT on clamp (R134) -/
  | vaddsI32 (g : BitVec 3) (d : BitVec 7) (a : BitVec 7) (b : BitVec 7)
  /-- VSUBS_I32: Subtracts signed lane values with saturation (R134) -/
  | vsubsI32 (g : BitVec 3) (d : BitVec 7) (a : BitVec 7) (b : BitVec 7)
  /-- VADDS_N32: Adds unsigned lane values with saturation (R134) -/
  | vaddsN32 (g : BitVec 3) (d : BitVec 7) (a : BitVec 7) (b : BitVec 7)
  /-- VSUBS_N32: Subtracts unsigned lane values with saturation (R134) -/
  | vsubsN32 (g : BitVec 3) (d : BitVec 7) (a : BitVec 7) (b : BitVec 7)
  /-- VAND: Bitwise and of two lane values (R135) -/
  | vand (g : BitVec 3) (d : BitVec 7) (a : BitVec 7) (b : BitVec 7)
  /-- VOR: Bitwise or of two lane values (R135) -/
  | vor (g : BitVec 3) (d : BitVec 7) (a : BitVec 7) (b : BitVec 7)
  /-- VXOR: Bitwise exclusive or of two lane values (R135) -/
  | vxor (g : BitVec 3) (d : BitVec 7) (a : BitVec 7) (b : BitVec 7)
  /-- VANDN: Bitwise a and not b (R135) -/
  | vandn (g : BitVec 3) (d : BitVec 7) (a : BitVec 7) (b : BitVec 7)
  /-- VSHL: Left shift by b[4:0] (R135) -/
  | vshl (g : BitVec 3) (d : BitVec 7) (a : BitVec 7) (b : BitVec 7)
  /-- VSHR_N32: Logical right shift by b[4:0] (R135) -/
  | vshrN32 (g : BitVec 3) (d : BitVec 7) (a : BitVec 7) (b : BitVec 7)
  /-- VSHR_I32: Arithmetic right shift by b[4:0] (R135) -/
  | vshrI32 (g : BitVec 3) (d : BitVec 7) (a : BitVec 7) (b : BitVec 7)
  /-- VROTL: Rotates left by b[4:0] (R135) -/
  | vrotl (g : BitVec 3) (d : BitVec 7) (a : BitVec 7) (b : BitVec 7)
  /-- VPOPC: Counts the 1 bits of a (R136) -/
  | vpopc (g : BitVec 3) (d : BitVec 7) (a : BitVec 7)
  /-- VCLZ: Counts the leading zeros of a (R136) -/
  | vclz (g : BitVec 3) (d : BitVec 7) (a : BitVec 7)
  /-- VBREV: Reverses the bits of a (R136) -/
  | vbrev (g : BitVec 3) (d : BitVec 7) (a : BitVec 7)
  /-- VBFE_N32: Extracts an unsigned bit field selected by b (R136) -/
  | vbfeN32 (g : BitVec 3) (d : BitVec 7) (a : BitVec 7) (b : BitVec 7)
  /-- VBFE_I32: Extracts a sign-extended bit field selected by b (R136) -/
  | vbfeI32 (g : BitVec 3) (d : BitVec 7) (a : BitVec 7) (b : BitVec 7)
  /-- VBFI: Inserts a shifted into a field of the third source (R136) -/
  | vbfi (g : BitVec 3) (d : BitVec 7) (a : BitVec 7) (b : BitVec 7)
  /-- VSEL: Writes a or b in every issuing lane according to the guard (R137) -/
  | vsel (g : BitVec 3) (d : BitVec 7) (a : BitVec 7) (b : BitVec 7)
  /-- VMOV: Copies a to the destination (R136) -/
  | vmov (g : BitVec 3) (d : BitVec 7) (a : BitVec 7)
  /-- VFADD_F32: FP32 add, rounded once (R139) -/
  | vfaddF32 (g : BitVec 3) (d : BitVec 7) (a : BitVec 7) (b : BitVec 7)
  /-- VFSUB_F32: FP32 subtract, rounded once (R139) -/
  | vfsubF32 (g : BitVec 3) (d : BitVec 7) (a : BitVec 7) (b : BitVec 7)
  /-- VFMUL_F32: FP32 multiply, rounded once (R139) -/
  | vfmulF32 (g : BitVec 3) (d : BitVec 7) (a : BitVec 7) (b : BitVec 7)
  /-- VFMA_F32: FP32 fused multiply-add with one rounding (R139) -/
  | vfmaF32 (g : BitVec 3) (d : BitVec 7) (a : BitVec 7) (b : BitVec 7)
  /-- VFMIN_F32: FP32 minimum under the NaN and signed-zero rule (R140) -/
  | vfminF32 (g : BitVec 3) (d : BitVec 7) (a : BitVec 7) (b : BitVec 7)
  /-- VFMAX_F32: FP32 maximum under the NaN and signed-zero rule (R140) -/
  | vfmaxF32 (g : BitVec 3) (d : BitVec 7) (a : BitVec 7) (b : BitVec 7)
  /-- VFSGN_F32: Combines the sign of b with the magnitude bits of a (R139) -/
  | vfsgnF32 (g : BitVec 3) (d : BitVec 7) (a : BitVec 7) (b : BitVec 7)
  /-- VFSCALE_F32: Scales a by 2^n with n the integer b, rounded once (R141) -/
  | vfscaleF32 (g : BitVec 3) (d : BitVec 7) (a : BitVec 7) (b : BitVec 7)
  /-- VHADD_F16X2: Adds two packed FP16 pairs (R144) -/
  | vhaddF16x2 (g : BitVec 3) (d : BitVec 7) (a : BitVec 7) (b : BitVec 7)
  /-- VHMUL_F16X2: Multiplies two packed FP16 pairs (R144) -/
  | vhmulF16x2 (g : BitVec 3) (d : BitVec 7) (a : BitVec 7) (b : BitVec 7)
  /-- VHFMA_F16X2: Fused multiply-add on packed FP16 pairs (R144) -/
  | vhfmaF16x2 (g : BitVec 3) (d : BitVec 7) (a : BitVec 7) (b : BitVec 7)
  /-- VHADD_BF16X2: Adds two packed BF16 pairs (R144) -/
  | vhaddBf16x2 (g : BitVec 3) (d : BitVec 7) (a : BitVec 7) (b : BitVec 7)
  /-- VHMUL_BF16X2: Multiplies two packed BF16 pairs (R144) -/
  | vhmulBf16x2 (g : BitVec 3) (d : BitVec 7) (a : BitVec 7) (b : BitVec 7)
  /-- VHFMA_BF16X2: Fused multiply-add on packed BF16 pairs (R144) -/
  | vhfmaBf16x2 (g : BitVec 3) (d : BitVec 7) (a : BitVec 7) (b : BitVec 7)
  /-- VHMIN_F16X2: Element-wise FP16 minimum (R144) -/
  | vhminF16x2 (g : BitVec 3) (d : BitVec 7) (a : BitVec 7) (b : BitVec 7)
  /-- VHMAX_F16X2: Element-wise FP16 maximum (R144) -/
  | vhmaxF16x2 (g : BitVec 3) (d : BitVec 7) (a : BitVec 7) (b : BitVec 7)
  /-- VDADD_F64: FP64 add on register pairs (R145) -/
  | vdaddF64 (g : BitVec 3) (d : BitVec 7) (a : BitVec 7) (b : BitVec 7)
  /-- VDSUB_F64: FP64 subtract on register pairs (R145) -/
  | vdsubF64 (g : BitVec 3) (d : BitVec 7) (a : BitVec 7) (b : BitVec 7)
  /-- VDMUL_F64: FP64 multiply on register pairs (R145) -/
  | vdmulF64 (g : BitVec 3) (d : BitVec 7) (a : BitVec 7) (b : BitVec 7)
  /-- VDFMA_F64: FP64 fused multiply-add (R145) -/
  | vdfmaF64 (g : BitVec 3) (d : BitVec 7) (a : BitVec 7) (b : BitVec 7)
  /-- VDMIN_F64: FP64 minimum under R140 (R145) -/
  | vdminF64 (g : BitVec 3) (d : BitVec 7) (a : BitVec 7) (b : BitVec 7)
  /-- VDMAX_F64: FP64 maximum under R140 (R145) -/
  | vdmaxF64 (g : BitVec 3) (d : BitVec 7) (a : BitVec 7) (b : BitVec 7)
  /-- VDSQRT_F64: Correctly rounded FP64 square root (R145) -/
  | vdsqrtF64 (g : BitVec 3) (d : BitVec 7) (a : BitVec 7)
  /-- VDDIV_F64: Correctly rounded FP64 division (R145) -/
  | vddivF64 (g : BitVec 3) (d : BitVec 7) (a : BitVec 7) (b : BitVec 7)
  /-- VRCP_F32: Correctly rounded FP32 reciprocal (R146) -/
  | vrcpF32 (g : BitVec 3) (d : BitVec 7) (a : BitVec 7)
  /-- VRSQ_F32: Correctly rounded FP32 reciprocal square root (R146) -/
  | vrsqF32 (g : BitVec 3) (d : BitVec 7) (a : BitVec 7)
  /-- VSQRT_F32: Correctly rounded FP32 square root (R146) -/
  | vsqrtF32 (g : BitVec 3) (d : BitVec 7) (a : BitVec 7)
  /-- VEXP2_F32: Correctly rounded 2^a (R146) -/
  | vexp2F32 (g : BitVec 3) (d : BitVec 7) (a : BitVec 7)
  /-- VLOG2_F32: Correctly rounded log2 a (R146) -/
  | vlog2F32 (g : BitVec 3) (d : BitVec 7) (a : BitVec 7)
  /-- VSINPI_F32: Correctly rounded sin(pi a) (R146) -/
  | vsinpiF32 (g : BitVec 3) (d : BitVec 7) (a : BitVec 7)
  /-- VCOSPI_F32: Correctly rounded cos(pi a) (R146) -/
  | vcospiF32 (g : BitVec 3) (d : BitVec 7) (a : BitVec 7)
  /-- VDIV_F32: Correctly rounded FP32 division (R146) -/
  | vdivF32 (g : BitVec 3) (d : BitVec 7) (a : BitVec 7) (b : BitVec 7)
  /-- VCMP_EQ_I32: Sets predicate bits where a equals b bitwise (R148) -/
  | vcmpEqI32 (g : BitVec 3) (d : BitVec 7) (a : BitVec 7) (b : BitVec 7)
  /-- VCMP_LT_I32: Sets predicate bits where a is signed less than b (R148) -/
  | vcmpLtI32 (g : BitVec 3) (d : BitVec 7) (a : BitVec 7) (b : BitVec 7)
  /-- VCMP_LT_N32: Sets predicate bits where a is unsigned less than b (R148) -/
  | vcmpLtN32 (g : BitVec 3) (d : BitVec 7) (a : BitVec 7) (b : BitVec 7)
  /-- VCMP_LE_I32: Sets predicate bits where a is signed at most b (R148) -/
  | vcmpLeI32 (g : BitVec 3) (d : BitVec 7) (a : BitVec 7) (b : BitVec 7)
  /-- VCMP_EQ_F32: Sets predicate bits where FP32 a equals b (R148) -/
  | vcmpEqF32 (g : BitVec 3) (d : BitVec 7) (a : BitVec 7) (b : BitVec 7)
  /-- VCMP_LT_F32: Sets predicate bits where FP32 a is less than b (R148) -/
  | vcmpLtF32 (g : BitVec 3) (d : BitVec 7) (a : BitVec 7) (b : BitVec 7)
  /-- VCMP_LE_F32: Sets predicate bits where FP32 a is at most b (R148) -/
  | vcmpLeF32 (g : BitVec 3) (d : BitVec 7) (a : BitVec 7) (b : BitVec 7)
  /-- VCMP_UN_F32: Sets predicate bits where either operand is NaN (R148) -/
  | vcmpUnF32 (g : BitVec 3) (d : BitVec 7) (a : BitVec 7) (b : BitVec 7)
  /-- VCVTN: Rounds FP32 to a narrower format into element s (R151) -/
  | vcvtn (g : BitVec 3) (d : BitVec 7) (a : BitVec 7) (fmt : BitVec 5) (slot : BitVec 2)
  /-- VCVTW: Widens element s of a narrow format to FP32 exactly (R150) -/
  | vcvtw (g : BitVec 3) (d : BitVec 7) (a : BitVec 7) (fmt : BitVec 5) (slot : BitVec 2)
  /-- VCVTI2F: Converts an integer element to FP32 (R150) -/
  | vcvti2f (g : BitVec 3) (d : BitVec 7) (a : BitVec 7) (fmt : BitVec 5) (slot : BitVec 2)
  /-- VCVTF2I: Converts FP32 to an integer element with clamping (R151) -/
  | vcvtf2i (g : BitVec 3) (d : BitVec 7) (a : BitVec 7) (fmt : BitVec 5) (slot : BitVec 2)
  /-- VCVTD2F: Rounds FP64 to a narrower float element (R151) -/
  | vcvtd2f (g : BitVec 3) (d : BitVec 7) (a : BitVec 7) (fmt : BitVec 5) (slot : BitVec 2)
  /-- VCVTF2D: Widens a float element to FP64 exactly (R150) -/
  | vcvtf2d (g : BitVec 3) (d : BitVec 7) (a : BitVec 7) (fmt : BitVec 5) (slot : BitVec 2)
  /-- VSRND: Rounds FP32 to a format's value set and writes it back as FP32 (R151) -/
  | vsrnd (g : BitVec 3) (d : BitVec 7) (a : BitVec 7) (fmt : BitVec 5) (slot : BitVec 2)
  /-- VMXS: Computes an E8M0 block scale over the active lanes (R152) -/
  | vmxs (g : BitVec 3) (d : BitVec 7) (a : BitVec 7) (fmt : BitVec 5) (slot : BitVec 2)
  /-- VADDI: Adds a sign-extended immediate (R138) -/
  | vaddi (g : BitVec 3) (d : BitVec 7) (a : BitVec 7) (imm : BitVec 7)
  /-- VMULI: Multiplies by a sign-extended immediate (R138) -/
  | vmuli (g : BitVec 3) (d : BitVec 7) (a : BitVec 7) (imm : BitVec 7)
  /-- VANDI: Ands with an immediate (R138) -/
  | vandi (g : BitVec 3) (d : BitVec 7) (a : BitVec 7) (imm : BitVec 7)
  /-- VORI: Ors with an immediate (R138) -/
  | vori (g : BitVec 3) (d : BitVec 7) (a : BitVec 7) (imm : BitVec 7)
  /-- VXORI: Exclusive-ors with an immediate (R138) -/
  | vxori (g : BitVec 3) (d : BitVec 7) (a : BitVec 7) (imm : BitVec 7)
  /-- VSHLI: Left shift by an immediate count (R138) -/
  | vshli (g : BitVec 3) (d : BitVec 7) (a : BitVec 7) (imm : BitVec 5)
  /-- VSHRI_N32: Logical right shift by an immediate count (R138) -/
  | vshriN32 (g : BitVec 3) (d : BitVec 7) (a : BitVec 7) (imm : BitVec 5)
  /-- VSHRI_I32: Arithmetic right shift by an immediate count (R138) -/
  | vshriI32 (g : BitVec 3) (d : BitVec 7) (a : BitVec 7) (imm : BitVec 5)
  /-- VSHF: Reads Va from the lane b[4:0] (R153) -/
  | vshf (g : BitVec 3) (d : BitVec 7) (a : BitVec 7) (b : BitVec 7)
  /-- VSHFX: Reads Va from lane L xor b[4:0] (R153) -/
  | vshfx (g : BitVec 3) (d : BitVec 7) (a : BitVec 7) (b : BitVec 7)
  /-- VSHFUP: Reads Va from lane L minus n (R153) -/
  | vshfup (g : BitVec 3) (d : BitVec 7) (a : BitVec 7) (b : BitVec 7)
  /-- VSHFDN: Reads Va from lane L plus n (R153) -/
  | vshfdn (g : BitVec 3) (d : BitVec 7) (a : BitVec 7) (b : BitVec 7)
  /-- VREDSUM_I32: Integer sum over the active lanes (R154) -/
  | vredsumI32 (g : BitVec 3) (d : BitVec 7) (a : BitVec 7)
  /-- VREDMAX_F32: FP32 maximum over the active lanes (R154) -/
  | vredmaxF32 (g : BitVec 3) (d : BitVec 7) (a : BitVec 7)
  /-- VSCAN_I32: Inclusive integer prefix sum over the active lanes (R154) -/
  | vscanI32 (g : BitVec 3) (d : BitVec 7) (a : BitVec 7)
  /-- VREDSUM_F32: FP32 sum over the active lanes along a fixed tree (R155) -/
  | vredsumF32 (g : BitVec 3) (d : BitVec 7) (a : BitVec 7)
  /-- VDOT4_I8: Signed byte dot product accumulated into the third source (R156) -/
  | vdot4I8 (g : BitVec 3) (d : BitVec 7) (a : BitVec 7) (b : BitVec 7)
  /-- VDOT4_N8: Unsigned byte dot product (R156) -/
  | vdot4N8 (g : BitVec 3) (d : BitVec 7) (a : BitVec 7) (b : BitVec 7)
  /-- VDOT4_IN8: Signed by unsigned byte dot product (R156) -/
  | vdot4In8 (g : BitVec 3) (d : BitVec 7) (a : BitVec 7) (b : BitVec 7)
  /-- VDOT8_I4: Signed nibble dot product (R156) -/
  | vdot8I4 (g : BitVec 3) (d : BitVec 7) (a : BitVec 7) (b : BitVec 7)
  /-- VDOT8_N4: Unsigned nibble dot product (R156) -/
  | vdot8N4 (g : BitVec 3) (d : BitVec 7) (a : BitVec 7) (b : BitVec 7)
  /-- VDOT2_BF16: BF16 pair dot product rounded to FP32 (R156) -/
  | vdot2Bf16 (g : BitVec 3) (d : BitVec 7) (a : BitVec 7) (b : BitVec 7)
  /-- VDOT4_E4M3: E4M3 dot product rounded to FP32 (R156) -/
  | vdot4E4m3 (g : BitVec 3) (d : BitVec 7) (a : BitVec 7) (b : BitVec 7)
  /-- VDOT8_E2M1: E2M1 dot product rounded to FP32 (R156) -/
  | vdot8E2m1 (g : BitVec 3) (d : BitVec 7) (a : BitVec 7) (b : BitVec 7)
  /-- SADD: Scalar add modulo 2^32 (R157) -/
  | sadd (d : BitVec 7) (a : BitVec 7) (b : BitVec 7)
  /-- SSUB: Scalar subtract modulo 2^32 (R157) -/
  | ssub (d : BitVec 7) (a : BitVec 7) (b : BitVec 7)
  /-- SMULLO: Low 32 bits of the scalar product (R157) -/
  | smullo (d : BitVec 7) (a : BitVec 7) (b : BitVec 7)
  /-- SMULHI_I32: High 32 bits of the signed scalar product (R157) -/
  | smulhiI32 (d : BitVec 7) (a : BitVec 7) (b : BitVec 7)
  /-- SMULHI_N32: High 32 bits of the unsigned scalar product (R157) -/
  | smulhiN32 (d : BitVec 7) (a : BitVec 7) (b : BitVec 7)
  /-- SDIV_I32: Signed quotient with fixed results for zero and overflow (R158) -/
  | sdivI32 (d : BitVec 7) (a : BitVec 7) (b : BitVec 7)
  /-- SDIV_N32: Unsigned quotient with a fixed result for zero (R158) -/
  | sdivN32 (d : BitVec 7) (a : BitVec 7) (b : BitVec 7)
  /-- SREM_I32: Signed remainder (R158) -/
  | sremI32 (d : BitVec 7) (a : BitVec 7) (b : BitVec 7)
  /-- SREM_N32: Unsigned remainder (R158) -/
  | sremN32 (d : BitVec 7) (a : BitVec 7) (b : BitVec 7)
  /-- SMIN_I32: Signed scalar minimum (R157) -/
  | sminI32 (d : BitVec 7) (a : BitVec 7) (b : BitVec 7)
  /-- SMIN_N32: Unsigned scalar minimum (R157) -/
  | sminN32 (d : BitVec 7) (a : BitVec 7) (b : BitVec 7)
  /-- SMAX_I32: Signed scalar maximum (R157) -/
  | smaxI32 (d : BitVec 7) (a : BitVec 7) (b : BitVec 7)
  /-- SMAX_N32: Unsigned scalar maximum (R157) -/
  | smaxN32 (d : BitVec 7) (a : BitVec 7) (b : BitVec 7)
  /-- SAND: Scalar bitwise and (R157) -/
  | sand (d : BitVec 7) (a : BitVec 7) (b : BitVec 7)
  /-- SOR: Scalar bitwise or (R157) -/
  | sor (d : BitVec 7) (a : BitVec 7) (b : BitVec 7)
  /-- SXOR: Scalar bitwise exclusive or (R157) -/
  | sxor (d : BitVec 7) (a : BitVec 7) (b : BitVec 7)
  /-- SSHL: Scalar left shift by sb[4:0] (R157) -/
  | sshl (d : BitVec 7) (a : BitVec 7) (b : BitVec 7)
  /-- SSHR_N32: Scalar logical right shift (R157) -/
  | sshrN32 (d : BitVec 7) (a : BitVec 7) (b : BitVec 7)
  /-- SSHR_I32: Scalar arithmetic right shift (R157) -/
  | sshrI32 (d : BitVec 7) (a : BitVec 7) (b : BitVec 7)
  /-- SADD_I64: 64-bit add on scalar pairs (R157) -/
  | saddI64 (d : BitVec 7) (a : BitVec 7) (b : BitVec 7)
  /-- SSUB_I64: 64-bit subtract on scalar pairs (R157) -/
  | ssubI64 (d : BitVec 7) (a : BitVec 7) (b : BitVec 7)
  /-- SMUL_I64: Low 64 bits of the product of pairs (R157) -/
  | smulI64 (d : BitVec 7) (a : BitVec 7) (b : BitVec 7)
  /-- SSHL_B64: 64-bit left shift by sb[5:0] (R157) -/
  | sshlB64 (d : BitVec 7) (a : BitVec 7) (b : BitVec 7)
  /-- SSHR_N64: 64-bit logical right shift (R157) -/
  | sshrN64 (d : BitVec 7) (a : BitVec 7) (b : BitVec 7)
  /-- SCMP_EQ: Writes 1 when the scalars are equal (R157) -/
  | scmpEq (d : BitVec 7) (a : BitVec 7) (b : BitVec 7)
  /-- SCMP_LT_I32: Writes 1 when signed less (R157) -/
  | scmpLtI32 (d : BitVec 7) (a : BitVec 7) (b : BitVec 7)
  /-- SCMP_LT_N32: Writes 1 when unsigned less (R157) -/
  | scmpLtN32 (d : BitVec 7) (a : BitVec 7) (b : BitVec 7)
  /-- SFADD_F32: Scalar FP32 add (R159) -/
  | sfaddF32 (d : BitVec 7) (a : BitVec 7) (b : BitVec 7)
  /-- SFMUL_F32: Scalar FP32 multiply (R159) -/
  | sfmulF32 (d : BitVec 7) (a : BitVec 7) (b : BitVec 7)
  /-- SFMA_F32: Scalar FP32 fused multiply-add into sd (R159) -/
  | sfmaF32 (d : BitVec 7) (a : BitVec 7) (b : BitVec 7)
  /-- SCVTF2I: Scalar FP32 to INT32 conversion (R159) -/
  | scvtf2i (d : BitVec 7) (a : BitVec 7)
  /-- SCVTI2F: Scalar INT32 to FP32 conversion (R159) -/
  | scvti2f (d : BitVec 7) (a : BitVec 7)
  /-- SADDI: Adds a scalar immediate (R160) -/
  | saddi (d : BitVec 7) (a : BitVec 7) (imm : BitVec 10)
  /-- SANDI: Ands a scalar immediate (R160) -/
  | sandi (d : BitVec 7) (a : BitVec 7) (imm : BitVec 10)
  /-- SORI: Ors a scalar immediate (R160) -/
  | sori (d : BitVec 7) (a : BitVec 7) (imm : BitVec 10)
  /-- SXORI: Exclusive-ors a scalar immediate (R160) -/
  | sxori (d : BitVec 7) (a : BitVec 7) (imm : BitVec 10)
  /-- SSHLI: Scalar left shift by an immediate (R160) -/
  | sshli (d : BitVec 7) (a : BitVec 7) (imm : BitVec 10)
  /-- SSHRI: Scalar logical right shift by an immediate (R160) -/
  | sshri (d : BitVec 7) (a : BitVec 7) (imm : BitVec 10)
  /-- SLUI: Loads an immediate into the upper half keeping the lower (R160) -/
  | slui (d : BitVec 7) (a : BitVec 7) (imm : BitVec 10)
  /-- SMOVI: Moves an immediate into a scalar register (R160) -/
  | smovi (d : BitVec 7) (imm : BitVec 10)
  /-- VBCAST: Broadcasts a scalar to every issuing lane (R161) -/
  | vbcast (d : BitVec 7) (a : BitVec 7)
  /-- VRDLANE: Reads one lane of a vector register into a scalar (R162) -/
  | vrdlane (d : BitVec 7) (a : BitVec 7) (b : BitVec 7)
  /-- VWRLANE: Writes a scalar into one lane of a vector register (R162) -/
  | vwrlane (d : BitVec 7) (a : BitVec 7) (b : BitVec 7)
  /-- VLPC: Reads a lane's program counter into a pair (R162) -/
  | vlpc (d : BitVec 7) (b : BitVec 7)
  /-- SRSR: Reads a special register into a scalar or pair (R67) -/
  | srsr (d : BitVec 7) (a : BitVec 7)
  /-- SWSR: Writes a special register from a scalar or pair (R164) -/
  | swsr (d : BitVec 7) (a : BitVec 7)
  /-- P2S: Copies a predicate to a scalar (R161) -/
  | p2s (d : BitVec 7) (a : BitVec 7)
  /-- S2P: Copies a scalar to a predicate (R161) -/
  | s2p (d : BitVec 7) (a : BitVec 7)
  /-- PAND: Predicate and (R161) -/
  | pand (d : BitVec 7) (a : BitVec 7) (b : BitVec 7)
  /-- POR: Predicate or (R161) -/
  | por (d : BitVec 7) (a : BitVec 7) (b : BitVec 7)
  /-- PXOR: Predicate exclusive or (R161) -/
  | pxor (d : BitVec 7) (a : BitVec 7) (b : BitVec 7)
  /-- PNOT: Predicate not (R161) -/
  | pnot (d : BitVec 7) (a : BitVec 7)
  /-- PTAG: Writes the pool operator tag SR.PTAG (R165) -/
  | ptag (a : BitVec 7)
  /-- PCOUNT: Counts the set bits of a predicate (R161) -/
  | pcount (d : BitVec 7) (a : BitVec 7)
  /-- TWR: Writes one 64-bit half of a T register from a pair (R163) -/
  | twr (d : BitVec 7) (a : BitVec 7) (b : BitVec 7)
  /-- TRD: Reads one 64-bit half of a T register into a pair (R163) -/
  | trd (d : BitVec 7) (a : BitVec 7) (b : BitVec 7)
  /-- BR: Sends every issuing lane to a relative target (R168) -/
  | br (off : BitVec 20)
  /-- BRP: Branches the lanes whose predicate bit is 1 (R168) -/
  | brp (c : BitVec 4) (off : BitVec 20)
  /-- BRNP: Branches the lanes whose predicate bit is 0 (R168) -/
  | brnp (c : BitVec 4) (off : BitVec 20)
  /-- BRZ: Branches all issuing lanes when a scalar is zero (R168) -/
  | brz (c : BitVec 4) (off : BitVec 20)
  /-- BRNZ: Branches all issuing lanes when a scalar is nonzero (R168) -/
  | brnz (c : BitVec 4) (off : BitVec 20)
  /-- CALL: Writes the per-lane link into V127 and branches (R168) -/
  | call (off : BitVec 20)
  /-- JMPI: Jumps every issuing lane to the address in a scalar pair (R168) -/
  | jmpi (c : BitVec 4)
  /-- JMPV: Jumps each lane to its own address in a vector pair (R168) -/
  | jmpv (v : BitVec 7)
  /-- RET: Returns each lane to its V127 link in the same 4 GiB window (R169) -/
  | ret
  /-- EXIT: Makes the active lanes exited, ending the wave when all have exited (R173) -/
  | exit
  /-- NOP: Only advances its lanes (R173) -/
  | nop
  /-- YIELD: Advances and makes the wave ready-aged afresh (R173) -/
  | yield
  /-- TRAP: Raises SYSCALL with a code after advancing the lanes (R174) -/
  | trap (imm : BitVec 16)
  /-- BRK: Raises BRK with a code without advancing the lanes (R174) -/
  | brk (imm : BitVec 16)
  /-- ERETURN: Ends the supervisor's handling and resumes the held U state (R175) -/
  | ereturn
  /-- LD_N8: Loads a zero-extended byte per lane (R183) -/
  | ldN8 (g : BitVec 3) (vt : BitVec 7) (vo : BitVec 7) (sp : BitVec 5)
  /-- LD_I8: Loads a sign-extended byte per lane (R183) -/
  | ldI8 (g : BitVec 3) (vt : BitVec 7) (vo : BitVec 7) (sp : BitVec 5)
  /-- LD_N16: Loads a zero-extended half per lane (R183) -/
  | ldN16 (g : BitVec 3) (vt : BitVec 7) (vo : BitVec 7) (sp : BitVec 5)
  /-- LD_I16: Loads a sign-extended half per lane (R183) -/
  | ldI16 (g : BitVec 3) (vt : BitVec 7) (vo : BitVec 7) (sp : BitVec 5)
  /-- LD_B32: Loads a word per lane (R183) -/
  | ldB32 (g : BitVec 3) (vt : BitVec 7) (vo : BitVec 7) (sp : BitVec 5)
  /-- LD_B64: Loads 8 bytes per lane into a pair (R183) -/
  | ldB64 (g : BitVec 3) (vt : BitVec 7) (vo : BitVec 7) (sp : BitVec 5)
  /-- LD_B128: Loads 16 bytes per lane into a quad (R183) -/
  | ldB128 (g : BitVec 3) (vt : BitVec 7) (vo : BitVec 7) (sp : BitVec 5)
  /-- ST_B8: Stores a byte per lane (R183) -/
  | stB8 (g : BitVec 3) (vt : BitVec 7) (vo : BitVec 7) (sp : BitVec 5)
  /-- ST_B16: Stores a half per lane (R183) -/
  | stB16 (g : BitVec 3) (vt : BitVec 7) (vo : BitVec 7) (sp : BitVec 5)
  /-- ST_B32: Stores a word per lane (R183) -/
  | stB32 (g : BitVec 3) (vt : BitVec 7) (vo : BitVec 7) (sp : BitVec 5)
  /-- ST_B64: Stores a pair per lane (R183) -/
  | stB64 (g : BitVec 3) (vt : BitVec 7) (vo : BitVec 7) (sp : BitVec 5)
  /-- ST_B128: Stores a quad per lane (R183) -/
  | stB128 (g : BitVec 3) (vt : BitVec 7) (vo : BitVec 7) (sp : BitVec 5)
  /-- AADD_I32: Atomic 32-bit add returning the old value (R185) -/
  | aaddI32 (g : BitVec 3) (vt : BitVec 7) (vo : BitVec 7) (sp : BitVec 5)
  /-- AADD_I64: Atomic 64-bit add returning the old value (R185) -/
  | aaddI64 (g : BitVec 3) (vt : BitVec 7) (vo : BitVec 7) (sp : BitVec 5)
  /-- AADD_F32: Atomic FP32 add rounded under the sampled mode (R186) -/
  | aaddF32 (g : BitVec 3) (vt : BitVec 7) (vo : BitVec 7) (sp : BitVec 5)
  /-- AMIN_I32: Atomic signed minimum (R185) -/
  | aminI32 (g : BitVec 3) (vt : BitVec 7) (vo : BitVec 7) (sp : BitVec 5)
  /-- AMAX_I32: Atomic signed maximum (R185) -/
  | amaxI32 (g : BitVec 3) (vt : BitVec 7) (vo : BitVec 7) (sp : BitVec 5)
  /-- AMIN_N32: Atomic unsigned minimum (R185) -/
  | aminN32 (g : BitVec 3) (vt : BitVec 7) (vo : BitVec 7) (sp : BitVec 5)
  /-- AMAX_N32: Atomic unsigned maximum (R185) -/
  | amaxN32 (g : BitVec 3) (vt : BitVec 7) (vo : BitVec 7) (sp : BitVec 5)
  /-- AMIN_F32: Atomic FP32 minimum under R140 (R186) -/
  | aminF32 (g : BitVec 3) (vt : BitVec 7) (vo : BitVec 7) (sp : BitVec 5)
  /-- AMAX_F32: Atomic FP32 maximum under R140 (R186) -/
  | amaxF32 (g : BitVec 3) (vt : BitVec 7) (vo : BitVec 7) (sp : BitVec 5)
  /-- AAND: Atomic bitwise and (R185) -/
  | aand (g : BitVec 3) (vt : BitVec 7) (vo : BitVec 7) (sp : BitVec 5)
  /-- AOR: Atomic bitwise or (R185) -/
  | aor (g : BitVec 3) (vt : BitVec 7) (vo : BitVec 7) (sp : BitVec 5)
  /-- AXOR: Atomic bitwise exclusive or (R185) -/
  | axor (g : BitVec 3) (vt : BitVec 7) (vo : BitVec 7) (sp : BitVec 5)
  /-- AXCHG_B32: Atomic 32-bit exchange (R185) -/
  | axchgB32 (g : BitVec 3) (vt : BitVec 7) (vo : BitVec 7) (sp : BitVec 5)
  /-- AXCHG_B64: Atomic 64-bit exchange (R185) -/
  | axchgB64 (g : BitVec 3) (vt : BitVec 7) (vo : BitVec 7) (sp : BitVec 5)
  /-- ACAS_B32: Atomic 32-bit compare-and-swap (R185) -/
  | acasB32 (g : BitVec 3) (vt : BitVec 7) (vo : BitVec 7) (sp : BitVec 5)
  /-- ACAS_B64: Atomic 64-bit compare-and-swap (R185) -/
  | acasB64 (g : BitVec 3) (vt : BitVec 7) (vo : BitVec 7) (sp : BitVec 5)
  /-- VPOOL_B32: Contributes 4-byte values to pooled lines under SR.PTAG (R187) -/
  | vpoolB32 (g : BitVec 3) (vt : BitVec 7) (vo : BitVec 7) (sp : BitVec 5)
  /-- VPOOL_B64: Contributes 8-byte values to pooled lines under SR.PTAG (R187) -/
  | vpoolB64 (g : BitVec 3) (vt : BitVec 7) (vo : BitVec 7) (sp : BitVec 5)
  /-- SLD_B32: Scalar 4-byte load (R189) -/
  | sldB32 (d : BitVec 7) (sp : BitVec 5) (off : BitVec 12)
  /-- SLD_B64: Scalar 8-byte load into a pair (R189) -/
  | sldB64 (d : BitVec 7) (sp : BitVec 5) (off : BitVec 12)
  /-- SST_B32: Scalar 4-byte store (R189) -/
  | sstB32 (d : BitVec 7) (sp : BitVec 5) (off : BitVec 12)
  /-- SST_B64: Scalar 8-byte store (R189) -/
  | sstB64 (d : BitVec 7) (sp : BitVec 5) (off : BitVec 12)
  /-- SAADD_B64: Scalar atomic 64-bit add (R189) -/
  | saaddB64 (d : BitVec 7) (sp : BitVec 5) (off : BitVec 12)
  /-- SCAS_B64: Scalar atomic 64-bit compare-and-swap (R189) -/
  | scasB64 (d : BitVec 7) (sp : BitVec 5) (off : BitVec 12)
  /-- SPREFETCH: Asks for a line to be brought into L1, with no architectural effect (R190) -/
  | sprefetch (sp : BitVec 5) (off : BitVec 12)
  /-- SLDU_B32: Scalar 4-byte load that takes no lease (R190) -/
  | slduB32 (d : BitVec 7) (sp : BitVec 5) (off : BitVec 12)
  /-- AAPP_B32: Appends a word per lane at the segment's reserve tail (R191) -/
  | aappB32 (g : BitVec 3) (vt : BitVec 7) (vo : BitVec 7) (sp : BitVec 5)
  /-- AAPP_B128: Appends 16 bytes per lane at the reserve tail (R191) -/
  | aappB128 (g : BitVec 3) (vt : BitVec 7) (vo : BitVec 7) (sp : BitVec 5)
  /-- AAPPL: Appends a per-lane length of data at the reserve tail (R191) -/
  | aappl (g : BitVec 3) (vt : BitVec 7) (vo : BitVec 7) (sp : BitVec 5)
  /-- CCOPY: Submits a strided 2-D copy to a copy context (R211) -/
  | ccopy (ctx : BitVec 3) (td : BitVec 5) (ts : BitVec 5) (sl : BitVec 6) (sb : BitVec 5)
  /-- CBLOCK: Submits a contiguous block copy (R211) -/
  | cblock (ctx : BitVec 3) (td : BitVec 5) (ts : BitVec 5) (sl : BitVec 6) (sb : BitVec 5)
  /-- CFILL: Submits a fill of a shape with a pattern word (R211) -/
  | cfill (ctx : BitVec 3) (td : BitVec 5) (ts : BitVec 5) (sl : BitVec 6) (sb : BitVec 5)
  /-- CGATHER: Submits a row gather through an index array (R211) -/
  | cgather (ctx : BitVec 3) (td : BitVec 5) (ts : BitVec 5) (sl : BitVec 6) (sb : BitVec 5)
  /-- CPREFETCH: Submits a prefetch of a tile into its L2 homes (R212) -/
  | cprefetch (ctx : BitVec 3) (ts : BitVec 5) (sl : BitVec 6) (sb : BitVec 5)
  /-- CPROMOTE: Submits a migration of a tile's pages to HBM (R212) -/
  | cpromote (ctx : BitVec 3) (ts : BitVec 5) (sl : BitVec 6) (sb : BitVec 5)
  /-- MLOOP: Submits K-steps of a matrix multiply-accumulate on a tile (R218) -/
  | mloop (acc : BitVec 4) (ta : BitVec 5) (tb : BitVec 5) (sk : BitVec 5) (vf : BitVec 5)
  /-- MLOOP_G: Submits a matrix loop whose A rows are gathered (R219) -/
  | mloopG (acc : BitVec 4) (ta : BitVec 5) (tb : BitVec 5) (sk : BitVec 5) (vf : BitVec 5)
  /-- MLOOP_CX: Submits a complex matrix loop on a tile pair (R218) -/
  | mloopCx (acc : BitVec 4) (ta : BitVec 5) (tb : BitVec 5) (sk : BitVec 5) (vf : BitVec 5)
  /-- MDRAIN: Submits a drain of an accumulator tile to memory (R220) -/
  | mdrain (acc : BitVec 4) (ta : BitVec 5) (sk : BitVec 5) (vf : BitVec 5)
  /-- MDRAIN_MX: Submits a requantising drain to an MX format with scales (R221) -/
  | mdrainMx (acc : BitVec 4) (ta : BitVec 5) (tb : BitVec 5) (sk : BitVec 5) (vf : BitVec 5)
  /-- MZERO: Submits a zeroing of an accumulator tile (R222) -/
  | mzero (acc : BitVec 4)
  /-- MLOAD: Submits a load of an accumulator tile from memory (R222) -/
  | mload (acc : BitVec 4) (ta : BitVec 5)
  /-- MPROG: Submits a marker that arrives at a barrier on its turn (R222) -/
  | mprog (acc : BitVec 4) (sk : BitVec 5)
  /-- BARINIT: Initialises a scratchpad barrier (R226) -/
  | barinit (a : BitVec 7) (b : BitVec 7)
  /-- BARARRIVE: Adds arrivals to a barrier and tests for completion (R226) -/
  | bararrive (d : BitVec 7) (a : BitVec 7) (b : BitVec 7)
  /-- BAREXPECT: Adds expected bytes to a barrier and tests for completion (R226) -/
  | barexpect (d : BitVec 7) (a : BitVec 7) (b : BitVec 7)
  /-- BARQUERY: Reads a snapshot of a barrier (R226) -/
  | barquery (d : BitVec 7) (a : BitVec 7)
  /-- TLREAD: Reads a context's timeline counter or submission count (R227) -/
  | tlread (d : BitVec 7) (a : BitVec 7)
  /-- WAIT: Waits on a wait set, parking the active lanes until a member fires or the timeout passes (R230) -/
  | wait (d : BitVec 7) (a : BitVec 7) (tmo : BitVec 6)
  /-- WAIT_INLINE: Waits on one inline member descriptor (R230) -/
  | waitInline (d : BitVec 7) (a : BitVec 7) (tmo : BitVec 6)
  /-- SETTLE: Holds issue until the wave's outstanding counts fall to bounds (R231) -/
  | settle (nl : BitVec 5) (ns : BitVec 5) (nc : BitVec 5) (nm : BitVec 5)
  /-- FENCE_SYS: Writes back earlier host-memory writes and orders later host accesses (R232) -/
  | fenceSys
  /-- FLUSH: Writes back dirty host lines of a range from L2 (R232) -/
  | flush (d : BitVec 7) (a : BitVec 7) (b : BitVec 7)
  /-- INVAL: Writes back and discards host lines of a range from L2 (R232) -/
  | inval (d : BitVec 7) (a : BitVec 7) (b : BitVec 7)
  /-- CLOCK: Reads the core's cycle count (R233) -/
  | clock (d : BitVec 7)
  /-- WSPAWN: Creates a wave in the issuing gang (R240) -/
  | wspawn (d : BitVec 7) (a : BitVec 7) (b : BitVec 7)
  /-- WEXIT: Ends a wave at its next issue boundary (R241) -/
  | wexit (d : BitVec 7) (a : BitVec 7)
  /-- RSPAWN: Launches a range from a launch descriptor (R242) -/
  | rspawn (d : BitVec 7) (a : BitVec 7) (b : BitVec 7)
  /-- ODUP: Makes a new handle entry with narrowed rights (R243) -/
  | odup (d : BitVec 7) (a : BitVec 7) (b : BitVec 7)
  /-- OCLOSE: Frees a handle's entry, ending the object on its last entry (R243) -/
  | oclose (d : BitVec 7) (a : BitVec 7)
  /-- OINFO: Returns an information item of an object (R243) -/
  | oinfo (d : BitVec 7) (a : BitVec 7) (b : BitVec 7)
  /-- WSNEW: Creates a wait set (R239) -/
  | wsnew (d : BitVec 7)
  /-- WSADD: Adds a member to a wait set at its lowest free index (R244) -/
  | wsadd (d : BitVec 7) (a : BitVec 7) (b : BitVec 7)
  /-- WSDEL: Deletes a member of a wait set (R244) -/
  | wsdel (d : BitVec 7) (a : BitVec 7) (b : BitVec 7)
  /-- TNEW: Creates a timer (R239) -/
  | tnew (d : BitVec 7)
  /-- TARM: Arms a timer with an absolute deadline (R244) -/
  | tarm (d : BitVec 7) (a : BitVec 7) (b : BitVec 7)
  /-- TCANCEL: Disarms a timer (R244) -/
  | tcancel (d : BitVec 7) (a : BitVec 7)
  /-- PNEW: Creates a port from a port descriptor (R245) -/
  | pnew (d : BitVec 7) (a : BitVec 7)
  /-- PSEND: Sends a message block through a port or proxy slot (R247) -/
  | psend (d : BitVec 7) (a : BitVec 7) (b : BitVec 7)
  /-- PGRANT: Sends a message that grants pages to a port (R316) -/
  | pgrant (d : BitVec 7) (a : BitVec 7) (b : BitVec 7)
  /-- PRECV: Takes the oldest message of a port (R327) -/
  | precv (d : BitVec 7) (a : BitVec 7) (b : BitVec 6)
  /-- PSLOT: Installs or empties a handle in the gang's port slot table (R246) -/
  | pslot (d : BitVec 7) (a : BitVec 7) (b : BitVec 6)
  /-- PNAME: Resolves a name to a new PROXY handle (R337) -/
  | pname (d : BitVec 7) (a : BitVec 7)
  /-- PREG: Binds a name to a port in the name domain (R248) -/
  | preg (d : BitVec 7) (a : BitVec 7) (b : BitVec 7)
  /-- ANEW: Maps a new amber segment (R249) -/
  | anew (d : BitVec 7) (a : BitVec 7) (b : BitVec 7)
  /-- ASEAL: Seals a segment, freezing its reserve tail (R312) -/
  | aseal (d : BitVec 7) (a : BitVec 7)
  /-- AFREE: Seals and begins freeing a segment (R250) -/
  | afree (d : BitVec 7) (a : BitVec 7)
  /-- ATAIL: Reads a segment's reserve or commit tail (R311) -/
  | atail (d : BitVec 7) (a : BitVec 7) (b : BitVec 7)
  /-- RGNEW: Creates a child region from an RCB image (R251) -/
  | rgnew (d : BitVec 7) (a : BitVec 7) (b : BitVec 7)
  /-- RGSET: Writes one field of a descendant region's RCB (R251) -/
  | rgset (d : BitVec 7) (a : BitVec 7) (b : BitVec 7)
  /-- WREAD: Reads held state of a wave of the gang (R253) -/
  | wread (d : BitVec 7) (a : BitVec 7) (b : BitVec 7)
  /-- WWRITE: Writes held state of a wave of the gang (R253) -/
  | wwrite (d : BitVec 7) (a : BitVec 7) (b : BitVec 7)
  /-- WRESUME: Releases a held wave (R254) -/
  | wresume (d : BitVec 7) (a : BitVec 7)
  /-- GSAVED: Records a wave saved, or in the leader releases the gang's placement (R259) -/
  | gsaved (d : BitVec 7)
  /-- RDLOG: Reads a word of an operand-log entry image (R254) -/
  | rdlog (d : BitVec 7) (a : BitVec 7) (b : BitVec 7)
  /-- CSAVEQ: Writes the gang block, remainder descriptors and accumulators to the CSA (R256) -/
  | csaveq (d : BitVec 7) (a : BitVec 7)
  /-- CREPLAY: Restores engine context state and re-enters saved operations (R258) -/
  | creplay (d : BitVec 7) (a : BitVec 7)
  /-- TLBINV: Drops cached translations of the region's address space (R254) -/
  | tlbinv (d : BitVec 7) (a : BitVec 7) (b : BitVec 7)
  /-- CKMARK: Opens the next checkpoint generation and starts its copy (R389) -/
  | ckmark (d : BitVec 7) (a : BitVec 7)
  /-- VFRINT: Rounds FP32 to an integral value under the sampled mode (R142) -/
  | vfrint (g : BitVec 3) (d : BitVec 7) (a : BitVec 7)
  /-- VFFLOOR: Rounds FP32 down to an integral value (R142) -/
  | vffloor (g : BitVec 3) (d : BitVec 7) (a : BitVec 7)
  /-- VFCEIL: Rounds FP32 up to an integral value (R142) -/
  | vfceil (g : BitVec 3) (d : BitVec 7) (a : BitVec 7)
  /-- VFTRUNC: Rounds FP32 toward zero to an integral value (R142) -/
  | vftrunc (g : BitVec 3) (d : BitVec 7) (a : BitVec 7)
  /-- VFCLASS: Classifies an FP32 encoding into a one-hot mask (R143) -/
  | vfclass (g : BitVec 3) (d : BitVec 7) (a : BitVec 7)
  /-- VFEXP: Extracts the unbiased exponent of an FP32 value (R143) -/
  | vfexp (g : BitVec 3) (d : BitVec 7) (a : BitVec 7)
  /-- VFMANT: Extracts the signed mantissa in [1, 2) (R143) -/
  | vfmant (g : BitVec 3) (d : BitVec 7) (a : BitVec 7)
  /-- VFMED3: Writes the middle of three FP32 values (R143) -/
  | vfmed3 (g : BitVec 3) (d : BitVec 7) (a : BitVec 7) (b : BitVec 7)
  /-- XIMM: Prefix word that widens the following word's immediate (R109) -/
  | ximm (p : BitVec 24)
  /-- XOP: Prefix word giving a third source, modifiers, saturation or a rounding override (R110) -/
  | xop (p : BitVec 18)
  /-- HINT: Prefix word marking registers dead or giving a scheduling hint (R111) -/
  | hint (p : BitVec 24)
  /-- GUARD: Prefix word naming a guard predicate, possibly negated (R112) -/
  | guard (neg : BitVec 1) (pg : BitVec 4)
  /-- TRAP_ENTRY: A wave takes a pending asynchronous or deferred-precise trap at an issue boundary and enters S mode (R371) -/
  | trapEntry (w : Nat)
  /-- DEFERRED_PRECISE_TRAP: An unresolvable oldest log entry stops issue and the wave enters its trap once issued work completes (R200) -/
  | deferredPreciseTrap (w : Nat)
  /-- PAGE_FILL: The Cistern completes resolution of a resolvable page fault and releases the waiters (R275) -/
  | pageFill (rg : Nat) (va : Nat) (die : Nat)
  /-- MIGRATION_DONE: A host-side page move completes and MIG clears (R289) -/
  | migrationDone (rg : Nat) (va : Nat) (die : Nat)
  /-- ENGINE_CHUNK_LAND: A copy chunk lands, advancing PROG and the named barrier's LANDED (R213) -/
  | engineChunkLand (gang : Nat) (ctx : Nat) (num : Nat) (chunk : Nat)
  /-- MATRIX_ROW_DONE: A matrix engine completes a row of a K-step, drain, zero or load (R218) -/
  | matrixRowDone (gang : Nat) (ctx : Nat)
  /-- MPROG_ARRIVE: A marker reaches its turn in its matrix context and adds an arrival to a barrier (R222) -/
  | mprogArrive (gang : Nat) (ctx : Nat)
  /-- ENGINE_FAULT: An engine translation ends unresolvably and the context stops, pending a trap to the issuing wave (R207) -/
  | engineFault (gang : Nat) (ctx : Nat) (num : Nat)
  /-- WAIT_WAKE: A member of a parked group becomes satisfied and the group wakes with its result (R52) -/
  | waitWake (w : Nat) (grp : Nat)
  /-- WAIT_TIMEOUT: A parked group's deadline passes and it wakes with TIMEOUT (R52) -/
  | waitTimeout (w : Nat) (grp : Nat)
  /-- TIMER_EXPIRE: An armed timer's deadline is reached and it becomes satisfied (R244) -/
  | timerExpire (timer : Nat)
  /-- PLACEMENT: A cluster runs the placement procedure over the eligible waiting units (R355) -/
  | placement (cluster : Nat)
  /-- COHORT_START: A placed cohort's first wave issues within 2 microseconds of placement (R356) -/
  | cohortStart (cohort : Nat)
  /-- UNIT_AGED: A waiting unit's age reaches AGELIMIT (R358) -/
  | unitAged (saved : Bool) (unit : Nat)
  /-- QUANTUM_EXPIRY: A gang on a reserved core reaches QUANTUM cycles and PREEMPT is raised in its cohort (R360) -/
  | quantumExpiry (gang : Nat)
  /-- SAVE_DRAIN_OVERRUN: A PREEMPT save exceeds its 40 microsecond bound and the fault domain is discarded (R377) -/
  | saveDrainOverrun (cohort : Nat)
  /-- DEADLOCK_DETECT: A region deadlocked for 2^20 cycles raises DEADLOCK in its gang leaders (R382) -/
  | deadlockDetect (rg : Nat)
  /-- PROGRESS_STALL: A region's progress counter reaches 2^26 cycles; it freezes and STALL is raised (R383) -/
  | progressStall (rg : Nat)
  /-- MEMERR: An uncorrectable error in data read from storage discards the fault domain (R375) -/
  | memerr (rg : Nat)
  /-- DISCARD_RELEASE: Once the subtree's accesses have performed, its resources are released and CHILDDISCARD is raised (R386) -/
  | discardRelease (rg : Nat)
  /-- COMMIT_TAIL_ADVANCE: Appended bytes land and the segment's commit tail advances past them (R310) -/
  | commitTailAdvance (seg : Nat) (blk : Nat)
  /-- ASEAL_DONE: The commit tail reaches the frozen tail and aseal's status is written (R312) -/
  | asealDone (seg : Nat)
  /-- AFREE_DONE: afree's work completes: replicas invalidated, pages unmapped, FREEDONE raised (R314) -/
  | afreeDone (seg : Nat)
  /-- REPLICA_CREATE: A die takes a replica of a sealed segment page in its own HBM (R313) -/
  | replicaCreate (seg : Nat) (page : Nat) (die : Nat)
  /-- REMOTE_SEND_REQUEST: A send through a proxy reaches the remote port's home, which checks and delivers it (R323) -/
  | remoteSendRequest (link : Nat) (src : Nat) (wave : Nat) (tag : Nat) (incarn : Nat) (port : Nat) (origin : Nat) (header : Nat) (eight : Bool) (words : List Nat)
  /-- SEND_REPLY: The remote home's reply reaches the sender and its status is written (R323) -/
  | sendReply (link : Nat) (incarn : Nat) (send : Nat) (status : Nat)
  /-- GRANT_RESERVATION: A cross-module grant reservation reaches the port's home, which reserves slot and frames (R334) -/
  | grantReservation (link : Nat) (src : Nat) (wave : Nat) (tag : Nat) (incarn : Nat) (port : Nat) (origin : Nat) (header : Nat) (eight : Bool) (words : List Nat) (gword : Nat)
  /-- GRANT_POINT_REPLY: The accepting reply reaches the sender, making the grant point (R334) -/
  | grantPointReply (link : Nat) (incarn : Nat) (send : Nat) (status : Nat)
  /-- GRANT_PAGE_COPY: The fabric finishes copying granted pages, maps the landing slot and delivers the message (R334) -/
  | grantPageCopy (link : Nat) (incarn : Nat) (resv : Nat) (pages : List (List (BitVec 8)))
  /-- GRANT_ACK: The remote acknowledgement arrives and the sender's frames are freed (R334) -/
  | grantAck (link : Nat) (incarn : Nat) (send : Nat)
  /-- PEER_DEAD: A module declares a peer dead after silence or a reboot announcement (R340) -/
  | peerDead (module : Nat) (announced : Bool)
  /-- FLIT_RECEIVE: A link port receives a flit and hands it up in order, deduplicating requests (R341) -/
  | flitReceive (port : Nat) (flit : List (BitVec 8)) (crcOk : Bool)
  /-- NAK_RECEIVE: A NAK causes the sender to replay from the named flit (R342) -/
  | nakReceive (port : Nat) (seq : Nat)
  /-- LINK_RETRAIN_DONE: A retraining ends, the port resuming or going down after three failures (R342) -/
  | linkRetrainDone (port : Nat) (ok : Bool)
  /-- CHECKPOINT_PAGE_COPY: The Cistern copies one pending page to the checkpoint destination (R389) -/
  | checkpointPageCopy (rg : Nat) (page : Nat)
  /-- CHECKPOINT_IMAGE_DONE: A checkpoint image is complete and its header is written last (R391) -/
  | checkpointImageDone (rg : Nat)
  /-- REFRESH_INTERVAL: An HBM channel's refresh interval ends and its debt rises (R283) -/
  | refreshInterval (ch : Nat)
  /-- REFRESH: A channel performs an all-bank refresh, pulled in, postponed or forced (R283) -/
  | refresh (ch : Nat) (waiting : Bool)
  /-- FLUSH_DONE: Every line of a flush or inval range is written back and Sd is written (R232) -/
  | flushDone (job : Nat)
  /-- ENERGY_WINDOW_START: At each 1 ms window start every region account and the module account are refilled (R365) -/
  | energyWindowStart
  /-- ENERGY_METER_READ: Each core's energy meter is read every 10 microseconds and charged to its gangs (R366) -/
  | energyMeterRead (core : Nat) (energy : Nat) (traffic : List (Nat × Nat × Nat))
  /-- THERMAL_CAP_UPDATE: Jasper recomputes the thermal and effective cap every 1 ms (R407) -/
  | thermalCapUpdate (tjmax : Nat) (tin : Nat) (flow : Nat)
  /-- THERMAL_TRIP: A thermal or coolant limit discards the root region and sets BOOTSTATE 6 (R408) -/
  | thermalTrip
  /-- COOLANT_TIMEOUT: Inlet temperature or flow stays out of limits for 1 s (R408) -/
  | coolantTimeout
  /-- DIE_POWER_OFF: The compute dies lose power 1 s after a thermal trip (R408) -/
  | diePowerOff
  /-- COLD_RESET: Module cold reset clears SR.TIME and runs the boot steps (R401) -/
  | coldReset
  /-- WARM_BOOT: Warm boot verifies images, trains memory and links and makes queues fetchable (R401) -/
  | warmBoot
  /-- CLUSTER_START: During power-up one cluster starts every 2 microseconds (R22) -/
  | clusterStart (cluster : Nat)
  /-- JASPER_HEARTBEAT_TIMEOUT: No Jasper heartbeat for 10 ms starts a firmware restart (R404) -/
  | jasperHeartbeatTimeout
  /-- JASPER_EXCEPTION: A Jasper exception starts a firmware restart (R404) -/
  | jasperException
  /-- FIRMWARE_RESTART_DONE: A firmware restart ends and held completions are written (R404) -/
  | firmwareRestartDone
  /-- DOORBELL_WRITE: A host doorbell write raises a queue's LATCH or sets OVERRUN or ERROR (R347) -/
  | doorbellWrite (q : Nat) (size : Nat) (val : Nat)
  /-- QUEUE_ENABLE: Setting EN clears ERROR and validates the queue context (R346) -/
  | queueEnable (q : Nat)
  /-- QUEUE_DISABLE: Clearing EN stops fetching and clears CI and LATCH (R346) -/
  | queueDisable (q : Nat)
  /-- SCHED_PARAM_WRITE: A write of AGELIMIT or QUANTUM, refused when out of limits (R357) -/
  | schedParamWrite (quantum : Bool) (val : Nat)
  /-- CAP_WRITE: A write of the host power cap, refused with CAPERR when invalid (R406) -/
  | capWrite (val : Nat)
  /-- REGISTER_WRITE: A host write to a register window field with no behaviour of its own (R393) -/
  | registerWrite (fn : Nat) (off : Nat) (size : Nat) (val : Nat)
  /-- PKT_NOP: NOP packet, completing at acceptance (R398) -/
  | pktNop (q : Nat)
  /-- LAUNCH: LAUNCH packet accepting a range in the queue's region (R398) -/
  | launch (q : Nat)
  /-- SIGNAL: SIGNAL packet storing or adding to a target word with a promoted release (R398) -/
  | signal (q : Nat)
  /-- WAITSIG: WAITSIG packet waiting for a word to reach a value (R398) -/
  | waitsig (q : Nat)
  /-- WAITSIG_SATISFIED: A WAITSIG packet's word reaches its value and the packet completes (R398) -/
  | waitsigSatisfied (pkt : Nat)
  /-- COPY: COPY packet moving bytes between VAs in 4 KiB chunks (R398) -/
  | copy (q : Nat)
  /-- PACKET_COPY_DONE: A COPY packet's bytes have moved and it completes (R398) -/
  | packetCopyDone (pkt : Nat)
  /-- REGION_CREATE: REGION packet creating a child region from a host RCB image (R398) -/
  | regionCreate (q : Nat)
  /-- REGION_SET: REGION packet setting one field of a region (R398) -/
  | regionSet (q : Nat)
  /-- REGION_DISCARD: REGION packet discarding a fault-domain region (R398) -/
  | regionDiscard (q : Nat)
  /-- CKPT: CKPT packet setting a checkpoint destination and opening a generation (R391) -/
  | ckpt (q : Nat)
  /-- RESTORE: RESTORE packet applying a chain of checkpoint images to a region's pages (R390) -/
  | restore (q : Nat)
  /-- BIAS_FLIP_DEVICE: BIASCMD write starting a flip of a granule to device bias with back-invalidate snoops (R395) -/
  | biasFlipDevice (gran : Nat)
  /-- BIAS_FLIP_HOST: BIASCMD write starting a flip of a granule to host bias with write-back (R395) -/
  | biasFlipHost (gran : Nat)
  /-- BIAS_SNOOP_RESPONSE: A back-invalidate response arrives; on the last, the bitmap bit sets and BUSY clears (R395) -/
  | biasSnoopResponse (line : Nat) (modified : Bool) (data : List (BitVec 8))
  /-- BIAS_SNOOP_TIMEOUT: A line's snoop response exceeds 10 ms; it keeps its HBM value and TMO sets (R395) -/
  | biasSnoopTimeout (line : Nat)
  /-- BIAS_FLIP_HOST_DONE: Write-back of a host-bias flip completes; the bit and BUSY clear (R395) -/
  | biasFlipHostDone
  /-- MIG_TO_HOST: MIGCMD command moving a page to the host (R396) -/
  | migToHost (rindex : Nat) (va : Nat) (frame : Nat)
  /-- MIG_TO_DEVICE: MIGCMD command moving a page to the device (R396) -/
  | migToDevice (rindex : Nat) (va : Nat)
  /-- MIG_PIN_RELEASE: MIGCMD command clearing a page's PIN (R396) -/
  | migPinRelease (rindex : Nat) (va : Nat)
  /-- DOMAIN: Mailbox command setting module index and domain size (R405) -/
  | domain (m : Nat) (d : Nat)
  /-- RESTART: Mailbox command starting a firmware restart (R405) -/
  | restart
  /-- STAGE: Mailbox command writing a new image to the second flash bank (R405) -/
  | stage (image : Nat) (version : Nat) (sigOk : Bool) (digest : Nat)
  /-- COMMIT: Mailbox command raising a fused anti-rollback counter (R405) -/
  | commit (image : Nat) (version : Nat)
  /-- GET_VERSION: SPDM request answered by Beryl (R402) -/
  | getVersion
  /-- GET_CAPABILITIES: SPDM request answered by Beryl (R402) -/
  | getCapabilities
  /-- NEGOTIATE_ALGORITHMS: SPDM request answered by Beryl (R402) -/
  | negotiateAlgorithms
  /-- GET_DIGESTS: SPDM request answered by Beryl (R402) -/
  | getDigests
  /-- GET_CERTIFICATE: SPDM request answered by Beryl (R402) -/
  | getCertificate (slot : Nat)
  /-- CHALLENGE: SPDM challenge signed with the slot 0 device key (R402) -/
  | challenge (slot : Nat) (nonce : Nat)
  /-- GET_MEASUREMENTS: SPDM request returning the SHA-384 measurements (R402) -/
  | getMeasurements (index : Nat)
  /-- UNSUPPORTED_REQUEST: A host request using an unsupported option completes as Unsupported Request (R392) -/
  | unsupportedRequest
  /-- HOST_WINDOW_ACCESS: A host access to the coherent window performs at the line's home slice on D0 (R394) -/
  | hostWindowAccess (write : Bool) (pa : Nat) (size : Nat) (val : Nat)
  /-- ILLEGAL_ENCODING: A word of class 30, an unassigned function code, a prefix kind 4 to 7 or a word with nonzero reserved bits issues and raises ILLEGAL (R104) -/
  | illegalEncoding (w : BitVec 32)
  /-- BADPKT: A fetched queue packet whose TYPE is above 7, or whose header or CADDR breaks the limits, is accepted and completes with BADPKT without running (R397) -/
  | badpkt (q : Nat)
  /-- RESTORE_DONE: A RESTORE packet's page writes finish and its completion word is written (R390) -/
  | restoreDone (pkt : Nat)
  /-- UNKNOWN_MAILBOX_COMMAND: A write of the mailbox request's first word naming no known command completes with result 2, unknown (R405) -/
  | unknownMailboxCommand (code : Nat)
  deriving DecidableEq, Repr

end Sys2Proof
end

