-- ==== Sys2Proof/Rows.lean ====
section
/-! DEFINITION. Which rows are instruction words and which are events (spec/07, spec/95). -/

namespace Sys2Proof

/-- A row with an encoding of its own (Table 7.2). -/
def Instr.isWord : Instr → Bool
  | .vaddI32 .. => true
  | .vsubI32 .. => true
  | .vmulloI32 .. => true
  | .vmulhiI32 .. => true
  | .vmulhiN32 .. => true
  | .vmadI32 .. => true
  | .vminI32 .. => true
  | .vminN32 .. => true
  | .vmaxI32 .. => true
  | .vmaxN32 .. => true
  | .vabsdI32 .. => true
  | .vabsdN32 .. => true
  | .vaddsI32 .. => true
  | .vsubsI32 .. => true
  | .vaddsN32 .. => true
  | .vsubsN32 .. => true
  | .vand .. => true
  | .vor .. => true
  | .vxor .. => true
  | .vandn .. => true
  | .vshl .. => true
  | .vshrN32 .. => true
  | .vshrI32 .. => true
  | .vrotl .. => true
  | .vpopc .. => true
  | .vclz .. => true
  | .vbrev .. => true
  | .vbfeN32 .. => true
  | .vbfeI32 .. => true
  | .vbfi .. => true
  | .vsel .. => true
  | .vmov .. => true
  | .vfaddF32 .. => true
  | .vfsubF32 .. => true
  | .vfmulF32 .. => true
  | .vfmaF32 .. => true
  | .vfminF32 .. => true
  | .vfmaxF32 .. => true
  | .vfsgnF32 .. => true
  | .vfscaleF32 .. => true
  | .vhaddF16x2 .. => true
  | .vhmulF16x2 .. => true
  | .vhfmaF16x2 .. => true
  | .vhaddBf16x2 .. => true
  | .vhmulBf16x2 .. => true
  | .vhfmaBf16x2 .. => true
  | .vhminF16x2 .. => true
  | .vhmaxF16x2 .. => true
  | .vdaddF64 .. => true
  | .vdsubF64 .. => true
  | .vdmulF64 .. => true
  | .vdfmaF64 .. => true
  | .vdminF64 .. => true
  | .vdmaxF64 .. => true
  | .vdsqrtF64 .. => true
  | .vddivF64 .. => true
  | .vrcpF32 .. => true
  | .vrsqF32 .. => true
  | .vsqrtF32 .. => true
  | .vexp2F32 .. => true
  | .vlog2F32 .. => true
  | .vsinpiF32 .. => true
  | .vcospiF32 .. => true
  | .vdivF32 .. => true
  | .vcmpEqI32 .. => true
  | .vcmpLtI32 .. => true
  | .vcmpLtN32 .. => true
  | .vcmpLeI32 .. => true
  | .vcmpEqF32 .. => true
  | .vcmpLtF32 .. => true
  | .vcmpLeF32 .. => true
  | .vcmpUnF32 .. => true
  | .vcvtn .. => true
  | .vcvtw .. => true
  | .vcvti2f .. => true
  | .vcvtf2i .. => true
  | .vcvtd2f .. => true
  | .vcvtf2d .. => true
  | .vsrnd .. => true
  | .vmxs .. => true
  | .vaddi .. => true
  | .vmuli .. => true
  | .vandi .. => true
  | .vori .. => true
  | .vxori .. => true
  | .vshli .. => true
  | .vshriN32 .. => true
  | .vshriI32 .. => true
  | .vshf .. => true
  | .vshfx .. => true
  | .vshfup .. => true
  | .vshfdn .. => true
  | .vredsumI32 .. => true
  | .vredmaxF32 .. => true
  | .vscanI32 .. => true
  | .vredsumF32 .. => true
  | .vdot4I8 .. => true
  | .vdot4N8 .. => true
  | .vdot4In8 .. => true
  | .vdot8I4 .. => true
  | .vdot8N4 .. => true
  | .vdot2Bf16 .. => true
  | .vdot4E4m3 .. => true
  | .vdot8E2m1 .. => true
  | .sadd .. => true
  | .ssub .. => true
  | .smullo .. => true
  | .smulhiI32 .. => true
  | .smulhiN32 .. => true
  | .sdivI32 .. => true
  | .sdivN32 .. => true
  | .sremI32 .. => true
  | .sremN32 .. => true
  | .sminI32 .. => true
  | .sminN32 .. => true
  | .smaxI32 .. => true
  | .smaxN32 .. => true
  | .sand .. => true
  | .sor .. => true
  | .sxor .. => true
  | .sshl .. => true
  | .sshrN32 .. => true
  | .sshrI32 .. => true
  | .saddI64 .. => true
  | .ssubI64 .. => true
  | .smulI64 .. => true
  | .sshlB64 .. => true
  | .sshrN64 .. => true
  | .scmpEq .. => true
  | .scmpLtI32 .. => true
  | .scmpLtN32 .. => true
  | .sfaddF32 .. => true
  | .sfmulF32 .. => true
  | .sfmaF32 .. => true
  | .scvtf2i .. => true
  | .scvti2f .. => true
  | .saddi .. => true
  | .sandi .. => true
  | .sori .. => true
  | .sxori .. => true
  | .sshli .. => true
  | .sshri .. => true
  | .slui .. => true
  | .smovi .. => true
  | .vbcast .. => true
  | .vrdlane .. => true
  | .vwrlane .. => true
  | .vlpc .. => true
  | .srsr .. => true
  | .swsr .. => true
  | .p2s .. => true
  | .s2p .. => true
  | .pand .. => true
  | .por .. => true
  | .pxor .. => true
  | .pnot .. => true
  | .ptag .. => true
  | .pcount .. => true
  | .twr .. => true
  | .trd .. => true
  | .br .. => true
  | .brp .. => true
  | .brnp .. => true
  | .brz .. => true
  | .brnz .. => true
  | .call .. => true
  | .jmpi .. => true
  | .jmpv .. => true
  | .ret .. => true
  | .exit .. => true
  | .nop .. => true
  | .yield .. => true
  | .trap .. => true
  | .brk .. => true
  | .ereturn .. => true
  | .ldN8 .. => true
  | .ldI8 .. => true
  | .ldN16 .. => true
  | .ldI16 .. => true
  | .ldB32 .. => true
  | .ldB64 .. => true
  | .ldB128 .. => true
  | .stB8 .. => true
  | .stB16 .. => true
  | .stB32 .. => true
  | .stB64 .. => true
  | .stB128 .. => true
  | .aaddI32 .. => true
  | .aaddI64 .. => true
  | .aaddF32 .. => true
  | .aminI32 .. => true
  | .amaxI32 .. => true
  | .aminN32 .. => true
  | .amaxN32 .. => true
  | .aminF32 .. => true
  | .amaxF32 .. => true
  | .aand .. => true
  | .aor .. => true
  | .axor .. => true
  | .axchgB32 .. => true
  | .axchgB64 .. => true
  | .acasB32 .. => true
  | .acasB64 .. => true
  | .vpoolB32 .. => true
  | .vpoolB64 .. => true
  | .sldB32 .. => true
  | .sldB64 .. => true
  | .sstB32 .. => true
  | .sstB64 .. => true
  | .saaddB64 .. => true
  | .scasB64 .. => true
  | .sprefetch .. => true
  | .slduB32 .. => true
  | .aappB32 .. => true
  | .aappB128 .. => true
  | .aappl .. => true
  | .ccopy .. => true
  | .cblock .. => true
  | .cfill .. => true
  | .cgather .. => true
  | .cprefetch .. => true
  | .cpromote .. => true
  | .mloop .. => true
  | .mloopG .. => true
  | .mloopCx .. => true
  | .mdrain .. => true
  | .mdrainMx .. => true
  | .mzero .. => true
  | .mload .. => true
  | .mprog .. => true
  | .barinit .. => true
  | .bararrive .. => true
  | .barexpect .. => true
  | .barquery .. => true
  | .tlread .. => true
  | .wait .. => true
  | .waitInline .. => true
  | .settle .. => true
  | .fenceSys .. => true
  | .flush .. => true
  | .inval .. => true
  | .clock .. => true
  | .wspawn .. => true
  | .wexit .. => true
  | .rspawn .. => true
  | .odup .. => true
  | .oclose .. => true
  | .oinfo .. => true
  | .wsnew .. => true
  | .wsadd .. => true
  | .wsdel .. => true
  | .tnew .. => true
  | .tarm .. => true
  | .tcancel .. => true
  | .pnew .. => true
  | .psend .. => true
  | .pgrant .. => true
  | .precv .. => true
  | .pslot .. => true
  | .pname .. => true
  | .preg .. => true
  | .anew .. => true
  | .aseal .. => true
  | .afree .. => true
  | .atail .. => true
  | .rgnew .. => true
  | .rgset .. => true
  | .wread .. => true
  | .wwrite .. => true
  | .wresume .. => true
  | .gsaved .. => true
  | .rdlog .. => true
  | .csaveq .. => true
  | .creplay .. => true
  | .tlbinv .. => true
  | .ckmark .. => true
  | .vfrint .. => true
  | .vffloor .. => true
  | .vfceil .. => true
  | .vftrunc .. => true
  | .vfclass .. => true
  | .vfexp .. => true
  | .vfmant .. => true
  | .vfmed3 .. => true
  | .ximm .. => true
  | .xop .. => true
  | .hint .. => true
  | .guard .. => true
  | .trapEntry .. => false
  | .deferredPreciseTrap .. => false
  | .pageFill .. => false
  | .migrationDone .. => false
  | .engineChunkLand .. => false
  | .matrixRowDone .. => false
  | .mprogArrive .. => false
  | .engineFault .. => false
  | .waitWake .. => false
  | .waitTimeout .. => false
  | .timerExpire .. => false
  | .placement .. => false
  | .cohortStart .. => false
  | .unitAged .. => false
  | .quantumExpiry .. => false
  | .saveDrainOverrun .. => false
  | .deadlockDetect .. => false
  | .progressStall .. => false
  | .memerr .. => false
  | .discardRelease .. => false
  | .commitTailAdvance .. => false
  | .asealDone .. => false
  | .afreeDone .. => false
  | .replicaCreate .. => false
  | .remoteSendRequest .. => false
  | .sendReply .. => false
  | .grantReservation .. => false
  | .grantPointReply .. => false
  | .grantPageCopy .. => false
  | .grantAck .. => false
  | .peerDead .. => false
  | .flitReceive .. => false
  | .nakReceive .. => false
  | .linkRetrainDone .. => false
  | .checkpointPageCopy .. => false
  | .checkpointImageDone .. => false
  | .refreshInterval .. => false
  | .refresh .. => false
  | .flushDone .. => false
  | .energyWindowStart .. => false
  | .energyMeterRead .. => false
  | .thermalCapUpdate .. => false
  | .thermalTrip .. => false
  | .coolantTimeout .. => false
  | .diePowerOff .. => false
  | .coldReset .. => false
  | .warmBoot .. => false
  | .clusterStart .. => false
  | .jasperHeartbeatTimeout .. => false
  | .jasperException .. => false
  | .firmwareRestartDone .. => false
  | .doorbellWrite .. => false
  | .queueEnable .. => false
  | .queueDisable .. => false
  | .schedParamWrite .. => false
  | .capWrite .. => false
  | .registerWrite .. => false
  | .pktNop .. => false
  | .launch .. => false
  | .signal .. => false
  | .waitsig .. => false
  | .waitsigSatisfied .. => false
  | .copy .. => false
  | .packetCopyDone .. => false
  | .regionCreate .. => false
  | .regionSet .. => false
  | .regionDiscard .. => false
  | .ckpt .. => false
  | .restore .. => false
  | .biasFlipDevice .. => false
  | .biasFlipHost .. => false
  | .biasSnoopResponse .. => false
  | .biasSnoopTimeout .. => false
  | .biasFlipHostDone .. => false
  | .migToHost .. => false
  | .migToDevice .. => false
  | .migPinRelease .. => false
  | .domain .. => false
  | .restart .. => false
  | .stage .. => false
  | .commit .. => false
  | .getVersion .. => false
  | .getCapabilities .. => false
  | .negotiateAlgorithms .. => false
  | .getDigests .. => false
  | .getCertificate .. => false
  | .challenge .. => false
  | .getMeasurements .. => false
  | .unsupportedRequest .. => false
  | .hostWindowAccess .. => false
  | .illegalEncoding .. => true
  | .badpkt .. => false
  | .restoreDone .. => false
  | .unknownMailboxCommand .. => false

/-- A fixed field of an encoding: its lowest bit, its width and its value. -/
structure FixedField where
  lo : Nat
  len : Nat
  val : Nat
  deriving DecidableEq, Repr

/-- Whether a word has a fixed field. -/
def FixedField.holds (f : FixedField) (w : Nat) : Bool := w / 2 ^ f.lo % 2 ^ f.len == f.val

/-- The rows of class 0: class, function code, and fields that are fixed (Tables 7.1, 7.2). -/
def rows0 : List (List FixedField) := [
  [⟨27, 5, 0⟩, ⟨0, 3, 0⟩],
  [⟨27, 5, 0⟩, ⟨0, 3, 1⟩],
  [⟨27, 5, 0⟩, ⟨0, 3, 2⟩],
  [⟨27, 5, 0⟩, ⟨0, 3, 3⟩],
  [⟨27, 5, 0⟩, ⟨0, 3, 4⟩],
  [⟨27, 5, 0⟩, ⟨0, 3, 5⟩],
  [⟨27, 5, 0⟩, ⟨0, 3, 6⟩],
  [⟨27, 5, 0⟩, ⟨0, 3, 7⟩]]

/-- The rows of class 1: class, function code, and fields that are fixed (Tables 7.1, 7.2). -/
def rows1 : List (List FixedField) := [
  [⟨27, 5, 1⟩, ⟨0, 3, 0⟩],
  [⟨27, 5, 1⟩, ⟨0, 3, 1⟩],
  [⟨27, 5, 1⟩, ⟨0, 3, 2⟩],
  [⟨27, 5, 1⟩, ⟨0, 3, 3⟩],
  [⟨27, 5, 1⟩, ⟨0, 3, 4⟩],
  [⟨27, 5, 1⟩, ⟨0, 3, 5⟩],
  [⟨27, 5, 1⟩, ⟨0, 3, 6⟩],
  [⟨27, 5, 1⟩, ⟨0, 3, 7⟩]]

/-- The rows of class 2: class, function code, and fields that are fixed (Tables 7.1, 7.2). -/
def rows2 : List (List FixedField) := [
  [⟨27, 5, 2⟩, ⟨0, 3, 0⟩],
  [⟨27, 5, 2⟩, ⟨0, 3, 1⟩],
  [⟨27, 5, 2⟩, ⟨0, 3, 2⟩],
  [⟨27, 5, 2⟩, ⟨0, 3, 3⟩],
  [⟨27, 5, 2⟩, ⟨0, 3, 4⟩],
  [⟨27, 5, 2⟩, ⟨0, 3, 5⟩],
  [⟨27, 5, 2⟩, ⟨0, 3, 6⟩],
  [⟨27, 5, 2⟩, ⟨0, 3, 7⟩]]

/-- The rows of class 3: class, function code, and fields that are fixed (Tables 7.1, 7.2). -/
def rows3 : List (List FixedField) := [
  [⟨27, 5, 3⟩, ⟨0, 3, 0⟩, ⟨3, 7, 0⟩],
  [⟨27, 5, 3⟩, ⟨0, 3, 1⟩, ⟨3, 7, 0⟩],
  [⟨27, 5, 3⟩, ⟨0, 3, 2⟩, ⟨3, 7, 0⟩],
  [⟨27, 5, 3⟩, ⟨0, 3, 3⟩],
  [⟨27, 5, 3⟩, ⟨0, 3, 4⟩],
  [⟨27, 5, 3⟩, ⟨0, 3, 5⟩],
  [⟨27, 5, 3⟩, ⟨0, 3, 6⟩],
  [⟨27, 5, 3⟩, ⟨0, 3, 7⟩, ⟨3, 7, 0⟩]]

/-- The rows of class 4: class, function code, and fields that are fixed (Tables 7.1, 7.2). -/
def rows4 : List (List FixedField) := [
  [⟨27, 5, 4⟩, ⟨0, 3, 0⟩],
  [⟨27, 5, 4⟩, ⟨0, 3, 1⟩],
  [⟨27, 5, 4⟩, ⟨0, 3, 2⟩],
  [⟨27, 5, 4⟩, ⟨0, 3, 3⟩],
  [⟨27, 5, 4⟩, ⟨0, 3, 4⟩],
  [⟨27, 5, 4⟩, ⟨0, 3, 5⟩],
  [⟨27, 5, 4⟩, ⟨0, 3, 6⟩],
  [⟨27, 5, 4⟩, ⟨0, 3, 7⟩]]

/-- The rows of class 5: class, function code, and fields that are fixed (Tables 7.1, 7.2). -/
def rows5 : List (List FixedField) := [
  [⟨27, 5, 5⟩, ⟨0, 3, 0⟩],
  [⟨27, 5, 5⟩, ⟨0, 3, 1⟩],
  [⟨27, 5, 5⟩, ⟨0, 3, 2⟩],
  [⟨27, 5, 5⟩, ⟨0, 3, 3⟩],
  [⟨27, 5, 5⟩, ⟨0, 3, 4⟩],
  [⟨27, 5, 5⟩, ⟨0, 3, 5⟩],
  [⟨27, 5, 5⟩, ⟨0, 3, 6⟩],
  [⟨27, 5, 5⟩, ⟨0, 3, 7⟩]]

/-- The rows of class 6: class, function code, and fields that are fixed (Tables 7.1, 7.2). -/
def rows6 : List (List FixedField) := [
  [⟨27, 5, 6⟩, ⟨0, 3, 0⟩],
  [⟨27, 5, 6⟩, ⟨0, 3, 1⟩],
  [⟨27, 5, 6⟩, ⟨0, 3, 2⟩],
  [⟨27, 5, 6⟩, ⟨0, 3, 3⟩],
  [⟨27, 5, 6⟩, ⟨0, 3, 4⟩],
  [⟨27, 5, 6⟩, ⟨0, 3, 5⟩],
  [⟨27, 5, 6⟩, ⟨0, 3, 6⟩, ⟨3, 7, 0⟩],
  [⟨27, 5, 6⟩, ⟨0, 3, 7⟩]]

/-- The rows of class 7: class, function code, and fields that are fixed (Tables 7.1, 7.2). -/
def rows7 : List (List FixedField) := [
  [⟨27, 5, 7⟩, ⟨0, 3, 0⟩, ⟨3, 7, 0⟩],
  [⟨27, 5, 7⟩, ⟨0, 3, 1⟩, ⟨3, 7, 0⟩],
  [⟨27, 5, 7⟩, ⟨0, 3, 2⟩, ⟨3, 7, 0⟩],
  [⟨27, 5, 7⟩, ⟨0, 3, 3⟩, ⟨3, 7, 0⟩],
  [⟨27, 5, 7⟩, ⟨0, 3, 4⟩, ⟨3, 7, 0⟩],
  [⟨27, 5, 7⟩, ⟨0, 3, 5⟩, ⟨3, 7, 0⟩],
  [⟨27, 5, 7⟩, ⟨0, 3, 6⟩, ⟨3, 7, 0⟩],
  [⟨27, 5, 7⟩, ⟨0, 3, 7⟩]]

/-- The rows of class 8: class, function code, and fields that are fixed (Tables 7.1, 7.2). -/
def rows8 : List (List FixedField) := [
  [⟨27, 5, 8⟩, ⟨0, 3, 0⟩],
  [⟨27, 5, 8⟩, ⟨0, 3, 1⟩],
  [⟨27, 5, 8⟩, ⟨0, 3, 2⟩],
  [⟨27, 5, 8⟩, ⟨0, 3, 3⟩],
  [⟨27, 5, 8⟩, ⟨0, 3, 4⟩],
  [⟨27, 5, 8⟩, ⟨0, 3, 5⟩],
  [⟨27, 5, 8⟩, ⟨0, 3, 6⟩],
  [⟨27, 5, 8⟩, ⟨0, 3, 7⟩]]

/-- The rows of class 9: class, function code, and fields that are fixed (Tables 7.1, 7.2). -/
def rows9 : List (List FixedField) := [
  [⟨27, 5, 9⟩, ⟨7, 3, 0⟩],
  [⟨27, 5, 9⟩, ⟨7, 3, 1⟩],
  [⟨27, 5, 9⟩, ⟨7, 3, 2⟩],
  [⟨27, 5, 9⟩, ⟨7, 3, 3⟩],
  [⟨27, 5, 9⟩, ⟨7, 3, 4⟩],
  [⟨27, 5, 9⟩, ⟨7, 3, 5⟩],
  [⟨27, 5, 9⟩, ⟨7, 3, 6⟩],
  [⟨27, 5, 9⟩, ⟨7, 3, 7⟩]]

/-- The rows of class 10: class, function code, and fields that are fixed (Tables 7.1, 7.2). -/
def rows10 : List (List FixedField) := [
  [⟨27, 5, 10⟩, ⟨7, 3, 0⟩],
  [⟨27, 5, 10⟩, ⟨7, 3, 1⟩],
  [⟨27, 5, 10⟩, ⟨7, 3, 2⟩],
  [⟨27, 5, 10⟩, ⟨7, 3, 3⟩],
  [⟨27, 5, 10⟩, ⟨7, 3, 4⟩],
  [⟨27, 5, 10⟩, ⟨7, 3, 5⟩, ⟨5, 2, 0⟩],
  [⟨27, 5, 10⟩, ⟨7, 3, 6⟩, ⟨5, 2, 0⟩],
  [⟨27, 5, 10⟩, ⟨7, 3, 7⟩, ⟨5, 2, 0⟩]]

/-- The rows of class 11: class, function code, and fields that are fixed (Tables 7.1, 7.2). -/
def rows11 : List (List FixedField) := [
  [⟨27, 5, 11⟩, ⟨0, 3, 0⟩],
  [⟨27, 5, 11⟩, ⟨0, 3, 1⟩],
  [⟨27, 5, 11⟩, ⟨0, 3, 2⟩],
  [⟨27, 5, 11⟩, ⟨0, 3, 3⟩],
  [⟨27, 5, 11⟩, ⟨0, 3, 4⟩, ⟨3, 7, 0⟩],
  [⟨27, 5, 11⟩, ⟨0, 3, 5⟩, ⟨3, 7, 0⟩],
  [⟨27, 5, 11⟩, ⟨0, 3, 6⟩, ⟨3, 7, 0⟩],
  [⟨27, 5, 11⟩, ⟨0, 3, 7⟩, ⟨3, 7, 0⟩]]

/-- The rows of class 12: class, function code, and fields that are fixed (Tables 7.1, 7.2). -/
def rows12 : List (List FixedField) := [
  [⟨27, 5, 12⟩, ⟨0, 3, 0⟩],
  [⟨27, 5, 12⟩, ⟨0, 3, 1⟩],
  [⟨27, 5, 12⟩, ⟨0, 3, 2⟩],
  [⟨27, 5, 12⟩, ⟨0, 3, 3⟩],
  [⟨27, 5, 12⟩, ⟨0, 3, 4⟩],
  [⟨27, 5, 12⟩, ⟨0, 3, 5⟩],
  [⟨27, 5, 12⟩, ⟨0, 3, 6⟩],
  [⟨27, 5, 12⟩, ⟨0, 3, 7⟩]]

/-- The rows of class 13: class, function code, and fields that are fixed (Tables 7.1, 7.2). -/
def rows13 : List (List FixedField) := [
  [⟨27, 5, 13⟩, ⟨0, 6, 0⟩],
  [⟨27, 5, 13⟩, ⟨0, 6, 1⟩],
  [⟨27, 5, 13⟩, ⟨0, 6, 2⟩],
  [⟨27, 5, 13⟩, ⟨0, 6, 3⟩],
  [⟨27, 5, 13⟩, ⟨0, 6, 4⟩],
  [⟨27, 5, 13⟩, ⟨0, 6, 5⟩],
  [⟨27, 5, 13⟩, ⟨0, 6, 6⟩],
  [⟨27, 5, 13⟩, ⟨0, 6, 7⟩],
  [⟨27, 5, 13⟩, ⟨0, 6, 8⟩],
  [⟨27, 5, 13⟩, ⟨0, 6, 9⟩],
  [⟨27, 5, 13⟩, ⟨0, 6, 10⟩],
  [⟨27, 5, 13⟩, ⟨0, 6, 11⟩],
  [⟨27, 5, 13⟩, ⟨0, 6, 12⟩],
  [⟨27, 5, 13⟩, ⟨0, 6, 13⟩],
  [⟨27, 5, 13⟩, ⟨0, 6, 14⟩],
  [⟨27, 5, 13⟩, ⟨0, 6, 15⟩],
  [⟨27, 5, 13⟩, ⟨0, 6, 16⟩],
  [⟨27, 5, 13⟩, ⟨0, 6, 17⟩],
  [⟨27, 5, 13⟩, ⟨0, 6, 18⟩],
  [⟨27, 5, 13⟩, ⟨0, 6, 19⟩],
  [⟨27, 5, 13⟩, ⟨0, 6, 20⟩],
  [⟨27, 5, 13⟩, ⟨0, 6, 21⟩],
  [⟨27, 5, 13⟩, ⟨0, 6, 22⟩],
  [⟨27, 5, 13⟩, ⟨0, 6, 23⟩],
  [⟨27, 5, 13⟩, ⟨0, 6, 24⟩],
  [⟨27, 5, 13⟩, ⟨0, 6, 25⟩],
  [⟨27, 5, 13⟩, ⟨0, 6, 26⟩],
  [⟨27, 5, 13⟩, ⟨0, 6, 27⟩],
  [⟨27, 5, 13⟩, ⟨0, 6, 28⟩],
  [⟨27, 5, 13⟩, ⟨0, 6, 29⟩],
  [⟨27, 5, 13⟩, ⟨0, 6, 30⟩, ⟨6, 7, 0⟩],
  [⟨27, 5, 13⟩, ⟨0, 6, 31⟩, ⟨6, 7, 0⟩]]

/-- The rows of class 14: class, function code, and fields that are fixed (Tables 7.1, 7.2). -/
def rows14 : List (List FixedField) := [
  [⟨27, 5, 14⟩, ⟨10, 3, 0⟩],
  [⟨27, 5, 14⟩, ⟨10, 3, 1⟩],
  [⟨27, 5, 14⟩, ⟨10, 3, 2⟩],
  [⟨27, 5, 14⟩, ⟨10, 3, 3⟩],
  [⟨27, 5, 14⟩, ⟨10, 3, 4⟩],
  [⟨27, 5, 14⟩, ⟨10, 3, 5⟩],
  [⟨27, 5, 14⟩, ⟨10, 3, 6⟩],
  [⟨27, 5, 14⟩, ⟨10, 3, 7⟩, ⟨13, 7, 0⟩]]

/-- The rows of class 15: class, function code, and fields that are fixed (Tables 7.1, 7.2). -/
def rows15 : List (List FixedField) := [
  [⟨27, 5, 15⟩, ⟨0, 6, 0⟩, ⟨6, 7, 0⟩],
  [⟨27, 5, 15⟩, ⟨0, 6, 1⟩],
  [⟨27, 5, 15⟩, ⟨0, 6, 2⟩],
  [⟨27, 5, 15⟩, ⟨0, 6, 3⟩, ⟨13, 7, 0⟩],
  [⟨27, 5, 15⟩, ⟨0, 6, 4⟩, ⟨6, 7, 0⟩],
  [⟨27, 5, 15⟩, ⟨0, 6, 5⟩, ⟨6, 7, 0⟩],
  [⟨27, 5, 15⟩, ⟨0, 6, 6⟩, ⟨6, 7, 0⟩],
  [⟨27, 5, 15⟩, ⟨0, 6, 7⟩, ⟨6, 7, 0⟩],
  [⟨27, 5, 15⟩, ⟨0, 6, 8⟩],
  [⟨27, 5, 15⟩, ⟨0, 6, 9⟩],
  [⟨27, 5, 15⟩, ⟨0, 6, 10⟩],
  [⟨27, 5, 15⟩, ⟨0, 6, 11⟩, ⟨6, 7, 0⟩],
  [⟨27, 5, 15⟩, ⟨0, 6, 12⟩, ⟨6, 7, 0⟩, ⟨20, 7, 0⟩],
  [⟨27, 5, 15⟩, ⟨0, 6, 13⟩, ⟨6, 7, 0⟩],
  [⟨27, 5, 15⟩, ⟨0, 6, 14⟩],
  [⟨27, 5, 15⟩, ⟨0, 6, 15⟩]]

/-- The rows of class 16: class, function code, and fields that are fixed (Tables 7.1, 7.2). -/
def rows16 : List (List FixedField) := [
  [⟨27, 5, 16⟩, ⟨24, 3, 0⟩, ⟨20, 4, 0⟩],
  [⟨27, 5, 16⟩, ⟨24, 3, 1⟩],
  [⟨27, 5, 16⟩, ⟨24, 3, 2⟩],
  [⟨27, 5, 16⟩, ⟨24, 3, 3⟩],
  [⟨27, 5, 16⟩, ⟨24, 3, 4⟩],
  [⟨27, 5, 16⟩, ⟨24, 3, 5⟩, ⟨20, 4, 0⟩],
  [⟨27, 5, 16⟩, ⟨24, 3, 6⟩, ⟨0, 20, 0⟩],
  [⟨27, 5, 16⟩, ⟨24, 3, 7⟩, ⟨7, 17, 0⟩]]

/-- The rows of class 17: class, function code, and fields that are fixed (Tables 7.1, 7.2). -/
def rows17 : List (List FixedField) := [
  [⟨27, 5, 17⟩, ⟨24, 3, 0⟩, ⟨0, 24, 0⟩],
  [⟨27, 5, 17⟩, ⟨24, 3, 1⟩, ⟨0, 24, 0⟩],
  [⟨27, 5, 17⟩, ⟨24, 3, 2⟩, ⟨0, 24, 0⟩],
  [⟨27, 5, 17⟩, ⟨24, 3, 3⟩, ⟨0, 24, 0⟩],
  [⟨27, 5, 17⟩, ⟨24, 3, 4⟩, ⟨16, 8, 0⟩],
  [⟨27, 5, 17⟩, ⟨24, 3, 5⟩, ⟨16, 8, 0⟩],
  [⟨27, 5, 17⟩, ⟨24, 3, 6⟩, ⟨0, 24, 0⟩]]

/-- The rows of class 18: class, function code, and fields that are fixed (Tables 7.1, 7.2). -/
def rows18 : List (List FixedField) := [
  [⟨27, 5, 18⟩, ⟨0, 5, 0⟩],
  [⟨27, 5, 18⟩, ⟨0, 5, 1⟩],
  [⟨27, 5, 18⟩, ⟨0, 5, 2⟩],
  [⟨27, 5, 18⟩, ⟨0, 5, 3⟩],
  [⟨27, 5, 18⟩, ⟨0, 5, 4⟩],
  [⟨27, 5, 18⟩, ⟨0, 5, 5⟩],
  [⟨27, 5, 18⟩, ⟨0, 5, 6⟩]]

/-- The rows of class 19: class, function code, and fields that are fixed (Tables 7.1, 7.2). -/
def rows19 : List (List FixedField) := [
  [⟨27, 5, 19⟩, ⟨0, 5, 0⟩],
  [⟨27, 5, 19⟩, ⟨0, 5, 1⟩],
  [⟨27, 5, 19⟩, ⟨0, 5, 2⟩],
  [⟨27, 5, 19⟩, ⟨0, 5, 3⟩],
  [⟨27, 5, 19⟩, ⟨0, 5, 4⟩]]

/-- The rows of class 20: class, function code, and fields that are fixed (Tables 7.1, 7.2). -/
def rows20 : List (List FixedField) := [
  [⟨27, 5, 20⟩, ⟨0, 5, 0⟩],
  [⟨27, 5, 20⟩, ⟨0, 5, 1⟩],
  [⟨27, 5, 20⟩, ⟨0, 5, 2⟩],
  [⟨27, 5, 20⟩, ⟨0, 5, 3⟩],
  [⟨27, 5, 20⟩, ⟨0, 5, 4⟩],
  [⟨27, 5, 20⟩, ⟨0, 5, 5⟩],
  [⟨27, 5, 20⟩, ⟨0, 5, 6⟩],
  [⟨27, 5, 20⟩, ⟨0, 5, 7⟩],
  [⟨27, 5, 20⟩, ⟨0, 5, 8⟩],
  [⟨27, 5, 20⟩, ⟨0, 5, 9⟩],
  [⟨27, 5, 20⟩, ⟨0, 5, 10⟩],
  [⟨27, 5, 20⟩, ⟨0, 5, 11⟩],
  [⟨27, 5, 20⟩, ⟨0, 5, 12⟩],
  [⟨27, 5, 20⟩, ⟨0, 5, 13⟩],
  [⟨27, 5, 20⟩, ⟨0, 5, 14⟩],
  [⟨27, 5, 20⟩, ⟨0, 5, 15⟩]]

/-- The rows of class 21: class, function code, and fields that are fixed (Tables 7.1, 7.2). -/
def rows21 : List (List FixedField) := [
  [⟨27, 5, 21⟩, ⟨0, 5, 0⟩],
  [⟨27, 5, 21⟩, ⟨0, 5, 1⟩]]

/-- The rows of class 22: class, function code, and fields that are fixed (Tables 7.1, 7.2). -/
def rows22 : List (List FixedField) := [
  [⟨27, 5, 22⟩, ⟨12, 3, 0⟩],
  [⟨27, 5, 22⟩, ⟨12, 3, 1⟩],
  [⟨27, 5, 22⟩, ⟨12, 3, 2⟩],
  [⟨27, 5, 22⟩, ⟨12, 3, 3⟩],
  [⟨27, 5, 22⟩, ⟨12, 3, 4⟩],
  [⟨27, 5, 22⟩, ⟨12, 3, 5⟩],
  [⟨27, 5, 22⟩, ⟨12, 3, 6⟩, ⟨20, 7, 0⟩],
  [⟨27, 5, 22⟩, ⟨12, 3, 7⟩]]

/-- The rows of class 23: class, function code, and fields that are fixed (Tables 7.1, 7.2). -/
def rows23 : List (List FixedField) := [
  [⟨27, 5, 23⟩, ⟨0, 5, 0⟩],
  [⟨27, 5, 23⟩, ⟨0, 5, 1⟩],
  [⟨27, 5, 23⟩, ⟨0, 5, 2⟩]]

/-- The rows of class 24: class, function code, and fields that are fixed (Tables 7.1, 7.2). -/
def rows24 : List (List FixedField) := [
  [⟨27, 5, 24⟩, ⟨24, 3, 0⟩],
  [⟨27, 5, 24⟩, ⟨24, 3, 1⟩],
  [⟨27, 5, 24⟩, ⟨24, 3, 2⟩],
  [⟨27, 5, 24⟩, ⟨24, 3, 3⟩],
  [⟨27, 5, 24⟩, ⟨24, 3, 4⟩, ⟨16, 5, 0⟩],
  [⟨27, 5, 24⟩, ⟨24, 3, 5⟩, ⟨16, 5, 0⟩]]

/-- The rows of class 25: class, function code, and fields that are fixed (Tables 7.1, 7.2). -/
def rows25 : List (List FixedField) := [
  [⟨27, 5, 25⟩, ⟨24, 3, 0⟩],
  [⟨27, 5, 25⟩, ⟨24, 3, 1⟩],
  [⟨27, 5, 25⟩, ⟨24, 3, 2⟩],
  [⟨27, 5, 25⟩, ⟨24, 3, 3⟩, ⟨10, 5, 0⟩],
  [⟨27, 5, 25⟩, ⟨24, 3, 4⟩],
  [⟨27, 5, 25⟩, ⟨24, 3, 5⟩, ⟨0, 20, 0⟩],
  [⟨27, 5, 25⟩, ⟨24, 3, 6⟩, ⟨0, 15, 0⟩],
  [⟨27, 5, 25⟩, ⟨24, 3, 7⟩, ⟨0, 5, 0⟩, ⟨10, 10, 0⟩]]

/-- The rows of class 26: class, function code, and fields that are fixed (Tables 7.1, 7.2). -/
def rows26 : List (List FixedField) := [
  [⟨27, 5, 26⟩, ⟨22, 5, 0⟩, ⟨0, 1, 0⟩, ⟨15, 7, 0⟩],
  [⟨27, 5, 26⟩, ⟨22, 5, 1⟩, ⟨0, 1, 0⟩],
  [⟨27, 5, 26⟩, ⟨22, 5, 2⟩, ⟨0, 1, 0⟩],
  [⟨27, 5, 26⟩, ⟨22, 5, 3⟩, ⟨0, 8, 0⟩],
  [⟨27, 5, 26⟩, ⟨22, 5, 4⟩, ⟨0, 8, 0⟩],
  [⟨27, 5, 26⟩, ⟨22, 5, 5⟩, ⟨0, 1, 0⟩, ⟨7, 1, 0⟩],
  [⟨27, 5, 26⟩, ⟨22, 5, 5⟩, ⟨0, 1, 0⟩, ⟨7, 1, 1⟩],
  [⟨27, 5, 26⟩, ⟨22, 5, 6⟩, ⟨0, 2, 0⟩],
  [⟨27, 5, 26⟩, ⟨22, 5, 7⟩, ⟨0, 22, 0⟩],
  [⟨27, 5, 26⟩, ⟨22, 5, 8⟩, ⟨0, 1, 0⟩],
  [⟨27, 5, 26⟩, ⟨22, 5, 9⟩, ⟨0, 1, 0⟩],
  [⟨27, 5, 26⟩, ⟨22, 5, 10⟩, ⟨0, 15, 0⟩]]

/-- The rows of class 27: class, function code, and fields that are fixed (Tables 7.1, 7.2). -/
def rows27 : List (List FixedField) := [
  [⟨27, 5, 27⟩, ⟨22, 5, 0⟩, ⟨0, 1, 0⟩],
  [⟨27, 5, 27⟩, ⟨22, 5, 1⟩, ⟨0, 8, 0⟩],
  [⟨27, 5, 27⟩, ⟨22, 5, 2⟩, ⟨0, 1, 0⟩],
  [⟨27, 5, 27⟩, ⟨22, 5, 3⟩, ⟨0, 1, 0⟩],
  [⟨27, 5, 27⟩, ⟨22, 5, 4⟩, ⟨0, 8, 0⟩],
  [⟨27, 5, 27⟩, ⟨22, 5, 5⟩, ⟨0, 1, 0⟩],
  [⟨27, 5, 27⟩, ⟨22, 5, 6⟩, ⟨0, 15, 0⟩],
  [⟨27, 5, 27⟩, ⟨22, 5, 7⟩, ⟨0, 1, 0⟩],
  [⟨27, 5, 27⟩, ⟨22, 5, 8⟩, ⟨0, 1, 0⟩],
  [⟨27, 5, 27⟩, ⟨22, 5, 9⟩, ⟨0, 15, 0⟩],
  [⟨27, 5, 27⟩, ⟨22, 5, 10⟩, ⟨0, 1, 0⟩],
  [⟨27, 5, 27⟩, ⟨22, 5, 11⟩, ⟨0, 8, 0⟩],
  [⟨27, 5, 27⟩, ⟨22, 5, 12⟩, ⟨0, 8, 0⟩],
  [⟨27, 5, 27⟩, ⟨22, 5, 13⟩, ⟨0, 1, 0⟩],
  [⟨27, 5, 27⟩, ⟨22, 5, 14⟩, ⟨0, 1, 0⟩],
  [⟨27, 5, 27⟩, ⟨22, 5, 15⟩, ⟨0, 1, 0⟩, ⟨7, 1, 0⟩],
  [⟨27, 5, 27⟩, ⟨22, 5, 16⟩, ⟨0, 1, 0⟩, ⟨7, 1, 0⟩],
  [⟨27, 5, 27⟩, ⟨22, 5, 17⟩, ⟨0, 8, 0⟩],
  [⟨27, 5, 27⟩, ⟨22, 5, 18⟩, ⟨0, 1, 0⟩],
  [⟨27, 5, 27⟩, ⟨22, 5, 19⟩, ⟨0, 1, 0⟩],
  [⟨27, 5, 27⟩, ⟨22, 5, 20⟩, ⟨0, 8, 0⟩],
  [⟨27, 5, 27⟩, ⟨22, 5, 21⟩, ⟨0, 8, 0⟩],
  [⟨27, 5, 27⟩, ⟨22, 5, 22⟩, ⟨0, 1, 0⟩],
  [⟨27, 5, 27⟩, ⟨22, 5, 23⟩, ⟨0, 1, 0⟩],
  [⟨27, 5, 27⟩, ⟨22, 5, 24⟩, ⟨0, 1, 0⟩]]

/-- The rows of class 28: class, function code, and fields that are fixed (Tables 7.1, 7.2). -/
def rows28 : List (List FixedField) := [
  [⟨27, 5, 28⟩, ⟨22, 5, 0⟩, ⟨0, 1, 0⟩],
  [⟨27, 5, 28⟩, ⟨22, 5, 1⟩, ⟨0, 1, 0⟩],
  [⟨27, 5, 28⟩, ⟨22, 5, 2⟩, ⟨0, 8, 0⟩],
  [⟨27, 5, 28⟩, ⟨22, 5, 3⟩, ⟨0, 15, 0⟩],
  [⟨27, 5, 28⟩, ⟨22, 5, 4⟩, ⟨0, 1, 0⟩],
  [⟨27, 5, 28⟩, ⟨22, 5, 5⟩, ⟨0, 8, 0⟩],
  [⟨27, 5, 28⟩, ⟨22, 5, 6⟩, ⟨0, 8, 0⟩],
  [⟨27, 5, 28⟩, ⟨22, 5, 7⟩, ⟨0, 1, 0⟩],
  [⟨27, 5, 28⟩, ⟨22, 5, 8⟩, ⟨0, 8, 0⟩]]

/-- The rows of class 29: class, function code, and fields that are fixed (Tables 7.1, 7.2). -/
def rows29 : List (List FixedField) := [
  [⟨27, 5, 29⟩, ⟨0, 3, 0⟩, ⟨3, 7, 0⟩],
  [⟨27, 5, 29⟩, ⟨0, 3, 1⟩, ⟨3, 7, 0⟩],
  [⟨27, 5, 29⟩, ⟨0, 3, 2⟩, ⟨3, 7, 0⟩],
  [⟨27, 5, 29⟩, ⟨0, 3, 3⟩, ⟨3, 7, 0⟩],
  [⟨27, 5, 29⟩, ⟨0, 3, 4⟩, ⟨3, 7, 0⟩],
  [⟨27, 5, 29⟩, ⟨0, 3, 5⟩, ⟨3, 7, 0⟩],
  [⟨27, 5, 29⟩, ⟨0, 3, 6⟩, ⟨3, 7, 0⟩],
  [⟨27, 5, 29⟩, ⟨0, 3, 7⟩]]

/-- The rows of class 31: class, function code, and fields that are fixed (Tables 7.1, 7.2). -/
def rows31 : List (List FixedField) := [
  [⟨27, 5, 31⟩, ⟨24, 3, 0⟩],
  [⟨27, 5, 31⟩, ⟨24, 3, 1⟩, ⟨0, 6, 0⟩],
  [⟨27, 5, 31⟩, ⟨24, 3, 2⟩],
  [⟨27, 5, 31⟩, ⟨24, 3, 3⟩, ⟨5, 19, 0⟩]]

/-- Every row of the opcode map. -/
def opcodeRows : List (List FixedField) :=
  rows0 ++ rows1 ++ rows2 ++ rows3 ++ rows4 ++ rows5 ++ rows6 ++ rows7 ++ rows8 ++ rows9 ++ rows10 ++ rows11 ++ rows12 ++ rows13 ++ rows14 ++ rows15 ++ rows16 ++ rows17 ++ rows18 ++ rows19 ++ rows20 ++ rows21 ++ rows22 ++ rows23 ++ rows24 ++ rows25 ++ rows26 ++ rows27 ++ rows28 ++ rows29 ++ rows31

/-- Whether a word matches some row of the opcode map. -/
def matchesRow (w : Nat) : Bool := opcodeRows.any fun r => r.all fun f => f.holds w

end Sys2Proof
end

