-- ==== Sys2Proof/WellFormed.lean ====
section
/-! DEFINITION. Well-formed instructions: those that stand as a word in memory (spec/07 R98-R104). -/

namespace Sys2Proof

/-- An instruction is well formed when it has a word: an event has none, and `illegalEncoding` stands only for a word that
matches no row of the opcode map (R104). Field widths are kept by the types. -/
def Instr.wf : Instr → Bool
  | .illegalEncoding w => !matchesRow w.toNat
  | i => i.isWord

end Sys2Proof
end

