-- ==== Sys2Proof/Decode.lean ====
section
/-! DEFINITION. Decoding of instruction words (spec/07 R98-R105, Tables 7.1-7.4), total on any bytes, and the encoder.
A word that matches no row of the opcode map issues and raises ILLEGAL (R104): it decodes to `Instr.illegalEncoding`.
The compiler has no tags for so many constructors, so the later classes are not compiled; the kernel evaluates them. -/

namespace Sys2Proof

/-- Bits [lo + len - 1 : lo] of a word given as a number. -/
def fieldOf (w lo len : Nat) : Nat := w / 2 ^ lo % 2 ^ len

/-- The same bits as a bit vector. -/
def bitsOf (len lo w : Nat) : BitVec len := BitVec.ofNat len (w / 2 ^ lo)

/-- Class 0 of Table 7.2, by function code. -/
def decodeClass0 (w : Nat) : Option Instr :=
  match fieldOf w 0 3 with
  | 0 => some (.vaddI32 (bitsOf 3 24 w) (bitsOf 7 17 w) (bitsOf 7 10 w) (bitsOf 7 3 w))
  | 1 => some (.vsubI32 (bitsOf 3 24 w) (bitsOf 7 17 w) (bitsOf 7 10 w) (bitsOf 7 3 w))
  | 2 => some (.vmulloI32 (bitsOf 3 24 w) (bitsOf 7 17 w) (bitsOf 7 10 w) (bitsOf 7 3 w))
  | 3 => some (.vmulhiI32 (bitsOf 3 24 w) (bitsOf 7 17 w) (bitsOf 7 10 w) (bitsOf 7 3 w))
  | 4 => some (.vmulhiN32 (bitsOf 3 24 w) (bitsOf 7 17 w) (bitsOf 7 10 w) (bitsOf 7 3 w))
  | 5 => some (.vmadI32 (bitsOf 3 24 w) (bitsOf 7 17 w) (bitsOf 7 10 w) (bitsOf 7 3 w))
  | 6 => some (.vminI32 (bitsOf 3 24 w) (bitsOf 7 17 w) (bitsOf 7 10 w) (bitsOf 7 3 w))
  | 7 => some (.vminN32 (bitsOf 3 24 w) (bitsOf 7 17 w) (bitsOf 7 10 w) (bitsOf 7 3 w))
  | _ => none

/-- Class 1 of Table 7.2, by function code. -/
def decodeClass1 (w : Nat) : Option Instr :=
  match fieldOf w 0 3 with
  | 0 => some (.vmaxI32 (bitsOf 3 24 w) (bitsOf 7 17 w) (bitsOf 7 10 w) (bitsOf 7 3 w))
  | 1 => some (.vmaxN32 (bitsOf 3 24 w) (bitsOf 7 17 w) (bitsOf 7 10 w) (bitsOf 7 3 w))
  | 2 => some (.vabsdI32 (bitsOf 3 24 w) (bitsOf 7 17 w) (bitsOf 7 10 w) (bitsOf 7 3 w))
  | 3 => some (.vabsdN32 (bitsOf 3 24 w) (bitsOf 7 17 w) (bitsOf 7 10 w) (bitsOf 7 3 w))
  | 4 => some (.vaddsI32 (bitsOf 3 24 w) (bitsOf 7 17 w) (bitsOf 7 10 w) (bitsOf 7 3 w))
  | 5 => some (.vsubsI32 (bitsOf 3 24 w) (bitsOf 7 17 w) (bitsOf 7 10 w) (bitsOf 7 3 w))
  | 6 => some (.vaddsN32 (bitsOf 3 24 w) (bitsOf 7 17 w) (bitsOf 7 10 w) (bitsOf 7 3 w))
  | 7 => some (.vsubsN32 (bitsOf 3 24 w) (bitsOf 7 17 w) (bitsOf 7 10 w) (bitsOf 7 3 w))
  | _ => none

/-- Class 2 of Table 7.2, by function code. -/
def decodeClass2 (w : Nat) : Option Instr :=
  match fieldOf w 0 3 with
  | 0 => some (.vand (bitsOf 3 24 w) (bitsOf 7 17 w) (bitsOf 7 10 w) (bitsOf 7 3 w))
  | 1 => some (.vor (bitsOf 3 24 w) (bitsOf 7 17 w) (bitsOf 7 10 w) (bitsOf 7 3 w))
  | 2 => some (.vxor (bitsOf 3 24 w) (bitsOf 7 17 w) (bitsOf 7 10 w) (bitsOf 7 3 w))
  | 3 => some (.vandn (bitsOf 3 24 w) (bitsOf 7 17 w) (bitsOf 7 10 w) (bitsOf 7 3 w))
  | 4 => some (.vshl (bitsOf 3 24 w) (bitsOf 7 17 w) (bitsOf 7 10 w) (bitsOf 7 3 w))
  | 5 => some (.vshrN32 (bitsOf 3 24 w) (bitsOf 7 17 w) (bitsOf 7 10 w) (bitsOf 7 3 w))
  | 6 => some (.vshrI32 (bitsOf 3 24 w) (bitsOf 7 17 w) (bitsOf 7 10 w) (bitsOf 7 3 w))
  | 7 => some (.vrotl (bitsOf 3 24 w) (bitsOf 7 17 w) (bitsOf 7 10 w) (bitsOf 7 3 w))
  | _ => none

/-- Class 3 of Table 7.2, by function code. -/
def decodeClass3 (w : Nat) : Option Instr :=
  match fieldOf w 0 3 with
  | 0 => if fieldOf w 3 7 = 0 then some (.vpopc (bitsOf 3 24 w) (bitsOf 7 17 w) (bitsOf 7 10 w)) else none
  | 1 => if fieldOf w 3 7 = 0 then some (.vclz (bitsOf 3 24 w) (bitsOf 7 17 w) (bitsOf 7 10 w)) else none
  | 2 => if fieldOf w 3 7 = 0 then some (.vbrev (bitsOf 3 24 w) (bitsOf 7 17 w) (bitsOf 7 10 w)) else none
  | 3 => some (.vbfeN32 (bitsOf 3 24 w) (bitsOf 7 17 w) (bitsOf 7 10 w) (bitsOf 7 3 w))
  | 4 => some (.vbfeI32 (bitsOf 3 24 w) (bitsOf 7 17 w) (bitsOf 7 10 w) (bitsOf 7 3 w))
  | 5 => some (.vbfi (bitsOf 3 24 w) (bitsOf 7 17 w) (bitsOf 7 10 w) (bitsOf 7 3 w))
  | 6 => some (.vsel (bitsOf 3 24 w) (bitsOf 7 17 w) (bitsOf 7 10 w) (bitsOf 7 3 w))
  | 7 => if fieldOf w 3 7 = 0 then some (.vmov (bitsOf 3 24 w) (bitsOf 7 17 w) (bitsOf 7 10 w)) else none
  | _ => none

/-- Class 4 of Table 7.2, by function code. -/
def decodeClass4 (w : Nat) : Option Instr :=
  match fieldOf w 0 3 with
  | 0 => some (.vfaddF32 (bitsOf 3 24 w) (bitsOf 7 17 w) (bitsOf 7 10 w) (bitsOf 7 3 w))
  | 1 => some (.vfsubF32 (bitsOf 3 24 w) (bitsOf 7 17 w) (bitsOf 7 10 w) (bitsOf 7 3 w))
  | 2 => some (.vfmulF32 (bitsOf 3 24 w) (bitsOf 7 17 w) (bitsOf 7 10 w) (bitsOf 7 3 w))
  | 3 => some (.vfmaF32 (bitsOf 3 24 w) (bitsOf 7 17 w) (bitsOf 7 10 w) (bitsOf 7 3 w))
  | 4 => some (.vfminF32 (bitsOf 3 24 w) (bitsOf 7 17 w) (bitsOf 7 10 w) (bitsOf 7 3 w))
  | 5 => some (.vfmaxF32 (bitsOf 3 24 w) (bitsOf 7 17 w) (bitsOf 7 10 w) (bitsOf 7 3 w))
  | 6 => some (.vfsgnF32 (bitsOf 3 24 w) (bitsOf 7 17 w) (bitsOf 7 10 w) (bitsOf 7 3 w))
  | 7 => some (.vfscaleF32 (bitsOf 3 24 w) (bitsOf 7 17 w) (bitsOf 7 10 w) (bitsOf 7 3 w))
  | _ => none

/-- Class 5 of Table 7.2, by function code. -/
def decodeClass5 (w : Nat) : Option Instr :=
  match fieldOf w 0 3 with
  | 0 => some (.vhaddF16x2 (bitsOf 3 24 w) (bitsOf 7 17 w) (bitsOf 7 10 w) (bitsOf 7 3 w))
  | 1 => some (.vhmulF16x2 (bitsOf 3 24 w) (bitsOf 7 17 w) (bitsOf 7 10 w) (bitsOf 7 3 w))
  | 2 => some (.vhfmaF16x2 (bitsOf 3 24 w) (bitsOf 7 17 w) (bitsOf 7 10 w) (bitsOf 7 3 w))
  | 3 => some (.vhaddBf16x2 (bitsOf 3 24 w) (bitsOf 7 17 w) (bitsOf 7 10 w) (bitsOf 7 3 w))
  | 4 => some (.vhmulBf16x2 (bitsOf 3 24 w) (bitsOf 7 17 w) (bitsOf 7 10 w) (bitsOf 7 3 w))
  | 5 => some (.vhfmaBf16x2 (bitsOf 3 24 w) (bitsOf 7 17 w) (bitsOf 7 10 w) (bitsOf 7 3 w))
  | 6 => some (.vhminF16x2 (bitsOf 3 24 w) (bitsOf 7 17 w) (bitsOf 7 10 w) (bitsOf 7 3 w))
  | 7 => some (.vhmaxF16x2 (bitsOf 3 24 w) (bitsOf 7 17 w) (bitsOf 7 10 w) (bitsOf 7 3 w))
  | _ => none

/-- Class 6 of Table 7.2, by function code. -/
def decodeClass6 (w : Nat) : Option Instr :=
  match fieldOf w 0 3 with
  | 0 => some (.vdaddF64 (bitsOf 3 24 w) (bitsOf 7 17 w) (bitsOf 7 10 w) (bitsOf 7 3 w))
  | 1 => some (.vdsubF64 (bitsOf 3 24 w) (bitsOf 7 17 w) (bitsOf 7 10 w) (bitsOf 7 3 w))
  | 2 => some (.vdmulF64 (bitsOf 3 24 w) (bitsOf 7 17 w) (bitsOf 7 10 w) (bitsOf 7 3 w))
  | 3 => some (.vdfmaF64 (bitsOf 3 24 w) (bitsOf 7 17 w) (bitsOf 7 10 w) (bitsOf 7 3 w))
  | 4 => some (.vdminF64 (bitsOf 3 24 w) (bitsOf 7 17 w) (bitsOf 7 10 w) (bitsOf 7 3 w))
  | 5 => some (.vdmaxF64 (bitsOf 3 24 w) (bitsOf 7 17 w) (bitsOf 7 10 w) (bitsOf 7 3 w))
  | 6 => if fieldOf w 3 7 = 0 then some (.vdsqrtF64 (bitsOf 3 24 w) (bitsOf 7 17 w) (bitsOf 7 10 w)) else none
  | 7 => some (.vddivF64 (bitsOf 3 24 w) (bitsOf 7 17 w) (bitsOf 7 10 w) (bitsOf 7 3 w))
  | _ => none

/-- Class 7 of Table 7.2, by function code. -/
def decodeClass7 (w : Nat) : Option Instr :=
  match fieldOf w 0 3 with
  | 0 => if fieldOf w 3 7 = 0 then some (.vrcpF32 (bitsOf 3 24 w) (bitsOf 7 17 w) (bitsOf 7 10 w)) else none
  | 1 => if fieldOf w 3 7 = 0 then some (.vrsqF32 (bitsOf 3 24 w) (bitsOf 7 17 w) (bitsOf 7 10 w)) else none
  | 2 => if fieldOf w 3 7 = 0 then some (.vsqrtF32 (bitsOf 3 24 w) (bitsOf 7 17 w) (bitsOf 7 10 w)) else none
  | 3 => if fieldOf w 3 7 = 0 then some (.vexp2F32 (bitsOf 3 24 w) (bitsOf 7 17 w) (bitsOf 7 10 w)) else none
  | 4 => if fieldOf w 3 7 = 0 then some (.vlog2F32 (bitsOf 3 24 w) (bitsOf 7 17 w) (bitsOf 7 10 w)) else none
  | 5 => if fieldOf w 3 7 = 0 then some (.vsinpiF32 (bitsOf 3 24 w) (bitsOf 7 17 w) (bitsOf 7 10 w)) else none
  | 6 => if fieldOf w 3 7 = 0 then some (.vcospiF32 (bitsOf 3 24 w) (bitsOf 7 17 w) (bitsOf 7 10 w)) else none
  | 7 => some (.vdivF32 (bitsOf 3 24 w) (bitsOf 7 17 w) (bitsOf 7 10 w) (bitsOf 7 3 w))
  | _ => none

/-- Class 8 of Table 7.2, by function code. -/
def decodeClass8 (w : Nat) : Option Instr :=
  match fieldOf w 0 3 with
  | 0 => some (.vcmpEqI32 (bitsOf 3 24 w) (bitsOf 7 17 w) (bitsOf 7 10 w) (bitsOf 7 3 w))
  | 1 => some (.vcmpLtI32 (bitsOf 3 24 w) (bitsOf 7 17 w) (bitsOf 7 10 w) (bitsOf 7 3 w))
  | 2 => some (.vcmpLtN32 (bitsOf 3 24 w) (bitsOf 7 17 w) (bitsOf 7 10 w) (bitsOf 7 3 w))
  | 3 => some (.vcmpLeI32 (bitsOf 3 24 w) (bitsOf 7 17 w) (bitsOf 7 10 w) (bitsOf 7 3 w))
  | 4 => some (.vcmpEqF32 (bitsOf 3 24 w) (bitsOf 7 17 w) (bitsOf 7 10 w) (bitsOf 7 3 w))
  | 5 => some (.vcmpLtF32 (bitsOf 3 24 w) (bitsOf 7 17 w) (bitsOf 7 10 w) (bitsOf 7 3 w))
  | 6 => some (.vcmpLeF32 (bitsOf 3 24 w) (bitsOf 7 17 w) (bitsOf 7 10 w) (bitsOf 7 3 w))
  | 7 => some (.vcmpUnF32 (bitsOf 3 24 w) (bitsOf 7 17 w) (bitsOf 7 10 w) (bitsOf 7 3 w))
  | _ => none

/-- Class 9 of Table 7.2, by function code. -/
def decodeClass9 (w : Nat) : Option Instr :=
  match fieldOf w 7 3 with
  | 0 => some (.vcvtn (bitsOf 3 24 w) (bitsOf 7 17 w) (bitsOf 7 10 w) (bitsOf 5 2 w) (bitsOf 2 0 w))
  | 1 => some (.vcvtw (bitsOf 3 24 w) (bitsOf 7 17 w) (bitsOf 7 10 w) (bitsOf 5 2 w) (bitsOf 2 0 w))
  | 2 => some (.vcvti2f (bitsOf 3 24 w) (bitsOf 7 17 w) (bitsOf 7 10 w) (bitsOf 5 2 w) (bitsOf 2 0 w))
  | 3 => some (.vcvtf2i (bitsOf 3 24 w) (bitsOf 7 17 w) (bitsOf 7 10 w) (bitsOf 5 2 w) (bitsOf 2 0 w))
  | 4 => some (.vcvtd2f (bitsOf 3 24 w) (bitsOf 7 17 w) (bitsOf 7 10 w) (bitsOf 5 2 w) (bitsOf 2 0 w))
  | 5 => some (.vcvtf2d (bitsOf 3 24 w) (bitsOf 7 17 w) (bitsOf 7 10 w) (bitsOf 5 2 w) (bitsOf 2 0 w))
  | 6 => some (.vsrnd (bitsOf 3 24 w) (bitsOf 7 17 w) (bitsOf 7 10 w) (bitsOf 5 2 w) (bitsOf 2 0 w))
  | 7 => some (.vmxs (bitsOf 3 24 w) (bitsOf 7 17 w) (bitsOf 7 10 w) (bitsOf 5 2 w) (bitsOf 2 0 w))
  | _ => none

/-- Class 10 of Table 7.2, by function code. -/
def decodeClass10 (w : Nat) : Option Instr :=
  match fieldOf w 7 3 with
  | 0 => some (.vaddi (bitsOf 3 24 w) (bitsOf 7 17 w) (bitsOf 7 10 w) (bitsOf 7 0 w))
  | 1 => some (.vmuli (bitsOf 3 24 w) (bitsOf 7 17 w) (bitsOf 7 10 w) (bitsOf 7 0 w))
  | 2 => some (.vandi (bitsOf 3 24 w) (bitsOf 7 17 w) (bitsOf 7 10 w) (bitsOf 7 0 w))
  | 3 => some (.vori (bitsOf 3 24 w) (bitsOf 7 17 w) (bitsOf 7 10 w) (bitsOf 7 0 w))
  | 4 => some (.vxori (bitsOf 3 24 w) (bitsOf 7 17 w) (bitsOf 7 10 w) (bitsOf 7 0 w))
  | 5 => if fieldOf w 5 2 = 0 then some (.vshli (bitsOf 3 24 w) (bitsOf 7 17 w) (bitsOf 7 10 w) (bitsOf 5 0 w)) else none
  | 6 => if fieldOf w 5 2 = 0 then some (.vshriN32 (bitsOf 3 24 w) (bitsOf 7 17 w) (bitsOf 7 10 w) (bitsOf 5 0 w)) else none
  | 7 => if fieldOf w 5 2 = 0 then some (.vshriI32 (bitsOf 3 24 w) (bitsOf 7 17 w) (bitsOf 7 10 w) (bitsOf 5 0 w)) else none
  | _ => none

/-- Class 11 of Table 7.2, by function code. -/
def decodeClass11 (w : Nat) : Option Instr :=
  match fieldOf w 0 3 with
  | 0 => some (.vshf (bitsOf 3 24 w) (bitsOf 7 17 w) (bitsOf 7 10 w) (bitsOf 7 3 w))
  | 1 => some (.vshfx (bitsOf 3 24 w) (bitsOf 7 17 w) (bitsOf 7 10 w) (bitsOf 7 3 w))
  | 2 => some (.vshfup (bitsOf 3 24 w) (bitsOf 7 17 w) (bitsOf 7 10 w) (bitsOf 7 3 w))
  | 3 => some (.vshfdn (bitsOf 3 24 w) (bitsOf 7 17 w) (bitsOf 7 10 w) (bitsOf 7 3 w))
  | 4 => if fieldOf w 3 7 = 0 then some (.vredsumI32 (bitsOf 3 24 w) (bitsOf 7 17 w) (bitsOf 7 10 w)) else none
  | 5 => if fieldOf w 3 7 = 0 then some (.vredmaxF32 (bitsOf 3 24 w) (bitsOf 7 17 w) (bitsOf 7 10 w)) else none
  | 6 => if fieldOf w 3 7 = 0 then some (.vscanI32 (bitsOf 3 24 w) (bitsOf 7 17 w) (bitsOf 7 10 w)) else none
  | 7 => if fieldOf w 3 7 = 0 then some (.vredsumF32 (bitsOf 3 24 w) (bitsOf 7 17 w) (bitsOf 7 10 w)) else none
  | _ => none

/-- Class 12 of Table 7.2, by function code. -/
def decodeClass12 (w : Nat) : Option Instr :=
  match fieldOf w 0 3 with
  | 0 => some (.vdot4I8 (bitsOf 3 24 w) (bitsOf 7 17 w) (bitsOf 7 10 w) (bitsOf 7 3 w))
  | 1 => some (.vdot4N8 (bitsOf 3 24 w) (bitsOf 7 17 w) (bitsOf 7 10 w) (bitsOf 7 3 w))
  | 2 => some (.vdot4In8 (bitsOf 3 24 w) (bitsOf 7 17 w) (bitsOf 7 10 w) (bitsOf 7 3 w))
  | 3 => some (.vdot8I4 (bitsOf 3 24 w) (bitsOf 7 17 w) (bitsOf 7 10 w) (bitsOf 7 3 w))
  | 4 => some (.vdot8N4 (bitsOf 3 24 w) (bitsOf 7 17 w) (bitsOf 7 10 w) (bitsOf 7 3 w))
  | 5 => some (.vdot2Bf16 (bitsOf 3 24 w) (bitsOf 7 17 w) (bitsOf 7 10 w) (bitsOf 7 3 w))
  | 6 => some (.vdot4E4m3 (bitsOf 3 24 w) (bitsOf 7 17 w) (bitsOf 7 10 w) (bitsOf 7 3 w))
  | 7 => some (.vdot8E2m1 (bitsOf 3 24 w) (bitsOf 7 17 w) (bitsOf 7 10 w) (bitsOf 7 3 w))
  | _ => none

/-- Class 13 of Table 7.2, by function code. -/
def decodeClass13 (w : Nat) : Option Instr :=
  match fieldOf w 0 6 with
  | 0 => some (.sadd (bitsOf 7 20 w) (bitsOf 7 13 w) (bitsOf 7 6 w))
  | 1 => some (.ssub (bitsOf 7 20 w) (bitsOf 7 13 w) (bitsOf 7 6 w))
  | 2 => some (.smullo (bitsOf 7 20 w) (bitsOf 7 13 w) (bitsOf 7 6 w))
  | 3 => some (.smulhiI32 (bitsOf 7 20 w) (bitsOf 7 13 w) (bitsOf 7 6 w))
  | 4 => some (.smulhiN32 (bitsOf 7 20 w) (bitsOf 7 13 w) (bitsOf 7 6 w))
  | 5 => some (.sdivI32 (bitsOf 7 20 w) (bitsOf 7 13 w) (bitsOf 7 6 w))
  | 6 => some (.sdivN32 (bitsOf 7 20 w) (bitsOf 7 13 w) (bitsOf 7 6 w))
  | 7 => some (.sremI32 (bitsOf 7 20 w) (bitsOf 7 13 w) (bitsOf 7 6 w))
  | 8 => some (.sremN32 (bitsOf 7 20 w) (bitsOf 7 13 w) (bitsOf 7 6 w))
  | 9 => some (.sminI32 (bitsOf 7 20 w) (bitsOf 7 13 w) (bitsOf 7 6 w))
  | 10 => some (.sminN32 (bitsOf 7 20 w) (bitsOf 7 13 w) (bitsOf 7 6 w))
  | 11 => some (.smaxI32 (bitsOf 7 20 w) (bitsOf 7 13 w) (bitsOf 7 6 w))
  | 12 => some (.smaxN32 (bitsOf 7 20 w) (bitsOf 7 13 w) (bitsOf 7 6 w))
  | 13 => some (.sand (bitsOf 7 20 w) (bitsOf 7 13 w) (bitsOf 7 6 w))
  | 14 => some (.sor (bitsOf 7 20 w) (bitsOf 7 13 w) (bitsOf 7 6 w))
  | 15 => some (.sxor (bitsOf 7 20 w) (bitsOf 7 13 w) (bitsOf 7 6 w))
  | 16 => some (.sshl (bitsOf 7 20 w) (bitsOf 7 13 w) (bitsOf 7 6 w))
  | 17 => some (.sshrN32 (bitsOf 7 20 w) (bitsOf 7 13 w) (bitsOf 7 6 w))
  | 18 => some (.sshrI32 (bitsOf 7 20 w) (bitsOf 7 13 w) (bitsOf 7 6 w))
  | 19 => some (.saddI64 (bitsOf 7 20 w) (bitsOf 7 13 w) (bitsOf 7 6 w))
  | 20 => some (.ssubI64 (bitsOf 7 20 w) (bitsOf 7 13 w) (bitsOf 7 6 w))
  | 21 => some (.smulI64 (bitsOf 7 20 w) (bitsOf 7 13 w) (bitsOf 7 6 w))
  | 22 => some (.sshlB64 (bitsOf 7 20 w) (bitsOf 7 13 w) (bitsOf 7 6 w))
  | 23 => some (.sshrN64 (bitsOf 7 20 w) (bitsOf 7 13 w) (bitsOf 7 6 w))
  | 24 => some (.scmpEq (bitsOf 7 20 w) (bitsOf 7 13 w) (bitsOf 7 6 w))
  | 25 => some (.scmpLtI32 (bitsOf 7 20 w) (bitsOf 7 13 w) (bitsOf 7 6 w))
  | 26 => some (.scmpLtN32 (bitsOf 7 20 w) (bitsOf 7 13 w) (bitsOf 7 6 w))
  | 27 => some (.sfaddF32 (bitsOf 7 20 w) (bitsOf 7 13 w) (bitsOf 7 6 w))
  | 28 => some (.sfmulF32 (bitsOf 7 20 w) (bitsOf 7 13 w) (bitsOf 7 6 w))
  | 29 => some (.sfmaF32 (bitsOf 7 20 w) (bitsOf 7 13 w) (bitsOf 7 6 w))
  | 30 => if fieldOf w 6 7 = 0 then some (.scvtf2i (bitsOf 7 20 w) (bitsOf 7 13 w)) else none
  | 31 => if fieldOf w 6 7 = 0 then some (.scvti2f (bitsOf 7 20 w) (bitsOf 7 13 w)) else none
  | _ => none

/-- Class 14 of Table 7.2, by function code. -/
def decodeClass14 (w : Nat) : Option Instr :=
  match fieldOf w 10 3 with
  | 0 => some (.saddi (bitsOf 7 20 w) (bitsOf 7 13 w) (bitsOf 10 0 w))
  | 1 => some (.sandi (bitsOf 7 20 w) (bitsOf 7 13 w) (bitsOf 10 0 w))
  | 2 => some (.sori (bitsOf 7 20 w) (bitsOf 7 13 w) (bitsOf 10 0 w))
  | 3 => some (.sxori (bitsOf 7 20 w) (bitsOf 7 13 w) (bitsOf 10 0 w))
  | 4 => some (.sshli (bitsOf 7 20 w) (bitsOf 7 13 w) (bitsOf 10 0 w))
  | 5 => some (.sshri (bitsOf 7 20 w) (bitsOf 7 13 w) (bitsOf 10 0 w))
  | 6 => some (.slui (bitsOf 7 20 w) (bitsOf 7 13 w) (bitsOf 10 0 w))
  | 7 => if fieldOf w 13 7 = 0 then some (.smovi (bitsOf 7 20 w) (bitsOf 10 0 w)) else none
  | _ => none

/-- Class 15 of Table 7.2, by function code. -/
def decodeClass15 (w : Nat) : Option Instr :=
  match fieldOf w 0 6 with
  | 0 => if fieldOf w 6 7 = 0 then some (.vbcast (bitsOf 7 20 w) (bitsOf 7 13 w)) else none
  | 1 => some (.vrdlane (bitsOf 7 20 w) (bitsOf 7 13 w) (bitsOf 7 6 w))
  | 2 => some (.vwrlane (bitsOf 7 20 w) (bitsOf 7 13 w) (bitsOf 7 6 w))
  | 3 => if fieldOf w 13 7 = 0 then some (.vlpc (bitsOf 7 20 w) (bitsOf 7 6 w)) else none
  | 4 => if fieldOf w 6 7 = 0 then some (.srsr (bitsOf 7 20 w) (bitsOf 7 13 w)) else none
  | 5 => if fieldOf w 6 7 = 0 then some (.swsr (bitsOf 7 20 w) (bitsOf 7 13 w)) else none
  | 6 => if fieldOf w 6 7 = 0 then some (.p2s (bitsOf 7 20 w) (bitsOf 7 13 w)) else none
  | 7 => if fieldOf w 6 7 = 0 then some (.s2p (bitsOf 7 20 w) (bitsOf 7 13 w)) else none
  | 8 => some (.pand (bitsOf 7 20 w) (bitsOf 7 13 w) (bitsOf 7 6 w))
  | 9 => some (.por (bitsOf 7 20 w) (bitsOf 7 13 w) (bitsOf 7 6 w))
  | 10 => some (.pxor (bitsOf 7 20 w) (bitsOf 7 13 w) (bitsOf 7 6 w))
  | 11 => if fieldOf w 6 7 = 0 then some (.pnot (bitsOf 7 20 w) (bitsOf 7 13 w)) else none
  | 12 => if fieldOf w 6 7 = 0 ∧ fieldOf w 20 7 = 0 then some (.ptag (bitsOf 7 13 w)) else none
  | 13 => if fieldOf w 6 7 = 0 then some (.pcount (bitsOf 7 20 w) (bitsOf 7 13 w)) else none
  | 14 => some (.twr (bitsOf 7 20 w) (bitsOf 7 13 w) (bitsOf 7 6 w))
  | 15 => some (.trd (bitsOf 7 20 w) (bitsOf 7 13 w) (bitsOf 7 6 w))
  | _ => none

/-- Class 16 of Table 7.2, by function code. -/
def decodeClass16 (w : Nat) : Option Instr :=
  match fieldOf w 24 3 with
  | 0 => if fieldOf w 20 4 = 0 then some (.br (bitsOf 20 0 w)) else none
  | 1 => some (.brp (bitsOf 4 20 w) (bitsOf 20 0 w))
  | 2 => some (.brnp (bitsOf 4 20 w) (bitsOf 20 0 w))
  | 3 => some (.brz (bitsOf 4 20 w) (bitsOf 20 0 w))
  | 4 => some (.brnz (bitsOf 4 20 w) (bitsOf 20 0 w))
  | 5 => if fieldOf w 20 4 = 0 then some (.call (bitsOf 20 0 w)) else none
  | 6 => if fieldOf w 0 20 = 0 then some (.jmpi (bitsOf 4 20 w)) else none
  | 7 => if fieldOf w 7 17 = 0 then some (.jmpv (bitsOf 7 0 w)) else none
  | _ => none

/-- Class 17 of Table 7.2, by function code. -/
def decodeClass17 (w : Nat) : Option Instr :=
  match fieldOf w 24 3 with
  | 0 => if fieldOf w 0 24 = 0 then some (.ret) else none
  | 1 => if fieldOf w 0 24 = 0 then some (.exit) else none
  | 2 => if fieldOf w 0 24 = 0 then some (.nop) else none
  | 3 => if fieldOf w 0 24 = 0 then some (.yield) else none
  | 4 => if fieldOf w 16 8 = 0 then some (.trap (bitsOf 16 0 w)) else none
  | 5 => if fieldOf w 16 8 = 0 then some (.brk (bitsOf 16 0 w)) else none
  | 6 => if fieldOf w 0 24 = 0 then some (.ereturn) else none
  | _ => none

/-- Class 18 of Table 7.2, by function code. -/
def decodeClass18 (w : Nat) : Option Instr :=
  match fieldOf w 0 5 with
  | 0 => some (.ldN8 (bitsOf 3 24 w) (bitsOf 7 17 w) (bitsOf 7 10 w) (bitsOf 5 5 w))
  | 1 => some (.ldI8 (bitsOf 3 24 w) (bitsOf 7 17 w) (bitsOf 7 10 w) (bitsOf 5 5 w))
  | 2 => some (.ldN16 (bitsOf 3 24 w) (bitsOf 7 17 w) (bitsOf 7 10 w) (bitsOf 5 5 w))
  | 3 => some (.ldI16 (bitsOf 3 24 w) (bitsOf 7 17 w) (bitsOf 7 10 w) (bitsOf 5 5 w))
  | 4 => some (.ldB32 (bitsOf 3 24 w) (bitsOf 7 17 w) (bitsOf 7 10 w) (bitsOf 5 5 w))
  | 5 => some (.ldB64 (bitsOf 3 24 w) (bitsOf 7 17 w) (bitsOf 7 10 w) (bitsOf 5 5 w))
  | 6 => some (.ldB128 (bitsOf 3 24 w) (bitsOf 7 17 w) (bitsOf 7 10 w) (bitsOf 5 5 w))
  | _ => none

/-- Class 19 of Table 7.2, by function code. -/
def decodeClass19 (w : Nat) : Option Instr :=
  match fieldOf w 0 5 with
  | 0 => some (.stB8 (bitsOf 3 24 w) (bitsOf 7 17 w) (bitsOf 7 10 w) (bitsOf 5 5 w))
  | 1 => some (.stB16 (bitsOf 3 24 w) (bitsOf 7 17 w) (bitsOf 7 10 w) (bitsOf 5 5 w))
  | 2 => some (.stB32 (bitsOf 3 24 w) (bitsOf 7 17 w) (bitsOf 7 10 w) (bitsOf 5 5 w))
  | 3 => some (.stB64 (bitsOf 3 24 w) (bitsOf 7 17 w) (bitsOf 7 10 w) (bitsOf 5 5 w))
  | 4 => some (.stB128 (bitsOf 3 24 w) (bitsOf 7 17 w) (bitsOf 7 10 w) (bitsOf 5 5 w))
  | _ => none

/-- Class 20 of Table 7.2, by function code. -/
def decodeClass20 (w : Nat) : Option Instr :=
  match fieldOf w 0 5 with
  | 0 => some (.aaddI32 (bitsOf 3 24 w) (bitsOf 7 17 w) (bitsOf 7 10 w) (bitsOf 5 5 w))
  | 1 => some (.aaddI64 (bitsOf 3 24 w) (bitsOf 7 17 w) (bitsOf 7 10 w) (bitsOf 5 5 w))
  | 2 => some (.aaddF32 (bitsOf 3 24 w) (bitsOf 7 17 w) (bitsOf 7 10 w) (bitsOf 5 5 w))
  | 3 => some (.aminI32 (bitsOf 3 24 w) (bitsOf 7 17 w) (bitsOf 7 10 w) (bitsOf 5 5 w))
  | 4 => some (.amaxI32 (bitsOf 3 24 w) (bitsOf 7 17 w) (bitsOf 7 10 w) (bitsOf 5 5 w))
  | 5 => some (.aminN32 (bitsOf 3 24 w) (bitsOf 7 17 w) (bitsOf 7 10 w) (bitsOf 5 5 w))
  | 6 => some (.amaxN32 (bitsOf 3 24 w) (bitsOf 7 17 w) (bitsOf 7 10 w) (bitsOf 5 5 w))
  | 7 => some (.aminF32 (bitsOf 3 24 w) (bitsOf 7 17 w) (bitsOf 7 10 w) (bitsOf 5 5 w))
  | 8 => some (.amaxF32 (bitsOf 3 24 w) (bitsOf 7 17 w) (bitsOf 7 10 w) (bitsOf 5 5 w))
  | 9 => some (.aand (bitsOf 3 24 w) (bitsOf 7 17 w) (bitsOf 7 10 w) (bitsOf 5 5 w))
  | 10 => some (.aor (bitsOf 3 24 w) (bitsOf 7 17 w) (bitsOf 7 10 w) (bitsOf 5 5 w))
  | 11 => some (.axor (bitsOf 3 24 w) (bitsOf 7 17 w) (bitsOf 7 10 w) (bitsOf 5 5 w))
  | 12 => some (.axchgB32 (bitsOf 3 24 w) (bitsOf 7 17 w) (bitsOf 7 10 w) (bitsOf 5 5 w))
  | 13 => some (.axchgB64 (bitsOf 3 24 w) (bitsOf 7 17 w) (bitsOf 7 10 w) (bitsOf 5 5 w))
  | 14 => some (.acasB32 (bitsOf 3 24 w) (bitsOf 7 17 w) (bitsOf 7 10 w) (bitsOf 5 5 w))
  | 15 => some (.acasB64 (bitsOf 3 24 w) (bitsOf 7 17 w) (bitsOf 7 10 w) (bitsOf 5 5 w))
  | _ => none

/-- Class 21 of Table 7.2, by function code. -/
def decodeClass21 (w : Nat) : Option Instr :=
  match fieldOf w 0 5 with
  | 0 => some (.vpoolB32 (bitsOf 3 24 w) (bitsOf 7 17 w) (bitsOf 7 10 w) (bitsOf 5 5 w))
  | 1 => some (.vpoolB64 (bitsOf 3 24 w) (bitsOf 7 17 w) (bitsOf 7 10 w) (bitsOf 5 5 w))
  | _ => none

/-- Class 22 of Table 7.2, by function code. -/
def decodeClass22 (w : Nat) : Option Instr :=
  match fieldOf w 12 3 with
  | 0 => some (.sldB32 (bitsOf 7 20 w) (bitsOf 5 15 w) (bitsOf 12 0 w))
  | 1 => some (.sldB64 (bitsOf 7 20 w) (bitsOf 5 15 w) (bitsOf 12 0 w))
  | 2 => some (.sstB32 (bitsOf 7 20 w) (bitsOf 5 15 w) (bitsOf 12 0 w))
  | 3 => some (.sstB64 (bitsOf 7 20 w) (bitsOf 5 15 w) (bitsOf 12 0 w))
  | 4 => some (.saaddB64 (bitsOf 7 20 w) (bitsOf 5 15 w) (bitsOf 12 0 w))
  | 5 => some (.scasB64 (bitsOf 7 20 w) (bitsOf 5 15 w) (bitsOf 12 0 w))
  | 6 => if fieldOf w 20 7 = 0 then some (.sprefetch (bitsOf 5 15 w) (bitsOf 12 0 w)) else none
  | 7 => some (.slduB32 (bitsOf 7 20 w) (bitsOf 5 15 w) (bitsOf 12 0 w))
  | _ => none

/-- Class 23 of Table 7.2, by function code. -/
def decodeClass23 (w : Nat) : Option Instr :=
  match fieldOf w 0 5 with
  | 0 => some (.aappB32 (bitsOf 3 24 w) (bitsOf 7 17 w) (bitsOf 7 10 w) (bitsOf 5 5 w))
  | 1 => some (.aappB128 (bitsOf 3 24 w) (bitsOf 7 17 w) (bitsOf 7 10 w) (bitsOf 5 5 w))
  | 2 => some (.aappl (bitsOf 3 24 w) (bitsOf 7 17 w) (bitsOf 7 10 w) (bitsOf 5 5 w))
  | _ => none

/-- Class 24 of Table 7.2, by function code. -/
def decodeClass24 (w : Nat) : Option Instr :=
  match fieldOf w 24 3 with
  | 0 => some (.ccopy (bitsOf 3 21 w) (bitsOf 5 16 w) (bitsOf 5 11 w) (bitsOf 6 5 w) (bitsOf 5 0 w))
  | 1 => some (.cblock (bitsOf 3 21 w) (bitsOf 5 16 w) (bitsOf 5 11 w) (bitsOf 6 5 w) (bitsOf 5 0 w))
  | 2 => some (.cfill (bitsOf 3 21 w) (bitsOf 5 16 w) (bitsOf 5 11 w) (bitsOf 6 5 w) (bitsOf 5 0 w))
  | 3 => some (.cgather (bitsOf 3 21 w) (bitsOf 5 16 w) (bitsOf 5 11 w) (bitsOf 6 5 w) (bitsOf 5 0 w))
  | 4 => if fieldOf w 16 5 = 0 then some (.cprefetch (bitsOf 3 21 w) (bitsOf 5 11 w) (bitsOf 6 5 w) (bitsOf 5 0 w)) else none
  | 5 => if fieldOf w 16 5 = 0 then some (.cpromote (bitsOf 3 21 w) (bitsOf 5 11 w) (bitsOf 6 5 w) (bitsOf 5 0 w)) else none
  | _ => none

/-- Class 25 of Table 7.2, by function code. -/
def decodeClass25 (w : Nat) : Option Instr :=
  match fieldOf w 24 3 with
  | 0 => some (.mloop (bitsOf 4 20 w) (bitsOf 5 15 w) (bitsOf 5 10 w) (bitsOf 5 5 w) (bitsOf 5 0 w))
  | 1 => some (.mloopG (bitsOf 4 20 w) (bitsOf 5 15 w) (bitsOf 5 10 w) (bitsOf 5 5 w) (bitsOf 5 0 w))
  | 2 => some (.mloopCx (bitsOf 4 20 w) (bitsOf 5 15 w) (bitsOf 5 10 w) (bitsOf 5 5 w) (bitsOf 5 0 w))
  | 3 => if fieldOf w 10 5 = 0 then some (.mdrain (bitsOf 4 20 w) (bitsOf 5 15 w) (bitsOf 5 5 w) (bitsOf 5 0 w)) else none
  | 4 => some (.mdrainMx (bitsOf 4 20 w) (bitsOf 5 15 w) (bitsOf 5 10 w) (bitsOf 5 5 w) (bitsOf 5 0 w))
  | 5 => if fieldOf w 0 20 = 0 then some (.mzero (bitsOf 4 20 w)) else none
  | 6 => if fieldOf w 0 15 = 0 then some (.mload (bitsOf 4 20 w) (bitsOf 5 15 w)) else none
  | 7 => if fieldOf w 0 5 = 0 ∧ fieldOf w 10 10 = 0 then some (.mprog (bitsOf 4 20 w) (bitsOf 5 5 w)) else none
  | _ => none

/-- Class 26 of Table 7.2, by function code. -/
def decodeClass26 (w : Nat) : Option Instr :=
  match fieldOf w 22 5 with
  | 0 => if fieldOf w 0 1 = 0 ∧ fieldOf w 15 7 = 0 then some (.barinit (bitsOf 7 8 w) (bitsOf 7 1 w)) else none
  | 1 => if fieldOf w 0 1 = 0 then some (.bararrive (bitsOf 7 15 w) (bitsOf 7 8 w) (bitsOf 7 1 w)) else none
  | 2 => if fieldOf w 0 1 = 0 then some (.barexpect (bitsOf 7 15 w) (bitsOf 7 8 w) (bitsOf 7 1 w)) else none
  | 3 => if fieldOf w 0 8 = 0 then some (.barquery (bitsOf 7 15 w) (bitsOf 7 8 w)) else none
  | 4 => if fieldOf w 0 8 = 0 then some (.tlread (bitsOf 7 15 w) (bitsOf 7 8 w)) else none
  | 5 => if fieldOf w 0 1 = 0 ∧ fieldOf w 7 1 = 0 then some (.wait (bitsOf 7 15 w) (bitsOf 7 8 w) (bitsOf 6 1 w)) else if fieldOf w 0 1 = 0 ∧ fieldOf w 7 1 = 1 then some (.waitInline (bitsOf 7 15 w) (bitsOf 7 8 w) (bitsOf 6 1 w)) else none
  | 6 => if fieldOf w 0 2 = 0 then some (.settle (bitsOf 5 17 w) (bitsOf 5 12 w) (bitsOf 5 7 w) (bitsOf 5 2 w)) else none
  | 7 => if fieldOf w 0 22 = 0 then some (.fenceSys) else none
  | 8 => if fieldOf w 0 1 = 0 then some (.flush (bitsOf 7 15 w) (bitsOf 7 8 w) (bitsOf 7 1 w)) else none
  | 9 => if fieldOf w 0 1 = 0 then some (.inval (bitsOf 7 15 w) (bitsOf 7 8 w) (bitsOf 7 1 w)) else none
  | 10 => if fieldOf w 0 15 = 0 then some (.clock (bitsOf 7 15 w)) else none
  | _ => none

/-- Class 27 of Table 7.2, by function code. -/
noncomputable def decodeClass27 (w : Nat) : Option Instr :=
  match fieldOf w 22 5 with
  | 0 => if fieldOf w 0 1 = 0 then some (.wspawn (bitsOf 7 15 w) (bitsOf 7 8 w) (bitsOf 7 1 w)) else none
  | 1 => if fieldOf w 0 8 = 0 then some (.wexit (bitsOf 7 15 w) (bitsOf 7 8 w)) else none
  | 2 => if fieldOf w 0 1 = 0 then some (.rspawn (bitsOf 7 15 w) (bitsOf 7 8 w) (bitsOf 7 1 w)) else none
  | 3 => if fieldOf w 0 1 = 0 then some (.odup (bitsOf 7 15 w) (bitsOf 7 8 w) (bitsOf 7 1 w)) else none
  | 4 => if fieldOf w 0 8 = 0 then some (.oclose (bitsOf 7 15 w) (bitsOf 7 8 w)) else none
  | 5 => if fieldOf w 0 1 = 0 then some (.oinfo (bitsOf 7 15 w) (bitsOf 7 8 w) (bitsOf 7 1 w)) else none
  | 6 => if fieldOf w 0 15 = 0 then some (.wsnew (bitsOf 7 15 w)) else none
  | 7 => if fieldOf w 0 1 = 0 then some (.wsadd (bitsOf 7 15 w) (bitsOf 7 8 w) (bitsOf 7 1 w)) else none
  | 8 => if fieldOf w 0 1 = 0 then some (.wsdel (bitsOf 7 15 w) (bitsOf 7 8 w) (bitsOf 7 1 w)) else none
  | 9 => if fieldOf w 0 15 = 0 then some (.tnew (bitsOf 7 15 w)) else none
  | 10 => if fieldOf w 0 1 = 0 then some (.tarm (bitsOf 7 15 w) (bitsOf 7 8 w) (bitsOf 7 1 w)) else none
  | 11 => if fieldOf w 0 8 = 0 then some (.tcancel (bitsOf 7 15 w) (bitsOf 7 8 w)) else none
  | 12 => if fieldOf w 0 8 = 0 then some (.pnew (bitsOf 7 15 w) (bitsOf 7 8 w)) else none
  | 13 => if fieldOf w 0 1 = 0 then some (.psend (bitsOf 7 15 w) (bitsOf 7 8 w) (bitsOf 7 1 w)) else none
  | 14 => if fieldOf w 0 1 = 0 then some (.pgrant (bitsOf 7 15 w) (bitsOf 7 8 w) (bitsOf 7 1 w)) else none
  | 15 => if fieldOf w 0 1 = 0 ∧ fieldOf w 7 1 = 0 then some (.precv (bitsOf 7 15 w) (bitsOf 7 8 w) (bitsOf 6 1 w)) else none
  | 16 => if fieldOf w 0 1 = 0 ∧ fieldOf w 7 1 = 0 then some (.pslot (bitsOf 7 15 w) (bitsOf 7 8 w) (bitsOf 6 1 w)) else none
  | 17 => if fieldOf w 0 8 = 0 then some (.pname (bitsOf 7 15 w) (bitsOf 7 8 w)) else none
  | 18 => if fieldOf w 0 1 = 0 then some (.preg (bitsOf 7 15 w) (bitsOf 7 8 w) (bitsOf 7 1 w)) else none
  | 19 => if fieldOf w 0 1 = 0 then some (.anew (bitsOf 7 15 w) (bitsOf 7 8 w) (bitsOf 7 1 w)) else none
  | 20 => if fieldOf w 0 8 = 0 then some (.aseal (bitsOf 7 15 w) (bitsOf 7 8 w)) else none
  | 21 => if fieldOf w 0 8 = 0 then some (.afree (bitsOf 7 15 w) (bitsOf 7 8 w)) else none
  | 22 => if fieldOf w 0 1 = 0 then some (.atail (bitsOf 7 15 w) (bitsOf 7 8 w) (bitsOf 7 1 w)) else none
  | 23 => if fieldOf w 0 1 = 0 then some (.rgnew (bitsOf 7 15 w) (bitsOf 7 8 w) (bitsOf 7 1 w)) else none
  | 24 => if fieldOf w 0 1 = 0 then some (.rgset (bitsOf 7 15 w) (bitsOf 7 8 w) (bitsOf 7 1 w)) else none
  | _ => none

/-- Class 28 of Table 7.2, by function code. -/
noncomputable def decodeClass28 (w : Nat) : Option Instr :=
  match fieldOf w 22 5 with
  | 0 => if fieldOf w 0 1 = 0 then some (.wread (bitsOf 7 15 w) (bitsOf 7 8 w) (bitsOf 7 1 w)) else none
  | 1 => if fieldOf w 0 1 = 0 then some (.wwrite (bitsOf 7 15 w) (bitsOf 7 8 w) (bitsOf 7 1 w)) else none
  | 2 => if fieldOf w 0 8 = 0 then some (.wresume (bitsOf 7 15 w) (bitsOf 7 8 w)) else none
  | 3 => if fieldOf w 0 15 = 0 then some (.gsaved (bitsOf 7 15 w)) else none
  | 4 => if fieldOf w 0 1 = 0 then some (.rdlog (bitsOf 7 15 w) (bitsOf 7 8 w) (bitsOf 7 1 w)) else none
  | 5 => if fieldOf w 0 8 = 0 then some (.csaveq (bitsOf 7 15 w) (bitsOf 7 8 w)) else none
  | 6 => if fieldOf w 0 8 = 0 then some (.creplay (bitsOf 7 15 w) (bitsOf 7 8 w)) else none
  | 7 => if fieldOf w 0 1 = 0 then some (.tlbinv (bitsOf 7 15 w) (bitsOf 7 8 w) (bitsOf 7 1 w)) else none
  | 8 => if fieldOf w 0 8 = 0 then some (.ckmark (bitsOf 7 15 w) (bitsOf 7 8 w)) else none
  | _ => none

/-- Class 29 of Table 7.2, by function code. -/
noncomputable def decodeClass29 (w : Nat) : Option Instr :=
  match fieldOf w 0 3 with
  | 0 => if fieldOf w 3 7 = 0 then some (.vfrint (bitsOf 3 24 w) (bitsOf 7 17 w) (bitsOf 7 10 w)) else none
  | 1 => if fieldOf w 3 7 = 0 then some (.vffloor (bitsOf 3 24 w) (bitsOf 7 17 w) (bitsOf 7 10 w)) else none
  | 2 => if fieldOf w 3 7 = 0 then some (.vfceil (bitsOf 3 24 w) (bitsOf 7 17 w) (bitsOf 7 10 w)) else none
  | 3 => if fieldOf w 3 7 = 0 then some (.vftrunc (bitsOf 3 24 w) (bitsOf 7 17 w) (bitsOf 7 10 w)) else none
  | 4 => if fieldOf w 3 7 = 0 then some (.vfclass (bitsOf 3 24 w) (bitsOf 7 17 w) (bitsOf 7 10 w)) else none
  | 5 => if fieldOf w 3 7 = 0 then some (.vfexp (bitsOf 3 24 w) (bitsOf 7 17 w) (bitsOf 7 10 w)) else none
  | 6 => if fieldOf w 3 7 = 0 then some (.vfmant (bitsOf 3 24 w) (bitsOf 7 17 w) (bitsOf 7 10 w)) else none
  | 7 => some (.vfmed3 (bitsOf 3 24 w) (bitsOf 7 17 w) (bitsOf 7 10 w) (bitsOf 7 3 w))
  | _ => none

/-- Class 31 of Table 7.2, by function code. -/
noncomputable def decodeClass31 (w : Nat) : Option Instr :=
  match fieldOf w 24 3 with
  | 0 => some (.ximm (bitsOf 24 0 w))
  | 1 => if fieldOf w 0 6 = 0 then some (.xop (bitsOf 18 6 w)) else none
  | 2 => some (.hint (bitsOf 24 0 w))
  | 3 => if fieldOf w 5 19 = 0 then some (.guard (bitsOf 1 4 w) (bitsOf 4 0 w)) else none
  | _ => none

/-- The row of the opcode map that a word matches, by class (Table 7.2). -/
noncomputable def decodeRow (w : Nat) : Option Instr :=
  match fieldOf w 27 5 with
  | 0 => decodeClass0 w
  | 1 => decodeClass1 w
  | 2 => decodeClass2 w
  | 3 => decodeClass3 w
  | 4 => decodeClass4 w
  | 5 => decodeClass5 w
  | 6 => decodeClass6 w
  | 7 => decodeClass7 w
  | 8 => decodeClass8 w
  | 9 => decodeClass9 w
  | 10 => decodeClass10 w
  | 11 => decodeClass11 w
  | 12 => decodeClass12 w
  | 13 => decodeClass13 w
  | 14 => decodeClass14 w
  | 15 => decodeClass15 w
  | 16 => decodeClass16 w
  | 17 => decodeClass17 w
  | 18 => decodeClass18 w
  | 19 => decodeClass19 w
  | 20 => decodeClass20 w
  | 21 => decodeClass21 w
  | 22 => decodeClass22 w
  | 23 => decodeClass23 w
  | 24 => decodeClass24 w
  | 25 => decodeClass25 w
  | 26 => decodeClass26 w
  | 27 => decodeClass27 w
  | 28 => decodeClass28 w
  | 29 => decodeClass29 w
  | 31 => decodeClass31 w
  | _ => none

/-- The instruction a word is (R102); a word of no row is the illegal encoding of R104. -/
noncomputable def decodeWord (w : BitVec 32) : Instr := (decodeRow w.toNat).getD (.illegalEncoding w)

/-- Why bytes are no instruction word. -/
inductive DecodeError where
  /-- fewer than four bytes are left (a word is four bytes, R98) -/
  | tooShort
  deriving DecidableEq, Repr

/-- The little-endian word of four bytes (R98). -/
def wordOfBytes (b0 b1 b2 b3 : BitVec 8) : BitVec 32 := b3 ++ b2 ++ b1 ++ b0

/-- Reads one word from bytes and gives back the rest. -/
noncomputable def decode : List (BitVec 8) → Except DecodeError (Instr × List (BitVec 8))
  | b0 :: b1 :: b2 :: b3 :: rest => .ok (decodeWord (wordOfBytes b0 b1 b2 b3), rest)
  | _ => .error .tooShort

/-- What the decoder reads from a word whose bits are numbered as the opcode table numbers them. -/
noncomputable def decodeTableWord (nbits w : Nat) : Option Instr :=
  let v := BitVec.ofNat 32 (w % 2 ^ nbits)
  match decode [v.extractLsb' 0 8, v.extractLsb' 8 8, v.extractLsb' 16 8, v.extractLsb' 24 8] with
  | .ok (i, _) => some i
  | .error _ => none

/-- A word from its fixed bits and fields, each given with its lowest bit (Table 7.1). -/
def put1 (m a i : Nat) : Nat := m + a * 2 ^ i

@[inherit_doc put1] def put2 (m a i b j : Nat) : Nat := put1 m a i + b * 2 ^ j

@[inherit_doc put1] def put3 (m a i b j c k : Nat) : Nat := put2 m a i b j + c * 2 ^ k

@[inherit_doc put1] def put4 (m a i b j c k d l : Nat) : Nat := put3 m a i b j c k + d * 2 ^ l

@[inherit_doc put1] def put5 (m a i b j c k d l e n : Nat) : Nat := put4 m a i b j c k d l + e * 2 ^ n

/-- The word of an instruction as a number, from Tables 7.1 and 7.2; 0 for an event, which has no word. -/
def encodeNat : Instr → Nat
  | .vaddI32 g d a b => put4 0x0 g.toNat 24 d.toNat 17 a.toNat 10 b.toNat 3
  | .vsubI32 g d a b => put4 0x1 g.toNat 24 d.toNat 17 a.toNat 10 b.toNat 3
  | .vmulloI32 g d a b => put4 0x2 g.toNat 24 d.toNat 17 a.toNat 10 b.toNat 3
  | .vmulhiI32 g d a b => put4 0x3 g.toNat 24 d.toNat 17 a.toNat 10 b.toNat 3
  | .vmulhiN32 g d a b => put4 0x4 g.toNat 24 d.toNat 17 a.toNat 10 b.toNat 3
  | .vmadI32 g d a b => put4 0x5 g.toNat 24 d.toNat 17 a.toNat 10 b.toNat 3
  | .vminI32 g d a b => put4 0x6 g.toNat 24 d.toNat 17 a.toNat 10 b.toNat 3
  | .vminN32 g d a b => put4 0x7 g.toNat 24 d.toNat 17 a.toNat 10 b.toNat 3
  | .vmaxI32 g d a b => put4 0x8000000 g.toNat 24 d.toNat 17 a.toNat 10 b.toNat 3
  | .vmaxN32 g d a b => put4 0x8000001 g.toNat 24 d.toNat 17 a.toNat 10 b.toNat 3
  | .vabsdI32 g d a b => put4 0x8000002 g.toNat 24 d.toNat 17 a.toNat 10 b.toNat 3
  | .vabsdN32 g d a b => put4 0x8000003 g.toNat 24 d.toNat 17 a.toNat 10 b.toNat 3
  | .vaddsI32 g d a b => put4 0x8000004 g.toNat 24 d.toNat 17 a.toNat 10 b.toNat 3
  | .vsubsI32 g d a b => put4 0x8000005 g.toNat 24 d.toNat 17 a.toNat 10 b.toNat 3
  | .vaddsN32 g d a b => put4 0x8000006 g.toNat 24 d.toNat 17 a.toNat 10 b.toNat 3
  | .vsubsN32 g d a b => put4 0x8000007 g.toNat 24 d.toNat 17 a.toNat 10 b.toNat 3
  | .vand g d a b => put4 0x10000000 g.toNat 24 d.toNat 17 a.toNat 10 b.toNat 3
  | .vor g d a b => put4 0x10000001 g.toNat 24 d.toNat 17 a.toNat 10 b.toNat 3
  | .vxor g d a b => put4 0x10000002 g.toNat 24 d.toNat 17 a.toNat 10 b.toNat 3
  | .vandn g d a b => put4 0x10000003 g.toNat 24 d.toNat 17 a.toNat 10 b.toNat 3
  | .vshl g d a b => put4 0x10000004 g.toNat 24 d.toNat 17 a.toNat 10 b.toNat 3
  | .vshrN32 g d a b => put4 0x10000005 g.toNat 24 d.toNat 17 a.toNat 10 b.toNat 3
  | .vshrI32 g d a b => put4 0x10000006 g.toNat 24 d.toNat 17 a.toNat 10 b.toNat 3
  | .vrotl g d a b => put4 0x10000007 g.toNat 24 d.toNat 17 a.toNat 10 b.toNat 3
  | .vpopc g d a => put3 0x18000000 g.toNat 24 d.toNat 17 a.toNat 10
  | .vclz g d a => put3 0x18000001 g.toNat 24 d.toNat 17 a.toNat 10
  | .vbrev g d a => put3 0x18000002 g.toNat 24 d.toNat 17 a.toNat 10
  | .vbfeN32 g d a b => put4 0x18000003 g.toNat 24 d.toNat 17 a.toNat 10 b.toNat 3
  | .vbfeI32 g d a b => put4 0x18000004 g.toNat 24 d.toNat 17 a.toNat 10 b.toNat 3
  | .vbfi g d a b => put4 0x18000005 g.toNat 24 d.toNat 17 a.toNat 10 b.toNat 3
  | .vsel g d a b => put4 0x18000006 g.toNat 24 d.toNat 17 a.toNat 10 b.toNat 3
  | .vmov g d a => put3 0x18000007 g.toNat 24 d.toNat 17 a.toNat 10
  | .vfaddF32 g d a b => put4 0x20000000 g.toNat 24 d.toNat 17 a.toNat 10 b.toNat 3
  | .vfsubF32 g d a b => put4 0x20000001 g.toNat 24 d.toNat 17 a.toNat 10 b.toNat 3
  | .vfmulF32 g d a b => put4 0x20000002 g.toNat 24 d.toNat 17 a.toNat 10 b.toNat 3
  | .vfmaF32 g d a b => put4 0x20000003 g.toNat 24 d.toNat 17 a.toNat 10 b.toNat 3
  | .vfminF32 g d a b => put4 0x20000004 g.toNat 24 d.toNat 17 a.toNat 10 b.toNat 3
  | .vfmaxF32 g d a b => put4 0x20000005 g.toNat 24 d.toNat 17 a.toNat 10 b.toNat 3
  | .vfsgnF32 g d a b => put4 0x20000006 g.toNat 24 d.toNat 17 a.toNat 10 b.toNat 3
  | .vfscaleF32 g d a b => put4 0x20000007 g.toNat 24 d.toNat 17 a.toNat 10 b.toNat 3
  | .vhaddF16x2 g d a b => put4 0x28000000 g.toNat 24 d.toNat 17 a.toNat 10 b.toNat 3
  | .vhmulF16x2 g d a b => put4 0x28000001 g.toNat 24 d.toNat 17 a.toNat 10 b.toNat 3
  | .vhfmaF16x2 g d a b => put4 0x28000002 g.toNat 24 d.toNat 17 a.toNat 10 b.toNat 3
  | .vhaddBf16x2 g d a b => put4 0x28000003 g.toNat 24 d.toNat 17 a.toNat 10 b.toNat 3
  | .vhmulBf16x2 g d a b => put4 0x28000004 g.toNat 24 d.toNat 17 a.toNat 10 b.toNat 3
  | .vhfmaBf16x2 g d a b => put4 0x28000005 g.toNat 24 d.toNat 17 a.toNat 10 b.toNat 3
  | .vhminF16x2 g d a b => put4 0x28000006 g.toNat 24 d.toNat 17 a.toNat 10 b.toNat 3
  | .vhmaxF16x2 g d a b => put4 0x28000007 g.toNat 24 d.toNat 17 a.toNat 10 b.toNat 3
  | .vdaddF64 g d a b => put4 0x30000000 g.toNat 24 d.toNat 17 a.toNat 10 b.toNat 3
  | .vdsubF64 g d a b => put4 0x30000001 g.toNat 24 d.toNat 17 a.toNat 10 b.toNat 3
  | .vdmulF64 g d a b => put4 0x30000002 g.toNat 24 d.toNat 17 a.toNat 10 b.toNat 3
  | .vdfmaF64 g d a b => put4 0x30000003 g.toNat 24 d.toNat 17 a.toNat 10 b.toNat 3
  | .vdminF64 g d a b => put4 0x30000004 g.toNat 24 d.toNat 17 a.toNat 10 b.toNat 3
  | .vdmaxF64 g d a b => put4 0x30000005 g.toNat 24 d.toNat 17 a.toNat 10 b.toNat 3
  | .vdsqrtF64 g d a => put3 0x30000006 g.toNat 24 d.toNat 17 a.toNat 10
  | .vddivF64 g d a b => put4 0x30000007 g.toNat 24 d.toNat 17 a.toNat 10 b.toNat 3
  | .vrcpF32 g d a => put3 0x38000000 g.toNat 24 d.toNat 17 a.toNat 10
  | .vrsqF32 g d a => put3 0x38000001 g.toNat 24 d.toNat 17 a.toNat 10
  | .vsqrtF32 g d a => put3 0x38000002 g.toNat 24 d.toNat 17 a.toNat 10
  | .vexp2F32 g d a => put3 0x38000003 g.toNat 24 d.toNat 17 a.toNat 10
  | .vlog2F32 g d a => put3 0x38000004 g.toNat 24 d.toNat 17 a.toNat 10
  | .vsinpiF32 g d a => put3 0x38000005 g.toNat 24 d.toNat 17 a.toNat 10
  | .vcospiF32 g d a => put3 0x38000006 g.toNat 24 d.toNat 17 a.toNat 10
  | .vdivF32 g d a b => put4 0x38000007 g.toNat 24 d.toNat 17 a.toNat 10 b.toNat 3
  | .vcmpEqI32 g d a b => put4 0x40000000 g.toNat 24 d.toNat 17 a.toNat 10 b.toNat 3
  | .vcmpLtI32 g d a b => put4 0x40000001 g.toNat 24 d.toNat 17 a.toNat 10 b.toNat 3
  | .vcmpLtN32 g d a b => put4 0x40000002 g.toNat 24 d.toNat 17 a.toNat 10 b.toNat 3
  | .vcmpLeI32 g d a b => put4 0x40000003 g.toNat 24 d.toNat 17 a.toNat 10 b.toNat 3
  | .vcmpEqF32 g d a b => put4 0x40000004 g.toNat 24 d.toNat 17 a.toNat 10 b.toNat 3
  | .vcmpLtF32 g d a b => put4 0x40000005 g.toNat 24 d.toNat 17 a.toNat 10 b.toNat 3
  | .vcmpLeF32 g d a b => put4 0x40000006 g.toNat 24 d.toNat 17 a.toNat 10 b.toNat 3
  | .vcmpUnF32 g d a b => put4 0x40000007 g.toNat 24 d.toNat 17 a.toNat 10 b.toNat 3
  | .vcvtn g d a fmt slot => put5 0x48000000 g.toNat 24 d.toNat 17 a.toNat 10 fmt.toNat 2 slot.toNat 0
  | .vcvtw g d a fmt slot => put5 0x48000080 g.toNat 24 d.toNat 17 a.toNat 10 fmt.toNat 2 slot.toNat 0
  | .vcvti2f g d a fmt slot => put5 0x48000100 g.toNat 24 d.toNat 17 a.toNat 10 fmt.toNat 2 slot.toNat 0
  | .vcvtf2i g d a fmt slot => put5 0x48000180 g.toNat 24 d.toNat 17 a.toNat 10 fmt.toNat 2 slot.toNat 0
  | .vcvtd2f g d a fmt slot => put5 0x48000200 g.toNat 24 d.toNat 17 a.toNat 10 fmt.toNat 2 slot.toNat 0
  | .vcvtf2d g d a fmt slot => put5 0x48000280 g.toNat 24 d.toNat 17 a.toNat 10 fmt.toNat 2 slot.toNat 0
  | .vsrnd g d a fmt slot => put5 0x48000300 g.toNat 24 d.toNat 17 a.toNat 10 fmt.toNat 2 slot.toNat 0
  | .vmxs g d a fmt slot => put5 0x48000380 g.toNat 24 d.toNat 17 a.toNat 10 fmt.toNat 2 slot.toNat 0
  | .vaddi g d a imm => put4 0x50000000 g.toNat 24 d.toNat 17 a.toNat 10 imm.toNat 0
  | .vmuli g d a imm => put4 0x50000080 g.toNat 24 d.toNat 17 a.toNat 10 imm.toNat 0
  | .vandi g d a imm => put4 0x50000100 g.toNat 24 d.toNat 17 a.toNat 10 imm.toNat 0
  | .vori g d a imm => put4 0x50000180 g.toNat 24 d.toNat 17 a.toNat 10 imm.toNat 0
  | .vxori g d a imm => put4 0x50000200 g.toNat 24 d.toNat 17 a.toNat 10 imm.toNat 0
  | .vshli g d a imm => put4 0x50000280 g.toNat 24 d.toNat 17 a.toNat 10 imm.toNat 0
  | .vshriN32 g d a imm => put4 0x50000300 g.toNat 24 d.toNat 17 a.toNat 10 imm.toNat 0
  | .vshriI32 g d a imm => put4 0x50000380 g.toNat 24 d.toNat 17 a.toNat 10 imm.toNat 0
  | .vshf g d a b => put4 0x58000000 g.toNat 24 d.toNat 17 a.toNat 10 b.toNat 3
  | .vshfx g d a b => put4 0x58000001 g.toNat 24 d.toNat 17 a.toNat 10 b.toNat 3
  | .vshfup g d a b => put4 0x58000002 g.toNat 24 d.toNat 17 a.toNat 10 b.toNat 3
  | .vshfdn g d a b => put4 0x58000003 g.toNat 24 d.toNat 17 a.toNat 10 b.toNat 3
  | .vredsumI32 g d a => put3 0x58000004 g.toNat 24 d.toNat 17 a.toNat 10
  | .vredmaxF32 g d a => put3 0x58000005 g.toNat 24 d.toNat 17 a.toNat 10
  | .vscanI32 g d a => put3 0x58000006 g.toNat 24 d.toNat 17 a.toNat 10
  | .vredsumF32 g d a => put3 0x58000007 g.toNat 24 d.toNat 17 a.toNat 10
  | .vdot4I8 g d a b => put4 0x60000000 g.toNat 24 d.toNat 17 a.toNat 10 b.toNat 3
  | .vdot4N8 g d a b => put4 0x60000001 g.toNat 24 d.toNat 17 a.toNat 10 b.toNat 3
  | .vdot4In8 g d a b => put4 0x60000002 g.toNat 24 d.toNat 17 a.toNat 10 b.toNat 3
  | .vdot8I4 g d a b => put4 0x60000003 g.toNat 24 d.toNat 17 a.toNat 10 b.toNat 3
  | .vdot8N4 g d a b => put4 0x60000004 g.toNat 24 d.toNat 17 a.toNat 10 b.toNat 3
  | .vdot2Bf16 g d a b => put4 0x60000005 g.toNat 24 d.toNat 17 a.toNat 10 b.toNat 3
  | .vdot4E4m3 g d a b => put4 0x60000006 g.toNat 24 d.toNat 17 a.toNat 10 b.toNat 3
  | .vdot8E2m1 g d a b => put4 0x60000007 g.toNat 24 d.toNat 17 a.toNat 10 b.toNat 3
  | .sadd d a b => put3 0x68000000 d.toNat 20 a.toNat 13 b.toNat 6
  | .ssub d a b => put3 0x68000001 d.toNat 20 a.toNat 13 b.toNat 6
  | .smullo d a b => put3 0x68000002 d.toNat 20 a.toNat 13 b.toNat 6
  | .smulhiI32 d a b => put3 0x68000003 d.toNat 20 a.toNat 13 b.toNat 6
  | .smulhiN32 d a b => put3 0x68000004 d.toNat 20 a.toNat 13 b.toNat 6
  | .sdivI32 d a b => put3 0x68000005 d.toNat 20 a.toNat 13 b.toNat 6
  | .sdivN32 d a b => put3 0x68000006 d.toNat 20 a.toNat 13 b.toNat 6
  | .sremI32 d a b => put3 0x68000007 d.toNat 20 a.toNat 13 b.toNat 6
  | .sremN32 d a b => put3 0x68000008 d.toNat 20 a.toNat 13 b.toNat 6
  | .sminI32 d a b => put3 0x68000009 d.toNat 20 a.toNat 13 b.toNat 6
  | .sminN32 d a b => put3 0x6800000A d.toNat 20 a.toNat 13 b.toNat 6
  | .smaxI32 d a b => put3 0x6800000B d.toNat 20 a.toNat 13 b.toNat 6
  | .smaxN32 d a b => put3 0x6800000C d.toNat 20 a.toNat 13 b.toNat 6
  | .sand d a b => put3 0x6800000D d.toNat 20 a.toNat 13 b.toNat 6
  | .sor d a b => put3 0x6800000E d.toNat 20 a.toNat 13 b.toNat 6
  | .sxor d a b => put3 0x6800000F d.toNat 20 a.toNat 13 b.toNat 6
  | .sshl d a b => put3 0x68000010 d.toNat 20 a.toNat 13 b.toNat 6
  | .sshrN32 d a b => put3 0x68000011 d.toNat 20 a.toNat 13 b.toNat 6
  | .sshrI32 d a b => put3 0x68000012 d.toNat 20 a.toNat 13 b.toNat 6
  | .saddI64 d a b => put3 0x68000013 d.toNat 20 a.toNat 13 b.toNat 6
  | .ssubI64 d a b => put3 0x68000014 d.toNat 20 a.toNat 13 b.toNat 6
  | .smulI64 d a b => put3 0x68000015 d.toNat 20 a.toNat 13 b.toNat 6
  | .sshlB64 d a b => put3 0x68000016 d.toNat 20 a.toNat 13 b.toNat 6
  | .sshrN64 d a b => put3 0x68000017 d.toNat 20 a.toNat 13 b.toNat 6
  | .scmpEq d a b => put3 0x68000018 d.toNat 20 a.toNat 13 b.toNat 6
  | .scmpLtI32 d a b => put3 0x68000019 d.toNat 20 a.toNat 13 b.toNat 6
  | .scmpLtN32 d a b => put3 0x6800001A d.toNat 20 a.toNat 13 b.toNat 6
  | .sfaddF32 d a b => put3 0x6800001B d.toNat 20 a.toNat 13 b.toNat 6
  | .sfmulF32 d a b => put3 0x6800001C d.toNat 20 a.toNat 13 b.toNat 6
  | .sfmaF32 d a b => put3 0x6800001D d.toNat 20 a.toNat 13 b.toNat 6
  | .scvtf2i d a => put2 0x6800001E d.toNat 20 a.toNat 13
  | .scvti2f d a => put2 0x6800001F d.toNat 20 a.toNat 13
  | .saddi d a imm => put3 0x70000000 d.toNat 20 a.toNat 13 imm.toNat 0
  | .sandi d a imm => put3 0x70000400 d.toNat 20 a.toNat 13 imm.toNat 0
  | .sori d a imm => put3 0x70000800 d.toNat 20 a.toNat 13 imm.toNat 0
  | .sxori d a imm => put3 0x70000C00 d.toNat 20 a.toNat 13 imm.toNat 0
  | .sshli d a imm => put3 0x70001000 d.toNat 20 a.toNat 13 imm.toNat 0
  | .sshri d a imm => put3 0x70001400 d.toNat 20 a.toNat 13 imm.toNat 0
  | .slui d a imm => put3 0x70001800 d.toNat 20 a.toNat 13 imm.toNat 0
  | .smovi d imm => put2 0x70001C00 d.toNat 20 imm.toNat 0
  | .vbcast d a => put2 0x78000000 d.toNat 20 a.toNat 13
  | .vrdlane d a b => put3 0x78000001 d.toNat 20 a.toNat 13 b.toNat 6
  | .vwrlane d a b => put3 0x78000002 d.toNat 20 a.toNat 13 b.toNat 6
  | .vlpc d b => put2 0x78000003 d.toNat 20 b.toNat 6
  | .srsr d a => put2 0x78000004 d.toNat 20 a.toNat 13
  | .swsr d a => put2 0x78000005 d.toNat 20 a.toNat 13
  | .p2s d a => put2 0x78000006 d.toNat 20 a.toNat 13
  | .s2p d a => put2 0x78000007 d.toNat 20 a.toNat 13
  | .pand d a b => put3 0x78000008 d.toNat 20 a.toNat 13 b.toNat 6
  | .por d a b => put3 0x78000009 d.toNat 20 a.toNat 13 b.toNat 6
  | .pxor d a b => put3 0x7800000A d.toNat 20 a.toNat 13 b.toNat 6
  | .pnot d a => put2 0x7800000B d.toNat 20 a.toNat 13
  | .ptag a => put1 0x7800000C a.toNat 13
  | .pcount d a => put2 0x7800000D d.toNat 20 a.toNat 13
  | .twr d a b => put3 0x7800000E d.toNat 20 a.toNat 13 b.toNat 6
  | .trd d a b => put3 0x7800000F d.toNat 20 a.toNat 13 b.toNat 6
  | .br off => put1 0x80000000 off.toNat 0
  | .brp c off => put2 0x81000000 c.toNat 20 off.toNat 0
  | .brnp c off => put2 0x82000000 c.toNat 20 off.toNat 0
  | .brz c off => put2 0x83000000 c.toNat 20 off.toNat 0
  | .brnz c off => put2 0x84000000 c.toNat 20 off.toNat 0
  | .call off => put1 0x85000000 off.toNat 0
  | .jmpi c => put1 0x86000000 c.toNat 20
  | .jmpv v => put1 0x87000000 v.toNat 0
  | .ret => 0x88000000
  | .exit => 0x89000000
  | .nop => 0x8A000000
  | .yield => 0x8B000000
  | .trap imm => put1 0x8C000000 imm.toNat 0
  | .brk imm => put1 0x8D000000 imm.toNat 0
  | .ereturn => 0x8E000000
  | .ldN8 g vt vo sp => put4 0x90000000 g.toNat 24 vt.toNat 17 vo.toNat 10 sp.toNat 5
  | .ldI8 g vt vo sp => put4 0x90000001 g.toNat 24 vt.toNat 17 vo.toNat 10 sp.toNat 5
  | .ldN16 g vt vo sp => put4 0x90000002 g.toNat 24 vt.toNat 17 vo.toNat 10 sp.toNat 5
  | .ldI16 g vt vo sp => put4 0x90000003 g.toNat 24 vt.toNat 17 vo.toNat 10 sp.toNat 5
  | .ldB32 g vt vo sp => put4 0x90000004 g.toNat 24 vt.toNat 17 vo.toNat 10 sp.toNat 5
  | .ldB64 g vt vo sp => put4 0x90000005 g.toNat 24 vt.toNat 17 vo.toNat 10 sp.toNat 5
  | .ldB128 g vt vo sp => put4 0x90000006 g.toNat 24 vt.toNat 17 vo.toNat 10 sp.toNat 5
  | .stB8 g vt vo sp => put4 0x98000000 g.toNat 24 vt.toNat 17 vo.toNat 10 sp.toNat 5
  | .stB16 g vt vo sp => put4 0x98000001 g.toNat 24 vt.toNat 17 vo.toNat 10 sp.toNat 5
  | .stB32 g vt vo sp => put4 0x98000002 g.toNat 24 vt.toNat 17 vo.toNat 10 sp.toNat 5
  | .stB64 g vt vo sp => put4 0x98000003 g.toNat 24 vt.toNat 17 vo.toNat 10 sp.toNat 5
  | .stB128 g vt vo sp => put4 0x98000004 g.toNat 24 vt.toNat 17 vo.toNat 10 sp.toNat 5
  | .aaddI32 g vt vo sp => put4 0xA0000000 g.toNat 24 vt.toNat 17 vo.toNat 10 sp.toNat 5
  | .aaddI64 g vt vo sp => put4 0xA0000001 g.toNat 24 vt.toNat 17 vo.toNat 10 sp.toNat 5
  | .aaddF32 g vt vo sp => put4 0xA0000002 g.toNat 24 vt.toNat 17 vo.toNat 10 sp.toNat 5
  | .aminI32 g vt vo sp => put4 0xA0000003 g.toNat 24 vt.toNat 17 vo.toNat 10 sp.toNat 5
  | .amaxI32 g vt vo sp => put4 0xA0000004 g.toNat 24 vt.toNat 17 vo.toNat 10 sp.toNat 5
  | .aminN32 g vt vo sp => put4 0xA0000005 g.toNat 24 vt.toNat 17 vo.toNat 10 sp.toNat 5
  | .amaxN32 g vt vo sp => put4 0xA0000006 g.toNat 24 vt.toNat 17 vo.toNat 10 sp.toNat 5
  | .aminF32 g vt vo sp => put4 0xA0000007 g.toNat 24 vt.toNat 17 vo.toNat 10 sp.toNat 5
  | .amaxF32 g vt vo sp => put4 0xA0000008 g.toNat 24 vt.toNat 17 vo.toNat 10 sp.toNat 5
  | .aand g vt vo sp => put4 0xA0000009 g.toNat 24 vt.toNat 17 vo.toNat 10 sp.toNat 5
  | .aor g vt vo sp => put4 0xA000000A g.toNat 24 vt.toNat 17 vo.toNat 10 sp.toNat 5
  | .axor g vt vo sp => put4 0xA000000B g.toNat 24 vt.toNat 17 vo.toNat 10 sp.toNat 5
  | .axchgB32 g vt vo sp => put4 0xA000000C g.toNat 24 vt.toNat 17 vo.toNat 10 sp.toNat 5
  | .axchgB64 g vt vo sp => put4 0xA000000D g.toNat 24 vt.toNat 17 vo.toNat 10 sp.toNat 5
  | .acasB32 g vt vo sp => put4 0xA000000E g.toNat 24 vt.toNat 17 vo.toNat 10 sp.toNat 5
  | .acasB64 g vt vo sp => put4 0xA000000F g.toNat 24 vt.toNat 17 vo.toNat 10 sp.toNat 5
  | .vpoolB32 g vt vo sp => put4 0xA8000000 g.toNat 24 vt.toNat 17 vo.toNat 10 sp.toNat 5
  | .vpoolB64 g vt vo sp => put4 0xA8000001 g.toNat 24 vt.toNat 17 vo.toNat 10 sp.toNat 5
  | .sldB32 d sp off => put3 0xB0000000 d.toNat 20 sp.toNat 15 off.toNat 0
  | .sldB64 d sp off => put3 0xB0001000 d.toNat 20 sp.toNat 15 off.toNat 0
  | .sstB32 d sp off => put3 0xB0002000 d.toNat 20 sp.toNat 15 off.toNat 0
  | .sstB64 d sp off => put3 0xB0003000 d.toNat 20 sp.toNat 15 off.toNat 0
  | .saaddB64 d sp off => put3 0xB0004000 d.toNat 20 sp.toNat 15 off.toNat 0
  | .scasB64 d sp off => put3 0xB0005000 d.toNat 20 sp.toNat 15 off.toNat 0
  | .sprefetch sp off => put2 0xB0006000 sp.toNat 15 off.toNat 0
  | .slduB32 d sp off => put3 0xB0007000 d.toNat 20 sp.toNat 15 off.toNat 0
  | .aappB32 g vt vo sp => put4 0xB8000000 g.toNat 24 vt.toNat 17 vo.toNat 10 sp.toNat 5
  | .aappB128 g vt vo sp => put4 0xB8000001 g.toNat 24 vt.toNat 17 vo.toNat 10 sp.toNat 5
  | .aappl g vt vo sp => put4 0xB8000002 g.toNat 24 vt.toNat 17 vo.toNat 10 sp.toNat 5
  | .ccopy ctx td ts sl sb => put5 0xC0000000 ctx.toNat 21 td.toNat 16 ts.toNat 11 sl.toNat 5 sb.toNat 0
  | .cblock ctx td ts sl sb => put5 0xC1000000 ctx.toNat 21 td.toNat 16 ts.toNat 11 sl.toNat 5 sb.toNat 0
  | .cfill ctx td ts sl sb => put5 0xC2000000 ctx.toNat 21 td.toNat 16 ts.toNat 11 sl.toNat 5 sb.toNat 0
  | .cgather ctx td ts sl sb => put5 0xC3000000 ctx.toNat 21 td.toNat 16 ts.toNat 11 sl.toNat 5 sb.toNat 0
  | .cprefetch ctx ts sl sb => put4 0xC4000000 ctx.toNat 21 ts.toNat 11 sl.toNat 5 sb.toNat 0
  | .cpromote ctx ts sl sb => put4 0xC5000000 ctx.toNat 21 ts.toNat 11 sl.toNat 5 sb.toNat 0
  | .mloop acc ta tb sk vf => put5 0xC8000000 acc.toNat 20 ta.toNat 15 tb.toNat 10 sk.toNat 5 vf.toNat 0
  | .mloopG acc ta tb sk vf => put5 0xC9000000 acc.toNat 20 ta.toNat 15 tb.toNat 10 sk.toNat 5 vf.toNat 0
  | .mloopCx acc ta tb sk vf => put5 0xCA000000 acc.toNat 20 ta.toNat 15 tb.toNat 10 sk.toNat 5 vf.toNat 0
  | .mdrain acc ta sk vf => put4 0xCB000000 acc.toNat 20 ta.toNat 15 sk.toNat 5 vf.toNat 0
  | .mdrainMx acc ta tb sk vf => put5 0xCC000000 acc.toNat 20 ta.toNat 15 tb.toNat 10 sk.toNat 5 vf.toNat 0
  | .mzero acc => put1 0xCD000000 acc.toNat 20
  | .mload acc ta => put2 0xCE000000 acc.toNat 20 ta.toNat 15
  | .mprog acc sk => put2 0xCF000000 acc.toNat 20 sk.toNat 5
  | .barinit a b => put2 0xD0000000 a.toNat 8 b.toNat 1
  | .bararrive d a b => put3 0xD0400000 d.toNat 15 a.toNat 8 b.toNat 1
  | .barexpect d a b => put3 0xD0800000 d.toNat 15 a.toNat 8 b.toNat 1
  | .barquery d a => put2 0xD0C00000 d.toNat 15 a.toNat 8
  | .tlread d a => put2 0xD1000000 d.toNat 15 a.toNat 8
  | .wait d a tmo => put3 0xD1400000 d.toNat 15 a.toNat 8 tmo.toNat 1
  | .waitInline d a tmo => put3 0xD1400080 d.toNat 15 a.toNat 8 tmo.toNat 1
  | .settle nl ns nc nm => put4 0xD1800000 nl.toNat 17 ns.toNat 12 nc.toNat 7 nm.toNat 2
  | .fenceSys => 0xD1C00000
  | .flush d a b => put3 0xD2000000 d.toNat 15 a.toNat 8 b.toNat 1
  | .inval d a b => put3 0xD2400000 d.toNat 15 a.toNat 8 b.toNat 1
  | .clock d => put1 0xD2800000 d.toNat 15
  | .wspawn d a b => put3 0xD8000000 d.toNat 15 a.toNat 8 b.toNat 1
  | .wexit d a => put2 0xD8400000 d.toNat 15 a.toNat 8
  | .rspawn d a b => put3 0xD8800000 d.toNat 15 a.toNat 8 b.toNat 1
  | .odup d a b => put3 0xD8C00000 d.toNat 15 a.toNat 8 b.toNat 1
  | .oclose d a => put2 0xD9000000 d.toNat 15 a.toNat 8
  | .oinfo d a b => put3 0xD9400000 d.toNat 15 a.toNat 8 b.toNat 1
  | .wsnew d => put1 0xD9800000 d.toNat 15
  | .wsadd d a b => put3 0xD9C00000 d.toNat 15 a.toNat 8 b.toNat 1
  | .wsdel d a b => put3 0xDA000000 d.toNat 15 a.toNat 8 b.toNat 1
  | .tnew d => put1 0xDA400000 d.toNat 15
  | .tarm d a b => put3 0xDA800000 d.toNat 15 a.toNat 8 b.toNat 1
  | .tcancel d a => put2 0xDAC00000 d.toNat 15 a.toNat 8
  | .pnew d a => put2 0xDB000000 d.toNat 15 a.toNat 8
  | .psend d a b => put3 0xDB400000 d.toNat 15 a.toNat 8 b.toNat 1
  | .pgrant d a b => put3 0xDB800000 d.toNat 15 a.toNat 8 b.toNat 1
  | .precv d a b => put3 0xDBC00000 d.toNat 15 a.toNat 8 b.toNat 1
  | .pslot d a b => put3 0xDC000000 d.toNat 15 a.toNat 8 b.toNat 1
  | .pname d a => put2 0xDC400000 d.toNat 15 a.toNat 8
  | .preg d a b => put3 0xDC800000 d.toNat 15 a.toNat 8 b.toNat 1
  | .anew d a b => put3 0xDCC00000 d.toNat 15 a.toNat 8 b.toNat 1
  | .aseal d a => put2 0xDD000000 d.toNat 15 a.toNat 8
  | .afree d a => put2 0xDD400000 d.toNat 15 a.toNat 8
  | .atail d a b => put3 0xDD800000 d.toNat 15 a.toNat 8 b.toNat 1
  | .rgnew d a b => put3 0xDDC00000 d.toNat 15 a.toNat 8 b.toNat 1
  | .rgset d a b => put3 0xDE000000 d.toNat 15 a.toNat 8 b.toNat 1
  | .wread d a b => put3 0xE0000000 d.toNat 15 a.toNat 8 b.toNat 1
  | .wwrite d a b => put3 0xE0400000 d.toNat 15 a.toNat 8 b.toNat 1
  | .wresume d a => put2 0xE0800000 d.toNat 15 a.toNat 8
  | .gsaved d => put1 0xE0C00000 d.toNat 15
  | .rdlog d a b => put3 0xE1000000 d.toNat 15 a.toNat 8 b.toNat 1
  | .csaveq d a => put2 0xE1400000 d.toNat 15 a.toNat 8
  | .creplay d a => put2 0xE1800000 d.toNat 15 a.toNat 8
  | .tlbinv d a b => put3 0xE1C00000 d.toNat 15 a.toNat 8 b.toNat 1
  | .ckmark d a => put2 0xE2000000 d.toNat 15 a.toNat 8
  | .vfrint g d a => put3 0xE8000000 g.toNat 24 d.toNat 17 a.toNat 10
  | .vffloor g d a => put3 0xE8000001 g.toNat 24 d.toNat 17 a.toNat 10
  | .vfceil g d a => put3 0xE8000002 g.toNat 24 d.toNat 17 a.toNat 10
  | .vftrunc g d a => put3 0xE8000003 g.toNat 24 d.toNat 17 a.toNat 10
  | .vfclass g d a => put3 0xE8000004 g.toNat 24 d.toNat 17 a.toNat 10
  | .vfexp g d a => put3 0xE8000005 g.toNat 24 d.toNat 17 a.toNat 10
  | .vfmant g d a => put3 0xE8000006 g.toNat 24 d.toNat 17 a.toNat 10
  | .vfmed3 g d a b => put4 0xE8000007 g.toNat 24 d.toNat 17 a.toNat 10 b.toNat 3
  | .ximm p => put1 0xF8000000 p.toNat 0
  | .xop p => put1 0xF9000000 p.toNat 6
  | .hint p => put1 0xFA000000 p.toNat 0
  | .guard neg pg => put2 0xFB000000 neg.toNat 4 pg.toNat 0
  | .trapEntry _ => 0
  | .deferredPreciseTrap _ => 0
  | .pageFill _ _ _ => 0
  | .migrationDone _ _ _ => 0
  | .engineChunkLand _ _ _ _ => 0
  | .matrixRowDone _ _ => 0
  | .mprogArrive _ _ => 0
  | .engineFault _ _ _ => 0
  | .waitWake _ _ => 0
  | .waitTimeout _ _ => 0
  | .timerExpire _ => 0
  | .placement _ => 0
  | .cohortStart _ => 0
  | .unitAged _ _ => 0
  | .quantumExpiry _ => 0
  | .saveDrainOverrun _ => 0
  | .deadlockDetect _ => 0
  | .progressStall _ => 0
  | .memerr _ => 0
  | .discardRelease _ => 0
  | .commitTailAdvance _ _ => 0
  | .asealDone _ => 0
  | .afreeDone _ => 0
  | .replicaCreate _ _ _ => 0
  | .remoteSendRequest _ _ _ _ _ _ _ _ _ _ => 0
  | .sendReply _ _ _ _ => 0
  | .grantReservation _ _ _ _ _ _ _ _ _ _ _ => 0
  | .grantPointReply _ _ _ _ => 0
  | .grantPageCopy _ _ _ _ => 0
  | .grantAck _ _ _ => 0
  | .peerDead _ _ => 0
  | .flitReceive _ _ _ => 0
  | .nakReceive _ _ => 0
  | .linkRetrainDone _ _ => 0
  | .checkpointPageCopy _ _ => 0
  | .checkpointImageDone _ => 0
  | .refreshInterval _ => 0
  | .refresh _ _ => 0
  | .flushDone _ => 0
  | .energyWindowStart => 0
  | .energyMeterRead _ _ _ => 0
  | .thermalCapUpdate _ _ _ => 0
  | .thermalTrip => 0
  | .coolantTimeout => 0
  | .diePowerOff => 0
  | .coldReset => 0
  | .warmBoot => 0
  | .clusterStart _ => 0
  | .jasperHeartbeatTimeout => 0
  | .jasperException => 0
  | .firmwareRestartDone => 0
  | .doorbellWrite _ _ _ => 0
  | .queueEnable _ => 0
  | .queueDisable _ => 0
  | .schedParamWrite _ _ => 0
  | .capWrite _ => 0
  | .registerWrite _ _ _ _ => 0
  | .pktNop _ => 0
  | .launch _ => 0
  | .signal _ => 0
  | .waitsig _ => 0
  | .waitsigSatisfied _ => 0
  | .copy _ => 0
  | .packetCopyDone _ => 0
  | .regionCreate _ => 0
  | .regionSet _ => 0
  | .regionDiscard _ => 0
  | .ckpt _ => 0
  | .restore _ => 0
  | .biasFlipDevice _ => 0
  | .biasFlipHost _ => 0
  | .biasSnoopResponse _ _ _ => 0
  | .biasSnoopTimeout _ => 0
  | .biasFlipHostDone => 0
  | .migToHost _ _ _ => 0
  | .migToDevice _ _ => 0
  | .migPinRelease _ _ => 0
  | .domain _ _ => 0
  | .restart => 0
  | .stage _ _ _ _ => 0
  | .commit _ _ => 0
  | .getVersion => 0
  | .getCapabilities => 0
  | .negotiateAlgorithms => 0
  | .getDigests => 0
  | .getCertificate _ => 0
  | .challenge _ _ => 0
  | .getMeasurements _ => 0
  | .unsupportedRequest => 0
  | .hostWindowAccess _ _ _ _ => 0
  | .illegalEncoding w => w.toNat
  | .badpkt _ => 0
  | .restoreDone _ => 0
  | .unknownMailboxCommand _ => 0

/-- The word of an instruction (R98). -/
def encode (i : Instr) : BitVec 32 := BitVec.ofNat 32 (encodeNat i)

end Sys2Proof
end

