-- ==== Sys2Proof/Machine/Maps.lean ====
section
/-! DEFINITION. Reading and writing sparse maps, and small list helpers. -/

namespace Sys2Proof.Machine

/-- The value at a key. -/
def fget {α : Type} : FMap α → Nat → Option α
  | [], _ => none
  | (k', v) :: t, k => if k = k' then some v else fget t k

/-- The value at a key, or a default. -/
def fgetD {α : Type} (m : FMap α) (k : Nat) (d : α) : α := (fget m k).getD d

/-- Writes a key; the keys stay rising when they were. -/
def fset {α : Type} : FMap α → Nat → α → FMap α
  | [], k, v => [(k, v)]
  | (k', v') :: t, k, v =>
    if k < k' then (k, v) :: (k', v') :: t
    else if k = k' then (k, v) :: t
    else (k', v') :: fset t k v

/-- Drops a key. -/
def fdel {α : Type} : FMap α → Nat → FMap α
  | [], _ => []
  | (k', v') :: t, k => if k = k' then fdel t k else (k', v') :: fdel t k

/-- Changes the value at a key, where there is one. -/
def fmod {α : Type} (m : FMap α) (k : Nat) (f : α → α) : FMap α :=
  match fget m k with
  | some v => fset m k (f v)
  | none => m

/-- Changes every value. -/
def fmapv {α : Type} (f : Nat → α → α) (m : FMap α) : FMap α := m.map fun p => (p.1, f p.1 p.2)

/-- The least number at or above `k` that is no key, looking at `fuel` numbers. -/
def freeKey {α : Type} (m : FMap α) : Nat → Nat → Nat
  | 0, k => k
  | fuel + 1, k => match fget m k with
    | none => k
    | some _ => freeKey m fuel (k + 1)

/-- The first element that minimises a measure. -/
def minBy {α : Type} (f : α → Nat) : List α → Option α
  | [] => none
  | a :: t => match minBy f t with
    | none => some a
    | some b => if f b < f a then some b else some a

/-- Puts an element before the first that it may precede. -/
def insertBy {α : Type} (le : α → α → Bool) (a : α) : List α → List α
  | [] => [a]
  | b :: t => if le a b then a :: b :: t else b :: insertBy le a t

/-- A list in order; elements of equal rank keep their places. -/
def sortBy {α : Type} (le : α → α → Bool) : List α → List α
  | [] => []
  | a :: t => insertBy le a (sortBy le t)

/-- The sum of a measure over a list. -/
def sumBy {α : Type} (f : α → Nat) (l : List α) : Nat := l.foldl (fun n a => n + f a) 0

/-- The numbers from `k`, `n` of them. -/
def numsFrom : Nat → Nat → List Nat
  | _, 0 => []
  | k, n + 1 => k :: numsFrom (k + 1) n

end Sys2Proof.Machine
end

