-- ==== Sys2Proof/Machine/Numbers.lean ====
section
/-! DEFINITION. Number formats, exact values and rounding (spec/05 R75-R97; spec/09 R140-R147). -/

namespace Sys2Proof.Machine

/-! ### Flags (R69, Table 5.8) -/

def fNX : Word := 1
def fUF : Word := 2
def fOF : Word := 4
def fDZ : Word := 8
def fIV : Word := 16
def fSAT : Word := 32

/-- A flag or nothing. -/
def flagIf (c : Bool) (f : Word) : Word := if c then f else 0

/-! ### Formats (R75, Table 5.10b) -/

/-- Which special encodings a format has. -/
inductive Special where
  /-- infinities and NaNs as IEEE 754 gives them -/
  | ieee
  /-- NaN only, at all ones (E4M3) -/
  | nanOnly
  /-- neither -/
  | none
  deriving DecidableEq, Repr

/-- A floating-point format: exponent bits, mantissa bits, bias and specials. -/
structure FloatFmt where
  eb : Nat
  mb : Nat
  bias : Nat
  special : Special
  deriving DecidableEq, Repr

def fp64 : FloatFmt := ⟨11, 52, 1023, .ieee⟩
def fp32 : FloatFmt := ⟨8, 23, 127, .ieee⟩
def f19 : FloatFmt := ⟨8, 10, 127, .ieee⟩
def bf16 : FloatFmt := ⟨8, 7, 127, .ieee⟩
def fp16 : FloatFmt := ⟨5, 10, 15, .ieee⟩
def e4m3 : FloatFmt := ⟨4, 3, 7, .nanOnly⟩
def e5m2 : FloatFmt := ⟨5, 2, 15, .ieee⟩
def e3m2 : FloatFmt := ⟨3, 2, 3, .none⟩
def e2m3 : FloatFmt := ⟨2, 3, 1, .none⟩
def e2m1 : FloatFmt := ⟨2, 1, 1, .none⟩

/-- The floating-point format a format identifier names (R82, Table 5.10c). -/
def floatFmt : Nat → Option FloatFmt
  | 0 => some fp64 | 1 => some fp32 | 2 => some f19 | 3 => some bf16 | 4 => some fp16
  | 5 => some e4m3 | 6 => some e5m2 | 7 => some e3m2 | 8 => some e2m3 | 9 => some e2m1
  | _ => none

/-- The least exponent of a normal value. -/
def FloatFmt.emin (f : FloatFmt) : Int := 1 - (f.bias : Int)

/-- The sign bit put over a magnitude. -/
def FloatFmt.signed (f : FloatFmt) (neg : Bool) (mag : Nat) : Nat :=
  if neg then 2 ^ (f.eb + f.mb) + mag else mag

/-- The magnitude bits of infinity, where the format has one. -/
def FloatFmt.infMag (f : FloatFmt) : Nat := (2 ^ f.eb - 1) * 2 ^ f.mb

/-- The magnitude bits of the largest finite value (Table 5.10b). -/
def FloatFmt.maxMag (f : FloatFmt) : Nat :=
  match f.special with
  | .ieee => f.infMag - 1
  | .nanOnly => 2 ^ (f.eb + f.mb) - 2
  | .none => 2 ^ (f.eb + f.mb) - 1

/-- The canonical NaN (R83), where the format has one. -/
def FloatFmt.nanBits (f : FloatFmt) : Nat :=
  match f.special with
  | .ieee => f.infMag + 2 ^ (f.mb - 1)
  | .nanOnly => 2 ^ (f.eb + f.mb) - 1
  | .none => 0

/-! ### Exact values -/

/-- An exact value. A finite nonzero value has magnitude `m * 2 ^ e`, or lies strictly between that and
`(m + 1) * 2 ^ e` when `sticky` is set. -/
inductive XVal where
  | nan
  | inf (neg : Bool)
  | zero (neg : Bool)
  | fin (neg : Bool) (m : Nat) (e : Int) (sticky : Bool)
  deriving DecidableEq, Repr

def XVal.isNan : XVal → Bool
  | .nan => true
  | _ => false

def XVal.isZero : XVal → Bool
  | .zero _ => true
  | _ => false

def XVal.isInf : XVal → Bool
  | .inf _ => true
  | _ => false

/-- The sign bit of a value; a NaN counts as positive (R83). -/
def XVal.isNeg : XVal → Bool
  | .nan => false
  | .inf n | .zero n | .fin n _ _ _ => n

/-- The value of an encoding (R75). -/
def decodeFloat (f : FloatFmt) (bits : Nat) : XVal :=
  let neg := bits / 2 ^ (f.eb + f.mb) % 2 == 1
  let mag := bits % 2 ^ (f.eb + f.mb)
  let e := mag / 2 ^ f.mb
  let m := mag % 2 ^ f.mb
  if f.special = .ieee ∧ e = 2 ^ f.eb - 1 then (if m = 0 then .inf neg else .nan)
  else if f.special = .nanOnly ∧ mag = 2 ^ (f.eb + f.mb) - 1 then .nan
  else if e = 0 then (if m = 0 then .zero neg else .fin neg m (f.emin - f.mb) false)
  else .fin neg (2 ^ f.mb + m) ((e : Int) - f.bias - f.mb) false

/-- Whether an encoding is subnormal. -/
def isSubnormal (f : FloatFmt) (bits : Nat) : Bool :=
  let mag := bits % 2 ^ (f.eb + f.mb)
  mag / 2 ^ f.mb == 0 && mag % 2 ^ f.mb != 0

/-- A subnormal input is a zero of its sign under FTZ (R87). -/
def flushBits (f : FloatFmt) (ftz : Bool) (bits : Nat) : Nat :=
  if ftz && isSubnormal f bits then f.signed (bits / 2 ^ (f.eb + f.mb) % 2 == 1) 0 else bits

/-- The value of an input encoding under FTZ. -/
def inputFloat (f : FloatFmt) (ftz : Bool) (bits : Nat) : XVal := decodeFloat f (flushBits f ftz bits)

/-- The value of an integer. -/
def xOfInt (i : Int) : XVal := if i = 0 then .zero false else .fin (i < 0) i.natAbs 0 false

/-- `m * 2 ^ e` with its sign, at the exponent `q ≤ e`. -/
def alignInt (neg : Bool) (m : Nat) (e q : Int) : Int :=
  let a : Int := ((m <<< (e - q).toNat : Nat) : Int)
  if neg then -a else a

/-- A signed exact value at an exponent; zero gets the given sign. -/
def xOfScaled (i : Int) (e : Int) (zneg : Bool) : XVal :=
  if i = 0 then .zero zneg else .fin (i < 0) i.natAbs e false

/-- Exact sum of two values as IEEE 754 gives it (R139); an exact zero from nonzero or unlike-signed terms is −0
only when rounding down. The flag is set for an invalid operation. -/
def xadd (rdn : Bool) : XVal → XVal → XVal × Bool
  | .nan, _ => (.nan, true)
  | _, .nan => (.nan, true)
  | .inf a, .inf b => if a == b then (.inf a, false) else (.nan, true)
  | .inf a, _ => (.inf a, false)
  | _, .inf b => (.inf b, false)
  | .zero a, .zero b => (.zero (if a == b then a else rdn), false)
  | .zero _, y => (y, false)
  | x, .zero _ => (x, false)
  | .fin na ma ea _, .fin nb mb eb _ =>
    let q := min ea eb
    (xOfScaled (alignInt na ma ea q + alignInt nb mb eb q) q rdn, false)

/-- Exact product of two values. -/
def xmul : XVal → XVal → XVal × Bool
  | .nan, _ => (.nan, true)
  | _, .nan => (.nan, true)
  | .inf _, .zero _ => (.nan, true)
  | .zero _, .inf _ => (.nan, true)
  | .inf a, y => (.inf (a != y.isNeg), false)
  | x, .inf b => (.inf (x.isNeg != b), false)
  | .zero a, y => (.zero (a != y.isNeg), false)
  | x, .zero b => (.zero (x.isNeg != b), false)
  | .fin na ma ea _, .fin nb mb eb _ => (.fin (na != nb) (ma * mb) (ea + eb) false, false)

def XVal.negate : XVal → XVal
  | .nan => .nan
  | .inf n => .inf (!n)
  | .zero n => .zero (!n)
  | .fin n m e s => .fin (!n) m e s

/-- Scales a value by a power of two, exactly. -/
def XVal.scale (x : XVal) (k : Int) : XVal :=
  match x with
  | .fin n m e s => .fin n m (e + k) s
  | y => y

/-- Exact sum of many terms by R94's rules: a NaN term or opposite infinities give NaN with IV, an exact zero is −0
only when rounding down. -/
def xsum (rdn : Bool) (terms : List XVal) : XVal × Bool :=
  if terms.any XVal.isNan then (.nan, true)
  else if terms.any (· == .inf false) && terms.any (· == .inf true) then (.nan, true)
  else if terms.any (· == .inf false) then (.inf false, false)
  else if terms.any (· == .inf true) then (.inf true, false)
  else
    let q : Int := terms.foldl (fun (q : Int) t => match t with
      | .fin _ _ e _ => min q e
      | _ => q) 0
    let s : Int := terms.foldl (fun (s : Int) t => match t with
      | .fin n m e _ => s + alignInt n m e q
      | _ => s) 0
    (xOfScaled s q rdn, false)

/-- `x < y` for values that are not NaN, with −0 below +0 when `zeros` is set (R140). -/
def xlt (zeros : Bool) : XVal → XVal → Bool
  | .nan, _ => false
  | _, .nan => false
  | .inf a, .inf b => a && !b
  | .inf a, _ => a
  | _, .inf b => !b
  | .zero a, .zero b => zeros && a && !b
  | .zero _, .fin nb _ _ _ => !nb
  | .fin na _ _ _, .zero _ => na
  | .fin na ma ea _, .fin nb mb eb _ =>
    let q := min ea eb
    decide (alignInt na ma ea q < alignInt nb mb eb q)

/-! ### Rounding (R84-R87) -/

/-- What a rounding site carries: the mode of Table 5.11, the SAT mode of R86, FTZ and the 24-bit hash of R85. -/
structure REnv where
  rm : Nat
  sat : Nat
  ftz : Bool
  h : Nat
  deriving DecidableEq, Repr

/-- An encoding and the flags raised with it. -/
structure FRes where
  bits : Nat
  flags : Word
  deriving DecidableEq, Repr

/-- A magnitude cut at a quantum: the whole part, the rest over `2 ^ k`, and whether more lies below. -/
structure Cut where
  n : Nat
  rem : Nat
  k : Nat
  sticky : Bool
  deriving DecidableEq, Repr

/-- Cuts `m * 2 ^ e` at the quantum `2 ^ q`. A value far below the quantum keeps only that it is not zero. -/
def cutAt (m : Nat) (e : Int) (sticky : Bool) (q : Int) : Cut :=
  if q ≤ e then ⟨m <<< (e - q).toNat, 0, 0, sticky⟩
  else
    let k := (q - e).toNat
    if Nat.log2 m + 64 < k then ⟨0, 1, 64, true⟩
    else ⟨m >>> k, m % 2 ^ k, k, sticky⟩

def Cut.inexact (c : Cut) : Bool := c.rem != 0 || c.sticky

/-- Whether rounding takes the neighbour farther from zero (Table 5.11, R85). -/
def Cut.away (c : Cut) (rm h : Nat) (neg : Bool) : Bool :=
  if !c.inexact then false
  else match rm with
    | 0 => decide (2 ^ c.k < 2 * c.rem) || (2 * c.rem == 2 ^ c.k && (c.sticky || c.n % 2 == 1))
    | 1 => false
    | 2 => neg
    | 3 => !neg
    | 4 => decide (2 ^ c.k ≤ 2 * c.rem)
    | 5 =>
      if neg then !decide (h < (2 ^ c.k - c.rem - (if c.sticky then 1 else 0)) * 2 ^ 24 / 2 ^ c.k)
      else decide (h < c.rem * 2 ^ 24 / 2 ^ c.k)
    | _ => false

/-- The outcome of a rounding beyond the largest finite value (Table 5.12). `up` tells whether RSD chose the upper
neighbour b; an exact value has none. -/
def overflowTo (f : FloatFmt) (v : REnv) (neg up : Bool) : FRes :=
  let mx : FRes := ⟨f.signed neg f.maxMag, fSAT⟩
  let inf : FRes := ⟨f.signed neg f.infMag, 0⟩
  let nan : FRes := ⟨f.nanBits, 0⟩
  match f.special with
  | .none => mx
  | .nanOnly => if v.sat = 1 then mx else nan
  | .ieee =>
    if v.sat = 1 then mx
    else if v.sat = 2 then nan
    else match v.rm with
      | 1 => mx
      | 2 => if neg then inf else mx
      | 3 => if neg then mx else inf
      | 5 => if up == neg then mx else inf
      | _ => inf

/-- Rounds a finite nonzero value (R84, R86, R87). -/
def roundFin (f : FloatFmt) (v : REnv) (neg : Bool) (m : Nat) (e : Int) (sticky : Bool) : FRes :=
  let ex : Int := (Nat.log2 m : Int) + e
  let tiny := decide (ex < f.emin)
  if v.ftz && tiny then ⟨f.signed neg 0, fUF ||| fNX⟩
  else
    let q : Int := (if tiny then f.emin else ex) - f.mb
    let c := cutAt m e sticky q
    let away := c.away v.rm v.h neg
    let mag := (q + f.mb - f.emin).toNat * 2 ^ f.mb + c.n + (if away then 1 else 0)
    if f.maxMag < mag then
      let o := overflowTo f v neg (c.inexact && away != neg)
      ⟨o.bits, o.flags ||| fOF ||| fNX⟩
    else ⟨f.signed neg mag, flagIf c.inexact fNX ||| flagIf (c.inexact && tiny) fUF⟩

/-- `round_to` (R10): the encoding of an exact value in a format, with its flags. -/
def roundTo (f : FloatFmt) (v : REnv) : XVal → FRes
  | .nan => if f.special = .none then ⟨0, fIV⟩ else ⟨f.nanBits, 0⟩
  | .zero n => ⟨f.signed n 0, 0⟩
  | .inf n =>
    if f.special = .ieee ∧ v.sat = 0 then ⟨f.signed n f.infMag, 0⟩
    else overflowTo f v n true
  | .fin n m e s => roundFin f v n m e s

/-- Rounds to an integer in [lo, hi] (R88). -/
def roundInt (v : REnv) (lo hi : Int) : XVal → Int × Word
  | .nan => (0, fIV)
  | .zero _ => (0, 0)
  | .inf n => (if n then lo else hi, fIV)
  | .fin n m e s =>
    if 128 < (Nat.log2 m : Int) + e then (if n then lo else hi, fIV)
    else
      let c := cutAt m e s 0
      let a : Int := (c.n + (if c.away v.rm v.h n then 1 else 0) : Nat)
      let r : Int := if n then -a else a
      if r < lo then (lo, fIV)
      else if hi < r then (hi, fIV)
      else (r, flagIf c.inexact fNX)

/-- Rounds to an integral value of the same sign (R142). -/
def roundIntegral (v : REnv) : XVal → XVal × Bool
  | .fin n m e s =>
    if 0 ≤ e then (.fin n m e s, false)
    else
      let c := cutAt m e s 0
      let a := c.n + (if c.away v.rm v.h n then 1 else 0)
      (if a = 0 then .zero n else .fin n a 0 false, c.inexact)
  | x => (x, false)

/-- The hash of R85, its bits [63:40]. -/
def rsdHash (seed : DWord) (coord seq : Nat) : Nat :=
  let z : DWord := seed ^^^ (BitVec.ofNat 64 coord * 0x9E3779B97F4A7C15#64) ^^^
    (BitVec.ofNat 64 seq * 0xBF58476D1CE4E5B9#64)
  let z : DWord := (z ^^^ (z >>> 30)) * 0xBF58476D1CE4E5B9#64
  let z : DWord := (z ^^^ (z >>> 27)) * 0x94D049BB133111EB#64
  let z : DWord := z ^^^ (z >>> 31)
  z.toNat / 2 ^ 40

/-! ### Division and roots -/

/-- Bits the quotients and roots below are computed to, beyond what any format's rounding consults. -/
def extraBits : Nat := 160

/-- Exact quotient; DZ for a finite nonzero value over zero (R145, R147). -/
def xdiv : XVal → XVal → XVal × Word
  | .nan, _ => (.nan, fIV)
  | _, .nan => (.nan, fIV)
  | .inf _, .inf _ => (.nan, fIV)
  | .zero _, .zero _ => (.nan, fIV)
  | .inf a, y => (.inf (a != y.isNeg), 0)
  | .zero a, y => (.zero (a != y.isNeg), 0)
  | x, .inf b => (.zero (x.isNeg != b), 0)
  | x, .zero b => (.inf (x.isNeg != b), fDZ)
  | .fin na ma ea _, .fin nb mb eb _ =>
    let n := ma <<< extraBits
    (.fin (na != nb) (n / mb) (ea - eb - extraBits) (n % mb != 0), 0)

/-- The integer square root, one bit at a time from bit `i - 1` down. -/
def isqrtFrom : Nat → Nat → Nat → Nat
  | 0, _, r => r
  | i + 1, n, r =>
    let c := r + 2 ^ i
    isqrtFrom i n (if c * c ≤ n then c else r)

def isqrt (n : Nat) : Nat := isqrtFrom (Nat.log2 n / 2 + 1) n 0

/-- Square root (R145, R147). -/
def xsqrt : XVal → XVal × Word
  | .nan => (.nan, fIV)
  | .zero n => (.zero n, 0)
  | .inf false => (.inf false, 0)
  | .inf true => (.nan, fIV)
  | .fin true _ _ _ => (.nan, fIV)
  | .fin false m e _ =>
    let odd : Nat := (e % 2).toNat
    let n := m <<< (odd + extraBits)
    let r := isqrt n
    (.fin false r ((e - odd - extraBits) / 2) (r * r != n), 0)

/-- Reciprocal square root (R147). -/
def xrsqrt : XVal → XVal × Word
  | .nan => (.nan, fIV)
  | .zero n => (.inf n, fDZ)
  | .inf false => (.zero false, 0)
  | .inf true => (.nan, fIV)
  | .fin true _ _ _ => (.nan, fIV)
  | .fin false m e _ =>
    let odd : Nat := (e % 2).toNat
    let d := m <<< odd
    let n := 2 ^ (2 * extraBits) / d
    let r := isqrt n
    (.fin false r (-(extraBits : Int) - (e - odd) / 2) (r * r * d != 2 ^ (2 * extraBits)), 0)

/-! ### Transcendental functions, in fixed point with `fxBits` fraction bits (R146) -/

/-- Fraction bits of the fixed-point evaluation (assumption log 8). -/
def fxBits : Nat := 512

def fxOne : Nat := 2 ^ fxBits

/-- The sum over k of t / 9 ^ k / (2k + 1), from index k. -/
def atanhThird : Nat → Nat → Nat → Nat
  | 0, _, _ => 0
  | fuel + 1, t, k => t / (2 * k + 1) + atanhThird fuel (t / 9) (k + 1)

/-- ln 2 in fixed point. -/
def ln2Fx : Nat := 2 * atanhThird 170 (fxOne / 3) 0

/-- The sum over k of x ^ k / k!, from the term t of index k. -/
def expTerms (x : Nat) : Nat → Nat → Nat → Nat
  | 0, _, _ => 0
  | fuel + 1, t, k => t + expTerms x fuel (t * x / fxOne / (k + 1)) (k + 1)

/-- The sum over k of z ^ (2k + 1) / (2k + 1), with z2 = z * z. -/
def atanhTerms (z2 : Nat) : Nat → Nat → Nat → Nat
  | 0, _, _ => 0
  | fuel + 1, t, k => t / (2 * k + 1) + atanhTerms z2 fuel (t * z2 / fxOne) (k + 1)

/-- The alternating sum over k of t / d ^ k / (2k + 1). -/
def atanInv (d : Nat) : Nat → Nat → Nat → Int
  | 0, _, _ => 0
  | fuel + 1, t, k => (t / (2 * k + 1) : Nat) - atanInv d fuel (t / d) (k + 1)

/-- π in fixed point (Machin's formula). -/
def piFx : Nat := (16 * atanInv 25 120 (fxOne / 5) 0 - 4 * atanInv 57121 40 (fxOne / 239) 0).toNat

/-- The alternating sum of the sine series from the term t of index k. -/
def sinTerms (y2 : Nat) : Nat → Nat → Nat → Int
  | 0, _, _ => 0
  | fuel + 1, t, k => (t : Int) - sinTerms y2 fuel (t * y2 / fxOne / ((2 * k + 2) * (2 * k + 3))) (k + 1)

/-- The bits of a dyadic magnitude in fixed point; exact for the binary32 values it is used on. -/
def toFx (m : Nat) (e : Int) : Nat := if 0 ≤ e + fxBits then m <<< (e + fxBits).toNat else 0

/-- 2 ^ x (R147). -/
def xexp2 : XVal → XVal × Word
  | .nan => (.nan, fIV)
  | .inf false => (.inf false, 0)
  | .inf true => (.zero false, 0)
  | .zero _ => (.fin false 1 0 false, 0)
  | .fin n m e _ =>
    let x : Int := if n then -(toFx m e : Int) else toFx m e
    let i := x / (fxOne : Int)
    let r := (x % (fxOne : Int)).toNat
    if r = 0 then (.fin false 1 i false, 0)
    else (.fin false (expTerms (r * ln2Fx / fxOne) 110 fxOne 0) (i - fxBits) true, 0)

/-- log2 x (R147). -/
def xlog2 : XVal → XVal × Word
  | .nan => (.nan, fIV)
  | .inf false => (.inf false, 0)
  | .inf true => (.nan, fIV)
  | .zero _ => (.inf true, fDZ)
  | .fin true _ _ _ => (.nan, fIV)
  | .fin false m e _ =>
    let l := Nat.log2 m
    let ex : Int := (l : Int) + e
    if m = 2 ^ l then (xOfInt ex, 0)
    else
      let t := toFx m (-(l : Int))
      let z := (t - fxOne) * fxOne / (t + fxOne)
      let lg := 2 * atanhTerms (z * z / fxOne) 170 z 0 * fxOne / ln2Fx
      let v : Int := ex * (fxOne : Int) + lg
      (.fin (v < 0) v.natAbs (-(fxBits : Int)) true, 0)

/-- sin(π r) for a fixed-point r in [0, 2), with its sign; exact at the multiples of one half. -/
def sinpiFx (r : Nat) (neg : Bool) (zneg : Bool) : XVal :=
  let r1 := r % fxOne
  let n := neg != decide (fxOne ≤ r)
  let r2 := min r1 (fxOne - r1)
  if r2 = 0 then .zero zneg
  else if 2 * r2 = fxOne then .fin n 1 0 false
  else
    let y := r2 * piFx / fxOne
    .fin n (sinTerms (y * y / fxOne) 90 y 0).toNat (-(fxBits : Int)) true

/-- sin(π x) (R147). -/
def xsinpi : XVal → XVal × Word
  | .nan => (.nan, fIV)
  | .inf _ => (.nan, fIV)
  | .zero n => (.zero n, 0)
  | .fin n m e _ =>
    if 0 ≤ e then (.zero n, 0)
    else (sinpiFx (toFx m e % (2 * fxOne)) n n, 0)

/-- cos(π x) (R147). -/
def xcospi : XVal → XVal × Word
  | .nan => (.nan, fIV)
  | .inf _ => (.nan, fIV)
  | .zero _ => (.fin false 1 0 false, 0)
  | .fin _ m e _ =>
    let r := if 0 ≤ e then (if e = 0 then m % 2 * fxOne else 0) else toFx m e
    (sinpiFx ((r + fxOne / 2) % (2 * fxOne)) false false, 0)

end Sys2Proof.Machine
end

