-- ==== Sys2Proof/Config.lean ====
section
/-! DEFINITION. What the part fixes (spec/01 R11-R22) and the free values of the model. -/

namespace Sys2Proof.Config

/-- A value the manual does not state, the n-th drawn: nothing constrains it (assumption log 2). -/
opaque freeValue : Nat → Nat

/-- Which translation an access made in a step uses: 0 the tables' own, n the n-th of the cached ones that differ from it, before
tlbinv has dropped them (spec/15 R273 leaves the choice open; assumption log 11). Arguments: the step's number, the lane and
the VA. -/
opaque useStale : Nat → Nat → Nat → Nat

/-- Which word a fetch returns: 0 what memory holds, 1 what its gang fetched there before, else what stood there when its
range was accepted (spec/07 R113 leaves the choice open; assumption log 20). Arguments: the step's number and the VA. -/
opaque fetchesOld : Nat → Nat → Nat

/-- Whether cgather reads an index that its own operation has written as it was before (spec/13 R211 leaves the choice
open; assumption log 71). Arguments: the step's number and the row. -/
opaque gathersOld : Nat → Nat → Bool

/-- Whether D0's L2 gives up a line of host memory at a step (spec/17 R300 leaves it open; assumption log 21). Arguments:
the step's number and the line. -/
opaque evictsLine : Nat → Nat → Bool

/-- How many cycles a wave may still issue in after its oldest log entry was found unresolvable (spec/11 R200 gives no
number; assumption log 19). Argument: when the entry was made. -/
opaque stopDelay : Nat → Nat

/-- How many cycles after module reset a core's cycle counter begins to count (spec/13 R233; assumption log 3). -/
opaque coreLag : Nat → Nat

/-- What a port of another module answers to a PORTSPACE member: 0 no space, 1 space, 2 dead, 3 no landing zone (spec/19 R324;
assumption log 12). Arguments: the step's number, the module, the port and n. -/
opaque remoteSpace : Nat → Nat → Nat → Nat → Nat

/-- What the directory of another module answers about a name (spec/19 R336, R337; assumption log 12). Arguments: the
step's number, the name and the item: 0 whether a binding exists, 1 its module, 2 its port, 3 its incarnation, 4 whether
it carries GRANT, 5 whether it is still live. -/
opaque remoteBinding : Nat → Nat → Nat → Nat

/-- Whether a binding stands in another module's directory that this module knows nothing of (spec/25 R405; assumption log 12).
Argument: the step's number. -/
opaque namesElsewhere : Nat → Bool

/-- Whether no request waits at an HBM channel in a refresh interval (spec/15 R283; assumption log 78). Arguments: the
intervals ended since reset and the channel. -/
opaque channelIdle : Nat → Nat → Bool

/-- What a data flit carries that no row names (spec/19 R334, R336, R343; assumption log 12). Arguments: the step's number and
the item: 0 the kind, 1 the source's incarnation, then what that kind needs. -/
opaque flitCarries : Nat → Nat → Nat

/-- Whether a port reaches a module (spec/19 R342 gives no routes; assumption log 12). Arguments: the module and the port. -/
opaque linkReaches : Nat → Nat → Bool

/-- Which of the link ports in use carries what is sent to a module (spec/19 R341, R342 give no routes; assumption log 12).
Arguments: the step's number and the module. -/
opaque linkRoute : Nat → Nat → Nat

/-- The beats of the data flits that carry what is sent to a module in a step (spec/19 R341 gives no layout of beats;
assumption log 12). Arguments: the step's number and the module. -/
opaque linkBeats : Nat → Nat → List (List (BitVec 8))

/-- Whether a counter that depends on the caches counts an access: LEASED (0) or RENEW (1) a load, WTSJUMP (3) a store
(spec/17 R296, R297; assumption log 12). Arguments: the core, the field and which of the core's loads or stores it is. -/
opaque leaseFigure : Nat → Nat → Nat → Bool

/-- Whether a read is served from the replica of its page on its die (spec/17 R313; assumption log 12). Arguments: the
step's number and the lane. -/
opaque readsReplica : Nat → Nat → Bool

/-- The failure code that names an image, 1 to 4, a thermal trip, 6, or a third firmware restart, 5 (spec/25 Table 25.3
gives no values; assumption log 15). -/
opaque failureCode : Nat → Nat

/-- The digest of the fuse and stepping record, given the fused counters (spec/25 R402; assumption log 15). -/
opaque fuseDigest : List (Nat × Nat) → Nat

/-- What Beryl answers to an SPDM request, given its number and arguments, where the manual does not state it (spec/25
R402; assumption log 15). -/
opaque spdmReply : Nat → List Nat → Nat

/-- Dies of a module (R11). -/
def dies : Nat := 4
/-- Clusters of a module, 12 on each die (R11). -/
def clusters : Nat := 48
/-- Cores of a module, 4 in each cluster (R11). -/
def cores : Nat := 192
/-- HBM pages of 64 KiB on one die (R14, R267). -/
def hbmPages : Nat := 3145728
/-- Deep-tier pages of 64 KiB on one die (R14, R267). -/
def deepPages : Nat := 6291456
/-- HBM channels of a module (R283). -/
def channels : Nat := 384

end Sys2Proof.Config
end

