-- ==== Sys2Proof/Machine/State.lean ====
section
/-! DEFINITION. The state of the module as plain data, the stops, and the state after reset. -/

namespace Sys2Proof.Machine

open Sys2Proof

/-- Why the machine stops with a fault: for no reason. Every operation the manual describes ends in a next state, a word of
no row raises ILLEGAL (spec/07 R104), and memory that an access may not reach traps. -/
inductive Fault : Type
  deriving DecidableEq, Repr

/-- Why the machine refuses an instruction. -/
inductive Refusal where
  /-- The instruction has no meaning yet. Safe: it only stops the model. -/
  | notModelled (mnemonic : String)
  deriving DecidableEq, Repr

/-! ### Waves (spec/03 R34-R45, spec/05 R57-R74) -/

/-- The state of a lane (R37). -/
inductive LaneState where
  | live | parked | exited
  deriving DecidableEq, Repr

/-- Privilege of a wave (R45); M is never reached by wave code. -/
inductive Priv where
  | u | s
  deriving DecidableEq, Repr

/-- A prefix chain being read (spec/07 R107): the address and lanes of its first word, and its prefix words so far. -/
structure Chain where
  pc : DWord
  lanes : Word
  words : List Word
  deriving DecidableEq, Repr

/-- The U-mode lane state held from trap entry to ereturn (spec/23 R371). -/
structure Held where
  pcs : List DWord
  lanes : List LaneState
  deriving DecidableEq, Repr

/-- An operand-log entry (spec/11 R193, spec/23 R376). `since` is when it was entered. -/
structure LogEntry where
  since : Nat
  word : Word
  pfx : List Word
  pc : DWord
  mask : Word
  cause : Nat
  flane : Nat
  fva : DWord
  base : DWord
  disp : DWord
  vo : List Word
  rm : Nat
  ftz : Bool
  ptag : Word
  seed : DWord
  seq : Nat
  deriving DecidableEq, Repr

/-- A member of a wait (spec/03 R51, spec/13 R229): its kind, operand, context, event code and value. -/
structure Member where
  kind : Nat
  operand : DWord
  ctx : Nat
  code : Nat
  value : DWord
  deriving DecidableEq, Repr

/-- What a parked group waits on. -/
inductive WaitOn where
  | set (handle : DWord)
  | inline (m : Member)
  deriving DecidableEq, Repr

/-- A parked group (spec/05 R66, Table 5.5); the deadline is in ticks, all ones for none. `met` is the model's own: the lowest
member that has been satisfied or failed since the group last could wake, with the status it gives (spec/03 R52). -/
structure Group where
  mask : Word
  on : WaitOn
  deadline : DWord
  met : Option (Nat × Nat)
  deriving DecidableEq, Repr

/-- A pending asynchronous trap (spec/23 R373): its place in the order, what the trap registers take, and the engine
context it stops, if any. -/
structure Pending where
  order : Nat
  cause : Nat
  info : Nat
  tpc : Option DWord
  taddr : DWord
  ctx : Option Nat
  deriving DecidableEq, Repr

/-- What a status still to be written waits for (spec/13 R232, R238, R250; spec/19 R323). -/
inductive Awaits where
  | seal (seg : Nat)
  | flush (job : Nat)
  deriving DecidableEq, Repr

/-- A status register held by the scoreboard until its event. -/
structure StatusDue where
  sd : Nat
  on : Awaits
  deriving DecidableEq, Repr

/-- A wave (R34, R37, R44, R45; registers: R57-R74). `queued` tells whether it waits for its run-queue entry to be taken
(spec/21 R368); `wants`, the model's own, lists the addresses of pages for which its next word waited at the end of the last core cycle. -/
structure Wave where
  gang : Nat
  idx : Nat
  role : Nat
  vn : Nat
  sn : Nat
  tn : Nat
  quad : Nat
  slot : Nat
  v : FMap (List Word)
  s : FMap Word
  p : FMap Word
  t : FMap (BitVec 128)
  deadV : BitVec 128
  deadS : BitVec 128
  pcs : List DWord
  lanes : List LaneState
  priv : Priv
  held : Held
  chain : Option Chain
  mode : Word
  flags : Word
  seed : DWord
  ptag : Word
  iseq : DWord
  tcause : Word
  tpc : DWord
  tresume : DWord
  taddr : DWord
  tlog : Word
  scra : DWord
  scrb : DWord
  scrc : DWord
  scrd : DWord
  log : List LogEntry
  groups : List Group
  pend : List Pending
  dues : List StatusDue
  frozen : Bool
  saved : Bool
  trapCtx : Option Nat
  inSave : Bool
  inRestore : Bool
  restored : Bool
  endReq : Bool
  ended : Bool
  ready : Nat
  queued : Bool
  wants : List Nat
  deriving DecidableEq, Repr

/-! ### Gangs and engines (spec/03 R46-R49, spec/13 R203-R222) -/

/-- An operation of an engine context, as accepted (R203, R257), by the wave of an index and a number. `landed` lists the
chunks landed of a copy, `idxs` holds the indices that mloop.g has read (R219), `undo`
keeps the bytes its own writes replaced (R211), `flags` the flags to post at completion (R70). -/
structure EngOp where
  num : Nat
  cls : Nat
  fn : Nat
  acc : Nat
  rm : Nat
  ftz : Bool
  sat : Nat
  wave : Nat
  owner : Nat
  bar : Option Word
  ta : BitVec 128
  tb : BitVec 128
  ta1 : BitVec 128
  tb1 : BitVec 128
  shape : Word
  pat : Word
  idx : DWord
  fmt : Word
  seed : DWord
  seq : Nat
  pc : DWord
  landed : List Nat
  idxs : FMap Nat
  undo : FMap (BitVec 8)
  flags : Word
  deriving DecidableEq, Repr

/-- An engine context Ek (R46, R47, R73, R207, R255). `done` lists completed numbers above the timeline counter;
`retry` marks a context that creplay re-entered with FAULTED set, and `refault` the operation whose fault is then raised again
(R258). -/
structure Ctx where
  subm : Nat
  tl : Nat
  done : List Nat
  ops : List EngOp
  prog : Nat
  stopped : Bool
  halted : Bool
  retry : Bool
  refault : Option Nat
  deriving DecidableEq, Repr

/-- A gang (R32, R36, R41, R64, R246, R262). `csa` tells whether its CSA is mapped, `mask` the saved-wave mask,
`replayed` and `returned` the progress of a restore (R381), `posted` the flags its engines have ORed into SR.EFLAGS and the
cycle they did it in (spec/09 R133), `work` its issue slots and engine busy cycles since its
core's energy meter was read (spec/21 R366). -/
structure Gang where
  cohort : Nat
  gidx : Nat
  index : Nat
  regg : Nat
  spadg : Nat
  accg : Nat
  core : Nat
  spad : List Host.Cell
  acc : FMap Word
  ctxs : List Ctx
  eflags : Word
  posted : Nat × Word
  slots : FMap DWord
  csa : Bool
  mask : Word
  preempted : Bool
  restoring : Bool
  replayed : Bool
  returned : List Nat
  released : Bool
  runStart : Nat
  work : Nat
  ended : Bool
  deriving DecidableEq, Repr

/-- A role entry (R32, Table 3.3). -/
structure RoleEntry where
  pc : DWord
  waves : Nat
  vn : Nat
  sn : Nat
  tn : Nat
  role : Nat
  deriving DecidableEq, Repr

/-- A gang entry of a template: its present roles and partition word. -/
structure GangEntry where
  roles : List RoleEntry
  regg : Nat
  spadg : Nat
  accg : Nat
  deriving DecidableEq, Repr

/-- A cohort template as read at launch (R32). -/
structure Template where
  argp : DWord
  gangs : List GangEntry
  deriving DecidableEq, Repr

/-- A range (R28-R31; use list R286). `code` is the memory at its acceptance, which fetches of its gangs may still see
(spec/07 R113). Ages count cycles (spec/21 R358). -/
structure Range where
  lo0 : Nat
  hi0 : Nat
  grain : Nat
  tmplVa : DWord
  tmpl : Template
  code : List Host.Cell
  region : Nat
  handle : DWord
  pending : List (Nat × Nat)
  claims : FMap (Nat × Nat)
  placed : Nat
  uses : List (Nat × Nat)
  accepted : Nat
  age : Nat
  aged : Bool
  packet : Option Nat
  complete : Bool
  deriving DecidableEq, Repr

/-- A cohort (R41, spec/21 R351, R377). `entered` tells whether a wave of it has taken the PREEMPT last raised (R358). -/
structure Cohort where
  range : Nat
  lo : Nat
  hi : Nat
  region : Nat
  cluster : Nat
  gangs : List Nat
  resident : Bool
  saved : Bool
  preempted : Bool
  raisedAt : Nat
  entered : Bool
  age : Nat
  aged : Bool
  started : Bool
  ended : Bool
  deriving DecidableEq, Repr

/-! ### Regions and objects (spec/03 R23-R27, R55; spec/13 R234-R251) -/

/-- A checkpoint copy under way (spec/23 R389): the generation saved, the pages still to copy, the records written so
far, where the image lies and its next record, and the packet to complete. `dgens` gives the DGEN that the leaf of each pending page
held at the mark. -/
structure CkptRun where
  gen : Nat
  pend : List Nat
  dgens : FMap Nat
  pages : Nat
  base : Nat
  at' : Nat
  room : Nat
  cut : Bool
  packet : Option Nat
  deriving DecidableEq, Repr

/-- A region: its RCB (R24), charges (R26), service value, account, events and monitors. -/
structure Region where
  status : Nat
  depth : Nat
  ovr : Nat
  share : Nat
  fdom : Nat
  prio : Nat
  maxcores : Nat
  mincores : Nat
  sramg : Nat
  objq : Nat
  msgpool : Nat
  energy : Nat
  deepp : Nat
  hbmp : Nat
  trapvec : DWord
  ptroot : DWord
  parentHandle : DWord
  handle : DWord
  parent : Option Nat
  index : Nat
  cSram : Nat
  cHbm : Nat
  cDeep : Nat
  cObj : Nat
  cMsg : Nat
  vserv : Nat
  account : Int
  events : List (Nat × DWord)
  evOver : Nat
  progress : Nat
  deadFor : Nat
  deadRaised : Bool
  gen : Nat
  ckDest : Option Nat
  ckRoom : Nat
  ckNext : Nat
  ckCut : Bool
  ckRun : Option CkptRun
  discarding : Bool
  deriving DecidableEq, Repr

/-- A table entry (R235). Its object is numbered across all types. -/
structure Entry where
  type : Nat
  obj : Nat
  rights : Nat
  holder : Nat
  gen : Nat
  home : Nat
  deriving DecidableEq, Repr

/-- A timer (R244). -/
structure Timer where
  armed : Bool
  deadline : DWord
  deriving DecidableEq, Repr

/-- A message (R247, R325, R332): landing VA and grant word when it carries a grant. -/
structure Msg where
  header : DWord
  origin : DWord
  eight : Bool
  words : List DWord
  landing : DWord
  gword : Word
  deriving DecidableEq, Repr

/-- A busy landing slot (R333): the pages of it still mapped as received pages, with their frames; the segment they are
shared from, 0 for one of another module; and the module they came from. -/
structure Landing where
  pages : List (Nat × Nat)
  shared : Option Nat
  src : Nat
  deriving DecidableEq, Repr

/-- A port (spec/19 R321-R333). -/
structure Port where
  cap : Nat
  borrowed : Nat
  queue : List Msg
  region : Nat
  home : Nat
  lz : DWord
  lzN : Nat
  lzP : Nat
  nextSlot : Nat
  busy : FMap Landing
  pfN : Nat
  pfTab : DWord
  reserved : Nat
  dead : Bool
  deriving DecidableEq, Repr

/-- A proxy (R337): module, port there, recorded incarnation, grant right, and whether its binding has ended. -/
structure Proxy where
  module : Nat
  port : Nat
  incarn : Nat
  name : DWord
  ended : Bool
  deriving DecidableEq, Repr

/-- An appended block whose bytes have not landed (spec/17 R309), with the wave and the instruction that appended it. -/
structure Block where
  off : Nat
  data : List (BitVec 8)
  landed : Bool
  wave : Nat
  app : Nat
  deriving DecidableEq, Repr

/-- An amber segment (R249, R250, spec/17 R309-R314). `status` 0 open, 1 sealed, 2 freeing; `remotes` lists the modules that
hold shared copies of its pages (spec/19 R334). -/
structure Segment where
  region : Nat
  root : DWord
  frames : List Nat
  base : DWord
  pages : Nat
  reserve : Nat
  commit : Nat
  status : Nat
  frozenAt : Nat
  sealDone : Bool
  blocks : List Block
  replicas : List (Nat × Nat)
  remotes : List Nat
  freer : Nat
  handle : DWord
  gone : Bool
  deriving DecidableEq, Repr

/-- An object that holds a charge on OBJQ until it has ended and its last entry has closed (R235). -/
structure Charged where
  region : Nat
  ended : Bool
  closed : Bool
  deriving DecidableEq, Repr

/-! ### Memory-order structures (spec/17) -/

/-- A pooled line (R302, R303): tag, and the partial of each core and element, keyed core * 32 + element. -/
structure PoolLine where
  op : Nat
  anchor : Int
  parts : FMap Int
  deriving DecidableEq, Repr

/-- A line of host memory held in L2 (R300): its bytes and which of them are dirty. -/
structure HostLine where
  bytes : List (BitVec 8)
  dirty : BitVec 128
  deriving DecidableEq, Repr

/-- A flush or inval under way (R232): the lines still to write back. -/
structure FlushJob where
  wave : Nat
  lines : List Nat
  discard : Bool
  deriving DecidableEq, Repr

/-- A leaf of a page under migration: its space, VA and entry address, and the entry as it was before MIG (spec/15 R273). -/
structure Moving where
  root : DWord
  va : Nat
  at' : Nat
  e : DWord
  deriving DecidableEq, Repr

/-- A page under MIG (spec/15 R289): the space and VA it was asked for, the die that takes it, and its leaves. -/
structure Migration where
  root : DWord
  va : Nat
  die : Nat
  leaves : List Moving
  deriving DecidableEq, Repr

/-- A command that MIGCMD runs, as latched (spec/25 R396): region, VA and command word, the host frame the driver gives, and
the frame that moves for it. -/
structure MigJob where
  region : Nat
  va : Nat
  cmd : Nat
  frame : Nat
  going : Option Nat
  deriving DecidableEq, Repr

/-- A bias flip under way (spec/25 R395): the granule, the target, the lines still to respond, and when it began. -/
structure Flip where
  gran : Nat
  toDevice : Bool
  lines : List Nat
  since : Nat
  deriving DecidableEq, Repr

/-! ### Fabric (spec/19 R334-R345) -/

/-- A send or grant of this module through a proxy to another module (R323, R334). `reply` is the status that has
returned, `accepted` tells whether the port's home has accepted a grant whose grant point still waits for a page, `taken`
whether its wave has reported it, `past` whether a grant is past its grant point and not acknowledged. -/
structure RemoteSend where
  wave : Nat
  pc : DWord
  region : Nat
  module : Nat
  grant : Bool
  owned : Bool
  va : DWord
  pages : Nat
  reply : Option Nat
  accepted : Bool
  taken : Bool
  past : Bool
  frames : List Nat
  deriving DecidableEq, Repr

/-- A reservation held here for a grant of a wave of another module (R334): the slots and frames reserved. -/
structure Reservation where
  src : Nat
  wave : Nat
  port : Nat
  slot : Nat
  msg : Msg
  frames : List Nat
  deriving DecidableEq, Repr

/-- A send or grant of another module that waits at the home of its port behind a grant that has not landed (R326): the link
it came by, its source, wave and tag, the port, the message, and a grant's grant word. -/
structure HeldSend where
  link : Nat
  src : Nat
  wave : Nat
  tag : Nat
  port : Nat
  msg : Msg
  gword : Option Nat
  deriving DecidableEq, Repr

/-- A flit sent and not acknowledged (R341, R342, Table 19.4): its sequence number, kind, destination and source module, and
beats. -/
structure Flit where
  seq : Nat
  kind : Nat
  dest : Nat
  source : Nat
  beats : List (BitVec 8)
  deriving DecidableEq, Repr

/-- A link port (R341, R342, R345). `waiting` holds what has not been sent yet: destination, source and beats. `nakOut` is the
number in the NAK that this side has sent, until the replay begins. -/
structure LinkPort where
  nextSeq : Nat
  expSeq : Nat
  acked : Nat
  replay : List Flit
  waiting : List (Nat × Nat × List (BitVec 8))
  naks : Nat
  nakAt : Nat
  discarding : Bool
  nakOut : Option Nat
  retrainFails : Nat
  status : Nat
  rx : List (List (BitVec 8))
  retired : Nat
  dedup : Nat
  retrain : Nat
  replayed : Nat
  flitsRx : Nat
  flitsTx : Nat
  deriving DecidableEq, Repr

/-- A name binding held by this module's directory (R336). -/
structure Binding where
  module : Nat
  port : Nat
  incarn : Nat
  grant : Bool
  ended : Bool
  deriving DecidableEq, Repr

/-- What is known of another module (R338-R340); `heard` is when a flit or a request from it last came. -/
structure Peer where
  incarn : Nat
  dead : Bool
  heard : Nat
  deriving DecidableEq, Repr

/-! ### Scheduling (spec/21) -/

/-- A cluster (R355-R361, R368): started; whether an event of the present fabric cycle has set placement due, and whether the
procedure is to run for events of a fabric cycle past; its head-of-line unit, reserved cores and run queue. -/
structure Cluster where
  started : Bool
  due : Bool
  run : Bool
  head : Option (Bool × Nat)
  reserved : List Nat
  runq : List Nat
  deriving DecidableEq, Repr

/-! ### Host and firmware (spec/21 R346-R350, spec/25) -/

/-- A queue context (R346, Table 21.1). -/
structure Queue where
  latch : Nat
  ci : Nat
  base : Nat
  rgn : Nat
  lsize : Nat
  error : Bool
  overrun : Bool
  en : Bool
  owner : Nat
  deriving DecidableEq, Repr

/-- A packet accepted and not completed (R349, R397-R399). `moved` counts the chunks of a COPY, and `undo` keeps the
bytes its own writes replaced (spec/13 R211). -/
structure Packet where
  q : Nat
  index : Nat
  type : Nat
  rel : Bool
  caddr : Nat
  region : Nat
  obj : Nat
  a : Nat
  b : Nat
  c : Nat
  moved : Nat
  undo : FMap (BitVec 8)
  deriving DecidableEq, Repr

/-- A completion word held back by a firmware restart (R404). -/
structure HeldWord where
  caddr : Nat
  word : DWord
  rel : Bool
  region : Nat
  deriving DecidableEq, Repr

/-- A firmware image in one flash bank (R402): version, whether its signature verifies, and its digest. -/
structure Image where
  version : Nat
  sigOk : Bool
  digest : Nat
  deriving DecidableEq, Repr

/-- The host attachment, firmware and power state (spec/25). `resetAt` is when the module was last reset (spec/13 R233),
`startAt` when its clusters began to start (spec/01 R22), `mig` the command that MIGCMD runs. `reached` lists the image versions that have reached
BOOTSTATE 3 (R402), `windows` counts the energy windows begun, `hotSince`, `dryAt` and `tripAt` tell since when a limit of
R408 is passed. -/
structure HostState where
  resetAt : Nat
  startAt : Nat
  queues : FMap Queue
  packets : FMap Packet
  heldWords : List HeldWord
  visits : FMap Nat
  biascmd : DWord
  flip : Option Flip
  hostBias : List Nat
  migRegion : DWord
  migVa : DWord
  migCmd : DWord
  migResult : DWord
  mig : Option MigJob
  mboxReq : List DWord
  mboxResp : List DWord
  bootstate : Nat
  failCode : Nat
  everReady : Bool
  incarnation : Nat
  module : Nat
  domainSize : Nat
  release : Nat
  bank0 : FMap Image
  bank1 : FMap Image
  counters : FMap Nat
  running : FMap Image
  reached : List (Nat × Nat)
  measurements : FMap Nat
  spdm : List DWord
  restarts : List Nat
  tjmax : Nat
  tin : Nat
  flow : Nat
  draw : Nat
  windowDrawn : Nat
  windows : Nat
  ecap : Nat
  trip : Bool
  caperr : Bool
  cap : Nat
  capNext : Option Nat
  account : Int
  hotSince : Option Nat
  dryAt : Option Nat
  tripAt : Option Nat
  powered : Bool
  deriving DecidableEq, Repr

/-! ### The module -/

/-- The whole module. `tlb` lists the translations of a page that caches may hold, `moves` and `migs` are keyed by frame, `moved` is
the energy of traffic not charged yet, by region, `metered` the readings a core's energy meter has had (spec/21 R366), `intervals` counts the refresh intervals a channel has ended, `leases` the
reads a core made without a lease and `accesses` its other loads and its stores (spec/17 R297), `late` the sends and reservations of a module declared dead, which
dates what still arrives for them (spec/19 R340). `agenda`, `cur`, `fresh`, `serial`, `issued`, the quadrants that have issued in this core cycle, and `wants`,
the addresses for which the word tried last waits, are the model's own (assumption log 1 and 2). -/
structure State where
  time : Nat
  agenda : List (Nat × Instr)
  cur : Option Nat
  fresh : Nat
  serial : Nat
  issued : List Nat
  wants : List Nat
  mem : List Host.Cell
  hostL2 : FMap HostLine
  hostLines : FMap (List (BitVec 8))
  flushes : FMap FlushJob
  tlb : FMap (List DWord)
  fetched : FMap (Nat × Word)
  pool : FMap PoolLine
  hbmNext : FMap Nat
  hbmFree : List Nat
  deepNext : FMap Nat
  deepFree : List Nat
  resident : FMap Nat
  moves : FMap (List Nat)
  migs : FMap Migration
  channels : FMap (Nat × Nat × Int)
  intervals : FMap Nat
  leases : FMap Nat
  accesses : FMap (Nat × Nat)
  moved : FMap Nat
  metered : FMap Nat
  regions : FMap Region
  ranges : FMap Range
  cohorts : FMap Cohort
  gangs : FMap Gang
  waves : FMap Wave
  entries : FMap Entry
  nextGen : FMap Nat
  charged : FMap Charged
  waitsets : FMap (FMap Member)
  timers : FMap Timer
  ports : FMap Port
  proxies : FMap Proxy
  segments : FMap Segment
  links : FMap LinkPort
  dedup : FMap Nat
  sends : FMap RemoteSend
  reservations : FMap Reservation
  held : List HeldSend
  late : FMap Nat
  names : FMap Binding
  peers : FMap Peer
  aqueduct : FMap Binding
  clusters : FMap Cluster
  agelimit : Nat
  quantum : Nat
  host : HostState
  deriving DecidableEq, Repr

/-- The host attachment after cold reset (spec/21 Table 21.1, spec/25 Tables 25.3, 25.4, 25.8; images: log 7). -/
def HostState.reset : HostState where
  resetAt := 0
  startAt := 0
  queues := []
  packets := []
  heldWords := []
  visits := []
  biascmd := 0
  flip := none
  hostBias := []
  migRegion := 0
  migVa := 0
  migCmd := 0
  migResult := 0
  mig := none
  mboxReq := List.replicate 8 0
  mboxResp := List.replicate 8 0
  bootstate := 0
  failCode := 0
  everReady := false
  incarnation := 0
  module := 0
  domainSize := 1
  release := 0
  bank0 := [(1, ⟨1, true, 1⟩), (2, ⟨1, true, 2⟩), (3, ⟨1, true, 3⟩), (4, ⟨1, true, 4⟩)]
  bank1 := [(1, ⟨1, true, 1⟩), (2, ⟨1, true, 2⟩), (3, ⟨1, true, 3⟩), (4, ⟨1, true, 4⟩)]
  counters := []
  running := []
  reached := []
  measurements := []
  spdm := []
  restarts := []
  tjmax := 0
  tin := 0
  flow := 0
  draw := 0
  windowDrawn := 0
  windows := 0
  ecap := 2100
  trip := false
  caperr := false
  cap := 2100
  capNext := none
  account := 2100000
  hotSince := none
  dryAt := none
  tripAt := none
  powered := true

/-- The module right after cold reset (spec/01 R16; no object exists before boot, spec/25 R401). -/
def State.reset : State where
  time := 0
  agenda := []
  cur := none
  fresh := 0
  serial := 1
  issued := []
  wants := []
  mem := []
  hostL2 := []
  hostLines := []
  flushes := []
  tlb := []
  fetched := []
  pool := []
  hbmNext := []
  hbmFree := []
  deepNext := []
  deepFree := []
  resident := []
  moves := []
  migs := []
  channels := []
  intervals := []
  leases := []
  accesses := []
  moved := []
  metered := []
  regions := []
  ranges := []
  cohorts := []
  gangs := []
  waves := []
  entries := []
  nextGen := []
  charged := []
  waitsets := []
  timers := []
  ports := []
  proxies := []
  segments := []
  links := []
  dedup := []
  sends := []
  reservations := []
  held := []
  late := []
  names := []
  peers := []
  aqueduct := []
  clusters := []
  agelimit := 2097152
  quantum := 1048576
  host := HostState.reset

end Sys2Proof.Machine
end

