-- ==== Sys2Proof/Machine/Ops.lean ====
section
/-! DEFINITION. The shared operations: lanes and registers, the region tree, physical memory, traps and discards. -/

namespace Sys2Proof.Machine

open Sys2Proof

/-! ### Lanes -/

/-- The lanes of a wave (spec/00 R3). -/
def laneIdx : List Nat :=
  [0, 1, 2, 3, 4, 5, 6, 7, 8, 9, 10, 11, 12, 13, 14, 15, 16, 17, 18, 19, 20, 21, 22, 23, 24, 25, 26, 27, 28, 29, 30, 31]

/-- Bit `i` of a mask. -/
def bitAt (m : Word) (i : Nat) : Bool := m.getLsbD i

/-- The mask of the lanes a test admits. -/
def maskOf (f : Nat → Bool) : Word :=
  BitVec.ofNat 32 (laneIdx.foldr (fun i n => 2 * n + (if f i then 1 else 0)) 0)

/-- The lanes of a mask, ascending. -/
def lanesOf (m : Word) : List Nat := laneIdx.filter (bitAt m)

/-- The lowest lane of a mask, 0 when it is empty. -/
def lowLane (m : Word) : Nat := (laneIdx.find? (bitAt m)).getD 0

/-- A lane list with one value in every lane. -/
def splat {α : Type} (x : α) : List α := laneIdx.map fun _ => x

/-- Sign extension of a number of `n` bits. -/
def signed (n x : Nat) : Int := if 2 * (x % 2 ^ n) < 2 ^ n then (x % 2 ^ n : Nat) else (x % 2 ^ n : Nat) - (2 ^ n : Nat)

/-- A 64-bit address moved by a signed amount, modulo 2^64. -/
def moveAddr (a : DWord) (d : Int) : DWord := a + BitVec.ofInt 64 d

/-! ### Time (spec/01 R15, R16): `time` counts twelfths of a nanosecond, 5 to a cycle and 12 to a tick -/

/-- SR.TIME. -/
def ticks (s : State) : Nat := s.time / 12 % 2 ^ 64

/-- Core cycles since reset. -/
def cycles (s : State) : Nat := s.time / 5

/-! ### Waves and gangs -/

def getWave (s : State) (w : Nat) : Option Wave := fget s.waves w

def setWave (s : State) (w : Nat) (v : Wave) : State := { s with waves := fset s.waves w v }

def modWave (s : State) (w : Nat) (f : Wave → Wave) : State := { s with waves := fmod s.waves w f }

def modGang (s : State) (g : Nat) (f : Gang → Gang) : State := { s with gangs := fmod s.gangs g f }

def modCohort (s : State) (c : Nat) (f : Cohort → Cohort) : State := { s with cohorts := fmod s.cohorts c f }

def modRegion (s : State) (r : Nat) (f : Region → Region) : State := { s with regions := fmod s.regions r f }

def modHost (s : State) (f : HostState → HostState) : State := { s with host := f s.host }

/-- The live waves of a gang in ascending index. -/
def gangWaves (s : State) (g : Nat) : List (Nat × Wave) :=
  (laneIdx.flatMap fun i => s.waves.filter fun p => p.2.gang == g && p.2.idx == i && !p.2.ended)

/-- The region number of a gang. -/
def gangRegion (s : State) (g : Nat) : Nat :=
  match fget s.gangs g with
  | none => 0
  | some gg => match fget s.cohorts gg.cohort with
    | none => 0
    | some c => c.region

/-- The region number of a wave. -/
def waveRegion (s : State) (w : Wave) : Nat := gangRegion s w.gang

/-- The lane's program counter (R37). -/
def Wave.pc (w : Wave) (l : Nat) : DWord := w.pcs.getD l 0

def Wave.lane (w : Wave) (l : Nat) : LaneState := w.lanes.getD l .exited

/-- The issue PC: the least PC of the live, unparked lanes (R37). -/
def Wave.issuePC (w : Wave) : Option DWord :=
  laneIdx.foldl (fun (m : Option DWord) l =>
    if w.lane l = .live then
      match m with
      | none => some (w.pc l)
      | some p => if (w.pc l).toNat < p.toNat then some (w.pc l) else m
    else m) none

/-- The lanes that issue at an address (R37). -/
def Wave.issuingAt (w : Wave) (pc : DWord) : Word := maskOf fun l => w.lane l == .live && w.pc l == pc

/-- Where the wave stands: the chain it is in, or its issue PC and issuing lanes. -/
def Wave.front (w : Wave) : Option (DWord × Word × List Word) :=
  match w.chain with
  | some c => some (c.pc, c.lanes, c.words)
  | none => match w.issuePC with
    | none => none
    | some p => some (p, w.issuingAt p, [])

/-! ### Registers (R57-R62) -/

def deadBit (m : BitVec 128) (n : Nat) : Bool := m.getLsbD n
def setDead (m : BitVec 128) (n : Nat) : BitVec 128 := m ||| BitVec.ofNat 128 (2 ^ n)
def clearDead (m : BitVec 128) (n : Nat) : BitVec 128 := m &&& ~~~ BitVec.ofNat 128 (2 ^ n)

/-- A V register; a dead one reads zero in every lane (R62). -/
def Wave.readV (w : Wave) (n : Nat) : List Word := if deadBit w.deadV n then splat 0 else fgetD w.v n (splat 0)

/-- Lane `l` of a V register. -/
def Wave.vlane (w : Wave) (n l : Nat) : Word := (w.readV n).getD l 0

/-- Writes the lanes of a mask; a dead register becomes live with zero in the others (R62, R129). -/
def Wave.writeV (w : Wave) (n : Nat) (m : Word) (f : Nat → Word) : Wave :=
  if m = 0 then w
  else
    { w with
      v := fset w.v n (laneIdx.map fun l => if bitAt m l then f l else w.vlane n l)
      deadV := clearDead w.deadV n }

/-- An S register; S0 reads zero (R59). -/
def Wave.readS (w : Wave) (n : Nat) : Word := if n = 0 ∨ deadBit w.deadS n then 0 else fgetD w.s n 0

/-- Writes an S register; a write to S0 is discarded (R59), but clears a dead mark like any write (assumption log 63). -/
def Wave.writeS (w : Wave) (n : Nat) (x : Word) : Wave :=
  if n = 0 then { w with deadS := clearDead w.deadS 0 } else { w with s := fset w.s n x, deadS := clearDead w.deadS n }

/-- A pair: the even register holds bits [31:0] (R58). A pair with a dead half reads zero (R62). -/
def Wave.readS64 (w : Wave) (n : Nat) : DWord :=
  if deadBit w.deadS n ∨ deadBit w.deadS (n + 1) then 0 else w.readS (n + 1) ++ w.readS n

def Wave.writeS64 (w : Wave) (n : Nat) (x : DWord) : Wave :=
  (w.writeS n (x.extractLsb' 0 32)).writeS (n + 1) (x.extractLsb' 32 32)

/-- A predicate; P0 reads all ones (R59). -/
def Wave.readP (w : Wave) (n : Nat) : Word := if n = 0 then 0xFFFFFFFF else fgetD w.p n 0

def Wave.writeP (w : Wave) (n : Nat) (x : Word) : Wave := if n = 0 then w else { w with p := fset w.p n x }

def Wave.readT (w : Wave) (n : Nat) : BitVec 128 := fgetD w.t n 0

def Wave.writeT (w : Wave) (n : Nat) (x : BitVec 128) : Wave := { w with t := fset w.t n x }

/-- A lane pair of V registers; dead halves make it zero (R62). -/
def Wave.vlane64 (w : Wave) (n l : Nat) : DWord :=
  if deadBit w.deadV n ∨ deadBit w.deadV (n + 1) then 0 else w.vlane (n + 1) l ++ w.vlane n l

def Wave.writeV64 (w : Wave) (n : Nat) (m : Word) (f : Nat → DWord) : Wave :=
  (w.writeV n m fun l => (f l).extractLsb' 0 32).writeV (n + 1) m fun l => (f l).extractLsb' 32 32

/-- Whether the wave holds V register n (R34). -/
def Wave.holdsV (w : Wave) (n : Nat) : Bool := decide (n + 1 < w.vn) || n == 127

/-! ### The region tree (spec/03 R23-R27) -/

/-- The regions from one up to the root. -/
def pathUp (s : State) : Nat → Nat → List Nat
  | 0, _ => []
  | fuel + 1, r => match fget s.regions r with
    | none => []
    | some g => r :: (match g.parent with
      | none => []
      | some p => pathUp s fuel p)

/-- The path of a region to the root; the deepest region is at depth 7 (R23). -/
def regionPath (s : State) (r : Nat) : List Nat := pathUp s 9 r

/-- Whether region `r` is `a` or a descendant of it. -/
def within (s : State) (r a : Nat) : Bool := (regionPath s r).contains a

/-- The node whose own field of override bit `bit` is effective for region r (R25). -/
def effNode (s : State) (bit : Nat) (r : Nat) : Option Region :=
  (regionPath s r).foldl (fun (found : Option Region × Bool) n =>
    if found.2 then found
    else match fget s.regions n with
      | none => found
      | some g => (some g, g.parent.isNone || g.ovr / 2 ^ bit % 2 == 1)) (none, false) |>.1

/-- An effective value (R25). -/
def eff (s : State) (bit : Nat) (f : Region → Nat) (r : Nat) : Nat := ((effNode s bit r).map f).getD 0

def effTrapvec (s : State) (r : Nat) : DWord := ((effNode s 1 r).map Region.trapvec).getD 0
def effPtroot (s : State) (r : Nat) : DWord := ((effNode s 0 r).map Region.ptroot).getD 0
def effPrio (s : State) (r : Nat) : Nat := eff s 10 Region.prio r

/-- The state word of a region: 0 LIVE, 1 FROZEN, 2 DISCARDED; a region that does not exist counts as discarded. -/
def regionStatus (s : State) (r : Nat) : Nat := ((fget s.regions r).map Region.status).getD 2

/-- The fault domain of a region (R27). -/
def faultDomain (s : State) (r : Nat) : Nat :=
  ((regionPath s r).find? fun n => match fget s.regions n with
    | none => false
    | some g => g.parent.isNone || eff s 11 Region.fdom n == 1).getD r

/-- The regions of a subtree. -/
def subtree (s : State) (r : Nat) : List Nat := (s.regions.map Prod.fst).filter fun n => within s n r

/-- A resource charged along the tree (R26). -/
inductive Resource where
  | sram | hbm | deep | objects | slots
  deriving DecidableEq, Repr

def Region.charge (g : Region) : Resource → Nat
  | .sram => g.cSram
  | .hbm => g.cHbm
  | .deep => g.cDeep
  | .objects => g.cObj
  | .slots => g.cMsg

def Region.withCharge (g : Region) (x : Resource) (n : Nat) : Region :=
  match x with
  | .sram => { g with cSram := n }
  | .hbm => { g with cHbm := n }
  | .deep => { g with cDeep := n }
  | .objects => { g with cObj := n }
  | .slots => { g with cMsg := n }

/-- The effective limit of a resource (Table 3.1). -/
def resLimit (s : State) (x : Resource) (r : Nat) : Nat :=
  match x with
  | .sram => eff s 7 Region.sramg r
  | .hbm => eff s 2 Region.hbmp r
  | .deep => eff s 3 Region.deepp r
  | .objects => eff s 6 Region.objq r
  | .slots => eff s 5 Region.msgpool r

/-- Whether a charge would keep every region of the path within its effective limit (R26). -/
def mayCharge (s : State) (x : Resource) (r n : Nat) : Bool :=
  (regionPath s r).all fun k => match fget s.regions k with
    | none => false
    | some g => decide (g.charge x + n ≤ resLimit s x k)

/-- Charges a region and its ancestors. -/
def charge (s : State) (x : Resource) (r n : Nat) : State :=
  (regionPath s r).foldl (fun s k => modRegion s k fun g => g.withCharge x (g.charge x + n)) s

/-- Removes a charge. -/
def uncharge (s : State) (x : Resource) (r n : Nat) : State :=
  (regionPath s r).foldl (fun s k => modRegion s k fun g => g.withCharge x (g.charge x - n)) s

/-- Queues a region event (R55): at most 256; a further one replaces the oldest of its code and object, and stands at the
end (assumption log 64), or is dropped and counted. -/
def pushEvent (s : State) (r code : Nat) (h : DWord) : State :=
  modRegion s r fun g =>
    if g.events.length < 256 then { g with events := g.events ++ [(code, h)] }
    else if g.events.any (· == (code, h)) then { g with events := g.events.erase (code, h) ++ [(code, h)] }
    else { g with evOver := g.evOver + 1 }

/-- Sets the placement procedure due on the clusters a test admits (spec/21 R355). -/
def placementDue (s : State) (f : Nat → Bool) : State :=
  { s with clusters := s.clusters.map fun p => if f p.1 && p.2.started then (p.1, { p.2 with due := true }) else p }

/-! ### Physical memory (spec/15 R267) -/

/-- A byte of physical memory; one that nothing has written reads zero (assumption log 4). -/
def byteAt : List Host.Cell → Nat → BitVec 8
  | [], _ => 0
  | (k, b) :: t, a => if a = k then b else byteAt t a

/-- Drops the cell of an address. -/
def dropByte : List Host.Cell → Nat → List Host.Cell
  | [], _ => []
  | (k, b) :: t, a => if a = k then t else if a < k then (k, b) :: t else (k, b) :: dropByte t a

/-- Puts a nonzero byte at an address of a rising list. -/
def putByte : List Host.Cell → Nat → BitVec 8 → List Host.Cell
  | [], a, x => [(a, x)]
  | (k, b) :: t, a, x =>
    if a < k then (a, x) :: (k, b) :: t
    else if a = k then (a, x) :: t
    else (k, b) :: putByte t a x

/-- Writes a byte, keeping the canonical form: rising addresses and no zero byte listed. -/
def setByte (m : List Host.Cell) (a : Nat) (x : BitVec 8) : List Host.Cell :=
  if x = 0 then dropByte m a else putByte m a x

/-- The canonical form of a memory: every listed byte nonzero, addresses strictly rising. -/
def Memory.wf : List Host.Cell → Bool
  | [] => true
  | [(_, b)] => b != 0
  | (k, b) :: (k', b') :: t => b != 0 && decide (k < k') && Memory.wf ((k', b') :: t)

/-- Writes bytes from an address up. -/
def setBytes (m : List Host.Cell) : Nat → List (BitVec 8) → List Host.Cell
  | _, [] => m
  | a, x :: t => setBytes (setByte m a x) (a + 1) t

/-- `n` bytes from an address up. -/
def bytesAt (m : List Host.Cell) (a n : Nat) : List (BitVec 8) := (numsFrom a n).map (byteAt m)

/-- The little-endian number of bytes (spec/00 R4). -/
def leNat : List (BitVec 8) → Nat
  | [] => 0
  | b :: t => b.toNat + 256 * leNat t

/-- The `n` little-endian bytes of a number. -/
def leBytes : Nat → Nat → List (BitVec 8)
  | 0, _ => []
  | n + 1, x => BitVec.ofNat 8 x :: leBytes n (x / 256)

/-- The first physical address of host memory (R267). -/
def hostBase : Nat := 0x8000000000000

/-- Host memory outside the device, reached through D0's L2 without coherence (R300). -/
def isHostPA (pa : Nat) : Bool := decide (hostBase ≤ pa)

/-- The device range a physical address lies in: 0 HBM, 1 deep tier, 2 host; 3 where Table 15.2 has none. -/
def tierOf (pa : Nat) : Nat :=
  if pa < 0xC000000000 then 0
  else if 0x10000000000 ≤ pa ∧ pa < 0x28000000000 then 1
  else if hostBase ≤ pa ∧ pa < 2 * hostBase then 2
  else 3

/-- The home die of a physical address (Table 15.2). -/
def homeDie (pa : Nat) : Nat :=
  match tierOf pa with
  | 0 => pa / 0x3000000000
  | 1 => (pa - 0x10000000000) / 0x6000000000
  | _ => 0

/-- Whether an address lies in the host-coherent window (R267). -/
def inWindow (pa : Nat) : Bool := decide (pa < 0x40000000)

/-- The L2 line of host memory that holds an address, fetched when it is not held (R300). -/
def hostLineOf (s : State) (line : Nat) : HostLine :=
  (fget s.hostL2 line).getD ⟨bytesAt s.mem (line * 128) 128, 0⟩

/-- One byte as a device access finds it, apart from pooled lines. -/
def devByte (s : State) (pa : Nat) : BitVec 8 :=
  if isHostPA pa then (hostLineOf s (pa / 128)).bytes.getD (pa % 128) 0
  else match fget s.hostLines (pa / 128) with
    | some l => l.getD (pa % 128) 0
    | none => byteAt s.mem pa

/-- Brings a host line into L2, as a device access does; a coherent-window line that the host holds modified is
obtained from it and written back to HBM (spec/25 R394). -/
def touchLine (s : State) (pa : Nat) : State :=
  if isHostPA pa then { s with hostL2 := fset s.hostL2 (pa / 128) (hostLineOf s (pa / 128)) }
  else match fget s.hostLines (pa / 128) with
    | some l =>
      { s with mem := setBytes s.mem (pa / 128 * 128) (l.take 128), hostLines := fdel s.hostLines (pa / 128) }
    | none => s

/-- Writes one byte as a device access does. -/
def devSet (s : State) (pa : Nat) (x : BitVec 8) : State :=
  let s := touchLine s pa
  if isHostPA pa then
    { s with hostL2 := fmod s.hostL2 (pa / 128) fun l =>
        { bytes := l.bytes.set (pa % 128) x, dirty := l.dirty ||| BitVec.ofNat 128 (2 ^ (pa % 128)) } }
  else { s with mem := setByte s.mem pa x }

/-- Writes bytes physically, from an address up. -/
def devSetBytes (s : State) : Nat → List (BitVec 8) → State
  | _, [] => s
  | a, x :: t => devSetBytes (devSet s a x) (a + 1) t

/-- Writes the dirty bytes of a host line back to the host, keeping the line (R232). -/
def writeBack (s : State) (line : Nat) : State :=
  match fget s.hostL2 line with
  | none => s
  | some l =>
    { s with
      mem := (numsFrom 0 128).foldl (fun m i =>
        if l.dirty.getLsbD i then setByte m (line * 128 + i) (l.bytes.getD i 0) else m) s.mem
      hostL2 := fset s.hostL2 line { l with dirty := 0 } }

/-- Bytes that the Cistern writes to host memory itself: the host sees them at once, and so does every later read of the device, from
the lines that L2 holds (R291, R292, R300). -/
def hostWrite (s : State) (pa : Nat) (bs : List (BitVec 8)) : State :=
  let at' := fun (k i : Nat) => k * 128 + i
  let in' := fun (k i : Nat) => decide (pa ≤ at' k i ∧ at' k i < pa + bs.length)
  { s with
    mem := setBytes s.mem pa bs
    hostL2 := s.hostL2.map fun p =>
      if p.1 * 128 + 128 ≤ pa ∨ pa + bs.length ≤ p.1 * 128 then p
      else (p.1, {
        bytes := (numsFrom 0 128).map fun i => if in' p.1 i then bs.getD (at' p.1 i - pa) 0 else p.2.bytes.getD i 0
        dirty := (numsFrom 0 128).foldl (fun (d : BitVec 128) i =>
          if in' p.1 i then d &&& ~~~ BitVec.ofNat 128 (2 ^ i) else d) p.2.dirty }) }

/-- Writes back every dirty host line (R301: what flush performs, for all lines). -/
def writeBackAll (s : State) : State := s.hostL2.foldl (fun s p => writeBack s p.1) s

/-- The evictions of a step: every line of host memory that D0's L2 gives up is written back and dropped (R300; which lines
is free, assumption log 21). -/
def evictLines (s : State) : State :=
  (s.hostL2.filter fun p => Config.evictsLine s.fresh p.1).foldl (fun t p =>
    let u := writeBack t p.1
    { u with hostL2 := fdel u.hostL2 p.1 }) s

/-- Discards every host line after writing it back (R301: the acquire flag). -/
def discardHostLines (s : State) : State := { writeBackAll s with hostL2 := [] }

/-! ### Frames (spec/15 R267, R275, R285) -/

/-- Free HBM frames of a die (the window's frames are never handed out). The object table, which is backed in HBM, takes
none of them (assumption log 65). -/
def freeHbm (s : State) (d : Nat) : Nat :=
  (if d = 0 then Config.hbmPages - 16384 else Config.hbmPages) - fgetD s.hbmNext d 0 +
    (s.hbmFree.filter fun f => f / Config.hbmPages == d).length

/-- Takes an HBM frame of a die, a freed one first, else downwards from the die's top (assumption log 9); what it holds is
resident from now (R287). -/
def takeHbm (s : State) (d : Nat) : Option (Nat × State) :=
  match s.hbmFree.find? fun f => f / Config.hbmPages == d with
  | some f => some (f, { s with hbmFree := s.hbmFree.erase f, resident := fset s.resident f s.time })
  | none =>
    if freeHbm s d = 0 then none
    else
      let n := fgetD s.hbmNext d 0
      let f := (d + 1) * Config.hbmPages - 1 - n
      some (f, { s with hbmNext := fset s.hbmNext d (n + 1), resident := fset s.resident f s.time })

/-- Frees a frame of HBM or of the deep tier; what the device remembered of the page in it goes (R287, R290). -/
def freeFrame (s : State) (f : Nat) : State :=
  let s := { s with moves := fdel s.moves f }
  if f < 4 * Config.hbmPages then { s with hbmFree := f :: s.hbmFree, resident := fdel s.resident f }
  else { s with deepFree := f :: s.deepFree }

/-- The first deep-tier frame of a die. -/
def deepBase (d : Nat) : Nat := 0x1000000 + d * Config.deepPages

/-- Takes a deep-tier frame of a die. -/
def takeDeep (s : State) (d : Nat) : Option (Nat × State) :=
  match s.deepFree.find? fun f => (f - 0x1000000) / Config.deepPages == d with
  | some f => some (f, { s with deepFree := s.deepFree.erase f })
  | none =>
    let n := fgetD s.deepNext d 0
    if Config.deepPages ≤ n then none
    else some (deepBase d + Config.deepPages - 1 - n, { s with deepNext := fset s.deepNext d (n + 1) })

/-- Copies a frame. -/
def copyFrame (s : State) (src dst : Nat) : State :=
  { s with mem :=
      let cells := s.mem.filter fun c => c.1 / 65536 == src
      let kept := s.mem.filter fun c => c.1 / 65536 != dst
      cells.foldl (fun m c => setByte m (dst * 65536 + c.1 % 65536) c.2) kept }

/-- Clears a frame to zero bytes. -/
def zeroFrame (s : State) (f : Nat) : State := { s with mem := s.mem.filter fun c => c.1 / 65536 != f }

/-! ### Discard (spec/23 R385) -/

/-- The discard point of a fault domain: its subtree is DISCARDED, the reservations of its units end (spec/21 R361), and its
queues set ERROR: those whose RGN is the INDEX of a region of it, as long as the INDEX is that region's (R235). -/
def discard (s : State) (dom : Nat) : State :=
  let sub := subtree s dom
  let idx := sub.filterMap fun k => (fget s.regions k).bind fun g =>
    if g.status ≠ 2 ∨ (fget s.entries g.index).any (fun e => e.type == 1 && e.obj == k) then some g.index else none
  let s := { s with regions := fmapv (fun k g =>
      if sub.contains k then { g with status := 2, discarding := (k == dom || g.discarding) } else g) s.regions }
  let gone := fun (u : Bool × Nat) =>
    (if u.1 then (fget s.cohorts u.2).map Cohort.region else (fget s.ranges u.2).map Range.region).any sub.contains
  let s := { s with clusters := fmapv (fun _ c =>
    if c.head.any gone then { c with head := none, reserved := [], due := true } else c) s.clusters }
  modHost s fun h => { h with queues := fmapv (fun _ q =>
    if idx.contains q.rgn then { q with error := true } else q) h.queues }

/-- Discards the fault domain of a region (R375). -/
def discardOf (s : State) (r : Nat) : State := discard s (faultDomain s r)

/-! ### Traps (spec/23 R370-R375) -/

/-- What the trap registers take (Table 23.2). -/
structure TrapRegs where
  cause : Nat
  info : Nat
  tpc : DWord
  tresume : DWord
  taddr : DWord
  defer : Bool
  deriving DecidableEq, Repr

/-- The wave after trap entry (Table 23.2): the U state held, all lanes live at the trap vector. -/
def Wave.enterTrap (w : Wave) (vec : DWord) (t : TrapRegs) : Wave :=
  { w with
    priv := .s
    held := ⟨w.pcs, w.lanes⟩
    pcs := splat vec
    lanes := splat .live
    chain := none
    tcause := BitVec.ofNat 32 (t.info % 256 * 256 + t.cause % 256)
    tpc := t.tpc
    tresume := t.tresume
    taddr := t.taddr
    tlog := BitVec.ofNat 32 ((if t.defer then 8 else 0) + min w.log.length 4) }

/-- Takes a trap: entry, or the discard of the fault domain when it is unrecoverable (R375). -/
def takeTrap (s : State) (wid : Nat) (t : TrapRegs) : State :=
  match getWave s wid with
  | none => s
  | some w =>
    let r := waveRegion s w
    let vec := effTrapvec s r
    if w.priv = .s ∨ vec = 0 then discardOf s r
    else setWave s wid (w.enterTrap vec t)

/-- Trap causes (Table 23.1). -/
def cILLEGAL : Nat := 0x01
def cPRIV : Nat := 0x02
def cROLE : Nat := 0x03
def cFMTDIV : Nat := 0x04
def cBADFMT : Nat := 0x05
def cBADRM : Nat := 0x06
def cPAGE : Nat := 0x07
def cPROT : Nat := 0x08
def cSEALED : Nat := 0x09
def cAMBERTAIL : Nat := 0x0A
def cGRANTED : Nat := 0x0B
def cALIGN : Nat := 0x0C
def cAPERTURE : Nat := 0x0D
def cBADTAG : Nat := 0x0E
def cFPX : Nat := 0x0F
def cDEADREG : Nat := 0x10
def cSTACK : Nat := 0x11
def cBRK : Nat := 0x12
def cPOOLOVF : Nat := 0x13
def cDEADLOCK : Nat := 0x14
def cSTALL : Nat := 0x15
def cPREEMPT : Nat := 0x16
def cSYSCALL : Nat := 0x18
def cOBJ : Nat := 0x19

/-- The place in the order of R373 of a POOLOVF that an engine raised, beside 30 of one that a wave raised. -/
def oENGINEOVF : Nat := 31

/-- Makes an asynchronous trap pending in a wave (R373), in the order of entry. -/
def addPending (s : State) (wid : Nat) (p : Pending) : State :=
  modWave s wid fun w =>
    { w with pend := w.pend.filter (fun q => q.order ≤ p.order) ++ [p] ++ w.pend.filter (fun q => p.order < q.order) }

/-! ### Status codes (spec/13 R237) -/

def stOK : Nat := 0
def stAGAIN : Nat := 1
def stSTALE : Nat := 2
def stRIGHTS : Nat := 3
def stDEAD : Nat := 4
def stFULL : Nat := 5
def stEMPTY : Nat := 6
def stNOSPACE : Nat := 7
def stNONAME : Nat := 8
def stTIMEOUT : Nat := 9
def stSEALED : Nat := 10
def stBUDGET : Nat := 11
def stBADARG : Nat := 12

/-! ### Handles and entries (spec/13 R234, R235, R410) -/

def hType (h : DWord) : Nat := h.toNat / 2 ^ 40 % 256
def hIndex (h : DWord) : Nat := h.toNat % 2 ^ 20
def hGen (h : DWord) : Nat := h.toNat / 2 ^ 20 % 2 ^ 20
def hRights (h : DWord) : Nat := h.toNat / 2 ^ 48 % 256
def hHome (h : DWord) : Nat := h.toNat / 2 ^ 56 % 4

def tREGION : Nat := 1
def tWAVE : Nat := 2
def tGANG : Nat := 3
def tRANGE : Nat := 4
def tPORT : Nat := 5
def tWAITSET : Nat := 6
def tTIMER : Nat := 7
def tSEGMENT : Nat := 8
def tPROXY : Nat := 9

def rRECV : Nat := 1
def rSEND : Nat := 2
def rGRANT : Nat := 4
def rDUP : Nat := 8
def rADMIN : Nat := 16

/-- The rights of a type's first handle (Table 13.23); a proxy's GRANT is given apart. -/
def typeRights (t : Nat) : Nat :=
  match t with
  | 1 => 16 + 8 + 1
  | 2 => 16 + 8 + 1
  | 3 => 8 + 1
  | 4 => 8 + 1
  | 5 => 16 + 8 + 4 + 2 + 1
  | 6 => 8 + 2 + 1
  | 7 => 8 + 2 + 1
  | 8 => 16 + 8 + 2 + 1
  | 9 => 8 + 2 + 1
  | _ => 0

/-- The handle of an entry (Table 13.8). -/
def handleOf (i : Nat) (e : Entry) : DWord :=
  BitVec.ofNat 64 (e.home * 2 ^ 56 + e.rights * 2 ^ 48 + e.type * 2 ^ 40 + e.gen * 2 ^ 20 + i)

/-- Makes an entry at the lowest free index (assumption log 10), or nothing when the table is full (R238). -/
def newEntry (s : State) (type obj rights holder home : Nat) : Option (DWord × State) :=
  let i := freeKey (fset s.entries 0 ⟨0, 0, 0, 0, 0, 0⟩ ++ (s.nextGen.filter fun p => decide (0xFFFFF < p.2)).map
    fun p => (p.1, ⟨0, 0, 0, 0, 0, 0⟩)) (s.entries.length + s.nextGen.length + 1) 1
  if 2 ^ 20 ≤ i then none
  else
    let e : Entry := ⟨type, obj, rights, holder, fgetD s.nextGen i 0, home⟩
    some (handleOf i e, { s with entries := fset s.entries i e })

/-- Whether the region that made an object is discarded. -/
def makerGone (s : State) (obj : Nat) : Bool :=
  match fget s.charged obj with
  | some c => regionStatus s c.region == 2
  | none => false

/-- Whether an object lives no longer (R235, R386): its region is discarded, or its own life has ended. -/
def objectDead (s : State) (e : Entry) : Bool :=
  match e.type with
  | 1 => regionStatus s e.obj == 2
  | 2 => match fget s.waves e.obj with
    | none => true
    | some w => regionStatus s (waveRegion s w) == 2
  | 3 => regionStatus s (gangRegion s e.obj) == 2
  | 4 => match fget s.ranges e.obj with
    | none => true
    | some r => regionStatus s r.region == 2
  | 5 => match fget s.ports e.obj with
    | none => true
    | some p => p.dead || regionStatus s p.region == 2
  | 6 => (fget s.waitsets e.obj).isNone || makerGone s e.obj
  | 7 => (fget s.timers e.obj).isNone || makerGone s e.obj
  | 8 => match fget s.segments e.obj with
    | none => true
    | some g => g.gone || regionStatus s g.region == 2
  | 9 => match fget s.proxies e.obj with
    | none => true
    | some p => p.ended || makerGone s e.obj
  | _ => true

/-- The check every handle operand passes, in the order of R235: the entry, or the status of the first failure. -/
def checkHandle (s : State) (rg : Nat) (h : DWord) (types : List Nat) (need : Nat) : Except Nat Entry :=
  if h.toNat / 2 ^ 58 ≠ 0 ∨ h.toNat / 2 ^ 53 % 8 ≠ 0 then .error stBADARG
  else match fget s.entries (hIndex h) with
    | none => .error stSTALE
    | some e =>
      if e.gen ≠ hGen h ∨ e.type ≠ hType h ∨ e.home ≠ hHome h then .error stSTALE
      else if !types.contains (hType h) then .error stBADARG
      else if (hRights h) &&& (255 - e.rights) ≠ 0 ∨ !within s rg e.holder ∨ need &&& (255 - hRights h) ≠ 0 then
        .error stRIGHTS
      else if objectDead s e then .error stDEAD
      else .ok e

/-- The first entry that names an object. -/
def entryOf (s : State) (type obj : Nat) : Option (Nat × Entry) :=
  s.entries.find? fun p => p.2.type == type && p.2.obj == obj

/-- Removes an object's charge once it has ended and its last entry has closed (R235). -/
def settleCharge (s : State) (obj : Nat) : State :=
  match fget s.charged obj with
  | some c => if c.ended && c.closed then { uncharge s .objects c.region 1 with charged := fdel s.charged obj } else s
  | none => s

/-- Notes that an object has ended. -/
def objectEnded (s : State) (obj : Nat) : State :=
  settleCharge { s with charged := fmod s.charged obj fun c => { c with ended := true } } obj

/-- Frees an entry; its index is next given out with the next generation, and retires after generation 0xF_FFFF. -/
def freeEntry (s : State) (i : Nat) : State :=
  match fget s.entries i with
  | none => s
  | some e =>
    let s := { s with entries := fdel s.entries i, nextGen := fset s.nextGen i (e.gen + 1) }
    if (entryOf s e.type e.obj).isNone then
      settleCharge { s with charged := fmod s.charged e.obj fun c => { c with closed := true } } e.obj
    else s

/-! ### Completion words and packets (spec/25 R399, R404) -/

/-- Writes a completion word to host memory, with REL's promotion (spec/25 R399). -/
def writeCompletion (s : State) (h : HeldWord) : State :=
  let s := if h.rel then writeBackAll s else s
  if h.caddr = 0 then s
  else hostWrite s (hostBase + h.caddr / 8 * 8 % hostBase) (leBytes 8 h.word.toNat)

/-! ### Traffic (spec/21 R366) -/

/-- The rate of traffic per 128 bytes in tenths of a nanojoule: HBM, deep tier, link, host port. -/
def trafficRate (kind : Nat) : Nat :=
  match kind with
  | 0 => 17
  | 1 => 37
  | 2 => 23
  | _ => 10

/-- Notes the energy of bytes moved for a region, in 1/128 of a tenth of a nanojoule, until it is charged. -/
def traffic (s : State) (r kind bytes : Nat) : State :=
  { s with moved := fset s.moved r (fgetD s.moved r 0 + bytes * trafficRate kind) }

/-- The kind of the memory traffic of a physical address: HBM, the deep tier or the host port. -/
def trafficKind (pa : Nat) : Nat :=
  match tierOf pa with
  | 0 => 0
  | 1 => 1
  | _ => 3

/-- The traffic of a page that the Cistern copies from one frame to another. It is noted under 0, which is no region, until it is
known whose request it belongs to. -/
def pageTraffic (s : State) (src dst : Nat) : State :=
  traffic (traffic s 0 (trafficKind (src * 65536)) 65536) 0 (trafficKind (dst * 65536)) 65536

/-- The number under which traffic that no region of this module has asked for is noted: it counts for the module alone. -/
def noRegion : Nat := 2 ^ 64

/-- What the Cistern has moved for a request is the traffic of the region that made it. -/
def askedBy (s : State) (r : Nat) : State :=
  match fget s.moved 0 with
  | none => s
  | some n => { s with moved := fset (fdel s.moved 0) r (fgetD s.moved r 0 + n) }

/-- Completes a packet: writes its completion word, or holds it until a firmware restart ends. -/
def completePacket (s : State) (pk : Nat) (status : Nat) : State :=
  match fget s.host.packets pk with
  | none => s
  | some p =>
    let w : HeldWord := ⟨p.caddr, BitVec.ofNat 64 (status * 2 ^ 56 + p.index % 2 ^ 56), p.rel, p.region⟩
    let s := modHost s fun h => { h with packets := fdel h.packets pk }
    if s.host.bootstate = 4 then modHost s fun h => { h with heldWords := h.heldWords ++ [w] }
    else writeCompletion s w

/-! ### Ends of waves, gangs, cohorts and ranges (spec/03 R31, R40, R41) -/

/-- Raises RANGEDONE and completes the packet of a range that is complete (R31, spec/21 R349). -/
def finishRange (s : State) (r : Nat) : State :=
  match fget s.ranges r with
  | none => s
  | some g =>
    if g.complete || !g.pending.isEmpty || !g.claims.isEmpty ||
        s.cohorts.any (fun c => c.2.range == r && !c.2.ended) then s
    else
      let s := { s with ranges := fset s.ranges r { g with complete := true } }
      let s := pushEvent s g.region 1 g.handle
      let s := objectEnded s r
      let s := { s with clusters := fmapv (fun _ c =>
        if c.head == some (false, r) then { c with head := none, reserved := [], due := true } else c) s.clusters }
      match g.packet with
      | none => s
      | some pk => completePacket s pk 0

/-- The stack slice of a gang: its first VA and that of the next (spec/15 R264). -/
def stackBase (index : Nat) : Nat := 0xFFFF700000000000 + index * 0x1000000

/-- Whether every operation of a gang's contexts has completed. -/
def Gang.idle (g : Gang) : Bool := g.ctxs.all fun c => c.ops.isEmpty

end Sys2Proof.Machine
end

