-- ==== Sys2Proof/Machine/Pool.lean ====
section
/-! DEFINITION. Pooled lines: contributions, merges and the bytes a merge leaves (spec/17 R302-R307). -/

namespace Sys2Proof.Machine

open Sys2Proof

/-- The element width of a pool operator (Table 17.3). -/
def poolWidth (op : Nat) : Nat := if op = 2 ∨ op = 14 then 8 else 4

/-- R140: the smaller or larger of two FP32 encodings, the canonical NaN for two NaNs. -/
def fminmax32 (mx : Bool) (x y : Nat) : Nat :=
  let a := decodeFloat fp32 x
  let b := decodeFloat fp32 y
  if a.isNan && b.isNan then fp32.nanBits
  else if a.isNan then y
  else if b.isNan then x
  else if mx then (if xlt true a b then y else x) else (if xlt true b a then y else x)

/-- One FP32 addition of a pooled line: RNE, FTZ off (R305). -/
def poolFadd (x y : Nat) : Nat :=
  (roundTo fp32 ⟨0, 0, false, 0⟩ (xadd false (decodeFloat fp32 x) (decodeFloat fp32 y)).1).bits

/-- The combining function ⊕ of an operator on element values (Table 17.3); exact sums are kept as integers. -/
def poolCombine (op : Nat) (x y : Int) : Int :=
  let u := x.toNat
  let v := y.toNat
  match op with
  | 1 => ((u + v) % 2 ^ 32 : Nat)
  | 2 => ((u + v) % 2 ^ 64 : Nat)
  | 3 => (max u v : Nat)
  | 4 => (min u v : Nat)
  | 5 => if signed 32 u < signed 32 v then y else x
  | 6 => if signed 32 v < signed 32 u then y else x
  | 7 => (u &&& v : Nat)
  | 8 => (u ||| v : Nat)
  | 9 => (u ^^^ v : Nat)
  | 10 => (poolFadd u v : Nat)
  | 11 => (fminmax32 true u v : Nat)
  | 12 => (fminmax32 false u v : Nat)
  | _ => x + y

/-- The exact fixed-point integer of a value under an anchor (R306), where it lies in range. -/
def anchored (op : Nat) (anchor : Int) (bits : Nat) : Option Int :=
  let f := if op = 14 then fp64 else fp32
  let half : Int := if op = 14 then 2 ^ 127 else 2 ^ 63
  let k : Int := anchor - (if op = 14 then 96 else 40)
  let x := (decodeFloat f bits).scale (-k)
  let r := roundInt ⟨0, 0, false, 0⟩ (-half) (half - 1) x
  if r.2 = fIV then none else some r.1

/-- What a contribution of an encoding adds to a partial; none where R306 rejects it. -/
def poolValue (op : Nat) (anchor : Int) (bits : Nat) : Option Int :=
  if op = 13 ∨ op = 14 then anchored op anchor bits else some (bits : Int)

/-- Combines two optional values; an absent one passes the other (R305). -/
def poolJoin (op : Nat) : Option Int → Option Int → Option Int
  | none, y => y
  | x, none => x
  | some x, some y => some (poolCombine op x y)

/-- One level of the merge tree. -/
def poolLevel (op : Nat) : List (Option Int) → List (Option Int)
  | a :: b :: t => poolJoin op a b :: poolLevel op t
  | l => l

/-- The sum of the partials of an element over dies and cores (R305). -/
def poolTotal (l : PoolLine) (e : Nat) : Option Int :=
  let die := fun d => ((fun x => (poolLevel l.op x)) <| poolLevel l.op <| poolLevel l.op <| poolLevel l.op <|
    poolLevel l.op <| poolLevel l.op <| (numsFrom 0 64).map fun c =>
      if c < 48 then fget l.parts ((48 * d + c) * 32 + e) else none).headD none
  poolJoin l.op (poolJoin l.op (poolJoin l.op (die 0) (die 1)) (die 2)) (die 3)

/-- The merged encoding of an element and whether it overflowed (R305, R306). -/
def poolMerged (l : PoolLine) (e init : Nat) : Nat × Bool :=
  match poolTotal l e with
  | none => (init, false)
  | some t =>
    if l.op = 13 ∨ l.op = 14 then
      let f := if l.op = 14 then fp64 else fp32
      let half : Int := if l.op = 14 then 2 ^ 127 else 2 ^ 63
      let k : Int := l.anchor - (if l.op = 14 then 96 else 40)
      match anchored l.op l.anchor init with
      | none => (f.nanBits, true)
      | some q0 =>
        let tt := q0 + t
        if tt < -half ∨ half ≤ tt then (f.nanBits, true)
        else ((roundTo f ⟨0, 0, false, 0⟩ (xOfScaled tt k false)).bits, false)
    else ((poolCombine l.op init t).toNat, false)

/-- The elements of a line some core contributed to. -/
def poolElems (l : PoolLine) : List Nat :=
  (numsFrom 0 (128 / poolWidth l.op)).filter fun e => l.parts.any fun p => p.1 % 32 == e

/-- The line's memory after a merge, and the addresses of the elements that overflowed. -/
def mergedMem (s : State) (line : Nat) (l : PoolLine) : List Host.Cell × List Nat :=
  (poolElems l).foldl (fun (acc : List Host.Cell × List Nat) e =>
    let w := poolWidth l.op
    let a := line * 128 + e * w
    let r := poolMerged l e (leNat (bytesAt s.mem a w))
    (setBytes acc.1 a (leBytes w r.1), if r.2 then acc.2 ++ [a] else acc.2)) (s.mem, [])

/-- Merges the line of an address if it is pooled (R304); the overflowed element, if any. -/
def mergeAt (s : State) (pa : Nat) : State × Option Nat :=
  match fget s.pool (pa / 128) with
  | none => (s, none)
  | some l =>
    let r := mergedMem s (pa / 128) l
    ({ s with mem := r.1, pool := fdel s.pool (pa / 128) }, r.2.head?)

/-- Merges every pooled line of a frame, as a Cistern access does (R304). -/
def mergeFrame (s : State) (f : Nat) : State :=
  s.pool.foldl (fun s p => if p.1 / 512 == f then (mergeAt s (p.1 * 128)).1 else s) s

/-- A byte as a read finds it, a pooled line at its merged value (R292, R305). -/
def viewByte (s : State) (pa : Nat) : BitVec 8 :=
  match fget s.pool (pa / 128) with
  | none => devByte s pa
  | some l => byteAt (mergedMem s (pa / 128) l).1 pa

/-- Applies one contribution (R302, R303): a line under another tag is merged first. -/
def contribute (s : State) (core op : Nat) (anchor : Int) (pa : Nat) (v : Int) : State × Option Nat :=
  let same := match fget s.pool (pa / 128) with
    | some l => l.op == op && l.anchor == anchor
    | none => false
  let m := if same then (s, none) else mergeAt s pa
  let s := m.1
  let l := (fget s.pool (pa / 128)).getD ⟨op, anchor, []⟩
  let key := core * 32 + pa % 128 / poolWidth op
  let nv := match fget l.parts key with
    | none => v
    | some o => poolCombine op o v
  ({ s with pool := fset s.pool (pa / 128) { l with parts := fset l.parts key nv } }, m.2)

end Sys2Proof.Machine
end

