-- ==== Sys2Proof/Machine/Tables.lean ====
section
/-! DEFINITION. Page tables: entries, walks, leaf updates and mapping by the Cistern (spec/15 R269-R273). -/

namespace Sys2Proof.Machine

open Sys2Proof

/-! ### Page-table entries (R270, Table 15.3) -/

def pBit (e : DWord) (i : Nat) : Bool := e.getLsbD i
def pFrame (e : DWord) : Nat := e.toNat / 2 ^ 22 % 2 ^ 36
def pTier (e : DWord) : Nat := e.toNat / 2 ^ 8 % 4
def pDgen (e : DWord) : Nat := e.toNat / 2 ^ 18 % 16
def pV (e : DWord) : Bool := pBit e 0
def pW (e : DWord) : Bool := pBit e 1
def pX (e : DWord) : Bool := pBit e 2
def pLeaf (e : DWord) : Bool := pBit e 3
def pAmber (e : DWord) : Bool := pBit e 4
def pGnt (e : DWord) : Bool := pBit e 5
def pGranted (e : DWord) : Bool := pBit e 6
def pCwin (e : DWord) : Bool := pBit e 7
def pMig (e : DWord) : Bool := pBit e 10
def pPin (e : DWord) : Bool := pBit e 11
def pDirty (e : DWord) : Bool := pBit e 16
def pSaved (e : DWord) : Bool := pBit e 17

/-- Sets or clears a bit of an entry. -/
def pSet (e : DWord) (i : Nat) (b : Bool) : DWord :=
  if b then e ||| BitVec.ofNat 64 (2 ^ i) else e &&& ~~~ BitVec.ofNat 64 (2 ^ i)

/-- Replaces a field of an entry. -/
def pField (e : DWord) (lo len v : Nat) : DWord :=
  (e &&& ~~~ BitVec.ofNat 64 ((2 ^ len - 1) * 2 ^ lo)) ||| BitVec.ofNat 64 (v % 2 ^ len * 2 ^ lo)

/-- Whether the reserved fields of an entry are zero. -/
def pReservedOk (e : DWord) : Bool := e.toNat / 2 ^ 58 == 0 && e.toNat / 2 ^ 12 % 16 == 0

/-- Whether a leaf is malformed (R271). -/
def leafBad (e : DWord) (big : Bool) : Bool :=
  !pReservedOk e || pTier e == 3 || (big && (pTier e != 0 || pAmber e || pGnt e || pFrame e % 8192 != 0)) ||
  tierOf (pFrame e * 65536) != pTier e || pCwin e != inWindow (pFrame e * 65536)

/-- Where a walk ends: at a leaf, with its address, its entry and the frame of the page; or nowhere, at an
entry with V 0 or at a malformed one. -/
inductive Walk where
  | leaf (at' : Nat) (e : DWord) (frame : Nat) (big : Bool)
  | invalid
  | malformed
  deriving DecidableEq, Repr

/-- An entry read physically. -/
def readEntry (s : State) (a : Nat) : DWord := BitVec.ofNat 64 (leNat ((numsFrom a 8).map (viewByte s)))

/-- The index of a VA at a level (R269). -/
def vaIndex (va level : Nat) : Nat :=
  match level with
  | 0 => va / 2 ^ 55 % 512
  | 1 => va / 2 ^ 42 % 8192
  | 2 => va / 2 ^ 29 % 8192
  | _ => va / 2 ^ 16 % 8192

/-- The walk from a table at a level, with as many levels left as the fuel (R269). -/
def walkFrom (s : State) (va : Nat) : Nat → Nat → Nat → Walk
  | 0, _, _ => .invalid
  | fuel + 1, level, t =>
    if tierOf t ≠ 0 then .malformed
    else
      let a := t + 8 * vaIndex va level
      let e := readEntry s a
      if !pV e then .invalid
      else if !pReservedOk e then .malformed
      else if level = 3 then
        (if !pLeaf e || leafBad e false then .malformed else .leaf a e (pFrame e) false)
      else if pLeaf e then
        (if level = 2 ∧ !leafBad e true then .leaf a e (pFrame e + va / 65536 % 8192) true else .malformed)
      else walkFrom s va fuel (level + 1) (pFrame e * 65536)

/-- The walk of a VA under a root (R269). -/
def walk (s : State) (root : DWord) (va : Nat) : Walk := walkFrom s va 4 0 root.toNat

/-- The global VAs whose pages the Cistern manages as stack (R265). -/
def isStackVA (va : Nat) : Bool := decide (0xFFFF700000000000 ≤ va ∧ va < 0xFFFF800000000000)

/-- The segment that holds a frame, with the page's place in it. -/
def segOfFrame (s : State) (f : Nat) : Option (Nat × Segment × Nat) :=
  s.segments.findSome? fun p =>
    if p.2.gone then none
    else match p.2.frames.findIdx? (· == f) with
      | some i => some (p.1, p.2, i)
      | none => none

/-- Whether a leaf maps a page of a sealed segment whose tails have met, of this module or, where no segment of this module holds its
frame, copied from another (spec/17 R315, spec/19 R334). -/
def sealedPage (s : State) (e : DWord) : Bool :=
  pAmber e && (match segOfFrame s (pFrame e) with
    | some (_, g, _) => g.status == 1 && g.commit == g.frozenAt
    | none => true)

/-- The cached form of a leaf: its entry with the frame of the 64 KiB page. -/
def cachedLeaf (e : DWord) (frame : Nat) : DWord := pField e 22 36 frame

/-- The bits of a leaf on which a cached copy and the table are compared: all but DIRTY, DGEN and SAVED. -/
def leafCore (e : DWord) : DWord := pField e 16 6 0

def tlbKey (root : DWord) (va : Nat) : Nat := root.toNat / 65536 * 2 ^ 48 + va / 65536 % 2 ^ 48

/-! ### Leaf updates by the device -/

/-- Writes an entry physically, its line plain before (spec/17 R304). -/
def putEntry (s : State) (a : Nat) (e : DWord) : State :=
  let t := touchLine (mergeAt s a).1 a
  { t with mem := setBytes t.mem a (leBytes 8 e.toNat) }

/-- Drops the cached translations of a page in every address space. -/
def dropPage (s : State) (va : Nat) : State :=
  { s with tlb := s.tlb.filter fun p => p.1 % 2 ^ 48 != va / 65536 % 2 ^ 48 }

/-- Changes the leaf of a VA. -/
def setLeaf (s : State) (root : DWord) (va : Nat) (f : DWord → DWord) : State :=
  match walk s root va with
  | .leaf a e _ _ => dropPage (putEntry s a (f e)) va
  | _ => s

/-- The region whose own PTROOT is effective for a region: the holder of its checkpoint counter (spec/23 R388). -/
def spaceOwner (s : State) (r : Nat) : Nat :=
  ((regionPath s r).find? fun n => match fget s.regions n with
    | none => false
    | some g => g.parent.isNone || g.ovr % 2 == 1).getD r

/-- The region that owns the address space with a given root: the first that is not discarded, if any. -/
def rootOwner (s : State) (root : DWord) : Option (Nat × Region) :=
  let owns := fun (p : Nat × Region) => (p.2.parent.isNone || p.2.ovr % 2 == 1) && p.2.ptroot == root
  match s.regions.find? fun p => owns p && p.2.status != 2 with
  | some p => some p
  | none => s.regions.find? owns

/-- The checkpoint generation that DGEN is compared with in the accesses of a region: its own counter's, or that of the ancestor whose
PTROOT it inherits (R272, spec/23 R388). -/
def regionGen (s : State) (r : Nat) : Nat := ((fget s.regions (spaceOwner s r)).map Region.gen).getD 0

/-- The current checkpoint generation of an address space, for a write that the Cistern makes to it for no region. -/
def spaceGen (s : State) (root : DWord) : Nat := ((rootOwner s root).map fun p => p.2.gen).getD 0

/-- The generation of the space of a leaf that is written for a region: the region's where the space is its own (spec/23 R388). -/
def genFor (s : State) (r : Nat) (root : DWord) : Nat := if effPtroot s r = root then regionGen s r else spaceGen s root

/-- Marks a leaf written, before the first write to it in a generation (R272). -/
def markDirty (s : State) (gen : Nat) (leafAt : Nat) (e : DWord) : State :=
  if leafAt = 0 then s
  else
    let g := gen % 16
    if pDirty e && pDgen e == g then s
    else
      let e0 := readEntry s leafAt
      putEntry s leafAt (pField (pSet e0 16 true) 18 4 g)

/-- The addresses of the entries that a walk reads. -/
def walkReads (s : State) (va : Nat) : Nat → Nat → Nat → List Nat
  | 0, _, _ => []
  | fuel + 1, level, t =>
    if tierOf t ≠ 0 then []
    else
      let a := t + 8 * vaIndex va level
      let e := readEntry s a
      if pV e && pReservedOk e && !pLeaf e then a :: walkReads s va fuel (level + 1) (pFrame e * 65536) else [a]

/-- The lines of a walk leave the pooled state, as with any read (spec/17 R304). -/
def settleWalk (s : State) (root : DWord) (va : Nat) : State :=
  if s.pool.isEmpty then s else (walkReads s va 4 0 root.toNat).foldl (fun s a => (mergeAt s a).1) s

/-- The lines of the walks of some pages from a VA leave the pooled state. -/
def settleWalks (s : State) (root : DWord) (va pages : Nat) : State :=
  if s.pool.isEmpty then s else (numsFrom 0 pages).foldl (fun s i => settleWalk s root (va + 65536 * i)) s

/-- Notes a page in HBM as resident from its first use, where no earlier time is known: one that software mapped there itself
(R287; assumption log 83). -/
def noteResident (s : State) (e : DWord) : State :=
  if pTier e = 0 ∧ fget s.resident (pFrame e) = none then { s with resident := fset s.resident (pFrame e) s.time } else s

/-- Notes a translation as cached (R273), once the walk has read its lines; those of the page cached before stay until they are
dropped. -/
def fillTlb (s : State) (root : DWord) (va : Nat) (e : DWord) : State :=
  let t := settleWalk (noteResident s e) root va
  let old := (fgetD t.tlb (tlbKey root va) []).filter fun c => leafCore c != leafCore e
  { t with tlb := fset t.tlb (tlbKey root va) (e :: old) }

/-- Whether a checkpoint copy under way has still to read the page in a frame: a write to it must wait, through whatever VA
(spec/17 R320). -/
def ckptHolds (s : State) (f : Nat) : Bool :=
  s.regions.any fun p => p.2.ckRun.any fun run => run.pend.any fun page => match walk s p.2.ptroot (page * 65536) with
    | .leaf _ _ g _ => g == f
    | _ => false

/-- Whether an access must wait for the snoop response of its line (spec/25 R395). -/
def flipHolds (s : State) (pa n : Nat) : Bool :=
  match s.host.flip with
  | some f => f.toDevice && f.lines.any fun l => decide (l * 128 < pa + n ∧ pa < l * 128 + 128)
  | none => false

/-- Whether a table entry cannot be written now: its line waits for a snoop response (spec/25 R395), or a checkpoint copy has still to
read its page (spec/17 R320). -/
def entryHeld (s : State) (a : Nat) : Bool := flipHolds s a 8 || ckptHolds s (a / 65536)

/-- Whether anything can hold a table entry now. -/
def holdsAny (s : State) : Bool := s.host.flip.isSome || s.regions.any fun p => p.2.ckRun.isSome

/-- Whether the walk of a VA reads a line that waits for a snoop response. -/
def walkHeld (s : State) (root : DWord) (va : Nat) : Bool :=
  s.host.flip.isSome && (walkReads s va 4 0 root.toNat).any fun a => flipHolds s a 8

/-- Whether a change of the tables on the walk of a VA must wait. -/
def tablesHeld (s : State) (root : DWord) (va : Nat) : Bool :=
  holdsAny s && (walkReads s va 4 0 root.toNat).any (entryHeld s)

/-- The same of the pages from a VA. DESIGN CHOICE: the unmapping of a stack slice at a gang's end, of a CSA at a discard, and of a landing
slot at its release does not ask, and writes its entries at once (assumption log 108). -/
def rangeHeld (s : State) (root : DWord) (va pages : Nat) : Bool :=
  holdsAny s && (numsFrom 0 pages).any fun i => tablesHeld s root (va + 65536 * i)

/-- The 64 KiB leaf that maps a VA. -/
def pageLeaf (s : State) (root : DWord) (va : Nat) : Option (Nat × DWord × Nat) :=
  match walk s root va with
  | .leaf a e f false => some (a, e, f)
  | _ => none

/-- The leaf that maps a VA, of either size. -/
def pageLeafAny (s : State) (root : DWord) (va : Nat) : Option (Nat × DWord × Nat) :=
  match walk s root va with
  | .leaf a e f _ => some (a, e, f)
  | _ => none

/-- The address of the leaf entry of a VA, where its tables stand. -/
def entryAt (s : State) (va : Nat) : Nat → Nat → Nat → Option Nat
  | 0, _, _ => none
  | fuel + 1, level, t =>
    if tierOf t ≠ 0 then none
    else
      let a := t + 8 * vaIndex va level
      let e := readEntry s a
      if level = 3 then some a
      else if pV e && pReservedOk e && !pLeaf e then entryAt s va fuel (level + 1) (pFrame e * 65536) else none

/-- Writes the leaf entry of a VA, whatever stands there. -/
def writeEntry (s : State) (root : DWord) (va : Nat) (e : DWord) : State :=
  match entryAt s va 4 0 root.toNat with
  | some a => dropPage (putEntry s a e) va
  | none => s

/-! ### Mapping by the Cistern -/

/-- Ensures the tables down to the leaf level of a VA, taking zeroed frames on a die charged to HBMP of a region, and
gives the leaf's address. -/
def ensureTables (s : State) (r : Nat) (die : Nat) (va : Nat) : Nat → Nat → Nat → Option (Nat × State)
  | 0, _, _ => none
  | fuel + 1, level, t =>
    let a := t + 8 * vaIndex va level
    if level = 3 then some (a, s)
    else
      let e := readEntry s a
      if pV e && pReservedOk e && !pLeaf e && tierOf (pFrame e * 65536) == 0 then ensureTables s r die va fuel (level + 1) (pFrame e * 65536)
      else match takeHbm s die with
        | none => none
        | some (f, s1) =>
          let s2 := traffic (charge (zeroFrame s1 f) .hbm r 1) r 0 65536
          let s3 := putEntry s2 a (pField 1 22 36 f)
          ensureTables s3 r die va fuel (level + 1) (f * 65536)

/-- Maps a page at a VA with the given leaf. -/
def mapPage (s : State) (root : DWord) (r die va : Nat) (leaf : DWord) : Option State :=
  match ensureTables s r die va 4 0 root.toNat with
  | none => none
  | some (a, s1) => some (dropPage (putEntry s1 a leaf) va)

/-- A leaf of an HBM frame with the given permission bits. -/
def hbmLeaf (frame : Nat) (w amber gnt : Bool) : DWord :=
  pField (pSet (pSet (pSet 9 1 w) 4 amber) 5 gnt) 22 36 frame

end Sys2Proof.Machine
end

