-- ==== Sys2Proof/Machine/Residency.lean ====
section
/-! DEFINITION. Which pages are resident: victims, evictions, and whether and how the Cistern can resolve a fault
(spec/15 R265, R275, R285-R290). -/

namespace Sys2Proof.Machine

open Sys2Proof

/-! ### Address spaces and their leaves -/

/-- The regions below one, depth first. -/
def depthFirst (s : State) : Nat → Nat → List Nat
  | 0, _ => []
  | fuel + 1, r => r :: (s.regions.filter fun p => p.2.parent == some r).flatMap fun p => depthFirst s fuel p.1

/-- The regions that own an address space, in the tree's depth-first order, with their roots. -/
def spaces (s : State) : List (Nat × DWord) :=
  ((s.regions.filter fun p => p.2.parent.isNone).flatMap fun p => depthFirst s 9 p.1).filterMap fun r =>
    match fget s.regions r with
    | some g => if g.parent.isNone || g.ovr % 2 == 1 then some (r, g.ptroot) else none
    | none => none

/-- A mapped page of 64 KiB: its space, VA, entry address, entry and frame. -/
structure Leaf where
  owner : Nat
  root : DWord
  va : Nat
  at' : Nat
  e : DWord
  frame : Nat
  deriving DecidableEq, Repr

/-- The first VA bits that an entry of a level adds. -/
def levelShift (level : Nat) : Nat :=
  match level with
  | 0 => 55
  | 1 => 42
  | 2 => 29
  | _ => 16

/-- The entries of the tables from one down: VA, level, entry address, entry. -/
def entriesFrom (s : State) : Nat → Nat → Nat → Nat → List (Nat × Nat × Nat × DWord)
  | 0, _, _, _ => []
  | fuel + 1, level, t, va0 =>
    if tierOf t ≠ 0 then []
    else (numsFrom 0 (if level = 0 then 512 else 8192)).flatMap fun i =>
      let a := t + 8 * i
      let e := readEntry s a
      let va := va0 + i * 2 ^ levelShift level
      if !pV e || !pReservedOk e then []
      else if level = 3 ∨ pLeaf e = true then [(va, level, a, e)]
      else (va, level, a, e) :: entriesFrom s fuel (level + 1) (pFrame e * 65536) va

/-- The 64 KiB leaves of a space. -/
def leavesOf (s : State) (owner : Nat) (root : DWord) : List Leaf :=
  (entriesFrom s 4 0 root.toNat 0).filterMap fun x =>
    if x.2.1 == 3 && pLeaf x.2.2.2 && !leafBad x.2.2.2 false then
      some ⟨owner, root, x.1, x.2.2.1, x.2.2.2, pFrame x.2.2.2⟩ else none

/-- The frames that hold the tables of a space. -/
def spaceTables (s : State) (root : DWord) : List Nat :=
  root.toNat / 65536 :: (entriesFrom s 4 0 root.toNat 0).filterMap fun x =>
    if x.2.1 != 3 && !pLeaf x.2.2.2 then some (pFrame x.2.2.2) else none

/-- The frames that hold tables. -/
def tableFrames (s : State) : List Nat := (spaces s).flatMap fun p => spaceTables s p.2

/-- The lines of a space's tables leave the pooled state, as the Cistern reads them all (spec/17 R304). -/
def settleTables (s : State) (root : DWord) : State :=
  if s.pool.isEmpty then s else (spaceTables s root).foldl mergeFrame s

/-- Every 64 KiB leaf of the module, in the depth-first order of the spaces. -/
def allLeaves (s : State) : List Leaf := (spaces s).flatMap fun p => leavesOf s p.1 p.2

/-- The region a page is charged to: the first whose PTROOT maps it (R287). -/
def pageCharge (s : State) (root : DWord) (frame : Nat) : Nat :=
  match (allLeaves s).find? fun l => l.frame == frame && !pGranted l.e with
  | some l => l.owner
  | none => ((rootOwner s root).map Prod.fst).getD 0

/-! ### Victims (R286, R287) -/

/-- The place of a range in the order of acceptance, 0 while it holds a claim or a placed cohort. -/
def rangePos (s : State) (r : Nat) : Nat :=
  match fget s.ranges r with
  | none => 0
  | some g =>
    if !g.claims.isEmpty || s.cohorts.any (fun c => c.2.range == r && c.2.resident && !c.2.ended) then 0
    else 1 + (s.ranges.filter fun p => !p.2.complete &&
      decide (p.2.accepted * 2 ^ 20 + hIndex p.2.handle < g.accepted * 2 ^ 20 + hIndex g.handle)).length

/-- The leaves that map a frame and are not GRANTED, in the depth-first order of the spaces. -/
def leavesAt (s : State) (frame : Nat) : List Leaf := (allLeaves s).filter fun l => l.frame == frame && !pGranted l.e

/-- NU of a page: the least place of a range whose use list holds it, in any space that maps it. -/
def nextUse (s : State) (l : Leaf) : Option Nat :=
  let ms := leavesAt s l.frame
  let ps := s.ranges.filterMap fun p =>
    let root := effPtroot s p.2.region
    if !p.2.complete && ms.any fun m => m.root == root &&
        p.2.uses.any fun u => decide (u.1 ≤ m.va / 65536 ∧ m.va / 65536 < u.1 + u.2) then some (rangePos s p.1) else none
  minBy id ps

/-- Whether a leaf of a frame cannot be written now (spec/17 R320, spec/25 R395). -/
def leavesHeld (s : State) (frame : Nat) : Bool := holdsAny s && (leavesAt s frame).any fun l => entryHeld s l.at'

/-- Whether a leaf may be chosen. -/
def evictable (s : State) (l : Leaf) : Bool :=
  pTier l.e == 0 && !pAmber l.e && !pPin l.e && !pMig l.e && !pCwin l.e && !pGranted l.e && !isStackVA l.va &&
  !(tableFrames s).contains l.frame && !leavesHeld s l.frame

/-- The order of victims: greater NU first, then earlier residence, then lower address. -/
def betterVictim (s : State) (a b : Leaf) : Bool :=
  let nu := fun l => match nextUse s l with
    | none => (1, 0)
    | some n => (0, n)
  let x := nu a
  let y := nu b
  let later := decide (y.1 < x.1) || (x.1 == y.1 && decide (y.2 < x.2))
  let same := x == y
  let ra := fgetD s.resident a.frame 0
  let rb := fgetD s.resident b.frame 0
  later || (same && (decide (ra < rb) || (ra == rb && decide (a.frame < b.frame))))

/-- The victim among leaves a scope admits whose DEEPP charge is not refused. -/
def victim (s : State) (scope : Leaf → Nat → Bool) : Option Leaf :=
  ((allLeaves s).filter fun l =>
      let r := pageCharge s l.root l.frame
      evictable s l && scope l r && mayCharge s .deep r 1 && (takeDeep s (l.frame / Config.hbmPages)).isSome).foldl
    (fun best l => match best with
      | none => some l
      | some b => if betterVictim s l b then some l else some b) none

/-- Rewrites every leaf of a frame that is not GRANTED, and drops its cached translations (R273). -/
def retarget (s : State) (frame : Nat) (f : DWord → DWord) : State :=
  (leavesAt s frame).foldl (fun s l => dropPage (putEntry s l.at' (f (readEntry s l.at'))) l.va) s

/-- What the device remembers of a page by its frame goes with it: the times of its moves (R290), the bytes that an operation's own
writes replaced (spec/13 R211), and the pages of landing slots (spec/19 R333). -/
def moveUndo (s : State) (old new : Nat) : State :=
  let f := fun (m : FMap (BitVec 8)) => m.map fun p =>
    if p.1 / 65536 = old then (new * 65536 + p.1 % 65536, p.2) else p
  { s with
    moves := match fget s.moves old with
      | some ts => fset (fdel s.moves old) new ts
      | none => fdel s.moves new
    gangs := fmapv (fun _ g => { g with ctxs := g.ctxs.map fun c => { c with ops := c.ops.map fun o =>
      { o with undo := f o.undo } } }) s.gangs
    ports := fmapv (fun _ p => { p with busy := fmapv (fun _ b =>
      { b with pages := b.pages.map fun x => if x.2 = old then (x.1, new) else x }) p.busy }) s.ports
    host := { s.host with packets := fmapv (fun _ p => { p with undo := f p.undo }) s.host.packets } }

/-- Drops every cached translation to a frame, through whatever VA it was cached (R273, R288). -/
def dropFrame (s : State) (f : Nat) : State :=
  { s with tlb := (fmapv (fun _ es => es.filter fun e => pFrame e != f) s.tlb).filter fun p => !p.2.isEmpty }

/-- Moves the contents of a page to another frame, and drops what is cached of the old one. -/
def movePage (s : State) (old new : Nat) : State := dropFrame (moveUndo (copyFrame s old new) old new) old

/-! ### Pages under MIG (R273, R289) -/

/-- Begins the migration of a page: MIG is set in its leaves, whose entries are kept for the write that ends it. -/
def startMove (s : State) (root : DWord) (va frame die : Nat) : State :=
  let ls := leavesAt s frame
  let t := retarget s frame fun e => pSet e 10 true
  { t with migs := fset t.migs frame ⟨root, va, die, ls.map fun l => ⟨l.root, l.va, l.at', l.e⟩⟩ }

/-- The entry of a leaf under migration, as it will stand when the migration ends. -/
def modMoving (s : State) (a : Nat) (f : DWord → DWord) : State :=
  { s with migs := fmapv (fun _ m => { m with leaves := m.leaves.map fun l => if l.at' = a then { l with e := f l.e } else l }) s.migs }

/-- Whether a migration cannot end yet: a checkpoint copy has still to read the page, or a leaf of it cannot be written (spec/17 R320,
spec/25 R395). -/
def moveWaits (s : State) (frame : Nat) (m : Migration) : Bool :=
  holdsAny s && (ckptHolds s frame || m.leaves.any fun l => entryHeld s l.at')

/-- Ends a migration: the Cistern's write of each leaf replaces what software stored there meanwhile (R273). -/
def endMove (s : State) (frame : Nat) (f : Moving → DWord) : State :=
  match fget s.migs frame with
  | none => s
  | some m =>
    let t := (m.leaves.filter fun l => (spaces s).any fun p => p.2 == l.root).foldl
      (fun s l => dropPage (putEntry s l.at' (f l)) l.va) s
    { t with migs := fdel t.migs frame }

/-- A leaf that the Cistern unmaps takes no part any more in a migration of its page. -/
def dropMoving (s : State) (a : Nat) : State :=
  { s with migs := fmapv (fun _ m => { m with leaves := m.leaves.filter fun l => l.at' != a }) s.migs }

/-- The line caches of a frame brought to memory before it is copied. -/
def settleFrame (s : State) (f : Nat) : State :=
  (s.hostLines.filter fun p => p.1 / 512 == f).foldl (fun s p => touchLine s (p.1 * 128)) (mergeFrame s f)

/-- A frame of host memory copied as device agents see it: the lines that L2 holds go over its bytes (spec/17 R300); their
dirty bytes reach the host and the lines leave L2. -/
def copyHostFrame (s : State) (old new : Nat) : State :=
  let ls := s.hostL2.filter fun p => p.1 / 512 == old
  let t := movePage (ls.foldl (fun s p => writeBack s p.1) s) old new
  { t with
    mem := ls.foldl (fun m p => setBytes m (new * 65536 + p.1 % 512 * 128) (p.2.bytes.take 128)) t.mem
    hostL2 := t.hostL2.filter fun p => p.1 / 512 != old }

/-- Evicts a page to the deep tier of its die (R288). -/
def evict (s : State) (l : Leaf) : State :=
  let r := pageCharge s l.root l.frame
  match takeDeep s (l.frame / Config.hbmPages) with
  | none => s
  | some (d, s1) =>
    let s2 := movePage (settleFrame s1 l.frame) l.frame d
    let s3 := retarget s2 l.frame fun e => pField (pField e 8 2 1) 22 36 d
    pageTraffic (charge (uncharge (freeFrame s3 l.frame) .hbm r 1) .deep r 1) l.frame d

/-- Drops replicas of a die while the taking of `n` frames would leave fewer than 16 384 free (spec/17 R313). -/
def dropReplicas (die n : Nat) (s : State) : State :=
  (s.segments.flatMap fun p => (p.2.replicas.filter fun r => r.1 % 4 == die).map fun r => (p.1, r)).foldl (fun s x =>
    if 16384 + n ≤ freeHbm s die then s
    else freeFrame { s with segments := fmod s.segments x.1 fun g => { g with replicas := g.replicas.filter (· != x.2) } }
      x.2.2) s

/-- Makes room on a die for `n` frames charged to a region, evicting where R285 says once the die's replicas are dropped (spec/17
R313); none where it cannot. A prefetch takes no frame of the last 16 384 without a victim. -/
def makeRoomFor (prefetch : Bool) (die r n : Nat) : Nat → State → Option State
  | 0, _ => none
  | fuel + 1, s =>
    let s := dropReplicas die n s
    let refuses := (regionPath s r).find? fun k => match fget s.regions k with
      | none => true
      | some g => decide (resLimit s .hbm k < g.cHbm + n)
    match refuses with
    | some k => match victim s fun _ owner => within s owner k with
      | some v => makeRoomFor prefetch die r n fuel (evict s v)
      | none => none
    | none =>
      if freeHbm s die < 16384 then
        match victim s fun l _ => l.frame / Config.hbmPages == die with
        | some v =>
          let s' := evict s v
          if n ≤ freeHbm s' die then some s' else makeRoomFor prefetch die r n fuel s'
        | none => if n ≤ freeHbm s die ∧ prefetch = false then some s else none
      else some s

/-- Room for a fill that an access waits for. -/
def makeRoom (die r n : Nat) (fuel : Nat) (s : State) : Option State := makeRoomFor false die r n fuel s

/-! ### Resolution (R265, R275, R289, R290) -/

/-- The gang whose stack slice holds a VA, while its cohort has not ended. -/
def stackGang (s : State) (va : Nat) : Option (Nat × Gang) :=
  s.gangs.find? fun p => p.2.index == (va - 0xFFFF700000000000) / 0x1000000 && (match fget s.cohorts p.2.cohort with
    | some c => !c.ended
    | none => false)

/-- The region charged for a stack page: the gang's, or else the accessing space's. -/
def stackRegion (s : State) (root : DWord) (va : Nat) : Nat :=
  let acc := ((rootOwner s root).map Prod.fst).getD 0
  match stackGang s va with
  | none => acc
  | some p => ((fget s.cohorts p.2.cohort).map Cohort.region).getD acc

/-- Tables that a VA still lacks. -/
def tablesMissing (s : State) (va : Nat) : Nat → Nat → Nat → Nat
  | 0, _, _ => 0
  | fuel + 1, level, t =>
    if level = 3 then 0
    else
      let e := readEntry s (t + 8 * vaIndex va level)
      if pV e && pReservedOk e && !pLeaf e && tierOf (pFrame e * 65536) == 0 then tablesMissing s va fuel (level + 1) (pFrame e * 65536) else 3 - level

/-- Whether a move now would be the fourth within 10 000 000 ticks of the page in a frame (R290). -/
def fourthMove (s : State) (frame : Nat) : Bool :=
  decide (3 ≤ ((fgetD s.moves frame []).filter fun t => ticks s ≤ t + 10000000).length)

/-- Notes a move of the page that now lies in a frame, keeping the last three. -/
def noteMove (s : State) (frame : Nat) : State :=
  { s with moves := fset s.moves frame ((ticks s :: fgetD s.moves frame []).take 3) }

/-- Room for the resolution of a page's fault, or for its prefetch, taking frames on a die: the state with the room made; none where
a charge is refused or no frame can be made free. -/
def fillRoomFor (prefetch : Bool) (s : State) (root : DWord) (va die : Nat) : Option State :=
  match walk s root va with
  | .leaf _ e f _ =>
    match pTier e with
    | 1 => makeRoomFor prefetch ((f - 0x1000000) / Config.deepPages) (pageCharge s root f) 1 64 s
    | 2 => if fourthMove s f then some s else makeRoomFor prefetch die (pageCharge s root f) 1 64 s
    | _ => some s
  | _ =>
    if tierOf root.toNat ≠ 0 then none
    else makeRoomFor prefetch die (stackRegion s root va) (1 + tablesMissing s va 4 0 root.toNat) 64 s

/-- Room for a fill that an access waits for. -/
def fillRoom (s : State) (root : DWord) (va die : Nat) : Option State := fillRoomFor false s root va die

/-- Whether the Cistern could resolve a fault on a page for an access from a die (R289: a page moves to the die of the
faulting core; a stack page is mapped there too, assumption log 9). -/
def fillable (s : State) (root : DWord) (va die : Nat) : Bool := (fillRoom s root va die).isSome

/-- A stack page: zeroed, which is traffic of HBM, and charged to the gang's region (R265, spec/21 R366). -/
def fillStack (s : State) (root : DWord) (va die : Nat) : State :=
  let r := stackRegion s root va
  match takeHbm s die with
  | none => s
  | some (f, s1) =>
    (mapPage (traffic (charge (zeroFrame s1 f) .hbm r 1) 0 0 65536) root r die (va / 65536 * 65536) (hbmLeaf f true false false)).getD s

/-- A fill from the deep tier (R275): one write of the whole page. -/
def fillDeep (s : State) (root : DWord) (frame : Nat) : State :=
  let r := pageCharge s root frame
  match takeHbm s ((frame - 0x1000000) / Config.deepPages) with
  | none => s
  | some (f, s1) =>
    let s2 := movePage s1 frame f
    let s3 := retarget s2 frame fun e => pField (pField e 8 2 0) 22 36 f
    pageTraffic (charge (uncharge (freeFrame s3 frame) .deep r 1) .hbm r 1) frame f

/-- The leaf of a page that has moved into an HBM frame: it is written, so each space marks it dirty in its own generation
(R272, R289). -/
def landedLeaf (s : State) (f gen : Nat) (e : DWord) : DWord :=
  pField (pSet (pSet (pField (pField e 8 2 0) 22 36 f) 10 false) 16 true) 18 4 (gen % 16)

/-- Moves a host-side page's contents into an HBM frame of a die, taken and charged; none where it cannot be (R285, R289). -/
def bringHome (s : State) (root : DWord) (frame die : Nat) : Option (Nat × State) :=
  let r := pageCharge s root frame
  (makeRoom die r 1 64 s).bind fun s1 => (takeHbm s1 die).map fun x =>
    (x.1, pageTraffic (charge (copyHostFrame x.2 frame x.1) .hbm r 1) frame x.1)

/-- A page brought into HBM at once, for an access of the device itself; none while it cannot be. -/
def residentNow (s : State) (root : DWord) (va die : Nat) : Option State :=
  let s := settleWalk s root va
  match walk s root va with
  | .leaf _ e f big =>
    if big || pGranted e then some s
    else if pMig e || tablesHeld s root va || (pTier e != 0 && leavesHeld s f) then none
    else match pTier e with
      | 1 => (fillRoom s root va die).map fun s1 => fillDeep s1 root f
      | 2 =>
        if pPin e then some s
        else if fourthMove s f then some (retarget s f fun e => pSet e 11 true)
        else (bringHome (startMove s root va f die) root f die).map fun x =>
          noteMove (endMove x.2 f fun l => landedLeaf x.2 x.1 (spaceGen x.2 l.root) l.e) x.1
      | _ => some s
  | _ => some s

/-- Resolves a page's fault, or starts its migration (R275, R289), which takes its frame when it ends; unchanged where there
is nothing to resolve. -/
def resolvePage (s : State) (root : DWord) (va die : Nat) : State :=
  let s := settleWalk s root va
  match walk s root va with
  | .leaf _ e f big =>
    if big || pMig e || pGranted e || tablesHeld s root va || leavesHeld s f then s
    else match pTier e, fillRoom s root va die with
      | 1, some s1 => fillDeep s1 root f
      | 2, some _ =>
        if pPin e then s
        else if fourthMove s f then retarget s f fun e => pSet e 11 true
        else startMove s root va f die
      | _, _ => s
  | _ =>
    if isStackVA va && !tablesHeld s root va then match fillRoom s root va die with
      | some s1 => fillStack s1 root va die
      | none => s
    else s

end Sys2Proof.Machine
end

