-- ==== Sys2Proof/Machine/Translate.lean ====
section
/-! DEFINITION. Apertures and translation (spec/15 R261-R277), and byte access through them. -/

namespace Sys2Proof.Machine

open Sys2Proof

/-- The kind of an access. -/
inductive Acc where
  | read | write | fetch | append | pool
  deriving DecidableEq, Repr

/-- The outcome of a translation (Table 11.9). -/
inductive Xlat where
  | ok (pa : Nat) (leafAt : Nat) (e : DWord)
  | stall
  | resolvable
  | fail (cause : Nat)
  deriving DecidableEq, Repr

/-- Who asks for a translation: the die its page would be filled on (R289), and the lane (R273). -/
structure Asker where
  die : Nat
  lane : Nat
  deriving DecidableEq, Repr

/-- The die of a core. -/
def dieOf (core : Nat) : Nat := core / 48

/-- The die of a gang; the first where there is none. -/
def gangDie (s : State) (gid : Nat) : Nat := dieOf (((fget s.gangs gid).map Gang.core).getD 0)

/-- The cached translations of a page that differ from what the tables give (R273). -/
def oldEntries (s : State) (root : DWord) (va : Nat) (cur : Option DWord) : List DWord :=
  (fgetD s.tlb (tlbKey root va) []).filter fun c => !cur.any fun e => leafCore e == leafCore c

/-- What the tables and the caches give for a VA: the entry's address, the entry and the frame (R269, R273). A write through
an old entry marks the leaf that stands in its place. -/
def lookup (s : State) (root : DWord) (va lane : Nat) : Option (Nat × DWord × Nat) :=
  let cur := match walk s root va with
    | .leaf a e f _ => some (a, cachedLeaf e f, f)
    | _ => none
  match oldEntries s root va (cur.map fun x => x.2.1) with
  | [] => cur
  | c :: cs => match Config.useStale s.fresh lane va with
    | 0 => cur
    | n + 1 => match (c :: cs)[n]? with
      | some c => some ((cur.map Prod.fst).getD 0, c, pFrame c)
      | none => cur

/-- Translation of an access of `n` bytes that lie in one page, tested in the order of R271. A page whose resolution
would be refused is unresolvable (R265, R275); a walk waits for lines whose snoop response is awaited (spec/25 R395). DESIGN CHOICE: a
page of a sealed segment that another module has sent is readable to its end, since its copy carries no tail (assumption log 106). -/
def translate (s : State) (root : DWord) (va n : Nat) (k : Acc) (q : Asker) : Xlat :=
  if walkHeld s root va then .stall
  else match lookup s root va q.lane with
  | none => if !isStackVA va then .fail cPAGE else if fillable s root va q.die then .resolvable else .fail cSTACK
  | some (a, e, f) =>
    let pa := f * 65536 + va % 65536
    let seg := if pAmber e then segOfFrame s f else none
    let freeing := match seg with
      | some (_, g, _) => g.status == 2
      | none => false
    if freeing then .fail cPAGE
    else if pMig e then .stall
    else if pGranted e then .fail cGRANTED
    else if k = .fetch ∧ !pX e then .fail cPROT
    else if (k = .write ∨ k = .pool ∨ k = .append) ∧ !pW e then .fail cPROT
    else if k = .pool ∧ (pCwin e ∨ pTier e = 2) then .fail cPROT
    else if k = .append ∧ !pAmber e then .fail cPROT
    else if pAmber e ∧ (k = .write ∨ k = .pool) then .fail cAMBERTAIL
    else if pAmber e && k == .read && (match seg with
        | some (_, g, i) => decide (g.commit < i * 65536 + va % 65536 + n)
        | none => false) then .fail cAMBERTAIL
    else if pTier e = 1 ∨ (pTier e = 2 ∧ !pPin e) then (if fillable s root va q.die then .resolvable else .fail cPAGE)
    else .ok pa a e

/-! ### Apertures (R261-R264) -/

/-- The storage a data address names. -/
inductive Target where
  | glob (va : Nat)
  | spad (g p : Nat)
  | stack (o : Nat)
  | bad
  deriving DecidableEq, Repr

/-- The scratchpad place of an offset for a gang (R262). -/
def spadTarget (s : State) (gid off n : Nat) : Target :=
  let win := off / 0x400000
  let p := off % 0x400000
  match fget s.gangs gid with
  | none => .bad
  | some g =>
    let named := if win = 0 then some gid
      else match fget s.cohorts g.cohort with
        | none => none
        | some c => c.gangs[win - 1]?
    match named with
    | none => .bad
    | some t => match fget s.gangs t with
      | none => .bad
      | some tg => if p + n ≤ tg.spadg * 32768 then .spad t p else .bad

/-- Steers a data address (Table 15.1). -/
def steer (s : State) (gid va n : Nat) : Target :=
  if va < 0xFFFF800000000000 then .glob va
  else if va < 0xFFFF800001400000 then spadTarget s gid (va - 0xFFFF800000000000) n
  else if 0xFFFF900000000000 ≤ va ∧ va < 0xFFFF900000004000 then .stack (va - 0xFFFF900000000000)
  else .bad

/-- The global address of byte `o` of a lane's private window (R264). -/
def stackVA (index w lane o : Nat) : Nat := stackBase index + w * 0x80000 + o / 4 * 128 + 4 * lane + o % 4

/-! ### Places and bytes -/

/-- Where a byte lives. -/
inductive Loc where
  | phys (pa : Nat)
  | spad (g p : Nat)
  deriving DecidableEq, Repr

/-- A place an access reached: its bytes, and the leaf it came through. -/
structure Place where
  locs : List Loc
  marks : List (Nat × DWord × Nat)
  deriving DecidableEq, Repr

/-- The outcome of resolving a lane's access. -/
inductive Reach where
  | ok (p : Place)
  | stall
  | resolvable
  | fail (cause : Nat)
  deriving DecidableEq, Repr

/-- Resolves `n` bytes of global memory that lie in one page. A write waits for what holds its page or, since it may mark its leaf (R272),
the leaf's table (spec/17 R320, spec/25 R395). -/
def reachGlobal (s : State) (root : DWord) (va n : Nat) (k : Acc) (q : Asker) : Reach :=
  match translate s root va n k q with
  | .ok pa a e =>
    if ((k = .write ∨ k = .pool) ∧ (ckptHolds s (pa / 65536) ∨ (holdsAny s ∧ a ≠ 0 ∧ entryHeld s a))) ∨ flipHolds s pa n then .stall
    else .ok ⟨(numsFrom pa n).map Loc.phys, [(a, e, va)]⟩
  | .stall => .stall
  | .resolvable => .resolvable
  | .fail c => .fail c

/-- Joins two reaches: the worse outcome, an unresolvable one first. -/
def Reach.join : Reach → Reach → Reach
  | .ok a, .ok b => .ok ⟨a.locs ++ b.locs, a.marks ++ b.marks⟩
  | .fail c, _ => .fail c
  | _, .fail c => .fail c
  | .resolvable, _ => .resolvable
  | _, .resolvable => .resolvable
  | .stall, _ => .stall
  | _, .stall => .stall

/-- Resolves an access of `n` bytes by a wave's lane. -/
def reach (s : State) (root : DWord) (gid gindex w lane : Nat) (va n : Nat) (k : Acc) : Reach :=
  let q : Asker := ⟨gangDie s gid, lane⟩
  match steer s gid va n with
  | .glob v => reachGlobal s root v n k q
  | .spad g p => .ok ⟨(numsFrom p n).map (Loc.spad g), []⟩
  | .stack o =>
    if n ≤ 4 then reachGlobal s root (stackVA gindex w lane o) n k q
    else (numsFrom 0 (n / 4)).foldl (fun r i => r.join (reachGlobal s root (stackVA gindex w lane (o + 4 * i)) 4 k q))
      (.ok ⟨[], []⟩)
  | .bad => .fail cAPERTURE

/-- The byte at a place. -/
def locByte (s : State) : Loc → BitVec 8
  | .phys pa => devByte s pa
  | .spad g p => match fget s.gangs g with
    | none => 0
    | some gg => byteAt gg.spad p

/-- What an access does to the lines it reaches before it performs: pooled lines merge (R304), host lines are fetched.
Each merge that overflowed is reported, by an element of it (R307). -/
def prepareList (s : State) (ls : List Loc) : State × List Nat :=
  ls.foldl (fun (acc : State × List Nat) l => match l with
    | .phys pa =>
      let r := mergeAt acc.1 pa
      (touchLine r.1 pa, match r.2 with
        | some o => acc.2 ++ [o]
        | none => acc.2)
    | .spad _ _ => acc) (s, [])

/-- The VA of an overflowed element: through the leaf of its page, of those that the access came through (R307). -/
def ovfVA (marks : List (Nat × DWord × Nat)) (pa : Nat) : Nat :=
  match marks.find? fun m => pFrame m.2.1 == pa / 65536 with
  | some m => m.2.2 / 65536 * 65536 + pa % 65536
  | none => pa

/-- Writes a byte at a place. -/
def setLoc (s : State) (l : Loc) (x : BitVec 8) : State :=
  match l with
  | .phys pa => devSet s pa x
  | .spad g p => modGang s g fun gg => { gg with spad := setByte gg.spad p x }

/-- Writes bytes at places. -/
def setLocs (s : State) : List Loc → List (BitVec 8) → State
  | l :: ls, b :: bs => setLocs (setLoc s l b) ls bs
  | _, _ => s

/-- The value at places, little-endian. -/
def locNat (s : State) (ls : List Loc) : Nat := leNat (ls.map (locByte s))

/-- Notes the translations of a place as cached, and for a write, in a generation, marks its leaves. -/
def useLeaves (s : State) (root : DWord) (p : Place) (writes : Option Nat) : State :=
  p.marks.foldl (fun s m =>
    let s := match writes with
      | some gen => markDirty s gen m.1 m.2.1
      | none => s
    fillTlb s root m.2.2 m.2.1) s

/-- Reads a place: the value, the state after, and the overflowed elements of merges. -/
def readPlace (s : State) (root : DWord) (p : Place) : Nat × State × List Nat :=
  let r := prepareList s p.locs
  (locNat r.1 p.locs, useLeaves r.1 root p none, r.2)

/-- Writes a number at a place, in a generation. -/
def writePlace (s : State) (root : DWord) (gen : Nat) (p : Place) (x : Nat) : State × List Nat :=
  let r := prepareList s p.locs
  (setLocs (useLeaves r.1 root p (some gen)) p.locs (leBytes p.locs.length x), r.2)

/-! ### Reads and writes by the Cistern and by object instructions -/

/-- Reads bytes of a VA range as loads (R238): the bytes, or an outcome that is not success. -/
def readVA (s : State) (root : DWord) (gid : Nat) (va n : Nat) : Except Reach (List (BitVec 8)) :=
  let chunks := numsFrom 0 ((va + n + 65535) / 65536 - va / 65536)
  chunks.foldl (fun (acc : Except Reach (List (BitVec 8))) i =>
    match acc with
    | .error e => .error e
    | .ok bs =>
      let lo := if i = 0 then va else (va / 65536 + i) * 65536
      let hi := min (va + n) ((va / 65536 + i + 1) * 65536)
      match reach s root gid 0 0 0 lo (hi - lo) .read with
      | .ok p => .ok (bs ++ p.locs.map fun l => match l with
        | .phys pa => viewByte s pa
        | l => locByte s l)
      | e => .error e) (.ok [])

end Sys2Proof.Machine
end

