-- ==== Sys2Proof/Machine/Lifecycle.lean ====
section
/-! DEFINITION. Ends of waves, gangs, cohorts; engine completion; memory given back (spec/03 R40, R41, R47; spec/15
R265). -/

namespace Sys2Proof.Machine

open Sys2Proof

/-- Frees a page's frame of HBM or of the deep tier, with a region's charge for it. -/
def freePage (s : State) (r f : Nat) : State :=
  match tierOf (f * 65536) with
  | 0 => uncharge (freeFrame s f) .hbm r 1
  | 1 => uncharge (freeFrame s f) .deep r 1
  | _ => s

/-- Unmaps a page and frees its frame. DESIGN CHOICE: a 512 MiB leaf stays, since no cohort's slice holds it (assumption log 93). -/
def unmapPage (s : State) (root : DWord) (r va : Nat) : State :=
  match pageLeaf s root va with
  | none => s
  | some (a, _, f) => freePage (dropPage (putEntry (dropMoving (mergeFrame s f) a) a 0) va) r f

/-- Unmaps the pages of a VA range that are mapped. -/
def unmapRange (s : State) (root : DWord) (r va pages : Nat) : State :=
  (numsFrom 0 pages).foldl (fun s i => unmapPage s root r (va + 65536 * i)) s

/-- The first VA of a gang's context save area (spec/23 R378) and its span in pages (spec/05 R64). -/
def csaBase (index : Nat) : Nat := 0xFFFF600000000000 + index * 0x400000

def csaPages (g : Gang) : Nat := (0xC1000 + (g.spadg + g.accg) * 0x8000 + 65535) / 65536

/-- Ends a cohort whose gangs have all ended: partitions, scratchpads, accumulators and stack pages go together (R41,
R265), and its range may be complete. -/
def finishCohort (s : State) (c : Nat) : State :=
  match fget s.cohorts c with
  | none => s
  | some k =>
    if k.ended || !k.gangs.all (fun g => match fget s.gangs g with
        | some gg => gg.ended
        | none => true) then s
    else
      let root := effPtroot s k.region
      let s := k.gangs.foldl (fun s g => match fget s.gangs g with
        | none => s
        | some gg =>
          let s := unmapRange s root k.region (stackBase gg.index) 256
          let s := if k.resident then uncharge s .sram k.region (gg.regg + gg.spadg + gg.accg) else s
          modGang s g fun x => { x with spad := [], acc := [], slots := [] }) s
      let s := modCohort s c fun x => { x with ended := true, resident := false, saved := false }
      let s := { s with clusters := fmapv (fun _ cl =>
        if cl.head == some (true, c) then { cl with head := none, reserved := [], due := true } else cl) s.clusters }
      finishRange (placementDue s (· == k.cluster)) k.range

/-! ### Run queues (spec/21 R368) -/

/-- Appends a wave to its cluster's run queue, unless it is being saved. One that had no lane to issue waits there. -/
def enqueueRun (s : State) (wid : Nat) (idle : Bool) : State :=
  match getWave s wid with
  | none => s
  | some w => match fget s.gangs w.gang with
    | none => s
    | some g =>
      if g.preempted || w.saved then s
      else
        let t := setWave s wid { w with queued := w.queued || idle }
        { t with clusters := fmod s.clusters (g.core / 4) fun c =>
          if c.runq.contains wid then c else { c with runq := c.runq ++ [wid] } }

/-! ### Waiting units and the service value (R351, R352) -/

/-- A range that waits for placement. -/
def Range.waits (r : Range) : Bool := !r.complete && !(r.pending.isEmpty && r.claims.isEmpty)

/-- A saved cohort that waits for restore. -/
def Cohort.waits (c : Cohort) : Bool := c.saved && !c.ended

/-- The waiting units: whether a saved cohort, and its number. -/
def waitingUnits (s : State) : List (Bool × Nat) :=
  (s.ranges.filterMap fun p => if p.2.waits && regionStatus s p.2.region != 2 then some (false, p.1) else none) ++
    s.cohorts.filterMap fun p => if p.2.waits && regionStatus s p.2.region != 2 then some (true, p.1) else none

/-- The region of a unit. -/
def unitRegion (s : State) (u : Bool × Nat) : Nat :=
  if u.1 then ((fget s.cohorts u.2).map Cohort.region).getD 0 else ((fget s.ranges u.2).map Range.region).getD 0

/-- The regions that own a resident cohort. -/
def residentRegions (s : State) : List Nat :=
  s.cohorts.filterMap fun p => if p.2.resident && !p.2.ended then some p.2.region else none

/-- Raises VSERV of a region that gains a waiting unit, having none before and no resident gang (R352). Called before
the unit is added. -/
def joinWaiting (s : State) (rg : Nat) : State :=
  let have' := (waitingUnits s).map (unitRegion s) ++ residentRegions s
  if have'.contains rg then s
  else
    let vs := have'.filterMap fun r => (fget s.regions r).map Region.vserv
    match minBy id vs with
    | none => s
    | some v => modRegion s rg fun g => { g with vserv := max g.vserv v }

/-! ### The end of a save (R259, R356) -/

/-- Whether a gang of a pre-empted cohort counts as saved: released, or ended without a live wave (R377). -/
def gangSaved (s : State) (g : Nat) : Bool :=
  match fget s.gangs g with
  | none => true
  | some x => x.released || x.ended

/-- Releases a cohort's placement once every gang is saved: it becomes a saved cohort that waits (R356, R360). -/
def finishSave (s : State) (c : Nat) : State :=
  match fget s.cohorts c with
  | none => s
  | some k =>
    if !k.preempted || !k.resident || k.ended || !k.gangs.all (gangSaved s) then s
    else
      let s := joinWaiting (k.gangs.foldl (fun s g => match fget s.gangs g with
        | none => s
        | some gg => uncharge s .sram k.region (gg.regg + gg.spadg + gg.accg)) (modCohort s c fun x =>
          { x with resident := false })) k.region
      let s := modCohort s c fun x => { x with resident := false, saved := true }
      placementDue s (· == k.cluster)

/-- Ends a gang whose waves have ended and whose contexts are idle (R41). -/
def finishGang (s : State) (g : Nat) : State :=
  match fget s.gangs g with
  | none => s
  | some gg =>
    let savedAway := match fget s.cohorts gg.cohort with
      | some c => c.saved
      | none => false
    if gg.ended || savedAway || !gg.idle || (gangWaves s g).any (fun _ => true) then s
    else
      let s := modGang s g fun x => { x with ended := true }
      finishSave (finishCohort (objectEnded s g) gg.cohort) gg.cohort

/-- The traps of a gang's engines that were pending in a wave that has ended go to the lowest live wave; an engine fault
with no wave left discards the fault domain (R207, R307). -/
def handOver (s : State) (g : Nat) (ps : List Pending) : State :=
  (ps.filter fun p => p.ctx.isSome || p.order == oENGINEOVF).foldl (fun s p => match (gangWaves s g).head? with
    | some q => addPending s q.1 p
    | none => if p.ctx.isSome then discardOf s (gangRegion s g) else s) s

/-- Ends a wave: its slot is released and WAVEEXIT holds from then on (R40). -/
def finishWave (s : State) (w : Nat) : State :=
  match getWave s w with
  | none => s
  | some v =>
    if v.ended then s
    else
      let s := setWave s w { v with
        ended := true, chain := none, log := [], groups := [], pend := [], dues := [], lanes := splat .exited
        queued := false }
      finishGang (objectEnded (handOver s v.gang v.pend) w) v.gang

/-- The timeline counter becomes the greatest n with every operation up to n complete (R47). -/
def advanceTl : Nat → Nat → List Nat → Nat × List Nat
  | 0, tl, done => (tl, done)
  | fuel + 1, tl, done => if done.contains (tl + 1) then advanceTl fuel (tl + 1) (done.erase (tl + 1)) else (tl, done)

/-- Chunks landed in order from the first (R208, R213). -/
def landedPrefix (landed : List Nat) : Nat :=
  (landed.foldl (fun (acc : Nat × Bool) _ => if acc.2 && landed.contains acc.1 then (acc.1 + 1, true) else (acc.1, false))
    (0, true)).1

/-- The progress PROG shows for the oldest operation when it becomes the oldest. -/
def progOf : List EngOp → Nat
  | [] => 0
  | o :: _ => if o.cls = 24 then landedPrefix o.landed else 0

def modCtx (s : State) (g k : Nat) (f : Ctx → Ctx) : State :=
  modGang s g fun gg => { gg with ctxs := gg.ctxs.modify k f }

/-- Flags that an engine posts in a cycle (R70), noted for a swsr of the same cycle (spec/09 R133). -/
def Gang.post (cycle : Nat) (fl : Word) (g : Gang) : Gang :=
  { g with
    eflags := g.eflags ||| fl
    posted := if fl = 0 then g.posted else (cycle, (if g.posted.1 = cycle then g.posted.2 else 0) ||| fl) }

/-- An operation of a context completes: it leaves the queue, its flags post to SR.EFLAGS (R70), and the timeline counter
advances (R47). -/
def completeOp (s : State) (g k num : Nat) : State :=
  match fget s.gangs g with
  | none => s
  | some gg => match gg.ctxs[k]? with
    | none => s
    | some c => match c.ops.find? (·.num == num) with
      | none => s
      | some op =>
        let r := advanceTl (c.done.length + 1) c.tl (num :: c.done)
        let s := modCtx s g k fun c =>
          { c with ops := c.ops.filter (·.num != num), tl := r.1, done := r.2, 
                     prog := if c.ops.head?.map (·.num) == some num then progOf (c.ops.filter (·.num != num)) else c.prog }
        finishGang (modGang s g (Gang.post (s.time / 5) op.flags)) g

/-- The progress counter of a region starts afresh (spec/23 R383). -/
def progressed (s : State) (r : Nat) : State := modRegion s r fun g => { g with progress := 0 }

end Sys2Proof.Machine
end

