-- ==== Sys2Proof/Machine/Flags.lean ====
section
/-! DEFINITION. Posting of flags and the FPX trap (spec/05 R69, R91). -/

namespace Sys2Proof.Machine

open Sys2Proof

/-- The flags of SR.FLAGS that FPX can report: IV, DZ, OF, UF, NX (Table 5.8). -/
def trapFlags : Word := 0x1F

/-- The trap enables, in the bit order of SR.FLAGS[4:0]; none in S mode (Table 5.7, spec/23 R372). -/
def Wave.xen (w : Wave) : Word := if w.priv = .s then 0 else w.mode >>> 5 &&& trapFlags

/-- The flags raised that are enabled. -/
def Wave.fpx (w : Wave) (fl : Word) : Word := fl &&& w.xen

/-- ORs raised flags into SR.FLAGS. -/
def Wave.orFlags (w : Wave) (fl : Word) : Wave := { w with flags := w.flags ||| fl }

/-- The union of flags. -/
def flagUnion (l : List Word) : Word := l.foldl (· ||| ·) 0

/-- The rounding mode an instruction samples: SR.MODE.RM or the XOP override; 6 and 7 in SR.MODE are RNE in S mode. -/
def Wave.sampledRm (w : Wave) (override : Option Nat) : Nat :=
  match override with
  | some r => r
  | none =>
    let r := (w.mode &&& 7).toNat
    if w.priv = .s ∧ 5 < r then 0 else r

/-- SR.MODE.FTZ. -/
def Wave.ftz (w : Wave) : Bool := w.mode.getLsbD 3

/-- SR.MODE.DEADTRAP, taken as 0 in S mode (spec/23 R372). -/
def Wave.deadtrap (w : Wave) : Bool := w.mode.getLsbD 4 && w.priv == .u

end Sys2Proof.Machine
end

