-- ==== Sys2Proof/Machine/Operands.lean ====
section
/-! DEFINITION. Operand forms and the issue of one instruction: chains, guards, issue-time checks in the order of Table
7.5, traps, holds and the advance of lanes (spec/03 R37, R38; spec/07 R99-R112; spec/09 R127-R133). -/

namespace Sys2Proof.Machine

open Sys2Proof

/-! ### Prefix payloads (spec/07 R107-R112) -/

def wordKind (w : Word) : Nat := w.toNat / 2 ^ 24 % 8
def payload (w : Word) : Nat := w.toNat % 2 ^ 24

/-- The payload of the prefix of a kind in a chain: 0 XIMM, 1 XOP, 2 HINT, 3 GUARD. -/
def prefixOf (ws : List Word) (kind : Nat) : Option Nat := (ws.find? (wordKind · == kind)).map payload

/-- A bit of a payload. -/
def plBit (p i : Nat) : Bool := p / 2 ^ i % 2 == 1

/-- The immediate of `n` bits widened by XIMM (R109), as an unsigned composite and its width. -/
def composite (x : Option Nat) (n imm : Nat) : Nat × Nat :=
  match x with
  | none => (imm, n)
  | some p => (p * 2 ^ n + imm, n + 24)

/-- The composite sign-extended. -/
def compositeInt (x : Option Nat) (n imm : Nat) : Int := signed (composite x n imm).2 (composite x n imm).1

/-! ### Registers an instruction names -/

/-- A run of registers: class, first number and length. -/
inductive RegRun where
  | v (n len : Nat)
  | s (n len : Nat)
  deriving DecidableEq, Repr

/-- Whether the wave holds a run (R34). -/
def Wave.holds (w : Wave) : RegRun → Bool
  | .v n len => (numsFrom n len).all fun i => w.holdsV i && decide (i < 128)
  | .s n len => decide (n + len ≤ w.sn)

/-- Whether two runs share a register. -/
def RegRun.meets : RegRun → RegRun → Bool
  | .v a m, .v b n => decide (a < b + n) && decide (b < a + m)
  | .s a m, .s b n => decide (a < b + n) && decide (b < a + m)
  | _, _ => false

/-- The first dead register of a run, as SR.TADDR reports it (R62). S0 may be marked like any other (assumption log 63). -/
def Wave.deadIn (w : Wave) : RegRun → Option DWord
  | .v n len => ((numsFrom n len).find? fun i => deadBit w.deadV i).map fun i => BitVec.ofNat 64 i
  | .s n len => ((numsFrom n len).find? fun i => deadBit w.deadS i).map fun i => BitVec.ofNat 64 (256 + i)

/-- Marks a run dead. -/
def Wave.markDead (w : Wave) : RegRun → Wave
  | .v n len => { w with deadV := (numsFrom n len).foldl setDead w.deadV }
  | .s n len => { w with deadS := (numsFrom n len).foldl setDead w.deadS }

/-- What the issue of a word checks before its effect. -/
structure OpInfo where
  /-- the class of the non-prefix word (R102) -/
  cls : Nat
  /-- registers it reads -/
  rs : List RegRun := []
  /-- registers it writes -/
  ws : List RegRun := []
  /-- an ILLEGAL condition of order 1 of its own -/
  bad : Bool := false
  /-- it needs S mode (R45, R67) -/
  priv : Bool := false
  /-- it accepts XIMM, XOP with these payload bits, GUARD (R108) -/
  ximm : Bool := false
  xop : Option Nat := none
  guard : Bool := false
  /-- the guard field g -/
  g : Nat := 0
  /-- it samples the rounding mode, checked at order 5 (R84) -/
  rounds : Bool := false
  /-- it rounds under its agreed format word, checked by its body at order 9 (R203) -/
  roundsLate : Bool := false
  /-- it writes its destination in every issuing lane, its guard choosing a source (R137) -/
  every : Bool := false
  /-- it raises BADFMT at order 8 -/
  badFmt : Bool := false
  /-- the registers of the dead bits A, B, C, T (Table 7.9a) -/
  deadA : List RegRun := []
  deadB : List RegRun := []
  deadC : List RegRun := []
  deadT : List RegRun := []
  /-- registers it names that are checked only for being held (R34) -/
  named : List RegRun := []

/-- What an instruction's effect sees. -/
structure Env where
  wid : Nat
  w : Wave
  /-- address of the chain's first word -/
  pc : DWord
  /-- address of the non-prefix word -/
  wpc : DWord
  /-- address after it -/
  next : DWord
  iss : Word
  e : Word
  rm : Nat
  ftz : Bool
  sat : Nat
  /-- SR.ISEQ after the increment of R74 -/
  seq : Nat
  ximm : Option Nat
  xop : Nat
  pfx : List Word

/-- How an instruction's own part ends. -/
inductive Res where
  /-- performed: issuing lanes advance -/
  | done (s : State)
  /-- performed, issuing lanes taking these PCs -/
  | jump (s : State) (pcs : List DWord)
  /-- entered in the operand log: as done, its dead marks left to its performance -/
  | logged (s : State)
  /-- a precise trap in a state that differs at most in sticky flags -/
  | trap (s : State) (cause info : Nat) (taddr : DWord)
  /-- the wave waits at this instruction -/
  | hold
  /-- the wave waits at this instruction for pages of these addresses -/
  | await (vas : List Nat)
  /-- everything done by the instruction itself -/
  | raw (s : State)

/-- Classes a role may issue (Table 3.5). -/
def roleMay (role cls : Nat) : Bool :=
  (decide (13 ≤ cls ∧ cls ≤ 17) || cls == 22 || decide (26 ≤ cls ∧ cls ≤ 28) || cls == 31) ||
  match role with
  | 0 => cls == 24
  | 1 => cls == 25
  | 2 => decide (cls ≤ 12) || decide (18 ≤ cls ∧ cls ≤ 21) || cls == 23 || cls == 29
  | _ => true

/-- Whether the chain's prefixes are accepted by the word (R108, R110, R112). -/
def OpInfo.chainOk (i : OpInfo) (ws : List Word) : Bool :=
  ((prefixOf ws 0).isNone || i.ximm) &&
  (match prefixOf ws 1 with
    | none => true
    | some p => match i.xop with
      | none => false
      | some names => p &&& (0xFFFFFF - names) == 0) &&
  ((prefixOf ws 3).isNone || (i.guard && i.g == 0))

/-- The lanes the guard admits (R9, R101, R112). -/
def Wave.guardMask (w : Wave) (g : Nat) (ws : List Word) : Word :=
  match prefixOf ws 3 with
  | none => w.readP g
  | some p => if plBit p 4 then ~~~ w.readP (p % 16) else w.readP (p % 16)

/-- The issue-time checks of orders 1 to 5 and 8 (Table 7.5): the first that fails. -/
def issueCheck (w : Wave) (i : OpInfo) (ws : List Word) (rm : Nat) : Option (Nat × DWord) :=
  if i.bad || !i.chainOk ws || !(i.rs ++ i.ws ++ i.named).all w.holds then some (cILLEGAL, 0)
  else if i.priv && w.priv == .u then some (cPRIV, 0)
  else if !roleMay w.role i.cls then some (cROLE, 0)
  else match (if w.deadtrap then i.rs.findSome? w.deadIn else none) with
    | some a => some (cDEADREG, a)
    | none =>
      if i.rounds && decide (5 < rm) then some (cBADRM, 0)
      else if i.badFmt then some (cBADFMT, 0)
      else none

/-- The registers a status still due holds by the scoreboard (spec/13 R238). -/
def StatusDue.run (d : StatusDue) : RegRun := .s d.sd 1

/-- Registers a logged class 18 to 23 word reads as data or writes (spec/11 R193); set by the memory instructions. -/
def logRuns (e : LogEntry) : List RegRun :=
  let w := e.word.toNat
  let cls := w / 2 ^ 27
  let f := w % 32
  let vt := w / 2 ^ 17 % 128
  let sd := w / 2 ^ 20 % 128
  match cls with
  | 18 => [.v vt (if f = 5 then 2 else if f = 6 then 4 else 1)]
  | 19 => [.v vt (if f = 3 then 2 else if f = 4 then 4 else 1)]
  | 20 => [.v vt (if f = 1 ∨ f = 13 ∨ f = 14 then 2 else if f = 15 then 4 else 1)]
  | 21 => [.v vt (if f = 1 then 2 else 1)]
  | 22 => match w / 2 ^ 12 % 8 with
    | 0 | 2 | 7 => [.s sd 1]
    | 1 | 3 | 4 => [.s sd 2]
    | _ => [.s sd 4]
  | 23 =>
    let span := (lanesOf e.mask).foldl (fun m l => max m ((e.vo.getD l 0).toNat / 4)) 0
    (if f = 2 ∧ span = 0 then [] else [.v vt (if f = 0 then 1 else if f = 1 then 4 else span)]) ++
      [.v (w / 2 ^ 10 % 128) 2]
  | _ => []

/-- Whether a register the instruction names is reserved (spec/11 R193, spec/13 R238). In S mode the log holds nothing
back, since a handler may change the reserved registers (spec/11 R200). -/
def Wave.reserved (w : Wave) (runs : List RegRun) : Bool :=
  (w.priv == .u && w.log.any fun e => (logRuns e).any fun r => runs.any r.meets) ||
  w.dues.any fun d => runs.any d.run.meets

/-- Whether a floating-point atomic of a wave has still to post its flags: SR.FLAGS is neither read nor written before
(spec/11 R186, spec/09 R133). DESIGN CHOICE: in S mode, in which nothing of the log performs, it is read and written at once (assumption
log 100). -/
def Wave.flagsDue (w : Wave) : Bool :=
  w.priv == .u && w.log.any fun e =>
    e.word.toNat / 2 ^ 27 == 20 && [2, 7, 8].contains (e.word.toNat % 32)

/-- Whether the cohort of a wave has started (spec/21 R356). -/
def cohortStarted (s : State) (w : Wave) : Bool :=
  match fget s.gangs w.gang with
  | none => false
  | some g => match fget s.cohorts g.cohort with
    | none => false
    | some c => c.started && c.resident

/-- Whether the wave has stopped issuing since its oldest entry cannot be resolved (spec/11 R200). It goes on for
some cycles after that entry was made, as far as R197 and the reserved registers let it; how many is free (assumption log
19). -/
def logStops (s : State) (w : Wave) : Bool :=
  w.priv == .u && w.log.head?.any fun e => e.cause != 0 && decide (e.since + 5 * Config.stopDelay e.since ≤ s.time)

/-- The send of a wave's instruction at a PC that has not been reported (spec/19 R323). -/
def openSend (s : State) (wid : Nat) (pc : DWord) : Option (Nat × RemoteSend) :=
  s.sends.find? fun p => p.2.wave == wid && p.2.pc == pc && !p.2.taken

/-- Whether a wave stands at a send that has gone out and has not been reported: it ends with its reply, and until then the wave
is at no boundary (assumption log 82). -/
def sendStands (s : State) (wid : Nat) (w : Wave) : Bool := w.front.any fun f => (openSend s wid f.1).isSome

/-- Whether the wave may issue: started, not ended, frozen, saved or discarded, and at no boundary where a trap is due; a trap that is
pending lets a send that has gone out end first (spec/19 R323). -/
def mayIssue (s : State) (wid : Nat) (w : Wave) : Bool :=
  !w.ended && !w.frozen && !w.saved && s.host.powered && cohortStarted s w &&
  (match regionStatus s (waveRegion s w) with
    | 0 => true
    | 1 => w.priv == .s
    | _ => false) &&
  (w.priv == .s || w.pend.isEmpty || sendStands s wid w) &&
  !logStops s w

/-- Whether a run holds a register that the instruction writes; with no active lane it writes no V register (R129). -/
def OpInfo.writes (i : OpInfo) (e : Word) (r : RegRun) : Bool :=
  i.ws.any fun x => match x with
    | .v _ _ => e != 0 && r.meets x
    | .s _ _ => r.meets x

/-- The HINT dead marks (R111); a mark on a register the instruction writes in some lane of a mask is ignored. -/
def Wave.hintMarks (w : Wave) (i : OpInfo) (e : Word) (ws : List Word) : Wave :=
  match prefixOf ws 2 with
  | none => w
  | some p =>
    let runs := (if plBit p 23 then i.deadA else []) ++ (if plBit p 22 then i.deadB else []) ++
      (if plBit p 21 then i.deadC else []) ++ (if plBit p 20 then i.deadT else [])
    let ones := runs.flatMap fun r => match r with
      | .v n len => (numsFrom n len).map fun k => RegRun.v k 1
      | .s n len => (numsFrom n len).map fun k => RegRun.s k 1
    (ones.filter fun r => !i.writes e r).foldl Wave.markDead w

/-- Moves the issuing lanes that have not exited to new PCs and closes the chain (R38). -/
def Wave.advance (w : Wave) (iss : Word) (pcs : Nat → DWord) : Wave :=
  { w with
    pcs := laneIdx.map fun l => if bitAt iss l && w.lane l == .live then pcs l else w.pc l
    chain := none }

/-- What follows any instruction that was issued: the wave's readiness starts afresh (R43), its region has progressed
and, in U mode, may deadlock anew (spec/23 R382, R383). -/
def retired (s : State) (wid : Nat) : State :=
  match getWave s wid with
  | none => s
  | some w =>
    let s := setWave s wid { w with ready := s.time + 5 }
    modRegion s (waveRegion s w) fun g =>
      { g with progress := 0, deadRaised := g.deadRaised && w.priv == .s }

/-- Ends the issue of an instruction in its wave. -/
def settleIssue (s : State) (wid : Nat) (f : Wave → Wave) : State :=
  let s := retired (modWave s wid f) wid
  match getWave s wid with
  | some w => if w.endReq || laneIdx.all (fun l => w.lane l == .exited) then finishWave s wid else s
  | none => s

/-- The issue of one non-prefix word by the current wave. Nothing changes while the wave cannot issue. While the operand
log holds entries, an instruction that would raise a trap at issue, or by a check of Table 11.4, does not issue (R197);
other execution traps are taken with the log as it stands. -/
def issue (s : State) (info : Wave → List Word → OpInfo) (body : Env → State → Res) : State :=
  match s.cur with
  | none => s
  | some wid => match getWave s wid with
    | none => s
    | some w => match w.front with
      | none => s
      | some (pc, iss, ws) =>
        if !mayIssue s wid w then s
        else
          let i := info w ws
          let xop := (prefixOf ws 1).getD 0
          let rm := w.sampledRm (if plBit xop 9 then some (xop / 64 % 8) else none)
          let inLog := w.priv == .u && !w.log.isEmpty
          let trapAt := fun (s : State) (c info : Nat) (a : DWord) => takeTrap s wid ⟨c, info, pc, pc, a, false⟩
          if w.reserved (i.rs ++ i.ws) then s
          else if inLog && decide (24 ≤ i.cls ∧ i.cls ≤ 28) then s
          else match issueCheck w i ws rm with
            | some (c, a) => if inLog then s else trapAt s c 0 a
            | none =>
              let bump := (i.rounds || i.roundsLate) && rm == 5
              let seq := w.iseq.toNat + (if bump then 1 else 0)
              let wpc := pc + BitVec.ofNat 64 (4 * ws.length)
              let env : Env := {
                wid := wid, w := w, pc := pc, wpc := wpc, next := wpc + 4, iss := iss
                e := if i.guard then iss &&& w.guardMask i.g ws else iss
                rm := rm, ftz := w.ftz, sat := if plBit xop 10 then 1 else 0, seq := seq
                ximm := prefixOf ws 0, xop := xop, pfx := ws }
              let fin := fun (marks : Bool) (pcs : Nat → DWord) (v : Wave) =>
                let v := if marks then v.hintMarks i (if i.every then iss else env.e) ws else v
                { v.advance iss pcs with iseq := if bump then BitVec.ofNat 64 seq else v.iseq }
              match body env s with
              | .done s' => settleIssue s' wid (fin true fun _ => env.next)
              | .jump s' pcs => settleIssue s' wid (fin true fun l => pcs.getD l 0)
              | .logged s' => settleIssue s' wid (fin false fun _ => env.next)
              | .trap s' c inf a => if inLog && decide (18 ≤ i.cls ∧ i.cls ≤ 23) then s else trapAt s' c inf a
              | .hold => s
              | .await vas => { s with wants := vas }
              | .raw s' => s'

/-! ### Results of vector and scalar members -/

/-- The third source register (R127). -/
def Env.vc (v : Env) (d : Nat) : Nat := if plBit v.xop 16 then v.xop / 2 ^ 17 % 128 else d

/-- The environment of a rounding site (R84, R85). -/
def Env.renv (v : Env) (coord : Nat) : REnv :=
  ⟨v.rm, v.sat, v.ftz, if v.rm = 5 then rsdHash v.w.seed coord v.seq else 0⟩

/-- Ends a floating-point member: flags are ORed; an enabled one raises FPX with the lanes that raised it, and then no
destination is written (R91). -/
def finishFp (v : Env) (s : State) (fl : Word) (lanes : Word → Word) (write : Wave → Wave) : Res :=
  let s1 := modWave s v.wid (·.orFlags fl)
  let x := v.w.fpx fl
  if x ≠ 0 then .trap s1 cFPX x.toNat (BitVec.ofNat 64 (lanes x).toNat)
  else .done (modWave s1 v.wid write)

/-- Writes of a member that sets at most SAT. -/
def finishInt (v : Env) (s : State) (fl : Word) (write : Wave → Wave) : Res :=
  .done (modWave s v.wid fun w => write (w.orFlags fl))

end Sys2Proof.Machine
end

