-- ==== Sys2Proof/Machine/VecInt.lean ====
section
/-! DEFINITION. Integer vector members: classes 0 to 3, 10, the integer compares of class 8, the shuffles and integer
reductions of class 11 and the integer dot products of class 12 (spec/09 R134-R138, R148, R153, R154, R156). -/

namespace Sys2Proof.Machine

open Sys2Proof

/-! ### Shapes -/

/-- XOP fields (Table 7.8): third source, negations, absolute values, SAT, rounding override. -/
def xThird : Nat := 0xFF0000
def xNegA : Nat := 0x8000
def xNegB : Nat := 0x4000
def xNegC : Nat := 0x2000
def xAbsA : Nat := 0x1000
def xAbsB : Nat := 0x0800
def xSat : Nat := 0x0400
def xRound : Nat := 0x03C0

/-- Issue checks of a VR word with operands of the given lengths; `third` is the length of its third source, 0 for
none. A 64-bit operand must have an even base (R58). -/
def vrInfo (cls : Nat) (g : BitVec 3) (d a b : BitVec 7) (ld la lb third names : Nat) (rounds : Bool)
    (ws : List Word) : OpInfo :=
  let xop := (prefixOf ws 1).getD 0
  let c := if plBit xop 16 then xop / 2 ^ 17 % 128 else d.toNat
  let odd := fun (n len : Nat) => decide (len = 2 ∧ n % 2 = 1)
  { cls := cls
    rs := (if la = 0 then [] else [.v a.toNat la]) ++ (if lb = 0 then [] else [.v b.toNat lb]) ++
      (if third = 0 then [] else [.v c third])
    ws := if ld = 0 then [] else [.v d.toNat ld]
    bad := odd d.toNat ld || odd a.toNat la || odd b.toNat lb || odd c third
    xop := some names, guard := true, g := g.toNat, rounds := rounds
    deadA := if la = 0 then [] else [.v a.toNat la]
    deadB := if lb = 0 then [] else [.v b.toNat lb]
    deadC := if third = 0 ∨ !plBit xop 16 then [] else [.v c third] }

/-- A binary integer member: each active lane's result and flag (R129, R134). -/
def intBin (cls : Nat) (g : BitVec 3) (d a b : BitVec 7) (f : Word → Word → Word × Word) (s : State) : State :=
  issue s (fun _ ws => vrInfo cls g d a b 1 1 1 0 0 false ws) fun v s =>
    let r := fun l => f (v.w.vlane a.toNat l) (v.w.vlane b.toNat l)
    finishInt v s (flagUnion ((lanesOf v.e).map fun l => (r l).2)) fun w => w.writeV d.toNat v.e fun l => (r l).1

/-- A member with a third source. -/
def intTern (cls : Nat) (g : BitVec 3) (d a b : BitVec 7) (f : Word → Word → Word → Word) (s : State) : State :=
  issue s (fun _ ws => vrInfo cls g d a b 1 1 1 1 xThird false ws) fun v s =>
    finishInt v s 0 fun w => w.writeV d.toNat v.e fun l =>
      f (v.w.vlane a.toNat l) (v.w.vlane b.toNat l) (v.w.vlane (v.vc d.toNat) l)

/-- A unary integer member. -/
def intUn (cls : Nat) (g : BitVec 3) (d a : BitVec 7) (f : Word → Word) (s : State) : State :=
  issue s (fun _ ws => vrInfo cls g d a 0 1 1 0 0 0 false ws) fun v s =>
    finishInt v s 0 fun w => w.writeV d.toNat v.e fun l => f (v.w.vlane a.toNat l)

/-- A vector immediate member (R138): the immediate sign-extended to 32 bits. -/
def intImm (g : BitVec 3) (d a : BitVec 7) (imm : Nat) (f : Word → Word → Word) (s : State) : State :=
  issue s (fun _ ws => { vrInfo 10 g d a 0 1 1 0 0 0 false ws with ximm := true }) fun v s =>
    let k : Word := BitVec.ofInt 32 (compositeInt v.ximm 7 imm)
    finishInt v s 0 fun w => w.writeV d.toNat v.e fun l => f (v.w.vlane a.toNat l) k

/-- A shift by an immediate count, 0 to 31: a nonzero XIMM payload raises ILLEGAL (R138). -/
def intShiftImm (g : BitVec 3) (d a : BitVec 7) (n : BitVec 5) (f : Word → Nat → Word) (s : State) : State :=
  issue s (fun _ ws => { vrInfo 10 g d a 0 1 1 0 0 0 false ws with
      ximm := true, bad := (prefixOf ws 0).any (· != 0) }) fun v s =>
    finishInt v s 0 fun w => w.writeV d.toNat v.e fun l => f (v.w.vlane a.toNat l) n.toNat

/-- An integer compare: bits of predicate Pd for the active lanes (R148). -/
def cmpInt (g : BitVec 3) (d a b : BitVec 7) (f : Word → Word → Bool) (s : State) : State :=
  issue s (fun _ ws => { vrInfo 8 g d a b 0 1 1 0 0 false ws with bad := decide (15 < d.toNat) }) fun v s =>
    finishInt v s 0 fun w => w.writeP d.toNat ((w.readP d.toNat &&& ~~~ v.e) |||
      maskOf fun l => bitAt v.e l && f (v.w.vlane a.toNat l) (v.w.vlane b.toNat l))

/-- A shuffle: each active lane reads Va in a source lane, whatever that lane's state (R153). -/
def shuffle (g : BitVec 3) (d a b : BitVec 7) (src : Nat → Word → Nat) (s : State) : State :=
  issue s (fun _ ws => vrInfo 11 g d a b 1 1 1 0 0 false ws) fun v s =>
    finishInt v s 0 fun w => w.writeV d.toNat v.e fun l => v.w.vlane a.toNat (src l (v.w.vlane b.toNat l))

/-- The sum of a lane's integers clamped to a range, with SAT on a clamp. -/
def clampTo (lo hi x : Int) : Word × Word :=
  if x < lo then (BitVec.ofInt 32 lo, fSAT) else if hi < x then (BitVec.ofInt 32 hi, fSAT) else (BitVec.ofInt 32 x, 0)

/-- No flag. -/
def noFlag (x : Word) : Word × Word := (x, 0)

/-- An integer dot product of `n` elements of `len` bits (R156). -/
def intDot (g : BitVec 3) (d a b : BitVec 7) (n len : Nat) (sa sb : Bool) (s : State) : State :=
  issue s (fun _ ws => vrInfo 12 g d a b 1 1 1 1 (xThird + xSat) false ws) fun v s =>
    let el := fun (sg : Bool) (x : Word) (k : Nat) =>
      let e := x.toNat / 2 ^ (len * k) % 2 ^ len
      if sg then signed len e else (e : Int)
    let sum := fun l => (numsFrom 0 n).foldl (fun (t : Int) k =>
      t + el sa (v.w.vlane a.toNat l) k * el sb (v.w.vlane b.toNat l) k) (v.w.vlane (v.vc d.toNat) l).toInt
    let r := fun l => if v.sat = 1 then clampTo (-2 ^ 31) (2 ^ 31 - 1) (sum l) else (BitVec.ofInt 32 (sum l), 0)
    finishInt v s (flagUnion ((lanesOf v.e).map fun l => (r l).2)) fun w => w.writeV d.toNat v.e fun l => (r l).1

/-! ### Bit fields (R136) -/

def popCount (n x : Nat) : Nat := ((numsFrom 0 n).filter fun i => x / 2 ^ i % 2 == 1).length
def leadingZeros (x : Word) : Nat := if x = 0 then 32 else 31 - Nat.log2 x.toNat
def bitReverse (x : Word) : Word := maskOf fun i => bitAt x (31 - i)
def fieldOff (b : Word) : Nat := b.toNat % 32
def fieldWidth (b : Word) : Nat := min (b.toNat / 256 % 64) (32 - fieldOff b)
def fieldMask (b : Word) : Word := BitVec.ofNat 32 ((2 ^ fieldWidth b - 1) * 2 ^ fieldOff b)

def extractU (a b : Word) : Word := (a &&& fieldMask b) >>> fieldOff b
def extractS (a b : Word) : Word :=
  if fieldWidth b = 0 then 0 else BitVec.ofInt 32 (signed (fieldWidth b) (extractU a b).toNat)
def insertField (a b c : Word) : Word := (c &&& ~~~ fieldMask b) ||| ((a <<< fieldOff b) &&& fieldMask b)

def smin (a b : Word) : Word := if b.toInt < a.toInt then b else a
def smax (a b : Word) : Word := if a.toInt < b.toInt then b else a
def umin (a b : Word) : Word := if b.toNat < a.toNat then b else a
def umax (a b : Word) : Word := if a.toNat < b.toNat then b else a
def mulHiS (a b : Word) : Word := BitVec.ofInt 32 (a.toInt * b.toInt / 2 ^ 32)
def mulHiU (a b : Word) : Word := BitVec.ofNat 32 (a.toNat * b.toNat / 2 ^ 32)
def sshr (a : Word) (n : Nat) : Word := BitVec.ofInt 32 (a.toInt / 2 ^ n)
def shiftCount (b : Word) : Nat := b.toNat % 32

/-! ### Classes 0 and 1 (Table 9.1) -/

/-- vadd.i32 (R134) -/
def execVaddI32 (g : BitVec 3) (d a b : BitVec 7) (s : State) : Host.Outcome State Fault Refusal :=
  .next (intBin 0 g d a b (fun x y => noFlag (x + y)) s)

/-- vsub.i32 (R134) -/
def execVsubI32 (g : BitVec 3) (d a b : BitVec 7) (s : State) : Host.Outcome State Fault Refusal :=
  .next (intBin 0 g d a b (fun x y => noFlag (x - y)) s)

/-- vmullo.i32 (R134) -/
def execVmulloI32 (g : BitVec 3) (d a b : BitVec 7) (s : State) : Host.Outcome State Fault Refusal :=
  .next (intBin 0 g d a b (fun x y => noFlag (x * y)) s)

/-- vmulhi.i32 (R134) -/
def execVmulhiI32 (g : BitVec 3) (d a b : BitVec 7) (s : State) : Host.Outcome State Fault Refusal :=
  .next (intBin 0 g d a b (fun x y => noFlag (mulHiS x y)) s)

/-- vmulhi.n32 (R134) -/
def execVmulhiN32 (g : BitVec 3) (d a b : BitVec 7) (s : State) : Host.Outcome State Fault Refusal :=
  .next (intBin 0 g d a b (fun x y => noFlag (mulHiU x y)) s)

/-- vmin.i32 (R134) -/
def execVminI32 (g : BitVec 3) (d a b : BitVec 7) (s : State) : Host.Outcome State Fault Refusal :=
  .next (intBin 0 g d a b (fun x y => noFlag (smin x y)) s)

/-- vmin.n32 (R134) -/
def execVminN32 (g : BitVec 3) (d a b : BitVec 7) (s : State) : Host.Outcome State Fault Refusal :=
  .next (intBin 0 g d a b (fun x y => noFlag (umin x y)) s)

/-- vmax.i32 (R134) -/
def execVmaxI32 (g : BitVec 3) (d a b : BitVec 7) (s : State) : Host.Outcome State Fault Refusal :=
  .next (intBin 1 g d a b (fun x y => noFlag (smax x y)) s)

/-- vmax.n32 (R134) -/
def execVmaxN32 (g : BitVec 3) (d a b : BitVec 7) (s : State) : Host.Outcome State Fault Refusal :=
  .next (intBin 1 g d a b (fun x y => noFlag (umax x y)) s)

/-- vabsd.i32 (R134) -/
def execVabsdI32 (g : BitVec 3) (d a b : BitVec 7) (s : State) : Host.Outcome State Fault Refusal :=
  .next (intBin 1 g d a b (fun x y => noFlag (BitVec.ofInt 32 (x.toInt - y.toInt).natAbs)) s)

/-- vabsd.n32 (R134) -/
def execVabsdN32 (g : BitVec 3) (d a b : BitVec 7) (s : State) : Host.Outcome State Fault Refusal :=
  .next (intBin 1 g d a b (fun x y => noFlag (BitVec.ofNat 32 ((x.toNat : Int) - y.toNat).natAbs)) s)

/-- vadds.i32 (R134) -/
def execVaddsI32 (g : BitVec 3) (d a b : BitVec 7) (s : State) : Host.Outcome State Fault Refusal :=
  .next (intBin 1 g d a b (fun x y => clampTo (-2 ^ 31) (2 ^ 31 - 1) (x.toInt + y.toInt)) s)

/-- vsubs.i32 (R134) -/
def execVsubsI32 (g : BitVec 3) (d a b : BitVec 7) (s : State) : Host.Outcome State Fault Refusal :=
  .next (intBin 1 g d a b (fun x y => clampTo (-2 ^ 31) (2 ^ 31 - 1) (x.toInt - y.toInt)) s)

/-- vadds.n32 (R134) -/
def execVaddsN32 (g : BitVec 3) (d a b : BitVec 7) (s : State) : Host.Outcome State Fault Refusal :=
  .next (intBin 1 g d a b (fun x y => clampTo 0 (2 ^ 32 - 1) (x.toNat + y.toNat)) s)

/-- vsubs.n32 (R134) -/
def execVsubsN32 (g : BitVec 3) (d a b : BitVec 7) (s : State) : Host.Outcome State Fault Refusal :=
  .next (intBin 1 g d a b (fun x y => clampTo 0 (2 ^ 32 - 1) ((x.toNat : Int) - y.toNat)) s)

/-- vmad.i32 (R134) -/
def execVmadI32 (g : BitVec 3) (d a b : BitVec 7) (s : State) : Host.Outcome State Fault Refusal :=
  .next (intTern 0 g d a b (fun x y z => x * y + z) s)

/-! ### Class 2 (R135) -/

/-- vand (R135) -/
def execVand (g : BitVec 3) (d a b : BitVec 7) (s : State) : Host.Outcome State Fault Refusal :=
  .next (intBin 2 g d a b (fun x y => noFlag (x &&& y)) s)

/-- vor (R135) -/
def execVor (g : BitVec 3) (d a b : BitVec 7) (s : State) : Host.Outcome State Fault Refusal :=
  .next (intBin 2 g d a b (fun x y => noFlag (x ||| y)) s)

/-- vxor (R135) -/
def execVxor (g : BitVec 3) (d a b : BitVec 7) (s : State) : Host.Outcome State Fault Refusal :=
  .next (intBin 2 g d a b (fun x y => noFlag (x ^^^ y)) s)

/-- vandn (R135) -/
def execVandn (g : BitVec 3) (d a b : BitVec 7) (s : State) : Host.Outcome State Fault Refusal :=
  .next (intBin 2 g d a b (fun x y => noFlag (x &&& ~~~ y)) s)

/-- vshl (R135) -/
def execVshl (g : BitVec 3) (d a b : BitVec 7) (s : State) : Host.Outcome State Fault Refusal :=
  .next (intBin 2 g d a b (fun x y => noFlag (x <<< shiftCount y)) s)

/-- vshr.n32 (R135) -/
def execVshrN32 (g : BitVec 3) (d a b : BitVec 7) (s : State) : Host.Outcome State Fault Refusal :=
  .next (intBin 2 g d a b (fun x y => noFlag (x >>> shiftCount y)) s)

/-- vshr.i32 (R135) -/
def execVshrI32 (g : BitVec 3) (d a b : BitVec 7) (s : State) : Host.Outcome State Fault Refusal :=
  .next (intBin 2 g d a b (fun x y => noFlag (sshr x (shiftCount y))) s)

/-- vrotl (R135) -/
def execVrotl (g : BitVec 3) (d a b : BitVec 7) (s : State) : Host.Outcome State Fault Refusal :=
  .next (intBin 2 g d a b (fun x y => noFlag (x.rotateLeft (shiftCount y))) s)

/-! ### Class 3 (Table 9.2) -/

/-- vpopc (R136) -/
def execVpopc (g : BitVec 3) (d a : BitVec 7) (s : State) : Host.Outcome State Fault Refusal :=
  .next (intUn 3 g d a (fun x => BitVec.ofNat 32 (popCount 32 x.toNat)) s)

/-- vclz (R136) -/
def execVclz (g : BitVec 3) (d a : BitVec 7) (s : State) : Host.Outcome State Fault Refusal :=
  .next (intUn 3 g d a (fun x => BitVec.ofNat 32 (leadingZeros x)) s)

/-- vbrev (R136) -/
def execVbrev (g : BitVec 3) (d a : BitVec 7) (s : State) : Host.Outcome State Fault Refusal :=
  .next (intUn 3 g d a bitReverse s)

/-- vmov (R136) -/
def execVmov (g : BitVec 3) (d a : BitVec 7) (s : State) : Host.Outcome State Fault Refusal :=
  .next (intUn 3 g d a id s)

/-- vbfe.n32 (R136) -/
def execVbfeN32 (g : BitVec 3) (d a b : BitVec 7) (s : State) : Host.Outcome State Fault Refusal :=
  .next (intBin 3 g d a b (fun x y => noFlag (extractU x y)) s)

/-- vbfe.i32 (R136) -/
def execVbfeI32 (g : BitVec 3) (d a b : BitVec 7) (s : State) : Host.Outcome State Fault Refusal :=
  .next (intBin 3 g d a b (fun x y => noFlag (extractS x y)) s)

/-- vbfi (R136) -/
def execVbfi (g : BitVec 3) (d a b : BitVec 7) (s : State) : Host.Outcome State Fault Refusal :=
  .next (intTern 3 g d a b insertField s)

/-- vsel: every issuing lane takes a where the guard admits it, b elsewhere (R137). -/
def execVsel (g : BitVec 3) (d a b : BitVec 7) (s : State) : Host.Outcome State Fault Refusal :=
  .next (issue s (fun _ ws => { vrInfo 3 g d a b 1 1 1 0 0 false ws with every := true }) fun v s =>
    finishInt v s 0 fun w => w.writeV d.toNat v.iss fun l =>
      if bitAt v.e l then v.w.vlane a.toNat l else v.w.vlane b.toNat l)

/-! ### Class 10 (R138) -/

/-- vaddi (R138) -/
def execVaddi (g : BitVec 3) (d a : BitVec 7) (imm : BitVec 7) (s : State) : Host.Outcome State Fault Refusal :=
  .next (intImm g d a imm.toNat (fun x k => x + k) s)

/-- vmuli (R138) -/
def execVmuli (g : BitVec 3) (d a : BitVec 7) (imm : BitVec 7) (s : State) : Host.Outcome State Fault Refusal :=
  .next (intImm g d a imm.toNat (fun x k => x * k) s)

/-- vandi (R138) -/
def execVandi (g : BitVec 3) (d a : BitVec 7) (imm : BitVec 7) (s : State) : Host.Outcome State Fault Refusal :=
  .next (intImm g d a imm.toNat (fun x k => x &&& k) s)

/-- vori (R138) -/
def execVori (g : BitVec 3) (d a : BitVec 7) (imm : BitVec 7) (s : State) : Host.Outcome State Fault Refusal :=
  .next (intImm g d a imm.toNat (fun x k => x ||| k) s)

/-- vxori (R138) -/
def execVxori (g : BitVec 3) (d a : BitVec 7) (imm : BitVec 7) (s : State) : Host.Outcome State Fault Refusal :=
  .next (intImm g d a imm.toNat (fun x k => x ^^^ k) s)

/-- vshli (R138) -/
def execVshli (g : BitVec 3) (d a : BitVec 7) (imm : BitVec 5) (s : State) : Host.Outcome State Fault Refusal :=
  .next (intShiftImm g d a imm (fun x n => x <<< n) s)

/-- vshri.n32 (R138) -/
def execVshriN32 (g : BitVec 3) (d a : BitVec 7) (imm : BitVec 5) (s : State) : Host.Outcome State Fault Refusal :=
  .next (intShiftImm g d a imm (fun x n => x >>> n) s)

/-- vshri.i32 (R138) -/
def execVshriI32 (g : BitVec 3) (d a : BitVec 7) (imm : BitVec 5) (s : State) : Host.Outcome State Fault Refusal :=
  .next (intShiftImm g d a imm (fun x n => sshr x n) s)

/-! ### Integer compares of class 8 (R148) -/

/-- vcmp.eq.i32 (R148) -/
def execVcmpEqI32 (g : BitVec 3) (d a b : BitVec 7) (s : State) : Host.Outcome State Fault Refusal :=
  .next (cmpInt g d a b (fun x y => x == y) s)

/-- vcmp.lt.i32 (R148) -/
def execVcmpLtI32 (g : BitVec 3) (d a b : BitVec 7) (s : State) : Host.Outcome State Fault Refusal :=
  .next (cmpInt g d a b (fun x y => decide (x.toInt < y.toInt)) s)

/-- vcmp.lt.n32 (R148) -/
def execVcmpLtN32 (g : BitVec 3) (d a b : BitVec 7) (s : State) : Host.Outcome State Fault Refusal :=
  .next (cmpInt g d a b (fun x y => decide (x.toNat < y.toNat)) s)

/-- vcmp.le.i32 (R148) -/
def execVcmpLeI32 (g : BitVec 3) (d a b : BitVec 7) (s : State) : Host.Outcome State Fault Refusal :=
  .next (cmpInt g d a b (fun x y => decide (x.toInt ≤ y.toInt)) s)

/-! ### Shuffles and integer reductions of class 11 (R153, R154) -/

/-- vshf (R153) -/
def execVshf (g : BitVec 3) (d a b : BitVec 7) (s : State) : Host.Outcome State Fault Refusal :=
  .next (shuffle g d a b (fun _ y => shiftCount y) s)

/-- vshfx (R153) -/
def execVshfx (g : BitVec 3) (d a b : BitVec 7) (s : State) : Host.Outcome State Fault Refusal :=
  .next (shuffle g d a b (fun l y => l ^^^ shiftCount y) s)

/-- vshfup (R153) -/
def execVshfup (g : BitVec 3) (d a b : BitVec 7) (s : State) : Host.Outcome State Fault Refusal :=
  .next (shuffle g d a b (fun l y => if l < y.toNat % 64 then l else l - y.toNat % 64) s)

/-- vshfdn (R153) -/
def execVshfdn (g : BitVec 3) (d a b : BitVec 7) (s : State) : Host.Outcome State Fault Refusal :=
  .next (shuffle g d a b (fun l y => if 31 < l + y.toNat % 64 then l else l + y.toNat % 64) s)

/-- The sum of a register over lanes, modulo 2^32. -/
def laneSum (w : Wave) (a : Nat) (ls : List Nat) : Word := ls.foldl (fun t l => t + w.vlane a l) 0

/-- vredsum.i32 (R154) -/
def execVredsumI32 (g : BitVec 3) (d a : BitVec 7) (s : State) : Host.Outcome State Fault Refusal :=
  .next (issue s (fun _ ws => vrInfo 11 g d a 0 1 1 0 0 0 false ws) fun v s =>
    finishInt v s 0 fun w => w.writeV d.toNat v.e fun _ => laneSum v.w a.toNat (lanesOf v.e))

/-- vscan.i32 (R154) -/
def execVscanI32 (g : BitVec 3) (d a : BitVec 7) (s : State) : Host.Outcome State Fault Refusal :=
  .next (issue s (fun _ ws => vrInfo 11 g d a 0 1 1 0 0 0 false ws) fun v s =>
    finishInt v s 0 fun w => w.writeV d.toNat v.e fun l =>
      laneSum v.w a.toNat ((lanesOf v.e).filter (· ≤ l)))

/-! ### Integer dot products of class 12 (R156) -/

/-- vdot4.i8 (R156) -/
def execVdot4I8 (g : BitVec 3) (d a b : BitVec 7) (s : State) : Host.Outcome State Fault Refusal :=
  .next (intDot g d a b 4 8 true true s)

/-- vdot4.n8 (R156) -/
def execVdot4N8 (g : BitVec 3) (d a b : BitVec 7) (s : State) : Host.Outcome State Fault Refusal :=
  .next (intDot g d a b 4 8 false false s)

/-- vdot4.in8 (R156) -/
def execVdot4In8 (g : BitVec 3) (d a b : BitVec 7) (s : State) : Host.Outcome State Fault Refusal :=
  .next (intDot g d a b 4 8 true false s)

/-- vdot8.i4 (R156) -/
def execVdot8I4 (g : BitVec 3) (d a b : BitVec 7) (s : State) : Host.Outcome State Fault Refusal :=
  .next (intDot g d a b 8 4 true true s)

/-- vdot8.n4 (R156) -/
def execVdot8N4 (g : BitVec 3) (d a b : BitVec 7) (s : State) : Host.Outcome State Fault Refusal :=
  .next (intDot g d a b 8 4 false false s)

end Sys2Proof.Machine
end

