-- ==== Sys2Proof/Machine/VecFloat.lean ====
section
/-! DEFINITION. Floating-point vector members: classes 4 to 7 and 29, the compares of class 8, the reductions of class 11
and the dot products of class 12 (spec/09 R139-R148, R154-R156). -/

namespace Sys2Proof.Machine

open Sys2Proof

/-! ### Operands and results -/

/-- ABS and then NEG on an operand's sign bit (R110). -/
def signMods (f : FloatFmt) (abs neg : Bool) (x : Nat) : Nat :=
  let sb := 2 ^ (f.eb + f.mb)
  let x := if abs then x % sb else x
  if neg then (if x / sb % 2 = 1 then x - sb else x + sb) else x

def Env.modA (v : Env) (f : FloatFmt) (x : Nat) : Nat := signMods f (plBit v.xop 12) (plBit v.xop 15) x
def Env.modB (v : Env) (f : FloatFmt) (x : Nat) : Nat := signMods f (plBit v.xop 11) (plBit v.xop 14) x
def Env.modC (v : Env) (f : FloatFmt) (x : Nat) : Nat := signMods f false (plBit v.xop 13) x

/-- The XOP fields of a member's operand forms (R128). -/
def namesA : Nat := xNegA + xAbsA
def namesB : Nat := xNegB + xAbsB
def namesC : Nat := xThird + xNegC
def namesR : Nat := xRound + xSat

/-- The encoding and flags of one element, with the operation's own flags added. -/
def rounded (f : FloatFmt) (e : REnv) (r : XVal × Word) : Nat × Word :=
  let q := roundTo f e r.1
  (q.bits, q.flags ||| r.2)

def ivIf (r : XVal × Bool) : XVal × Word := (r.1, flagIf r.2 fIV)

/-- a + b, a × b, a × b + c on exact values; −0 for an exact zero sum only under RDN (R139). -/
def opAdd (e : REnv) (x y : XVal) : XVal × Word := ivIf (xadd (e.rm == 2) x y)
def opSub (e : REnv) (x y : XVal) : XVal × Word := ivIf (xadd (e.rm == 2) x y.negate)
def opMul (_ : REnv) (x y : XVal) : XVal × Word := ivIf (xmul x y)
def opFma (e : REnv) (x y z : XVal) : XVal × Word :=
  let p := xmul x y
  let r := xadd (e.rm == 2) p.1 z
  (r.1, flagIf (p.2 || r.2) fIV)
def opDiv (_ : REnv) (x y : XVal) : XVal × Word := xdiv x y

/-- R140 on two flushed encodings: the chosen encoding, IV for a NaN input. -/
def minMaxBits (f : FloatFmt) (ftz mx : Bool) (x y : Nat) : Nat × Word :=
  let x := flushBits f ftz x
  let y := flushBits f ftz y
  let a := decodeFloat f x
  let b := decodeFloat f y
  let r := if a.isNan && b.isNan then f.nanBits
    else if a.isNan then y
    else if b.isNan then x
    else if mx then (if xlt true a b then y else x) else (if xlt true b a then y else x)
  (r, flagIf (a.isNan || b.isNan) fIV)

/-- A member's per-lane results, 0 in the lanes outside E. -/
def laneResults (v : Env) (f : Nat → Nat × Word) : List (Nat × Word) :=
  laneIdx.map fun l => if bitAt v.e l then f l else (0, 0)

/-- The lanes that raised a flag of a set. -/
def raisedIn (tb : List (Nat × Word)) (x : Word) : Word := maskOf fun l => (tb.getD l (0, 0)).2 &&& x != 0

/-- Ends a member that writes 32-bit lane results. -/
def finish32 (v : Env) (s : State) (d : Nat) (f : Nat → Nat × Word) : Res :=
  let tb := laneResults v f
  finishFp v s (flagUnion (tb.map Prod.snd)) (raisedIn tb) fun w =>
    w.writeV d v.e fun l => BitVec.ofNat 32 (tb.getD l (0, 0)).1

/-- Ends a member that writes 64-bit lane results. -/
def finish64 (v : Env) (s : State) (d : Nat) (f : Nat → Nat × Word) : Res :=
  let tb := laneResults v f
  finishFp v s (flagUnion (tb.map Prod.snd)) (raisedIn tb) fun w =>
    w.writeV64 d v.e fun l => BitVec.ofNat 64 (tb.getD l (0, 0)).1

/-! ### Shapes -/

/-- A rounding binary FP32 member of class 4 or 7. -/
def f32Bin (cls : Nat) (g : BitVec 3) (d a b : BitVec 7) (op : REnv → XVal → XVal → XVal × Word) (s : State) : State :=
  issue s (fun _ ws => vrInfo cls g d a b 1 1 1 0 (namesA + namesB + namesR) true ws) fun v s =>
    finish32 v s d.toNat fun l =>
      let e := v.renv l
      let x := inputFloat fp32 v.ftz (v.modA fp32 (v.w.vlane a.toNat l).toNat)
      let y := inputFloat fp32 v.ftz (v.modB fp32 (v.w.vlane b.toNat l).toNat)
      rounded fp32 e (op e x y)

/-- A rounding unary FP32 member. -/
def f32Un (cls : Nat) (g : BitVec 3) (d a : BitVec 7) (op : XVal → XVal × Word) (s : State) : State :=
  issue s (fun _ ws => vrInfo cls g d a 0 1 1 0 0 (namesA + namesR) true ws) fun v s =>
    finish32 v s d.toNat fun l =>
      rounded fp32 (v.renv l) (op (inputFloat fp32 v.ftz (v.modA fp32 (v.w.vlane a.toNat l).toNat)))

/-- A unary FP32 member that does not round, on the flushed encoding. -/
def f32Plain (cls : Nat) (g : BitVec 3) (d a : BitVec 7) (flush : Bool) (op : Nat → Nat × Word) (s : State) : State :=
  issue s (fun _ ws => vrInfo cls g d a 0 1 1 0 0 namesA false ws) fun v s =>
    finish32 v s d.toNat fun l =>
      op (flushBits fp32 (v.ftz && flush) (v.modA fp32 (v.w.vlane a.toNat l).toNat))

/-- A minimum or maximum on FP32 (R140). -/
def f32MinMax (mx : Bool) (g : BitVec 3) (d a b : BitVec 7) (s : State) : State :=
  issue s (fun _ ws => vrInfo 4 g d a b 1 1 1 0 (namesA + namesB) false ws) fun v s =>
    finish32 v s d.toNat fun l => minMaxBits fp32 v.ftz mx (v.modA fp32 (v.w.vlane a.toNat l).toNat)
      (v.modB fp32 (v.w.vlane b.toNat l).toNat)

/-- The two results of a packed member put together (R144). -/
def packTwo (r0 r1 : Nat × Word) : Nat × Word := (r0.1 % 65536 + 65536 * (r1.1 % 65536), r0.2 ||| r1.2)

/-- Element j of a packed lane value. -/
def half (x : Word) (j : Nat) : Nat := x.toNat / 65536 ^ j % 65536

/-- A rounding packed member: a op b, or a × b + c when `third` is set (R144). -/
def packed (f : FloatFmt) (third : Bool) (g : BitVec 3) (d a b : BitVec 7)
    (op : REnv → XVal → XVal → XVal → XVal × Word) (s : State) : State :=
  issue s (fun _ ws => vrInfo 5 g d a b 1 1 1 (if third then 1 else 0)
      (namesA + namesB + namesR + (if third then namesC else 0)) true ws) fun v s =>
    finish32 v s d.toNat fun l =>
      let el := fun j =>
        let e := v.renv (l + 32 * j)
        let x := inputFloat f v.ftz (v.modA f (half (v.w.vlane a.toNat l) j))
        let y := inputFloat f v.ftz (v.modB f (half (v.w.vlane b.toNat l) j))
        let z := if third then inputFloat f v.ftz (v.modC f (half (v.w.vlane (v.vc d.toNat) l) j)) else .zero false
        rounded f e (op e x y z)
      packTwo (el 0) (el 1)

/-- A packed FP16 minimum or maximum. -/
def packedMinMax (mx : Bool) (g : BitVec 3) (d a b : BitVec 7) (s : State) : State :=
  issue s (fun _ ws => vrInfo 5 g d a b 1 1 1 0 (namesA + namesB) false ws) fun v s =>
    finish32 v s d.toNat fun l =>
      let el := fun j => minMaxBits fp16 v.ftz mx (v.modA fp16 (half (v.w.vlane a.toNat l) j))
        (v.modB fp16 (half (v.w.vlane b.toNat l) j))
      packTwo (el 0) (el 1)

/-- A rounding FP64 member on pairs (R145). -/
def f64Bin (lb third : Nat) (g : BitVec 3) (d a b : BitVec 7) (op : REnv → XVal → XVal → XVal → XVal × Word)
    (s : State) : State :=
  issue s (fun _ ws => vrInfo 6 g d a b 2 2 lb third
      (namesA + namesR + (if lb = 0 then 0 else namesB) + (if third = 0 then 0 else namesC)) true ws) fun v s =>
    finish64 v s d.toNat fun l =>
      let e := v.renv l
      let x := inputFloat fp64 v.ftz (v.modA fp64 (v.w.vlane64 a.toNat l).toNat)
      let y := if lb = 0 then .zero false else inputFloat fp64 v.ftz (v.modB fp64 (v.w.vlane64 b.toNat l).toNat)
      let z := if third = 0 then .zero false
        else inputFloat fp64 v.ftz (v.modC fp64 (v.w.vlane64 (v.vc d.toNat) l).toNat)
      rounded fp64 e (op e x y z)

/-- An FP64 minimum or maximum. -/
def f64MinMax (mx : Bool) (g : BitVec 3) (d a b : BitVec 7) (s : State) : State :=
  issue s (fun _ ws => vrInfo 6 g d a b 2 2 2 0 (namesA + namesB) false ws) fun v s =>
    finish64 v s d.toNat fun l => minMaxBits fp64 v.ftz mx (v.modA fp64 (v.w.vlane64 a.toNat l).toNat)
      (v.modB fp64 (v.w.vlane64 b.toNat l).toNat)

/-- A floating-point compare (R148): the relation, and whether a NaN sets IV. -/
def cmpF32 (iv : Bool) (g : BitVec 3) (d a b : BitVec 7) (f : XVal → XVal → Bool) (s : State) : State :=
  issue s (fun _ ws => { vrInfo 8 g d a b 0 1 1 0 (namesA + namesB) false ws with bad := decide (15 < d.toNat) })
    fun v s =>
    let tb := laneResults v fun l =>
      let x := inputFloat fp32 v.ftz (v.modA fp32 (v.w.vlane a.toNat l).toNat)
      let y := inputFloat fp32 v.ftz (v.modB fp32 (v.w.vlane b.toNat l).toNat)
      (if f x y then 1 else 0, flagIf (iv && (x.isNan || y.isNan)) fIV)
    finishFp v s (flagUnion (tb.map Prod.snd)) (raisedIn tb) fun w =>
      w.writeP d.toNat ((w.readP d.toNat &&& ~~~ v.e) ||| maskOf fun l => bitAt v.e l && (tb.getD l (0, 0)).1 == 1)

/-- Numerical equality; false for a NaN, −0 equal to +0. -/
def xeq (x y : XVal) : Bool := !x.isNan && !y.isNan && !xlt false x y && !xlt false y x

/-- A floating-point dot product of `n` elements of `len` bits (R156): operands exact, R94's rules. -/
def floatDot (f : FloatFmt) (n len : Nat) (g : BitVec 3) (d a b : BitVec 7) (s : State) : State :=
  issue s (fun _ ws => vrInfo 12 g d a b 1 1 1 1 (namesC + namesR) true ws) fun v s =>
    finish32 v s d.toNat fun l =>
      let e := v.renv l
      let el := fun (x : Word) (k : Nat) => decodeFloat f (x.toNat / 2 ^ (len * k) % 2 ^ len)
      let ps := (numsFrom 0 n).map fun k => (xmul (el (v.w.vlane a.toNat l) k) (el (v.w.vlane b.toNat l) k)).1
      let c := decodeFloat fp32 (v.modC fp32 (v.w.vlane (v.vc d.toNat) l).toNat)
      rounded fp32 e (ivIf (xsum (e.rm == 2) (c :: ps)))

/-! ### Class 4 (Table 9.3) -/

/-- vfadd.f32 (R139) -/
def execVfaddF32 (g : BitVec 3) (d a b : BitVec 7) (s : State) : Host.Outcome State Fault Refusal :=
  .next (f32Bin 4 g d a b opAdd s)

/-- vfsub.f32 (R139) -/
def execVfsubF32 (g : BitVec 3) (d a b : BitVec 7) (s : State) : Host.Outcome State Fault Refusal :=
  .next (f32Bin 4 g d a b opSub s)

/-- vfmul.f32 (R139) -/
def execVfmulF32 (g : BitVec 3) (d a b : BitVec 7) (s : State) : Host.Outcome State Fault Refusal :=
  .next (f32Bin 4 g d a b opMul s)

/-- vfma.f32: one rounding of the exact a × b + c (R139). -/
def execVfmaF32 (g : BitVec 3) (d a b : BitVec 7) (s : State) : Host.Outcome State Fault Refusal :=
  .next (issue s (fun _ ws => vrInfo 4 g d a b 1 1 1 1 (namesA + namesB + namesC + namesR) true ws) fun v s =>
    finish32 v s d.toNat fun l =>
      let e := v.renv l
      let x := inputFloat fp32 v.ftz (v.modA fp32 (v.w.vlane a.toNat l).toNat)
      let y := inputFloat fp32 v.ftz (v.modB fp32 (v.w.vlane b.toNat l).toNat)
      let z := inputFloat fp32 v.ftz (v.modC fp32 (v.w.vlane (v.vc d.toNat) l).toNat)
      rounded fp32 e (opFma e x y z))

/-- vfmin.f32 (R140) -/
def execVfminF32 (g : BitVec 3) (d a b : BitVec 7) (s : State) : Host.Outcome State Fault Refusal :=
  .next (f32MinMax false g d a b s)

/-- vfmax.f32 (R140) -/
def execVfmaxF32 (g : BitVec 3) (d a b : BitVec 7) (s : State) : Host.Outcome State Fault Refusal :=
  .next (f32MinMax true g d a b s)

/-- vfsgn.f32: the sign bit of b over the magnitude bits of a, after ABS and NEG (R131, R139). -/
def execVfsgnF32 (g : BitVec 3) (d a b : BitVec 7) (s : State) : Host.Outcome State Fault Refusal :=
  .next (issue s (fun _ ws => vrInfo 4 g d a b 1 1 1 0 (namesA + namesB) false ws) fun v s =>
    finishInt v s 0 fun w => w.writeV d.toNat v.e fun l =>
      BitVec.ofNat 32 (v.modA fp32 (v.w.vlane a.toNat l).toNat % 2 ^ 31 +
        v.modB fp32 (v.w.vlane b.toNat l).toNat / 2 ^ 31 * 2 ^ 31))

/-- vfscale.f32: a × 2^n, rounded once; zeros and infinities pass (R141). DESIGN CHOICE: an infinite a passes under XOP.SAT too
(assumption log 92). -/
def execVfscaleF32 (g : BitVec 3) (d a b : BitVec 7) (s : State) : Host.Outcome State Fault Refusal :=
  .next (issue s (fun _ ws => vrInfo 4 g d a b 1 1 1 0 (namesA + namesR) true ws) fun v s =>
    finish32 v s d.toNat fun l =>
      let x := inputFloat fp32 v.ftz (v.modA fp32 (v.w.vlane a.toNat l).toNat)
      match x with
      | .inf n => (fp32.signed n fp32.infMag, 0)
      | _ => rounded fp32 (v.renv l) (x.scale (v.w.vlane b.toNat l).toInt, flagIf x.isNan fIV))

/-! ### Class 5 (R144) -/

/-- vhadd.f16x2 (R144) -/
def execVhaddF16x2 (g : BitVec 3) (d a b : BitVec 7) (s : State) : Host.Outcome State Fault Refusal :=
  .next (packed fp16 false g d a b (fun e x y _ => opAdd e x y) s)

/-- vhmul.f16x2 (R144) -/
def execVhmulF16x2 (g : BitVec 3) (d a b : BitVec 7) (s : State) : Host.Outcome State Fault Refusal :=
  .next (packed fp16 false g d a b (fun e x y _ => opMul e x y) s)

/-- vhfma.f16x2 (R144) -/
def execVhfmaF16x2 (g : BitVec 3) (d a b : BitVec 7) (s : State) : Host.Outcome State Fault Refusal :=
  .next (packed fp16 true g d a b (opFma) s)

/-- vhadd.bf16x2 (R144) -/
def execVhaddBf16x2 (g : BitVec 3) (d a b : BitVec 7) (s : State) : Host.Outcome State Fault Refusal :=
  .next (packed bf16 false g d a b (fun e x y _ => opAdd e x y) s)

/-- vhmul.bf16x2 (R144) -/
def execVhmulBf16x2 (g : BitVec 3) (d a b : BitVec 7) (s : State) : Host.Outcome State Fault Refusal :=
  .next (packed bf16 false g d a b (fun e x y _ => opMul e x y) s)

/-- vhfma.bf16x2 (R144) -/
def execVhfmaBf16x2 (g : BitVec 3) (d a b : BitVec 7) (s : State) : Host.Outcome State Fault Refusal :=
  .next (packed bf16 true g d a b (opFma) s)

/-- vhmin.f16x2 (R144) -/
def execVhminF16x2 (g : BitVec 3) (d a b : BitVec 7) (s : State) : Host.Outcome State Fault Refusal :=
  .next (packedMinMax false g d a b s)

/-- vhmax.f16x2 (R144) -/
def execVhmaxF16x2 (g : BitVec 3) (d a b : BitVec 7) (s : State) : Host.Outcome State Fault Refusal :=
  .next (packedMinMax true g d a b s)

/-! ### Class 6 (R145) -/

/-- vdadd.f64 (R145) -/
def execVdaddF64 (g : BitVec 3) (d a b : BitVec 7) (s : State) : Host.Outcome State Fault Refusal :=
  .next (f64Bin 2 0 g d a b (fun e x y _ => opAdd e x y) s)

/-- vdsub.f64 (R145) -/
def execVdsubF64 (g : BitVec 3) (d a b : BitVec 7) (s : State) : Host.Outcome State Fault Refusal :=
  .next (f64Bin 2 0 g d a b (fun e x y _ => opSub e x y) s)

/-- vdmul.f64 (R145) -/
def execVdmulF64 (g : BitVec 3) (d a b : BitVec 7) (s : State) : Host.Outcome State Fault Refusal :=
  .next (f64Bin 2 0 g d a b (fun e x y _ => opMul e x y) s)

/-- vdfma.f64 (R145) -/
def execVdfmaF64 (g : BitVec 3) (d a b : BitVec 7) (s : State) : Host.Outcome State Fault Refusal :=
  .next (f64Bin 2 2 g d a b (opFma) s)

/-- vddiv.f64 (R145) -/
def execVddivF64 (g : BitVec 3) (d a b : BitVec 7) (s : State) : Host.Outcome State Fault Refusal :=
  .next (f64Bin 2 0 g d a b (fun e x y _ => opDiv e x y) s)

/-- vdsqrt.f64 (R145) -/
def execVdsqrtF64 (g : BitVec 3) (d a : BitVec 7) (s : State) : Host.Outcome State Fault Refusal :=
  .next (f64Bin 0 0 g d a 0 (fun _ x _ _ => xsqrt x) s)

/-- vdmin.f64 (R145) -/
def execVdminF64 (g : BitVec 3) (d a b : BitVec 7) (s : State) : Host.Outcome State Fault Refusal :=
  .next (f64MinMax false g d a b s)

/-- vdmax.f64 (R145) -/
def execVdmaxF64 (g : BitVec 3) (d a b : BitVec 7) (s : State) : Host.Outcome State Fault Refusal :=
  .next (f64MinMax true g d a b s)

/-! ### Class 7 (R146, R147) -/

/-- vrcp.f32 (R146) -/
def execVrcpF32 (g : BitVec 3) (d a : BitVec 7) (s : State) : Host.Outcome State Fault Refusal :=
  .next (f32Un 7 g d a (fun x => xdiv (.fin false 1 0 false) x) s)

/-- vrsq.f32 (R146) -/
def execVrsqF32 (g : BitVec 3) (d a : BitVec 7) (s : State) : Host.Outcome State Fault Refusal :=
  .next (f32Un 7 g d a xrsqrt s)

/-- vsqrt.f32 (R146): +Inf is an exactly infinite result, so SAT makes it the greatest magnitude
(R86), the model's choice beside Table 9.5 (log 99). -/
def execVsqrtF32 (g : BitVec 3) (d a : BitVec 7) (s : State) : Host.Outcome State Fault Refusal :=
  .next (f32Un 7 g d a xsqrt s)

/-- vexp2.f32 (R146) -/
def execVexp2F32 (g : BitVec 3) (d a : BitVec 7) (s : State) : Host.Outcome State Fault Refusal :=
  .next (f32Un 7 g d a xexp2 s)

/-- vlog2.f32 (R146) -/
def execVlog2F32 (g : BitVec 3) (d a : BitVec 7) (s : State) : Host.Outcome State Fault Refusal :=
  .next (f32Un 7 g d a xlog2 s)

/-- vsinpi.f32 (R146) -/
def execVsinpiF32 (g : BitVec 3) (d a : BitVec 7) (s : State) : Host.Outcome State Fault Refusal :=
  .next (f32Un 7 g d a xsinpi s)

/-- vcospi.f32 (R146) -/
def execVcospiF32 (g : BitVec 3) (d a : BitVec 7) (s : State) : Host.Outcome State Fault Refusal :=
  .next (f32Un 7 g d a xcospi s)

/-- vdiv.f32 (R146) -/
def execVdivF32 (g : BitVec 3) (d a b : BitVec 7) (s : State) : Host.Outcome State Fault Refusal :=
  .next (f32Bin 7 g d a b opDiv s)

/-! ### Floating-point compares of class 8 (R148) -/

/-- vcmp.eq.f32 (R148) -/
def execVcmpEqF32 (g : BitVec 3) (d a b : BitVec 7) (s : State) : Host.Outcome State Fault Refusal :=
  .next (cmpF32 false g d a b xeq s)

/-- vcmp.lt.f32 (R148) -/
def execVcmpLtF32 (g : BitVec 3) (d a b : BitVec 7) (s : State) : Host.Outcome State Fault Refusal :=
  .next (cmpF32 true g d a b (xlt false) s)

/-- vcmp.le.f32 (R148) -/
def execVcmpLeF32 (g : BitVec 3) (d a b : BitVec 7) (s : State) : Host.Outcome State Fault Refusal :=
  .next (cmpF32 true g d a b (fun x y => xlt false x y || xeq x y) s)

/-- vcmp.un.f32 (R148) -/
def execVcmpUnF32 (g : BitVec 3) (d a b : BitVec 7) (s : State) : Host.Outcome State Fault Refusal :=
  .next (cmpF32 false g d a b (fun x y => x.isNan || y.isNan) s)

/-! ### Floating-point reductions of class 11 (R154, R155) -/

/-- vredmax.f32: the maximum over E under R140; SR.TADDR's mask for FPX is E (R154). -/
def execVredmaxF32 (g : BitVec 3) (d a : BitVec 7) (s : State) : Host.Outcome State Fault Refusal :=
  .next (issue s (fun _ ws => vrInfo 11 g d a 0 1 1 0 0 namesA false ws) fun v s =>
    let xs := (lanesOf v.e).map fun l => flushBits fp32 v.ftz (v.modA fp32 (v.w.vlane a.toNat l).toNat)
    let r := match xs with
      | [] => (0, 0)
      | x :: t => t.foldl (fun (m : Nat × Word) y =>
          let q := minMaxBits fp32 false true m.1 y
          (q.1, m.2 ||| q.2)) (minMaxBits fp32 false true x x)
    finishFp v s r.2 (fun _ => v.e) fun w => w.writeV d.toNat v.e fun _ => BitVec.ofNat 32 r.1)

/-- One level of the fixed tree of R155: absent elements pass, a pair is added and rounded at coord i + 32v. -/
def sumLevel (v : Env) (lv : Nat) : Nat → List (Option Nat × Word) → List (Option Nat × Word)
  | i, (l, fl) :: (q, fq) :: t =>
    (match l, q with
      | l, none => (l, fl ||| fq)
      | none, q => (q, fl ||| fq)
      | some x, some y =>
        let e := v.renv (i + 32 * lv)
        let r := rounded fp32 e (opAdd e (decodeFloat fp32 x) (decodeFloat fp32 y))
        (some (flushBits fp32 v.ftz r.1), fl ||| fq ||| r.2)) :: sumLevel v lv (i + 1) t
  | _, l => l

/-- vredsum.f32 along the fixed tree (R155); a NaN that meets no addition still gives the canonical NaN and IV. -/
def execVredsumF32 (g : BitVec 3) (d a : BitVec 7) (s : State) : Host.Outcome State Fault Refusal :=
  .next (issue s (fun _ ws => vrInfo 11 g d a 0 1 1 0 0 (namesA + namesR) true ws) fun v s =>
    let leaf := fun l =>
      let x := flushBits fp32 v.ftz (v.modA fp32 (v.w.vlane a.toNat l).toNat)
      if !bitAt v.e l then (none, 0)
      else if (decodeFloat fp32 x).isNan then (some fp32.nanBits, fIV) else (some x, 0)
    let r := (sumLevel v 5 0 <| sumLevel v 4 0 <| sumLevel v 3 0 <| sumLevel v 2 0 <| sumLevel v 1 0 <|
      laneIdx.map leaf).headD (none, 0)
    finishFp v s r.2 (fun _ => v.e) fun w => w.writeV d.toNat v.e fun _ => BitVec.ofNat 32 (r.1.getD 0))

/-! ### Floating-point dot products of class 12 (R156) -/

/-- vdot2.bf16 (R156) -/
def execVdot2Bf16 (g : BitVec 3) (d a b : BitVec 7) (s : State) : Host.Outcome State Fault Refusal :=
  .next (floatDot bf16 2 16 g d a b s)

/-- vdot4.e4m3 (R156) -/
def execVdot4E4m3 (g : BitVec 3) (d a b : BitVec 7) (s : State) : Host.Outcome State Fault Refusal :=
  .next (floatDot e4m3 4 8 g d a b s)

/-- vdot8.e2m1 (R156) -/
def execVdot8E2m1 (g : BitVec 3) (d a b : BitVec 7) (s : State) : Host.Outcome State Fault Refusal :=
  .next (floatDot e2m1 8 4 g d a b s)

/-! ### Class 29 (R142, R143) -/

/-- Rounds a to an integral value; only vfrint reports NX (R142). -/
def integral (e : REnv) (nx : Bool) (x : Nat) : Nat × Word :=
  match decodeFloat fp32 x with
  | .nan => (fp32.nanBits, fIV)
  | .inf _ => (x, 0)
  | .zero _ => (x, 0)
  | y =>
    let r := roundIntegral e y
    ((roundTo fp32 ⟨0, 0, false, 0⟩ r.1).bits, flagIf (nx && r.2) fNX)

/-- vfrint: the sampled mode; infinities pass through unchanged (R142), under SAT too, the model's
choice beside R86 (log 92). -/
def execVfrint (g : BitVec 3) (d a : BitVec 7) (s : State) : Host.Outcome State Fault Refusal :=
  .next (issue s (fun _ ws => vrInfo 29 g d a 0 1 1 0 0 (namesA + namesR) true ws) fun v s =>
    finish32 v s d.toNat fun l =>
      integral (v.renv l) true (flushBits fp32 v.ftz (v.modA fp32 (v.w.vlane a.toNat l).toNat)))

/-- vffloor: fixed mode (R142) -/
def execVffloor (g : BitVec 3) (d a : BitVec 7) (s : State) : Host.Outcome State Fault Refusal :=
  .next (f32Plain 29 g d a true (integral ⟨2, 0, false, 0⟩ false) s)

/-- vfceil: fixed mode (R142) -/
def execVfceil (g : BitVec 3) (d a : BitVec 7) (s : State) : Host.Outcome State Fault Refusal :=
  .next (f32Plain 29 g d a true (integral ⟨3, 0, false, 0⟩ false) s)

/-- vftrunc: fixed mode (R142) -/
def execVftrunc (g : BitVec 3) (d a : BitVec 7) (s : State) : Host.Outcome State Fault Refusal :=
  .next (f32Plain 29 g d a true (integral ⟨1, 0, false, 0⟩ false) s)

/-- The class bit of an encoding (Table 9.4). -/
def classBits (x : Nat) : Nat :=
  let sub := isSubnormal fp32 x
  match decodeFloat fp32 x with
  | .nan => 2 ^ 8
  | .inf n => if n then 2 ^ 0 else 2 ^ 7
  | .zero n => if n then 2 ^ 3 else 2 ^ 4
  | .fin n _ _ _ => if n then (if sub then 2 ^ 2 else 2 ^ 1) else (if sub then 2 ^ 5 else 2 ^ 6)

/-- vfclass (R143): from the encoding, without FTZ. -/
def execVfclass (g : BitVec 3) (d a : BitVec 7) (s : State) : Host.Outcome State Fault Refusal :=
  .next (f32Plain 29 g d a false (fun x => (classBits x, 0)) s)

/-- vfexp (R143). -/
def execVfexp (g : BitVec 3) (d a : BitVec 7) (s : State) : Host.Outcome State Fault Refusal :=
  .next (f32Plain 29 g d a true (fun x => match decodeFloat fp32 x with
    | .nan => (0x80000000, fIV)
    | .inf _ => (0x7FFFFFFF, 0)
    | .zero _ => (0x80000000, fDZ)
    | .fin _ m e _ => ((BitVec.ofInt 32 ((Nat.log2 m : Int) + e)).toNat, 0)) s)

/-- vfmant (R143). -/
def execVfmant (g : BitVec 3) (d a : BitVec 7) (s : State) : Host.Outcome State Fault Refusal :=
  .next (f32Plain 29 g d a true (fun x => match decodeFloat fp32 x with
    | .nan => (fp32.nanBits, fIV)
    | .fin n m _ _ => ((roundTo fp32 ⟨0, 0, false, 0⟩ (.fin n m (-(Nat.log2 m : Int)) false)).bits, 0)
    | _ => (x, 0)) s)

/-- vfmed3: the middle of three values under the order of R140; any NaN gives the canonical NaN (R143). -/
def execVfmed3 (g : BitVec 3) (d a b : BitVec 7) (s : State) : Host.Outcome State Fault Refusal :=
  .next (issue s (fun _ ws => vrInfo 29 g d a b 1 1 1 1 (namesA + namesB + namesC) false ws) fun v s =>
    finish32 v s d.toNat fun l =>
      let x := flushBits fp32 v.ftz (v.modA fp32 (v.w.vlane a.toNat l).toNat)
      let y := flushBits fp32 v.ftz (v.modB fp32 (v.w.vlane b.toNat l).toNat)
      let z := flushBits fp32 v.ftz (v.modC fp32 (v.w.vlane (v.vc d.toNat) l).toNat)
      let mn := fun p q => (minMaxBits fp32 false false p q).1
      let mx := fun p q => (minMaxBits fp32 false true p q).1
      if [x, y, z].any fun q => (decodeFloat fp32 q).isNan then (fp32.nanBits, fIV)
      else (mx (mn x y) (mn (mx x y) z), 0))

end Sys2Proof.Machine
end

