-- ==== Sys2Proof/Machine/VecConvert.lean ====
section
/-! DEFINITION. Conversions and block scales: class 9 (spec/09 R149-R152, spec/05 R86-R90). -/

namespace Sys2Proof.Machine

open Sys2Proof

/-! ### Formats and elements (R77, R78, R149) -/

/-- The width of a format's element in a register, 0 for an identifier that names none; an MX format counts as the
byte of its scale. -/
def fmtWidth (i : Nat) : Nat :=
  match i with
  | 0 | 23 => 64
  | 1 | 2 | 21 | 22 => 32
  | 3 | 4 | 14 => 16
  | 5 | 6 | 7 | 8 | 10 | 11 => 8
  | 9 | 12 | 13 => 4
  | 15 | 16 | 17 | 18 | 19 | 20 => 8
  | _ => 0

/-- Whether a slot lies within the limits of the format (R149); `ints` for vcvti2f and vcvtf2i, where ID 1 is a 32-bit
integer of either kind. -/
def slotOk (ints : Bool) (i slot : Nat) : Bool :=
  match fmtWidth i with
  | 64 => slot == 0
  | 32 => slot == 0 || (ints && i == 1 && slot == 1)
  | 16 => decide (slot ≤ 1)
  | _ => true

/-- The range of an integer format, where the ID and slot name one in vcvti2f and vcvtf2i (R77, R150). -/
def intRange (i slot : Nat) : Option (Int × Int) :=
  match i with
  | 1 => if slot = 0 then some (-2147483648, 2147483647) else some (0, 4294967295)
  | 10 => some (-128, 127)
  | 11 => some (0, 255)
  | 12 => some (-8, 7)
  | 13 => some (0, 15)
  | 14 => some (-32768, 32767)
  | _ => none

/-- The bits of an element of `n` bits at slot s of a word. -/
def slotBits (x : Word) (n slot : Nat) : Nat := x.toNat / 2 ^ (n * slot) % 2 ^ n

/-- Puts an element into its slot, keeping the other bits (R149). -/
def putSlot (x : Word) (n slot e : Nat) : Word :=
  let p := 2 ^ (n * slot)
  BitVec.ofNat 32 (x.toNat - slotBits x n slot * p + e % 2 ^ n * p)

/-- What the issue of a class 9 word checks: operand lengths, the slot, the pair of a 4-bit format, and whether the
member accepts the format. -/
def cvtInfo (g : BitVec 3) (d a : BitVec 7) (ld la names : Nat) (rounds okSlot okFmt : Bool) (ws : List Word) :
    OpInfo :=
  let i := vrInfo 9 g d a 0 ld la 0 0 names rounds ws
  { i with bad := i.bad || !okSlot, badFmt := !okFmt }

/-- The element values of a lane: one, or for a 4-bit form two, each with its encoding and flags. -/
def cvtElems (v : Env) (four : Bool) (f : Nat → Nat → Nat × Word) (l : Nat) : List (Nat × Word) :=
  if !bitAt v.e l then [] else if four then [f l 0, f l 1] else [f l 0]

/-- Ends a class 9 member: `two` for a destination pair holding elements 0 and 1; `put` merges the elements of a lane
into the old word. -/
def finishCvt (v : Env) (s : State) (d : Nat) (two : Bool) (el : Nat → List (Nat × Word))
    (put : Word → List Nat → Word) : Res :=
  let tb := laneIdx.map el
  let get := fun l => tb.getD l []
  let fl := flagUnion (tb.flatten.map Prod.snd)
  finishFp v s fl (fun x => maskOf fun l => (get l).any fun r => r.2 &&& x != 0) fun w =>
    if two then
      (w.writeV d v.e fun l => BitVec.ofNat 32 (((get l).getD 0 (0, 0)).1)).writeV (d + 1) v.e fun l =>
        BitVec.ofNat 32 (((get l).getD 1 (0, 0)).1)
    else w.writeV d v.e fun l => put (w.vlane d l) ((get l).map Prod.fst)

/-- Puts the element, or the two nibbles of a byte slot, into a word. -/
def putElems (n slot : Nat) (x : Word) (es : List Nat) : Word :=
  if n = 4 then putSlot x 8 slot (es.getD 0 0 % 16 + 16 * (es.getD 1 0 % 16))
  else if n = 32 then BitVec.ofNat 32 (es.getD 0 0)
  else putSlot x n slot (es.getD 0 0)

/-- A rounding conversion of a value to a format, with IV for a NaN input. -/
def cvtTo (f : FloatFmt) (e : REnv) (x : XVal) : Nat × Word := rounded f e (x, flagIf x.isNan fIV)

/-- An exact conversion; a NaN becomes the canonical NaN with IV (R89, R151). -/
def cvtExact (f : FloatFmt) (x : XVal) : Nat × Word := rounded f ⟨0, 0, false, 0⟩ (x, flagIf x.isNan fIV)

/-- The element number that RSD takes at a conversion into slot s (R85, R151): the nibble of a 4-bit pair, the byte slot of
an 8-bit or FP6 element, 0 for a wider one (assumption log 62). -/
def rsdElem (n slot j : Nat) : Nat := if n = 4 then j else if n = 8 then slot else 0

/-- The FP32 source of element j of a lane: Va, or Va+1 for the high nibble. -/
def Env.srcF32 (v : Env) (a l j : Nat) : XVal :=
  inputFloat fp32 v.ftz (v.modA fp32 (v.w.vlane (a + j) l).toNat)

/-- The encoding of element j of a lane's source element: the slot of Va, or its nibble j. -/
def Env.srcSlot (v : Env) (a l n slot j : Nat) : Nat :=
  let x := v.w.vlane a l
  if n = 4 then slotBits x 8 slot / 16 ^ j % 16 else if n = 32 then x.toNat else slotBits x n slot

/-! ### Members (Table 9.6) -/

/-- vcvtn: FP32 to a narrower float (R150, R151). NEGA and ABSA act on both values of a 4-bit pair (assumption log 27). -/
def execVcvtn (g : BitVec 3) (d a : BitVec 7) (fmt : BitVec 5) (slot : BitVec 2) (s : State) :
    Host.Outcome State Fault Refusal :=
  let i := fmt.toNat
  let n := fmtWidth i
  .next (issue s (fun _ ws => cvtInfo g d a 1 (if n = 4 then 2 else 1) (namesR + namesA) true
      (slotOk false i slot.toNat) (decide (2 ≤ i ∧ i ≤ 9)) ws) fun v s =>
    let f := (floatFmt i).getD fp32
    finishCvt v s d.toNat false
      (cvtElems v (n == 4) fun l j => cvtTo f (v.renv (l + 32 * rsdElem n slot.toNat j)) (v.srcF32 a.toNat l j))
      (putElems n slot.toNat))

/-- vcvtw: a narrower float to FP32, exactly (R150, R151). -/
def execVcvtw (g : BitVec 3) (d a : BitVec 7) (fmt : BitVec 5) (slot : BitVec 2) (s : State) :
    Host.Outcome State Fault Refusal :=
  let i := fmt.toNat
  let n := fmtWidth i
  .next (issue s (fun _ ws => cvtInfo g d a (if n = 4 then 2 else 1) 1 (if n = 4 then 0 else namesA) false
      (slotOk false i slot.toNat) (decide (2 ≤ i ∧ i ≤ 9)) ws) fun v s =>
    let f := (floatFmt i).getD fp32
    finishCvt v s d.toNat (n == 4)
      (cvtElems v (n == 4) fun l j =>
        let x := v.srcSlot a.toNat l n slot.toNat j
        cvtExact fp32 (inputFloat f v.ftz (if n = 4 then x else v.modA f (x % 2 ^ (f.eb + f.mb + 1)))))
      (putElems 32 0))

/-- vcvti2f: an integer to FP32 (R89, R150). -/
def execVcvti2f (g : BitVec 3) (d a : BitVec 7) (fmt : BitVec 5) (slot : BitVec 2) (s : State) :
    Host.Outcome State Fault Refusal :=
  let i := fmt.toNat
  let n := fmtWidth i
  .next (issue s (fun _ ws => cvtInfo g d a (if n = 4 then 2 else 1) 1 namesR true
      (slotOk true i slot.toNat) (intRange i slot.toNat).isSome ws) fun v s =>
    let neg := decide (((intRange i slot.toNat).getD (0, 0)).1 < 0)
    finishCvt v s d.toNat (n == 4)
      (cvtElems v (n == 4) fun l j =>
        let x := v.srcSlot a.toNat l n slot.toNat j
        rounded fp32 (v.renv (l + 32 * j)) (xOfInt (if neg then signed n x else x), 0))
      (putElems 32 0))

/-- vcvtf2i: FP32 to an integer, clamped (R88, R150). NEGA and ABSA act on both values of a 4-bit pair (assumption log
27). -/
def execVcvtf2i (g : BitVec 3) (d a : BitVec 7) (fmt : BitVec 5) (slot : BitVec 2) (s : State) :
    Host.Outcome State Fault Refusal :=
  let i := fmt.toNat
  let n := fmtWidth i
  .next (issue s (fun _ ws => cvtInfo g d a 1 (if n = 4 then 2 else 1) namesA true
      (slotOk true i slot.toNat) (intRange i slot.toNat).isSome ws) fun v s =>
    let r := (intRange i slot.toNat).getD (0, 0)
    finishCvt v s d.toNat false
      (cvtElems v (n == 4) fun l j =>
        let q := roundInt (v.renv (l + 32 * rsdElem n slot.toNat j)) r.1 r.2 (v.srcF32 a.toNat l j)
        ((BitVec.ofInt 32 q.1).toNat, q.2)) (putElems n slot.toNat))

/-- vcvtd2f: FP64 to a narrower float (R150, R151). -/
def execVcvtd2f (g : BitVec 3) (d a : BitVec 7) (fmt : BitVec 5) (slot : BitVec 2) (s : State) :
    Host.Outcome State Fault Refusal :=
  let i := fmt.toNat
  .next (issue s (fun _ ws => cvtInfo g d a 1 2 (namesR + namesA) true
      (slotOk false i slot.toNat) (decide (1 ≤ i ∧ i ≤ 4)) ws) fun v s =>
    let f := (floatFmt i).getD fp32
    finishCvt v s d.toNat false
      (cvtElems v false fun l _ =>
        cvtTo f (v.renv l) (inputFloat fp64 v.ftz (v.modA fp64 (v.w.vlane64 a.toNat l).toNat)))
      (putElems (fmtWidth i) slot.toNat))

/-- vcvtf2d: a narrower float to FP64, exactly (R150, R151). -/
def execVcvtf2d (g : BitVec 3) (d a : BitVec 7) (fmt : BitVec 5) (slot : BitVec 2) (s : State) :
    Host.Outcome State Fault Refusal :=
  let i := fmt.toNat
  .next (issue s (fun _ ws => cvtInfo g d a 2 1 namesA false
      (slotOk false i slot.toNat) (decide (1 ≤ i ∧ i ≤ 8)) ws) fun v s =>
    let f := (floatFmt i).getD fp32
    finish64 v s d.toNat fun l =>
      let x := v.srcSlot a.toNat l (fmtWidth i) slot.toNat 0
      cvtExact fp64 (inputFloat f v.ftz (v.modA f (x % 2 ^ (f.eb + f.mb + 1)))))

/-- vsrnd: rounds to a format's grid and keeps FP32 (R151). -/
def execVsrnd (g : BitVec 3) (d a : BitVec 7) (fmt : BitVec 5) (slot : BitVec 2) (s : State) :
    Host.Outcome State Fault Refusal :=
  let i := fmt.toNat
  .next (issue s (fun _ ws => cvtInfo g d a 1 1 (namesR + namesA) true
      (slot == 0) (decide (2 ≤ i ∧ i ≤ 9)) ws) fun v s =>
    let f := (floatFmt i).getD fp32
    finish32 v s d.toNat fun l =>
      let r := cvtTo f (v.renv l) (v.srcF32 a.toNat l 0)
      ((roundTo fp32 ⟨0, 0, false, 0⟩ (decodeFloat f r.1)).bits, r.2))

/-- The exponent of the largest normal of an MX element format (R90). -/
def mxEmax (i : Nat) : Int :=
  match i with
  | 15 => 8
  | 16 => 15
  | 17 => 4
  | 18 | 19 => 2
  | _ => 0

/-- ⌊log2⌋ of a finite nonzero value's magnitude. -/
def xlog (x : XVal) : Option Int :=
  match x with
  | .fin _ m e _ => some ((Nat.log2 m : Int) + e)
  | _ => none

/-- The E8M0 scale of a block (R90). -/
def blockScale (i : Nat) (xs : List XVal) : Nat :=
  if xs.any fun x => x.isNan || x.isInf then 0xFF
  else match (xs.filterMap xlog).max? with
    | none => 127
    | some l => (max 0 (min 254 (l - mxEmax i + 127))).toNat

/-- vmxs: one E8M0 scale over the lanes of E (R152). -/
def execVmxs (g : BitVec 3) (d a : BitVec 7) (fmt : BitVec 5) (slot : BitVec 2) (s : State) :
    Host.Outcome State Fault Refusal :=
  let i := fmt.toNat
  .next (issue s (fun _ ws => cvtInfo g d a 1 1 namesA false
      (slotOk false i slot.toNat) (decide (15 ≤ i ∧ i ≤ 20)) ws) fun v s =>
    let x := blockScale i ((lanesOf v.e).map fun l => v.srcF32 a.toNat l 0)
    finishInt v s 0 fun w => w.writeV d.toNat v.e fun l => putSlot (w.vlane d.toNat l) 8 slot.toNat x)

end Sys2Proof.Machine
end

