-- ==== Sys2Proof/Machine/Scalar.lean ====
section
/-! DEFINITION. Scalar arithmetic, immediates, moves, predicates, special registers and the pool tag: classes 13 to 15
(spec/09 R157-R165; spec/05 R67-R74). -/

namespace Sys2Proof.Machine

open Sys2Proof

/-! ### Class 13 -/

/-- Issue checks of an SR word of class 13 or 15; runs of S registers, a pair with an odd base being ILLEGAL. -/
def srInfo (cls : Nat) (rs ws da db : List RegRun) (bad : Bool) : OpInfo :=
  let odd := (rs ++ ws).any fun r => match r with
    | .s n len => decide (len = 2 ∧ n % 2 = 1)
    | .v _ _ => false
  { cls := cls, rs := rs, ws := ws, bad := bad || odd, deadA := da, deadB := db }

/-- A scalar member of operand lengths `ld`, `la`, `lb`. -/
def scalarInfo (d a b : BitVec 7) (ld la lb : Nat) : OpInfo :=
  srInfo 13 [.s a.toNat la, .s b.toNat lb] [.s d.toNat ld] [.s a.toNat la] [.s b.toNat lb] false

/-- A 32-bit scalar member (R157). -/
def scalar32 (d a b : BitVec 7) (f : Word → Word → Word) (s : State) : State :=
  issue s (fun _ _ => scalarInfo d a b 1 1 1) fun v s =>
    finishInt v s 0 fun w => w.writeS d.toNat (f (v.w.readS a.toNat) (v.w.readS b.toNat))

/-- A 64-bit scalar member on pairs (R157). -/
def scalar64 (d a b : BitVec 7) (f : DWord → DWord → DWord) (s : State) : State :=
  issue s (fun _ _ => scalarInfo d a b 2 2 2) fun v s =>
    finishInt v s 0 fun w => w.writeS64 d.toNat (f (v.w.readS64 a.toNat) (v.w.readS64 b.toNat))

/-- A 64-bit shift by sb[5:0] (R157). -/
def scalarShift64 (d a b : BitVec 7) (f : DWord → Nat → DWord) (s : State) : State :=
  issue s (fun _ _ => scalarInfo d a b 2 2 1) fun v s =>
    finishInt v s 0 fun w => w.writeS64 d.toNat (f (v.w.readS64 a.toNat) ((v.w.readS b.toNat).toNat % 64))

/-- Truth as a scalar. -/
def truth (b : Bool) : Word := if b then 1 else 0

/-- The coordinate of a scalar rounding site (R85). -/
def scalarCoord : Nat := 2 ^ 40

/-- Ends a scalar floating-point member; SR.TADDR's mask for FPX is 0 (R159). -/
def finishScalarFp (v : Env) (s : State) (d : Nat) (r : Nat × Word) : Res :=
  finishFp v s r.2 (fun _ => 0) fun w => w.writeS d (BitVec.ofNat 32 r.1)

/-- The FP32 value of a scalar operand, flushed under FTZ. -/
def Env.sF32 (v : Env) (n : Nat) : XVal := inputFloat fp32 v.ftz (v.w.readS n).toNat

/-- Signed quotient and remainder (R158). -/
def divSigned (a b : Word) : Word × Word :=
  if b = 0 then (0xFFFFFFFF, a)
  else if a = 0x80000000 ∧ b = 0xFFFFFFFF then (0x80000000, 0)
  else
    let q := Int.tdiv a.toInt b.toInt
    (BitVec.ofInt 32 q, BitVec.ofInt 32 (a.toInt - q * b.toInt))

/-- Unsigned quotient and remainder (R158). -/
def divUnsigned (a b : Word) : Word × Word :=
  if b = 0 then (0xFFFFFFFF, a) else (BitVec.ofNat 32 (a.toNat / b.toNat), BitVec.ofNat 32 (a.toNat % b.toNat))

/-- sadd (R157) -/
def execSadd (d a b : BitVec 7) (s : State) : Host.Outcome State Fault Refusal :=
  .next (scalar32 d a b (fun x y => x + y) s)

/-- ssub (R157) -/
def execSsub (d a b : BitVec 7) (s : State) : Host.Outcome State Fault Refusal :=
  .next (scalar32 d a b (fun x y => x - y) s)

/-- smullo (R157) -/
def execSmullo (d a b : BitVec 7) (s : State) : Host.Outcome State Fault Refusal :=
  .next (scalar32 d a b (fun x y => x * y) s)

/-- smulhi.i32 (R157) -/
def execSmulhiI32 (d a b : BitVec 7) (s : State) : Host.Outcome State Fault Refusal :=
  .next (scalar32 d a b (fun x y => BitVec.ofInt 32 (x.toInt * y.toInt / 2 ^ 32)) s)

/-- smulhi.n32 (R157) -/
def execSmulhiN32 (d a b : BitVec 7) (s : State) : Host.Outcome State Fault Refusal :=
  .next (scalar32 d a b (fun x y => BitVec.ofNat 32 (x.toNat * y.toNat / 2 ^ 32)) s)

/-- sdiv.i32 (R158) -/
def execSdivI32 (d a b : BitVec 7) (s : State) : Host.Outcome State Fault Refusal :=
  .next (scalar32 d a b (fun x y => (divSigned x y).1) s)

/-- sdiv.n32 (R158) -/
def execSdivN32 (d a b : BitVec 7) (s : State) : Host.Outcome State Fault Refusal :=
  .next (scalar32 d a b (fun x y => (divUnsigned x y).1) s)

/-- srem.i32 (R158) -/
def execSremI32 (d a b : BitVec 7) (s : State) : Host.Outcome State Fault Refusal :=
  .next (scalar32 d a b (fun x y => (divSigned x y).2) s)

/-- srem.n32 (R158) -/
def execSremN32 (d a b : BitVec 7) (s : State) : Host.Outcome State Fault Refusal :=
  .next (scalar32 d a b (fun x y => (divUnsigned x y).2) s)

/-- smin.i32 (R157) -/
def execSminI32 (d a b : BitVec 7) (s : State) : Host.Outcome State Fault Refusal :=
  .next (scalar32 d a b (fun x y => if y.toInt < x.toInt then y else x) s)

/-- smin.n32 (R157) -/
def execSminN32 (d a b : BitVec 7) (s : State) : Host.Outcome State Fault Refusal :=
  .next (scalar32 d a b (fun x y => if y.toNat < x.toNat then y else x) s)

/-- smax.i32 (R157) -/
def execSmaxI32 (d a b : BitVec 7) (s : State) : Host.Outcome State Fault Refusal :=
  .next (scalar32 d a b (fun x y => if x.toInt < y.toInt then y else x) s)

/-- smax.n32 (R157) -/
def execSmaxN32 (d a b : BitVec 7) (s : State) : Host.Outcome State Fault Refusal :=
  .next (scalar32 d a b (fun x y => if x.toNat < y.toNat then y else x) s)

/-- sand (R157) -/
def execSand (d a b : BitVec 7) (s : State) : Host.Outcome State Fault Refusal :=
  .next (scalar32 d a b (fun x y => x &&& y) s)

/-- sor (R157) -/
def execSor (d a b : BitVec 7) (s : State) : Host.Outcome State Fault Refusal :=
  .next (scalar32 d a b (fun x y => x ||| y) s)

/-- sxor (R157) -/
def execSxor (d a b : BitVec 7) (s : State) : Host.Outcome State Fault Refusal :=
  .next (scalar32 d a b (fun x y => x ^^^ y) s)

/-- sshl: by sb[4:0] (R157). -/
def execSshl (d a b : BitVec 7) (s : State) : Host.Outcome State Fault Refusal :=
  .next (scalar32 d a b (fun x y => x <<< (y.toNat % 32)) s)

/-- sshr.n32 (R157) -/
def execSshrN32 (d a b : BitVec 7) (s : State) : Host.Outcome State Fault Refusal :=
  .next (scalar32 d a b (fun x y => x >>> (y.toNat % 32)) s)

/-- sshr.i32 (R157) -/
def execSshrI32 (d a b : BitVec 7) (s : State) : Host.Outcome State Fault Refusal :=
  .next (scalar32 d a b (fun x y => x.sshiftRight (y.toNat % 32)) s)

/-- sadd.i64 (R157) -/
def execSaddI64 (d a b : BitVec 7) (s : State) : Host.Outcome State Fault Refusal :=
  .next (scalar64 d a b (fun x y => x + y) s)

/-- ssub.i64 (R157) -/
def execSsubI64 (d a b : BitVec 7) (s : State) : Host.Outcome State Fault Refusal :=
  .next (scalar64 d a b (fun x y => x - y) s)

/-- smul.i64 (R157) -/
def execSmulI64 (d a b : BitVec 7) (s : State) : Host.Outcome State Fault Refusal :=
  .next (scalar64 d a b (fun x y => x * y) s)

/-- sshl.b64 (R157) -/
def execSshlB64 (d a b : BitVec 7) (s : State) : Host.Outcome State Fault Refusal :=
  .next (scalarShift64 d a b (fun x n => x <<< n) s)

/-- sshr.n64 (R157) -/
def execSshrN64 (d a b : BitVec 7) (s : State) : Host.Outcome State Fault Refusal :=
  .next (scalarShift64 d a b (fun x n => x >>> n) s)

/-- scmp.eq (R157) -/
def execScmpEq (d a b : BitVec 7) (s : State) : Host.Outcome State Fault Refusal :=
  .next (scalar32 d a b (fun x y => truth (x == y)) s)

/-- scmp.lt.i32 (R157) -/
def execScmpLtI32 (d a b : BitVec 7) (s : State) : Host.Outcome State Fault Refusal :=
  .next (scalar32 d a b (fun x y => truth (decide (x.toInt < y.toInt))) s)

/-- scmp.lt.n32 (R157) -/
def execScmpLtN32 (d a b : BitVec 7) (s : State) : Host.Outcome State Fault Refusal :=
  .next (scalar32 d a b (fun x y => truth (decide (x.toNat < y.toNat))) s)

/-- sfadd.f32 (R159) -/
def execSfaddF32 (d a b : BitVec 7) (s : State) : Host.Outcome State Fault Refusal :=
  .next (issue s (fun _ _ => { scalarInfo d a b 1 1 1 with rounds := true }) fun v s =>
    let e := v.renv scalarCoord
    finishScalarFp v s d.toNat (rounded fp32 e (opAdd e (v.sF32 a.toNat) (v.sF32 b.toNat))))

/-- sfmul.f32 (R159) -/
def execSfmulF32 (d a b : BitVec 7) (s : State) : Host.Outcome State Fault Refusal :=
  .next (issue s (fun _ _ => { scalarInfo d a b 1 1 1 with rounds := true }) fun v s =>
    let e := v.renv scalarCoord
    finishScalarFp v s d.toNat (rounded fp32 e (opMul e (v.sF32 a.toNat) (v.sF32 b.toNat))))

/-- sfma.f32: reads sd as the addend, one rounding (R159). -/
def execSfmaF32 (d a b : BitVec 7) (s : State) : Host.Outcome State Fault Refusal :=
  .next (issue s (fun _ _ =>
      let i := scalarInfo d a b 1 1 1
      { i with rounds := true, rs := i.rs ++ [.s d.toNat 1] }) fun v s =>
    let e := v.renv scalarCoord
    finishScalarFp v s d.toNat
      (rounded fp32 e (opFma e (v.sF32 a.toNat) (v.sF32 b.toNat) (v.sF32 d.toNat))))

/-- scvtf2i: FP32 to INT32 (R88, R159). -/
def execScvtf2i (d a : BitVec 7) (s : State) : Host.Outcome State Fault Refusal :=
  .next (issue s (fun _ _ => { srInfo 13 [.s a.toNat 1] [.s d.toNat 1] [.s a.toNat 1] [] false with rounds := true })
    fun v s =>
    let q := roundInt (v.renv scalarCoord) (-2147483648) 2147483647 (v.sF32 a.toNat)
    finishScalarFp v s d.toNat ((BitVec.ofInt 32 q.1).toNat, q.2))

/-- scvti2f: INT32 to FP32 (R89, R159). -/
def execScvti2f (d a : BitVec 7) (s : State) : Host.Outcome State Fault Refusal :=
  .next (issue s (fun _ _ => { srInfo 13 [.s a.toNat 1] [.s d.toNat 1] [.s a.toNat 1] [] false with rounds := true })
    fun v s =>
    finishScalarFp v s d.toNat (rounded fp32 (v.renv scalarCoord) (xOfInt (v.w.readS a.toNat).toInt, 0)))

/-! ### Class 14 (R160) -/

/-- The value v of a scalar immediate: the composite sign-extended, its low 32 bits. -/
def scalarImm (x : Option Nat) (imm : BitVec 10) : Word := BitVec.ofInt 32 (compositeInt x 10 imm.toNat)

/-- A scalar immediate member. -/
def scalarImmOp (d a : BitVec 7) (imm : BitVec 10) (f : Word → Word → Word) (s : State) : State :=
  issue s (fun _ _ => { srInfo 14 [.s a.toNat 1] [.s d.toNat 1] [.s a.toNat 1] [] false with ximm := true })
    fun v s => finishInt v s 0 fun w => w.writeS d.toNat (f (v.w.readS a.toNat) (scalarImm v.ximm imm))

/-- A scalar shift by an immediate, whose count must be 0 to 31. -/
def scalarShiftImm (d a : BitVec 7) (imm : BitVec 10) (f : Word → Nat → Word) (s : State) : State :=
  issue s (fun _ ws =>
      { srInfo 14 [.s a.toNat 1] [.s d.toNat 1] [.s a.toNat 1] []
          (decide (31 < (scalarImm (prefixOf ws 0) imm).toNat)) with ximm := true })
    fun v s => finishInt v s 0 fun w => w.writeS d.toNat (f (v.w.readS a.toNat) (scalarImm v.ximm imm).toNat)

/-- saddi (R160) -/
def execSaddi (d a : BitVec 7) (imm : BitVec 10) (s : State) : Host.Outcome State Fault Refusal :=
  .next (scalarImmOp d a imm (fun x y => x + y) s)

/-- sandi (R160) -/
def execSandi (d a : BitVec 7) (imm : BitVec 10) (s : State) : Host.Outcome State Fault Refusal :=
  .next (scalarImmOp d a imm (fun x y => x &&& y) s)

/-- sori (R160) -/
def execSori (d a : BitVec 7) (imm : BitVec 10) (s : State) : Host.Outcome State Fault Refusal :=
  .next (scalarImmOp d a imm (fun x y => x ||| y) s)

/-- sxori (R160) -/
def execSxori (d a : BitVec 7) (imm : BitVec 10) (s : State) : Host.Outcome State Fault Refusal :=
  .next (scalarImmOp d a imm (fun x y => x ^^^ y) s)

/-- sshli (R160) -/
def execSshli (d a : BitVec 7) (imm : BitVec 10) (s : State) : Host.Outcome State Fault Refusal :=
  .next (scalarShiftImm d a imm (fun x n => x <<< n) s)

/-- sshri (R160) -/
def execSshri (d a : BitVec 7) (imm : BitVec 10) (s : State) : Host.Outcome State Fault Refusal :=
  .next (scalarShiftImm d a imm (fun x n => x >>> n) s)

/-- slui (R160) -/
def execSlui (d a : BitVec 7) (imm : BitVec 10) (s : State) : Host.Outcome State Fault Refusal :=
  .next (scalarImmOp d a imm (fun x y => (y <<< 16) ||| (x &&& 0xFFFF)) s)

/-- smovi (R160) -/
def execSmovi (d : BitVec 7) (imm : BitVec 10) (s : State) : Host.Outcome State Fault Refusal :=
  .next (issue s (fun _ _ => { srInfo 14 [] [.s d.toNat 1] [] [] false with ximm := true })
    fun v s => finishInt v s 0 fun w => w.writeS d.toNat (scalarImm v.ximm imm))

/-! ### Special registers (R67-R74, Table 5.6) -/

/-- The width of a special register in 32-bit registers, 0 for a number not in the table or not read by srsr. -/
def srWidth (n : Nat) : Nat :=
  if n ∈ [0x00, 0x01, 0x03, 0x06, 0x07, 0x08, 0x0C] then 1
  else if n ∈ [0x02, 0x04, 0x05, 0x09, 0x0A, 0x0B, 0x10, 0x11, 0x12, 0x13] then 2
  else if 0x18 ≤ n ∧ n ≤ 0x1F then 2
  else 0

/-- Whether a read needs S mode. -/
def srReadPriv (n : Nat) : Bool := decide (0x08 ≤ n ∧ n ≤ 0x0C) || decide (0x10 ≤ n ∧ n ≤ 0x13)

/-- Whether a write needs S mode. -/
def srWritePriv (n : Nat) : Bool :=
  n == 0x05 || decide (0x08 ≤ n ∧ n ≤ 0x0B) || decide (0x10 ≤ n ∧ n ≤ 0x13) || decide (0x18 ≤ n ∧ n ≤ 0x1F)

/-- Whether swsr may write the register at all. -/
def srWritable (n : Nat) : Bool := srWritePriv n || n == 0x00 || n == 0x01 || n == 0x02 || n == 0x07

/-- Whether a value puts a nonzero value in a reserved field. -/
def srReservedBits (n : Nat) (x : Nat) : Bool :=
  match n with
  | 0x00 => x / 2 ^ 10 != 0
  | 0x01 => x / 2 ^ 6 != 0
  | 0x07 => x / 2 ^ 6 != 0
  | 0x08 => x / 2 ^ 16 != 0
  | _ => decide (0x18 ≤ n ∧ n ≤ 0x1F) && x / 2 ^ 16 != 0

/-- SR.PLACE (R72). -/
def placeOf (core quad slot : Nat) : Nat :=
  core / 48 % 4 * 2 ^ 30 + core % 48 / 4 * 2 ^ 26 + core % 4 * 2 ^ 24 + quad % 4 * 2 ^ 22 + slot % 16 * 2 ^ 18

/-- The value srsr reads. -/
def srRead (s : State) (w : Wave) (n : Nat) : Nat :=
  let g := fget s.gangs w.gang
  match n with
  | 0x00 => w.mode.toNat
  | 0x01 => w.flags.toNat
  | 0x02 => w.seed.toNat
  | 0x03 => w.ptag.toNat
  | 0x04 => ticks s
  | 0x05 => w.iseq.toNat
  | 0x06 => placeOf ((g.map Gang.core).getD 0) w.quad w.slot
  | 0x07 => ((g.map Gang.eflags).getD 0).toNat
  | 0x08 => w.tcause.toNat
  | 0x09 => w.tpc.toNat
  | 0x0A => w.tresume.toNat
  | 0x0B => w.taddr.toNat
  | 0x0C => w.tlog.toNat
  | 0x10 => w.scra.toNat
  | 0x11 => w.scrb.toNat
  | 0x12 => w.scrc.toNat
  | 0x13 => w.scrd.toNat
  | _ => match g with
    | some g => ((g.ctxs[n - 0x18]?).map Ctx.prog).getD 0
    | none => 0

/-- A write of SR.MPROGk: taken only while Ek is stopped; the retry then resumes its oldest operation there (R73). DESIGN CHOICE: the
retry begins at the written progress, and what lies below it is not written again (assumption log 85). -/
def writeProg (s : State) (g k p : Nat) : State :=
  modCtx s g k fun c =>
    if c.stopped || c.retry then
      { c with prog := p, ops := c.ops.mapIdx fun i o => if i = 0 then { o with landed := numsFrom 0 p } else o }
    else c

/-- A write of a special register by swsr. -/
def srWrite (s : State) (wid gid n : Nat) (x : Nat) : State :=
  let x32 : Word := BitVec.ofNat 32 x
  let x64 : DWord := BitVec.ofNat 64 x
  match n with
  | 0x00 => modWave s wid fun w => { w with mode := x32 }
  | 0x01 => modWave s wid fun w => { w with flags := x32 }
  | 0x02 => modWave s wid fun w => { w with seed := x64 }
  | 0x05 => modWave s wid fun w => { w with iseq := x64 }
  | 0x07 => modGang s gid fun g => { g with eflags := x32 ||| if g.posted.1 = s.time / 5 then g.posted.2 else 0 }
  | 0x08 => modWave s wid fun w => { w with tcause := x32 }
  | 0x09 => modWave s wid fun w => { w with tpc := x64 }
  | 0x0A => modWave s wid fun w => { w with tresume := x64 }
  | 0x0B => modWave s wid fun w => { w with taddr := x64 }
  | 0x10 => modWave s wid fun w => { w with scra := x64 }
  | 0x11 => modWave s wid fun w => { w with scrb := x64 }
  | 0x12 => modWave s wid fun w => { w with scrc := x64 }
  | 0x13 => modWave s wid fun w => { w with scrd := x64 }
  | _ => writeProg s gid (n - 0x18) x

/-! ### Class 15 (R161-R165, Table 9.7) -/

/-- vbcast: every issuing lane (R161). -/
def execVbcast (d a : BitVec 7) (s : State) : Host.Outcome State Fault Refusal :=
  .next (issue s (fun _ _ => srInfo 15 [.s a.toNat 1] [.v d.toNat 1] [.s a.toNat 1] [] false) fun v s =>
    finishInt v s 0 fun w => w.writeV d.toNat v.iss fun _ => v.w.readS a.toNat)

/-- vrdlane (R162) -/
def execVrdlane (d a b : BitVec 7) (s : State) : Host.Outcome State Fault Refusal :=
  .next (issue s (fun _ _ => srInfo 15 [.v a.toNat 1, .s b.toNat 1] [.s d.toNat 1] [.v a.toNat 1] [.s b.toNat 1] false)
    fun v s => finishInt v s 0 fun w =>
      w.writeS d.toNat (v.w.vlane a.toNat ((v.w.readS b.toNat).toNat % 32)))

/-- vwrlane: one lane, whatever its state (R162). -/
def execVwrlane (d a b : BitVec 7) (s : State) : Host.Outcome State Fault Refusal :=
  .next (issue s (fun _ _ => srInfo 15 [.s a.toNat 1, .s b.toNat 1] [.v d.toNat 1] [.s a.toNat 1] [.s b.toNat 1] false)
    fun v s => finishInt v s 0 fun w =>
      w.writeV d.toNat (maskOf (· == (v.w.readS b.toNat).toNat % 32)) fun _ => v.w.readS a.toNat)

/-- vlpc: a lane's PC; in S mode, of the held state (R162, spec/23 R371). The address of an exit or a wait with prefixes is that
of its chain's first word (assumption log 75). -/
def execVlpc (d b : BitVec 7) (s : State) : Host.Outcome State Fault Refusal :=
  .next (issue s (fun _ _ => srInfo 15 [.s b.toNat 1] [.s d.toNat 2] [] [.s b.toNat 1] false) fun v s =>
    let l := (v.w.readS b.toNat).toNat % 32
    finishInt v s 0 fun w =>
      w.writeS64 d.toNat (if v.w.priv = .s then v.w.held.pcs.getD l 0 else v.w.pc l))

/-- srsr (R67). A read of SR.FLAGS waits for the wave's floating-point atomics (spec/11 R186). -/
def execSrsr (d a : BitVec 7) (s : State) : Host.Outcome State Fault Refusal :=
  let n := a.toNat
  .next (issue s (fun _ _ =>
      { srInfo 15 [] [.s d.toNat (max 1 (srWidth n))] [] [] (srWidth n == 0) with priv := srReadPriv n }) fun v s =>
    let x := srRead s v.w n
    if n == 1 && v.w.flagsDue then .hold
    else finishInt v s 0 fun w =>
      if srWidth n = 1 then w.writeS d.toNat (BitVec.ofNat 32 x) else w.writeS64 d.toNat (BitVec.ofNat 64 x))

/-- The value swsr takes from its source. -/
def swsrValue (w : Wave) (n a : Nat) : Nat := if srWidth n = 1 then (w.readS a).toNat else (w.readS64 a).toNat

/-- swsr (R67, R164). A write of SR.FLAGS waits as a read does, so that flags keep issue order (R133). -/
def execSwsr (d a : BitVec 7) (s : State) : Host.Outcome State Fault Refusal :=
  let n := d.toNat
  .next (issue s (fun w _ =>
      let r : RegRun := .s a.toNat (max 1 (srWidth n))
      { srInfo 15 [r] [] [r] [] (!srWritable n || srReservedBits n (swsrValue w n a.toNat)) with
        priv := srWritePriv n }) fun v s =>
    if n == 1 && v.w.flagsDue then .hold
    else .done (srWrite s v.wid v.w.gang n (swsrValue v.w n a.toNat)))

/-- p2s (R161) -/
def execP2s (d a : BitVec 7) (s : State) : Host.Outcome State Fault Refusal :=
  .next (issue s (fun _ _ => srInfo 15 [] [.s d.toNat 1] [] [] (decide (15 < a.toNat))) fun v s =>
    finishInt v s 0 fun w => w.writeS d.toNat (v.w.readP a.toNat))

/-- s2p (R161) -/
def execS2p (d a : BitVec 7) (s : State) : Host.Outcome State Fault Refusal :=
  .next (issue s (fun _ _ => srInfo 15 [.s a.toNat 1] [] [.s a.toNat 1] [] (decide (15 < d.toNat))) fun v s =>
    finishInt v s 0 fun w => w.writeP d.toNat (v.w.readS a.toNat))

/-- A predicate member on all 32 bits (R162). -/
def predOp (d a b : BitVec 7) (f : Word → Word → Word) (s : State) : State :=
  issue s (fun _ _ => srInfo 15 [] [] [] [] (decide (15 < d.toNat) || decide (15 < a.toNat) || decide (15 < b.toNat)))
    fun v s => finishInt v s 0 fun w => w.writeP d.toNat (f (v.w.readP a.toNat) (v.w.readP b.toNat))

/-- pand (R161) -/
def execPand (d a b : BitVec 7) (s : State) : Host.Outcome State Fault Refusal :=
  .next (predOp d a b (fun x y => x &&& y) s)

/-- por (R161) -/
def execPor (d a b : BitVec 7) (s : State) : Host.Outcome State Fault Refusal :=
  .next (predOp d a b (fun x y => x ||| y) s)

/-- pxor (R161) -/
def execPxor (d a b : BitVec 7) (s : State) : Host.Outcome State Fault Refusal :=
  .next (predOp d a b (fun x y => x ^^^ y) s)

/-- pnot (R161) -/
def execPnot (d a : BitVec 7) (s : State) : Host.Outcome State Fault Refusal :=
  .next (predOp d a 0 (fun x _ => ~~~ x) s)

/-- ptag: an OP of 15 raises BADTAG before any effect (R165). -/
def execPtag (a : BitVec 7) (s : State) : Host.Outcome State Fault Refusal :=
  .next (issue s (fun _ _ => srInfo 15 [.s a.toNat 1] [] [.s a.toNat 1] [] false) fun v s =>
    let x := v.w.readS a.toNat &&& 0xFFF
    if x &&& 0xF = 15 then .trap s cBADTAG 0 0
    else finishInt v s 0 fun w => { w with ptag := x })

/-- The number of 1 bits of a word. -/
def countOnes (x : Word) : Nat := (lanesOf x).length

/-- pcount (R161) -/
def execPcount (d a : BitVec 7) (s : State) : Host.Outcome State Fault Refusal :=
  .next (issue s (fun _ _ => srInfo 15 [] [.s d.toNat 1] [] [] (decide (15 < a.toNat))) fun v s =>
    finishInt v s 0 fun w => w.writeS d.toNat (BitVec.ofNat 32 (countOnes (v.w.readP a.toNat))))

/-- Replaces half w of a T register (R163). -/
def setHalf (t : BitVec 128) (h : Nat) (x : DWord) : BitVec 128 :=
  if h = 0 then t.extractLsb' 64 64 ++ x else x ++ t.extractLsb' 0 64

/-- twr (R163) -/
def execTwr (d a b : BitVec 7) (s : State) : Host.Outcome State Fault Refusal :=
  .next (issue s (fun w _ => srInfo 15 [.s a.toNat 2] [] [.s a.toNat 2] []
      (decide (31 < d.toNat) || decide (w.tn ≤ d.toNat) || decide (1 < b.toNat))) fun v s =>
    finishInt v s 0 fun w => w.writeT d.toNat (setHalf (w.readT d.toNat) b.toNat (v.w.readS64 a.toNat)))

/-- trd (R163) -/
def execTrd (d a b : BitVec 7) (s : State) : Host.Outcome State Fault Refusal :=
  .next (issue s (fun w _ => srInfo 15 [] [.s d.toNat 2] [] []
      (decide (31 < a.toNat) || decide (w.tn ≤ a.toNat) || decide (1 < b.toNat))) fun v s =>
    finishInt v s 0 fun w => w.writeS64 d.toNat ((v.w.readT a.toNat).extractLsb' (64 * b.toNat) 64))

end Sys2Proof.Machine
end

