-- ==== Sys2Proof/Machine/Flow.lean ====
section
/-! DEFINITION. Branches, calls and jumps, the plain members of class 17, trap and brk, prefix words and illegal words
(spec/11 R167-R174; spec/07 R104, R107-R112). -/

namespace Sys2Proof.Machine

open Sys2Proof

/-! ### Class 16 (R168) -/

/-- The target of a relative branch (R105, R109). -/
def Env.target (v : Env) (off : BitVec 20) : DWord := moveAddr v.wpc (4 * compositeInt v.ximm 20 off.toNat)

/-- A relative branch: each issuing lane takes the target where the test admits it. -/
def branch (rs : List RegRun) (off : BitVec 20) (taken : Env → Nat → Bool) (s : State) : State :=
  issue s (fun _ _ => { cls := 16, rs := rs, ximm := true }) fun v s =>
    .jump s (laneIdx.map fun l => if taken v l then v.target off else v.next)

/-- br (R168) -/
def execBr (off : BitVec 20) (s : State) : Host.Outcome State Fault Refusal :=
  .next (branch [] off (fun _ _ => true) s)

/-- brp (R168) -/
def execBrp (c : BitVec 4) (off : BitVec 20) (s : State) : Host.Outcome State Fault Refusal :=
  .next (branch [] off (fun v l => bitAt (v.w.readP c.toNat) l) s)

/-- brnp (R168) -/
def execBrnp (c : BitVec 4) (off : BitVec 20) (s : State) : Host.Outcome State Fault Refusal :=
  .next (branch [] off (fun v l => !bitAt (v.w.readP c.toNat) l) s)

/-- brz: the scalar is read once for the wave (R168). -/
def execBrz (c : BitVec 4) (off : BitVec 20) (s : State) : Host.Outcome State Fault Refusal :=
  .next (branch [.s c.toNat 1] off (fun v _ => v.w.readS c.toNat == 0) s)

/-- brnz (R168) -/
def execBrnz (c : BitVec 4) (off : BitVec 20) (s : State) : Host.Outcome State Fault Refusal :=
  .next (branch [.s c.toNat 1] off (fun v _ => v.w.readS c.toNat != 0) s)

/-- call: links the low half of the next PC in V127 (R168). -/
def execCall (off : BitVec 20) (s : State) : Host.Outcome State Fault Refusal :=
  .next (issue s (fun _ _ => { cls := 16, ws := [.v 127 1], ximm := true }) fun v s =>
    .jump (modWave s v.wid fun w => w.writeV 127 v.iss fun _ => v.next.extractLsb' 0 32) (splat (v.target off)))

/-- Sends each issuing lane to its own target, or raises ALIGN for the lowest that is not word-aligned (R170). -/
def jumpTo (v : Env) (s : State) (scalar : Bool) (tgt : Nat → DWord) : Res :=
  match (lanesOf v.iss).find? fun l => (tgt l).toNat % 4 != 0 with
  | some l => .trap s cALIGN (if scalar then 64 else l) (tgt l)
  | none => .jump s (laneIdx.map tgt)

/-- jmpi (R168, R170) -/
def execJmpi (c : BitVec 4) (s : State) : Host.Outcome State Fault Refusal :=
  .next (issue s (fun _ _ => { cls := 16, rs := [.s (2 * c.toNat) 2] }) fun v s =>
    jumpTo v s true fun _ => v.w.readS64 (2 * c.toNat))

/-- jmpv (R168, R170): an odd register raises ILLEGAL. -/
def execJmpv (r : BitVec 7) (s : State) : Host.Outcome State Fault Refusal :=
  .next (issue s (fun _ _ => { cls := 16, rs := [.v r.toNat 2], bad := r.toNat % 2 == 1 }) fun v s =>
    jumpTo v s false fun l => v.w.vlane64 r.toNat l)

/-! ### Class 17 -/

/-- ret (R169): the upper half of the ret word's own address, the lower half from V127. -/
def execRet (s : State) : Host.Outcome State Fault Refusal :=
  .next (issue s (fun _ _ => { cls := 17, rs := [.v 127 1] }) fun v s =>
    jumpTo v s false fun l => v.wpc.extractLsb' 32 32 ++ v.w.vlane 127 l)

/-- Whether an exit, trap or brk waits for the log to empty (R197). -/
def Env.logHolds (v : Env) : Bool := v.w.priv == .u && !v.w.log.isEmpty

/-- exit (R40, R173) -/
def execExit (s : State) : Host.Outcome State Fault Refusal :=
  .next (issue s (fun _ _ => { cls := 17 }) fun v s =>
    if v.logHolds then .hold
    else .done (modWave s v.wid fun w =>
      { w with lanes := laneIdx.map fun l => if bitAt v.iss l then .exited else w.lane l }))

/-- nop (R173) -/
def execNop (s : State) : Host.Outcome State Fault Refusal :=
  .next (issue s (fun _ _ => { cls := 17 }) fun _ s => .done s)

/-- yield: the wave becomes ready-aged afresh, as every issue makes it here (R173; timing only). -/
def execYield (s : State) : Host.Outcome State Fault Refusal :=
  .next (issue s (fun _ _ => { cls := 17 }) fun _ s => .done s)

/-- trap: the lanes advance, then SYSCALL (R174). -/
def execTrap (imm : BitVec 16) (s : State) : Host.Outcome State Fault Refusal :=
  .next (issue s (fun _ _ => { cls := 17 }) fun v s =>
    if v.logHolds then .hold
    else .raw (takeTrap (settleIssue s v.wid fun w => w.advance v.iss fun _ => v.next) v.wid
      ⟨cSYSCALL, 0, v.pc, v.next, imm.setWidth 64, false⟩))

/-- brk: BRK without an advance (R174). -/
def execBrk (imm : BitVec 16) (s : State) : Host.Outcome State Fault Refusal :=
  .next (issue s (fun _ _ => { cls := 17 }) fun v s =>
    if v.logHolds then .hold
    else .raw (takeTrap (retired s v.wid) v.wid ⟨cBRK, 0, v.pc, v.pc, imm.setWidth 64, false⟩))

/-! ### Prefix words (R107) -/

/-- Issues a prefix word: it joins the chain, or raises ILLEGAL for a repeated kind or a fourth prefix. -/
def prefixWord (kind payload : Nat) (s : State) : State :=
  issue s (fun _ ws => { cls := 31, ximm := true, xop := some 0xFFFFFF, guard := true
                         bad := (prefixOf ws kind).isSome || decide (3 ≤ ws.length) }) fun v s =>
    .raw (modWave s v.wid fun w =>
      { w with chain := some ⟨v.pc, v.iss, v.pfx ++ [BitVec.ofNat 32 (0xF8000000 + kind * 2 ^ 24 + payload)]⟩ })

/-- XIMM (R109) -/
def execXimm (p : BitVec 24) (s : State) : Host.Outcome State Fault Refusal := .next (prefixWord 0 p.toNat s)

/-- XOP (R110) -/
def execXop (p : BitVec 18) (s : State) : Host.Outcome State Fault Refusal := .next (prefixWord 1 (p.toNat * 64) s)

/-- HINT (R111) -/
def execHint (p : BitVec 24) (s : State) : Host.Outcome State Fault Refusal := .next (prefixWord 2 p.toNat s)

/-- GUARD (R112) -/
def execGuard (neg : BitVec 1) (pg : BitVec 4) (s : State) : Host.Outcome State Fault Refusal :=
  .next (prefixWord 3 (neg.toNat * 16 + pg.toNat) s)

/-- A word that encodes no instruction raises ILLEGAL (R100, R104). -/
def execIllegalEncoding (_ : BitVec 32) (s : State) : Host.Outcome State Fault Refusal :=
  .next (issue s (fun _ _ => { cls := 31, bad := true }) fun _ s => .done s)

end Sys2Proof.Machine
end

