-- ==== Sys2Proof/Machine/Memory.lean ====
section
/-! DEFINITION. Memory instructions: classes 18 to 23, their checks, the operand log and its replay (spec/11 R176-R201;
spec/17 R292, R303-R309). -/

namespace Sys2Proof.Machine

open Sys2Proof

/-! ### Kinds of access -/

/-- An atomic member (Table 11.6), with its width where two exist. -/
inductive AtomOp where
  | add (n : Nat)
  | fadd
  | smin
  | smax
  | umin
  | umax
  | fmin
  | fmax
  | and
  | or
  | xor
  | xchg (n : Nat)
  | cas (n : Nat)
  deriving DecidableEq, Repr

/-- What a word of classes 18 to 23 does, with its width in bytes. -/
inductive MemOp where
  | load (n : Nat) (sx : Bool)
  | store (n : Nat)
  | atom (a : AtomOp)
  | pool (n : Nat)
  | sload (n : Nat)
  | sstore (n : Nat)
  | satom (a : AtomOp)
  | append (n : Nat)
  | appendLen
  deriving DecidableEq, Repr

def AtomOp.bytes : AtomOp → Nat
  | .add n | .xchg n | .cas n => n
  | _ => 4

/-- Registers an atomic reads. -/
def AtomOp.regs : AtomOp → Nat
  | .cas n => n / 2
  | a => a.bytes / 4

/-- Bytes of one access; 0 where the lane's length decides. -/
def MemOp.bytes : MemOp → Nat
  | .load n _ | .store n | .pool n | .sload n | .sstore n | .append n => n
  | .atom a | .satom a => a.bytes
  | .appendLen => 0

def MemOp.isScalar : MemOp → Bool
  | .sload _ | .sstore _ | .satom _ => true
  | _ => false

def MemOp.isAppend : MemOp → Bool
  | .append _ | .appendLen => true
  | _ => false

/-- Whether the access writes memory (R188, INFO[5]). -/
def MemOp.writes : MemOp → Bool
  | .load _ _ | .sload _ => false
  | _ => true

/-- The access kind that translation tests. -/
def MemOp.acc : MemOp → Acc
  | .load _ _ | .sload _ => .read
  | .pool _ => .pool
  | .append _ | .appendLen => .append
  | _ => .write

/-- Counted as a load, and as a store (Table 11.11). -/
def MemOp.isLoad : MemOp → Bool
  | .store _ | .sstore _ | .pool _ => false
  | _ => true

def MemOp.isStore : MemOp → Bool
  | .store _ | .sstore _ | .pool _ | .append _ | .appendLen => true
  | _ => false

/-- What the non-prefix word of a log entry does. -/
def memOpOf (x : Word) : Option MemOp :=
  let w := x.toNat
  let f := w % 32
  match w / 2 ^ 27 with
  | 18 => match f with
    | 0 => some (.load 1 false) | 1 => some (.load 1 true) | 2 => some (.load 2 false) | 3 => some (.load 2 true)
    | 4 => some (.load 4 false) | 5 => some (.load 8 false) | 6 => some (.load 16 false)
    | _ => none
  | 19 => if f < 5 then some (.store (2 ^ f)) else none
  | 20 => match f with
    | 0 => some (.atom (.add 4)) | 1 => some (.atom (.add 8)) | 2 => some (.atom .fadd)
    | 3 => some (.atom .smin) | 4 => some (.atom .smax) | 5 => some (.atom .umin) | 6 => some (.atom .umax)
    | 7 => some (.atom .fmin) | 8 => some (.atom .fmax) | 9 => some (.atom .and) | 10 => some (.atom .or)
    | 11 => some (.atom .xor) | 12 => some (.atom (.xchg 4)) | 13 => some (.atom (.xchg 8))
    | 14 => some (.atom (.cas 4)) | 15 => some (.atom (.cas 8))
    | _ => none
  | 21 => if f < 2 then some (.pool (4 + 4 * f)) else none
  | 22 => match w / 2 ^ 12 % 8 with
    | 0 | 7 => some (.sload 4) | 1 => some (.sload 8) | 2 => some (.sstore 4) | 3 => some (.sstore 8)
    | 4 => some (.satom (.add 8)) | 5 => some (.satom (.cas 8))
    | _ => none
  | 23 => match f with
    | 0 => some (.append 4) | 1 => some (.append 16) | 2 => some .appendLen
    | _ => none
  | _ => none

/-- Fields of a logged word: data register, and vo. -/
def memData (x : Word) : Nat := if x.toNat / 2 ^ 27 = 22 then x.toNat / 2 ^ 20 % 128 else x.toNat / 2 ^ 17 % 128
def memVo (x : Word) : Nat := x.toNat / 2 ^ 10 % 128

/-! ### Entries: an instruction's operands as read at issue -/

/-- Lanes an entry acts in; a scalar access acts once, shown as lane 0 (R180). -/
def LogEntry.lanes (e : LogEntry) (op : MemOp) : List Nat := if op.isScalar then [0] else lanesOf e.mask

/-- The address of a lane (R176, R177, R191). -/
def LogEntry.addr (e : LogEntry) (op : MemOp) (l : Nat) : DWord :=
  if op.isScalar then e.base
  else if op.isAppend then e.base + e.disp
  else moveAddr (e.base + e.disp) (signed 32 (e.vo.getD l 0).toNat)

/-- Bytes a lane accesses or appends. -/
def LogEntry.size (e : LogEntry) (op : MemOp) (l : Nat) : Nat :=
  match op with
  | .appendLen => (e.vo.getD l 0).toNat
  | _ => op.bytes

/-- SR.TCAUSE.INFO for a memory trap (R188). -/
def memInfoBits (op : MemOp) (l : Nat) : Nat :=
  (if op.isScalar then 64 else l) + (if op.writes then 32 else 0)

/-- Whether a member's data are 64-bit operands, each dead when either of its halves is (R62). -/
def MemOp.byPairs : MemOp → Bool
  | .store n | .pool n | .sstore n => n == 8
  | .atom a | .satom a => a.bytes == 8
  | _ => false

/-- The value of a run of S or V data registers of `k` words, in a lane. A 128-bit operand is read register by register
(assumption log 66). -/
def dataOf (w : Wave) (op : MemOp) (d k l : Nat) : Nat :=
  if op.byPairs then
    (numsFrom 0 (k / 2)).foldr (fun i x =>
      (if op.isScalar then w.readS64 (d + 2 * i) else w.vlane64 (d + 2 * i) l).toNat + 2 ^ 64 * x) 0
  else
    (numsFrom 0 k).foldr (fun i x => (if op.isScalar then w.readS (d + i) else w.vlane (d + i) l).toNat + 2 ^ 32 * x) 0

/-- Data registers of a member: how many it reads in a lane. -/
def LogEntry.words (e : LogEntry) (op : MemOp) (l : Nat) : Nat :=
  match op with
  | .atom a | .satom a => a.regs
  | _ => (e.size op l + 3) / 4

/-! ### Checks of Table 11.4 -/

/-- The tag an entry carries: operator and signed anchor (Table 5.9). -/
def tagOp (t : Word) : Nat := t.toNat % 16
def tagAnchor (t : Word) : Int := signed 8 (t.toNat / 16)

/-- Whether a lane's address lies in an aperture its kind may use (Table 11.3). -/
def apertureOk (op : MemOp) (t : Target) : Bool :=
  match t with
  | .glob _ => true
  | .spad _ _ => (match op with | .pool _ | .append _ | .appendLen => false | _ => true)
  | .stack _ => (match op with | .load _ _ | .store _ | .atom _ => true | _ => false)
  | .bad => false

/-- The first check of Table 11.4 that fails: cause, lane. -/
def memCheck (s : State) (w : Wave) (e : LogEntry) (op : MemOp) (d : Nat) : Option (Nat × Nat) :=
  let ls := e.lanes op
  let low := ls.headD 0
  let o := tagOp e.ptag
  let badTag := match op with
    | .pool n => o == 0 || ((o == 2 || o == 14) != (n == 8))
    | _ => false
  let align := ls.find? fun l => match op with
    | .append _ => false
    | .appendLen => e.size op l % 4 != 0 || decide (64 < e.size op l)
    | _ => (e.addr op l).toNat % op.bytes != 0
  let missing := if op = .appendLen then
      ls.find? fun l => !(numsFrom d (e.size op l / 4)).all w.holdsV
    else none
  let aper := ls.find? fun l => !apertureOk op (steer s w.gang (e.addr op l).toNat (max 1 op.bytes))
  let ovf := match op with
    | .pool n => if o = 13 ∨ o = 14 then
        ls.find? fun l => (poolValue o (tagAnchor e.ptag) (dataOf w op d (n / 4) l)).isNone
      else none
    | _ => none
  if badTag then some (cBADTAG, low)
  else match align with
    | some l => some (cALIGN, l)
    | none => match missing with
      | some l => some (cILLEGAL, l)
      | none => match aper with
        | some l => some (cAPERTURE, l)
        | none => ovf.map fun l => (cPOOLOVF, l)

/-! ### Translation of every lane (R195, R196) -/

/-- Where the lanes of an entry land. -/
inductive Reached where
  | ok (ps : List (Nat × Place))
  | stall
  /-- resolvable, with the lowest lane it concerns -/
  | resolvable (lane : Nat) (va : DWord)
  /-- unresolvable: cause and the lowest such lane -/
  | fail (cause lane : Nat) (va : DWord)
  deriving DecidableEq, Repr

/-- An append's segment, or the fault of R192 before its reservation. An address in the segment's first page that is not
its base raises AMBERTAIL (assumption log 68). -/
def appendTarget (s : State) (root : DWord) (va : Nat) (total lane : Nat) : Except Nat (Nat × Segment) :=
  match lookup s root va lane with
  | none => .error cPAGE
  | some (_, _, f) => match segOfFrame s f with
    | none => .error cAMBERTAIL
    | some (k, g, i) =>
      if i ≠ 0 ∨ va % 65536 ≠ 0 then .error cAMBERTAIL
      else if g.status ≠ 0 then .error cSEALED
      else if g.pages * 65536 < g.reserve + total then .error cAMBERTAIL
      else .ok (k, g)

def LogEntry.total (e : LogEntry) (op : MemOp) : Nat := sumBy (e.size op) (e.lanes op)

/-- The reach of one lane. -/
def laneReach (s : State) (w : Wave) (root : DWord) (e : LogEntry) (op : MemOp) (l : Nat) : Reach :=
  let gi := ((fget s.gangs w.gang).map Gang.index).getD 0
  let a := (e.addr op l).toNat
  if op.isAppend then
    match translate s root a 1 .append ⟨gangDie s w.gang, l⟩ with
    | .ok _ _ _ => match appendTarget s root a (e.total op) l with
      | .ok _ => .ok ⟨[], []⟩
      | .error c => .fail c
    | .stall => .stall
    | .resolvable => .resolvable
    | .fail c => .fail c
  else reach s root w.gang gi w.idx l a op.bytes op.acc

/-- Translates every lane; an outcome that enters the log outweighs a stall (R196). -/
def reachAll (s : State) (w : Wave) (root : DWord) (e : LogEntry) (op : MemOp) : Reached :=
  let rs := (e.lanes op).map fun l => (l, laneReach s w root e op l)
  match rs.findSome? fun p => match p.2 with
      | .fail c => some (p.1, c)
      | _ => none with
  | some (l, c) => .fail c l (e.addr op l)
  | none => match rs.find? fun p => p.2 == .resolvable with
    | some (l, _) => .resolvable l (e.addr op l)
    | none =>
      if rs.any fun p => p.2 == .stall then .stall
      else .ok (rs.filterMap fun p => match p.2 with
        | .ok q => some (p.1, q)
        | _ => none)

/-! ### Performing -/

/-- The new memory value of an atomic on memory value `m` and operand `v`, and its flags (Table 11.6, R186). -/
def AtomOp.apply (a : AtomOp) (e : LogEntry) (l m v : Nat) : Nat × Word :=
  let i := fun x => signed 32 x
  match a with
  | .add n => ((m + v) % 2 ^ (8 * n), 0)
  | .fadd =>
    let env : REnv := ⟨e.rm, 0, e.ftz, if e.rm = 5 then rsdHash e.seed l e.seq else 0⟩
    rounded fp32 env (opAdd env (inputFloat fp32 e.ftz m) (inputFloat fp32 e.ftz v))
  | .smin => (if i v < i m then v else m, 0)
  | .smax => (if i m < i v then v else m, 0)
  | .umin => (min m v, 0)
  | .umax => (max m v, 0)
  | .fmin => minMaxBits fp32 false false m v
  | .fmax => minMaxBits fp32 false true m v
  | .and => (m &&& v, 0)
  | .or => (m ||| v, 0)
  | .xor => (m ^^^ v, 0)
  | .xchg _ => (v, 0)
  | .cas n => (if m = v % 2 ^ (8 * n) then v / 2 ^ (8 * n) else m, 0)

/-- Makes POOLOVF pending for each merge of a lane's access that overflowed (R307). -/
def notePoolOvf (s : State) (wid : Nat) (e : LogEntry) (op : MemOp) (l : Nat) (p : Place) (os : List Nat) : State :=
  os.foldl (fun s pa =>
    addPending s wid ⟨30, cPOOLOVF, 128 + (if op.writes then 32 else 0) + (if op.isScalar then 0 else l),
      some e.pc, BitVec.ofNat 64 (ovfVA p.marks pa), none⟩) s

/-- Writes lane values into a run of registers: the low `k` words of each. -/
def putData (w : Wave) (op : MemOp) (d k : Nat) (mask : Word) (vals : FMap Nat) : Wave :=
  (numsFrom 0 k).foldl (fun w i =>
    let f := fun l => BitVec.ofNat 32 (fgetD vals l 0 / 2 ^ (32 * i))
    if op.isScalar then w.writeS (d + i) (f 0) else w.writeV (d + i) mask f) w

/-- The value a load puts in its register. -/
def loadValue (op : MemOp) (x : Nat) : Nat :=
  match op with
  | .load n true => (BitVec.ofInt 32 (signed (8 * n) x)).toNat
  | _ => x

/-- The core a wave runs on. -/
def waveCore (s : State) (wid : Nat) : Nat :=
  (((getWave s wid).bind fun w => fget s.gangs w.gang).map Gang.core).getD 0

/-- The physical address of a place in global memory. -/
def Place.phys (p : Place) : Option Nat :=
  match p.locs.head? with
  | some (.phys pa) => some pa
  | _ => none

/-- Whether a read on a die is served from a replica of a sealed page: where the die holds one, the choice is free (spec/17
R313; assumption log 12). -/
def fromReplica (s : State) (die lane : Nat) (p : Place) : Bool :=
  (p.phys.bind fun pa => segOfFrame s (pa / 65536)).any fun x =>
    x.2.1.replicas.any (fun r => r.1 == x.2.2 * 4 + die) && Config.readsReplica s.fresh lane

/-- Counts the loads of a core: those that take no lease, which are sldu.b32 and reads of a replica, and the others from
global memory (spec/17 R297, R313). -/
def countLoads (s : State) (core : Nat) (unleased : Bool) (ps : List (Nat × Place)) : State :=
  let one := fun (p : Nat × Place) => unleased || fromReplica s (dieOf core) p.1 p.2
  let a := fgetD s.accesses core (0, 0)
  { s with
    leases := fset s.leases core ((fgetD s.leases core 0 + (ps.filter one).length) % 2 ^ 64)
    accesses := fset s.accesses core (a.1 + (ps.filter fun p => p.2.phys.isSome && !one p).length, a.2) }

/-- Counts the writes of a core to global memory (spec/17 R297). -/
def countStores (s : State) (core : Nat) (ps : List (Nat × Place)) : State :=
  let a := fgetD s.accesses core (0, 0)
  { s with accesses := fset s.accesses core (a.1, a.2 + (ps.filter fun p => p.2.phys.isSome).length) }

/-- The checkpoint generation in which a wave writes (spec/15 R272). -/
def waveGen (s : State) (wid : Nat) : Nat := ((getWave s wid).map fun w => regionGen s (waveRegion s w)).getD 0

/-- Loads (R183, R189). -/
def performLoad (s : State) (wid : Nat) (root : DWord) (e : LogEntry) (op : MemOp) (d : Nat)
    (ps : List (Nat × Place)) : State :=
  let r := ps.foldl (fun (acc : State × FMap Nat) p =>
    let q := readPlace acc.1 root p.2
    (notePoolOvf q.2.1 wid e op p.1 p.2 q.2.2, fset acc.2 p.1 (loadValue op q.1))) (s, [])
  countLoads (modWave r.1 wid fun w => putData w op d (max 1 (op.bytes / 4)) e.mask r.2) (waveCore s wid)
    (op.isScalar && e.word.toNat / 2 ^ 12 % 8 == 7) ps

/-- Stores: the higher of two lanes that write a byte writes last (R181, R183, R189). -/
def performStore (s : State) (wid : Nat) (root : DWord) (e : LogEntry) (op : MemOp) (d : Nat)
    (ps : List (Nat × Place)) : State :=
  match getWave s wid with
  | none => s
  | some w => countStores (ps.foldl (fun s p =>
      let q := writePlace s root (waveGen s wid) p.2 (dataOf w op d (e.words op p.1) p.1)
      notePoolOvf q.1 wid e op p.1 p.2 q.2) s) (waveCore s wid) ps

/-- Atomics, lane after lane (R185, R189). -/
def performAtomic (s : State) (wid : Nat) (root : DWord) (e : LogEntry) (op : MemOp) (a : AtomOp) (d : Nat)
    (ps : List (Nat × Place)) : State :=
  match getWave s wid with
  | none => s
  | some w =>
    let r := ps.foldl (fun (acc : State × FMap Nat × Word) p =>
      let q := readPlace acc.1 root p.2
      let n := a.apply e p.1 q.1 (dataOf w op d a.regs p.1)
      (notePoolOvf (writePlace q.2.1 root (waveGen q.2.1 wid) p.2 n.1).1 wid e op p.1 p.2 q.2.2, fset acc.2.1 p.1 q.1, acc.2.2 ||| n.2))
      (s, [], 0)
    countStores (modWave r.1 wid fun w => (putData w op d (a.bytes / 4) e.mask r.2.1).orFlags r.2.2) (waveCore s wid) ps

/-- Pool contributions (R187, R303). DESIGN CHOICE: a lane whose data register a handler has changed to a value that R306 rejects
contributes nothing when its entry replays (assumption log 84). -/
def performPool (s : State) (wid : Nat) (root : DWord) (e : LogEntry) (op : MemOp) (d : Nat)
    (ps : List (Nat × Place)) : State :=
  match getWave s wid with
  | none => s
  | some w =>
    let core := waveCore s wid
    ps.foldl (fun s p => match p.2.locs.head? with
      | some (.phys pa) =>
        match poolValue (tagOp e.ptag) (tagAnchor e.ptag) (dataOf w op d (op.bytes / 4) p.1) with
        | none => s
        | some v =>
          let q := contribute (useLeaves s root p.2 (some (waveGen s wid))) core (tagOp e.ptag) (tagAnchor e.ptag) pa v
          notePoolOvf q.1 wid e op p.1 p.2 q.2.toList
      | _ => s) s

/-- An append: one reservation for all of E, its data in flight from then on (R191, R309). -/
def performAppend (s : State) (wid : Nat) (root : DWord) (e : LogEntry) (op : MemOp) (d vo : Nat) : State :=
  match getWave s wid with
  | none => s
  | some w => match appendTarget s root (e.base + e.disp).toNat (e.total op) ((e.lanes op).headD 0) with
    | .error _ => s
    | .ok (k, g) =>
      let r := (e.lanes op).foldl (fun (acc : Nat × FMap Nat × List Block) l =>
        let n := e.size op l
        let bytes := leBytes n (dataOf w op d ((n + 3) / 4) l)
        (acc.1 + n, fset acc.2.1 l acc.1,
          if n = 0 then acc.2.2 else acc.2.2 ++ [⟨acc.1, bytes, false, wid, s.serial⟩])) (g.reserve, [], [])
      let s := { s with
        segments := fset s.segments k { g with reserve := r.1, blocks := g.blocks ++ r.2.2 }
        serial := s.serial + 1 }
      modWave s wid fun w => putData w op vo 2 e.mask r.2.1

/-- Performs an entry whose lanes have all been reached: lane after lane in one step, so that nothing of another agent
falls between two lanes, which the manual leaves unordered (R181; assumption log 67). -/
def performMem (s : State) (wid : Nat) (root : DWord) (e : LogEntry) (op : MemOp) (d vo : Nat)
    (ps : List (Nat × Place)) : State :=
  match op with
  | .load _ _ | .sload _ => performLoad s wid root e op d ps
  | .store _ | .sstore _ => performStore s wid root e op d ps
  | .atom a | .satom a => performAtomic s wid root e op a d ps
  | .pool _ => performPool s wid root e op d ps
  | .append _ | .appendLen => performAppend s wid root e op d vo

/-! ### Counts of settle (R201, R231) -/

/-- Appends of a wave with a byte still to land. -/
def appendsInFlight (s : State) (wid : Nat) : Nat :=
  let ids := s.segments.flatMap fun p => (p.2.blocks.filter fun b => b.wave == wid && !b.landed).map (·.app)
  ids.dedup.length

/-- Outstanding loads and stores of a wave. -/
def loadCount (w : Wave) : Nat := (w.log.filter fun e => ((memOpOf e.word).map MemOp.isLoad).getD false).length
def storeCount (s : State) (wid : Nat) (w : Wave) : Nat :=
  (w.log.filter fun e => ((memOpOf e.word).map MemOp.isStore).getD false).length + appendsInFlight s wid

/-! ### Issue of a memory instruction (R180, R182, R193-R197) -/

/-- Enters an instruction in the operand log as its youngest entry. -/
def enterLog (s : State) (wid : Nat) (e : LogEntry) : State := modWave s wid fun w => { w with log := w.log ++ [{ e with since := s.time }] }

/-- The global addresses of a lane's access of `n` bytes. -/
def laneVAs (s : State) (w : Wave) (lane va n : Nat) : List Nat :=
  match steer s w.gang va n with
  | .glob v => [v, v + n - 1]
  | .stack o => (numsFrom 0 ((n + 3) / 4)).map fun i =>
      stackVA (((fget s.gangs w.gang).map Gang.index).getD 0) w.idx lane (o + 4 * i)
  | _ => []

/-- The global addresses of an entry's access. -/
def entryVAs (s : State) (w : Wave) (e : LogEntry) (op : MemOp) : List Nat :=
  (e.lanes op).flatMap fun l => laneVAs s w l (e.addr op l).toNat (max 1 (e.size op l))

/-- The addresses of a wave's oldest log entry. -/
def logVAs (s : State) (w : Wave) : List Nat :=
  match w.log.head? with
  | none => []
  | some e => match memOpOf e.word with
    | none => []
    | some op => entryVAs s w e op

/-- The walks of an entry whose access does not perform: their lines merge like those of any read (spec/17 R304). -/
def walkEntry (s : State) (w : Wave) (root : DWord) (e : LogEntry) (op : MemOp) : State :=
  if s.pool.isEmpty then s else (entryVAs s w e op).foldl (fun s va => settleWalk s root va) s

/-- The body of a memory instruction whose operands are an entry. -/
def memBody (v : Env) (s : State) (e : LogEntry) (op : MemOp) (d vo : Nat) : Res :=
  let u := v.w.priv == .u
  if u && decide (4 ≤ v.w.log.length) then .hold
  else if !op.isScalar && v.e == 0 then .done s
  else if op.isStore && decide (31 ≤ storeCount s v.wid v.w) then .hold
  else match memCheck s v.w e op d with
    | some (c, l) => .trap s c (memInfoBits op l) (e.addr op l)
    | none =>
      if u && !v.w.log.isEmpty then .logged (enterLog s v.wid e)
      else
        let root := effPtroot s (waveRegion s v.w)
        match reachAll s v.w root e op with
        | .ok ps => .done (performMem s v.wid root e op d vo ps)
        | .stall => .await (entryVAs s v.w e op)
        | .resolvable l va =>
          if u then .logged (enterLog (walkEntry s v.w root e op) v.wid { e with flane := l, fva := va })
          else .await (entryVAs s v.w e op)
        | .fail c l va =>
          let t := walkEntry s v.w root e op
          if u then .logged (enterLog t v.wid { e with cause := c, flane := l, fva := va })
          else .trap t c (memInfoBits op l) va

/-- The entry of an instruction, with the word it would be logged as. -/
def Env.entry (v : Env) (word : Nat) (op : MemOp) (base disp : DWord) (vo : List Word) : LogEntry :=
  let rnd := op == .atom .fadd
  let isPool := match op with
    | .pool _ => true
    | _ => false
  { since := 0, word := BitVec.ofNat 32 word, pfx := v.pfx, pc := v.pc, mask := v.e, cause := 0, flane := 0, fva := 0
    base := base, disp := disp, vo := vo
    rm := if rnd then v.rm else 0
    ftz := rnd && v.ftz
    ptag := if isPool then v.w.ptag else 0
    seed := if rnd && v.rm == 5 then v.w.seed else 0
    seq := if rnd && v.rm == 5 then v.seq else 0 }

/-- Data registers an MV word names for its checks: run length, and the base it must be a multiple of. -/
def MemOp.dataLen : MemOp → Nat
  | .atom a | .satom a => a.regs
  | .appendLen => 1
  | op => max 1 (op.bytes / 4)

/-- The greatest word count over the lanes an aappl acts in (Table 7.9a). -/
def appendSpan (w : Wave) (e : Word) (vo : Nat) : Nat :=
  (lanesOf e).foldl (fun m l => max m ((w.vlane vo l).toNat / 4)) 0

/-- Issue checks of an MV word. -/
def mvInfo (cls : Nat) (op : MemOp) (g : BitVec 3) (vt vo : BitVec 7) (sp : BitVec 5) (w : Wave) (ws : List Word) :
    OpInfo :=
  let n := op.dataLen
  let span := match w.front with
    | some (_, iss, _) => min 16 (appendSpan w (iss &&& w.guardMask g.toNat ws) vo.toNat)
    | none => 0
  let data : List RegRun := if op = .appendLen then
      ((numsFrom vt.toNat span).filter fun i => w.holdsV i).map fun i => .v i 1
    else [.v vt.toNat n]
  let app := op.isAppend
  let reads := match op with
    | .load _ _ => []
    | _ => data
  let base : RegRun := .s (2 * sp.toNat) 2
  { cls := cls
    rs := [base] ++ (if app && op != .appendLen then [] else [.v vo.toNat 1]) ++ reads
    ws := match op with
      | .load _ _ => [.v vt.toNat n]
      | .atom a => [.v vt.toNat (a.bytes / 4)]
      | .append _ | .appendLen => [.v vo.toNat 2]
      | _ => []
    bad := decide (vt.toNat % n ≠ 0) || (app && vo.toNat % 2 == 1) ||
      (op == .appendLen && decide (112 < vt.toNat))
    ximm := true, guard := true, g := g.toNat
    rounds := op == .atom .fadd
    named := if op = .appendLen then [.v vt.toNat 1] else []
    deadA := if app && op != .appendLen then [] else [.v vo.toNat 1], deadB := [base]
    deadT := match op with
      | .store _ | .append _ | .appendLen => data
      | _ => [] }

/-- Issue checks of an MS word. -/
def msInfo (op : MemOp) (d : BitVec 7) (sp : BitVec 5) (_ : Wave) (_ : List Word) : OpInfo :=
  let base : RegRun := .s (2 * sp.toNat) 2
  let n := op.dataLen
  let data : RegRun := .s d.toNat n
  let reads := match op with
    | .sload _ => []
    | _ => [data]
  { cls := 22, rs := base :: reads
    ws := (match op with
      | .sload _ => [data]
      | .satom a => [.s d.toNat (a.bytes / 4)]
      | _ => [])
    bad := decide (d.toNat % n ≠ 0), ximm := true, deadB := [base], deadT := reads }

/-- The entry of an MV word: its base, its displacement and its lanes' offsets. -/
def Env.mvEntry (v : Env) (cls f : Nat) (op : MemOp) (g : BitVec 3) (vt vo : BitVec 7) (sp : BitVec 5) : LogEntry :=
  let word := cls * 2 ^ 27 + g.toNat * 2 ^ 24 + vt.toNat * 2 ^ 17 + vo.toNat * 2 ^ 10 + sp.toNat * 2 ^ 5 + f
  let disp := match v.ximm with
    | some p => BitVec.ofInt 64 (signed 24 p)
    | none => 0
  v.entry word op (v.w.readS64 (2 * sp.toNat)) disp (laneIdx.map fun l => v.w.vlane vo.toNat l)

/-- The entry of an MS word: its address is the base plus the offset. -/
def Env.msEntry (v : Env) (f : Nat) (op : MemOp) (d : BitVec 7) (sp : BitVec 5) (off : BitVec 12) : LogEntry :=
  let addr := moveAddr (v.w.readS64 (2 * sp.toNat)) (compositeInt v.ximm 12 off.toNat)
  let word := 22 * 2 ^ 27 + d.toNat * 2 ^ 20 + sp.toNat * 2 ^ 15 + f * 2 ^ 12 + off.toNat
  v.entry word op addr 0 (splat 0)

/-- Issues an MV word. -/
def memVector (cls f : Nat) (op : MemOp) (g : BitVec 3) (vt vo : BitVec 7) (sp : BitVec 5) (s : State) : State :=
  issue s (mvInfo cls op g vt vo sp) fun v s => memBody v s (v.mvEntry cls f op g vt vo sp) op vt.toNat vo.toNat

/-- Issues an MS word. -/
def memScalar (f : Nat) (op : MemOp) (d : BitVec 7) (sp : BitVec 5) (off : BitVec 12) (s : State) : State :=
  issue s (msInfo op d sp) fun v s => memBody v s (v.msEntry f op d sp off) op d.toNat 0

/-! ### Replay (R198, R199) -/

/-- The dead marks of a logged chain, taken when its entry performs (R194). -/
def Wave.logMarks (w : Wave) (e : LogEntry) (op : MemOp) : Wave :=
  let x := e.word.toNat
  let d : BitVec 7 := BitVec.ofNat 7 (memData e.word)
  let sp := x / 2 ^ (if op.isScalar then 15 else 5) % 32
  let vo := memVo e.word
  let base : RegRun := .s (2 * sp) 2
  let span := (e.lanes op).foldl (fun m l => max m (e.size op l / 4)) 0
  let i : OpInfo := if op.isScalar then
      { cls := 22, deadB := [base]
        deadT := (match op with
          | .sload _ => []
          | _ => [.s d.toNat op.dataLen])
        ws := (match op with
          | .sload _ => [.s d.toNat op.dataLen]
          | .satom a => [.s d.toNat (a.bytes / 4)]
          | _ => []) }
    else
      { cls := 18, deadB := [base]
        deadA := (match op with
          | .append _ => []
          | _ => [.v vo 1])
        deadT := (match op with
          | .store _ | .append _ => [.v d.toNat op.dataLen]
          | .appendLen => [.v d.toNat span]
          | _ => [])
        ws := (match op with
          | .load _ _ => [.v d.toNat op.dataLen]
          | .atom a => [.v d.toNat (a.bytes / 4)]
          | .append _ | .appendLen => [.v vo 2]
          | _ => []) }
  w.hintMarks i e.mask e.pfx

/-- Replays the log of a wave in U mode, oldest entry first, until an entry waits or cannot be resolved. Nothing performs
behind an entry found unresolvable (R196), for a wave that another holds (spec/13 R253), or once the wave's region is
discarded (spec/23 R386). -/
def replay : Nat → State → Nat → State
  | 0, s, _ => s
  | fuel + 1, s, wid => match getWave s wid with
    | none => s
    | some w => match w.log with
      | [] => s
      | e :: rest =>
        if w.priv == .s || w.ended || w.saved || w.frozen || e.cause != 0 || regionStatus s (waveRegion s w) == 2 then s
        else match memOpOf e.word with
          | none => modWave s wid fun w => { w with log := rest }
          | some op =>
            let root := effPtroot s (waveRegion s w)
            let d := memData e.word
            match reachAll s w root e op with
            | .ok ps =>
              let s := performMem (modWave s wid fun w => { w with log := rest }) wid root e op d (memVo e.word) ps
              replay fuel (modWave s wid fun w => w.logMarks e op) wid
            | .stall => walkEntry s w root e op
            | .resolvable l va =>
              modWave (walkEntry s w root e op) wid fun w => { w with log := { e with cause := 0, flane := l, fva := va } :: rest }
            | .fail c l va =>
              modWave (walkEntry s w root e op) wid fun w => { w with log := { e with cause := c, flane := l, fva := va } :: rest }

/-- Replays the logs of every wave whose oldest entry may now perform. -/
def replayAll (s : State) : State := s.waves.foldl (fun s p => if p.2.log.isEmpty then s else replay 4 s p.1) s

/-! ### Class 18 (R183) -/

/-- ld.n8 -/
def execLdN8 (g : BitVec 3) (vt vo : BitVec 7) (sp : BitVec 5) (s : State) : Host.Outcome State Fault Refusal :=
  .next (memVector 18 0 (.load 1 false) g vt vo sp s)

/-- ld.i8 -/
def execLdI8 (g : BitVec 3) (vt vo : BitVec 7) (sp : BitVec 5) (s : State) : Host.Outcome State Fault Refusal :=
  .next (memVector 18 1 (.load 1 true) g vt vo sp s)

/-- ld.n16 -/
def execLdN16 (g : BitVec 3) (vt vo : BitVec 7) (sp : BitVec 5) (s : State) : Host.Outcome State Fault Refusal :=
  .next (memVector 18 2 (.load 2 false) g vt vo sp s)

/-- ld.i16 -/
def execLdI16 (g : BitVec 3) (vt vo : BitVec 7) (sp : BitVec 5) (s : State) : Host.Outcome State Fault Refusal :=
  .next (memVector 18 3 (.load 2 true) g vt vo sp s)

/-- ld.b32 -/
def execLdB32 (g : BitVec 3) (vt vo : BitVec 7) (sp : BitVec 5) (s : State) : Host.Outcome State Fault Refusal :=
  .next (memVector 18 4 (.load 4 false) g vt vo sp s)

/-- ld.b64 -/
def execLdB64 (g : BitVec 3) (vt vo : BitVec 7) (sp : BitVec 5) (s : State) : Host.Outcome State Fault Refusal :=
  .next (memVector 18 5 (.load 8 false) g vt vo sp s)

/-- ld.b128 -/
def execLdB128 (g : BitVec 3) (vt vo : BitVec 7) (sp : BitVec 5) (s : State) : Host.Outcome State Fault Refusal :=
  .next (memVector 18 6 (.load 16 false) g vt vo sp s)

/-! ### Class 19 (R183) -/

/-- st.b8 -/
def execStB8 (g : BitVec 3) (vt vo : BitVec 7) (sp : BitVec 5) (s : State) : Host.Outcome State Fault Refusal :=
  .next (memVector 19 0 (.store 1) g vt vo sp s)

/-- st.b16 -/
def execStB16 (g : BitVec 3) (vt vo : BitVec 7) (sp : BitVec 5) (s : State) : Host.Outcome State Fault Refusal :=
  .next (memVector 19 1 (.store 2) g vt vo sp s)

/-- st.b32 -/
def execStB32 (g : BitVec 3) (vt vo : BitVec 7) (sp : BitVec 5) (s : State) : Host.Outcome State Fault Refusal :=
  .next (memVector 19 2 (.store 4) g vt vo sp s)

/-- st.b64 -/
def execStB64 (g : BitVec 3) (vt vo : BitVec 7) (sp : BitVec 5) (s : State) : Host.Outcome State Fault Refusal :=
  .next (memVector 19 3 (.store 8) g vt vo sp s)

/-- st.b128 -/
def execStB128 (g : BitVec 3) (vt vo : BitVec 7) (sp : BitVec 5) (s : State) : Host.Outcome State Fault Refusal :=
  .next (memVector 19 4 (.store 16) g vt vo sp s)

/-! ### Class 20 (R184-R186) -/

/-- aadd.i32 -/
def execAaddI32 (g : BitVec 3) (vt vo : BitVec 7) (sp : BitVec 5) (s : State) : Host.Outcome State Fault Refusal :=
  .next (memVector 20 0 (.atom (.add 4)) g vt vo sp s)

/-- aadd.i64 -/
def execAaddI64 (g : BitVec 3) (vt vo : BitVec 7) (sp : BitVec 5) (s : State) : Host.Outcome State Fault Refusal :=
  .next (memVector 20 1 (.atom (.add 8)) g vt vo sp s)

/-- aadd.f32: never raises FPX (R186). -/
def execAaddF32 (g : BitVec 3) (vt vo : BitVec 7) (sp : BitVec 5) (s : State) : Host.Outcome State Fault Refusal :=
  .next (memVector 20 2 (.atom .fadd) g vt vo sp s)

/-- amin.i32 -/
def execAminI32 (g : BitVec 3) (vt vo : BitVec 7) (sp : BitVec 5) (s : State) : Host.Outcome State Fault Refusal :=
  .next (memVector 20 3 (.atom .smin) g vt vo sp s)

/-- amax.i32 -/
def execAmaxI32 (g : BitVec 3) (vt vo : BitVec 7) (sp : BitVec 5) (s : State) : Host.Outcome State Fault Refusal :=
  .next (memVector 20 4 (.atom .smax) g vt vo sp s)

/-- amin.n32 -/
def execAminN32 (g : BitVec 3) (vt vo : BitVec 7) (sp : BitVec 5) (s : State) : Host.Outcome State Fault Refusal :=
  .next (memVector 20 5 (.atom .umin) g vt vo sp s)

/-- amax.n32 -/
def execAmaxN32 (g : BitVec 3) (vt vo : BitVec 7) (sp : BitVec 5) (s : State) : Host.Outcome State Fault Refusal :=
  .next (memVector 20 6 (.atom .umax) g vt vo sp s)

/-- amin.f32 (R140, R186) -/
def execAminF32 (g : BitVec 3) (vt vo : BitVec 7) (sp : BitVec 5) (s : State) : Host.Outcome State Fault Refusal :=
  .next (memVector 20 7 (.atom .fmin) g vt vo sp s)

/-- amax.f32 (R140, R186) -/
def execAmaxF32 (g : BitVec 3) (vt vo : BitVec 7) (sp : BitVec 5) (s : State) : Host.Outcome State Fault Refusal :=
  .next (memVector 20 8 (.atom .fmax) g vt vo sp s)

/-- aand -/
def execAand (g : BitVec 3) (vt vo : BitVec 7) (sp : BitVec 5) (s : State) : Host.Outcome State Fault Refusal :=
  .next (memVector 20 9 (.atom .and) g vt vo sp s)

/-- aor -/
def execAor (g : BitVec 3) (vt vo : BitVec 7) (sp : BitVec 5) (s : State) : Host.Outcome State Fault Refusal :=
  .next (memVector 20 10 (.atom .or) g vt vo sp s)

/-- axor -/
def execAxor (g : BitVec 3) (vt vo : BitVec 7) (sp : BitVec 5) (s : State) : Host.Outcome State Fault Refusal :=
  .next (memVector 20 11 (.atom .xor) g vt vo sp s)

/-- axchg.b32 -/
def execAxchgB32 (g : BitVec 3) (vt vo : BitVec 7) (sp : BitVec 5) (s : State) : Host.Outcome State Fault Refusal :=
  .next (memVector 20 12 (.atom (.xchg 4)) g vt vo sp s)

/-- axchg.b64 -/
def execAxchgB64 (g : BitVec 3) (vt vo : BitVec 7) (sp : BitVec 5) (s : State) : Host.Outcome State Fault Refusal :=
  .next (memVector 20 13 (.atom (.xchg 8)) g vt vo sp s)

/-- acas.b32: Vt compares, Vt+1 swaps. -/
def execAcasB32 (g : BitVec 3) (vt vo : BitVec 7) (sp : BitVec 5) (s : State) : Host.Outcome State Fault Refusal :=
  .next (memVector 20 14 (.atom (.cas 4)) g vt vo sp s)

/-- acas.b64: Vt:Vt+1 compares, Vt+2:Vt+3 swaps. -/
def execAcasB64 (g : BitVec 3) (vt vo : BitVec 7) (sp : BitVec 5) (s : State) : Host.Outcome State Fault Refusal :=
  .next (memVector 20 15 (.atom (.cas 8)) g vt vo sp s)

/-! ### Class 21 (R187) -/

/-- vpool.b32 -/
def execVpoolB32 (g : BitVec 3) (vt vo : BitVec 7) (sp : BitVec 5) (s : State) : Host.Outcome State Fault Refusal :=
  .next (memVector 21 0 (.pool 4) g vt vo sp s)

/-- vpool.b64 -/
def execVpoolB64 (g : BitVec 3) (vt vo : BitVec 7) (sp : BitVec 5) (s : State) : Host.Outcome State Fault Refusal :=
  .next (memVector 21 1 (.pool 8) g vt vo sp s)

/-! ### Class 22 (R189, R190) -/

/-- sld.b32 -/
def execSldB32 (d : BitVec 7) (sp : BitVec 5) (off : BitVec 12) (s : State) : Host.Outcome State Fault Refusal :=
  .next (memScalar 0 (.sload 4) d sp off s)

/-- sld.b64 -/
def execSldB64 (d : BitVec 7) (sp : BitVec 5) (off : BitVec 12) (s : State) : Host.Outcome State Fault Refusal :=
  .next (memScalar 1 (.sload 8) d sp off s)

/-- sst.b32 -/
def execSstB32 (d : BitVec 7) (sp : BitVec 5) (off : BitVec 12) (s : State) : Host.Outcome State Fault Refusal :=
  .next (memScalar 2 (.sstore 4) d sp off s)

/-- sst.b64 -/
def execSstB64 (d : BitVec 7) (sp : BitVec 5) (off : BitVec 12) (s : State) : Host.Outcome State Fault Refusal :=
  .next (memScalar 3 (.sstore 8) d sp off s)

/-- saadd.b64 -/
def execSaaddB64 (d : BitVec 7) (sp : BitVec 5) (off : BitVec 12) (s : State) : Host.Outcome State Fault Refusal :=
  .next (memScalar 4 (.satom (.add 8)) d sp off s)

/-- scas.b64 -/
def execScasB64 (d : BitVec 7) (sp : BitVec 5) (off : BitVec 12) (s : State) : Host.Outcome State Fault Refusal :=
  .next (memScalar 5 (.satom (.cas 8)) d sp off s)

/-- sprefetch: no architectural effect; never traps after issue (R190). -/
def execSprefetch (sp : BitVec 5) (_ : BitVec 12) (s : State) : Host.Outcome State Fault Refusal :=
  let base : RegRun := .s (2 * sp.toNat) 2
  .next (issue s (fun _ _ => { cls := 22, rs := [base], ximm := true, deadB := [base] }) fun _ s => .done s)

/-- sldu.b32: as sld.b32, counted as an unleased read (R190). -/
def execSlduB32 (d : BitVec 7) (sp : BitVec 5) (off : BitVec 12) (s : State) : Host.Outcome State Fault Refusal :=
  .next (memScalar 7 (.sload 4) d sp off s)

/-! ### Class 23 (R191) -/

/-- aapp.b32 -/
def execAappB32 (g : BitVec 3) (vt vo : BitVec 7) (sp : BitVec 5) (s : State) : Host.Outcome State Fault Refusal :=
  .next (memVector 23 0 (.append 4) g vt vo sp s)

/-- aapp.b128 -/
def execAappB128 (g : BitVec 3) (vt vo : BitVec 7) (sp : BitVec 5) (s : State) : Host.Outcome State Fault Refusal :=
  .next (memVector 23 1 (.append 16) g vt vo sp s)

/-- aappl -/
def execAappl (g : BitVec 3) (vt vo : BitVec 7) (sp : BitVec 5) (s : State) : Host.Outcome State Fault Refusal :=
  .next (memVector 23 2 .appendLen g vt vo sp s)

end Sys2Proof.Machine
end

