-- ==== Sys2Proof/Machine/EngineSubmit.lean ====
section
/-! DEFINITION. Barriers of the scratchpad, and the submission of copy and matrix operations: classes 24 and 25
(spec/03 R46-R49; spec/05 R92, R93; spec/13 R203-R205, R209, R210, R214, R215, R225). -/

namespace Sys2Proof.Machine

open Sys2Proof

/-! ### Barriers (R48, R49, R225) -/

/-- A barrier (Table 3.8). -/
structure Barrier where
  phase : Nat
  landed : Nat
  bexp : Nat
  aexp : Nat
  arr : Nat
  deriving DecidableEq, Repr

/-- The scratchpad place of a barrier offset, for a gang (R262). -/
def barPlace (s : State) (gid : Nat) (b : Word) : Option (Nat × Nat) :=
  match spadTarget s gid b.toNat 16 with
  | .spad g p => if b.toNat < 0x1400000 then some (g, p) else none
  | _ => none

/-- The trap a barrier offset raises (R225). -/
def barTrap (s : State) (gid : Nat) (b : Word) : Option Nat :=
  if 2 ^ 25 ≤ b.toNat then some cAPERTURE
  else if b.toNat % 16 ≠ 0 then some cALIGN
  else if (barPlace s gid b).isNone then some cAPERTURE
  else none

def readBarrier (s : State) (pl : Nat × Nat) : Barrier :=
  let x := leNat ((numsFrom pl.2 16).map fun p => locByte s (.spad pl.1 p))
  ⟨x / 2 ^ 96, x / 2 ^ 64 % 2 ^ 32, x / 2 ^ 32 % 2 ^ 32, x / 2 ^ 16 % 2 ^ 16, x % 2 ^ 16⟩

def Barrier.bits (b : Barrier) : Nat :=
  b.phase % 2 ^ 32 * 2 ^ 96 + b.landed % 2 ^ 32 * 2 ^ 64 + b.bexp % 2 ^ 32 * 2 ^ 32 + b.aexp % 2 ^ 16 * 2 ^ 16 +
    b.arr % 2 ^ 16

def writeBarrier (s : State) (pl : Nat × Nat) (b : Barrier) : State :=
  setLocs s ((numsFrom pl.2 16).map (Loc.spad pl.1)) (leBytes 16 b.bits)

/-- The completion test after an update (R49). -/
def Barrier.test (b : Barrier) : Barrier :=
  if b.arr % 2 ^ 16 = b.aexp ∧ b.landed % 2 ^ 32 = b.bexp % 2 ^ 32 then ⟨(b.phase + 1) % 2 ^ 32, 0, 0, b.aexp, 0⟩ else b

/-- One atomic update of a barrier by its offset, with the test. -/
def updateBarrier (s : State) (gid : Nat) (b : Word) (f : Barrier → Barrier) : State :=
  match barPlace s gid b with
  | none => s
  | some pl => writeBarrier s pl (f (readBarrier s pl)).test

/-! ### T registers (Table 5.2, Table 13.1) -/

def tBase (t : BitVec 128) : Nat := t.toNat % 2 ^ 64
def tStride (t : BitVec 128) : Int := signed 32 (t.toNat / 2 ^ 64)
def tKinc (t : BitVec 128) : Int := signed 24 (t.toNat / 2 ^ 96)
def tAdv (t : BitVec 128) : Bool := t.getLsbD 120
def tKmaj (t : BitVec 128) : Bool := t.getLsbD 121
def tPk6 (t : BitVec 128) : Bool := t.getLsbD 122

/-- A T register moved on by `n` times its K-increment. -/
def tAdvance (t : BitVec 128) (n : Nat) : BitVec 128 :=
  t.extractLsb' 64 64 ++ moveAddr (t.extractLsb' 0 64) (tKinc t * n)

/-- Whether an engine instruction may name the register: held, reserved flags zero (R34, R204). -/
def Wave.tOk (w : Wave) (n : Nat) : Bool := decide (n < w.tn) && (w.readT n).toNat / 2 ^ 123 == 0

/-! ### Submission (R203) -/

/-- An operation with nothing filled in. -/
def blankOp (v : Env) (cls fn : Nat) : EngOp :=
  { num := 0, cls := cls, fn := fn, acc := 0, rm := 0, ftz := false, sat := 0, wave := v.w.idx, owner := v.wid, bar := none
    ta := 0, tb := 0, ta1 := 0, tb1 := 0, shape := 0, pat := 0, idx := 0, fmt := 0, seed := 0, seq := 0
    pc := v.pc, landed := [], idxs := [], undo := [], flags := 0 }

/-- Whether context k of a gang holds four operations. -/
def ctxFull (s : State) (gid k : Nat) : Bool :=
  match fget s.gangs gid with
  | none => true
  | some g => match g.ctxs[k]? with
    | none => true
    | some c => decide (4 ≤ c.ops.length)

/-- Accepts an operation: numbered, queued, and its advancing T registers moved on. -/
def submit (s : State) (v : Env) (k : Nat) (op : EngOp) (adv : List Nat) (steps : Nat) : Res :=
  if ctxFull s v.w.gang k then .hold
  else
    let s := modCtx s v.w.gang k fun c => { c with subm := c.subm + 1, ops := c.ops ++ [{ op with num := c.subm + 1 }] }
    .done (modWave s v.wid fun w =>
      adv.foldl (fun w n => if tAdv (v.w.readT n) then w.writeT n (tAdvance (v.w.readT n) steps) else w) w)

/-- The precise checks of R205: alignment of addresses in order, apertures of bases, then the barrier offset. Every base
from 0xFFFF_9000_0000_0000 up traps, past the private stack's window too (assumption log 61). -/
def engineTrap (s : State) (gid : Nat) (aligned : List (Bool × Nat)) (bases : List Nat) (bar : Option Word) :
    Option (Nat × Nat) :=
  match aligned.find? fun p => !p.1 with
  | some p => some (cALIGN, p.2)
  | none => match bases.find? fun b => decide (0xFFFF900000000000 ≤ b) with
    | some b => some (cAPERTURE, b)
    | none => match bar with
      | none => none
      | some b => (barTrap s gid b).map fun c => (c, b.toNat)

/-- Whether an integer is a multiple of 4. -/
def mult4 (x : Int) : Bool := x % 4 == 0

/-! ### Class 24 (R209, R210) -/

def shapeRows (x : Word) : Nat := x.toNat / 65536 + 1
def shapeBytes (x : Word) : Nat := if x.toNat % 65536 = 0 then 65536 else x.toNat % 65536

/-- Issue checks of a copy instruction: `fn` its code; td names a T register for codes 0 to 3, ts for all but 2. -/
def copyInfo (fn : Nat) (ctx : BitVec 3) (td ts : BitVec 5) (sl : BitVec 6) (sb : BitVec 5) (w : Wave) (_ : List Word) :
    OpInfo :=
  let hasD := decide (fn < 4)
  let hasS := fn != 2
  let slN := sl.toNat
  let slRuns : List RegRun := if fn = 3 then [.s slN 1, .s (slN + 2) 2] else [.s slN 1]
  let sbRun : List RegRun := if sb = 0 then [] else [.s sb.toNat 1]
  let x := w.readS slN
  { cls := 24
    rs := slRuns ++ sbRun ++ (if hasS then [] else [.s ts.toNat 1])
    bad := decide (3 < ctx.toNat) || (hasD && !w.tOk td.toNat) || (hasS && !w.tOk ts.toNat) ||
      (fn == 3 && decide (slN % 4 ≠ 0)) ||
      (if fn = 1 then x.toNat == 0 || decide (2 ^ 28 < x.toNat)
       else decide (2 ^ 28 < shapeRows x * shapeBytes x))
    deadA := slRuns, deadB := sbRun }

/-- Issues a copy instruction. td is checked before ts, and SR.TADDR names the register's BASE whichever of its fields is
misaligned (assumption log 70). -/
def copySubmit (fn : Nat) (ctx : BitVec 3) (td ts : BitVec 5) (sl : BitVec 6) (sb : BitVec 5) (s : State) : State :=
  let hasD := decide (fn < 4)
  let hasS := fn != 2
  let slN := sl.toNat
  issue s (copyInfo fn ctx td ts sl sb) fun v s =>
    let x := v.w.readS slN
    let d := v.w.readT td.toNat
    let t := v.w.readT ts.toNat
    let idx := v.w.readS64 (slN + 2)
    let bar := if sb = 0 then none else some (v.w.readS sb.toNat)
    let need4 := fn == 0 || fn == 2 || fn == 3
    let al := fun (c : Bool) (r : BitVec 128) =>
      if c && need4 then [(mult4 (tBase r), tBase r), (mult4 (tStride r), tBase r)] else []
    let checks := al hasD d ++ al hasS t ++ (if need4 then [(mult4 (shapeBytes x), tBase d)] else []) ++
      (if fn = 3 then [(mult4 idx.toNat, idx.toNat)] else [])
    match engineTrap s v.w.gang checks ((if hasD then [tBase d] else []) ++ (if hasS then [tBase t] else [])) bar with
    | some (c, a) => .trap s c 64 (BitVec.ofNat 64 a)
    | none =>
      let op := { blankOp v 24 fn with
        bar := bar, ta := if hasD then d else 0, tb := if hasS then t else 0, shape := x
        pat := if fn = 2 then v.w.readS ts.toNat else 0, idx := if fn = 3 then idx else 0 }
      submit s v ctx.toNat op ((if hasD then [td.toNat] else []) ++ (if hasS then [ts.toNat] else [])) 1

/-- ccopy (R211) -/
def execCcopy (ctx : BitVec 3) (td ts : BitVec 5) (sl : BitVec 6) (sb : BitVec 5) (s : State) :
    Host.Outcome State Fault Refusal := .next (copySubmit 0 ctx td ts sl sb s)

/-- cblock (R211) -/
def execCblock (ctx : BitVec 3) (td ts : BitVec 5) (sl : BitVec 6) (sb : BitVec 5) (s : State) :
    Host.Outcome State Fault Refusal := .next (copySubmit 1 ctx td ts sl sb s)

/-- cfill: ts names the scalar pattern (R211). -/
def execCfill (ctx : BitVec 3) (td ts : BitVec 5) (sl : BitVec 6) (sb : BitVec 5) (s : State) :
    Host.Outcome State Fault Refusal := .next (copySubmit 2 ctx td ts sl sb s)

/-- cgather (R211) -/
def execCgather (ctx : BitVec 3) (td ts : BitVec 5) (sl : BitVec 6) (sb : BitVec 5) (s : State) :
    Host.Outcome State Fault Refusal := .next (copySubmit 3 ctx td ts sl sb s)

/-- cprefetch (R212) -/
def execCprefetch (ctx : BitVec 3) (ts : BitVec 5) (sl : BitVec 6) (sb : BitVec 5) (s : State) :
    Host.Outcome State Fault Refusal := .next (copySubmit 4 ctx 0 ts sl sb s)

/-- cpromote (R212) -/
def execCpromote (ctx : BitVec 3) (ts : BitVec 5) (sl : BitVec 6) (sb : BitVec 5) (s : State) :
    Host.Outcome State Fault Refusal := .next (copySubmit 5 ctx 0 ts sl sb s)

/-! ### The format word (R92, R93, R215) -/

def fwA (w : Nat) : Nat := w % 32
def fwB (w : Nat) : Nat := w / 2 ^ 5 % 32
def fwD (w : Nat) : Nat := w / 2 ^ 10 % 32
def fwC (w : Nat) : Nat := w / 2 ^ 15 % 4
def fwSat (w : Nat) : Nat := w / 2 ^ 17 % 4

def isMx (i : Nat) : Bool := decide (15 ≤ i ∧ i ≤ 20)
def isComplex (i : Nat) : Bool := i == 21 || i == 22
def isIntFmt (i : Nat) : Bool := decide (10 ≤ i ∧ i ≤ 14)

/-- Formats of the second row of R93's table. -/
def isRealMac (i : Nat) : Bool := decide (1 ≤ i ∧ i ≤ 9) || decide (15 ≤ i ∧ i ≤ 19)

/-- Whether the operand formats and CF may be combined (R93, R215), for mloop and mloop.g, or for mloop.cx. -/
def loopFormatOk (cx : Bool) (w : Nat) : Bool :=
  let a := fwA w
  let b := fwB w
  let c := fwC w
  if cx then a == b && isComplex a && c == 0
  else (a == 0 && b == 0 && c == 1) || (isRealMac a && isRealMac b && c == 0) ||
    (decide (10 ≤ a ∧ a ≤ 13 ∧ 10 ≤ b ∧ b ≤ 13) && c == 2) ||
    (c == 0 && ((a == 20 && (b == 20 || isRealMac b)) || (b == 20 && isRealMac a)))

/-- Whether a drain accepts the format word (R93, R215). -/
def drainFormatOk (mx : Bool) (w : Nat) : Bool :=
  let d := fwD w
  decide (fwA w < 24) && decide (fwB w < 24) && decide (d < 23) && (!isComplex d || fwC w == 0) && (isMx d == mx)

/-- The fields every format word must keep (Table 5.13). -/
def formatFieldsOk (w : Nat) : Bool := w / 2 ^ 19 == 0 && fwSat w != 3 && fwC w != 3

/-- The word of the lowest issuing lane, and the lanes that differ from it (R93). -/
def formatVote (w : Wave) (iss : Word) (vf : Nat) : Word × Word :=
  let x := w.vlane vf (lowLane iss)
  (x, maskOf fun l => bitAt iss l && w.vlane vf l != x)

/-- Whether an operation rounds under its agreed word (R203). -/
def opRounds (fn w : Nat) : Bool :=
  match fn with
  | 0 | 1 => fwC w != 2
  | 2 | 4 => true
  | 3 => !(fwC w == 2 && isIntFmt (fwD w))
  | _ => false

/-- Scale registers: `n + 1` where the operand at T(n) is MX. -/
def scaleReg (fmt n : Nat) : List Nat := if isMx fmt then [n + 1] else []

/-! ### Class 25 (R214, R215) -/

/-- A matrix form: which operands it has. -/
structure MForm where
  fn : Nat
  hasA : Bool
  hasB : Bool
  hasFmt : Bool
  loop : Bool
  deriving DecidableEq, Repr

/-- The tiles an operation may name: whether it needs a pair (R61, R215). -/
def needsPair (fn w : Nat) : Bool :=
  match fn with
  | 0 | 1 => fwC w == 1
  | 2 => true
  | 3 | 4 => fwC w == 1 || isComplex (fwD w)
  | _ => false

/-- Tiles of the gang's accumulator bank, two to a granule. -/
def accTiles (s : State) (w : Wave) : Nat := 2 * ((fget s.gangs w.gang).map Gang.accg).getD 0

/-- Issue checks of a matrix instruction. -/
def matrixInfo (s : State) (m : MForm) (acc : BitVec 4) (ta tb sk vf : BitVec 5) (w : Wave) (_ : List Word) : OpInfo :=
  let a := ta.toNat
  let b := tb.toNat
  let k := sk.toNat
  let usesS := m.fn ≤ 4 ∨ (m.fn = 7 ∧ sk ≠ 0)
  let skRuns : List RegRun := if m.fn = 1 then [.s k 1, .s (k + 2) 2] else if usesS then [.s k 1] else []
  let vfRun : List RegRun := if m.hasFmt then [.v vf.toNat 1] else []
  let x := (w.readS k).toNat
  let word := match w.front with
    | some (_, iss, _) => (formatVote w iss vf.toNat).1.toNat
    | none => 0
  { cls := 25
    rs := skRuns ++ vfRun
    bad := decide (accTiles s w ≤ acc.toNat) || (m.hasA && !w.tOk a) ||
      (m.hasB && (if m.fn = 4 then decide (w.tn ≤ b) else !w.tOk b)) ||
      (m.loop && decide (1023 < x)) || ((m.fn == 3 || m.fn == 4) && decide (1 < x)) ||
      (m.fn == 1 && (decide (k % 4 ≠ 0) || tKmaj (w.readT a)))
    roundsLate := m.hasFmt && opRounds m.fn word
    deadA := vfRun, deadB := skRuns }

/-- Issues a matrix instruction.
An odd acc of mloop.cx is ILLEGAL at order 7, after the vote, as R215 lists it, the model's choice (log 98). -/
def matrixSubmit (m : MForm) (acc : BitVec 4) (ta tb sk vf : BitVec 5) (s : State) : State :=
  let a := ta.toNat
  let b := tb.toNat
  let k := sk.toNat
  issue s (matrixInfo s m acc ta tb sk vf) fun v s =>
    let w := v.w
    let vote := formatVote w v.iss vf.toNat
    let f := if m.hasFmt then vote.1.toNat else 0
    let scales := if m.loop then scaleReg (fwA f) a ++ scaleReg (fwB f) b else []
    let pair := m.hasFmt && needsPair m.fn f
    let fmtOk := formatFieldsOk f && (if m.loop then loopFormatOk (m.fn == 2) f else drainFormatOk (m.fn == 4) f)
    if m.hasFmt && vote.2 != 0 then .trap s cFMTDIV 0 (BitVec.ofNat 64 vote.2.toNat)
    else if (pair && (decide (acc.toNat % 2 = 1) || decide (accTiles s w ≤ acc.toNat + 1))) ||
        scales.any (fun n => decide (w.tn ≤ n) || decide (31 < n)) then .trap s cILLEGAL 0 0
    else if m.hasFmt && !fmtOk then .trap s cBADFMT 0 0
    else if m.hasFmt && opRounds m.fn f && decide (5 < v.rm) then .trap s cBADRM 0 0
    else
      let x := w.readS k
      let tA := w.readT a
      let tB := w.readT b
      let idx := w.readS64 (k + 2)
      let al := fun (c : Bool) (r : BitVec 128) =>
        if c then [(mult4 (tBase r), tBase r), (mult4 (tStride r), tBase r)] ++
          (if m.loop then [(mult4 (tKinc r), tBase r)] else []) else []
      let checks := al m.hasA tA ++ al (m.hasB && m.fn != 4) tB ++
        (if m.fn = 1 then [(mult4 idx.toNat, idx.toNat)] else [])
      let bar := if m.fn = 7 ∧ sk ≠ 0 then some x else none
      let bases := (if m.hasA then [tBase tA] else []) ++ (if m.hasB then [tBase tB] else []) ++
        scales.map fun n => tBase (w.readT n)
      match engineTrap s w.gang checks bases bar with
      | some (c, ad) => .trap s c 64 (BitVec.ofNat 64 ad)
      | none =>
        let rnd := m.hasFmt && opRounds m.fn f
        let op := { blankOp v 25 m.fn with
          acc := acc.toNat, bar := bar
          rm := if rnd then v.rm else 0, ftz := rnd && v.ftz, sat := fwSat f
          ta := if m.hasA then tA else 0, tb := if m.hasB then tB else 0
          ta1 := if m.loop ∧ isMx (fwA f) then w.readT (a + 1) else 0
          tb1 := if m.loop ∧ isMx (fwB f) then w.readT (b + 1) else 0
          shape := if m.fn ≤ 4 then x else 0
          idx := if m.fn = 1 then idx else 0
          fmt := BitVec.ofNat 32 f
          seed := if rnd then w.seed else 0
          seq := if rnd then v.seq else 0 }
        submit s v (4 + acc.toNat / 4) op (if m.loop then [a, b] else []) x.toNat

/-- mloop (R218) -/
def execMloop (acc : BitVec 4) (ta tb sk vf : BitVec 5) (s : State) : Host.Outcome State Fault Refusal :=
  .next (matrixSubmit ⟨0, true, true, true, true⟩ acc ta tb sk vf s)

/-- mloop.g (R219) -/
def execMloopG (acc : BitVec 4) (ta tb sk vf : BitVec 5) (s : State) : Host.Outcome State Fault Refusal :=
  .next (matrixSubmit ⟨1, true, true, true, true⟩ acc ta tb sk vf s)

/-- mloop.cx (R218) -/
def execMloopCx (acc : BitVec 4) (ta tb sk vf : BitVec 5) (s : State) : Host.Outcome State Fault Refusal :=
  .next (matrixSubmit ⟨2, true, true, true, true⟩ acc ta tb sk vf s)

/-- mdrain (R220) -/
def execMdrain (acc : BitVec 4) (ta sk vf : BitVec 5) (s : State) : Host.Outcome State Fault Refusal :=
  .next (matrixSubmit ⟨3, true, false, true, false⟩ acc ta 0 sk vf s)

/-- mdrain.mx (R221) -/
def execMdrainMx (acc : BitVec 4) (ta tb sk vf : BitVec 5) (s : State) : Host.Outcome State Fault Refusal :=
  .next (matrixSubmit ⟨4, true, true, true, false⟩ acc ta tb sk vf s)

/-- mzero (R222) -/
def execMzero (acc : BitVec 4) (s : State) : Host.Outcome State Fault Refusal :=
  .next (matrixSubmit ⟨5, false, false, false, false⟩ acc 0 0 0 0 s)

/-- mload (R222) -/
def execMload (acc : BitVec 4) (ta : BitVec 5) (s : State) : Host.Outcome State Fault Refusal :=
  .next (matrixSubmit ⟨6, true, false, false, false⟩ acc ta 0 0 0 s)

/-- mprog (R222) -/
def execMprog (acc : BitVec 4) (sk : BitVec 5) (s : State) : Host.Outcome State Fault Refusal :=
  .next (matrixSubmit ⟨7, false, false, false, false⟩ acc 0 0 sk 0 s)

end Sys2Proof.Machine
end

