-- ==== Sys2Proof/Machine/EngineRun.lean ====
section
/-! DEFINITION. What the engines do with accepted operations: chunks, rows, markers and faults (spec/05 R90, R94-R97;
spec/13 R206-R208, R211-R213, R216-R222; spec/17 R307). -/

namespace Sys2Proof.Machine

open Sys2Proof

/-! ### Access by an engine -/

/-- The outcome of an engine's translations; a wait names an address on the page it waits for. -/
inductive EngReach where
  | ok (p : Place)
  | wait (va : Nat)
  | fail (cause : Nat) (va : Nat) (write : Bool)
  deriving DecidableEq, Repr

/-- Joins outcomes: the first fault, else a wait. -/
def EngReach.join : EngReach → EngReach → EngReach
  | .fail c v w, _ => .fail c v w
  | _, .fail c v w => .fail c v w
  | .wait v, _ => .wait v
  | _, .wait v => .wait v
  | .ok a, .ok b => .ok ⟨a.locs ++ b.locs, a.marks ++ b.marks⟩

/-- Resolves `n` bytes from an address, page by page (R207). DESIGN CHOICE: the part of a range that lies in a page is one access, whose
first byte a fault names, also where only a later byte is out of reach (assumption log 101). -/
def engReach (s : State) (root : DWord) (gid : Nat) (va : Int) (n : Nat) (k : Acc) : EngReach :=
  let a := (va % 2 ^ 64).toNat
  (numsFrom 0 ((a % 65536 + n + 65535) / 65536)).foldl (fun r i =>
    let lo := (if i = 0 then a else (a / 65536 + i) * 65536)
    let hi := min (a + n) ((a / 65536 + i + 1) * 65536)
    let lo64 := lo % 2 ^ 64
    r.join (match steer s gid lo64 (hi - lo) with
      | .glob v => match reachGlobal s root v (hi - lo) k ⟨gangDie s gid, 0⟩ with
        | .ok p => .ok p
        | .fail c => .fail c lo64 (k == .write)
        | _ => .wait lo64
      | .spad g p => .ok ⟨(numsFrom p (hi - lo)).map (Loc.spad g), []⟩
      | _ => .fail cAPERTURE lo64 (k == .write))) (.ok ⟨[], []⟩)

/-- A byte as a read finds it, a pooled line at its merged value. -/
def locView (s : State) : Loc → BitVec 8
  | .phys pa => viewByte s pa
  | l => locByte s l

/-- The traffic of places that an operation reads or writes, by the memory they lie in (spec/21 R366). -/
def placeTraffic (s : State) (r : Nat) (ls : List Loc) : State :=
  [0, 1, 3].foldl (fun s k => match (ls.filter fun l => match l with
      | .phys pa => trafficKind pa == k
      | .spad _ _ => false).length with
    | 0 => s
    | n => traffic s r k n) s

/-- The wave that takes an engine's trap: the issuing wave, else the lowest live one (R207). -/
def engineTaker (s : State) (gid owner : Nat) : Option Nat :=
  let ws := gangWaves s gid
  match ws.find? fun p => p.1 == owner with
  | some p => some p.1
  | none => ws.head?.map Prod.fst

/-- The wave that takes a fault raised again after creplay: the wave its descriptor names, where that was restored, else the
lowest-indexed restored one (R258). -/
def refaultTaker (s : State) (gid owner : Nat) : Option Nat :=
  let ws := (gangWaves s gid).filter fun p => p.2.restored
  match ws.find? fun p => p.1 == owner with
  | some p => some p.1
  | none => match ws.head? with
    | some p => some p.1
    | none => engineTaker s gid owner

/-- Makes POOLOVF pending for each merge an engine access overflowed (R307). DESIGN CHOICE: with no live wave in the gang no trap is
delivered and the operation goes on (assumption log 105). -/
def engineOvf (s : State) (gid k : Nat) (op : EngOp) (write : Bool) (marks : List (Nat × DWord × Nat))
    (os : List Nat) : State :=
  match engineTaker s gid op.owner with
  | none => s
  | some wid => os.foldl (fun s pa =>
      addPending s wid ⟨oENGINEOVF, cPOOLOVF, 128 + (if write then 32 else 0) + k, some op.pc, BitVec.ofNat 64 (ovfVA marks pa), none⟩) s

/-- Whether a context works: gang placed, region not discarded, context neither stopped nor halted (R207, R255, R384). -/
def ctxRuns (s : State) (gid : Nat) (c : Ctx) : Bool :=
  !c.stopped && !c.halted && s.host.powered && regionStatus s (gangRegion s gid) != 2 &&
  (match fget s.gangs gid with
    | none => false
    | some g => !g.ended && !g.released && (match fget s.cohorts g.cohort with
      | none => false
      | some k => k.resident))

/-- The gang, context and operation of an engine event. -/
def engineOp (s : State) (gid k : Nat) (sel : List EngOp → Option EngOp) : Option (Gang × Ctx × EngOp) :=
  match fget s.gangs gid with
  | none => none
  | some g => match g.ctxs[k]? with
    | none => none
    | some c => (sel c.ops).map fun o => (g, c, o)

def modOp (s : State) (gid k num : Nat) (f : EngOp → EngOp) : State :=
  modCtx s gid k fun c => { c with ops := c.ops.map fun o => if o.num = num then f o else o }

/-! ### Copies (R211-R213) -/

def EngOp.rowBytes (o : EngOp) : Nat := if o.fn = 1 then o.shape.toNat else shapeBytes o.shape
def EngOp.total (o : EngOp) : Nat := if o.fn = 1 then o.shape.toNat else shapeRows o.shape * shapeBytes o.shape
def EngOp.chunks (o : EngOp) : Nat := (o.total + 4095) / 4096

/-- The chunks an operation has still to land. -/
def EngOp.left (o : EngOp) : List Nat := (numsFrom 0 o.chunks).filter fun c => !o.landed.contains c

/-- The row pieces of a chunk: row, first byte in it, length. -/
def EngOp.pieces (o : EngOp) (chunk : Nat) : List (Nat × Nat × Nat) :=
  let lo := 4096 * chunk
  let hi := min (lo + 4096) o.total
  let rb := o.rowBytes
  if hi ≤ lo then []
  else (numsFrom (lo / rb) ((hi - 1) / rb - lo / rb + 1)).map fun r =>
    let a := max lo (r * rb)
    (r, a - r * rb, min hi ((r + 1) * rb) - a)

/-- The address of a piece under a descriptor, with the row it is taken from. -/
def rowAddr (t : BitVec 128) (plain : Bool) (r b : Nat) : Int :=
  (tBase t : Int) + (if plain then 0 else (r : Int) * tStride t) + b

/-- The number of a place among those an operation keeps the bytes of. -/
def locKey : Loc → Nat
  | .phys pa => pa
  | .spad g p => 2 ^ 52 + g * 2 ^ 32 + p

/-- The value a place holds for a copy: what it held before the operation wrote it (R211). -/
def EngOp.srcByte (o : EngOp) (s : State) (l : Loc) : BitVec 8 := (fget o.undo (locKey l)).getD (locView s l)

/-- The row an index names, for cgather; none for a zero row. Where the operation has written the index, the value it held
before or the written one counts: which, is free (R211; assumption log 71). -/
def gatherRow (s : State) (root : DWord) (gid : Nat) (o : EngOp) (r : Nat) : EngReach × Option Nat :=
  match engReach s root gid ((o.idx.toNat : Int) + 4 * r) 4 .read with
  | .ok p =>
    let i := leNat (p.locs.map (if Config.gathersOld s.fresh r then o.srcByte s else locView s))
    (.ok p, if i = 0xFFFFFFFF then none else some i)
  | e => (e, none)

/-- What a chunk reads and writes: the index entries' places, then for each piece its source (none: constant bytes)
and its destination. -/
structure ChunkPlan where
  idx : EngReach
  src : List (Option EngReach × Nat)
  dst : EngReach
  deriving DecidableEq, Repr

def chunkPlan (s : State) (root : DWord) (gid : Nat) (o : EngOp) (chunk : Nat) : ChunkPlan :=
  let ps := o.pieces chunk
  let rows := ps.map fun p => if o.fn = 3 then gatherRow s root gid o p.1 else (.ok ⟨[], []⟩, some p.1)
  { idx := rows.foldl (fun r x => r.join x.1) (.ok ⟨[], []⟩)
    src := (ps.zip rows).map fun x =>
      if o.fn = 2 then (none, x.1.2.2)
      else match x.2.2 with
        | none => (none, x.1.2.2)
        | some r => (some (engReach s root gid (rowAddr o.tb (o.fn == 1) r x.1.2.1) x.1.2.2 .read), x.1.2.2)
    dst := ps.foldl (fun r p => r.join (engReach s root gid (rowAddr o.ta (o.fn == 1) p.1 p.2.1) p.2.2 .write))
      (.ok ⟨[], []⟩) }

/-- All translations of a chunk joined. -/
def ChunkPlan.all (c : ChunkPlan) : EngReach :=
  (c.src.foldl (fun r x => match x.1 with
    | some e => r.join e
    | none => r) c.idx).join c.dst

/-- Whether each page of a chunk of cprefetch or cpromote is resident or skipped (R212); `stuck` tells of a page that
it cannot be made resident. -/
def residentReach (s : State) (root : DWord) (gid : Nat) (o : EngOp) (chunk : Nat) (stuck : Nat → Bool) : Bool :=
  (o.pieces chunk).all fun p =>
    let a := ((rowAddr o.tb false p.1 p.2.1) % 2 ^ 64).toNat
    (numsFrom (a / 65536) ((a % 65536 + p.2.2 + 65535) / 65536)).all fun pg =>
      let va := max a (pg * 65536) % 2 ^ 64
      match steer s gid va 1 with
      | .glob v => match translate s root v 1 .read ⟨gangDie s gid, 0⟩ with
        | .stall => false
        | .resolvable => stuck v
        | _ => true
      | _ => true

/-- The bytes of a chunk that a copy writes, read once every place is prepared. -/
def chunkBytes (s : State) (o : EngOp) (chunk : Nat) (plan : ChunkPlan) : List (BitVec 8) :=
  let lo := 4096 * chunk
  if o.fn = 2 then
    (numsFrom lo (min 4096 (o.total - lo))).map fun i => BitVec.ofNat 8 (o.pat.toNat / 256 ^ (i % 4))
  else plan.src.flatMap fun x => match x.1 with
    | some (.ok p) => p.locs.map (o.srcByte s)
    | _ => List.replicate x.2 0

/-- After a chunk has landed: its barrier bytes, PROG, and completion after the last (R213). -/
def chunkLanded (s : State) (gid k : Nat) (o : EngOp) (chunk : Nat) : State :=
  let bytes := min 4096 (o.total - 4096 * chunk)
  let landed := chunk :: o.landed
  let s := modOp s gid k o.num fun x => { x with landed := landed, undo := o.undo }
  let s := modCtx s gid k fun c => { c with
    prog := if c.ops.head?.map (·.num) = some o.num then landedPrefix landed else c.prog
    refault := if c.refault = some o.num ∧ chunk = landedPrefix o.landed then none else c.refault }
  let s := match o.bar with
    | some b => updateBarrier s gid b fun x => { x with landed := x.landed + bytes }
    | none => s
  let s := progressed s (gangRegion s gid)
  if o.chunks ≤ landed.length then completeOp s gid k o.num else s

/-- What a chunk or a row has read although it waits or faults: the walk of the page it waits for, and an index (R304). -/
def settleRead (s : State) (root : DWord) (gid k : Nat) (o : EngOp) (ix : EngReach) (va : Option Nat) : State :=
  if s.pool.isEmpty then s
  else
    let s := match ix with
      | .ok p =>
        let r := prepareList s p.locs
        engineOvf (useLeaves r.1 root p none) gid k o false p.marks r.2
      | _ => s
    match va with
    | some a => settleWalk s root a
    | none => s

/-- Whether a chunk or a row that waits has still to read, as far as it can, lines that are pooled. -/
def readsPooled (s : State) (root : DWord) (ix : EngReach) (va : Nat) : Bool :=
  !s.pool.isEmpty && ((match ix with
    | .ok p => p.locs.any fun l => match l with
      | .phys pa => (fget s.pool (pa / 128)).isSome
      | .spad _ _ => false
    | _ => false) || (walkReads s va 4 0 root.toNat).any fun a => (fget s.pool (a / 128)).isSome)

/-- The VA of a wait. -/
def EngReach.waits : EngReach → Option Nat
  | .wait va => some va
  | _ => none

/-- The index entries of a chunk that can be read, joined: what it reads although another page of it waits or faults. -/
def ChunkPlan.read (s : State) (root : DWord) (gid : Nat) (o : EngOp) (chunk : Nat) : EngReach :=
  if o.fn ≠ 3 then .ok ⟨[], []⟩
  else (o.pieces chunk).foldl (fun r p => match (gatherRow s root gid o p.1).1 with
    | .ok x => r.join (.ok x)
    | _ => r) (.ok ⟨[], []⟩)

/-- Lands a chunk of a copy whose translations all succeed. -/
def landChunk (s : State) (root : DWord) (gid k : Nat) (o : EngOp) (chunk : Nat) : State :=
  let plan := chunkPlan s root gid o chunk
  match plan.all, plan.dst with
  | .ok p, .ok d =>
    let src := p.locs.take (p.locs.length - d.locs.length)
    let r := prepareList s src
    let q := prepareList r.1 d.locs
    let s := engineOvf (useLeaves (useLeaves q.1 root p none) root d (some (regionGen s (gangRegion s gid)))) gid k o false p.marks r.2
    let s := engineOvf s gid k o true d.marks q.2
    let bs := chunkBytes s o chunk plan
    let undo := if o.chunks ≤ 1 ∨ o.fn = 2 then []
      else o.undo ++ d.locs.map fun l => (locKey l, locByte s l)
    let s := placeTraffic (setLocs s d.locs bs) (gangRegion s gid) p.locs
    chunkLanded s gid k { o with undo := undo } chunk
  | r, _ => settleRead s root gid k o (ChunkPlan.read s root gid o chunk) r.waits

/-! ### Matrix operands (R216, R217) -/

/-- K per step of a format (Table 1.2). -/
def fmtK (i : Nat) : Nat :=
  match i with
  | 0 => 4
  | 1 | 2 => 8
  | 3 | 4 | 21 | 22 => 32
  | 9 | 12 | 13 | 19 => 128
  | _ => 64

/-- The element format beneath an MX format. -/
def mxElem (i : Nat) : Nat := if isMx i then (match i with | 20 => 10 | n => n - 10) else i

/-- Whether elements of the format are packed FP6 under PK6. -/
def packed6 (i : Nat) (t : BitVec 128) : Bool := tPk6 t && (mxElem i == 7 || mxElem i == 8)

/-- Where element n lies past its row's address: byte offset, bytes to read, bit offset in them, width (R216). -/
def elemPos (n i : Nat) (t : BitVec 128) : Nat × Nat × Nat × Nat :=
  let e := mxElem i
  if packed6 i t then (3 * (n / 4), 3, 6 * (n % 4), 6)
  else match e with
    | 0 => (8 * n, 8, 0, 64)
    | 1 | 2 | 21 | 22 => (4 * n, 4, 0, 32)
    | 3 | 4 | 14 => (2 * n, 2, 0, 16)
    | 9 | 12 | 13 => (n / 2, 1, 4 * (n % 2), 4)
    | _ => (n, 1, 0, 8)

/-- The exact value of an element's bits (R75-R80, MXINT8 with its factor of 2^-6). -/
def elemVal (i : Nat) (bits : Nat) : XVal :=
  match i with
  | 10 => xOfInt (signed 8 bits)
  | 11 => xOfInt (bits % 256 : Nat)
  | 12 => xOfInt (signed 4 bits)
  | 13 => xOfInt (bits % 16 : Nat)
  | 14 => xOfInt (signed 16 bits)
  | 20 => (xOfInt (signed 8 bits)).scale (-6)
  | _ => match floatFmt (mxElem i) with
    | some f => decodeFloat f (bits % 2 ^ (f.eb + f.mb + 1))
    | none => .nan

/-- A value times its E8M0 block scale; 0xFF makes it NaN. -/
def scaled (x : Nat) (v : XVal) : XVal := if x = 255 then .nan else v.scale ((x : Int) - 127)

/-- One matrix operand of an operation. -/
structure MatOperand where
  fmt : Nat
  t : BitVec 128
  sc : BitVec 128
  deriving DecidableEq, Repr

/-- The address run of element (row, kk) of K-step k. -/
def MatOperand.addr (m : MatOperand) (row k kk : Nat) : Int × Nat × Nat × Nat :=
  let n := if tKmaj m.t then row else kk
  let r := if tKmaj m.t then kk else row
  let p := elemPos n m.fmt m.t
  ((tBase m.t : Int) + (r : Int) * tStride m.t + (k : Int) * tKinc m.t + p.1, p.2.1, p.2.2.1, p.2.2.2)

/-- The address of the scale of loop element κ of a row. -/
def MatOperand.scaleAddr (m : MatOperand) (row kap : Nat) : Int :=
  (tBase m.sc : Int) + (row : Int) * tStride m.sc + (kap / 32 : Nat)

/-- A read of a matrix operand: its outcome, and the number of its bytes when it succeeds. -/
structure MatRead where
  reach : EngReach
  bits : Nat
  deriving DecidableEq, Repr

def matRead (s : State) (root : DWord) (gid : Nat) (va : Int) (n : Nat) : MatRead :=
  match engReach s root gid va n .read with
  | .ok p => ⟨.ok p, leNat (p.locs.map (locView s))⟩
  | e => ⟨e, 0⟩

/-- The bits of K elements of a row, and the translations they take. -/
def MatOperand.row (m : MatOperand) (s : State) (root : DWord) (gid row k kn : Nat) : EngReach × List (Nat × Nat) :=
  let rs := (numsFrom 0 kn).map fun kk =>
    let a := m.addr row k kk
    let e := matRead s root gid a.1 a.2.1
    let sc := if isMx m.fmt then matRead s root gid (m.scaleAddr row (k * kn + kk)) 1 else ⟨.ok ⟨[], []⟩, 0⟩
    (e.reach.join sc.reach, (e.bits / 2 ^ a.2.2.1 % 2 ^ a.2.2.2, sc.bits))
  (rs.foldl (fun r x => r.join x.1) (.ok ⟨[], []⟩), rs.map Prod.snd)

/-- The value of an element's bits with its scale. -/
def MatOperand.val (m : MatOperand) (x : Nat × Nat) : XVal :=
  if isMx m.fmt then scaled x.2 (elemVal m.fmt x.1) else elemVal m.fmt x.1

/-- The real and imaginary halves of a complex element. -/
def complexParts (i bits : Nat) : XVal × XVal :=
  let f := if i = 21 then bf16 else fp16
  (decodeFloat f (bits % 65536), decodeFloat f (bits / 65536 % 65536))

/-! ### Accumulators (R61) -/

def accKey (acc i j : Nat) : Nat := acc * 4096 + i * 64 + j

def accWord (g : Gang) (acc i j : Nat) : Nat := (fgetD g.acc (accKey acc i j) 0).toNat

/-- Writes an accumulator word; a zero word is not listed. -/
def setAcc (m : FMap Word) (acc i j : Nat) (x : Nat) : FMap Word :=
  if x % 2 ^ 32 = 0 then fdel m (accKey acc i j) else fset m (accKey acc i j) (BitVec.ofNat 32 x)

/-- The rounding site of an operation's element. -/
def EngOp.renv (o : EngOp) (ftz : Bool) (coord : Nat) : REnv :=
  ⟨o.rm, o.sat, ftz, if o.rm = 5 then rsdHash o.seed coord o.seq else 0⟩

/-- The K-step sum of one element: its new bits and flags (R94, R96). `keep` marks an all-zero A row (R219). -/
def macFloat (f : FloatFmt) (e : REnv) (keep : Bool) (c : Nat) (ps : List XVal) : Nat × Word :=
  let cv := decodeFloat f c
  if keep && cv.isZero then (c, 0)
  else rounded f e (ivIf (xsum (e.rm == 2) (cv :: ps)))

def clampInt (lo hi x : Int) : Int × Word :=
  if x < lo then (lo, fSAT) else if hi < x then (hi, fSAT) else (x, 0)

/-- An exact integer of a value. -/
def xInt : XVal → Int
  | .fin n m e _ => let a : Int := ((m <<< e.toNat : Nat) : Int); if n then -a else a
  | _ => 0

def macInt (sat c : Nat) (ps : List (Int × Int)) : Nat × Word :=
  let t := ps.foldl (fun t p => t + p.1 * p.2) (signed 32 c)
  if sat = 0 then ((BitVec.ofInt 32 t).toNat, 0)
  else
    let r := clampInt (-2147483648) 2147483647 t
    ((BitVec.ofInt 32 r.1).toNat, r.2)

/-- What one row of a K-step takes and gives: translations, and on success the accumulators and flags. -/
structure RowResult where
  reach : EngReach
  dst : EngReach
  acc : FMap Word
  flags : Word
  bytes : List (BitVec 8)
  deriving DecidableEq, Repr

/-- The index of row i of an mloop.g: read when the row is first processed, and kept (R219). -/
def EngOp.rowIndex (o : EngOp) (s : State) (root : DWord) (gid i : Nat) : MatRead :=
  match fget o.idxs i with
  | some x => ⟨.ok ⟨[], []⟩, x⟩
  | none => matRead s root gid ((o.idx.toNat : Int) + 4 * i) 4

/-- The index that the row of a turn reads, where it reads one. -/
def EngOp.indexReach (o : EngOp) (s : State) (root : DWord) (gid prog : Nat) : EngReach :=
  if o.fn = 1 then (o.rowIndex s root gid (prog % 64)).reach else .ok ⟨[], []⟩

/-- Row i of K-step k of a loop (R218). -/
def loopRow (s : State) (root : DWord) (gid : Nat) (g : Gang) (o : EngOp) (k i : Nat) : RowResult :=
  let w := o.fmt.toNat
  let a : MatOperand := ⟨fwA w, o.ta, o.ta1⟩
  let b : MatOperand := ⟨fwB w, o.tb, o.tb1⟩
  let kn := min (fmtK (fwA w)) (fmtK (fwB w))
  let ix := if o.fn = 1 then
      let r := o.rowIndex s root gid i
      (r.reach, if r.bits = 0xFFFFFFFF then none else some r.bits)
    else (.ok ⟨[], []⟩, some i)
  let ar := match ix.2 with
    | some r => a.row s root gid r k kn
    | none => (.ok ⟨[], []⟩, [])
  let brs := if ix.2.isNone then [] else (numsFrom 0 64).map fun j => b.row s root gid j k kn
  let reach := brs.foldl (fun r x => r.join x.1) (ix.1.join ar.1)
  let keep := ix.2.isNone
  let cell := fun (m : FMap Word × Word) (j : Nat) =>
    let br := (brs.getD j (.wait 0, [])).2
    let coord := i + 64 * j + 4096 * k
    let prs := ar.2.zip br
    if o.fn = 2 then
      let cs := prs.map fun p => (complexParts (fwA w) p.1.1, complexParts (fwB w) p.2.1)
      let re := cs.flatMap fun p => [(xmul p.1.1 p.2.1).1, (xmul p.1.2 p.2.2).1.negate]
      let im := cs.flatMap fun p => [(xmul p.1.1 p.2.2).1, (xmul p.1.2 p.2.1).1]
      let r := macFloat fp32 (o.renv false coord) keep (accWord g o.acc i j) re
      let q := macFloat fp32 (o.renv false (coord + 2 ^ 31)) keep (accWord g (o.acc + 1) i j) im
      (setAcc (setAcc m.1 o.acc i j r.1) (o.acc + 1) i j q.1, m.2 ||| r.2 ||| q.2)
    else match fwC w with
      | 2 =>
        let r := macInt o.sat (accWord g o.acc i j) (prs.map fun p => (xInt (a.val p.1), xInt (b.val p.2)))
        (setAcc m.1 o.acc i j r.1, m.2 ||| r.2)
      | 1 =>
        let c := accWord g o.acc i j + 2 ^ 32 * accWord g (o.acc + 1) i j
        let r := macFloat fp64 (o.renv false coord) keep c (prs.map fun p => (xmul (a.val p.1) (b.val p.2)).1)
        (setAcc (setAcc m.1 o.acc i j r.1) (o.acc + 1) i j (r.1 / 2 ^ 32), m.2 ||| r.2)
      | _ =>
        let r := macFloat fp32 (o.renv false coord) keep (accWord g o.acc i j)
          (prs.map fun p => (xmul (a.val p.1) (b.val p.2)).1)
        (setAcc m.1 o.acc i j r.1, m.2 ||| r.2)
  let r := match reach with
    | .ok _ => (numsFrom 0 64).foldl cell (g.acc, 0)
    | _ => (g.acc, 0)
  ⟨reach, .ok ⟨[], []⟩, r.1, r.2, []⟩

/-! ### Drains (R90, R220, R221) -/

/-- The value of a tile element under CF, with the FTZ of a drain's input. -/
def tileVal (g : Gang) (o : EngOp) (acc i j : Nat) : XVal :=
  match fwC o.fmt.toNat with
  | 2 => xOfInt (signed 32 (accWord g acc i j))
  | 1 => inputFloat fp64 o.ftz (accWord g acc i j + 2 ^ 32 * accWord g (acc + 1) i j)
  | _ => inputFloat fp32 o.ftz (accWord g acc i j)

/-- The range of an integer drain format. -/
def drainRange (d : Nat) : Int × Int := (intRange d 0).getD (0, 0)

/-- Converts one element to DF: bits and flags (R220). -/
def drainElem (g : Gang) (o : EngOp) (i j : Nat) : Nat × Word :=
  let w := o.fmt.toNat
  let d := fwD w
  let v := tileVal g o o.acc i j
  let e := o.renv o.ftz (i + 64 * j)
  let fl := flagIf v.isNan fIV
  if isComplex d then
    let f := if d = 21 then bf16 else fp16
    let u := tileVal g o (o.acc + 1) i j
    let r := rounded f e (v, fl)
    let q := rounded f (o.renv o.ftz (i + 64 * j + 2 ^ 31)) (u, flagIf u.isNan fIV)
    (r.1 + 65536 * q.1, r.2 ||| q.2)
  else if isIntFmt d then
    let lim := drainRange d
    if fwC w = 2 then
      let x := signed 32 (accWord g o.acc i j)
      if o.sat = 0 then ((BitVec.ofInt 32 x).toNat, 0)
      else
        let r := clampInt lim.1 lim.2 x
        ((BitVec.ofInt 32 r.1).toNat, r.2)
    else
      let r := roundInt e lim.1 lim.2 v
      ((BitVec.ofInt 32 r.1).toNat, r.2)
  else match floatFmt d with
    | some f => rounded f e (v, fl)
    | none => (0, 0)

/-- One element of an MX block under its scale (R90, R221). -/
def mxElemOut (o : EngOp) (d x i j : Nat) (v : XVal) : Nat × Word :=
  let e := o.renv o.ftz (i + 64 * j)
  match floatFmt (mxElem d) with
  | some f =>
    if x = 255 then (f.nanBits, 0) else rounded f e (v.scale (127 - (x : Int)), 0)
  | none =>
    if x = 255 then (0, 0)
    else
      let r := roundInt e (-128) 127 (v.scale (127 - (x : Int) + 6))
      ((BitVec.ofInt 32 r.1).toNat, if r.2 = fIV then fSAT ||| fOF ||| fNX else r.2)

/-- Lays element bits out as the bytes of a row (R216, R220). -/
def layRow (d : Nat) (t : BitVec 128) (els : List Nat) : List (BitVec 8) :=
  let n := els.length
  let p := elemPos 0 d t
  let width := p.2.2.2
  let slot := if packed6 d t then 6 else if width = 4 then 4 else width
  let total := els.foldr (fun e x => e % 2 ^ (if mxElem d = 7 ∨ mxElem d = 8 then 6 else width) + 2 ^ slot * x) 0
  leBytes (n * slot / 8) total

/-- Row r of a drain as memory sees it: a tile row, or a tile column under KMAJ. -/
def drainRow (s : State) (root : DWord) (gid : Nat) (g : Gang) (o : EngOp) (r : Nat) : RowResult :=
  let w := o.fmt.toNat
  let d := fwD w
  let at' := fun n => if tKmaj o.ta then (n, r) else (r, n)
  let els := if o.fn = 4 then
      let blocks := [0, 1].map fun q =>
        let vs := (numsFrom (32 * q) 32).map fun n => tileVal g o o.acc (at' n).1 (at' n).2
        let x := blockScale d vs
        (x, ((numsFrom (32 * q) 32).zip vs).map fun p => mxElemOut o d x (at' p.1).1 (at' p.1).2 p.2)
      (blocks.flatMap Prod.snd, blocks.map fun b => BitVec.ofNat 8 b.1,
        flagIf (blocks.any fun b => b.1 == 255) fIV)
    else ((numsFrom 0 64).map fun n => drainElem g o (at' n).1 (at' n).2, [], 0)
  let bytes := layRow d o.ta (els.1.map Prod.fst)
  let main := engReach s root gid ((tBase o.ta : Int) + (r : Int) * tStride o.ta) bytes.length .write
  let sc := if o.fn = 4 then engReach s root gid ((tBase o.tb : Int) + (r : Int) * tStride o.tb) 2 .write
    else .ok ⟨[], []⟩
  let zero := o.shape.toNat % 2 = 1 ∧ r = 63
  let tiles := [o.acc] ++ if needsPair o.fn w then [o.acc + 1] else []
  ⟨main.join sc, main.join sc, if zero then g.acc.filter fun p => !tiles.contains (p.1 / 4096) else g.acc,
    flagUnion (els.1.map Prod.snd) ||| els.2.2, bytes ++ els.2.1⟩

/-- Row i of an mload (R222). -/
def loadRow (s : State) (root : DWord) (gid : Nat) (g : Gang) (o : EngOp) (i : Nat) : RowResult :=
  let rs := (numsFrom 0 64).map fun j =>
    let a := if tKmaj o.ta then (j, i) else (i, j)
    matRead s root gid ((tBase o.ta : Int) + (a.1 : Int) * tStride o.ta + 4 * (a.2 : Int)) 4
  let reach := rs.foldl (fun r x => r.join x.reach) (.ok ⟨[], []⟩)
  ⟨reach, .ok ⟨[], []⟩, match reach with
    | .ok _ => (numsFrom 0 64).foldl (fun m j => setAcc m o.acc i j ((rs.map MatRead.bits).getD j 0)) g.acc
    | _ => g.acc, 0, []⟩

/-- Row r of the operation at its turn. -/
def matrixRow (s : State) (root : DWord) (gid : Nat) (g : Gang) (o : EngOp) (prog : Nat) : RowResult :=
  match o.fn with
  | 0 | 1 | 2 => loopRow s root gid g o (prog / 64) (prog % 64)
  | 3 | 4 => drainRow s root gid g o prog
  | 6 => loadRow s root gid g o prog
  | _ => ⟨.ok ⟨[], []⟩, .ok ⟨[], []⟩, (numsFrom 0 64).foldl (fun m j => setAcc m o.acc prog j 0) g.acc, 0, []⟩

/-- Rows an operation has in all. -/
def EngOp.rows (o : EngOp) : Nat := if o.fn ≤ 2 then 64 * o.shape.toNat else 64

/-- Performs the next row of a matrix context's oldest operation (R206, R218). -/
def runRow (s : State) (root : DWord) (gid k : Nat) (g : Gang) (c : Ctx) (o : EngOp) : State :=
  if o.rows ≤ c.prog then completeOp s gid k o.num
  else
    let r := matrixRow s root gid g o c.prog
    let ix := if o.fn = 1 then (o.rowIndex s root gid (c.prog % 64)).bits else 0
    match r.reach, r.dst with
    | .ok p, .ok d =>
      let q := prepareList s p.locs
      let s := useLeaves q.1 root p (if o.fn = 3 ∨ o.fn = 4 then some (regionGen s (gangRegion s gid)) else none)
      let s := engineOvf s gid k o (o.fn == 3 || o.fn == 4) p.marks q.2
      let s := placeTraffic (setLocs s d.locs r.bytes) (gangRegion s gid) p.locs
      let s := modGang s gid fun x => { x with acc := r.acc }
      let s := modOp s gid k o.num fun x => { x with
        flags := x.flags ||| r.flags
        idxs := if o.fn = 1 then fset x.idxs (c.prog % 64) ix else x.idxs }
      let s := progressed (modCtx s gid k fun x => { x with prog := c.prog + 1, refault := none }) (gangRegion s gid)
      if o.rows ≤ c.prog + 1 then completeOp s gid k o.num else s
    | e, _ => settleRead s root gid k o (o.indexReach s root gid c.prog) e.waits

/-! ### Events -/

/-- Whether an operation is a copy that writes memory. -/
def EngOp.isCopy (o : EngOp) : Bool := o.cls == 24 && decide (o.fn < 4)

/-- Whether a page that is not resident cannot be made so for a prefetch: its charge is refused, no frame can be made free without the
last ones (spec/15 R285), or it is pinned on the host side (R212). Such a page is not waited for. -/
def fillRefused (s : State) (root : DWord) (die va : Nat) : Bool :=
  match walk s root va with
  | .leaf _ e _ _ => (pTier e == 2 && pPin e) || (fillRoomFor true s root va die).isNone
  | _ => (fillRoomFor true s root va die).isNone

/-- ENGINE_CHUNK_LAND: a chunk whose translations all succeed lands (R211-R213). An operation with no chunk left to land,
which a write to SR.MPROGk makes (spec/05 R73), completes. -/
def execEngineChunkLand (gang ctx num chunk : Nat) (s : State) : Host.Outcome State Fault Refusal :=
  .next (match engineOp s gang ctx (·.find? fun o => o.num == num && o.cls == 24) with
    | none => s
    | some (_, c, o) =>
      if !ctxRuns s gang c then s
      else if o.left.isEmpty then completeOp s gang ctx o.num
      else if o.landed.contains chunk || decide (o.chunks ≤ chunk) then s
      else
        let r := gangRegion s gang
        let root := effPtroot s r
        if o.isCopy then landChunk s root gang ctx o chunk
        else if residentReach s root gang o chunk (fillRefused s root (gangDie s gang)) then chunkLanded s gang ctx o chunk
        else s)

/-- MATRIX_ROW_DONE: the oldest operation of a matrix context completes its next row (R206, R208, R218-R222). -/
def execMatrixRowDone (gang ctx : Nat) (s : State) : Host.Outcome State Fault Refusal :=
  .next (match engineOp s gang ctx (·.head?) with
    | none => s
    | some (g, c, o) =>
      if !ctxRuns s gang c || o.cls != 25 || o.fn == 7 then s
      else runRow s (effPtroot s (gangRegion s gang)) gang ctx g c o)

/-- MPROG_ARRIVE: a marker at its turn adds an arrival and completes (R222). -/
def execMprogArrive (gang ctx : Nat) (s : State) : Host.Outcome State Fault Refusal :=
  .next (match engineOp s gang ctx (·.head?) with
    | none => s
    | some (_, c, o) =>
      if !ctxRuns s gang c || o.cls != 25 || o.fn != 7 then s
      else
        let s := match o.bar with
          | some b => updateBarrier s gang b fun x => { x with arr := x.arr + 1 }
          | none => s
        completeOp s gang ctx o.num)

/-- What an operation that faults has read where it stands (R304). -/
def faultRead (s : State) (root : DWord) (gid : Nat) (c : Ctx) (o : EngOp) : EngReach :=
  if o.isCopy then match (numsFrom 0 o.chunks).find? fun ch => !o.landed.contains ch && (match (chunkPlan s root gid o ch).all with
      | .fail _ _ _ => true
      | _ => false) with
    | some ch => ChunkPlan.read s root gid o ch
    | none => .ok ⟨[], []⟩
  else o.indexReach s root gid c.prog

/-- The first fault an operation meets where it stands: cause, VA, write. -/
def engineFaultOf (s : State) (root : DWord) (gid : Nat) (g : Gang) (c : Ctx) (o : EngOp) : Option (Nat × Nat × Bool) :=
  if o.isCopy then
    (numsFrom 0 o.chunks).findSome? fun ch =>
      if o.landed.contains ch then none
      else match (chunkPlan s root gid o ch).all with
        | .fail cs va w => some (cs, va, w)
        | _ => none
  else if o.cls = 25 ∧ o.fn ≠ 7 ∧ c.ops.head?.map (·.num) = some o.num ∧ c.prog < o.rows then
    match (matrixRow s root gid g o c.prog).reach with
    | .fail cs va w => some (cs, va, w)
    | _ => none
  else none

/-- ENGINE_FAULT: an unresolvable translation stops the context and makes a trap pending in the issuing wave, or in the
lowest live one; with none live it discards the fault domain (R207, R375). -/
def execEngineFault (gang ctx num : Nat) (s : State) : Host.Outcome State Fault Refusal :=
  .next (match engineOp s gang ctx (·.find? fun o => o.num == num) with
    | none => s
    | some (g, c, o) =>
      let r := gangRegion s gang
      if !ctxRuns s gang c then s
      else match engineFaultOf s (effPtroot s r) gang g c o with
        | none => s
        | some (cs, va, w) =>
          let root := effPtroot s r
          let s := modCtx (settleRead s root gang ctx o (faultRead s root gang c o) (some va)) gang ctx fun x => { x with stopped := true, refault := none }
          match (if c.refault = some num then refaultTaker s gang o.owner else engineTaker s gang o.owner) with
          | none => discardOf s r
          | some wid => addPending s wid
              ⟨20 + ctx, cs, 128 + (if w then 32 else 0) + ctx, some o.pc, BitVec.ofNat 64 va, some ctx⟩)

end Sys2Proof.Machine
end

