-- ==== Sys2Proof/Machine/Waits.lean ====
section
/-! DEFINITION. Wait members, parked groups and their waking, and the capacity of ports that members test (spec/03 R50-R55;
spec/13 R229, R230; spec/19 R322, R324). -/

namespace Sys2Proof.Machine

open Sys2Proof

/-! ### Port capacity (R321-R324) -/

/-- Whether a port can take one more message, borrowing a slot if it must (R322). -/
def portRoom (s : State) (p : Port) : Bool :=
  decide (p.queue.length + p.reserved < p.cap + p.borrowed) || (decide (p.borrowed < 65536) && mayCharge s .slots p.region 1)

/-- Whether a port lives no longer (Table 23.5): it has ended, or its region is discarded. -/
def portDead (s : State) (pn : Nat) : Bool :=
  match fget s.ports pn with
  | none => true
  | some p => p.dead || regionStatus s p.region == 2

/-- Whether the landing slot next in the ring is free (R329). -/
def ringFree (p : Port) : Bool := (fget p.busy p.nextSlot).isNone

/-- Whether `n` pages may move their charge from one region to another (R323 check 6, R331). -/
def mayMove (s : State) (src dst n : Nat) : Bool := mayCharge (uncharge s .hbm src n) .hbm dst n

/-! ### Members (R51, R229, R230) -/

/-- The state of a member: unsatisfied, satisfied, or failed with a status. -/
inductive MemberState where
  | unsat
  | sat
  | failed (st : Nat)
  deriving DecidableEq, Repr

/-- The handle an object was made with. -/
def objectHandle (s : State) (type obj : Nat) : DWord :=
  match type with
  | 1 => ((fget s.regions obj).map Region.handle).getD 0
  | 4 => ((fget s.ranges obj).map Range.handle).getD 0
  | 8 => ((fget s.segments obj).map Segment.handle).getD 0
  | _ => 0

/-- PORTSPACE of a port of this module (R324). -/
def portSpace (s : State) (rg : Nat) (p : Port) (n : Nat) : MemberState :=
  if n = 0 then (if portRoom s p then .sat else .unsat)
  else if p.lz = 0 then .failed stBADARG
  else if ringFree p && portRoom s p && mayMove s rg p.region n then .sat
  else .unsat

/-- A MEMWORD member (R230). -/
def memWord (s : State) (root : DWord) (va : Nat) (n : DWord) : MemberState :=
  match translate s root va 8 .read ⟨0, 0⟩ with
  | .ok pa _ _ =>
    if n.toNat ≤ leNat ((numsFrom pa 8).map (viewByte s)) then .sat else .unsat
  | .fail c =>
    if c = cPAGE then .failed stBADARG
    else if c = cPROT then .failed stRIGHTS
    else if c = cGRANTED then .failed stDEAD
    else .unsat
  | _ => .unsat

/-- The read of a MEMWORD member: its walk and its line leave the pooled state (spec/17 R304). -/
def settleWord (s : State) (root : DWord) (va : Nat) : State :=
  if s.pool.isEmpty then s
  else
    let t := settleWalk s root va
    match translate t root va 8 .read ⟨0, 0⟩ with
    | .ok pa _ _ => (mergeAt t pa).1
    | _ => t

/-- Whether the line of a MEMWORD member's word is pooled. -/
def wordPooled (s : State) (root : DWord) (va : Nat) : Bool :=
  !s.pool.isEmpty && (match translate s root va 8 .read ⟨0, 0⟩ with
    | .ok pa _ _ => (fget s.pool (pa / 128)).isSome
    | _ => false)

/-- The state of a member for a wave, given the region events still to be taken. -/
def evalMember (s : State) (w : Wave) (events : List (Nat × DWord)) (m : Member) : MemberState :=
  let rg := waveRegion s w
  let handled := fun (types : List Nat) (need : Nat) (f : Entry → MemberState) =>
    match checkHandle s rg m.operand types need with
    | .error st => .failed st
    | .ok e => f e
  match m.kind with
  | 0 => handled [tPORT] rRECV fun e => match fget s.ports e.obj with
    | some p => if p.queue.isEmpty then .unsat else .sat
    | none => .failed stDEAD
  | 1 => handled [tPORT, tPROXY] rSEND fun e =>
    if e.type = tPORT then match fget s.ports e.obj with
      | some p => portSpace s rg p m.value.toNat
      | none => .failed stDEAD
    else match fget s.proxies e.obj with
      | none => .failed stDEAD
      | some x =>
        if x.module = s.host.module then match fget s.ports x.port with
          | some p => if portDead s x.port then .failed stDEAD else portSpace s rg p m.value.toNat
          | none => .failed stDEAD
        else match Config.remoteSpace s.fresh x.module x.port m.value.toNat % 4 with
          | 0 => .unsat
          | 1 => .sat
          | 2 => .failed stDEAD
          | _ => if m.value = 0 then .unsat else .failed stBADARG
  | 2 => handled [tTIMER] rRECV fun e => match fget s.timers e.obj with
    | some t => if t.armed && decide (t.deadline.toNat ≤ ticks s) then .sat else .unsat
    | none => .failed stDEAD
  | 3 => match barPlace s w.gang (m.operand.extractLsb' 0 32) with
    | none => .failed stBADARG
    | some pl => if (readBarrier s pl).phase = m.value.toNat then .unsat else .sat
  | 4 => match (fget s.gangs w.gang).bind fun g => g.ctxs[m.ctx]? with
    | none => .failed stDEAD
    | some c => if m.value.toNat ≤ c.tl then .sat else .unsat
  | 5 => handled [tWAVE] rRECV fun e => match fget s.waves e.obj with
    | some x => if x.ended then .sat else .unsat
    | none => .failed stDEAD
  | 6 => memWord s (effPtroot s rg) m.operand.toNat m.value
  | _ =>
    if m.operand = 0 then (if events.any fun ev => ev.1 == m.code then .sat else .unsat)
    else handled [tREGION, tRANGE, tSEGMENT] rRECV fun e =>
      if events.any fun ev => ev.1 == m.code && ev.2 == objectHandle s e.type e.obj then .sat else .unsat

/-- The members a group waits on, with their indices; a status when the set's handle no longer passes its check. DESIGN CHOICE: a
group parked on a set whose handle stops passing wakes with that status and an index of all ones (assumption log 86). -/
def groupMembers (s : State) (w : Wave) (on : WaitOn) : Except Nat (List (Nat × Member)) :=
  match on with
  | .inline m => .ok [(0, m)]
  | .set h => match checkHandle s (waveRegion s w) h [tWAITSET] rRECV with
    | .error st => .error st
    | .ok e => .ok (fgetD s.waitsets e.obj [])

/-- The words that the members of a wait read. -/
def waitWords (s : State) (w : Wave) (on : WaitOn) : List Nat :=
  match groupMembers s w on with
  | .error _ => []
  | .ok ms => ms.filterMap fun p => if p.2.kind = 6 then some p.2.operand.toNat else none

/-- What a wait reads leaves the pooled state before it is decided (spec/17 R304). -/
def settleWait (s : State) (w : Wave) (on : WaitOn) : State :=
  if s.pool.isEmpty then s
  else (waitWords s w on).foldl (fun s va => settleWord s (effPtroot s (waveRegion s w)) va) s

/-- What a wait returns: status, index, and the event it takes. -/
structure WaitResult where
  st : Nat
  idx : Nat
  takes : Option (Nat × DWord)
  deriving DecidableEq, Repr

/-- The event a satisfied REGIONEVENT member takes: the oldest that matches. -/
def takenEvent (s : State) (w : Wave) (events : List (Nat × DWord)) (m : Member) : Option (Nat × DWord) :=
  if m.kind ≠ 7 then none
  else if m.operand = 0 then events.find? fun ev => ev.1 == m.code
  else match checkHandle s (waveRegion s w) m.operand [tREGION, tRANGE, tSEGMENT] rRECV with
    | .error _ => none
    | .ok e => events.find? fun ev => ev.1 == m.code && ev.2 == objectHandle s e.type e.obj

/-- The result of a wait on its lowest satisfied or failed member (R52, R230). -/
def waitResult (s : State) (w : Wave) (events : List (Nat × DWord)) (on : WaitOn) : Option WaitResult :=
  match groupMembers s w on with
  | .error st => some ⟨st, 0xFFFFFFFF, none⟩
  | .ok ms => ms.findSome? fun p => match evalMember s w events p.2 with
    | .unsat => none
    | .sat => some ⟨0, p.1, takenEvent s w events p.2⟩
    | .failed st => some ⟨st, p.1, none⟩

/-! ### The order in which waits take events (R55) -/

/-- The place of a wait: core, quadrant, slot, lowest lane. -/
def waitRank (s : State) (w : Wave) (mask : Word) : Nat :=
  ((fget s.gangs w.gang).map Gang.core).getD 0 * 4096 + w.quad * 1024 + w.slot * 32 + lowLane mask

/-- Whether the parked groups of a wave can wake now: it is in U mode, and its region not discarded (R54, R56). Those of a wave that is held
wake too, since waking is not issuing (spec/13 R253). DEDUCED (assumption log 95). -/
def canWake (s : State) (w : Wave) : Bool :=
  !w.ended && !w.saved && w.priv == .u && s.host.powered && regionStatus s (waveRegion s w) != 2

/-- The parked groups of a region that can wake, by rank. -/
def parkedGroups (s : State) (r : Nat) : List (Nat × Wave × Group) :=
  let gs := s.waves.flatMap fun p =>
    if p.2.groups.isEmpty || !canWake s p.2 || waveRegion s p.2 != r then []
    else p.2.groups.map fun g => (waitRank s p.2 g.mask, p.2, g)
  sortBy (fun a b => decide (a.1 ≤ b.1)) gs

/-- The lowest of the members that have fired: what has been noted of a group, or what it finds now (R52). -/
def Group.first (g : Group) (now : Option WaitResult) : Option WaitResult :=
  match g.met, now with
  | none, r => r
  | some m, none => some ⟨m.2, m.1, none⟩
  | some m, some r => if m.1 < r.idx then some ⟨m.2, m.1, none⟩ else some r

/-- The region's events left for a wait of a given rank, the parked groups before it having taken theirs. -/
def eventsFor (s : State) (r rank : Nat) : List (Nat × DWord) :=
  let evs := ((fget s.regions r).map Region.events).getD []
  if evs.isEmpty then []
  else (parkedGroups s r).foldl (fun evs x =>
    if x.1 < rank then match x.2.2.first (waitResult s x.2.1 evs x.2.2.on) with
      | some ⟨_, _, some ev⟩ => evs.erase ev
      | _ => evs
    else evs) evs

/-- Removes the event a wait took. -/
def takeEvent (s : State) (r : Nat) (ev : Option (Nat × DWord)) : State :=
  match ev with
  | none => s
  | some x => modRegion s r fun g => { g with events := g.events.erase x }

/-! ### Waking (R52, R54) -/

/-- A word of code as the tables now give it. -/
def codeWord (s : State) (root : DWord) (va : DWord) : Word :=
  match walk s root va.toNat with
  | .leaf _ _ f _ => BitVec.ofNat 32 (leNat ((numsFrom (f * 65536 + va.toNat % 65536) 4).map (viewByte s)))
  | _ => 0

/-- The wait word of a chain that starts at an address: the word, and the address after it. -/
def waitWord (s : State) (root : DWord) : Nat → DWord → Word × DWord
  | 0, pc => (codeWord s root pc, pc + 4)
  | fuel + 1, pc =>
    let x := codeWord s root pc
    if x.toNat / 2 ^ 27 = 31 then waitWord s root fuel (pc + 4) else (x, pc + 4)

/-- Wakes group `i` of a wave with a result: lanes live at the instruction after their wait, the result in the pair its
sd field names (R54). -/
def wakeGroup (s : State) (wid i : Nat) (r : WaitResult) : State :=
  match getWave s wid with
  | none => s
  | some w => match w.groups[i]? with
    | none => s
    | some g =>
      let rg := waveRegion s w
      let pc := w.pc (lowLane g.mask)
      let x := waitWord s (effPtroot s rg) 3 pc
      let sd := x.1.toNat / 2 ^ 15 % 128
      let idle := w.issuePC.isNone
      let s := modWave (enqueueRun s wid idle) wid fun w =>
        let w := { w with
          groups := w.groups.eraseIdx i
          lanes := laneIdx.map fun l => if bitAt g.mask l then .live else w.lane l
          pcs := laneIdx.map fun l => if bitAt g.mask l then x.2 else w.pc l
          ready := if idle then s.time else w.ready }
        (w.writeS sd (BitVec.ofNat 32 r.st)).writeS (sd + 1) (BitVec.ofNat 32 r.idx)
      progressed (takeEvent s rg r.takes) rg

/-- The member a parked group wakes with now: the lowest that has fired (R52). -/
def memberResult (s : State) (w : Wave) (g : Group) : Option WaitResult :=
  g.first (waitResult s w (eventsFor s (waveRegion s w) (waitRank s w g.mask)) g.on)

/-- The result a parked group wakes with now, a timeout losing to every member (R52). -/
def groupResult (s : State) (w : Wave) (g : Group) : Option WaitResult :=
  match memberResult s w g with
  | some r => some r
  | none =>
    if g.deadline.toNat ≠ 2 ^ 64 - 1 ∧ g.deadline.toNat ≤ ticks s then some ⟨stTIMEOUT, 0xFFFFFFFF, none⟩ else none

/-- Notes the members that have fired, but for region events, which one wait takes (R55): a member that is satisfied at some moment of a
fabric cycle counts at its end. What was noted of a group that cannot wake is dropped (R54). -/
def noteMembers (s : State) : State :=
  if s.waves.all fun p => p.2.groups.isEmpty then s
  else
    { s with waves := fmapv (fun _ w =>
        if w.groups.isEmpty then w
        else
          { w with groups := w.groups.map fun g =>
              { g with met :=
                  if canWake s w then (g.first (waitResult s w [] g.on)).map fun r => (r.idx, r.st) else none } }) s.waves }

/-- Re-evaluates every parked group of a wave, what it waits on read first (R54, R175, spec/17 R304). -/
def reevaluate : Nat → State → Nat → Nat → State
  | 0, s, _, _ => s
  | fuel + 1, s, wid, i => match getWave s wid with
    | none => s
    | some w => match w.groups[i]? with
      | none => s
      | some g =>
        let t := settleWait s w g.on
        match groupResult t w g with
        | some r => reevaluate fuel (wakeGroup t wid i r) wid i
        | none => reevaluate fuel t wid (i + 1)

/-! ### Resolutions (spec/23 R383) -/

/-- Whether the fault on a page is still to be resolved. -/
def unresolved (s : State) (root : DWord) (va : Nat) : Bool :=
  match walk s root va with
  | .leaf _ e _ big => !big && !pGranted e && (pMig e || pTier e == 1 || (pTier e == 2 && !pPin e))
  | _ => isStackVA va

/-- Whether two VAs name one page: by the space and the VA, or by the frame. -/
def samePage (s : State) (root : DWord) (va : Nat) (root' : DWord) (va' : Nat) : Bool :=
  (root == root' && va / 65536 == va' / 65536) || (match walk s root va, walk s root' va' with
    | .leaf _ _ f _, .leaf _ _ f' _ => f == f'
    | _, _ => false)

/-- The addresses of pages for which a wave waits: with its next word, its oldest log entry or its parked groups. -/
def Wave.waitsFor (s : State) (w : Wave) : List Nat :=
  if w.ended then [] else w.wants ++ logVAs s w ++ (if canWake s w then w.groups.flatMap fun g => waitWords s w g.on else [])

/-- The addresses of pages for which the engines of a gang wait. -/
def engineWants (s : State) (gid : Nat) (g : Gang) : List Nat :=
  let root := effPtroot s (gangRegion s gid)
  g.ctxs.flatMap fun c =>
    if !ctxRuns s gid c then []
    else match c.ops with
      | [] => []
      | o :: _ =>
        if o.cls = 24 then c.ops.flatMap fun o => o.left.flatMap fun ch =>
          if o.isCopy then ((chunkPlan s root gid o ch).all).waits.toList
          else (o.pieces ch).flatMap fun p =>
            let a := ((rowAddr o.tb false p.1 p.2.1) % 2 ^ 64).toNat
            (numsFrom (a / 65536) ((a % 65536 + p.2.2 + 65535) / 65536)).map fun pg => pg * 65536
        else if o.fn = 7 ∨ o.rows ≤ c.prog then []
        else
          let r := matrixRow s root gid g o c.prog
          (r.reach.join r.dst).waits.toList

/-- From a state to one after it: where the fault on a page has been resolved meanwhile, that is progress of every region whose waves
or engines wait for the page. -/
def resolution (s t : State) (root : DWord) (va : Nat) : State :=
  if unresolved s root va && !unresolved t root va then
    let ws := s.waves.filterMap fun p =>
      let r := waveRegion s p.2
      if (p.2.waitsFor s).any (samePage s root va (effPtroot s r)) then some r else none
    let gs := s.gangs.filterMap fun p =>
      let r := gangRegion s p.1
      if !p.2.idle && (engineWants s p.1 p.2).any (samePage s root va (effPtroot s r)) then some r else none
    (ws ++ gs).foldl progressed t
  else t

/-- A resolution that a region has asked for: progress of that region too. -/
def resolutionFor (s t : State) (rg : Nat) (root : DWord) (va : Nat) : State :=
  resolution s (if unresolved s root va && !unresolved t root va then progressed t rg else t) root va

/-! ### Member descriptors (Table 13.7) -/

/-- Parses a member descriptor from six words, its operand and value each a 64-bit operand (spec/05 R62); none, for BADARG, when it breaks a rule of R229 other than by its handle. An
event code or a context outside its kind counts as such (assumption log 72). -/
def parseMember (s : State) (w : Wave) (n : Nat) : Option Member :=
  let x := (w.readS n).toNat
  let kind := x % 8
  let ctx := x / 2 ^ 8 % 8
  let code := x / 2 ^ 16 % 256
  let operand := w.readS64 (n + 2)
  let value := w.readS64 (n + 4)
  let m : Member := ⟨kind, operand, ctx, code, value⟩
  let ok := x / 2 ^ 24 == 0 && x / 2 ^ 11 % 32 == 0 && x / 2 ^ 3 % 32 == 0 && w.readS (n + 1) == 0 &&
    (kind == 7 || code == 0) && (kind == 4 || ctx == 0) &&
    (match kind with
      | 1 => decide (value.toNat ≤ 256)
      | 3 => decide (operand.toNat < 2 ^ 25) && operand.toNat % 16 == 0 &&
          (barPlace s w.gang (operand.extractLsb' 0 32)).isSome
      | 4 => operand == 0
      | 6 => operand.toNat % 8 == 0 && decide (operand.toNat < 0xFFFF800000000000)
      | 7 => decide (1 ≤ code ∧ code ≤ 4)
      | _ => true)
  if ok then some m else none

/-! ### Events -/

/-- WAIT_WAKE: the words that a parked group waits on are read; where a member is or was satisfied or failed, the group wakes with the
lowest such (R52). -/
def execWaitWake (w grp : Nat) (s : State) : Host.Outcome State Fault Refusal :=
  .next (match getWave s w with
    | none => s
    | some v => match v.groups[grp]? with
      | none => s
      | some g =>
        if !canWake s v then s
        else
          let t := settleWait s v g.on
          match memberResult t v g with
          | some r => wakeGroup t w grp r
          | none => t)

/-- WAIT_TIMEOUT: a parked group's deadline has passed and no member is satisfied (R52). -/
def execWaitTimeout (w grp : Nat) (s : State) : Host.Outcome State Fault Refusal :=
  .next (match getWave s w with
    | none => s
    | some v => match v.groups[grp]? with
      | none => s
      | some g =>
        if !canWake s v then s
        else match groupResult s v g with
          | some r => if r.st = stTIMEOUT then wakeGroup s w grp r else s
          | none => s)

/-- TIMER_EXPIRE: from its deadline an armed timer is satisfied, by the time alone (R51, R244); no state changes. -/
def execTimerExpire (_ : Nat) (s : State) : Host.Outcome State Fault Refusal := .next s

end Sys2Proof.Machine
end

