-- ==== Sys2Proof/Machine/Sync.lean ====
section
/-! DEFINITION. Synchronisation: class 26 and the completion of flushes (spec/13 R224-R233; spec/17 R300). -/

namespace Sys2Proof.Machine

open Sys2Proof

/-- Issue checks of an EX word over S registers. -/
def exInfo (cls : Nat) (rs ws da db : List RegRun) (bad : Bool) : OpInfo :=
  { cls := cls, rs := rs, ws := ws, bad := bad, deadA := da, deadB := db }

def oddReg (n : BitVec 7) : Bool := n.toNat % 2 == 1

/-! ### Barriers (R225, R226) -/

/-- Runs a barrier member on the barrier at S(sa), or raises R225's trap. -/
def barrierOp (v : Env) (s : State) (a : BitVec 7) (f : Nat × Nat → Res) : Res :=
  let b := v.w.readS a.toNat
  match barTrap s v.w.gang b, barPlace s v.w.gang b with
  | some c, _ => .trap s c 64 (b.setWidth 64)
  | none, some pl => f pl
  | none, none => .trap s cAPERTURE 64 (b.setWidth 64)

/-- barinit: no completion test.
Each half of S(sb):S(sb+1) is a field of its own and is read by itself, the model's choice (log 96). -/
def execBarinit (a b : BitVec 7) (s : State) : Host.Outcome State Fault Refusal :=
  .next (issue s (fun w _ =>
      let x := (w.readS b.toNat).toNat
      exInfo 26 [.s a.toNat 1, .s b.toNat 2] [] [.s a.toNat 1] [.s b.toNat 2]
        (oddReg b || decide (65535 < x) || x == 0)) fun v s =>
    barrierOp v s a fun pl =>
      .done (writeBarrier s pl ⟨0, 0, (v.w.readS (b.toNat + 1)).toNat, (v.w.readS b.toNat).toNat, 0⟩))

/-- bararrive -/
def execBararrive (d a b : BitVec 7) (s : State) : Host.Outcome State Fault Refusal :=
  let rb : List RegRun := if b = 0 then [] else [.s b.toNat 1]
  .next (issue s (fun _ _ => exInfo 26 ([.s a.toNat 1] ++ rb) [.s d.toNat 1] [.s a.toNat 1] rb false) fun v s =>
    barrierOp v s a fun pl =>
      let x := readBarrier s pl
      let n := if b = 0 then 1 else (v.w.readS b.toNat).toNat % 65536
      .done (modWave (writeBarrier s pl { x with arr := (x.arr + n) % 65536 }.test) v.wid fun w =>
        w.writeS d.toNat (BitVec.ofNat 32 x.phase)))

/-- barexpect -/
def execBarexpect (d a b : BitVec 7) (s : State) : Host.Outcome State Fault Refusal :=
  .next (issue s (fun _ _ => exInfo 26 [.s a.toNat 1, .s b.toNat 1] [.s d.toNat 1] [.s a.toNat 1] [.s b.toNat 1] false)
    fun v s => barrierOp v s a fun pl =>
      let x := readBarrier s pl
      .done (modWave (writeBarrier s pl { x with bexp := (x.bexp + (v.w.readS b.toNat).toNat) % 2 ^ 32 }.test) v.wid
        fun w => w.writeS d.toNat (BitVec.ofNat 32 x.phase)))

/-- barquery: one snapshot. -/
def execBarquery (d a : BitVec 7) (s : State) : Host.Outcome State Fault Refusal :=
  .next (issue s (fun _ _ => exInfo 26 [.s a.toNat 1] [.s d.toNat 4] [.s a.toNat 1] [] (decide (d.toNat % 4 ≠ 0)))
    fun v s => barrierOp v s a fun pl =>
      let x := readBarrier s pl
      finishInt v s 0 fun w =>
        (((w.writeS d.toNat (BitVec.ofNat 32 x.phase)).writeS (d.toNat + 1)
          (BitVec.ofNat 32 (x.aexp * 65536 + x.arr))).writeS (d.toNat + 2) (BitVec.ofNat 32 x.bexp)).writeS (d.toNat + 3)
          (BitVec.ofNat 32 x.landed))

/-! ### Timelines, waits, settle -/

/-- tlread (R227) -/
def execTlread (d a : BitVec 7) (s : State) : Host.Outcome State Fault Refusal :=
  .next (issue s (fun w _ => exInfo 26 [.s a.toNat 1] [.s d.toNat 2] [.s a.toNat 1] []
      (oddReg d || decide (15 < (w.readS a.toNat).toNat))) fun v s =>
    let x := (v.w.readS a.toNat).toNat
    let c := match fget s.gangs v.w.gang with
      | some g => g.ctxs[x % 8]?
      | none => none
    let r := match c with
      | some c => if x / 8 = 1 then c.subm else c.tl
      | none => 0
    finishInt v s 0 fun w => w.writeS64 d.toNat (BitVec.ofNat 64 r))

/-- Writes a wait's result to its pair. -/
def waitWrite (v : Env) (s : State) (d : Nat) (st idx : Nat) : Res :=
  .done (modWave s v.wid fun w => (w.writeS d (BitVec.ofNat 32 st)).writeS (d + 1) (BitVec.ofNat 32 idx))

/-- A wait whose operand is known (R230). -/
def waitOn (v : Env) (s : State) (d : Nat) (t : DWord) (on : WaitOn) : Res :=
  let rg := waveRegion s v.w
  let s := settleWait s v.w on
  match waitResult s v.w (eventsFor s rg (waitRank s v.w v.iss)) on with
  | some r => waitWrite v (takeEvent s rg r.takes) d r.st r.idx
  | none =>
    if t = 0 ∨ v.w.priv = .s then waitWrite v s d stTIMEOUT 0xFFFFFFFF
    else
      let dl := if ticks s + t.toNat < 2 ^ 64 - 1 then BitVec.ofNat 64 (ticks s + t.toNat) else 0xFFFFFFFFFFFFFFFF
      .done (modWave s v.wid fun w =>
        { w with
          lanes := laneIdx.map fun l => if bitAt v.iss l then .parked else w.lane l
          groups := w.groups ++ [⟨v.iss, on, dl, none⟩] })

/-- The timeout value of a wait. -/
def Env.timeout (v : Env) (tmo : BitVec 6) : DWord :=
  if tmo = 0 then 0xFFFFFFFFFFFFFFFF else v.w.readS64 tmo.toNat

/-- Issue checks of a wait. -/
def waitInfo (d a : BitVec 7) (tmo : BitVec 6) (n : Nat) : OpInfo :=
  let rt : List RegRun := if tmo = 0 then [] else [.s tmo.toNat 2]
  exInfo 26 ([.s a.toNat n] ++ rt) [.s d.toNat 2] [.s a.toNat n] rt
    (oddReg d || d == 0 || oddReg a || decide (tmo.toNat % 2 = 1))

/-- wait on a wait set (R228, R230) -/
def execWait (d a : BitVec 7) (tmo : BitVec 6) (s : State) : Host.Outcome State Fault Refusal :=
  .next (issue s (fun _ _ => waitInfo d a tmo 2) fun v s =>
    waitOn v s d.toNat (v.timeout tmo) (.set (v.w.readS64 a.toNat)))

/-- wait on an inline member (R228-R230) -/
def execWaitInline (d a : BitVec 7) (tmo : BitVec 6) (s : State) : Host.Outcome State Fault Refusal :=
  .next (issue s (fun _ _ => waitInfo d a tmo 6) fun v s =>
    match parseMember s v.w a.toNat with
    | none => waitWrite v s d.toNat stBADARG 0xFFFFFFFF
    | some m => waitOn v s d.toNat (v.timeout tmo) (.inline m))

/-- Engine operations of a class that a wave submitted and that have not completed. -/
def engineCount (s : State) (wid : Nat) (w : Wave) (cls : Nat) : Nat :=
  match fget s.gangs w.gang with
  | none => 0
  | some g => sumBy (fun c => (c.ops.filter fun o => o.cls == cls && o.owner == wid).length) g.ctxs

/-- settle (R231): issues only while every count is at or below its bound. -/
def execSettle (nl ns nc nm : BitVec 5) (s : State) : Host.Outcome State Fault Refusal :=
  .next (issue s (fun _ _ => exInfo 26 [] [] [] [] false) fun v s =>
    if loadCount v.w ≤ nl.toNat ∧ storeCount s v.wid v.w ≤ ns.toNat ∧ engineCount s v.wid v.w 24 ≤ nc.toNat ∧
        engineCount s v.wid v.w 25 ≤ nm.toNat then .done s
    else .hold)

/-! ### Host memory and the clock (R232, R233) -/

/-- fence.sys: every dirty host line is written back; those of other waves leave as an eviction may (R232, R300). -/
def execFenceSys (s : State) : Host.Outcome State Fault Refusal :=
  .next (issue s (fun _ _ => exInfo 26 [] [] [] [] false) fun _ s => .done (writeBackAll s))

/-- The pages that a VA range touches. -/
def pagesOf (base n : Nat) : Nat := if n = 0 then 0 else (base + n + 65535) / 65536 - base / 65536

/-- The host lines of a VA range that L2 holds. DESIGN CHOICE: a page whose translation ends in no frame is passed over, with no
trap and no status of its own (assumption log 87). -/
def hostLinesOf (s : State) (root : DWord) (base n : Nat) : List Nat :=
  let pages := pagesOf base n
  let frames := (numsFrom (base / 65536) pages).filterMap fun p => match walk s root (p * 65536 % 2 ^ 64) with
    | .leaf _ _ f _ => if isHostPA (f * 65536) then some (p, f) else none
    | _ => none
  (s.hostL2.map Prod.fst).filter fun line => frames.any fun x =>
    x.2 == line / 512 && decide (base ≤ x.1 * 65536 + line % 512 * 128 ∧ x.1 * 65536 + line % 512 * 128 < base + n)

/-- flush or inval: accepted now, complete at FLUSH_DONE, when Sd is written (R232).
SR.TADDR of its ALIGN trap is the base, whichever of the two is misaligned, the model's choice (log 102). -/
def flushOp (discards : Bool) (d a b : BitVec 7) (s : State) : State :=
  issue s (fun _ _ => exInfo 26 [.s a.toNat 2, .s b.toNat 1] [.s d.toNat 1] [.s a.toNat 2] [.s b.toNat 1] (oddReg a))
    fun v s =>
    let base := v.w.readS64 a.toNat
    let n := (v.w.readS b.toNat).toNat
    if base.toNat % 128 ≠ 0 ∨ n % 128 ≠ 0 then .trap s cALIGN 64 base
    else
      let root := effPtroot s (waveRegion s v.w)
      let s := settleWalks s root base.toNat (pagesOf base.toNat n)
      let held := hostLinesOf s root base.toNat n
      let ls := if discards then held
        else held.filter fun l => ((fget s.hostL2 l).map fun x => x.dirty != 0).getD false
      let s := { s with flushes := fset s.flushes s.serial ⟨v.wid, ls, discards⟩, serial := s.serial + 1 }
      .done (if d = 0 then s
        else modWave s v.wid fun w => { w with dues := w.dues ++ [⟨d.toNat, .flush (s.serial - 1)⟩] })

/-- flush (R232) -/
def execFlush (d a b : BitVec 7) (s : State) : Host.Outcome State Fault Refusal := .next (flushOp false d a b s)

/-- inval (R232) -/
def execInval (d a b : BitVec 7) (s : State) : Host.Outcome State Fault Refusal := .next (flushOp true d a b s)

/-- clock (R233): the cycles a core has counted since module reset; it begins later than the shared clock by a free amount
(assumption log 3). -/
def execClock (d : BitVec 7) (s : State) : Host.Outcome State Fault Refusal :=
  .next (issue s (fun _ _ => exInfo 26 [] [.s d.toNat 2] [] [] (oddReg d)) fun v s =>
    let core := ((fget s.gangs v.w.gang).map Gang.core).getD 0
    finishInt v s 0 fun w => w.writeS64 d.toNat (BitVec.ofNat 64 (s.time / 5 - s.host.resetAt / 5 - Config.coreLag core)))

/-- Writes a status whose event has come, and releases its register (R236, R238). -/
def settleDue (s : State) (wid : Nat) (on : Awaits) (st : Nat) : State :=
  modWave s wid fun w => match w.dues.find? fun d => d.on == on with
    | none => w
    | some d => { w.writeS d.sd (BitVec.ofNat 32 st) with dues := w.dues.erase d }

/-- FLUSH_DONE: every line of the range has been written back, or written back and discarded (R232, R300). -/
def execFlushDone (job : Nat) (s : State) : Host.Outcome State Fault Refusal :=
  .next (match fget s.flushes job with
    | none => s
    | some j =>
      let s := j.lines.foldl writeBack s
      let s := if j.discard then { s with hostL2 := j.lines.foldl fdel s.hostL2 } else s
      settleDue { s with flushes := fdel s.flushes job } j.wave (.flush job) 0)

end Sys2Proof.Machine
end

