-- ==== Sys2Proof/Machine/Launch.lean ====
section
/-! DEFINITION. New objects, the reading of operands from memory, seats of waves, templates and launches (spec/03 R26,
R28, R32, R33, R36, R44; spec/13 R238; spec/15 R286; spec/21 R351, R352). -/

namespace Sys2Proof.Machine

open Sys2Proof

/-! ### New objects (R26, R235, R238) -/

/-- An object just made: its number, its first handle, and the state after. -/
structure Made where
  obj : Nat
  handle : DWord
  st : State

/-- Makes an object's first entry, charging OBJQ where it is charged: BUDGET on refusal, NOSPACE on a full table. -/
def makeObject (s : State) (type rg rights home : Nat) (charged : Bool) : Except Nat Made :=
  if charged && !mayCharge s .objects rg 1 then .error stBUDGET
  else match newEntry s type s.serial rights rg home with
    | none => .error stNOSPACE
    | some (h, s1) =>
      let s2 := { s1 with serial := s.serial + 1 }
      .ok ⟨s.serial, h, if charged then
        { charge s2 .objects rg 1 with charged := fset s2.charged s.serial ⟨rg, false, false⟩ } else s2⟩

/-- The die on which a wave runs. -/
def waveDie (s : State) (w : Wave) : Nat := dieOf (((fget s.gangs w.gang).map Gang.core).getD 0)

/-! ### Reading operands from memory (R238) -/

/-- What a read of memory by an object instruction, a packet or the Cistern gives: bytes, a page to wait for, or a failure once
its walk has been made (spec/17 R304). -/
inductive Fetched where
  | ok (bytes : List (BitVec 8)) (s : State)
  | wait (va : Nat)
  | bad (s : State)

/-- Reads `n` bytes from a VA; gang 0 is no gang, so that only global addresses read. A pooled line merges. -/
def fetchBytes (s : State) (root : DWord) (gid va n : Nat) : Fetched :=
  match engReach s root gid va n .read with
  | .ok p =>
    let r := prepareList s p.locs
    .ok (p.locs.map (locByte r.1)) (useLeaves r.1 root p none)
  | .wait a => .wait a
  | .fail _ a _ => .bad (settleWalk s root a)

/-- A field of bytes: `n` bytes from offset `a`. -/
def fieldAt (bs : List (BitVec 8)) (a n : Nat) : Nat := leNat ((bs.drop a).take n)

/-! ### Seats of waves (R36) -/

/-- The quadrant of a wave among all of the module. -/
def quadrantOf (s : State) (w : Wave) : Nat := ((fget s.gangs w.gang).map Gang.core).getD 0 * 4 + w.quad

/-- Whether a gang occupies its core. -/
def gangResident (s : State) (g : Gang) : Bool :=
  match fget s.cohorts g.cohort with
  | some c => c.resident && !c.ended
  | none => false

/-- The resident waves of a core that have not ended. -/
def coreWaves (s : State) (core : Nat) : List Wave :=
  s.waves.filterMap fun p =>
    if p.2.ended then none
    else match fget s.gangs p.2.gang with
      | some g => if g.core == core && gangResident s g then some p.2 else none
      | none => none

/-- The partition granules resident on a core. -/
def coreGranules (s : State) (core : Nat) : Nat :=
  sumBy (fun p => if p.2.core == core && gangResident s p.2 then p.2.regg + p.2.spadg + p.2.accg else 0) s.gangs

/-- The quadrant with the most free slots, the lowest on a tie, and its lowest free slot. -/
def seatOf (ws : List Wave) : Nat × Nat :=
  let used := fun q => (ws.filter fun w => w.quad == q).length
  let q := (minBy used [0, 1, 2, 3]).getD 0
  (q, ((numsFrom 0 16).find? fun n => !(ws.any fun w => w.quad == q && w.slot == n)).getD 0)

/-- Seats a wave on its core. -/
def seatWave (s : State) (wid core : Nat) : State :=
  let seat := seatOf ((coreWaves s core).filter fun w => w.slot < 16)
  modWave s wid fun w => { w with quad := seat.1, slot := seat.2 }

/-! ### The state a wave starts with (R44, Table 3.6) -/

/-- A wave at its start, its special registers S1 to S11 set from a list. -/
def startWave (gang idx role vn sn tn now : Nat) (pc : DWord) (regs : FMap Word) : Wave where
  gang := gang
  idx := idx
  role := role
  vn := vn
  sn := sn
  tn := tn
  quad := 0
  slot := 16
  v := [(0, laneIdx.map (BitVec.ofNat 32))]
  s := regs
  p := []
  t := []
  deadV := 0
  deadS := 0
  pcs := splat pc
  lanes := splat .live
  priv := .u
  held := ⟨[], []⟩
  chain := none
  mode := 0
  flags := 0
  seed := 0
  ptag := 0
  iseq := 0
  tcause := 0
  tpc := 0
  tresume := 0
  taddr := 0
  tlog := 0
  scra := 0
  scrb := 0
  scrc := 0
  scrd := 0
  log := []
  groups := []
  pend := []
  dues := []
  frozen := false
  saved := false
  trapCtx := none
  inSave := false
  inRestore := false
  restored := false
  endReq := false
  ended := false
  ready := now
  queued := false
  wants := []

/-- The pair of registers that hold a 64-bit value, from register n. -/
def pairRegs (n x : Nat) : FMap Word := [(n, BitVec.ofNat 32 x), (n + 1, BitVec.ofNat 32 (x / 2 ^ 32))]

/-- Bytes of the register pool a wave takes (R33). -/
def Wave.poolBytes (w : Wave) : Nat := 128 * w.vn + 4 * w.sn + 16 * w.tn

/-! ### Templates (R32, R33) -/

/-- A role entry from its two words; none when it is not present or breaks Table 3.3. -/
def parseRole (pc hi : Nat) : Option RoleEntry :=
  if hi / 2 ^ 19 ≠ 0 ∨ 8 < hi / 2 ^ 12 % 16 ∨ pc % 4 ≠ 0 then none
  else some { pc := BitVec.ofNat 64 pc, waves := hi % 32 + 1, vn := (hi / 2 ^ 5 % 16 + 1) * 8
              sn := (hi / 2 ^ 9 % 8 + 1) * 16, tn := hi / 2 ^ 12 % 16 * 4, role := hi / 2 ^ 16 % 4 }

/-- Waves of a gang entry. -/
def GangEntry.waves (g : GangEntry) : Nat := sumBy RoleEntry.waves g.roles

/-- A gang entry of 80 bytes, or none where it breaks R33. -/
def parseGang (bs : List (BitVec 8)) : Option GangEntry :=
  let part := fieldAt bs 64 4
  let g := part % 256
  let p := part / 256 % 256
  let a := part / 65536 % 256
  let present := [0, 16, 32, 48].filter fun o => fieldAt bs (o + 8) 8 / 2 ^ 18 % 2 == 1
  let roles := present.filterMap fun o => parseRole (fieldAt bs o 8) (fieldAt bs (o + 8) 8)
  let need := sumBy (fun r : RoleEntry => r.waves * (128 * r.vn + 4 * r.sn + 16 * r.tn)) roles
  if part / 2 ^ 24 ≠ 0 ∨ g < 1 ∨ 64 < g ∨ 63 < p ∨ 8 < a ∨ 64 < g + p + a ∨ roles.length < present.length ∨
      roles = [] ∨ 32 < sumBy RoleEntry.waves roles ∨ g * 32768 < need then none
  else some ⟨roles, g, p, a⟩

/-- What the reading of a template or use list gives. -/
inductive Parsed (α : Type) where
  | ok (x : α) (s : State)
  | wait (va : Nat)
  | bad (s : State)

/-- Reads and validates a template in an address space, as loads of a gang (R33, R238); gang 0 is no gang. All 336 bytes
must be readable. -/
def readTemplate (s : State) (root : DWord) (gid va : Nat) : Parsed Template :=
  if va % 64 ≠ 0 then .bad s
  else match fetchBytes s root gid va 336 with
    | .wait a => .wait a
    | .bad s1 => .bad s1
    | .ok bs s1 =>
      let n := fieldAt bs 0 8
      let gs := (numsFrom 0 n).filterMap fun i => parseGang (bs.drop (16 + 80 * i))
      if n < 1 ∨ 4 < n ∨ gs.length < n then .bad s1 else .ok ⟨BitVec.ofNat 64 (fieldAt bs 8 8), gs⟩ s1

/-- Reads a use list (R286): base page and count of each entry. -/
def readUses (s : State) (root : DWord) (va n : Nat) : Parsed (List (Nat × Nat)) :=
  if n = 0 then .ok [] s
  else match fetchBytes s root 0 va (16 * n) with
    | .wait a => .wait a
    | .bad s1 => .bad s1
    | .ok bs s1 =>
      let es := (numsFrom 0 n).map fun i => (fieldAt bs (16 * i) 8, fieldAt bs (16 * i + 8) 4, fieldAt bs (16 * i + 12) 4)
      if es.any fun e => e.1 % 65536 != 0 || e.2.1 == 0 || e.2.2 != 0 then .bad s1
      else .ok (es.map fun e => (e.1 / 65536, e.2.1)) s1

/-! ### Launch (R28, R33) -/

/-- The memory as the device sees it: pooled lines merged, and the lines that D0's L2 and the host hold over it. -/
def viewMem (s : State) : List Host.Cell :=
  let m := (s.pool.foldl (fun s p => (mergeAt s (p.1 * 128)).1) s).mem
  let m := s.hostL2.foldl (fun m p => setBytes m (p.1 * 128) (p.2.bytes.take 128)) m
  s.hostLines.foldl (fun m p => setBytes m (p.1 * 128) (p.2.take 128)) m

/-- What a launch gives. -/
inductive Launched where
  | ok (m : Made)
  | wait (va : Nat)
  | refused (s : State) (st : Nat)

/-- Where a launch reads its template: the address space and the gang whose loads these are, 0 for none. -/
structure Reader where
  root : DWord
  gid : Nat

/-- Launches a range in a region: `holder` holds its handle, `packet` is the LAUNCH packet to complete. -/
def launchRange (s : State) (q : Reader) (rg holder home lo hi grain tva : Nat) (uses : Nat × Nat) (packet : Option Nat) :
    Launched :=
  if grain < 1 ∨ 2 ^ 32 < grain then .refused s stBADARG
  else match readTemplate s q.root q.gid tva with
    | .wait a => .wait a
    | .bad s1 => .refused s1 stBADARG
    | .ok t s1 => match readUses s1 q.root uses.1 uses.2 with
      | .wait a => .wait a
      | .bad s2 => .refused s2 stBADARG
      | .ok us s2 => match makeObject s2 tRANGE holder (typeRights tRANGE) home true with
        | .error st => .refused s2 st
        | .ok m =>
          let r : Range := {
            lo0 := lo, hi0 := hi, grain := grain, tmplVa := BitVec.ofNat 64 tva, tmpl := t, code := viewMem s2, region := rg, handle := m.handle
            pending := if lo < hi then [(lo, hi)] else [], claims := [], placed := 0, uses := us
            accepted := ticks s, age := 0, aged := false, packet := packet, complete := false }
          let s3 := if lo < hi then joinWaiting m.st rg else m.st
          let s4 := { s3 with ranges := fset s3.ranges m.obj r }
          .ok ⟨m.obj, m.handle, placementDue (finishRange s4 m.obj) fun _ => true⟩

end Sys2Proof.Machine
end

