-- ==== Sys2Proof/Machine/Report.lean ====
section
/-! DEFINITION. How object and supervisor instructions issue and report (spec/13 R236, R238, R252). -/

namespace Sys2Proof.Machine

open Sys2Proof

/-- What an object or supervisor instruction comes to. -/
inductive ObjRes where
  /-- status OK, with the value it returns where it returns one -/
  | ok (s : State) (value : Nat)
  /-- a status other than OK -/
  | fail (st : Nat)
  /-- a status other than OK, in a state that differs in what the fabric has been asked or has answered -/
  | failed (s : State) (st : Nat)
  /-- status OK later, when an event comes -/
  | due (s : State) (on : Awaits)
  /-- the wave waits at the instruction -/
  | hold
  /-- the wave waits at the instruction for pages of these addresses -/
  | await (vas : List Nat)
  /-- the wave waits at the instruction, which has left something under way -/
  | under (s : State)
  /-- a trap of the instruction's own -/
  | trap (cause info : Nat) (taddr : DWord)
  /-- everything done by the instruction itself -/
  | raw (s : State)

/-- Writes a status, and a value where the instruction returns one (R236). -/
def Wave.report (w : Wave) (d : Nat) (val : Bool) (st x : Nat) : Wave :=
  let w := w.writeS d (BitVec.ofNat 32 st)
  if val then (w.writeS (d + 1) 0).writeS64 (d + 2) (BitVec.ofNat 64 (if st = 0 then x else 0)) else w

/-- Reports a status other than OK in Sd, or by OBJ when sd names no status register (R236). -/
def failReport (v : Env) (d : Nat) (val : Bool) (s : State) (st : Nat) : Res :=
  if d = 0 then .trap s cOBJ st 0 else .done (modWave s v.wid fun w => w.report d val st 0)

/-- Reports in Sd, or by OBJ when sd names no status register (R236). -/
def objReport (v : Env) (d : Nat) (val : Bool) (s : State) : ObjRes → Res
  | .ok s' x => .done (modWave s' v.wid fun w => w.report d val 0 x)
  | .fail st => failReport v d val s st
  | .failed s' st => failReport v d val s' st
  | .due s' on => .done (if d = 0 then s' else modWave s' v.wid fun w => { w with dues := w.dues ++ [⟨d, on⟩] })
  | .hold => .hold
  | .await vas => .await vas
  | .under s' => .raw s'
  | .trap c i a => .trap s c i a
  | .raw s' => .raw s'

/-- The form of an instruction of class 27 or 28. -/
structure ObjForm where
  cls : Nat
  d : Nat
  /-- it returns a value -/
  val : Bool := false
  rs : List RegRun := []
  ws : List RegRun := []
  da : List RegRun := []
  db : List RegRun := []
  named : List RegRun := []
  bad : Bool := false
  priv : Bool := false

/-- Issue checks of an instruction of class 27 or 28. -/
def ObjForm.info (form : ObjForm) (_ : Wave) (_ : List Word) : OpInfo :=
  { cls := form.cls, rs := form.rs, ws := .s form.d (if form.val then 4 else 1) :: form.ws
    bad := form.bad || (form.val && (form.d == 0 || form.d % 4 != 0))
    priv := form.priv, named := form.named, deadA := form.da, deadB := form.db }

/-- Issues an instruction of class 27 or 28; class 27 gives AGAIN while the Cistern is in firmware restart, but for a send
that has gone out before (R238). -/
def objOp (form : ObjForm) (f : Env → State → ObjRes) (s : State) : State :=
  issue s form.info fun v s =>
    objReport v form.d form.val s
      (if form.cls = 27 ∧ s.host.bootstate = 4 ∧ (openSend s v.wid v.pc).isNone then .fail stAGAIN else f v s)

/-- The pair at an S register that an instruction reads as a handle, address or value. -/
def pairRun (n : BitVec 7) : RegRun := .s n.toNat 2

/-- The check of a handle in a pair, for the issuing wave's region (R235). -/
def Env.check (v : Env) (s : State) (n : Nat) (types : List Nat) (need : Nat) : Except Nat Entry :=
  checkHandle s (waveRegion s v.w) (v.w.readS64 n) types need

/-- Every type of object. -/
def allTypes : List Nat := [1, 2, 3, 4, 5, 6, 7, 8, 9]

end Sys2Proof.Machine
end

