-- ==== Sys2Proof/Machine/Ports.lean ====
section
/-! DEFINITION. Ports: sends, grants, receipt, landing slots, names and proxies, and the end of a port (spec/13 R245-R248;
spec/19 R321-R344). -/

namespace Sys2Proof.Machine

open Sys2Proof

/-! ### Landing slots (R329, R331-R333) -/

/-- The first VA of a landing slot. -/
def Port.slotVA (p : Port) (i : Nat) : Nat := p.lz.toNat + i * p.lzP * 65536

/-- The VAs of a landing slot. -/
def Port.slotVAs (p : Port) (i : Nat) : List Nat := (numsFrom 0 p.lzP).map fun k => p.slotVA i + 65536 * k

/-- Writes V 0 in every leaf of a landing slot, over whatever software stored there, and frees the slot (R329, R333). -/
def freeSlot (s : State) (root : DWord) (pn i : Nat) : State :=
  match fget s.ports pn with
  | none => s
  | some p =>
    let s := (p.slotVAs i).foldl (fun s va => writeEntry s root va 0) s
    { s with ports := fmod s.ports pn fun p => { p with busy := fdel p.busy i } }

/-- Releases the landing slots of a port none of whose pages is still mapped as received (R333). A slot reserved for a
grant under way stays (R334). -/
def sweepPort (s : State) (pn : Nat) : State :=
  match fget s.ports pn with
  | none => s
  | some p =>
    p.busy.foldl (fun s b =>
      if s.reservations.any (fun r => r.2.port == pn && r.2.slot == b.1) || !b.2.pages.isEmpty then s
      else freeSlot s (effPtroot s p.region) pn b.1) s

/-- Releases what can be released in every port. -/
def sweepPorts (s : State) : State := s.ports.foldl (fun s p => sweepPort s p.1) s

/-- The grant word that precv returns (R332). -/
def grantWord (pages : Nat) (write shared : Bool) : Word :=
  BitVec.ofNat 32 (pages + 65536 + (if write && !shared then 2 ^ 17 else 0) + (if shared then 2 ^ 18 else 0))

/-- The leaf of a landing page (R331 step 3). -/
def landingLeaf (s : State) (r : Nat) (frame : Nat) (write shared : Bool) : DWord :=
  if shared then hbmLeaf frame false true false
  else pField (pSet (hbmLeaf frame write false true) 16 true) 18 4 (regionGen s r)

/-- Maps frames that a module sent in a landing slot, whose tables pnew allocated; the slot's other leaves are written V 0
(R329, R331 step 3). -/
def mapLanding (s : State) (pn i : Nat) (frames : List Nat) (write : Bool) (shared : Option Nat) (src : Nat) : State :=
  match fget s.ports pn with
  | none => s
  | some p =>
    let root := effPtroot s p.region
    let s := (numsFrom 0 p.lzP).foldl (fun s k => match frames[k]? with
      | none => writeEntry s root (p.slotVA i + 65536 * k) 0
      | some f => (mapPage s root p.region p.home (p.slotVA i + 65536 * k)
          (landingLeaf s p.region f write shared.isSome)).getD s) s
    { s with ports := fmod s.ports pn fun p => { p with
        busy := fset p.busy i ⟨(numsFrom 0 frames.length).zip frames, shared, src⟩ } }

/-- Takes the pages of landing slots that a test names from those still mapped as received, and releases the slots left
with none (R333). The test sees the port, the slot, the slot's record and the page's place in it. -/
def dropReceived (s : State) (f : Port → Nat → Landing → Nat → Bool) : State :=
  sweepPorts { s with ports := fmapv (fun _ p => { p with busy := fmapv (fun i b =>
    { b with pages := b.pages.filter fun x => !f p i b x.1 }) p.busy }) s.ports }

/-! ### Pages that may be granted (R330) -/

/-- What a page is for a grant: owned with its frame, of a sealed segment, waited for, or not grantable. One that a checkpoint
copy has still to read is waited for, since its receiver may write it (spec/17 R320). -/
inductive GrantPage where
  | owned (frame : Nat)
  | sealed (seg frame : Nat)
  | wait
  | bad
  deriving DecidableEq, Repr

def grantPage (s : State) (root : DWord) (va : Nat) : GrantPage :=
  match pageLeaf s root va with
  | none => .bad
  | some (a, e, f) =>
    if pMig e || ckptHolds s f || (holdsAny s && entryHeld s a) then .wait
    else if pAmber e then match segOfFrame s f with
      | some (k, g, _) => if g.status == 1 && g.sealDone then .sealed k f else .bad
      | none => .bad
    else if !pGnt e || pCwin e || pPin e || pGranted e || isStackVA va then .bad
    else match pTier e with
      | 0 => .owned f
      | 1 => .wait
      | _ => .bad

/-- What the pages of a grant are together. -/
inductive GrantPages where
  | owned (frames : List Nat)
  | sealed (seg : Nat) (frames : List Nat)
  | wait
  | bad
  deriving DecidableEq, Repr

def grantPages (s : State) (root : DWord) (va n : Nat) : GrantPages :=
  let ps := (numsFrom 0 n).map fun i => grantPage s root (va + 65536 * i)
  let owned := ps.filterMap fun p => match p with
    | .owned f => some f
    | _ => none
  let amber := ps.filterMap fun p => match p with
    | .sealed k f => some (k, f)
    | _ => none
  if ps.contains .bad then .bad
  else if ps.contains .wait then .wait
  else if owned.length = n then .owned owned
  else match amber with
    | (k, _) :: _ => if amber.length = n ∧ amber.all (fun x => x.1 == k) then .sealed k (amber.map Prod.snd) else .bad
    | [] => .bad

/-- The sender's side at a grant point (R331 steps 1 and 2): lines merge, and owned leaves become GRANTED; a page granted
onward is no received page any more (R333). -/
def grantPoint (s : State) (root : DWord) (va : Nat) (frames : List Nat) (owned : Bool) : State :=
  let s := frames.foldl mergeFrame s
  if owned then
    dropReceived ((numsFrom 0 frames.length).foldl (fun s i => setLeaf s root (va + 65536 * i) fun e => pSet e 6 true) s)
      fun p i _ k => effPtroot s p.region == root &&
        decide (va ≤ p.slotVA i + 65536 * k ∧ p.slotVA i + 65536 * k < va + 65536 * frames.length)
  else s

/-! ### Capacity and delivery (R322, R326) -/

/-- Takes a slot of the port for one more message, borrowing where it must (R322). -/
def takeRoom (s : State) (pn : Nat) : State :=
  match fget s.ports pn with
  | none => s
  | some p =>
    if p.queue.length + p.reserved < p.cap + p.borrowed then s
    else { charge s .slots p.region 1 with ports := fset s.ports pn { p with borrowed := p.borrowed + 1 } }

/-- Makes a deep-tier page resident where that can be done without the last free frames (R328, spec/15 R285). -/
def prefetchPage (s : State) (root : DWord) (va : Nat) : State :=
  match pageLeaf s root va with
  | some (_, e, f) =>
    if pTier e = 1 && !pMig e && !pGranted e && !leavesHeld s f then match fillRoomFor true s root va 0 with
      | some s1 => resolution s (fillDeep s1 root f) root va
      | none => s
    else s
  | none => s

/-- The prefetch that a message's HINT starts: the entry of the port's table is read, and the deep-tier pages it names become
resident (R328). An entry that cannot be read or is malformed starts nothing. -/
def prefetchOf (s : State) (p : Port) (m : Msg) : State :=
  let hint := m.header.toNat % 65536
  let root := effPtroot s p.region
  let va := p.pfTab.toNat + 16 * hint
  if p.pfN ≤ hint then s
  else match residentNow s root va p.home with
    | none => s
    | some s1 => match fetchBytes (resolution s s1 root va) root 0 va 16 with
      | .ok bs s2 =>
        let base := fieldAt bs 0 8
        let n := fieldAt bs 8 4
        if base % 65536 ≠ 0 ∨ n < 1 ∨ 16384 < n ∨ fieldAt bs 12 4 ≠ 0 then s2
        else askedBy ((numsFrom 0 n).foldl (fun s i => prefetchPage s root (base + 65536 * i)) s2) p.region
      | _ => s

/-- The delivery point: the message enters the queue (R326), and its hint starts a prefetch, which changes no value (R328). -/
def deliver (s : State) (pn : Nat) (m : Msg) : State :=
  let t := { s with ports := fmod s.ports pn fun p => { p with queue := p.queue ++ [m] } }
  match fget s.ports pn with
  | some p => prefetchOf t p m
  | none => t

/-- The slot a grant takes in the ring (R329). -/
def takeSlot (s : State) (pn : Nat) : State :=
  { s with ports := fmod s.ports pn fun p => { p with nextSlot := (p.nextSlot + 1) % p.lzN } }

/-- A psend at the home of its port: checks 2 and 5, then delivery (R323). -/
def sendHere (s : State) (pn : Nat) (m : Msg) : Except Nat State :=
  if portDead s pn then .error stDEAD
  else match fget s.ports pn with
    | none => .error stDEAD
    | some p => if portRoom s p then .ok (deliver (takeRoom s pn) pn m) else .error stFULL

/-- What a grant names. -/
structure Grant where
  va : Nat
  pages : Nat
  read : Bool
  write : Bool
  deriving DecidableEq, Repr

/-- The first addresses of the pages that a grant names. -/
def grantVAs (g : Grant) : List Nat := (numsFrom 0 g.pages).map fun i => g.va + 65536 * i

/-- A pgrant to a port of this module: checks 2 to 6, then one step of S (R323, R331). -/
def grantHere (s : State) (rg pn : Nat) (m : Msg) (g : Grant) : ObjRes :=
  if portDead s pn then .fail stDEAD
  else match fget s.ports pn with
    | none => .fail stDEAD
    | some p =>
      if p.lz = 0 ∨ p.lzP < g.pages ∨ !g.read then .fail stBADARG
      else
        let root := effPtroot s rg
        let land := fun (s : State) (frames : List Nat) (seg : Option Nat) =>
          if rangeHeld s (effPtroot s p.region) (p.slotVA p.nextSlot) p.lzP then .hold
          else
          let s := takeSlot (takeRoom s pn) pn
          let s := mapLanding s pn p.nextSlot frames g.write seg s.host.module
          .ok (deliver s pn { m with
            landing := BitVec.ofNat 64 (p.slotVA p.nextSlot)
            gword := grantWord g.pages g.write seg.isSome }) 0
        let s := settleWalks s root g.va g.pages
        match grantPages s root g.va g.pages with
        | .bad => .failed s stBADARG
        | .wait => .await (grantVAs g)
        | .owned fs =>
          if !ringFree p then .failed s stFULL
          else if !portRoom s p then .failed s stFULL
          else if !mayMove s rg p.region g.pages then .failed s stBUDGET
          else
            let s1 := charge (uncharge s .hbm rg g.pages) .hbm p.region g.pages
            land (grantPoint s1 root g.va fs true) fs none
        | .sealed k fs =>
          if !ringFree p then .failed s stFULL
          else if !portRoom s p then .failed s stFULL
          else land (grantPoint s root g.va fs false) fs (some k)

/-! ### Sends to another module (R323, R334, R338-R342) -/

/-- The region's name for messages: the INDEX of its object. -/
def regionIndex (s : State) (rg : Nat) : Nat := ((fget s.regions rg).map Region.index).getD 0

/-- The origin word (Table 19.3). -/
def originWord (s : State) (w : Wave) : DWord :=
  BitVec.ofNat 64 (s.host.incarnation % 2 ^ 24 * 2 ^ 40 + s.host.module % 1024 * 2 ^ 30 + waveDie s w * 2 ^ 28 +
    regionIndex s (waveRegion s w) % 2 ^ 20)

/-- The ports that reach a module and are not down; a port that is down is on no route (R342). -/
def portsTo (s : State) (m : Nat) : FMap LinkPort := s.links.filter fun p => p.2.status != 2 && Config.linkReaches m p.1

/-- Whether a module is reachable only through ports that are retraining (R342). -/
def linksRetraining (s : State) (m : Nat) : Bool :=
  !(portsTo s m).isEmpty && (portsTo s m).all fun p => p.2.status == 1

/-- Updates a link port. -/
def modLink (s : State) (p : Nat) (f : LinkPort → LinkPort) : State := { s with links := fmod s.links p f }

/-- Sends what waits at a port as data flits, while the link is up and its replay buffer has room (R341, R342). -/
def LinkPort.drain (l : LinkPort) : List (Nat × Nat × List (BitVec 8)) → LinkPort
  | [] => { l with waiting := [] }
  | f :: fs =>
    if l.status = 0 ∧ l.replay.length < 2048 then
      LinkPort.drain { l with
        replay := l.replay ++ [⟨l.nextSeq, 1, f.1, f.2.1, f.2.2⟩], nextSeq := (l.nextSeq + 1) % 4096
        flitsTx := (l.flitsTx + 1) % 2 ^ 64 } fs
    else { l with waiting := f :: fs }

/-- Gives flits to a port that routes to their module. -/
def routeFlits (s : State) (fs : List (Nat × Nat × List (BitVec 8))) : State :=
  fs.foldl (fun s f =>
    let up := portsTo s f.1
    match up[Config.linkRoute s.fresh f.1 % up.length]? with
    | none => s
    | some p => modLink s p.1 fun l => l.drain (l.waiting ++ [f])) s

/-- Sends a request, a reply or page data to another module in flits (R341). -/
def transmit (s : State) (m : Nat) : State :=
  if m = s.host.module then s else routeFlits s ((Config.linkBeats s.fresh m).map fun b => (m, s.host.module, b))

/-- Sends a request of a region's wave, whose flits of 256 bytes are traffic of the link (spec/21 R366); what is sent for no region of
this module counts for the module alone. -/
def transmitFor (s : State) (r m : Nat) : State :=
  if m = s.host.module then s else traffic (transmit s m) r 2 (256 * (Config.linkBeats s.fresh m).length)

/-- Notes that a module is spoken to: its silence counts from now (R340). -/
def meetPeer (s : State) (m incarn : Nat) : State :=
  match fget s.peers m with
  | some _ => s
  | none => { s with peers := fset s.peers m ⟨incarn, false, s.time⟩ }

/-- The sender's half of a grant that the port's home has accepted: the grant point, whose release is promoted to system
scope (R334 stage 2, spec/17 R301); the pages it copies are traffic of HBM and of a link (spec/21 R366). While a page of it is still on its way to HBM the grant point waits. -/
def passGrant (s : State) (n : Nat) (r : RemoteSend) : State :=
  let root := effPtroot s r.region
  let put := fun (s : State) (r : RemoteSend) => { s with sends := fset s.sends n r }
  let s := settleWalks s root r.va.toNat r.pages
  let carried := fun (s : State) => traffic (traffic s r.region 0 (65536 * r.pages)) r.region 2 (65536 * r.pages)
  match grantPages s root r.va.toNat r.pages with
  | .owned fs =>
    put (carried (transmit (grantPoint (writeBackAll s) root r.va.toNat fs true) r.module))
      { r with reply := some 0, past := true, owned := true, frames := fs }
  | .sealed k fs =>
    let t := carried (transmit (grantPoint (writeBackAll s) root r.va.toNat fs false) r.module)
    put { t with segments := fmod t.segments k fun g => { g with remotes := r.module :: g.remotes } }
      { r with reply := some 0, past := true, owned := false }
  | .wait => put s { r with accepted := true }
  | .bad => put s { r with reply := some stBADARG }

/-- What the wave of a send that has gone out finds on its next try: it waits for the reply, and reports it (R323, R334). A
grant past its grant point is kept for its acknowledgement. -/
def answered (s : State) (n : Nat) (r : RemoteSend) : ObjRes :=
  match r.reply with
  | none => .hold
  | some st =>
    let t := { s with sends := if r.past then fset s.sends n { r with taken := true } else fdel s.sends n }
    if st = 0 then .ok t 0 else .failed t st

/-- A send that has gone out, tried again. -/
def sendAgain (s : State) (n : Nat) (r : RemoteSend) : ObjRes :=
  if r.accepted && r.reply.isNone then
    let t := passGrant s n r
    match fget t.sends n with
    | some q => if q.reply.isNone then .await (grantVAs ⟨r.va.toNat, r.pages, true, true⟩) else answered t n q
    | none => .hold
  else answered s n r

/-- Starts a send to another module, whose release is promoted to system scope (spec/17 R301): check 3 is the sender's (R323). -/
def sendAway (v : Env) (s : State) (rg : Nat) (x : Proxy) (g : Option Grant) : ObjRes :=
  if linksRetraining s x.module then .fail stAGAIN
  else
    let start := fun (owned : Bool) (s : State) =>
      let s := meetPeer (progressed (writeBackAll s) rg) x.module x.incarn
      .under <| transmitFor (r := rg) (m := x.module) { s with
        sends := fset s.sends s.serial {
          wave := v.wid, pc := v.pc, region := rg, module := x.module, grant := g.isSome, owned := owned
          va := BitVec.ofNat 64 ((g.map Grant.va).getD 0), pages := (g.map Grant.pages).getD 0
          reply := none, accepted := false, taken := false, past := false, frames := [] }
        serial := s.serial + 1 }
    match g with
    | none => start false s
    | some g =>
      if !g.read then .fail stBADARG
      else
        let s := settleWalks s (effPtroot s rg) g.va g.pages
        match grantPages s (effPtroot s rg) g.va g.pages with
        | .bad => .failed s stBADARG
        | .wait => .await (grantVAs g)
        | .owned _ => start true s
        | .sealed _ _ => start false s

/-! ### The slot table (R246) and message blocks (R247) -/

/-- The handle of a slot of the gang's table. -/
def slotHandle (s : State) (w : Wave) (n : Nat) : Option DWord :=
  match fget s.gangs w.gang with
  | none => none
  | some g => fget g.slots n

/-- The message of a block from Sa. -/
def blockMsg (s : State) (w : Wave) (a : Nat) (eight : Bool) : Msg where
  header := w.readS64 a
  origin := originWord s w
  eight := eight
  words := (numsFrom 0 (if eight then 8 else 4)).map fun i => w.readS64 (a + 8 + 2 * i)
  landing := 0
  gword := 0

/-- A new psend or pgrant: the slot's handle, check 1, then the port's own checks (R246, R247, R323). -/
def sendNew (grant : Bool) (v : Env) (s : State) (a sb : Nat) : ObjRes :=
  let w := v.w
  let rg := waveRegion s w
  match slotHandle s w (sb % 64) with
  | none => .fail stBADARG
  | some h => match checkHandle s rg h [tPORT, tPROXY] (rSEND + (if grant then rGRANT else 0)) with
    | .error st => .fail st
    | .ok e =>
      let m := blockMsg s w a (64 ≤ sb)
      let gw := (w.readS (a + 4)).toNat
      let va := (w.readS64 (a + 2)).toNat
      let g : Grant := ⟨va, gw % 512, gw / 2 ^ 16 % 2 == 1, gw / 2 ^ 17 % 2 == 1⟩
      if grant && (gw / 512 % 128 != 0 || gw / 2 ^ 18 != 0 || g.pages == 0 || decide (256 < g.pages) ||
          va % 65536 != 0) then .fail stBADARG
      else
        let here := fun (pn : Nat) =>
          if grant then grantHere s rg pn m g
          else match sendHere s pn m with
            | .ok s' => .ok s' 0
            | .error st => .fail st
        if e.type = tPORT then here e.obj
        else match fget s.proxies e.obj with
          | none => .fail stDEAD
          | some x => if x.module = s.host.module then here x.port
            else sendAway v s rg x (if grant then some g else none)

/-- psend and pgrant: one that has gone out to another module is reported by its reply alone, whatever has become of the slot
and the handle since (R323). -/
def sendOp (grant : Bool) (v : Env) (s : State) (a sb : Nat) : ObjRes :=
  match openSend s v.wid v.pc with
  | some (n, r) => sendAgain s n r
  | none => sendNew grant v s a sb

/-- The S registers of a block that a send reads. -/
def blockReads (grant : Bool) (a : Nat) (eight : Bool) : List RegRun :=
  [.s a (if grant then 5 else 2), .s (a + 8) (if eight then 16 else 8)]

/-- Issues psend or pgrant. DESIGN CHOICE: a dead bit of a field that names a block marks every register of the block that is read
(assumption log 91). -/
def sendInstr (grant : Bool) (d a b : BitVec 7) (s : State) : State :=
  let eight := decide (64 ≤ b.toNat)
  let reads := blockReads grant a.toNat eight
  objOp { cls := 27, d := d.toNat, rs := reads, named := [.s a.toNat (if eight then 24 else 16)]
          bad := decide (a.toNat % 8 ≠ 0), da := reads }
    (fun v s => sendOp grant v s a.toNat b.toNat) s

/-- psend (R246, R247, R323) -/
def execPsend (d a b : BitVec 7) (s : State) : Host.Outcome State Fault Refusal := .next (sendInstr false d a b s)

/-- pgrant (R246, R247, R323, R330, R331, R334) -/
def execPgrant (d a b : BitVec 7) (s : State) : Host.Outcome State Fault Refusal := .next (sendInstr true d a b s)

/-- Writes a received message to the block at Sa (Table 13.13). -/
def Wave.writeBlock (w : Wave) (a : Nat) (m : Msg) : Wave :=
  let w := ((w.writeS64 a m.header).writeS64 (a + 2) m.landing).writeS (a + 4) m.gword
  let w := w.writeS (a + 5) (BitVec.ofNat 32 ((if m.eight then 1 else 0) + (if m.gword = 0 then 0 else 2)))
  let w := w.writeS64 (a + 6) m.origin
  (numsFrom 0 8).foldl (fun w i => w.writeS64 (a + 8 + 2 * i) (m.words.getD i 0)) w

/-- precv: the oldest message, and one borrowed slot returned (R247, R322, R327). -/
def execPrecv (d a : BitVec 7) (b : BitVec 6) (s : State) : Host.Outcome State Fault Refusal :=
  .next (objOp { cls := 27, d := d.toNat, ws := [.s a.toNat 24]
                 bad := decide (a.toNat % 8 ≠ 0) } (fun v s =>
    match slotHandle s v.w b.toNat with
    | none => .fail stBADARG
    | some h => match checkHandle s (waveRegion s v.w) h [tPORT] rRECV with
      | .error st => .fail st
      | .ok e => match fget s.ports e.obj with
        | none => .fail stDEAD
        | some p => match p.queue with
          | [] => .fail stEMPTY
          | m :: rest =>
            let s := if 0 < p.borrowed then uncharge s .slots p.region 1 else s
            let s := { s with ports := fset s.ports e.obj { p with queue := rest, borrowed := p.borrowed - 1 } }
            .ok (modWave s v.wid fun w => w.writeBlock a.toNat m) 0) s)

/-- pslot: installs a handle, checked for type, or empties the slot (R246). -/
def execPslot (d a : BitVec 7) (b : BitVec 6) (s : State) : Host.Outcome State Fault Refusal :=
  .next (objOp { cls := 27, d := d.toNat, rs := [pairRun a], da := [pairRun a]
                 bad := oddReg a } (fun v s =>
    let h := v.w.readS64 a.toNat
    let put := fun (f : FMap DWord → FMap DWord) =>
      ObjRes.ok (modGang s v.w.gang fun g => { g with slots := f g.slots }) 0
    if h = 0 then put fun m => fdel m b.toNat
    else match checkHandle s (waveRegion s v.w) h [tPORT, tPROXY] 0 with
      | .ok _ => put fun m => fset m b.toNat h
      | .error st => if st = stRIGHTS then put fun m => fset m b.toNat h else .fail st) s)

/-! ### New ports (R245, R329) -/

/-- Whether no page of a VA range is mapped. -/
def rangeUnmapped (s : State) (root : DWord) (va pages : Nat) : Bool :=
  (numsFrom 0 pages).all fun i => (pageLeafAny s root (va + 65536 * i)).isNone

/-- Allocates the table frames of a VA range, charged to HBMP of a region; none when a charge or a frame is refused. -/
def reserveTables (s : State) (root : DWord) (rg die va pages : Nat) : Option State :=
  let blocks := if pages = 0 then [] else numsFrom (va / 2 ^ 29) ((va + 65536 * pages - 1) / 2 ^ 29 - va / 2 ^ 29 + 1)
  let r := blocks.foldl (fun (a : Option State) b => a.bind fun s =>
    (ensureTables s rg die (b * 2 ^ 29) 4 0 root.toNat).map Prod.snd) (some s)
  r.bind fun s' => if mayCharge s' .hbm rg 0 then some s' else none

/-- A port from its descriptor (Table 13.12), or none where a field is outside its limits. -/
def parsePort (bs : List (BitVec 8)) (rg home : Nat) : Option Port :=
  let c := fieldAt bs 0 4
  let lz := fieldAt bs 8 8
  let n := fieldAt bs 16 2
  let p := fieldAt bs 18 2
  let e := fieldAt bs 20 4
  let t := fieldAt bs 24 8
  if c < 16 ∨ 65536 < c ∨ fieldAt bs 4 4 ≠ 0 ∨ lz % 65536 ≠ 0 ∨
      (if lz = 0 then n ≠ 0 ∨ p ≠ 0 else n = 0 ∨ p = 0 ∨ 256 < p) ∨ 4096 < e ∨ t % 64 ≠ 0 ∨ (e = 0 ∧ t ≠ 0) ∨
      (lz ≠ 0 ∧ 0xFFFF700000000000 < lz + n * p * 65536) then none
  else some { cap := c, borrowed := 0, queue := [], region := rg, home := home, lz := BitVec.ofNat 64 lz, lzN := n
              lzP := p, nextSlot := 0, busy := [], pfN := e, pfTab := BitVec.ofNat 64 t, reserved := 0, dead := false }

/-- pnew (R245, R321, R329) -/
def execPnew (d a : BitVec 7) (s : State) : Host.Outcome State Fault Refusal :=
  .next (objOp { cls := 27, d := d.toNat, val := true, rs := [pairRun a], da := [pairRun a], bad := oddReg a }
    (fun v s =>
      let rg := waveRegion s v.w
      let root := effPtroot s rg
      match fetchBytes s root v.w.gang (v.w.readS64 a.toNat).toNat 32 with
      | .wait p => .await [p]
      | .bad s1 => .failed s1 stBADARG
      | .ok bs s1 => match parsePort bs rg (waveDie s v.w) with
        | none => .failed s1 stBADARG
        | some p =>
          let s2 := settleWalks s1 root p.lz.toNat (p.lzN * p.lzP)
          if !rangeUnmapped s2 root p.lz.toNat (p.lzN * p.lzP) then .failed s2 stBADARG
          else if rangeHeld s2 root p.lz.toNat (p.lzN * p.lzP) then .hold
          else match makeObject s2 tPORT rg (typeRights tPORT) p.home true with
            | .error st => .failed s2 st
            | .ok m => match reserveTables m.st root rg p.home p.lz.toNat (p.lzN * p.lzP) with
              | none => .failed s2 stBUDGET
              | some s3 => .ok { s3 with ports := fset s3.ports m.obj p } m.handle.toNat) s)

/-! ### Names (R248, R336, R337, R339) -/

/-- Whether the agent of a binding is dead (R339): a binding made under an incarnation newer than the one this module has seen last, or
has declared dead, shows that its module has booted again since (R338), and is not. -/
def bindingDead (s : State) (b : Binding) : Bool :=
  b.ended ||
  (if b.module = s.host.module then b.incarn != s.host.incarnation || portDead s b.port
   else match fget s.peers b.module with
    | some p => decide (b.incarn < p.incarn) || (p.dead && b.incarn == p.incarn)
    | none => false)

/-- Notes the incarnation of a module and when it came; proxies that recorded another are dead (R339). -/
def notePeer (s : State) (m inc : Nat) : State :=
  { s with
    peers := fset s.peers m ⟨inc, false, s.time⟩
    proxies := fmapv (fun _ x => if x.module == m && x.incarn != inc then { x with ended := true } else x) s.proxies }

/-- Notes the incarnation of a binding where it is newer than the one known of its module (R338, R339). -/
def noteBinding (s : State) (b : Binding) : State :=
  if b.module ≠ s.host.module ∧ (fget s.peers b.module).any (fun p => decide (p.incarn < b.incarn)) then notePeer s b.module b.incarn
  else s

/-- Whether this module holds the directory of a name (R336). -/
def directoryHere (s : State) (name : Nat) : Bool := name % s.host.domainSize == s.host.module

/-- The copy of a binding in the Aqueduct cache that answers for its directory: one whose agent is not dead (R337, R339). -/
def cachedName (s : State) (name : Nat) : Option Binding :=
  (fget s.aqueduct name).filter fun b => !bindingDead s b

/-- The binding of a name, by this module's directory, its Aqueduct copy, or another directory's reply (R337). -/
def resolveName (s : State) (name : Nat) : Option Binding :=
  if directoryHere s name then fget s.names name
  else match cachedName s name with
    | some b => some b
    | none =>
      let r := Config.remoteBinding s.fresh name
      if r 0 % 2 = 0 then none
      else some ⟨r 1 % s.host.domainSize, r 2, r 3 % 2 ^ 24, r 4 % 2 == 1, r 5 % 2 == 0⟩

/-- Asks the directory of a name, where it lies in another module and no copy answers for it (R337). -/
def askDirectory (s : State) (rg name : Nat) : State :=
  if directoryHere s name || (cachedName s name).isSome then s else transmitFor s rg (name % s.host.domainSize)

/-- pname (R248, R337, R339) -/
def execPname (d a : BitVec 7) (s : State) : Host.Outcome State Fault Refusal :=
  .next (objOp { cls := 27, d := d.toNat, val := true, rs := [pairRun a], da := [pairRun a], bad := oddReg a }
    (fun v s =>
      let name := (v.w.readS64 a.toNat).toNat
      let rg := waveRegion s v.w
      let t := askDirectory s rg name
      match resolveName s name with
      | none => .failed t stNONAME
      | some b =>
        if bindingDead s b then .failed t stDEAD
        else match makeObject (noteBinding t b) tPROXY rg (typeRights tPROXY + if b.grant then rGRANT else 0) (waveDie s v.w) true with
          | .error st => .failed t st
          | .ok m =>
            .ok { m.st with
              proxies := fset m.st.proxies m.obj ⟨b.module, b.port, b.incarn, BitVec.ofNat 64 name, false⟩
              aqueduct := if directoryHere s name then m.st.aqueduct else fset m.st.aqueduct name b } m.handle.toNat) s)

/-- preg (R248, R336) -/
def execPreg (d a b : BitVec 7) (s : State) : Host.Outcome State Fault Refusal :=
  .next (objOp { cls := 27, d := d.toNat, rs := [pairRun a, pairRun b], da := [pairRun a], db := [pairRun b]
                 bad := oddReg a || oddReg b } (fun v s =>
    let h := v.w.readS64 a.toNat
    let name := (v.w.readS64 b.toNat).toNat
    match checkHandle s (waveRegion s v.w) h [tPORT] rADMIN with
    | .error st => .fail st
    | .ok e =>
      let taken := match resolveName s name with
        | some x => !bindingDead s x
        | none => false
      if name = 0 then .fail stBADARG
      else if taken = true then .failed (askDirectory s (waveRegion s v.w) name) stBADARG
      else
        let x : Binding := ⟨s.host.module, e.obj, s.host.incarnation, hRights h / 4 % 2 == 1, false⟩
        .ok (if directoryHere s name then { s with names := fset s.names name x }
             else transmitFor { s with aqueduct := fset s.aqueduct name x } (waveRegion s v.w) (name % s.host.domainSize)) 0) s)

/-- Takes `n` HBM frames of a die. -/
def takeFrames (s : State) (die : Nat) : Nat → List Nat → Option (List Nat × State)
  | 0, fs => some (fs.reverse, s)
  | n + 1, fs => match takeHbm s die with
    | none => none
    | some (f, s') => takeFrames s' die n (f :: fs)

/-! ### Sends and grants of other modules at the home of a port (R323, R326, R334, R343) -/

/-- The key of a request's tag: its source module, and its die and 16 bits (R343). The page copies of a reservation have
keys of their own. -/
def tagKey (src tag : Nat) : Nat := 2 * (src % 1024 + 1024 * (tag % 2 ^ 18))

def copyKey (resv : Nat) : Nat := 2 * resv + 1

/-- Answers a request that has been performed before: it is counted, and the recorded reply goes out again (R343). -/
def answerAgain (s : State) (link src : Nat) : State :=
  transmitFor (modLink s link fun l => { l with dedup := (l.dedup + 1) % 2 ^ 64 }) noRegion src

/-- Records the reply to a request and sends it. -/
def replyOnce (s : State) (src key st : Nat) : State := transmitFor { s with dedup := fset s.dedup key st } noRegion src

/-- Whether a grant of the same wave to the same live port has not landed (R326). -/
def grantAhead (s : State) (src wave pn : Nat) : Bool :=
  !portDead s pn && s.reservations.any fun r => r.2.src == src && r.2.wave == wave && r.2.port == pn

/-- A psend at the home of its port: its status, and the state after (R323). -/
def admitSend (s : State) (h : HeldSend) : Nat × State :=
  match sendHere s h.port h.msg with
  | .error st => (st, s)
  | .ok s' => (0, s')

/-- A grant's reservation at the home of its port: checks 2 to 6; then the landing slot, a queue slot and frames of the home
die are reserved (R334 stage 1). -/
def admitGrant (s : State) (h : HeldSend) (gword : Nat) : Nat × State :=
  let n := gword % 512
  if portDead s h.port then (stDEAD, s)
  else match fget s.ports h.port with
    | none => (stDEAD, s)
    | some p =>
      if p.lz = 0 ∨ p.lzP < n ∨ n = 0 then (stBADARG, s)
      else if !ringFree p || !portRoom s p then (stFULL, s)
      else if !mayCharge s .hbm p.region n then (stBUDGET, s)
      else match takeFrames s p.home n [] with
        | none => (stBUDGET, s)
        | some (fs, s1) =>
          let s2 := takeSlot (takeRoom (charge s1 .hbm p.region n) h.port) h.port
          let shared := gword / 2 ^ 18 % 2 == 1
          let m := { h.msg with
            landing := BitVec.ofNat 64 (p.slotVA p.nextSlot), gword := grantWord n (gword / 2 ^ 17 % 2 == 1) shared }
          (0, { s2 with
            ports := fmod s2.ports h.port fun q => { q with
              reserved := q.reserved + 1
              busy := fset q.busy p.nextSlot ⟨[], if shared then some 0 else none, h.src⟩ }
            reservations := fset s2.reservations s2.serial ⟨h.src, h.wave, h.port, p.nextSlot, m, fs⟩
            serial := s2.serial + 1 })

/-- Performs a send or a reservation of another module and replies; the flits carry the message of the port's region (spec/23
R383). -/
def admitHeld (s : State) (h : HeldSend) : State :=
  let r := match h.gword with
    | none => admitSend s h
    | some g => admitGrant s h g
  replyOnce (progressed r.2 (((fget s.ports h.port).map Port.region).getD 0)) h.src (tagKey h.src h.tag) r.1

/-- Whether a send comes behind another of its wave to its port that is held or whose grant has not landed (R326). -/
def behind (s : State) (ahead : List HeldSend) (h : HeldSend) : Bool :=
  grantAhead s h.src h.wave h.port || ahead.any fun x => x.src == h.src && x.wave == h.wave && x.port == h.port

/-- The first held send that need not wait any longer. -/
def nextHeld (s : State) : List HeldSend → List HeldSend → Option HeldSend
  | _, [] => none
  | ahead, h :: rest => if behind s ahead h then nextHeld s (ahead ++ [h]) rest else some h

/-- Performs the held sends whose grants have landed, in the order they arrived (R326). -/
def releaseHeld : Nat → State → State
  | 0, s => s
  | fuel + 1, s => match nextHeld s [] s.held with
    | none => s
    | some h => releaseHeld fuel (admitHeld { s with held := s.held.erase h } h)

/-! ### The end of a port (R336, R344) -/

/-- Ends the bindings that a test names: they stay in this module's directory as ended, every Aqueduct copy goes, and the
directories, and the modules that may keep copies, are told (R336). -/
def endBindings (s : State) (f : Binding → Bool) : State :=
  let mine := fun (b : Binding) => f b && !b.ended
  let away := (s.aqueduct.filter fun p => mine p.2).map fun p => p.1 % s.host.domainSize
  let t := (if s.names.any fun p => mine p.2 then numsFrom 0 s.host.domainSize else away).foldl (fun s m => transmitFor s noRegion m) s
  { t with
    names := fmapv (fun _ b => if f b then { b with ended := true } else b) t.names
    aqueduct := t.aqueduct.filter fun p => !f p.2 }

/-- What a port's end does to its slots: the frames of received pages are freed, but those that a segment of this module
shares, and the landing slots are released (R333). -/
def endSlots (s : State) (pn : Nat) (p : Port) : State :=
  let root := effPtroot s p.region
  p.busy.foldl (fun s b =>
    let s := if b.2.shared.any (0 < ·) then s
      else b.2.pages.foldl (fun s x =>
        let t := match pageLeaf s root (p.slotVA b.1 + 65536 * x.1) with
          | some (a, _, _) => dropMoving s a
          | none => s
        freePage (mergeFrame t x.2) p.region x.2) s
    freeSlot s root pn b.1) s

/-- What a port's end does to the grants accepted for it that have not landed: their frames go back, and each stays noted, with
none, so that its page copy is acknowledged and the sender's frames are freed (R335, R344). -/
def endPortGrants (s : State) (pn : Nat) (p : Port) : State :=
  let lost := s.reservations.filter fun r => r.2.port == pn
  let t := lost.foldl (fun s r => uncharge (r.2.frames.foldl freeFrame s) .hbm p.region r.2.frames.length) s
  { t with reservations := fmapv (fun _ r => if r.port == pn then { r with frames := [] } else r) t.reservations }

/-- Ends a port: queue, landing slots, bindings and reservations go, and the sends held for it get DEAD (R333, R336, R344). -/
def endPort (s : State) (pn : Nat) : State :=
  match fget s.ports pn with
  | none => s
  | some p =>
    if p.dead then s
    else
      let s := endPortGrants (endSlots s pn p) pn p
      let s := endBindings (uncharge s .slots p.region p.borrowed) fun b => b.module == s.host.module && b.port == pn
      let s := { s with
        proxies := fmapv (fun _ x =>
          if x.module == s.host.module && x.port == pn then { x with ended := true } else x) s.proxies
        ports := fset s.ports pn { p with dead := true, queue := [], borrowed := 0, reserved := 0, busy := [] } }
      releaseHeld (s.held.length + 1) s

end Sys2Proof.Machine
end

