-- ==== Sys2Proof/Machine/Objects.lean ====
section
/-! DEFINITION. Waves, ranges, handles, information, wait sets, timers and amber segments: class 27 (spec/13 R239-R244,
R249, R250, R410). -/

namespace Sys2Proof.Machine

open Sys2Proof

/-! ### Waves and ranges (R240-R242) -/

/-- wspawn (R240, R36, R44) -/
def execWspawn (d a b : BitVec 7) (s : State) : Host.Outcome State Fault Refusal :=
  .next (objOp { cls := 27, d := d.toNat, val := true, rs := [pairRun a, pairRun b], da := [pairRun a]
                 db := [pairRun b], bad := oddReg a || oddReg b } (fun v s =>
    let w := v.w
    let pc := v.w.readS64 a.toNat
    match fget s.gangs w.gang with
    | none => .fail stNOSPACE
    | some g =>
      let mates := (gangWaves s w.gang).map Prod.snd
      if pc.toNat % 4 ≠ 0 then .fail stBADARG
      else if 32 ≤ mates.length ∨ 64 ≤ (coreWaves s g.core).length ∨
          g.regg * 32768 < sumBy Wave.poolBytes mates + w.poolBytes then .fail stNOSPACE
      else match makeObject s tWAVE (waveRegion s w) (typeRights tWAVE) (dieOf g.core) true with
        | .error st => .fail st
        | .ok m =>
          let idx := (laneIdx.find? fun i => !(mates.any fun x => x.idx == i)).getD 0
          let copy := [2, 3, 4, 5, 6, 7, 10, 11].map fun n => (n, w.readS n)
          let regs := copy.foldl (fun r p => fset r p.1 p.2)
            (pairRegs 8 (w.readS64 b.toNat).toNat |>.foldl (fun r p => fset r p.1 p.2) (fset [] 1 (BitVec.ofNat 32 idx)))
          let nw := startWave w.gang idx w.role w.vn w.sn w.tn (s.time + 5) pc regs
          .ok (enqueueRun (seatWave (setWave m.st m.obj nw) m.obj g.core) m.obj true) m.handle.toNat) s)

/-- Ends a wave at its issue boundary: its log is discarded unperformed and its groups go (R241). -/
def endWave (s : State) (wid self : Nat) : State :=
  if wid = self then modWave s wid fun w => { w with endReq := true } else finishWave s wid

/-- wexit (R241). DESIGN CHOICE: a wave of another region, reached through an inherited handle, ends too (assumption log 88). -/
def execWexit (d a : BitVec 7) (s : State) : Host.Outcome State Fault Refusal :=
  .next (objOp { cls := 27, d := d.toNat, rs := [pairRun a], da := [pairRun a], bad := oddReg a } (fun v s =>
    match v.check s a.toNat [tWAVE] rADMIN with
    | .error st => .fail st
    | .ok e => match getWave s e.obj with
      | none => .fail stDEAD
      | some w =>
        if w.ended then .fail stDEAD
        else if w.priv = .s then .fail stAGAIN
        else .ok (endWave s e.obj v.wid) 0) s)

/-- rspawn (R242, R28, R33): with a region handle too, the wave is made on the issuing wave's die,
the model's choice (log 103). -/
def execRspawn (d a b : BitVec 7) (s : State) : Host.Outcome State Fault Refusal :=
  let rb : List RegRun := if b = 0 then [] else [pairRun b]
  .next (objOp { cls := 27, d := d.toNat, val := true, rs := pairRun a :: rb, da := [pairRun a], db := rb
                 bad := oddReg a || oddReg b } (fun v s =>
    let own := waveRegion s v.w
    let target : Except Nat Nat := if b = 0 then .ok own else (v.check s b.toNat [tREGION] rADMIN).map Entry.obj
    match target with
    | .error st => .fail st
    | .ok rg =>
      let va := (v.w.readS64 a.toNat).toNat
      if va % 8 ≠ 0 then .fail stBADARG
      else match fetchBytes s (effPtroot s own) v.w.gang va 32 with
        | .wait p => .await [p]
        | .bad s1 => .failed s1 stBADARG
        | .ok bs s1 => match launchRange s1 ⟨effPtroot s own, v.w.gang⟩ rg own (waveDie s v.w) (fieldAt bs 0 8)
            (fieldAt bs 8 8) (fieldAt bs 16 8) (fieldAt bs 24 8) (0, 0) none with
          | .wait p => .await [p]
          | .refused s2 st => .failed s2 st
          | .ok m => .ok m.st m.handle.toNat) s)

/-! ### Handles (R243) -/

/-- odup -/
def execOdup (d a b : BitVec 7) (s : State) : Host.Outcome State Fault Refusal :=
  .next (objOp { cls := 27, d := d.toNat, val := true, rs := [pairRun a, .s b.toNat 1, .s (b.toNat + 2) 2]
                 da := [pairRun a], db := [.s b.toNat 1, .s (b.toNat + 2) 2]
                 bad := oddReg a || decide (b.toNat % 4 ≠ 0) } (fun v s =>
    let rg := waveRegion s v.w
    match v.check s a.toNat allTypes rDUP with
    | .error st => .fail st
    | .ok e =>
      let mask := (v.w.readS b.toNat).toNat
      let holder : Except Nat Nat := if v.w.readS64 (b.toNat + 2) = 0 then .ok rg
        else match v.check s (b.toNat + 2) [tREGION] 0 with
          | .error st => .error st
          | .ok r => if within s r.obj rg then .ok r.obj else .error stRIGHTS
      if mask / 256 ≠ 0 then .fail stBADARG
      else match holder with
        | .error st => .fail st
        | .ok r => match newEntry s e.type e.obj (hRights (v.w.readS64 a.toNat) &&& mask) r e.home with
          | none => .fail stNOSPACE
          | some (h, s1) => .ok s1 h.toNat) s)

/-- What the closing of an object's last entry ends (R235, R243): wait sets, timers, ports and proxies; the page charges
of a discarded region stay with its parent (Table 23.5). -/
def lastClosed (s : State) (type obj : Nat) : State :=
  match type with
  | 1 => if regionStatus s obj = 2 then modRegion s obj fun g => { g with cHbm := 0, cDeep := 0 } else s
  | 5 => objectEnded (endPort s obj) obj
  | 6 => objectEnded { s with waitsets := fdel s.waitsets obj } obj
  | 7 => objectEnded { s with timers := fdel s.timers obj } obj
  | 9 => objectEnded { s with proxies := fdel s.proxies obj } obj
  | _ => s

/-- Closes an entry. -/
def closeEntry (s : State) (i : Nat) : State :=
  match fget s.entries i with
  | none => s
  | some e =>
    let s := freeEntry s i
    if (entryOf s e.type e.obj).isNone then lastClosed s e.type e.obj else s

/-- oclose -/
def execOclose (d a : BitVec 7) (s : State) : Host.Outcome State Fault Refusal :=
  .next (objOp { cls := 27, d := d.toNat, rs := [pairRun a], da := [pairRun a], bad := oddReg a } (fun v s =>
    match v.check s a.toNat allTypes 0 with
    | .error st => .fail st
    | .ok _ => .ok (closeEntry s (hIndex (v.w.readS64 a.toNat))) 0) s)

/-! ### Information (Table 13.11) -/

/-- The RCB as one number (Table 3.1). -/
def rcbOf (g : Region) : Nat :=
  g.status * 2 ^ 408 + g.depth * 2 ^ 405 + g.ovr * 2 ^ 392 + g.share * 2 ^ 384 + g.fdom * 2 ^ 379 + g.prio * 2 ^ 376 +
    g.maxcores * 2 ^ 368 + g.mincores * 2 ^ 360 + g.sramg * 2 ^ 344 + g.objq * 2 ^ 320 + g.msgpool * 2 ^ 288 +
    g.energy * 2 ^ 256 + g.deepp * 2 ^ 224 + g.hbmp * 2 ^ 192 + g.trapvec.toNat * 2 ^ 128 + g.ptroot.toNat * 2 ^ 64 +
    g.parentHandle.toNat

/-- The cores a region holds: those on which a gang of it or of a descendant resides (spec/21 R363). -/
def coresOf (s : State) (r : Nat) : List Nat :=
  (s.gangs.filterMap fun p => match fget s.cohorts p.2.cohort with
    | some c => if c.resident && !c.ended && within s c.region r then some p.2.core else none
    | none => none).dedup

/-- The effective energy allowance; 2^32 - 1 is unlimited (spec/21 R365). -/
def energyOf (s : State) (r : Nat) : Nat := eff s 4 Region.energy r

def unlimitedEnergy : Nat := 0xFFFFFFFF

/-- The items of a REGION. -/
def regionItem (s : State) (r n : Nat) : Option Nat :=
  match fget s.regions r with
  | none => none
  | some g =>
    if n < 8 then some (rcbOf g / 2 ^ (64 * n) % 2 ^ 64)
    else match n with
      | 8 => some g.evOver
      | 9 => some (coresOf s r).length
      | 10 => some (if energyOf s r = unlimitedEnergy then 0 else (g.account % 2 ^ 64).toNat)
      | _ => none

/-- An item of an object. -/
def itemOf (s : State) (e : Entry) (n : Nat) : Option Nat :=
  let bit := fun (b : Bool) => if b then 1 else 0
  if n = 255 then some (e.type * 2 ^ 40 + e.rights * 2 ^ 48)
  else match e.type with
    | 1 => regionItem s e.obj n
    | 2 => (fget s.waves e.obj).bind fun w => match n with
      | 0 => some (bit w.ended)
      | 1 => some (placeOf (((fget s.gangs w.gang).map Gang.core).getD 0) w.quad w.slot)
      | _ => none
    | 3 => (fget s.gangs e.obj).bind fun g => if n = 0 then some (bit g.ended) else none
    | 4 => (fget s.ranges e.obj).bind fun r => match n with
      | 0 => some (bit r.complete)
      | 1 => some r.placed
      | 2 => some (sumBy (fun i : Nat × Nat => i.2 - i.1) r.pending)
      | _ => none
    | 5 => (fget s.ports e.obj).bind fun p => match n with
      | 0 => some p.queue.length
      | 1 => some p.cap
      | 2 => some p.borrowed
      | _ => none
    | 6 => (fget s.waitsets e.obj).bind fun m => if n = 0 then some (sumBy (fun p => 2 ^ p.1) m) else none
    | 7 => (fget s.timers e.obj).bind fun t => match n with
      | 0 => some (bit t.armed)
      | 1 => some t.deadline.toNat
      | _ => none
    | 8 => (fget s.segments e.obj).bind fun g => match n with
      | 0 => some g.reserve
      | 1 => some g.commit
      | 2 => some g.status
      | 3 => some g.pages
      | _ => none
    | 9 => (fget s.proxies e.obj).bind fun x => match n with
      | 0 => some x.module
      | 1 => some x.incarn
      | _ => none
    | _ => none

/-- oinfo -/
def execOinfo (d a b : BitVec 7) (s : State) : Host.Outcome State Fault Refusal :=
  .next (objOp { cls := 27, d := d.toNat, val := true, rs := [pairRun a, .s b.toNat 1], da := [pairRun a]
                 db := [.s b.toNat 1], bad := oddReg a } (fun v s =>
    match v.check s a.toNat allTypes rRECV with
    | .error st => .fail st
    | .ok e => match itemOf s e (v.w.readS b.toNat).toNat with
      | none => .fail stBADARG
      | some x => .ok s x) s)

/-! ### Wait sets and timers (R244) -/

/-- Makes an object that has no operand. -/
def makeSimple (d : BitVec 7) (type : Nat) (put : State → Nat → State) (s : State) : State :=
  objOp { cls := 27, d := d.toNat, val := true } (fun v s =>
    match makeObject s type (waveRegion s v.w) (typeRights type) (waveDie s v.w) true with
    | .error st => .fail st
    | .ok m => .ok (put m.st m.obj) m.handle.toNat) s

/-- wsnew -/
def execWsnew (d : BitVec 7) (s : State) : Host.Outcome State Fault Refusal :=
  .next (makeSimple d tWAITSET (fun s o => { s with waitsets := fset s.waitsets o [] }) s)

/-- tnew -/
def execTnew (d : BitVec 7) (s : State) : Host.Outcome State Fault Refusal :=
  .next (makeSimple d tTIMER (fun s o => { s with timers := fset s.timers o ⟨false, 0⟩ }) s)

/-- The status of a member's handle, where its operand is one (R229, R410). -/
def memberHandle (s : State) (rg : Nat) (m : Member) : Option Nat :=
  let chk := fun types need => match checkHandle s rg m.operand types need with
    | .error st => some st
    | .ok _ => none
  match m.kind with
  | 0 => chk [tPORT] rRECV
  | 1 => chk [tPORT, tPROXY] rSEND
  | 2 => chk [tTIMER] rRECV
  | 5 => chk [tWAVE] rRECV
  | 7 => if m.operand = 0 then none else chk [tREGION, tRANGE, tSEGMENT] rRECV
  | _ => none

/-- wsadd (R229, R244) -/
def execWsadd (d a b : BitVec 7) (s : State) : Host.Outcome State Fault Refusal :=
  .next (objOp { cls := 27, d := d.toNat, val := true, rs := [pairRun a, .s b.toNat 6], da := [pairRun a]
                 db := [.s b.toNat 6], bad := oddReg a || oddReg b } (fun v s =>
    match v.check s a.toNat [tWAITSET] rSEND with
    | .error st => .fail st
    | .ok e => match parseMember s v.w b.toNat with
      | none => .fail stBADARG
      | some m => match memberHandle s (waveRegion s v.w) m with
        | some st => .fail st
        | none =>
          let ms := fgetD s.waitsets e.obj []
          let i := freeKey ms 32 0
          if 32 ≤ i then .fail stFULL
          else .ok { s with waitsets := fset s.waitsets e.obj (fset ms i m) } i) s)

/-- wsdel (R244) -/
def execWsdel (d a b : BitVec 7) (s : State) : Host.Outcome State Fault Refusal :=
  .next (objOp { cls := 27, d := d.toNat, rs := [pairRun a, .s b.toNat 1], da := [pairRun a], db := [.s b.toNat 1]
                 bad := oddReg a } (fun v s =>
    match v.check s a.toNat [tWAITSET] rSEND with
    | .error st => .fail st
    | .ok e =>
      let ms := fgetD s.waitsets e.obj []
      let i := (v.w.readS b.toNat).toNat
      if (fget ms i).isNone then .fail stBADARG
      else .ok { s with waitsets := fset s.waitsets e.obj (fdel ms i) } 0) s)

/-- tarm (R244) -/
def execTarm (d a b : BitVec 7) (s : State) : Host.Outcome State Fault Refusal :=
  .next (objOp { cls := 27, d := d.toNat, rs := [pairRun a, pairRun b], da := [pairRun a], db := [pairRun b]
                 bad := oddReg a || oddReg b } (fun v s =>
    match v.check s a.toNat [tTIMER] rSEND with
    | .error st => .fail st
    | .ok e => .ok { s with timers := fset s.timers e.obj ⟨true, v.w.readS64 b.toNat⟩ } 0) s)

/-- tcancel (R244) -/
def execTcancel (d a : BitVec 7) (s : State) : Host.Outcome State Fault Refusal :=
  .next (objOp { cls := 27, d := d.toNat, rs := [pairRun a], da := [pairRun a], bad := oddReg a } (fun v s =>
    match v.check s a.toNat [tTIMER] rSEND with
    | .error st => .fail st
    | .ok e => .ok { s with timers := fmod s.timers e.obj fun t => { t with armed := false } } 0) s)

/-! ### Amber segments (R249, R250, spec/17 R309-R314) -/

/-- Maps the pages of a segment. -/
def mapSegment (s : State) (root : DWord) (rg die base : Nat) (fs : List Nat) : Option State :=
  ((numsFrom 0 fs.length).zip fs).foldl (fun (a : Option State) p => a.bind fun s =>
    mapPage s root rg die (base + 65536 * p.1) (hbmLeaf p.2 true true false)) (some s)

/-- anew (R249). DESIGN CHOICE: the frames are the free ones of the issuing wave's die; none is made free for them, and where there
are too few of them the status is NOSPACE (assumption log 89). -/
def execAnew (d a b : BitVec 7) (s : State) : Host.Outcome State Fault Refusal :=
  .next (objOp { cls := 27, d := d.toNat, val := true, rs := [pairRun a, .s b.toNat 1], da := [pairRun a]
                 db := [.s b.toNat 1], bad := oddReg a } (fun v s =>
    let rg := waveRegion s v.w
    let root := effPtroot s rg
    let die := waveDie s v.w
    let base := (v.w.readS64 a.toNat).toNat
    let n := (v.w.readS b.toNat).toNat
    if base % 65536 ≠ 0 ∨ n < 1 ∨ 65536 < n ∨ 0xFFFF700000000000 < base + 65536 * n then .fail stBADARG
    else
    let s := settleWalks s root base n
    if !rangeUnmapped s root base n then .failed s stBADARG
    else if !mayCharge s .hbm rg n then .failed s stBUDGET
    else if rangeHeld s root base n then .hold
    else match makeObject s tSEGMENT rg (typeRights tSEGMENT) die true with
      | .error st => .failed s st
      | .ok m => match takeFrames m.st die n [] with
        | none => .failed s stNOSPACE
        | some (fs, s1) => match mapSegment (charge s1 .hbm rg n) root rg die base fs with
          | none => .failed s stNOSPACE
          | some s2 =>
            if !mayCharge s2 .hbm rg 0 then .failed s stBUDGET
            else .ok { s2 with segments := fset s2.segments m.obj {
              region := rg, root := root, frames := fs, base := BitVec.ofNat 64 base, pages := n, reserve := 0, commit := 0
              status := 0, frozenAt := 0, sealDone := false, blocks := [], replicas := [], remotes := [], freer := rg
              handle := m.handle, gone := false } } m.handle.toNat) s)

/-- aseal: the seal is taken at acceptance; OK comes once the commit tail equals the frozen tail (R250, R312). -/
def execAseal (d a : BitVec 7) (s : State) : Host.Outcome State Fault Refusal :=
  .next (objOp { cls := 27, d := d.toNat, rs := [pairRun a], da := [pairRun a], bad := oddReg a } (fun v s =>
    match v.check s a.toNat [tSEGMENT] rSEND with
    | .error st => .fail st
    | .ok e => match fget s.segments e.obj with
      | none => .fail stDEAD
      | some g =>
        if g.status ≠ 0 then .fail stSEALED
        else
          let now := g.commit == g.reserve
          let g2 := { g with status := 1, frozenAt := g.reserve, sealDone := now }
          let s := { s with segments := fset s.segments e.obj g2 }
          if now then .ok s 0 else .due s (.seal e.obj)) s)

/-- afree: OK at acceptance; an open segment is sealed first, and the modules that share its pages are asked to remove their
mappings (R250, R314; spec/19 R334). -/
def execAfree (d a : BitVec 7) (s : State) : Host.Outcome State Fault Refusal :=
  .next (objOp { cls := 27, d := d.toNat, rs := [pairRun a], da := [pairRun a], bad := oddReg a } (fun v s =>
    match v.check s a.toNat [tSEGMENT] rADMIN with
    | .error st => .fail st
    | .ok e => match fget s.segments e.obj with
      | none => .fail stDEAD
      | some g =>
        if g.status = 2 then .fail stSEALED
        else
          let frozen := if g.status = 0 then g.reserve else g.frozenAt
          let g2 := { g with status := 2, frozenAt := frozen, freer := waveRegion s v.w }
          .ok (g.remotes.foldl (fun t m => transmitFor t (waveRegion s v.w) m)
            { s with segments := fset s.segments e.obj g2 }) 0) s)

/-- atail (R250, R311) -/
def execAtail (d a b : BitVec 7) (s : State) : Host.Outcome State Fault Refusal :=
  .next (objOp { cls := 27, d := d.toNat, val := true, rs := [pairRun a, .s b.toNat 1], da := [pairRun a]
                 db := [.s b.toNat 1], bad := oddReg a } (fun v s =>
    match v.check s a.toNat [tSEGMENT] rRECV with
    | .error st => .fail st
    | .ok e => match fget s.segments e.obj, (v.w.readS b.toNat).toNat with
      | some g, 0 => .ok s g.reserve
      | some g, 1 => .ok s g.commit
      | _, _ => .fail stBADARG) s)

/-! ### Segment events -/

/-- The place of a byte of a segment. -/
def Segment.byteAddr (g : Segment) (o : Nat) : Nat := g.frames.getD (o / 65536) 0 * 65536 + o % 65536

/-- The commit tail: the greatest offset below which every byte has landed (R310). -/
def commitTail : Nat → Nat → List Block → Nat
  | 0, c, _ => c
  | fuel + 1, c, bs => match bs.find? fun b => b.landed && b.off == c with
    | some b => commitTail fuel (c + b.data.length) bs
    | none => c

/-- The pages of a segment that a block lies in. -/
def Block.pages (b : Block) : List Nat :=
  numsFrom (b.off / 65536) ((b.off + b.data.length - 1) / 65536 - b.off / 65536 + 1)

/-- Whether a block waits for the checkpoint copy of a page it lands in (spec/17 R320). -/
def blockWaits (s : State) (g : Segment) (b : Block) : Bool :=
  b.pages.any fun i => ckptHolds s (g.frames.getD i 0) || tablesHeld s g.root (g.base.toNat + 65536 * i)

/-- COMMIT_TAIL_ADVANCE: the bytes of one appended block land, and the commit tail passes what it can (R309, R310). -/
def execCommitTailAdvance (seg blk : Nat) (s : State) : Host.Outcome State Fault Refusal :=
  .next (match fget s.segments seg with
    | none => s
    | some g => match g.blocks[blk]? with
      | none => s
      | some b =>
        if b.landed || g.gone || blockWaits s g b then s
        else
          let s := ((numsFrom b.off b.data.length).zip b.data).foldl (fun s p =>
            { s with mem := setByte s.mem (g.byteAddr p.1) p.2 }) s
          let s := b.pages.foldl
            (fun s i => match pageLeaf s g.root (g.base.toNat + 65536 * i) with
              | some (a, e, _) => markDirty s (genFor s g.region g.root) a e
              | none => s) s
          let bs := g.blocks.set blk { b with landed := true }
          let c := commitTail bs.length g.commit bs
          let bs := bs.filter fun b => !(b.landed && decide (b.off + b.data.length ≤ c))
          { s with segments := fset s.segments seg { g with blocks := bs, commit := c } })

/-- Writes the statuses of aseals that wait on a segment. -/
def settleSeal (s : State) (seg : Nat) : State := s.waves.foldl (fun s p => settleDue s p.1 (.seal seg) 0) s

/-- ASEAL_DONE: the commit tail equals the frozen tail, and the aseal's status is written (R250, R312). -/
def execAsealDone (seg : Nat) (s : State) : Host.Outcome State Fault Refusal :=
  .next (match fget s.segments seg with
    | none => s
    | some g =>
      if g.status = 0 ∨ g.sealDone ∨ g.commit ≠ g.frozenAt then s
      else settleSeal { s with segments := fset s.segments seg { g with sealDone := true } } seg)

/-- Whether a freed segment waits for a checkpoint copy of its pages, or its leaves cannot be written (spec/17 R320, spec/25 R395). -/
def freeWaits (s : State) (g : Segment) : Bool :=
  g.frames.any (ckptHolds s) || rangeHeld s g.root g.base.toNat g.pages

/-- AFREE_DONE: replicas and shared mappings go, the pages are unmapped and freed, and FREEDONE is raised in the region
that freed the segment (R250, R314), once every module that shared them has acknowledged (spec/19 R334) and its pages and their
leaves may be written. -/
def execAfreeDone (seg : Nat) (s : State) : Host.Outcome State Fault Refusal :=
  .next (match fget s.segments seg with
    | none => s
    | some g =>
      if g.status ≠ 2 ∨ g.gone ∨ g.commit ≠ g.frozenAt ∨ g.remotes ≠ [] ∨ freeWaits s g then s
      else
        let s := settleSeal s seg
        let s := g.replicas.foldl (fun s r => freeFrame s r.2) s
        let s := dropReceived s fun _ _ b _ => b.shared == some seg
        let s := unmapRange s g.root g.region g.base.toNat g.pages
        let s := { s with segments := fset s.segments seg { g with gone := true, replicas := [], blocks := [] } }
        objectEnded (pushEvent s g.freer 2 g.handle) seg)

/-- REPLICA_CREATE: a die with more than 16384 free frames takes a replica of a sealed page (R313). Reads of a replica
return the same bytes, so it is a frame taken and no more. -/
def execReplicaCreate (seg page die : Nat) (s : State) : Host.Outcome State Fault Refusal :=
  .next (match fget s.segments seg with
    | none => s
    | some g =>
      if g.status ≠ 1 ∨ g.gone ∨ g.commit ≠ g.frozenAt ∨ g.pages ≤ page ∨ 3 < die ∨ freeHbm s die ≤ 16384 ∨
          g.replicas.any (fun r => r.1 == page * 4 + die) then s
      else match takeHbm s die with
        | none => s
        | some (f, s1) =>
          { askedBy (pageTraffic (copyFrame s1 (g.frames.getD page 0) f) (g.frames.getD page 0) f) noRegion with
            segments := fset s1.segments seg { g with replicas := (page * 4 + die, f) :: g.replicas } })

end Sys2Proof.Machine
end

