-- ==== Sys2Proof/Machine/Regions.lean ====
section
/-! DEFINITION. Regions: creation, field writes, discard by request, and the release that follows a discard (spec/03
R23-R27; spec/13 R251; spec/21 R363-R365; spec/23 R385, R386; spec/25 R398). -/

namespace Sys2Proof.Machine

open Sys2Proof

/-! ### Fields (Table 3.1) -/

/-- Writes field `n` of a region, 0 to 12 by override bit and 13 OVR; none when the value breaks its limits (R24). -/
def Region.withField (g : Region) (n x : Nat) : Option Region :=
  let lim := fun (hi : Nat) (r : Region) => if x ≤ hi then some r else none
  match n with
  | 0 => if x % 65536 = 0 ∧ x < 2 ^ 64 then some { g with ptroot := BitVec.ofNat 64 x } else none
  | 1 => if x % 4 = 0 ∧ x < 2 ^ 64 then some { g with trapvec := BitVec.ofNat 64 x } else none
  | 2 => lim 0xFFFFFFFF { g with hbmp := x }
  | 3 => lim 0xFFFFFFFF { g with deepp := x }
  | 4 => lim 0xFFFFFFFF { g with energy := x }
  | 5 => lim 0xFFFFFFFF { g with msgpool := x }
  | 6 => lim 1048576 { g with objq := x }
  | 7 => lim 12288 { g with sramg := x }
  | 8 => lim 255 { g with mincores := x }
  | 9 => if x = 0 then none else lim 192 { g with maxcores := x }
  | 10 => lim 7 { g with prio := x }
  | 11 => lim 1 { g with fdom := x }
  | 12 => if x = 0 then none else lim 255 { g with share := x }
  | 13 => lim 8191 { g with ovr := x }
  | _ => none

/-- Where field `n` lies in the RCB: its lowest bit and its width. -/
def rcbField (n : Nat) : Nat × Nat :=
  match n with
  | 0 => (64, 64)
  | 1 => (128, 64)
  | 2 => (192, 32)
  | 3 => (224, 32)
  | 4 => (256, 32)
  | 5 => (288, 32)
  | 6 => (320, 24)
  | 7 => (344, 16)
  | 8 => (360, 8)
  | 9 => (368, 8)
  | 10 => (376, 3)
  | 11 => (379, 1)
  | 12 => (384, 8)
  | _ => (392, 13)

/-- A region as its RCB image gives it, RO fields ignored; none when a reserved field is nonzero or a value breaks its
limits (R24, R251). -/
def regionOfImage (img : Nat) (depth : Nat) (parent : Nat) (parentHandle : DWord) : Option Region :=
  let blank : Region := {
    status := 0, depth := depth, ovr := 0, share := 1, fdom := 0, prio := 0, maxcores := 1, mincores := 0, sramg := 0
    objq := 0, msgpool := 0, energy := 0, deepp := 0, hbmp := 0, trapvec := 0, ptroot := 0
    parentHandle := parentHandle, handle := 0, parent := some parent, index := 0
    cSram := 0, cHbm := 0, cDeep := 0, cObj := 0, cMsg := 0, vserv := 0, account := 0, events := [], evOver := 0
    progress := 0, deadFor := 0, deadRaised := false, gen := 0, ckDest := none, ckRoom := 0, ckNext := 0, ckCut := false
    ckRun := none, discarding := false }
  if img / 2 ^ 410 ≠ 0 ∨ img / 2 ^ 380 % 16 ≠ 0 then none
  else (numsFrom 0 14).foldl (fun (g : Option Region) n =>
    g.bind fun g => g.withField n (img / 2 ^ (rcbField n).1 % 2 ^ (rcbField n).2)) (some blank)

/-! ### Changes (R23, R251, R364, R365) -/

/-- The effective MINCORES and MAXCORES of a region. -/
def coreBounds (s : State) (r : Nat) : Nat × Nat := (eff s 8 Region.mincores r, eff s 9 Region.maxcores r)

/-- Whether a change of a region leaves MINCORES at most MAXCORES in it and in every descendant it alters (R364). -/
def coreBoundsOk (old new : State) (r : Nat) : Bool :=
  (subtree new r).all fun d =>
    decide ((coreBounds new d).1 ≤ (coreBounds new d).2) || (d != r && coreBounds new d == coreBounds old d)

/-- Sets the account of every region that a change has given a limited energy allowance (R365). -/
def openAccounts (old new : State) (r : Nat) : State :=
  (subtree new r).foldl (fun s d =>
    if energyOf new d ≠ unlimitedEnergy ∧ ((fget old.regions d).isNone ∨ energyOf old d = unlimitedEnergy) then
      modRegion s d fun g => { g with account := energyOf new d }
    else s) new

/-- Creates a child region for an issuing region (R23, R251). A DISCARDED region is none of the 4 096 (assumption log 74). DESIGN CHOICE:
the RCB is state of its own and takes no frame of HBM (assumption log 65). -/
def createRegion (s : State) (parent issuer home : Nat) (img : List (BitVec 8)) : Except Nat Made :=
  match fget s.regions parent with
  | none => .error stDEAD
  | some p =>
    if 7 ≤ p.depth then .error stBADARG
    else if 4096 ≤ (s.regions.filter fun x => x.2.status != 2).length then .error stNOSPACE
    else match regionOfImage (leNat img) (p.depth + 1) parent p.handle with
      | none => .error stBADARG
      | some g =>
        if !coreBoundsOk s { s with regions := fset s.regions s.serial g } s.serial then .error stBADARG
        else match makeObject s tREGION issuer (typeRights tREGION) home true with
          | .error st => .error st
          | .ok m =>
            let g2 := { g with handle := m.handle, index := hIndex m.handle }
            let t := { m.st with regions := fset m.st.regions m.obj g2 }
            .ok { m with st := openAccounts s t m.obj }

/-- Writes a field of a region: 0 to 12 by override bit, 13 OVR, 14 STATE (R251). The root's limits also keep within the
module's totals (R409). -/
def setRegion (s : State) (r n x : Nat) : Except Nat State :=
  match fget s.regions r with
  | none => .error stDEAD
  | some g =>
    if n = 14 then match x with
      | 0 => .ok (placementDue (modRegion s r fun g => { g with status := 0, progress := 0 }) fun _ => true)
      | 1 => .ok (modRegion s r fun g => { g with status := 1 })
      | 2 => if faultDomain s r = r then .ok (discard s r) else .error stBADARG
      | _ => .error stBADARG
    else
      let overRoot := g.parent.isNone && ((n == 2 && decide (12582912 < x)) || (n == 3 && decide (25165824 < x)))
      if overRoot then .error stBADARG
      else match g.withField n x with
        | none => .error stBADARG
        | some g2 =>
          let t := { s with regions := fset s.regions r g2 }
          if coreBoundsOk s t r then .ok (openAccounts s t r) else .error stBADARG

/-- rgnew (R251): the home of the region is the issuing wave's die, the model's choice (log 103). -/
def execRgnew (d a b : BitVec 7) (s : State) : Host.Outcome State Fault Refusal :=
  .next (objOp { cls := 27, d := d.toNat, val := true, rs := [pairRun a, pairRun b], da := [pairRun a]
                 db := [pairRun b], bad := oddReg a || oddReg b, priv := true } (fun v s =>
    let rg := waveRegion s v.w
    match v.check s a.toNat [tREGION] rADMIN with
    | .error st => .fail st
    | .ok e =>
      let va := (v.w.readS64 b.toNat).toNat
      if va % 64 ≠ 0 then .fail stBADARG
      else match fetchBytes s (effPtroot s rg) v.w.gang va 64 with
        | .wait p => .await [p]
        | .bad s1 => .failed s1 stBADARG
        | .ok img s1 => match createRegion s1 e.obj rg (waveDie s v.w) img with
          | .error st => .failed s1 st
          | .ok m => .ok m.st m.handle.toNat) s)

/-- rgset (R251): the target is a strict descendant of the issuing region. -/
def execRgset (d a b : BitVec 7) (s : State) : Host.Outcome State Fault Refusal :=
  let rb : List RegRun := [.s b.toNat 1, .s (b.toNat + 2) 2]
  .next (objOp { cls := 27, d := d.toNat, rs := pairRun a :: rb, da := [pairRun a], db := rb
                 bad := oddReg a || decide (b.toNat % 4 ≠ 0), priv := true } (fun v s =>
    let rg := waveRegion s v.w
    match v.check s a.toNat [tREGION] rADMIN with
    | .error st => .fail st
    | .ok e =>
      if e.obj = rg ∨ !within s e.obj rg then .fail stRIGHTS
      else match setRegion s e.obj (v.w.readS b.toNat).toNat (v.w.readS64 (b.toNat + 2)).toNat with
        | .error st => .fail st
        | .ok s' => .ok s' 0) s)

/-! ### Release after a discard (R386) -/

/-- Whether an append of a discarded subtree has reserved bytes that have not landed. -/
def landsStill (s : State) (sub : List Nat) : Bool :=
  s.segments.any fun p => p.2.blocks.any fun b => !b.landed && (match getWave s b.wave with
    | some w => sub.contains (waveRegion s w)
    | none => false)

/-- Ends a cohort of a discarded region: its waves and gangs are dead, its SRAM and slots released. Pages stay mapped;
a CSA is released. -/
def dropCohort (s : State) (c : Nat) : State :=
  match fget s.cohorts c with
  | none => s
  | some k =>
    if k.ended then s
    else
      let root := effPtroot s k.region
      let s := k.gangs.foldl (fun s g => match fget s.gangs g with
        | none => s
        | some gg =>
          let s := if k.resident then uncharge s .sram k.region (gg.regg + gg.spadg + gg.accg) else s
          let s := if gg.csa then unmapRange s root k.region (csaBase gg.index) (csaPages gg) else s
          let s := { s with waves := fmapv (fun _ w => if w.gang == g && !w.ended then
              { w with ended := true, chain := none, log := [], groups := [], pend := [], dues := []
                       lanes := splat .exited } else w) s.waves }
          let s := modGang s g fun x => { x with
            ended := true, spad := [], acc := [], slots := [], csa := false
            ctxs := x.ctxs.map fun c => { c with ops := [], stopped := false, halted := false } }
          objectEnded s g) s
      let s := k.gangs.foldl (fun s g => (s.waves.filter fun p => p.2.gang == g).foldl (fun s p => objectEnded s p.1) s) s
      modCohort s c fun x => { x with ended := true, resident := false, saved := false }

/-- Ends a range of a discarded region; its LAUNCH packet completes with DISCARDED. -/
def dropRange (s : State) (r : Nat) : State :=
  match fget s.ranges r with
  | none => s
  | some g =>
    if g.complete then s
    else
      let s := { s with ranges := fset s.ranges r { g with complete := true, pending := [], claims := [] } }
      let s := objectEnded s r
      match g.packet with
      | none => s
      | some pk => completePacket s pk 5

/-- The objects made by regions of a subtree, of one map. -/
def madeBy {α : Type} (s : State) (m : FMap α) (sub : List Nat) : List Nat :=
  (m.map Prod.fst).filter fun o => match fget s.charged o with
    | some c => sub.contains c.region
    | none => false

/-- What the release does to a discarded subtree. -/
def releaseSubtree (s : State) (sub : List Nat) : State :=
  let s := (s.cohorts.filter fun p => sub.contains p.2.region).foldl (fun s p => dropCohort s p.1) s
  let s := (s.ranges.filter fun p => sub.contains p.2.region).foldl (fun s p => dropRange s p.1) s
  let s := (s.host.packets.filter fun p => sub.contains p.2.region && (p.2.type == 3 || p.2.type == 4)).foldl
    (fun s p => completePacket s p.1 5) s
  let s := (s.ports.filter fun p => sub.contains p.2.region).foldl (fun s p => objectEnded (endPort s p.1) p.1) s
  let s := (madeBy s s.waitsets sub).foldl (fun s o => objectEnded { s with waitsets := fdel s.waitsets o } o) s
  let s := (madeBy s s.timers sub).foldl (fun s o => objectEnded { s with timers := fdel s.timers o } o) s
  let s := (madeBy s s.proxies sub).foldl (fun s o =>
    objectEnded { s with proxies := fmod s.proxies o fun x => { x with ended := true } } o) s
  let s := { s with sends := s.sends.filter fun p => p.2.past || !sub.contains p.2.region }
  let s := (s.entries.filter fun p => sub.contains p.2.holder).foldl (fun s p => closeEntry s p.1) s
  let s := sub.foldl objectEnded s
  { s with clusters := fmapv (fun _ c => match c.head with
      | some u => if sub.contains (unitRegion s u) then { c with head := none, reserved := [], due := true } else c
      | none => c) s.clusters }

/-- DISCARD_RELEASE: every access that Table 23.5 lets perform has performed; the subtree's storage and entries are
released, its objects end, and the parent receives CHILDDISCARD (R386). -/
def execDiscardRelease (rg : Nat) (s : State) : Host.Outcome State Fault Refusal :=
  .next (match fget s.regions rg with
    | none => s
    | some g =>
      let sub := subtree s rg
      if !g.discarding || g.status != 2 || landsStill s sub then s
      else
        let s := releaseSubtree s sub
        let s := modRegion s rg fun g => { g with discarding := false }
        match g.parent with
        | none => s
        | some p => placementDue (pushEvent s p 3 g.handle) fun _ => true)

end Sys2Proof.Machine
end

