-- ==== Sys2Proof/Machine/Context.lean ====
section
/-! DEFINITION. The context save area: its mapping, the images it holds, the items the device writes, and the state a
restored wave takes from them (spec/05 R64-R66; spec/13 R256-R258; spec/23 R376-R380). -/

namespace Sys2Proof.Machine

open Sys2Proof

/-! ### Reads and writes through the region's tables -/

/-- What an access to a CSA gives. -/
inductive CsaAccess (α : Type) where
  | ok (x : α)
  | wait (va : Nat)
  | fail (cause : Nat) (va : Nat)

/-- Stores bytes from a VA up. -/
def storeVA (s : State) (root : DWord) (gen va : Nat) (bs : List (BitVec 8)) : CsaAccess State :=
  match engReach s root 0 va bs.length .write with
  | .ok p =>
    let r := prepareList s p.locs
    .ok (setLocs (useLeaves r.1 root p (some gen)) p.locs bs)
  | .wait a => .wait a
  | .fail c a _ => .fail c a

/-- Loads bytes from a VA up. -/
def loadVA (s : State) (root : DWord) (va n : Nat) : CsaAccess (List (BitVec 8) × State) :=
  match engReach s root 0 va n .read with
  | .ok p =>
    let r := prepareList s p.locs
    .ok (p.locs.map (locByte r.1), useLeaves r.1 root p none)
  | .wait a => .wait a
  | .fail c a _ => .fail c a

/-- The parts of a VA range that lie in one page each: address and length. -/
def pagePieces (va n : Nat) : List (Nat × Nat) :=
  (numsFrom 0 ((va % 65536 + n + 65535) / 65536)).map fun i =>
    let lo := if i = 0 then va else (va / 65536 + i) * 65536
    (lo, min (va + n) ((va / 65536 + i + 1) * 65536) - lo)

/-- A page of a CSA made resident, since the device is about to read or write it; none while it cannot be. An instruction's own
access goes on, to end as its translation does. -/
def csaPage (strict : Bool) (s : State) (root : DWord) (die va : Nat) : Option State :=
  match residentNow s root va die with
  | some t => some (resolution s t root va)
  | none => if strict then some s else none

/-- Loads from a CSA, page by page, each page resident before it is read. What software has unmapped is a fault for an instruction's
own load (`strict`) and reads zero for the device's. -/
def csaLoad (strict : Bool) (s : State) (root : DWord) (die va n : Nat) : CsaAccess (List (BitVec 8) × State) :=
  (pagePieces va n).foldl (fun a p => match a with
    | .ok (bs, s) => match csaPage strict s root die p.1 with
      | none => .wait p.1
      | some t => match loadVA t root p.1 p.2 with
        | .ok (b, u) => .ok (bs ++ b, u)
        | .wait x => .wait x
        | .fail c x => if strict then .fail c x else .ok (bs ++ List.replicate p.2 0, t)
    | e => e) (.ok ([], s))

/-- Stores to a CSA, page by page in the same way. -/
def csaStore (strict : Bool) (s : State) (root : DWord) (gen die va : Nat) (bs : List (BitVec 8)) : CsaAccess State :=
  (pagePieces va bs.length).foldl (fun a p => match a with
    | .ok s => match csaPage strict s root die p.1 with
      | none => .wait p.1
      | some t => match storeVA t root gen p.1 ((bs.drop (p.1 - va)).take p.2) with
        | .ok u => .ok u
        | .wait x => .wait x
        | .fail c x => if strict then .fail c x else .ok t
    | e => e) (.ok s)

/-- Several stores to a CSA, one after another. -/
def csaStores (strict : Bool) (s : State) (root : DWord) (gen die : Nat) (items : List (Nat × List (BitVec 8))) : CsaAccess State :=
  items.foldl (fun a i => match a with
    | .ok s => csaStore strict s root gen die i.1 i.2
    | e => e) (.ok s)

/-- The access where it is made; none while it waits. -/
def CsaAccess.made {α : Type} : CsaAccess α → Option α
  | .ok x => some x
  | _ => none

/-- A number that the device reads from a CSA, and the state after; none while it waits for a page. -/
def csaNat (s : State) (root : DWord) (die va n : Nat) : Option (Nat × State) :=
  (csaLoad false s root die va n).made.map fun r => (leNat r.1, r.2)

/-! ### The operand-log image (R376, Table 23.3) -/

def LogEntry.image (e : LogEntry) : List (BitVec 8) :=
  leBytes 8 (e.word.toNat + e.pfx.length * 2 ^ 32) ++ leBytes 4 (e.pfx.getD 0 0).toNat ++
    leBytes 4 (e.pfx.getD 1 0).toNat ++ leBytes 8 (e.pfx.getD 2 0).toNat ++ leBytes 8 e.pc.toNat ++
    leBytes 8 (e.mask.toNat + e.cause % 256 * 2 ^ 32 + e.flane % 32 * 2 ^ 40) ++ leBytes 8 e.base.toNat ++
    leBytes 8 e.disp.toNat ++ leBytes 8 e.fva.toNat ++ laneIdx.flatMap (fun l => leBytes 4 (e.vo.getD l 0).toNat) ++
    leBytes 8 (e.rm % 8 + (if e.ftz then 8 else 0) + e.ptag.toNat % 4096 * 16) ++ leBytes 8 e.seed.toNat ++
    leBytes 8 e.seq ++ leBytes 296 0

/-- The entry an image holds. -/
def entryOfImage (bs : List (BitVec 8)) : LogEntry :=
  let f := fieldAt bs
  { since := 0
    word := BitVec.ofNat 32 (f 0 4)
    pfx := (numsFrom 0 (min (f 4 1 % 4) 3)).map fun i => BitVec.ofNat 32 (f (8 + 4 * i) 4)
    pc := BitVec.ofNat 64 (f 0x18 8), mask := BitVec.ofNat 32 (f 0x20 4), cause := f 0x24 1, flane := f 0x25 1 % 32
    fva := BitVec.ofNat 64 (f 0x38 8), base := BitVec.ofNat 64 (f 0x28 8), disp := BitVec.ofNat 64 (f 0x30 8)
    vo := laneIdx.map fun l => BitVec.ofNat 32 (f (0x40 + 4 * l) 4)
    rm := f 0xC0 1 % 8, ftz := f 0xC0 1 / 8 % 2 == 1, ptag := BitVec.ofNat 32 (f 0xC0 2 / 16)
    seed := BitVec.ofNat 64 (f 0xC8 8), seq := f 0xD0 8 }

/-! ### Parked-group records (Table 5.5) -/

/-- A record; a REGIONEVENT member keeps its code in the handle's place and its handle in the value's (assumption log
13). -/
def Group.record (g : Group) : List (BitVec 8) :=
  let parts : Nat × Nat × Nat := match g.on with
    | .set h => (0, h.toNat, 0)
    | .inline m => (1 + 2 * m.kind,
        (match m.kind with
          | 4 => m.ctx
          | 7 => m.code
          | _ => m.operand.toNat),
        (match m.kind with
          | 7 => m.operand.toNat
          | _ => m.value.toNat))
  leBytes 4 g.mask.toNat ++ leBytes 4 parts.1 ++ leBytes 8 parts.2.1 ++ leBytes 8 parts.2.2 ++
    leBytes 8 g.deadline.toNat

/-- The group a record holds. -/
def groupOfRecord (bs : List (BitVec 8)) : Group :=
  let f := fieldAt bs
  let kind := f 4 4 / 2 % 8
  let x := f 8 8
  let v := f 16 8
  let on : WaitOn := if f 4 4 % 2 = 0 then .set (BitVec.ofNat 64 x)
    else match kind with
      | 4 => .inline ⟨4, 0, x % 8, 0, BitVec.ofNat 64 v⟩
      | 7 => .inline ⟨7, BitVec.ofNat 64 v, 0, x % 256, 0⟩
      | _ => .inline ⟨kind, BitVec.ofNat 64 x, 0, 0, BitVec.ofNat 64 v⟩
  ⟨BitVec.ofNat 32 (f 0 4), on, BitVec.ofNat 64 (f 24 8), none⟩

/-- The groups in ascending order of their lowest lane. -/
def Wave.sortedGroups (w : Wave) : List Group :=
  sortBy (fun a b => decide (lowLane a.mask ≤ lowLane b.mask)) w.groups

/-! ### The wave block (Table 5.4, R379) -/

/-- The offset of a wave's block. -/
def waveBlock (idx : Nat) : Nat := 0x1000 + 0x6000 * idx

/-- Bytes of zero up to a length. -/
def padded (n : Nat) (bs : List (BitVec 8)) : List (BitVec 8) := bs ++ List.replicate (n - bs.length) 0

/-- The items the device writes before a PREEMPT handler issues, by offset in the wave block. -/
def Wave.deviceItems (w : Wave) : List (Nat × List (BitVec 8)) :=
  let lanes := fun f => leBytes 4 (maskOf fun l => f (w.held.lanes.getD l .exited)).toNat
  [(0x444C, lanes (· != .exited) ++ lanes (· == .parked) ++ leBytes 12 0),
   (0x4468, leBytes 8 w.iseq.toNat ++ leBytes 16 w.deadV.toNat ++ leBytes 16 w.deadS.toNat ++ leBytes 48 0),
   (0x44C0, laneIdx.flatMap fun l => leBytes 8 (w.held.pcs.getD l 0).toNat),
   (0x45C0, leBytes 4 w.tcause.toNat ++ leBytes 4 w.tlog.toNat ++ leBytes 8 w.tpc.toNat ++ leBytes 8 w.tresume.toNat ++
      leBytes 8 w.taddr.toNat ++ leBytes 32 0),
   (0x4600, padded 64 (leBytes 8 w.scra.toNat ++ leBytes 8 w.scrb.toNat ++ leBytes 8 w.scrc.toNat ++ leBytes 8 w.scrd.toNat)),
   (0x4640, padded 2048 (w.log.flatMap LogEntry.image)),
   (0x4E40, padded 1024 (w.sortedGroups.flatMap Group.record)),
   (0x5240, leBytes 0xDC0 0)]

/-- Writes the device's items of a wave; none while a page of its block cannot be made resident. -/
def writeDeviceItems (s : State) (root : DWord) (die base : Nat) (w : Wave) : Option State :=
  (csaStores false s root (regionGen s (waveRegion s w)) die (w.deviceItems.map fun i => (base + waveBlock w.idx + i.1, i.2))).made

/-- Maps the CSA of a gang in zeroed frames, charged to HBMP whatever the limits (R378); none while no frame can be made
free. -/
def mapCsa (s : State) (root : DWord) (rg : Nat) (g : Gang) : Option State :=
  (numsFrom 0 (csaPages g)).foldl (fun (a : Option State) i => a.bind fun s =>
    let s0 := dropReplicas (dieOf g.core) 1 s
    if tablesHeld s0 root (csaBase g.index + 65536 * i) then none
    else
    let s1 := if freeHbm s0 (dieOf g.core) < 16384 then
        (match victim s0 fun l _ => l.frame / Config.hbmPages == dieOf g.core with
          | some v => evict s0 v
          | none => s0)
      else s0
    (takeHbm s1 (dieOf g.core)).bind fun x =>
      mapPage (traffic (charge (zeroFrame x.2 x.1) .hbm rg 1) rg 0 65536) root rg (dieOf g.core) (csaBase g.index + 65536 * i)
        (hbmLeaf x.1 true false false)) (some s)

/-- The saved-wave mask that a gang block holds (spec/05 R65), read from a die; none while it cannot be read. -/
def savedMask (s : State) (root : DWord) (die : Nat) (g : Gang) : Option (Word × State) :=
  (csaNat s root die (csaBase g.index + 0x10) 4).map fun r => (BitVec.ofNat 32 r.1, r.2)

/-! ### A restored wave (R380) -/

/-- The first byte and the length of the part of a wave block that the device reads at a restore (R380). -/
def restoredPart : Nat × Nat := (0x4440, 0xE00)

/-- The wave that a restore enters in S mode, from the bytes of its block that hold the items of R379; SR.TLOG takes its DEFER and a COUNT of at
most 4, its other bits reading zero (spec/05 R73). What SR.MODE, SR.FLAGS, SR.SEED, SR.PTAG and the
scratch registers hold until the handler writes them is not stated: free values (assumption log 2). -/
def restoredWave (fresh : Nat) (bs : List (BitVec 8)) (base : Nat) (vec : DWord) (wid : Nat) (w : Wave) : Wave :=
  let free := fun k => Config.freeValue ((fresh * 2 ^ 20 + wid) * 8 + k)
  let ld := fun off n => fieldAt bs (off - restoredPart.1) n
  let live : Word := BitVec.ofNat 32 (ld 0x444C 4)
  let park : Word := BitVec.ofNat 32 (ld 0x4450 4)
  let pcs := laneIdx.map fun l => BitVec.ofNat 64 (ld (0x44C0 + 8 * l) 8)
  let lanes := laneIdx.map fun l => if !bitAt live l then LaneState.exited else if bitAt park l then .parked else .live
  let tlog := ld 0x45C4 4 / 8 % 2 * 8 + min (ld 0x45C4 4 % 8) 4
  let recs := (numsFrom 0 32).map fun i => groupOfRecord (leBytes 32 (ld (0x4E40 + 32 * i) 32))
  { w with
    v := [], s := [], p := [], t := []
    deadV := BitVec.ofNat 128 (ld 0x4470 16), deadS := BitVec.ofNat 128 (ld 0x4480 16)
    pcs := splat vec, lanes := splat .live, priv := .s, held := ⟨pcs, lanes⟩, chain := none
    mode := BitVec.ofNat 32 (free 0 % 1024), flags := BitVec.ofNat 32 (free 1 % 64)
    seed := BitVec.ofNat 64 (free 2), ptag := BitVec.ofNat 32 (free 3 % 4096)
    iseq := BitVec.ofNat 64 (ld 0x4468 8)
    tcause := 0x116, tpc := BitVec.ofNat 64 (ld 0x45C8 8), tresume := BitVec.ofNat 64 (ld 0x45D0 8)
    taddr := BitVec.ofNat 64 base, tlog := BitVec.ofNat 32 tlog
    scra := BitVec.ofNat 64 (free 4), scrb := BitVec.ofNat 64 (free 5), scrc := BitVec.ofNat 64 (free 6)
    scrd := BitVec.ofNat 64 (free 7)
    log := (numsFrom 0 (tlog % 8)).map fun n => entryOfImage (leBytes 512 (ld (0x4640 + 512 * n) 512))
    groups := recs.filter fun g => g.mask != 0
    pend := w.pend.filter fun p => p.ctx.isNone
    dues := [], frozen := false, saved := false, trapCtx := none, inSave := false, inRestore := true, restored := true }

/-! ### Remainder descriptors (R257, Tables 13.17, 13.17b) -/

/-- The op word of an operation in context k. -/
def EngOp.opWord (o : EngOp) (k : Nat) : Nat :=
  o.cls % 32 + o.fn % 8 * 2 ^ 5 + k % 8 * 2 ^ 8 + o.acc % 16 * 2 ^ 11 + (if o.bar.isSome then 2 ^ 15 else 0) +
    o.rm % 8 * 2 ^ 16 + (if o.ftz then 2 ^ 19 else 0) + o.sat % 4 * 2 ^ 20 + o.wave % 32 * 2 ^ 22

/-- The barrier offset of an operation, 0 where it names none. -/
def EngOp.barBits (o : EngOp) : Nat := (o.bar.getD 0).toNat

/-- A descriptor of 112 bytes. -/
def EngOp.descriptor (o : EngOp) (k : Nat) : List (BitVec 8) :=
  let head := leBytes 4 o.num ++ leBytes 4 (o.opWord k)
  if o.cls = 24 then
    head ++ leBytes 16 o.ta.toNat ++ leBytes 16 o.tb.toNat ++ leBytes 4 o.shape.toNat ++ leBytes 4 o.pat.toNat ++
      leBytes 8 o.idx.toNat ++ leBytes 4 o.barBits ++ leBytes 4 (landedPrefix o.landed) ++ leBytes 8 o.pc.toNat ++
      leBytes 40 0
  else
    head ++ leBytes 4 o.fmt.toNat ++ leBytes 4 (if o.fn = 7 then o.barBits else o.shape.toNat) ++ leBytes 16 o.ta.toNat ++
      leBytes 16 o.tb.toNat ++ leBytes 16 o.ta1.toNat ++ leBytes 16 o.tb1.toNat ++ leBytes 8 o.idx.toNat ++
      leBytes 8 o.pc.toNat ++ leBytes 8 o.seed.toNat ++ leBytes 8 o.seq

/-- The operation a descriptor names, its number completed below the submission count; `who` gives the wave of an index. What no descriptor holds, the
bytes its writes replaced, the chunks landed out of order and the flags still to post, is kept from the operation as it
was when it stopped (R97, R211). -/
def opOfDescriptor (bs : List (BitVec 8)) (subm : Nat) (old : List EngOp) (who : Nat → Nat) : EngOp :=
  let f := fieldAt bs
  let w := f 4 4
  let num := subm - (subm % 2 ^ 32 + 2 ^ 32 - f 0 4) % 2 ^ 32
  let bv := fun off => BitVec.ofNat 128 (f off 16)
  let copy := w % 32 == 24
  let fn := w / 2 ^ 5 % 8
  let bar := if w / 2 ^ 15 % 2 = 1 then some (BitVec.ofNat 32 (f (if copy then 56 else 12) 4)) else none
  let prev := old.find? fun o => o.num == num
  let done := f 60 4
  let extra := match prev with
    | some o => if landedPrefix o.landed = done then o.landed.filter (fun c => decide (done ≤ c)) else []
    | none => []
  { num := num, cls := w % 32, fn := fn, acc := w / 2 ^ 11 % 16, rm := w / 2 ^ 16 % 8, ftz := w / 2 ^ 19 % 2 == 1
    sat := w / 2 ^ 20 % 4, wave := w / 2 ^ 22 % 32, owner := who (w / 2 ^ 22 % 32), bar := bar
    ta := if copy then bv 8 else bv 16, tb := if copy then bv 24 else bv 32
    ta1 := if copy then 0 else bv 48, tb1 := if copy then 0 else bv 64
    shape := BitVec.ofNat 32 (if copy then f 40 4 else if fn = 7 then 0 else f 12 4)
    pat := if copy then BitVec.ofNat 32 (f 44 4) else 0
    idx := BitVec.ofNat 64 (f (if copy then 48 else 80) 8)
    fmt := if copy then 0 else BitVec.ofNat 32 (f 8 4)
    seed := if copy then 0 else BitVec.ofNat 64 (f 96 8), seq := if copy then 0 else f 104 8
    pc := BitVec.ofNat 64 (f (if copy then 64 else 88) 8)
    landed := if copy then extra ++ numsFrom 0 done else [], idxs := []
    undo := (prev.map EngOp.undo).getD [], flags := (prev.map EngOp.flags).getD 0 }

end Sys2Proof.Machine
end

