-- ==== Sys2Proof/Machine/Traps.lean ====
section
/-! DEFINITION. Entry of pending traps, the return from a trap, PREEMPT, the save of a gang, and the end of a save (spec/11
R175, R197-R200; spec/23 R371-R381). -/

namespace Sys2Proof.Machine

open Sys2Proof

/-! ### Pre-emption (R360, R377) -/

/-- The place of PREEMPT in the order of R373; engine faults are 20 and up, POOLOVF 30, DEADLOCK and STALL 40. -/
def oPREEMPT : Nat := 50

/-- Raises PREEMPT in every wave of every gang of a cohort and sets the saved-wave masks (R65, R377). -/
def raisePreempt (s : State) (c : Nat) : State :=
  match fget s.cohorts c with
  | none => s
  | some k =>
    if k.preempted || !k.resident || k.ended then s
    else
      let s := modCohort s c fun x => { x with preempted := true, raisedAt := s.time, entered := false }
      k.gangs.foldl (fun s g =>
        let live := gangWaves s g
        let mask := maskOf fun i => live.any fun p => p.2.idx == i
        let s := modGang s g fun x => { x with preempted := true, mask := mask }
        live.foldl (fun s p => addPending s p.1 ⟨oPREEMPT, cPREEMPT, 0, none, 0, none⟩) s) s

/-- The leader of a gang: its lowest-indexed live wave (R377). -/
def leaderOf (s : State) (g : Nat) : Option (Nat × Wave) := (gangWaves s g).head?

/-! ### Where a wave stands at a boundary -/

/-- The issue PC at which a wave stopped; with every lane parked, the least PC of the lanes that have not exited
(assumption log 14). -/
def Wave.stopPC (w : Wave) : DWord :=
  match w.chain with
  | some c => c.pc
  | none => match w.issuePC with
    | some p => p
    | none => (laneIdx.foldl (fun (m : Option DWord) l =>
        if w.lane l = .exited then m
        else match m with
          | none => some (w.pc l)
          | some p => if (w.pc l).toNat < p.toNat then some (w.pc l) else m) none).getD 0

/-! ### Entry of pending traps (R373, R377-R379) -/

/-- Stops every context of a gang (R255). -/
def haltContexts (s : State) (g : Nat) : State :=
  modGang s g fun x => { x with ctxs := x.ctxs.map fun c => { c with halted := true } }

/-- PREEMPT entry: the hold ends, contexts stop, the CSA is mapped at the gang's first entry, the cohort's age as a waiting
unit begins with its first (spec/21 R358), and the device writes its items, each page resident before it is written; none while the
entry waits for a frame (R377-R379). -/
def enterPreempt (s : State) (wid : Nat) (w : Wave) (tresume : DWord) : Option State :=
  match fget s.gangs w.gang with
  | none => none
  | some g =>
    let rg := gangRegion s w.gang
    let root := effPtroot s rg
    let s := haltContexts (modWave s wid fun w => { w with frozen := false }) w.gang
    (if g.csa then some s else mapCsa s root rg g).bind fun s =>
      let s := modCohort (modGang s w.gang fun x => { x with csa := true }) g.cohort fun k =>
        if k.entered then k else { k with entered := true, age := 0, aged := false }
      let base := BitVec.ofNat 64 (csaBase g.index)
      let s := takeTrap s wid ⟨cPREEMPT, 0, w.stopPC, tresume, base, false⟩
      match getWave s wid with
      | some w' =>
        if w'.priv = .s then
          (writeDeviceItems s root (dieOf g.core) (csaBase g.index) w').map fun s =>
            modWave (askedBy s rg) wid fun w => { w with inSave := true }
        else some s
      | none => some s

/-- Enters the first pending trap of a wave; none when it cannot be entered now. -/
def enterFirst (s : State) (wid : Nat) (w : Wave) (tresume : DWord) : Option State :=
  match w.pend with
  | [] => none
  | p :: rest =>
    let s := modWave s wid fun w => { w with pend := rest }
    if p.cause = cPREEMPT then enterPreempt s wid w tresume
    else
      let tpc := p.tpc.getD w.stopPC
      let s := modWave s wid fun w => { w with frozen := false, trapCtx := p.ctx }
      some (takeTrap s wid ⟨p.cause, p.info, tpc, tresume, p.taddr, false⟩)

/-- Whether a wave may take a trap at its boundary now: in U mode, and not held, unless PREEMPT ends the hold, which then
ends with the first trap entered (R253, R373, R377; assumption log 69). In a chain whose last word has not issued the
boundary is the one before its first word (spec/07 R107): entry drops the prefix words read. A send that has gone out to another
module ends when its reply is reported (spec/19 R323; assumption log 82): until then the wave is at no boundary. -/
def atBoundary (s : State) (wid : Nat) (w : Wave) : Bool :=
  !w.ended && !w.saved && w.priv == .u && s.host.powered &&
  regionStatus s (waveRegion s w) != 2 && (!w.frozen || w.pend.any fun p => p.cause == cPREEMPT) &&
  !sendStands s wid w

/-- TRAP_ENTRY: a wave takes the first of its pending traps at an issue boundary (R371, R373). A deferred-precise trap
goes first. -/
def execTrapEntry (w : Nat) (s : State) : Host.Outcome State Fault Refusal :=
  .next (match getWave s w with
    | none => s
    | some v =>
      if !atBoundary s w v || v.log.head?.any (·.cause != 0) then s
      else (enterFirst s w v v.stopPC).getD s)

/-- DEFERRED_PRECISE_TRAP: the oldest log entry cannot be resolved, and the wave enters its trap once what it issued has
completed (R200, Table 11.10). -/
def execDeferredPreciseTrap (w : Nat) (s : State) : Host.Outcome State Fault Refusal :=
  .next (match getWave s w with
    | none => s
    | some v => match v.log with
      | [] => s
      | e :: _ =>
        if !atBoundary s w v || e.cause == 0 || !v.dues.isEmpty then s
        else
          let info := ((memOpOf e.word).map fun op => memInfoBits op e.flane).getD 0
          takeTrap (modWave s w fun x => { x with frozen := false }) w ⟨e.cause, info, e.pc, v.stopPC, e.fva, true⟩)

/-! ### The return from a trap (R175, R374, R381) -/

/-- A context about to retry reads its row indices anew (spec/13 R219). -/
def Ctx.restart (c : Ctx) : Ctx := { c with ops := c.ops.map fun o => { o with idxs := [] } }

/-- Ends the trap of an engine fault: its context retries (R207). After creplay the first return of the gang makes the
contexts it re-entered stopped retry as well (R258). -/
def retryContexts (s : State) (w : Wave) : State :=
  let s := match w.trapCtx with
    | some k => modCtx s w.gang k fun c => { c.restart with stopped := false }
    | none => s
  if w.inRestore then
    modGang s w.gang fun g => { g with ctxs := g.ctxs.map fun c =>
      if c.retry then { c.restart with stopped := false, retry := false } else c }
  else s

/-- Whether the return of a restore handler may act: creplay is done, the leader's stores have performed (R381), and nothing holds the
tables of the CSA that goes (spec/17 R320). -/
def restoreReady (s : State) (w : Wave) : Bool :=
  !w.inRestore || (match fget s.gangs w.gang with
    | none => false
    | some g => g.replayed && !rangeHeld s (effPtroot s (gangRegion s w.gang)) (csaBase g.index) (csaPages g) && (match leaderOf s w.gang with
      | some l => appendsInFlight s l.1 == 0
      | none => true))

/-- When every wave of a restored gang has returned, its CSA goes and its contexts run (R381). -/
def closeRestore (s : State) (g : Nat) : State :=
  match fget s.gangs g with
  | none => s
  | some gg =>
    if gg.restoring && !(gangWaves s g).any (fun p => p.2.inRestore) then
      let rg := gangRegion s g
      modGang (unmapRange s (effPtroot s rg) rg (csaBase gg.index) (csaPages gg)) g fun x =>
        { x with restoring := false, replayed := false, csa := false, returned := [] }
    else s

/-- The held state restored: the lanes at the held issue PC take SR.TRESUME (R175). -/
def Wave.resumeHeld (w : Wave) : Wave :=
  let h : Wave := { w with pcs := w.held.pcs, lanes := w.held.lanes, chain := none }
  let pcs := match h.issuePC with
    | none => h.pcs
    | some m => laneIdx.map fun l => if h.lane l == .live && h.pc l == m then w.tresume else h.pc l
  { h with pcs := pcs, held := ⟨[], []⟩, priv := .u, inSave := false, inRestore := false, trapCtx := none }

/-- What ereturn does once it may act: a pending trap is entered in place of the return, which leaves the log as it stands; else the
entries of the operand log perform afresh, the oldest first (R199, R374). None while the entry of a PREEMPT must wait: the wave then
stays in S, so that the entry comes from this ereturn. -/
def returnFromTrap (s : State) (wid : Nat) (w : Wave) : Option State :=
  let s := retryContexts s w
  let s := modWave s wid Wave.resumeHeld
  let s := if w.inRestore then closeRestore s w.gang else s
  let s := modRegion (modWave (reevaluate 64 s wid 0) wid fun w => { w with ready := s.time + 5 }) (waveRegion s w)
    fun g => { g with progress := 0 }
  match getWave s wid with
  | none => some s
  | some v =>
    if laneIdx.all (fun l => v.lane l == .exited) then some (finishWave s wid)
    else if !v.pend.isEmpty then enterFirst s wid v w.tresume
    else some (replay 4 (modWave s wid fun v => { v with log := v.log.map fun e => { e with cause := 0 } }) wid)

/-- The state in which a return acts: one from a restore handler has loaded SR.SCRA to SR.SCRD from the wave's block (R381); none
while it waits. -/
def returnState (s : State) (wid : Nat) (w : Wave) : Option State :=
  if !restoreReady s w then none
  else if !w.inRestore then some s
  else (fget s.gangs w.gang).bind fun g =>
    (csaLoad false s (effPtroot s (waveRegion s w)) (dieOf g.core) (csaBase g.index + waveBlock w.idx + 0x4600) 32).made.map fun r =>
      let ld := fun k => BitVec.ofNat 64 (fieldAt r.1 (8 * k) 8)
      modGang (modWave (askedBy r.2 (waveRegion s w)) wid fun w => { w with scra := ld 0, scrb := ld 1, scrc := ld 2, scrd := ld 3 }) w.gang
        fun g => { g with returned := w.idx :: g.returned }

/-- ereturn (R175, R374, R381) -/
def execEreturn (s : State) : Host.Outcome State Fault Refusal :=
  .next (issue s (fun _ _ => { cls := 17, priv := true }) fun v s =>
    match (returnState s v.wid v.w).bind fun t => returnFromTrap t v.wid v.w with
    | some t => .raw t
    | none => .hold)

/-! ### The end of a save (R259, R356) -/

/-- The leader's gsaved: the gang's placement is released. Its scratchpad and accumulators belong to it no longer. -/
def releaseGang (s : State) (g : Nat) : State :=
  match fget s.gangs g with
  | none => s
  | some gg =>
    let s := modGang s g fun x => { x with released := true, spad := [], acc := [] }
    finishSave s gg.cohort

end Sys2Proof.Machine
end

