-- ==== Sys2Proof/Machine/Supervisor.lean ====
section
/-! DEFINITION. Supervisor instructions: class 28 (spec/13 R252-R259), and the checkpoint mark (spec/23 R388, R389). -/

namespace Sys2Proof.Machine

open Sys2Proof

/-! ### wread, wwrite, wresume (R253, R254) -/

/-- The wave S(sa)[4:0] of the issuing gang, for wread, wwrite and wresume: BADARG when it has ended, AGAIN when it is
another wave that has taken PREEMPT (R377). -/
def targetWave (v : Env) (s : State) (a : BitVec 7) : Except Nat (Nat × Wave) :=
  match (gangWaves s v.w.gang).find? fun p => p.2.idx == (v.w.readS a.toNat).toNat % 32 with
  | none => .error stBADARG
  | some p =>
    if p.1 ≠ v.wid ∧ (p.2.inSave || p.2.inRestore || p.2.saved) = true then .error stAGAIN else .ok p

/-- A selector (Table 13.15). -/
structure Selector where
  kind : Nat
  num : Nat
  lane : Nat
  word : Nat
  deriving DecidableEq, Repr

/-- The selector of a wave's state; none when it is BADARG. -/
def parseSelector (w : Wave) (x : Nat) : Option Selector :=
  let q : Selector := ⟨x / 2 ^ 28, x / 2 ^ 16 % 128, x / 2 ^ 8 % 32, x % 4⟩
  let zero := x / 2 ^ 23 % 32 == 0 && x / 2 ^ 13 % 8 == 0 && x / 2 ^ 2 % 64 == 0
  let held := match q.kind with
    | 0 => w.holdsV q.num
    | 1 => decide (q.num < w.sn)
    | 2 => decide (q.num < 16)
    | 3 => decide (q.num < w.tn)
    | 4 | 5 => true
    | 6 => srWidth q.num != 0
    | _ => false
  if zero && held then some q else none

/-- Holds another wave in U mode at its boundary (R253): it issues nothing, and its trap registers read as Table 11.10
with DEFER 0. -/
def holdWave (s : State) (self wid : Nat) (w : Wave) : State :=
  if wid = self ∨ w.priv = .s ∨ w.frozen = true then s
  else
    let stop := w.stopPC
    let tpc := ((w.log.head?).map LogEntry.pc).getD stop
    let cause := match w.log.head? with
      | some e => if e.cause = 0 then w.tcause else BitVec.ofNat 32
          (((memOpOf e.word).map fun op => memInfoBits op e.flane).getD 0 % 256 * 256 + e.cause)
      | none => w.tcause
    setWave s wid { w with
      frozen := true, chain := none, tpc := tpc, tresume := stop, tcause := cause
      tlog := BitVec.ofNat 32 (min w.log.length 4) }

/-- Whether the hold of another wave waits: its send that has gone out keeps it from its boundary (assumption log 82). -/
def waitsBoundary (s : State) (self wid : Nat) (w : Wave) : Bool :=
  wid != self && w.priv == .u && !w.frozen && sendStands s wid w

/-- The lane PCs and states that wread and wwrite see: the held ones of a wave in S mode. -/
def Wave.seenPC (w : Wave) (l : Nat) : DWord := if w.priv = .s then w.held.pcs.getD l 0 else w.pc l
def Wave.seenLane (w : Wave) (l : Nat) : LaneState := if w.priv = .s then w.held.lanes.getD l .exited else w.lane l

def laneCode : LaneState → Nat
  | .live => 0
  | .parked => 1
  | .exited => 2

/-- The state a selector names. -/
def selectRead (s : State) (w : Wave) (q : Selector) : Nat :=
  match q.kind with
  | 0 => (w.vlane q.num q.lane).toNat
  | 1 => (w.readS q.num).toNat
  | 2 => (w.readP q.num).toNat
  | 3 => (w.readT q.num).toNat / 2 ^ (32 * q.word) % 2 ^ 32
  | 4 => (w.seenPC q.lane).toNat
  | 5 => laneCode (w.seenLane q.lane)
  | _ => srRead s w q.num

/-- wread (R253) -/
def execWread (d a b : BitVec 7) (s : State) : Host.Outcome State Fault Refusal :=
  .next (objOp { cls := 28, d := d.toNat, val := true, rs := [.s a.toNat 1, .s b.toNat 1], da := [.s a.toNat 1]
                 db := [.s b.toNat 1], priv := true } (fun v s =>
    match targetWave v s a with
    | .error st => .fail st
    | .ok (wid, w) => match parseSelector w (v.w.readS b.toNat).toNat with
      | none => .fail stBADARG
      | some q =>
        if waitsBoundary s v.wid wid w then .hold
        else
        let s := holdWave s v.wid wid w
        .ok s (selectRead s ((getWave s wid).getD w) q)) s)

/-- Sets the seen PC of a lane. -/
def Wave.setSeenPC (w : Wave) (l : Nat) (x : DWord) : Wave :=
  if w.priv = .s then { w with held := { w.held with pcs := w.held.pcs.set l x } } else { w with pcs := w.pcs.set l x }

/-- Sets the seen state of a lane, which leaves its group. -/
def Wave.setSeenLane (w : Wave) (l : Nat) (x : LaneState) : Wave :=
  let gs := (w.groups.map fun g => { g with mask := g.mask &&& ~~~ BitVec.ofNat 32 (2 ^ l) }).filter fun g => g.mask != 0
  let w := { w with groups := gs }
  if w.priv = .s then { w with held := { w.held with lanes := w.held.lanes.set l x } }
  else { w with lanes := w.lanes.set l x }

/-- Writes the state a selector names; the status when it is refused. DESIGN CHOICE: nonzero reserved bits of a special register
give BADARG, and a lane state equal to the lane's own gives OK and changes nothing (assumption log 90). -/
def selectWrite (s : State) (wid : Nat) (w : Wave) (q : Selector) (x : Nat) : Except Nat State :=
  let put := fun (f : Wave → Wave) => (.ok (modWave s wid f) : Except Nat State)
  let x32 : Word := BitVec.ofNat 32 x
  match q.kind with
  | 0 => put fun w => w.writeV q.num (BitVec.ofNat 32 (2 ^ q.lane)) fun _ => x32
  | 1 => put fun w => w.writeS q.num x32
  | 2 => put fun w => w.writeP q.num x32
  | 3 => put fun w =>
    let keep := w.readT q.num &&& ~~~ BitVec.ofNat 128 ((2 ^ 32 - 1) * 2 ^ (32 * q.word))
    w.writeT q.num (keep ||| BitVec.ofNat 128 (x % 2 ^ 32 * 2 ^ (32 * q.word)))
  | 4 => put fun w => w.setSeenPC q.lane (BitVec.ofNat 64 x)
  | 5 => match w.seenLane q.lane, x with
    | .live, 0 | .parked, 1 | .exited, 2 => .ok s
    | .parked, 0 => put fun w => w.setSeenLane q.lane .live
    | .live, 2 | .parked, 2 => put fun w => w.setSeenLane q.lane .exited
    | _, _ => .error stBADARG
  | _ =>
    let y := if srWidth q.num = 1 then x % 2 ^ 32 else x
    if srWritable q.num && !srReservedBits q.num y then .ok (srWrite s wid w.gang q.num y) else .error stBADARG

/-- wwrite (R253): the value comes from Sd+2:Sd+3. -/
def execWwrite (d a b : BitVec 7) (s : State) : Host.Outcome State Fault Refusal :=
  .next (objOp { cls := 28, d := d.toNat, rs := [.s a.toNat 1, .s b.toNat 1, .s (d.toNat + 2) 2], da := [.s a.toNat 1]
                 db := [.s b.toNat 1], priv := true, bad := oddReg d } (fun v s =>
    match targetWave v s a with
    | .error st => .fail st
    | .ok (wid, w) => match parseSelector w (v.w.readS b.toNat).toNat with
      | none => .fail stBADARG
      | some q =>
        if q.kind = 6 ∧ !srWritable q.num then .fail stBADARG
        else if waitsBoundary s v.wid wid w then .hold
        else
          let s := holdWave s v.wid wid w
          match selectWrite s wid ((getWave s wid).getD w) q (v.w.readS64 (d.toNat + 2)).toNat with
          | .error st => .fail st
          | .ok s' => .ok s' 0) s)

/-- wresume (R254): the wave's log goes on where the hold stopped it. -/
def execWresume (d a : BitVec 7) (s : State) : Host.Outcome State Fault Refusal :=
  .next (objOp { cls := 28, d := d.toNat, rs := [.s a.toNat 1], da := [.s a.toNat 1], priv := true } (fun v s =>
    match targetWave v s a with
    | .error st => .fail st
    | .ok (wid, w) =>
      if wid = v.wid ∨ !w.frozen then .fail stBADARG
      else
        let s := setWave s wid { w with frozen := false }
        .ok (if laneIdx.all (fun l => w.lane l == .exited) then finishWave s wid else replay 4 s wid) 0) s)

/-! ### gsaved, rdlog (R254, R259) -/

/-- gsaved (R259) -/
def execGsaved (d : BitVec 7) (s : State) : Host.Outcome State Fault Refusal :=
  .next (objOp { cls := 28, d := d.toNat, priv := true } (fun v s =>
    if !v.w.inSave then .fail stBADARG
    else
      let lead := ((leaderOf s v.w.gang).map Prod.fst).getD v.wid
      let others := (gangWaves s v.w.gang).filter fun p => p.1 != lead
      let s' := modWave s v.wid fun w => { w with saved := true, inSave := false }
      if v.wid ≠ lead then .ok s' 0
      else if others.any (fun p => !p.2.saved) || (gangWaves s v.w.gang).any (fun p => appendsInFlight s p.1 != 0) then
        .hold
      else .ok (releaseGang s' v.w.gang) 0) s)

/-- rdlog (R254, R376) -/
def execRdlog (d a b : BitVec 7) (s : State) : Host.Outcome State Fault Refusal :=
  .next (objOp { cls := 28, d := d.toNat, val := true, rs := [.s a.toNat 1, .s b.toNat 1], da := [.s a.toNat 1]
                 db := [.s b.toNat 1], priv := true } (fun v s =>
    let n := (v.w.readS a.toNat).toNat % 4
    let word := (v.w.readS b.toNat).toNat % 64
    if v.w.tlog.toNat % 8 ≤ n then .fail stBADARG
    else match v.w.log[n]? with
      | none => .fail stBADARG
      | some e => .ok s (fieldAt e.image (8 * word) 8)) s)

/-! ### csaveq, creplay (R255-R258) -/

/-- Whether a wave may run csaveq or creplay on a base: it leads its gang and names the gang's CSA. -/
def leadsAt (s : State) (v : Env) (a : BitVec 7) : Bool :=
  ((leaderOf s v.w.gang).map Prod.fst == some v.wid) && (match fget s.gangs v.w.gang with
    | some g => (v.w.readS64 a.toNat).toNat == csaBase g.index
    | none => false)

/-- The descriptors of a gang, context 0 to 7, oldest first. -/
def Gang.descriptors (g : Gang) : List (List (BitVec 8)) :=
  (g.ctxs.zip (numsFrom 0 8)).flatMap fun p => p.1.ops.map fun o => o.descriptor p.2

/-- The index of a context's first descriptor. -/
def Gang.firstOf (g : Gang) (k : Nat) : Nat := sumBy (fun c : Ctx => c.ops.length) (g.ctxs.take k)

/-- The four words of a context in the gang block (Tables 5.3, 13.16). -/
def Gang.ctxWords (g : Gang) (k : Nat) : List (BitVec 8) :=
  match g.ctxs[k]? with
  | none => leBytes 32 0
  | some c =>
    let n := c.ops.length
    leBytes 8 c.subm ++ leBytes 8 c.tl ++ leBytes 8 (c.prog % 65536) ++
      leBytes 8 ((if c.stopped || c.retry then 256 else 0) + (if n = 0 then 0 else g.firstOf k * 8 + n))

/-- The gang block (R65). -/
def Gang.block (g : Gang) : List (BitVec 8) :=
  padded 0x40 (leBytes 4 (g.regg + g.spadg * 256 + g.accg * 65536) ++ leBytes 4 (countOnes g.mask) ++
      leBytes 4 g.gidx ++ leBytes 4 g.eflags.toNat ++ leBytes 4 g.mask.toNat) ++
    padded 0x1C0 ((numsFrom 0 8).flatMap g.ctxWords) ++ padded 0xE00 g.descriptors.flatten

/-- The accumulator image (R61, R64). -/
def Gang.accImage (g : Gang) : List (BitVec 8) :=
  (numsFrom 0 (2 * g.accg * 4096)).flatMap fun k => leBytes 4 (fgetD g.acc k 0).toNat

/-- csaveq (R256) -/
def execCsaveq (d a : BitVec 7) (s : State) : Host.Outcome State Fault Refusal :=
  .next (objOp { cls := 28, d := d.toNat, val := true, rs := [pairRun a], da := [pairRun a], bad := oddReg a
                 priv := true } (fun v s =>
    if !v.w.inSave || !leadsAt s v a then .fail stBADARG
    else match fget s.gangs v.w.gang with
      | none => .fail stBADARG
      | some g =>
        let root := effPtroot s (waveRegion s v.w)
        let base := csaBase g.index
        match csaStores true s root (regionGen s (waveRegion s v.w)) (dieOf g.core) [(base, g.block), (base + 0xC1000 + g.spadg * 0x8000, g.accImage)] with
        | .ok s' => .ok (askedBy s' (waveRegion s v.w)) g.descriptors.length
        | .wait va => .await [va]
        | .fail c va => .trap c 96 (BitVec.ofNat 64 va)) s)

/-- The state word of context k in a gang block. -/
def ctxState (blk : List (BitVec 8)) (k : Nat) : Nat := fieldAt blk (0x58 + 32 * k) 8

/-- The descriptor numbers that context k lists. -/
def ctxList (blk : List (BitVec 8)) (k : Nat) : List Nat := numsFrom (ctxState blk k / 8 % 32) (ctxState blk k % 8)

/-- Whether a descriptor disagrees with the context that lists it. -/
def descriptorBad (blk : List (BitVec 8)) (k n : Nat) : Bool :=
  let f := fieldAt blk
  let at' := 0x200 + 112 * n
  let w := f (at' + 4) 4
  let subm := f (0x40 + 32 * k) 8
  let num : Int := (subm : Int) - (((subm % 2 ^ 32 + 2 ^ 32 - f at' 4) % 2 ^ 32 : Nat) : Int)
  w % 32 != (if k < 4 then 24 else 25) || w / 2 ^ 8 % 8 != k || w / 2 ^ 27 != 0 ||
  !decide ((f (0x48 + 32 * k) 8 : Int) < num ∧ num ≤ subm)

/-- Whether a gang block is malformed (R65, R258). -/
def blockBad (blk : List (BitVec 8)) : Bool :=
  let f := fieldAt blk
  let lists := (numsFrom 0 8).map (ctxList blk)
  let all := lists.flatten
  let used := 0x200 + 3584
  f 0x14 0x2C != 0 || f 0x140 0xC0 != 0 || f used (0x1000 - used) != 0 ||
  f 4 4 != countOnes (BitVec.ofNat 32 (f 0x10 4)) ||
  (numsFrom 0 8).any (fun k =>
    let x := ctxState blk k
    x / 2 ^ 9 != 0 || decide (4 < x % 8) || decide (32 < x / 8 % 32 + x % 8) ||
    (ctxList blk k).any (descriptorBad blk k)) ||
  !decide all.Nodup || decide (32 < all.length)

/-- The wave of a gang that has an index, 0 where none has: the owner that a descriptor names (R257). -/
def waveOfIndex (s : State) (g i : Nat) : Nat := (((gangWaves s g).find? fun p => p.2.idx == i).map Prod.fst).getD 0

/-- A context as creplay re-enters it. -/
def replayedCtx (blk : List (BitVec 8)) (old : Ctx) (who : Nat → Nat) (k : Nat) : Ctx :=
  let f := fieldAt blk
  let subm := f (0x40 + 32 * k) 8
  let tl := f (0x48 + 32 * k) 8
  let ops := (ctxList blk k).map fun n => opOfDescriptor ((blk.drop (0x200 + 112 * n)).take 112) subm old.ops who
  let faulted := ctxState blk k / 256 % 2 == 1
  { subm := subm, tl := tl
    done := (numsFrom (tl + 1) (subm - tl)).filter fun n => !ops.any fun o => o.num == n
    ops := ops, prog := f (0x50 + 32 * k) 8 % 65536, stopped := faulted, halted := false, retry := faulted
    refault := if faulted then ops.head?.map EngOp.num else none }

/-- The accumulators an image gives. -/
def accOfImage (bs : List (BitVec 8)) (n : Nat) : FMap Word :=
  (numsFrom 0 n).filterMap fun k =>
    let x := fieldAt bs (4 * k) 4
    if x = 0 then none else some (k, BitVec.ofNat 32 x)

/-- creplay (R258): the whole word of the gang block becomes SR.EFLAGS, reserved bits with it,
the model's choice (log 97). -/
def execCreplay (d a : BitVec 7) (s : State) : Host.Outcome State Fault Refusal :=
  .next (objOp { cls := 28, d := d.toNat, val := true, rs := [pairRun a], da := [pairRun a], bad := oddReg a
                 priv := true } (fun v s =>
    if !v.w.inRestore || !leadsAt s v a then .fail stBADARG
    else match fget s.gangs v.w.gang with
      | none => .fail stBADARG
      | some g =>
        let root := effPtroot s (waveRegion s v.w)
        let base := csaBase g.index
        match csaLoad true s root (dieOf g.core) base 0x1000 with
        | .wait va => .await [va]
        | .fail c va => .trap c 64 (BitVec.ofNat 64 va)
        | .ok (blk, s1) => match csaLoad true s1 root (dieOf g.core) (base + 0xC1000 + g.spadg * 0x8000) (2 * g.accg * 16384) with
          | .wait va => .await [va]
          | .fail c va => .trap c 64 (BitVec.ofNat 64 va)
          | .ok (acc, s2) =>
            if blockBad blk then .trap cOBJ stBADARG 0
            else
              let cs := (g.ctxs.zip (numsFrom 0 8)).map fun p => replayedCtx blk p.1 (waveOfIndex s v.w.gang) p.2
              let s3 := modGang (askedBy s2 (waveRegion s v.w)) v.w.gang fun x => { x with
                ctxs := cs, eflags := BitVec.ofNat 32 (fieldAt blk 0xC 4), acc := accOfImage acc (2 * g.accg * 4096)
                replayed := true }
              .ok s3 (sumBy (fun c : Ctx => c.ops.length) cs)) s)

/-! ### tlbinv, ckmark (R254, R388, R389) -/

/-- tlbinv -/
def execTlbinv (d a b : BitVec 7) (s : State) : Host.Outcome State Fault Refusal :=
  .next (objOp { cls := 28, d := d.toNat, rs := [pairRun a, .s b.toNat 1], da := [pairRun a], db := [.s b.toNat 1]
                 bad := oddReg a, priv := true } (fun v s =>
    let va := (v.w.readS64 a.toNat).toNat
    let n := (v.w.readS b.toNat).toNat
    let root := effPtroot s (waveRegion s v.w)
    if n ≠ 0 ∧ va % 65536 ≠ 0 then .fail stBADARG
    else
      let drops := fun (k : Nat) => k / 2 ^ 48 == root.toNat / 65536 &&
        (n == 0 || decide ((k + 2 ^ 48 - va / 65536) % 2 ^ 48 < n))
      .ok { s with tlb := s.tlb.filter fun p => !drops p.1 } 0) s)

/-- The pages of an address space that a checkpoint opening generation g + 1 must copy (R389). -/
def pendingPages (s : State) (root : DWord) (gen : Nat) : List Nat :=
  (entriesFrom s 4 0 root.toNat 0).flatMap fun x =>
    let va := x.1
    let e := x.2.2.2
    let big := x.2.1 == 2
    let leaf := pLeaf e && (x.2.1 == 3 || big) && !leafBad e big
    let csa := decide (0xFFFF600000000000 ≤ va ∧ va < 0xFFFF640000000000)
    let sealed' := !pSaved e && sealedPage s e
    if leaf && !isStackVA va && !csa && !pCwin e && !pGranted e && decide (pTier e < 2) &&
        ((pDirty e && pDgen e != (gen + 1) % 16) || sealed') then
      numsFrom (va / 65536) (if big then 8192 else 1)
    else []

/-- The DGEN of the leaf that maps a page. -/
def pageDgen (s : State) (root : DWord) (page : Nat) : Nat := ((pageLeafAny s root (page * 65536)).map fun x => pDgen x.2.1).getD 0

/-- Opens the next generation of a region that owns its address space, and starts the copy of the last one (R389). -/
def startCheckpoint (s : State) (r : Nat) (packet : Option Nat) : Except Nat (Nat × State) :=
  match fget s.regions r with
  | none => .error stDEAD
  | some g =>
    if (g.parent.isSome && g.ovr % 2 == 0) || g.ckDest.isNone then .error stBADARG
    else if g.ckRun.isSome then .error stAGAIN
    else if g.ckCut then .error stNOSPACE
    else
      let s := settleTables s g.ptroot
      let pend := pendingPages s g.ptroot g.gen
      let run : CkptRun := {
        gen := g.gen, pend := pend, dgens := pend.foldl (fun m p => fset m p (pageDgen s g.ptroot p)) []
        pages := 0, base := g.ckNext, at' := g.ckNext + 64, room := g.ckRoom - 64
        cut := decide (g.ckRoom < 64), packet := packet }
      .ok (g.gen + 1, modRegion s r fun g => { g with gen := g.gen + 1, ckRun := some run })

/-- ckmark -/
def execCkmark (d a : BitVec 7) (s : State) : Host.Outcome State Fault Refusal :=
  .next (objOp { cls := 28, d := d.toNat, val := true, rs := [pairRun a], da := [pairRun a], bad := oddReg a
                 priv := true } (fun v s =>
    match v.check s a.toNat [tREGION] 0 with
    | .error st => .fail st
    | .ok e => match startCheckpoint s e.obj none with
      | .error st => .fail st
      | .ok (n, s') => .ok s' n) s)

end Sys2Proof.Machine
end

