-- ==== Sys2Proof/Machine/Paging.lean ====
section
/-! DEFINITION. Events of the Cistern: fills, migrations to and from the host, checkpoint copies and images (spec/15 R275,
R276, R285-R290; spec/23 R388-R391; spec/25 R396, R403). -/

namespace Sys2Proof.Machine

open Sys2Proof

/-! ### Fills (R265, R275) -/

/-- PAGE_FILL: the Cistern resolves a fault on a page of a region's address space and releases the waiters; for a
host-side page it starts the migration. `die` gives the frame of a stack or host-side page. -/
def execPageFill (rg va die : Nat) (s : State) : Host.Outcome State Fault Refusal :=
  .next (if (fget s.regions rg).isNone then s
    else
      let root := effPtroot s rg
      replayAll (askedBy (resolutionFor s (resolvePage s root va (die % 4)) rg root va) rg))

/-! ### Migration (R289, R290, R396) -/

/-- Migratable under R287: a 64 KiB leaf in HBM that the manager may choose. -/
def movable (s : State) (root : DWord) (va : Nat) : Bool :=
  match pageLeaf s root va with
  | some (a, e, f) => evictable s ⟨0, root, va, a, e, f⟩
  | none => false

/-- The region of an INDEX (R396). -/
def regionOfIndex (s : State) (i : Nat) : Option (Nat × Region) :=
  s.regions.find? fun p => p.2.index == i && p.2.status != 2

/-- The result word's BUSY. -/
def migBusy (s : State) : Bool := s.host.migResult.getLsbD 63

/-- Ends the command with a result. -/
def migDone (s : State) (r : Nat) : State := modHost s fun h => { h with migResult := BitVec.ofNat 64 r, mig := none }

/-- Serves the command that MIGCMD runs, once it does not wait: completes it, or sets MIG and leaves it running (R289, R290,
R396). One that finds its page under MIG, or pending for a checkpoint's copy or with a leaf that cannot be written (spec/17 R320, R395),
or during a firmware restart, waits with BUSY set (R404). -/
def serveMig (s : State) : State :=
  match s.host.mig with
  | none => s
  | some j =>
    if s.host.bootstate = 4 ∨ j.going.isSome then s
    else match regionOfIndex s j.region with
      | none => migDone s 2
      | some (r, _) =>
        let root := effPtroot s r
        let s := settleWalk s root j.va
        let start := fun (f : Nat) => modHost (startMove s root j.va f 0) fun h => { h with mig := some { j with going := some f } }
        if j.va % 65536 ≠ 0 then migDone s 2
        else match walk s root j.va with
          | .leaf _ e f big =>
            if ckptHolds s f || leavesHeld s f then s
            else if j.cmd / 2 % 2 = 1 then
              (if pTier e ≠ 2 ∨ big = true then migDone s 1 else migDone (retarget s f fun e => pSet e 11 false) 0)
            else if pMig e then (if (fget s.migs f).isSome then s else migDone s 1)
            else if j.cmd % 2 = 0 then
              (if pTier e = 2 then migDone s 0
               else if !movable s root j.va then migDone s 1
               else start f)
            else if pTier e ≠ 2 then migDone s 0
            else if pPin e || pAmber e || pGranted e then migDone s 1
            else if fourthMove s f then migDone (retarget s f fun e => pSet e 11 true) 0
            else start f
          | _ => migDone s 2

/-- A page moves into HBM (R289); none where no frame can be had. -/
def moveToDevice (s : State) (rg : Nat) (root : DWord) (frame die : Nat) : Option State :=
  (bringHome s root frame die).map fun x =>
    noteMove (endMove x.2 frame fun l => landedLeaf x.2 x.1 (genFor x.2 rg l.root) l.e) x.1

/-- A page moves to the host frame that the driver gave (R289), pinned there by its fourth move in the window (R290). DESIGN CHOICE: the
window is tested as the move completes, for a move to the device as it is asked for (assumption log 104). -/
def moveToHost (s : State) (root : DWord) (frame given : Nat) : State :=
  let r := pageCharge s root frame
  let h := hostBase / 65536 + given % (hostBase / 65536)
  let pin := fourthMove s frame
  let s1 := movePage (settleFrame s frame) frame h
  let s2 := { s1 with hostL2 := s1.hostL2.filter fun p => p.1 / 512 != h }
  let s3 := endMove s2 frame fun l => pSet (pField (pField l.e 8 2 2) 22 36 h) 11 pin
  noteMove (pageTraffic (uncharge (freeFrame s3 frame) .hbm r 1) frame h) h

/-- The page under MIG that an event names. -/
def migrationOf (s : State) (root : DWord) (va : Nat) : Option (Nat × Migration) :=
  s.migs.find? fun p => p.2.va / 65536 == va / 65536 && (p.2.root == root || (rootOwner s p.2.root).isNone) ||
    p.2.leaves.any fun l => l.root == root && l.va / 65536 == va / 65536

/-- MIGRATION_DONE: the move of a page under MIG completes, the command it was made for ends, and the waiters go on (R277,
R289). A page for which no frame can be had, or unmapped meanwhile, moves nowhere (assumption log 77); one that a checkpoint has still to
copy, or whose leaves cannot be written, waits (spec/17 R320, R395). -/
def execMigrationDone (rg va die : Nat) (s : State) : Host.Outcome State Fault Refusal :=
  .next (match migrationOf s (effPtroot s rg) va with
    | none => s
    | some (f, m) =>
      let job := s.host.mig.bind fun j => if j.going = some f then some j else none
      let ends := fun (t : State) (r : Nat) =>
        replayAll (askedBy (if job.isSome then migDone t r else serveMig t) rg)
      if moveWaits s f m then s
      else if m.leaves.isEmpty then ends (endMove s f Moving.e) 2
      else if isHostPA (f * 65536) then match moveToDevice s rg m.root f (die % 4) with
        | some t => ends (resolutionFor s t rg m.root m.va) 0
        | none => ends (endMove s f Moving.e) 1
      else ends (moveToHost s m.root f ((job.map MigJob.frame).getD 0)) 0)

/-- Writes MIGCMD's registers and starts the command with the values written, unless one is running (R396). -/
def migCommand (s : State) (region va cmd frame : Nat) : State :=
  if migBusy s then s
  else serveMig (modHost s fun h => { h with
    migRegion := BitVec.ofNat 64 region, migVa := BitVec.ofNat 64 va, migCmd := BitVec.ofNat 64 cmd
    migResult := BitVec.ofNat 64 (2 ^ 63), mig := some ⟨region % 2 ^ 20, va % 2 ^ 64, cmd, frame, none⟩ })

/-- Whether the register window takes writes outside identity and status: BOOTSTATE has reached 3 and is 3 or 4 (R393). -/
def windowOpen (s : State) : Bool := s.host.everReady && (s.host.bootstate == 3 || s.host.bootstate == 4)

/-- MIG_TO_HOST (R396): the host frame comes with the driver's request. -/
def execMigToHost (rindex va frame : Nat) (s : State) : Host.Outcome State Fault Refusal :=
  .next (if windowOpen s then migCommand s rindex va 0 frame else s)

/-- MIG_TO_DEVICE (R396) -/
def execMigToDevice (rindex va : Nat) (s : State) : Host.Outcome State Fault Refusal :=
  .next (if windowOpen s then migCommand s rindex va 1 0 else s)

/-- MIG_PIN_RELEASE (R290, R396) -/
def execMigPinRelease (rindex va : Nat) (s : State) : Host.Outcome State Fault Refusal :=
  .next (if windowOpen s then migCommand s rindex va 2 0 else s)

/-! ### Checkpoint copies and images (R389-R391, R403) -/

/-- CHECKPOINT_PAGE_COPY: one pending page is read and its record written, its leaf made clean where its DGEN is what it was at the mark,
a page of a sealed segment marked SAVED, and the writes that waited go on (R389, R403; spec/17 R320); a record that would pass the capacity cuts the image. -/
def execCheckpointPageCopy (rg page : Nat) (s : State) : Host.Outcome State Fault Refusal :=
  .next (match fget s.regions rg with
    | none => s
    | some g => match g.ckRun with
      | none => s
      | some run =>
        let put := fun (s : State) (run : CkptRun) => modRegion s rg fun g => { g with ckRun := some run }
        if !run.pend.contains page then s
        else
          let rest := run.pend.filter (· != page)
          match walk s g.ptroot (page * 65536) with
          | .leaf a e f big =>
            if run.cut || decide (run.room < 65544) then replayAll (put s { run with pend := [], cut := true })
            else
              let s := settleFrame s f
              let bs := leBytes 8 (page * 65536) ++ (numsFrom (f * 65536) 65536).map (devByte s)
              let s := askedBy (pageTraffic (hostWrite s (hostBase + run.at') bs) f (hostBase / 65536)) rg
              let last := !big || !rest.any fun p => p / 8192 == page / 8192
              let copied := fun (e : DWord) =>
                let e2 := if pDgen e = fgetD run.dgens page (pDgen e) then pSet e 16 false else e
                if sealedPage s e then pSet e2 17 true else e2
              let s := if last then modMoving (putEntry s a (copied e)) a copied else s
              replayAll <| put s { run with pend := rest, pages := run.pages + 1, at' := run.at' + 65544, room := run.room - 65544 }
          | _ => replayAll (put s { run with pend := rest }))

/-- The header of an image (R403). -/
def imageHeader (s : State) (run : CkptRun) : List (BitVec 8) :=
  leBytes 8 0x57434B31 ++ leBytes 8 run.gen ++ leBytes 4 Config.dies ++ leBytes 4 Config.cores ++
    leBytes 4 s.host.domainSize ++ leBytes 4 s.host.module ++ leBytes 8 run.pages ++
    leBytes 4 (if run.cut then 1 else 0) ++ leBytes 20 0

/-- Performs a CKPT packet's checkpoint: its destination replaces any earlier one (R391). -/
def runCkptPacket (s : State) (pk : Nat) (p : Packet) : State :=
  let s := modRegion s p.obj fun g => { g with ckDest := some p.a, ckRoom := p.b, ckNext := p.a, ckCut := false }
  match startCheckpoint s p.obj (some pk) with
  | .ok r => r.2
  | .error _ => completePacket s pk 2

/-- CHECKPOINT_IMAGE_DONE: every page is copied or the image is cut; the header is written, its magic word last, the CKPT
packet completes, and one that waits for the address space begins (R391, R403). -/
def execCheckpointImageDone (rg : Nat) (s : State) : Host.Outcome State Fault Refusal :=
  .next (match fget s.regions rg with
    | none => s
    | some g => match g.ckRun with
      | none => s
      | some run =>
        if !run.pend.isEmpty then s
        else
          let fits := decide (64 ≤ g.ckRoom)
          let s := if fits then hostWrite s (hostBase + run.base) (imageHeader s run) else s
          let next := (run.at' + 63) / 64 * 64
          let s := modRegion s rg fun g => { g with
            ckRun := none, ckNext := next, ckRoom := g.ckRoom - (next - run.base), ckCut := run.cut }
          let s := match run.packet with
            | some pk => completePacket s pk (if run.cut then 4 else 0)
            | none => s
          match s.host.packets.find? fun p => p.2.type == 6 && p.2.obj == rg with
          | some (pk, p) => runCkptPacket s pk p
          | none => s)

end Sys2Proof.Machine
end

