-- ==== Sys2Proof/Machine/Schedule.lean ====
section
/-! DEFINITION. Placement, ageing, reservation, pre-emption, and the monitors (spec/03 R28-R36, R44; spec/21 R351-R368;
spec/23 R375, R377, R380-R384). -/

namespace Sys2Proof.Machine

open Sys2Proof

/-! ### Eligibility (R351, R354, R358, R363) -/

/-- Granules and waves of each gang of a unit. -/
def unitShape (s : State) (u : Bool × Nat) : List (Nat × Nat) :=
  if u.1 then match fget s.cohorts u.2 with
    | none => []
    | some c => c.gangs.filterMap fun g => (fget s.gangs g).map fun x => (x.regg + x.spadg + x.accg, (lanesOf x.mask).length)
  else match fget s.ranges u.2 with
    | none => []
    | some r => r.tmpl.gangs.map fun g => (g.regg + g.spadg + g.accg, g.waves)

/-- The cores of a cluster. -/
def clusterCores (c : Nat) : List Nat := numsFrom (4 * c) 4

/-- The cores given to the gangs of a cohort, in order; none when it does not fit (R354). -/
def fitCores (s : State) : List (Nat × Nat) → List Nat → Option (List Nat)
  | [], _ => some []
  | (gran, nw) :: rest, free =>
    let room := fun k => 64 - coreGranules s k
    let ok := free.filter fun k => decide (coreGranules s k + gran ≤ 64) && decide ((coreWaves s k).length + nw ≤ 64)
    match minBy room ok with
    | none => none
    | some k => (fitCores s rest (free.filter (· != k))).map fun ks => k :: ks

/-- Whether a region is LIVE with every account on its path positive or unlimited, and the module account positive. -/
def mayPlace (s : State) (rg : Nat) : Bool :=
  regionStatus s rg == 0 && decide (0 < s.host.account) && (regionPath s rg).all fun k =>
    energyOf s k == unlimitedEnergy || (match fget s.regions k with
      | some g => decide (0 < g.account)
      | none => false)

/-- Whether counts of cores keep a limit along the path, and granules SRAMG. -/
def withinLimits (s : State) (rg gran : Nat) (ok : Nat → Bool) : Bool :=
  mayCharge s .sram rg gran && (regionPath s rg).all ok

/-- Eligible apart from fit (R358): its gangs count as new cores. -/
def eligibleApart (s : State) (u : Bool × Nat) : Bool :=
  let sh := unitShape s u
  let rg := unitRegion s u
  mayPlace s rg && withinLimits s rg (sumBy Prod.fst sh) fun k =>
    decide ((coresOf s k).length + sh.length ≤ eff s 9 Region.maxcores k)

/-- The cores a unit would take of those given, when it is eligible there: no count of cores may rise above MAXCORES
(R363). -/
def unitFit (s : State) (u : Bool × Nat) (free : List Nat) : Option (List Nat) :=
  let sh := unitShape s u
  let rg := unitRegion s u
  if !mayPlace s rg then none
  else match fitCores s sh free with
    | none => none
    | some ks =>
      if withinLimits s rg (sumBy Prod.fst sh) fun k =>
          let now := (coresOf s k).length
          let after := (coresOf s k ++ ks).dedup.length
          decide (after ≤ now ∨ after ≤ eff s 9 Region.maxcores k) then some ks else none

/-! ### The order of units (R353) -/

/-- Lexicographic order of lists of numbers. -/
def lexLe : List Int → List Int → Bool
  | [], _ => true
  | _ :: _, [] => false
  | a :: as, b :: bs => decide (a < b) || (a == b && lexLe as bs)

/-- The age of a unit in cycles. -/
def unitAge (s : State) (u : Bool × Nat) : Nat :=
  if u.1 then ((fget s.cohorts u.2).map Cohort.age).getD 0 else ((fget s.ranges u.2).map Range.age).getD 0

def unitAgedFlag (s : State) (u : Bool × Nat) : Bool :=
  if u.1 then ((fget s.cohorts u.2).map Cohort.aged).getD false else ((fget s.ranges u.2).map Range.aged).getD false

/-- The INDEX of a unit's range handle, or of its first gang's. -/
def unitIndex (s : State) (u : Bool × Nat) : Nat :=
  if u.1 then (((fget s.cohorts u.2).bind fun c => c.gangs.head?).bind fun g => (fget s.gangs g).map Gang.index).getD 0
  else ((fget s.ranges u.2).map fun r => hIndex r.handle).getD 0

/-- The keys of a unit on a cluster, first to last. -/
def unitKeys (s : State) (c : Nat) (u : Bool × Nat) : List Int :=
  let rg := unitRegion s u
  let head := ((fget s.clusters c).map fun x => x.head == some u).getD false
  [if head then 0 else 1, -effPrio s rg, if (coresOf s rg).length < eff s 8 Region.mincores rg then 0 else 1,
   ((fget s.regions rg).map Region.vserv).getD 0, -unitAge s u, if u.1 then 0 else 1, unitIndex s u]

/-- The waiting units in order for a cluster. -/
def orderedUnits (s : State) (c : Nat) : List (Bool × Nat) :=
  sortBy (fun a b => lexLe (unitKeys s c a) (unitKeys s c b)) (waitingUnits s)

/-! ### Requests to a range (R29, R30) -/

/-- Returns the claims a cluster holds on other ranges (R30). -/
def returnClaims (s : State) (c keep : Nat) : State :=
  { s with ranges := fmapv (fun k r =>
      if k = keep then r
      else match fget r.claims c with
        | none => r
        | some cl => { r with claims := fdel r.claims c, pending := r.pending ++ [cl] }) s.ranges }

/-- The pending interval of greatest length, the lowest on a tie. -/
def longest (l : List (Nat × Nat)) : Option (Nat × Nat) :=
  minBy (fun i => (2 ^ 65 - (i.2 - i.1)) * 2 ^ 65 + i.1) l

/-- The claim a cluster works from: its own, or one split off the pending set. -/
def claimOf (r : Range) (c : Nat) : Option ((Nat × Nat) × Range) :=
  match fget r.claims c with
  | some cl => some (cl, r)
  | none => match longest r.pending with
    | none => none
    | some (a, b) =>
      let rest := r.pending.erase (a, b)
      if b - a ≤ r.grain then some ((a, b), { r with pending := rest })
      else
        let m := a + (b - a) / 2
        let p := r.lo0 + r.grain * ((m - r.lo0) / r.grain)
        let p := if p = a then a + r.grain else p
        some ((p, b), { r with pending := rest ++ [(a, p)] })

/-- A request of a cluster: the chunk, and the range after it. -/
def requestChunk (r : Range) (c : Nat) : Option ((Nat × Nat) × Range) :=
  (claimOf r c).map fun q =>
    let x := q.1.1
    let y := q.1.2
    let cl := max x (r.lo0 + r.grain * ((y - 1 - r.lo0) / r.grain))
    ((cl, y), { q.2 with claims := if x < cl then fset q.2.claims c (x, cl) else fdel q.2.claims c })

/-! ### Placing (R36, R44, R356, R361) -/

/-- A context with nothing submitted. -/
def emptyCtx : Ctx := ⟨0, 0, [], [], 0, false, false, false, none⟩

/-- The initial registers of a wave (Table 3.6). -/
def startRegs (idx lo hi gidx role : Nat) (argp handle : DWord) : FMap Word :=
  (1, BitVec.ofNat 32 idx) :: pairRegs 2 lo ++ pairRegs 4 hi ++
    [(6, BitVec.ofNat 32 gidx), (7, BitVec.ofNat 32 role)] ++ pairRegs 8 argp.toNat ++ pairRegs 10 handle.toNat

/-- Makes the waves of a gang, in role-entry order from an index. -/
def makeWaves (gang core lo hi gidx rg : Nat) (argp handle : DWord) : List RoleEntry → Nat → State → Option State
  | [], _, s => some s
  | e :: rest, i0, s =>
    let made := (numsFrom i0 e.waves).foldl (fun (a : Option State) i => a.bind fun s =>
      match makeObject s tWAVE rg (typeRights tWAVE) (dieOf core) false with
      | .error _ => none
      | .ok m => some (setWave m.st m.obj
          (startWave gang i e.role e.vn e.sn e.tn s.time e.pc (startRegs i lo hi gidx e.role argp handle)))) (some s)
    made.bind fun s => makeWaves gang core lo hi gidx rg argp handle rest (i0 + e.waves) s

/-- Makes a gang of a cohort on a core and seats its waves. -/
def makeGang (cohort rg gidx core lo hi : Nat) (argp handle : DWord) (e : GangEntry) (s : State) :
    Option (Nat × State) :=
  match makeObject s tGANG rg (typeRights tGANG) (dieOf core) false with
  | .error _ => none
  | .ok m =>
    let g : Gang := {
      cohort := cohort, gidx := gidx, index := hIndex m.handle, regg := e.regg, spadg := e.spadg, accg := e.accg
      core := core, spad := [], acc := [], ctxs := List.replicate 8 emptyCtx, eflags := 0, posted := (0, 0), slots := [], csa := false
      mask := 0, preempted := false, restoring := false, replayed := false, returned := [], released := false
      runStart := s.time, work := 0, ended := false }
    (makeWaves m.obj core lo hi gidx rg argp handle e.roles 0 { m.st with gangs := fset m.st.gangs m.obj g }).map fun s =>
      (m.obj, (gangWaves s m.obj).foldl (fun s p => seatWave s p.1 core) s)

/-- Makes the gangs of a cohort. -/
def makeGangs (cohort rg lo hi : Nat) (argp handle : DWord) :
    List (Nat × GangEntry × Nat) → List Nat → State → Option (List Nat × State)
  | [], gs, s => some (gs.reverse, s)
  | (gidx, e, core) :: rest, gs, s =>
    match makeGang cohort rg gidx core lo hi argp handle e s with
    | none => none
    | some (g, s') => makeGangs cohort rg lo hi argp handle rest (g :: gs) s'

/-- Ends the reservations of a unit, since it has been placed (R361). -/
def endReservations (s : State) (u : Bool × Nat) : State :=
  { s with clusters := fmapv (fun _ c =>
      if c.head == some u then { c with head := none, reserved := [], due := true } else c) s.clusters }

/-- The range after a request whose cohort cannot be placed: the chunk is back at the front of the claim (R29). -/
def chunkBack (g : Range) (c : Nat) : Range :=
  match claimOf g c with
  | some (cl, g1) => { g1 with claims := fset g1.claims c cl }
  | none => g

/-- A cluster's request to a range, and the placing of one cohort with the chunk on the cluster's cores. Its claims on
other ranges have gone back by then (R30). -/
def placeRange (s : State) (r c : Nat) (cores : List Nat) : State :=
  let s := returnClaims s c r
  match fget s.ranges r with
  | none => s
  | some g => match requestChunk g c with
    | none => s
    | some ((lo, hi), g2) =>
      let cid := s.serial
      let k : Cohort := {
        range := r, lo := lo, hi := hi, region := g.region, cluster := c, gangs := [], resident := true, saved := false
        preempted := false, raisedAt := 0, entered := false, age := 0, aged := false, started := false, ended := false }
      let s1 := { s with serial := s.serial + 1, cohorts := fset s.cohorts cid k }
      let parts := (numsFrom 0 g.tmpl.gangs.length).zip (g.tmpl.gangs.zip cores)
      match makeGangs cid g.region lo hi g.tmpl.argp g.handle parts [] s1 with
      | none => { s with ranges := fset s.ranges r (chunkBack g c) }
      | some x =>
        let s2 := modCohort x.2 cid fun k => { k with gangs := x.1 }
        let gran := sumBy (fun e : GangEntry => e.regg + e.spadg + e.accg) g.tmpl.gangs
        let s3 := charge s2 .sram g.region gran
        let g3 := { g2 with placed := g2.placed + 1, age := 0, aged := false }
        endReservations { s3 with ranges := fset s3.ranges r g3 } (false, r)

/-- The saved-wave masks that the gang blocks of a saved cohort hold, each read from the die of the core its gang is given; none while
one cannot be read. -/
def savedMasks (s : State) (k : Cohort) (cores : List Nat) : Option (FMap Word × State) :=
  (k.gangs.zip cores).foldl (fun (a : Option (FMap Word × State)) p => a.bind fun x => match fget x.2.gangs p.1 with
    | none => some x
    | some g =>
      if g.ended then some x
      else (savedMask x.2 (effPtroot x.2 k.region) (dieOf p.2) g).map fun m => (fset x.1 p.1 m.1, m.2)) (some ([], s))

/-- Ends the waves of a gang about to be restored whose bits its gang block does not hold (R380; assumption log 76). -/
def leaveOut (s : State) (g : Nat) (mask : Word) : State :=
  (gangWaves s g).foldl (fun s p => if bitAt mask p.2.idx then s else finishWave s p.1) s

/-- Takes the waves of a gang from their seats. -/
def unseat (s : State) (g : Nat) : State :=
  { s with waves := fmapv (fun _ w => if w.gang = g then { w with slot := 16 } else w) s.waves }

/-- Places a gang of a saved cohort on a core: its old seats are given up already. -/
def placeSavedGang (s : State) (rg g core : Nat) (mask : Word) : State :=
  let s := modGang s g fun x => { x with
    core := core, preempted := false, released := false, restoring := !x.ended, replayed := false, returned := []
    runStart := s.time }
  let gran := ((fget s.gangs g).map fun x => x.regg + x.spadg + x.accg).getD 0
  let s := leaveOut (charge s .sram rg gran) g mask
  (gangWaves s g).foldl (fun s q => seatWave s q.1 core) s

/-- Places a saved cohort on cores of a cluster for its restore (R380). Its gangs give up every seat first, then take their new
ones in order (R36). While a saved-wave mask cannot be read the cluster runs the procedure again. -/
def placeSaved (s : State) (k c : Nat) (cores : List Nat) : State :=
  match (fget s.cohorts k).map fun x => (x, savedMasks s x cores) with
  | none => s
  | some (_, none) => { s with clusters := fmod s.clusters c fun q => { q with due := true } }
  | some (x, some (masks, s)) =>
    let s := modCohort s k fun x => { x with
      cluster := c, resident := true, saved := false, preempted := false, started := false, age := 0, aged := false }
    let s := x.gangs.foldl unseat s
    let s := (x.gangs.zip cores).foldl (fun s p => placeSavedGang s x.region p.1 p.2 (fgetD masks p.1 0)) s
    endReservations (askedBy s x.region) (true, k)

/-- Places a unit on some of the cores given, if it is eligible and fits. -/
def placeUnit (s : State) (c : Nat) (free : List Nat) (u : Bool × Nat) : State :=
  if !(waitingUnits s).contains u then s
  else match unitFit s u free with
    | none => s
    | some ks => if u.1 then placeSaved s u.2 c ks else placeRange s u.2 c ks

/-! ### Reservations (R359, R360) -/

/-- The cores a unit of n gangs would reserve on a cluster: the fewest resident granules, lowest index on a tie. -/
def reserveCores (s : State) (c n : Nat) : List Nat :=
  (sortBy (fun a b => decide (coreGranules s a ≤ coreGranules s b)) (clusterCores c)).take n

/-- Resident gangs on some cores that have not ended: a gang that has ended is not pre-empted (R360). -/
def gangsOn (s : State) (cores : List Nat) : Nat :=
  (s.gangs.filter fun p => cores.contains p.2.core && gangResident s p.2 && !p.2.ended).length

/-- Assigns clusters to aged units that have none, oldest first, once every placement of the fabric cycle has been made (R359). -/
def arbiter (s : State) : State :=
  if s.clusters.any fun p => p.2.run && p.2.started then s
  else
  let aged := (waitingUnits s).filter fun u => unitAgedFlag s u && !s.clusters.any fun p => p.2.head == some u
  (sortBy (fun a b => decide (unitAge s b ≤ unitAge s a)) aged).foldl (fun s u =>
    let n := (unitShape s u).length
    let free := s.clusters.filter fun p => p.2.head.isNone && p.2.started
    match minBy (fun p : Nat × Cluster => gangsOn s (reserveCores s p.1 n)) free with
    | none => s
    | some p =>
      let c := { p.2 with head := some u, reserved := reserveCores s p.1 n, due := true }
      { s with clusters := fset s.clusters p.1 c }) s

/-- PLACEMENT: a cluster runs the placement procedure, once for the events of a fabric cycle (R355). -/
def execPlacement (cluster : Nat) (s : State) : Host.Outcome State Fault Refusal :=
  .next (match fget s.clusters cluster with
    | none => s
    | some c =>
      if !c.run || !c.started || !s.host.powered then s
      else
        let s := { s with clusters := fset s.clusters cluster { c with run := false } }
        arbiter (match c.head with
          | some u => placeUnit s cluster (sortBy (fun a b => decide (a ≤ b)) c.reserved) u
          | none => (orderedUnits s cluster).foldl (fun s u => placeUnit s cluster (clusterCores cluster) u) s))

/-- Restores the waves of a gang into S mode, each from its block (R380); with no trap vector that is unrecoverable (R375); none
while a block cannot be read. -/
def restoreGang (s : State) (g : Nat) : Option State :=
  match fget s.gangs g with
  | none => some s
  | some gg =>
    let rg := gangRegion s g
    let vec := effTrapvec s rg
    let base := csaBase gg.index
    if vec = 0 ∧ !(gangWaves s g).isEmpty then some (discardOf s rg)
    else (gangWaves s g).foldl (fun (a : Option State) p => a.bind fun s =>
      (csaLoad false s (effPtroot s rg) (dieOf gg.core) (base + waveBlock p.2.idx + restoredPart.1) restoredPart.2).made.map fun r =>
        setWave r.2 p.1 (restoredWave s.fresh r.1 base vec p.1 p.2)) (some s)

/-- The start of a placed cohort: its waves may issue; those of a saved one enter their restore handlers (R356, R380). None while
its context save areas cannot be read. -/
def startCohort (s : State) (cohort : Nat) (k : Cohort) : Option State :=
  let s := modCohort s cohort fun k => { k with started := true }
  (k.gangs.foldl (fun (a : Option State) g => a.bind fun s =>
    if ((fget s.gangs g).map Gang.restoring).getD false then restoreGang s g else some s) (some s)).map fun s =>
    askedBy (k.gangs.foldl (fun s g => (gangWaves s g).foldl (fun s p => enqueueRun s p.1 true) s) s) k.region

/-- COHORT_START: a placed cohort starts (R356, R380). -/
def execCohortStart (cohort : Nat) (s : State) : Host.Outcome State Fault Refusal :=
  .next (match fget s.cohorts cohort with
    | none => s
    | some k =>
      if k.started || !k.resident || k.ended || regionStatus s k.region == 2 then s
      else (startCohort s cohort k).getD s)

/-- UNIT_AGED: a waiting unit's age has reached AGELIMIT; the arbiter assigns it a cluster (R358, R359). -/
def execUnitAged (saved : Bool) (unit : Nat) (s : State) : Host.Outcome State Fault Refusal :=
  .next (let u := (saved, unit)
    if !(waitingUnits s).contains u || unitAgedFlag s u || decide (unitAge s u < s.agelimit) then s
    else arbiter (if saved then modCohort s unit fun k => { k with aged := true }
      else { s with ranges := fmod s.ranges unit fun r => { r with aged := true } }))

/-- QUANTUM_EXPIRY: a resident gang on a reserved core has run QUANTUM cycles, and its cohort is pre-empted (R360). -/
def execQuantumExpiry (gang : Nat) (s : State) : Host.Outcome State Fault Refusal :=
  .next (match fget s.gangs gang with
    | none => s
    | some g =>
      let reserved := s.clusters.any fun p => p.2.head.isSome && p.2.reserved.contains g.core
      if g.ended || !gangResident s g || !reserved || decide (s.time < g.runStart + 5 * s.quantum) then s
      else raisePreempt s g.cohort)

/-- SAVE_DRAIN_OVERRUN: a save has passed 40 microseconds without its release, and the fault domain is discarded (R375,
R377). -/
def execSaveDrainOverrun (cohort : Nat) (s : State) : Host.Outcome State Fault Refusal :=
  .next (match fget s.cohorts cohort with
    | none => s
    | some k =>
      let open' := k.gangs.any fun g => match fget s.gangs g with
        | some x => x.mask != 0 && !x.released && !x.ended
        | none => false
      if !k.preempted || !k.resident || k.ended || !open' || decide (s.time ≤ k.raisedAt + 480000) ||
          regionStatus s k.region == 2 then s
      else discardOf s k.region)

/-! ### Deadlock (R382, Table 23.4) -/

/-- The lanes of a wave as a monitor sees them: the held ones of a saved wave. -/
def Wave.monitored (w : Wave) : List LaneState := if w.saved then w.held.lanes else w.lanes

/-- Whether a wave has a lane that is live and unparked. -/
def Wave.awake (w : Wave) : Bool := !w.ended && w.monitored.any (· == .live)

/-- The waves of the gangs a region owns itself. -/
def ownWaves (s : State) (r : Nat) : List Wave :=
  (s.waves.filter fun p => !p.2.ended && waveRegion s p.2 == r).map Prod.snd

/-- Whether a region has an incomplete engine operation. -/
def engineBusy (s : State) (r : Nat) : Bool :=
  s.gangs.any fun p => !p.2.ended && gangRegion s p.1 == r && !p.2.idle

/-- Whether a region has an unparked lane, a waiting unit or an enabled work queue. -/
def regionActive (s : State) (r : Nat) : Bool :=
  (ownWaves s r).any Wave.awake || (waitingUnits s).any (fun u => unitRegion s u == r) ||
    s.host.queues.any fun q => q.2.en && q.2.rgn == regionIndex s r

/-- Whether an active region holds an entry with some rights to an object. -/
def heldActive (s : State) (type obj need : Nat) : Bool :=
  s.entries.any fun p => p.2.type == type && p.2.obj == obj && decide (p.2.rights &&& need ≠ 0) && regionActive s p.2.holder

/-- Whether a leaf of either size of a space maps a frame. -/
def mapsFrame (s : State) (root : DWord) (f : Nat) : Bool :=
  (entriesFrom s 4 0 root.toNat 0).any fun x =>
    let e := x.2.2.2
    pLeaf e && ((x.2.1 == 3 && !leafBad e false && pFrame e == f) ||
      (x.2.1 == 2 && !leafBad e true && decide (pFrame e ≤ f ∧ f < pFrame e + 8192)))

/-- Whether a member can still fire (Table 23.4). -/
def canFire (s : State) (r : Nat) (w : Wave) (m : Member) : Bool :=
  let entry := fget s.entries (hIndex m.operand)
  let obj := (entry.map Entry.obj).getD 0
  match m.kind with
  | 0 => heldActive s tPORT obj rSEND || s.proxies.any fun p =>
      p.2.module == s.host.module && p.2.port == obj && heldActive s tPROXY p.1 255
  | 1 => (entry.map Entry.type) == some tPROXY || heldActive s tPORT obj rRECV
  | 2 => ((fget s.timers obj).map Timer.armed).getD false
  | 3 => match fget s.gangs w.gang with
    | none => false
    | some g => s.waves.any fun p => p.2.awake && ((fget s.gangs p.2.gang).map Gang.cohort) == some g.cohort
  | 4 => false
  | 5 => ((fget s.waves obj).map Wave.awake).getD false
  | 6 => match walk s (effPtroot s r) m.operand.toNat with
    | .leaf _ _ f _ => isHostPA (f * 65536) || inWindow (f * 65536) || (s.regions.any fun q =>
        ((ownWaves s q.1).any Wave.awake || engineBusy s q.1) &&
        (effPtroot s q.1 == effPtroot s r || mapsFrame s (effPtroot s q.1) f))
    | _ => false
  | _ => s.ranges.any (fun p => p.2.region == r && !p.2.complete) ||
      s.segments.any (fun p => p.2.freer == r && p.2.status == 2 && !p.2.gone) ||
      (subtree s r).any fun d => d != r && regionStatus s d == 0

/-- Whether a parked group has a finite deadline or a member that can still fire. -/
def groupAlive (s : State) (r : Nat) (w : Wave) (g : Group) : Bool :=
  g.deadline != 0xFFFFFFFFFFFFFFFF || (match groupMembers s w g.on with
    | .error _ => false
    | .ok ms => ms.any fun p => canFire s r w p.2)

/-- Whether a region is deadlocked now (R382). -/
def deadlocked (s : State) (r : Nat) : Bool :=
  let ws := ownWaves s r
  !ws.isEmpty && !ws.any Wave.awake && !engineBusy s r && !s.ranges.any (fun p => p.2.region == r && p.2.waits) &&
  !ws.any fun w => w.groups.any (groupAlive s r w)

/-- The leaders of a region's gangs, resident or saved. -/
def leaders (s : State) (r : Nat) (saved : Bool) : List Nat :=
  s.gangs.filterMap fun p =>
    if p.2.ended || gangRegion s p.1 != r || !(saved || gangResident s p.2) then none
    else (leaderOf s p.1).map Prod.fst

/-- DEADLOCK_DETECT: a region deadlocked for 2^20 cycles; the leaders of its gangs take DEADLOCK (R382). -/
def execDeadlockDetect (rg : Nat) (s : State) : Host.Outcome State Fault Refusal :=
  .next (match fget s.regions rg with
    | none => s
    | some g =>
      if g.status == 2 || g.deadRaised || decide (g.deadFor < 2 ^ 20) || !deadlocked s rg then s
      else (leaders s rg true).foldl (fun s w => addPending s w ⟨40, cDEADLOCK, 0, none, 0, none⟩)
        (modRegion s rg fun g => { g with deadRaised := true }))

/-- PROGRESS_STALL: no progress for 2^26 cycles; the region freezes, its parent receives CHILDSTALL, and the leaders of
its resident gangs take STALL (R383). -/
def execProgressStall (rg : Nat) (s : State) : Host.Outcome State Fault Refusal :=
  .next (match fget s.regions rg with
    | none => s
    | some g =>
      if g.status != 0 || decide (g.progress < 2 ^ 26) then s
      else
        let s := modRegion s rg fun g => { g with status := 1 }
        let s := match g.parent with
          | some p => pushEvent s p 4 g.handle
          | none => s
        (leaders s rg false).foldl (fun s w => addPending s w ⟨40, cSTALL, 0, none, 0, none⟩) s)

/-- MEMERR: an uncorrectable error in data read for a region discards its fault domain (R375). -/
def execMemerr (rg : Nat) (s : State) : Host.Outcome State Fault Refusal :=
  .next (if (fget s.regions rg).isSome && regionStatus s rg != 2 then discardOf s rg else s)

end Sys2Proof.Machine
end

