-- ==== Sys2Proof/Machine/Fabric.lean ====
section
/-! DEFINITION. Sends and grants across modules, peers, and the link layer (spec/19 R323, R326, R334-R345). -/

namespace Sys2Proof.Machine

open Sys2Proof

/-! ### Incarnations (R338-R340) -/

/-- Whether an arrival carries a retired incarnation of its module. -/
def retiredArrival (s : State) (m inc : Nat) : Bool :=
  match fget s.peers m with
  | some p => decide (inc < p.incarn) || (inc == p.incarn && p.dead)
  | none => false

/-- Takes an arrival: one of a retired incarnation is dropped and counted in RETIRED. -/
def arrives (s : State) (link m inc : Nat) (f : State → State) : State :=
  if retiredArrival s m inc then modLink s link fun l => { l with retired := (l.retired + 1) % 2 ^ 64 }
  else f (notePeer s m inc)

/-! ### Requests at the home of a port (R323, R326, R334, R343) -/

/-- The message of a request. -/
def arrivedMsg (origin header : Nat) (eight : Bool) (words : List Nat) : Msg where
  header := BitVec.ofNat 64 header
  origin := BitVec.ofNat 64 origin
  eight := eight
  words := (numsFrom 0 (if eight then 8 else 4)).map fun i => BitVec.ofNat 64 (words.getD i 0)
  landing := 0
  gword := 0

/-- Takes a request of another module once: a repeated one gets the recorded reply (R343), one behind a grant that has not
landed is held (R326). -/
def takeRequest (s : State) (h : HeldSend) : State :=
  if (fget s.dedup (tagKey h.src h.tag)).isSome then answerAgain s h.link h.src
  else if s.held.any fun x => tagKey x.src x.tag == tagKey h.src h.tag then s
  else if behind s s.held h then { s with held := s.held ++ [h] }
  else admitHeld s h

/-- REMOTE_SEND_REQUEST: a psend of another module reaches its port's home: checks 2 and 5, then delivery. -/
def execRemoteSendRequest (link src wave tag incarn port origin header : Nat) (eight : Bool) (words : List Nat) (s : State) :
    Host.Outcome State Fault Refusal :=
  .next (arrives s link src incarn fun s =>
    takeRequest s ⟨link, src, wave, tag, port, arrivedMsg origin header eight words, none⟩)

/-- GRANT_RESERVATION: a pgrant of another module reaches its port's home (R334 stage 1). -/
def execGrantReservation (link src wave tag incarn port origin header : Nat) (eight : Bool) (words : List Nat)
    (gword : Nat) (s : State) : Host.Outcome State Fault Refusal :=
  .next (arrives s link src incarn fun s =>
    takeRequest s ⟨link, src, wave, tag, port, arrivedMsg origin header eight words, some gword⟩)

/-- Writes the bytes of a frame. -/
def writeFrame (s : State) (f : Nat) (bs : List (BitVec 8)) : State :=
  let s := zeroFrame s f
  { s with mem := setBytes s.mem (f * 65536) (bs.take 65536) }

/-- Takes an arrival for a send or a reservation that is no more: one of a module declared dead counts as retired (R340). -/
def arrivesLate (s : State) (link incarn n : Nat) : State :=
  match fget s.late n with
  | none => s
  | some m => arrives s link m incarn id

/-- Gives back what a reservation holds; its message is never delivered. -/
def dropReservation (s : State) (n : Nat) (r : Reservation) : State :=
  match fget s.ports r.port with
  | none => { s with reservations := fdel s.reservations n }
  | some p =>
    let s := uncharge (r.frames.foldl freeFrame s) .hbm p.region r.frames.length
    let s := { s with reservations := fdel s.reservations n }
    let s := if 0 < p.borrowed then uncharge s .slots p.region 1 else s
    { s with ports := fset s.ports r.port { p with
        reserved := p.reserved - 1, borrowed := p.borrowed - 1, busy := fdel p.busy r.slot } }

/-- Whether the leaves of a reservation's landing slot cannot be written now (spec/17 R320, spec/25 R395). -/
def landingHeld (s : State) (r : Reservation) : Bool :=
  (fget s.ports r.port).any fun p => rangeHeld s (effPtroot s p.region) (p.slotVA r.slot) p.lzP

/-- GRANT_PAGE_COPY: the pages are written into the reserved frames, the landing slot is mapped, the message is delivered and
the sends behind it go on (R334 stage 3, R326). A repeated copy is answered again (R343), and one for a port that has ended is
acknowledged, its frames and their charge given back (R335, R344). No region of this module has asked for the copy, so its HBM traffic counts for the module alone
(spec/21 R366). -/
def execGrantPageCopy (link incarn resv : Nat) (pages : List (List (BitVec 8))) (s : State) :
    Host.Outcome State Fault Refusal :=
  .next (match fget s.reservations resv with
    | none => match fget s.dedup (copyKey resv) with
      | some src => arrives s link src incarn fun s => answerAgain s link src
      | none => arrivesLate s link incarn resv
    | some r => arrives s link r.src incarn fun s =>
      let answer := fun (s : State) =>
        replyOnce { s with reservations := fdel s.reservations resv } r.src (copyKey resv) r.src
      if portDead s r.port then answer (dropReservation s resv r)
      else if pages.length ≠ r.frames.length || landingHeld s r then s
      else
        let s := (r.frames.zip pages).foldl (fun s p => writeFrame s p.1 p.2) (traffic s noRegion 0 (65536 * pages.length))
        let w := r.msg.gword.getLsbD 17
        let shared := if r.msg.gword.getLsbD 18 then some 0 else none
        let s := answer s
        let s := mapLanding s r.port r.slot r.frames w shared r.src
        let s := deliver { s with ports := fmod s.ports r.port fun q => { q with reserved := q.reserved - 1 } } r.port r.msg
        let s := progressed s (((fget s.ports r.port).map Port.region).getD 0)
        releaseHeld (s.held.length + 1) s)

/-! ### At the sender (R323, R334, R335) -/

/-- SEND_REPLY: the reply to a psend reaches the sender's Cistern; its wave reports it. -/
def execSendReply (link incarn send status : Nat) (s : State) : Host.Outcome State Fault Refusal :=
  .next (match fget s.sends send with
    | none => arrivesLate s link incarn send
    | some r => arrives s link r.module incarn fun s =>
      if r.grant || r.reply.isSome || !([stOK, stDEAD, stFULL].contains status) then s
      else progressed { s with sends := fset s.sends send { r with reply := some status } } r.region)

/-- GRANT_POINT_REPLY: a refusal is reported; an acceptance is the grant point (R334 stage 2), which waits for pages on their way to HBM
and comes once they are there, whatever the wave does meanwhile. A grant of a discarded region has no grant point any more (spec/23
R386). -/
def execGrantPointReply (link incarn send status : Nat) (s : State) : Host.Outcome State Fault Refusal :=
  .next (match fget s.sends send with
    | none => arrivesLate s link incarn send
    | some r => if r.grant && r.accepted && r.reply.isNone then
        (if regionStatus s r.region = 2 then s else passGrant s send r)
      else arrives s link r.module incarn fun s =>
      if !r.grant || r.reply.isSome || regionStatus s r.region == 2 then s
      else
        let s := progressed s r.region
        if status = 0 then passGrant s send r
        else if [stDEAD, stBADARG, stFULL, stBUDGET].contains status then
          { s with sends := fset s.sends send { r with reply := some status } }
        else s)

/-- Frees the sender's frames of a grant past its grant point (R334 stage 4, R335): it waits for no acknowledgement any more. -/
def freeSent (s : State) (n : Nat) (r : RemoteSend) : State :=
  let s := uncharge (r.frames.foldl freeFrame s) .hbm r.region r.frames.length
  { s with sends := if r.taken then fdel s.sends n else fset s.sends n { r with frames := [], past := false } }

/-- GRANT_ACK: the sender's frames are freed and their charge removed (R334 stage 4); a sealed page has none. -/
def execGrantAck (link incarn send : Nat) (s : State) : Host.Outcome State Fault Refusal :=
  .next (match fget s.sends send with
    | none => arrivesLate s link incarn send
    | some r => arrives s link r.module incarn fun s =>
      if r.past then freeSent (progressed s r.region) send r else s)

/-- Ends the bindings that this module registered under an earlier incarnation, and the proxies made from them. -/
def endOwnBindings (s : State) : State :=
  let t := endBindings s fun b => b.module == s.host.module
  { t with proxies := fmapv (fun _ x => if x.module == s.host.module then { x with ended := true } else x) t.proxies }

/-- Whether a peer has been silent for 1 000 000 ticks (R340): nothing it sent has come since (assumption log 80). -/
def peerSilent (s : State) (m : Nat) : Bool :=
  match fget s.peers m with
  | some p => !p.dead && decide (p.heard + 12000000 ≤ s.time)
  | none => false

/-- Declares a peer dead: its proxies are dead, its sends and reservations end, and what still comes for them is late (R335,
R339, R340). -/
def declareDead (s : State) (module : Nat) : State :=
  let known := s.proxies.foldl (fun n p => if p.2.module = module then max n p.2.incarn else n)
    (((fget s.peers module).map Peer.incarn).getD 0)
  let sent := s.sends.filter fun p => p.2.module == module
  let kept := s.reservations.filter fun r => r.2.src == module
  let s := { s with
    peers := fset s.peers module ⟨known, true, s.time⟩
    proxies := fmapv (fun _ x => if x.module == module then { x with ended := true } else x) s.proxies
    segments := fmapv (fun _ g => { g with remotes := g.remotes.filter (· != module) }) s.segments
    held := s.held.filter fun h => h.src != module
    late := (sent.map Prod.fst ++ kept.map Prod.fst).foldl (fun m n => fset m n module) s.late }
  let s := sent.foldl (fun s p =>
    if p.2.past then freeSent s p.1 p.2
    else if p.2.reply.isNone then { s with sends := fset s.sends p.1 { p.2 with reply := some stDEAD } }
    else s) s
  kept.foldl (fun s r => dropReservation s r.1 r.2) s

/-- PEER_DEAD: this module declares a peer dead, after silence or an announced reboot; or, named itself, learns that it has
been declared dead (R335, R338-R340). -/
def execPeerDead (module : Nat) (announced : Bool) (s : State) : Host.Outcome State Fault Refusal :=
  .next (if module = s.host.module then
      endOwnBindings (modHost s fun h => { h with incarnation := (h.incarnation + 1) % 2 ^ 24 })
    else if announced || peerSilent s module then declareDead s module
    else s)

/-! ### Links (R341, R342) -/

/-- How far a sequence number lies after another, modulo 4096. -/
def seqAfter (a b : Nat) : Nat := (a + 4096 - b) % 4096

/-- The peer has received in order up to a number: those flits leave the replay buffer, no replay that starts there counts
any more, and flits that wait take their room. -/
def LinkPort.ackTo (l : LinkPort) (n : Nat) : LinkPort :=
  if l.replay.any (fun f => f.seq == n) then
    let l := { l with
      acked := n, naks := 0
      replay := l.replay.filter fun f => decide (0 < seqAfter f.seq n ∧ seqAfter f.seq n < 2048) }
    l.drain l.waiting
  else l

/-- A NAK that names the last flit received in order: the rest is replayed; the eighth replay in a row from one flit
retrains the port. -/
def LinkPort.nak (l : LinkPort) (n : Nat) : LinkPort :=
  let l := l.ackTo n
  let count := if l.nakAt = n then l.naks + 1 else 1
  let l := { l with naks := count, nakAt := n, replayed := (l.replayed + l.replay.length) % 2 ^ 64 }
  if 8 ≤ count then { l with status := 1, naks := 0, retrain := (l.retrain + 1) % 2 ^ 64 } else l

/-- A CRC error or a gap: flits are discarded until the replay begins, and a NAK names the last flit received in order. -/
def LinkPort.refuse (l : LinkPort) : LinkPort :=
  { l with discarding := true, nakOut := some ((l.expSeq + 4095) % 4096) }

/-- A flit as a port takes it (R342). -/
def LinkPort.take (l : LinkPort) (flit : List (BitVec 8)) : LinkPort :=
  let w := fieldAt flit 0 2
  let seq := w % 4096
  let ack := fieldAt flit 2 2 % 4096
  match w / 4096 with
  | 1 =>
    let l := l.ackTo ack
    if seq = l.expSeq then
      { l with discarding := false, nakOut := none, expSeq := (seq + 1) % 4096, flitsRx := (l.flitsRx + 1) % 2 ^ 64 }
    else if seqAfter seq l.expSeq < 2048 then l.refuse
    else l
  | 2 => l.nak ack
  | _ => l.ackTo ack

/-- Releases the slots that share pages of another module's segment, since that module frees it: the copies' frames are freed
(R333, R334). -/
def releaseShared (s : State) (src pn slot : Nat) : State :=
  match fget s.ports pn with
  | none => s
  | some p => match fget p.busy slot with
    | some b =>
      if b.shared = some 0 ∧ b.src = src then
        dropReceived (b.pages.foldl (fun s x => freePage (mergeFrame s x.2) p.region x.2) s)
          fun q i c _ => i == slot && c == b && q.lz == p.lz && q.region == p.region
      else s
    | none => s

/-- Performs a request that a flit carried once: one with a tag that has been answered gets the recorded reply (R343). -/
def requestOnce (s : State) (link src tag : Nat) (f : State → State) : State :=
  if (fget s.dedup (tagKey src tag)).isSome then answerAgain s link src else replyOnce (f s) src (tagKey src tag) 0

/-- Another module's preg at the directory of a name: it binds where no live binding stands (R336). -/
def bindFor (s : State) (src incarn name port : Nat) (grant : Bool) : State :=
  if !directoryHere s name || name == 0 || (fget s.names name).any fun b => !bindingDead s b then s
  else { s with names := fset s.names name ⟨src, port, incarn, grant, false⟩ }

/-- The proxies of a name through a module are dead with its binding (R339). -/
def endProxiesOf (s : State) (name module : Nat) : State :=
  { s with proxies := fmapv (fun _ q =>
      if q.name.toNat == name && q.module == module then { q with ended := true } else q) s.proxies }

/-- The news that a binding has ended: the directory, told by the binding's own module, ends it and has every copy
invalidated; any other module, told by the directory, drops its copy (R336). -/
def unbindFor (s : State) (src name owner : Nat) : State :=
  if directoryHere s name then
    let hit := (fget s.names name).any fun b => b.module == src && !b.ended
    let t := { s with names := fmod s.names name fun b => if b.module = src then { b with ended := true } else b }
    endProxiesOf (if hit then (numsFrom 0 s.host.domainSize).foldl (fun s k => transmitFor s noRegion k) t else t) name src
  else if name % s.host.domainSize = src then
    endProxiesOf { s with aqueduct :=
      if (fget s.aqueduct name).any fun b => b.module == owner && b.module != s.host.module then fdel s.aqueduct name
      else s.aqueduct } name owner
  else s

/-- What a data flit in order carries that no row names (assumption log 12): another module's preg of a name of this
directory, the end of a binding of this directory or whose copy may be kept here, the removal of shared mappings for an afree
and its acknowledgement (R333, R334, R336, R337), or the acknowledgement of a reply, which drops the entry of its request, a send, a reservation or a page copy (R343). -/
def flitCarried (s : State) (link src : Nat) : State :=
  let x := Config.flitCarries s.fresh
  let take := arrives s link src (x 1)
  match x 0 with
  | 1 => take fun s => requestOnce s link src (x 5) fun s => bindFor s src (x 1) (x 2) (x 3) (x 4 % 2 == 1)
  | 2 => take fun s => requestOnce s link src (x 5) fun s => unbindFor s src (x 2) (x 3)
  | 3 => take fun s => requestOnce s link src (x 5) fun s => releaseShared s src (x 2) (x 3)
  | 4 => take fun s =>
    { s with segments := fmod s.segments (x 2) fun g =>
        if g.status = 2 then { g with remotes := g.remotes.erase src } else g }
  | 5 => take fun s =>
    let left :=
      if x 3 % 2 = 0 then fdel s.dedup (tagKey src (x 2))
      else if fget s.dedup (copyKey (x 2)) = some src then fdel s.dedup (copyKey (x 2))
      else s.dedup
    { s with dedup := left }
  | _ => s

/-- FLIT_RECEIVE: a flit without error is taken in order; an error or a gap discards flits until the replay begins, and is
answered by a NAK (R342). A data flit in order goes to the layer above, or on to the module it is for (R341; assumption
log 80). -/
def execFlitReceive (port : Nat) (flit : List (BitVec 8)) (crcOk : Bool) (s : State) : Host.Outcome State Fault Refusal :=
  .next (match fget s.links port with
    | none => s
    | some l =>
      let w := fieldAt flit 0 2
      let dest := fieldAt flit 4 2 % 1024
      let src := fieldAt flit 6 2 % 1024
      let beats := (flit.drop 8).take 240
      if l.status ≠ 0 then s
      else if !crcOk || decide (3 < w / 4096) || flit.length != 256 then modLink s port LinkPort.refuse
      else
        let t := { modLink s port (fun l => l.take flit) with peers := fmod s.peers src fun p => { p with heard := s.time } }
        if w / 4096 ≠ 1 ∨ w % 4096 ≠ l.expSeq then t
        else if dest ≠ s.host.module then traffic (routeFlits t [(dest, src, beats)]) noRegion 2 256
        else flitCarried (modLink t port fun l => { l with rx := l.rx ++ [beats] }) port src)

/-- NAK_RECEIVE: the sender replays from the flit after the one named (R342). -/
def execNakReceive (port seq : Nat) (s : State) : Host.Outcome State Fault Refusal :=
  .next (modLink s port fun l => if l.status ≠ 0 then l else l.nak (seq % 4096))

/-- LINK_RETRAIN_DONE: the port resumes, retrains again, or after three failures is down (R342). -/
def execLinkRetrainDone (port : Nat) (ok : Bool) (s : State) : Host.Outcome State Fault Refusal :=
  .next (match fget s.links port with
    | none => s
    | some l =>
      let put := fun (l : LinkPort) => { s with links := fset s.links port l }
      if l.status ≠ 1 then s
      else if ok then
        put ({ l with status := 0, retrainFails := 0 }.drain l.waiting)
      else if 2 ≤ l.retrainFails then
        routeFlits (put { l with status := 2, retrainFails := 3, replay := [], waiting := [] })
          (l.replay.map (fun f => (f.dest, f.source, f.beats)) ++ l.waiting)
      else put { l with retrainFails := l.retrainFails + 1, retrain := (l.retrain + 1) % 2 ^ 64 })

end Sys2Proof.Machine
end

