-- ==== Sys2Proof/Machine/Power.lean ====
section
/-! DEFINITION. Refresh, energy, the caps and the thermal trip (spec/15 R283; spec/21 R365-R367; spec/25 R406-R408). -/

namespace Sys2Proof.Machine

open Sys2Proof

/-! ### Refresh (spec/15 R283, R284) -/

/-- The refresh intervals of 3 900 ticks that have ended since reset. -/
def refreshIntervals (s : State) : Nat := (s.time - s.host.resetAt) / 46800

/-- REFRESH_INTERVAL: at the end of an interval a channel's debt rises by 1; at +8 its forced refresh comes first. -/
def execRefreshInterval (ch : Nat) (s : State) : Host.Outcome State Fault Refusal :=
  .next (let r := fgetD s.channels ch (0, 0, 0)
    if Config.channels ≤ ch ∨ 8 ≤ r.2.2 ∨ refreshIntervals s ≤ fgetD s.intervals ch 0 then s
    else { s with
      channels := fset s.channels ch (r.1, r.2.1, r.2.2 + 1)
      intervals := fset s.intervals ch (fgetD s.intervals ch 0 + 1) })

/-- The refresh that a channel makes: a forced one at +8; above −8 one while no request waits (in which intervals that is so, is
free: assumption log 78). -/
def refreshOwed (s : State) (ch : Nat) : Option Bool :=
  let d := (fgetD s.channels ch (0, 0, 0)).2.2
  if 8 ≤ d then some true
  else if -8 < d ∧ Config.channelIdle (refreshIntervals s) ch = true then some false
  else none

/-- REFRESH: forced at +8, counted in REFFORCE; postponed while requests wait below it; pulled in while the channel is
idle above −8, counted in REFPULL when no interval is owed. -/
def execRefresh (ch : Nat) (waiting : Bool) (s : State) : Host.Outcome State Fault Refusal :=
  .next (let r := fgetD s.channels ch (0, 0, 0)
    let put := fun (x : Nat × Nat × Int) => { s with channels := fset s.channels ch x }
    if Config.channels ≤ ch then s
    else if 8 ≤ r.2.2 then put (r.1, (r.2.1 + 1) % 2 ^ 64, r.2.2 - 1)
    else if waiting ∨ r.2.2 ≤ -8 then s
    else if r.2.2 ≤ 0 then put ((r.1 + 1) % 2 ^ 64, r.2.1, r.2.2 - 1)
    else put (r.1, r.2.1, r.2.2 - 1))

/-! ### Energy (spec/21 R365-R367) -/

/-- Time units of a millisecond. -/
def millisecond : Nat := 12000000

/-- The thermal cap in watts, from a temperature in sixteenths of a degree (R407). -/
def thermalCap (t16 : Nat) : Nat :=
  if t16 ≤ 1440 then 2100
  else if 1600 ≤ t16 then 600
  else (33600 - 150 * (t16 - 1440)) / 400 * 25

/-- The window's refill of an account with allowance e. -/
def refill (a e : Int) : Int := min (a + e) (2 * e)

/-- ENERGY_WINDOW_START: the accounts are refilled, a new cap takes effect, DRAW shows the window past, and every cluster
runs placement (R365, R367, R355, R406). -/
def execEnergyWindowStart (s : State) : Host.Outcome State Fault Refusal :=
  .next (if s.time / millisecond ≤ s.host.windows ∨ !s.host.powered then s
    else
      let s1 := { s with regions := fmapv (fun k g =>
        if energyOf s k = unlimitedEnergy then g else { g with account := refill g.account (energyOf s k) }) s.regions }
      let s2 := modHost s1 fun h =>
        let cap := h.capNext.getD h.cap
        let ecap := min cap (thermalCap h.tjmax)
        { h with
          windows := h.windows + 1, cap := cap, capNext := none, ecap := ecap
          account := refill h.account (1000 * (ecap : Int)), draw := h.windowDrawn / 1000 % 2 ^ 32, windowDrawn := 0 }
      placementDue s2 fun _ => true)

/-- Charges energy to a region and along its path (R366); an unlimited account is never charged. -/
def chargeEnergy (s : State) (r e : Nat) : State :=
  (regionPath s r).foldl (fun s' k =>
    if energyOf s k = unlimitedEnergy then s' else modRegion s' k fun g => { g with account := g.account - e }) s

/-- Charges energy to the module account (R367). -/
def chargeModule (s : State) (e : Nat) : State :=
  modHost s fun h => { h with account := h.account - e, windowDrawn := h.windowDrawn + e }

/-- Charges energy to a region's path and to the module. -/
def chargeBoth (s : State) (r e : Nat) : State := chargeEnergy (chargeModule s e) r e

/-- Charges the traffic that the module has noted (R366), in whole microjoules; what is less stays noted. -/
def chargeMoved (s : State) : State :=
  s.moved.foldl (fun s p => chargeBoth { s with moved := fset s.moved p.1 (p.2 % 1280000) } p.1 (p.2 / 1280000)) s

/-- ENERGY_METER_READ: a core's reading in microjoules is divided among its resident gangs by their work; the traffic of copies,
matrix operations and the Cistern is charged to the regions it was noted for, and that of gangs' other accesses since the last
reading, which depends on the caches, as gang, kind and lines of 128 bytes, to their regions, at the fixed rates (R366). A core's meter
is read once in each 10 µs. -/
def execEnergyMeterRead (core energy : Nat) (lines : List (Nat × Nat × Nat)) (s : State) :
    Host.Outcome State Fault Refusal :=
  .next (if !s.host.powered || decide ((s.time - s.host.resetAt) / 120000 ≤ fgetD s.metered core 0) then s
    else
      let s := { s with metered := fset s.metered core ((s.time - s.host.resetAt) / 120000) }
      let gs := s.gangs.filter fun p => p.2.core == core && gangResident s p.2
      let total := sumBy (fun p : Nat × Gang => p.2.work) gs
      let s1 := gs.foldl (fun s p =>
        let s := if total = 0 then s else chargeEnergy s (gangRegion s p.1) (energy * p.2.work / total)
        modGang s p.1 fun g => { g with work := 0 }) (chargeModule s energy)
      chargeMoved (lines.foldl (fun s t => traffic s (gangRegion s t.1) t.2.1 (128 * t.2.2)) s1))

/-! ### Caps (R406, R407) -/

/-- CAP_WRITE: a valid cap waits for the next window start; any other is ignored and sets CAPERR. -/
def capWrite (v : Nat) (s : State) : State :=
  modHost s fun h =>
    if v % 25 = 0 ∧ 600 ≤ v ∧ v ≤ 2100 then { h with capNext := some v } else { h with caperr := true }

/-- Whether a limit of R408 is passed since a time, and how long. -/
def sinceWhen (old : Option Nat) (out : Bool) (now : Nat) : Option Nat := if out then some (old.getD now) else none

/-- THERMAL_CAP_UPDATE: Jasper reads the sensors and recomputes the caps (R407). -/
def execThermalCapUpdate (tjmax tin flow : Nat) (s : State) : Host.Outcome State Fault Refusal :=
  .next (if !s.host.powered then s
    else modHost s fun h =>
      let t := tjmax % 65536
      let i := tin % 65536
      let f := flow % 65536
      { h with
        tjmax := t, tin := i, flow := f, ecap := min h.cap (thermalCap t)
        hotSince := sinceWhen h.hotSince (decide (720 < i)) s.time
        dryAt := sinceWhen h.dryAt (decide (f < 750)) s.time })

/-! ### The trip (R408) -/

/-- Time units of a second. -/
def second : Nat := 12000000000

/-- Discards the root region (R385). -/
def discardRoot (s : State) : State :=
  match s.regions.find? fun p => p.2.parent.isNone && p.2.status != 2 with
  | some (r, _) => discard s r
  | none => s

/-- The trip: the root is discarded, every queue sets ERROR, TRIP and BOOTSTATE 6 are set. -/
def tripNow (s : State) : State :=
  modHost (discardRoot s) fun h => { h with
    queues := fmapv (fun _ q => { q with error := true }) h.queues
    trip := true, bootstate := 6, failCode := Config.failureCode 6 % 2 ^ 32, tripAt := some s.time }

/-- Whether the module may take a trip. -/
def canTrip (s : State) : Bool := !s.host.trip && s.host.powered

/-- THERMAL_TRIP: TJMAX has reached 105 °C. -/
def execThermalTrip (s : State) : Host.Outcome State Fault Refusal :=
  .next (if canTrip s && decide (1680 ≤ s.host.tjmax) then tripNow s else s)

/-- Whether a second has passed since a time. -/
def secondSince (s : State) (t : Option Nat) : Bool :=
  match t with
  | some t => decide (t + second ≤ s.time)
  | none => false

/-- COOLANT_TIMEOUT: the inlet has been above 45 °C, or the flow below 750 mL/min, for 1 s. -/
def execCoolantTimeout (s : State) : Host.Outcome State Fault Refusal :=
  .next (if canTrip s && (secondSince s s.host.hotSince || secondSince s s.host.dryAt) then tripNow s else s)

/-- DIE_POWER_OFF: 1 s after a trip the compute dies lose power, and with it what their caches hold. -/
def execDiePowerOff (s : State) : Host.Outcome State Fault Refusal :=
  .next (if s.host.powered && secondSince s s.host.tripAt then
      modHost { s with hostL2 := [], tlb := [], pool := [], flushes := [] } fun h => { h with powered := false }
    else s)

end Sys2Proof.Machine
end

