-- ==== Sys2Proof/Machine/Boot.lean ====
section
/-! DEFINITION. Boot, firmware restart, the mailbox and SPDM (spec/01 R16, R22; spec/03 R409; spec/19 R336, R338; spec/25
R400-R405). -/

namespace Sys2Proof.Machine

open Sys2Proof

/-! ### Images (R402) -/

/-- Whether an image verifies: its signature holds and its version is not below its fused counter. -/
def imageGood (s : State) (i : Nat) (x : Image) : Bool := x.sigOk && decide (fgetD s.host.counters i 0 ≤ x.version)

/-- The image Beryl loads: the first bank's, else the second's. -/
def verifyImage (s : State) (i : Nat) : Option Image :=
  [s.host.bank0, s.host.bank1].findSome? fun b => (fget b i).bind fun x => if imageGood s i x then some x else none

/-- Verifies the images in order: Beryl's second stage, Jasper, Spinel and die microcode; or names the first for which
both banks fail. -/
def verifyImages (s : State) : List Nat → Except Nat (FMap Image)
  | [] => .ok []
  | i :: rest => match verifyImage s i with
    | none => .error i
    | some x => (verifyImages s rest).map fun m => (i, x) :: m

/-- The measurements at SPDM indices 1 to 5; the last covers the fused counters. -/
def measure (m : FMap Image) (counters : FMap Nat) : FMap Nat :=
  fset (m.map fun p => (p.1, p.2.digest)) 5 (Config.fuseDigest counters)

/-! ### Boot (R401, R409) -/

/-- What reset release leaves: every register at its reset value. Flash, fuses, the incarnation, host memory and what the
environment has yet to do stay; warm boot also keeps the time, device memory, and the bias of granules with the lines the
host holds. -/
def releaseReset (cold : Bool) (s : State) : State :=
  let now := if cold then 0 else s.time
  { State.reset with
    time := now
    agenda := s.agenda
    fresh := s.fresh
    serial := s.serial
    mem := if cold then s.mem.filter fun c => decide (hostBase ≤ c.1) else s.mem
    hostLines := if cold then [] else s.hostLines
    host := { HostState.reset with
      resetAt := now
      incarnation := s.host.incarnation
      bank0 := s.host.bank0
      bank1 := s.host.bank1
      counters := s.host.counters
      reached := s.host.reached
      windows := now / millisecond
      hostBias := if cold then [] else s.host.hostBias } }

/-- A cluster not yet started. -/
def idleCluster : Cluster := ⟨false, false, false, none, [], []⟩

/-- Steps 1 and 2 of Table 25.7: Beryl runs and verifies the images. -/
def bootImages (s : State) : State :=
  match verifyImages s [1, 2, 3, 4] with
  | .error i => modHost s fun h => { h with bootstate := 5, failCode := Config.failureCode i % 2 ^ 32 }
  | .ok _ => modHost s fun h => { h with bootstate := 1 }

/-- Step 3 and the beginning of step 4 of Table 25.7: the images are loaded and measured, and the clusters wait to start,
the first of them now. -/
def loadImages (s : State) : State :=
  match verifyImages s [1, 2, 3, 4] with
  | .error _ => s
  | .ok m =>
    { modHost s fun h => { h with
        bootstate := 2, running := m, measurements := measure m h.counters, startAt := s.time } with
      clusters := (numsFrom 0 Config.clusters).map fun c => (c, idleCluster) }

/-- A link port as trained. -/
def trainedLink : LinkPort where
  nextSeq := 0
  expSeq := 0
  acked := 4095
  replay := []
  waiting := []
  naks := 0
  nakAt := 0
  discarding := false
  nakOut := none
  retrainFails := 0
  status := 0
  rx := []
  retired := 0
  dedup := 0
  retrain := 0
  replayed := 0
  flitsRx := 0
  flitsTx := 0

/-- The root region (Table 3.1a). -/
def rootRegion (ptroot handle : DWord) : Region where
  status := 0
  depth := 0
  ovr := 0
  share := 1
  fdom := 1
  prio := 0
  maxcores := 192
  mincores := 0
  sramg := 12288
  objq := 1048576
  msgpool := 0xFFFFFFFF
  energy := 0xFFFFFFFF
  deepp := 25165824
  hbmp := 12582912
  trapvec := 0
  ptroot := ptroot
  parentHandle := 0
  handle := handle
  parent := none
  index := hIndex handle
  cSram := 0
  cHbm := 0
  cDeep := 0
  cObj := 0
  cMsg := 0
  vserv := 0
  account := 0
  events := []
  evOver := 0
  progress := 0
  deadFor := 0
  deadRaised := false
  gen := 0
  ckDest := none
  ckRoom := 0
  ckNext := 0
  ckCut := false
  ckRun := none
  discarding := false

/-- Creates the root region, its level-0 table in a cleared frame of D0. -/
def createRoot (s : State) : State :=
  match takeHbm s 0 with
  | none => s
  | some (f, s1) => match makeObject (zeroFrame s1 f) tREGION s1.serial (typeRights tREGION) 0 false with
    | .error _ => s
    | .ok m => { m.st with regions := fset m.st.regions m.obj (rootRegion (BitVec.ofNat 64 (f * 65536)) m.handle) }

/-- Steps 5 and 6 of Table 25.7: the links are trained, the root region made, the incarnation increased, and the queues
become fetchable. -/
def finishBoot (s : State) : State :=
  let s := createRoot { s with links := (numsFrom 0 16).map fun p => (p, trainedLink) }
  modHost s fun h => { h with
    incarnation := (h.incarnation + 1) % 2 ^ 24, bootstate := 3, everReady := true
    reached := (h.reached ++ h.running.map fun p => (p.1, p.2.version)).dedup }

/-- COLD_RESET: SR.TIME is cleared, and the boot steps run (R16, R401). -/
def execColdReset (s : State) : Host.Outcome State Fault Refusal := .next (bootImages (releaseReset true s))

/-- WARM_BOOT: SR.TIME keeps counting, and the boot steps run (R16, R401). After a thermal trip only cold reset leaves the
state (R408). -/
def execWarmBoot (s : State) : Host.Outcome State Fault Refusal :=
  .next (if s.host.trip then s else bootImages (releaseReset false s))

/-- Whether the time of a cluster's start has come: one starts every 2 microseconds (R22). -/
def clusterTime (s : State) (cluster : Nat) : Bool := decide (s.host.startAt + 24000 * cluster ≤ s.time)

/-- CLUSTER_START: the clusters start one after another (R22), the first once the images are loaded; with the last of them
the boot goes on to its end. -/
def execClusterStart (cluster : Nat) (s : State) : Host.Outcome State Fault Refusal :=
  .next (let s := if s.host.bootstate = 1 ∧ cluster = 0 then loadImages s else s
    match fget s.clusters cluster with
    | none => s
    | some c =>
      if s.host.bootstate ≠ 2 ∨ c.started ∨ !clusterTime s cluster ∨ s.clusters.any (fun p => decide (p.1 < cluster) && !p.2.started) then s
      else
        let s := { s with clusters := fset s.clusters cluster { c with started := true } }
        if s.clusters.all fun p => p.2.started then finishBoot s else s)

/-! ### Firmware restart (R404) -/

/-- Starts a firmware restart; the third within 10 s sets BOOTSTATE 5 and discards the root region. -/
def startRestart (s : State) : State :=
  if s.host.bootstate ≠ 3 then s
  else
    let recent := s.host.restarts.filter fun t => decide (s.time < t + 10 * second)
    let s := modHost s fun h => { h with restarts := s.time :: recent }
    if 2 ≤ recent.length then
      modHost (discardRoot s) fun h => { h with bootstate := 5, failCode := Config.failureCode 5 % 2 ^ 32 }
    else modHost s fun h => { h with bootstate := 4 }

/-- JASPER_HEARTBEAT_TIMEOUT: no heartbeat for 10 ms. -/
def execJasperHeartbeatTimeout (s : State) : Host.Outcome State Fault Refusal := .next (startRestart s)

/-- JASPER_EXCEPTION -/
def execJasperException (s : State) : Host.Outcome State Fault Refusal := .next (startRestart s)

/-! ### Bias flips (R395) -/

/-- BIASCMD's BUSY. -/
def biasBusy (s : State) : Bool := s.host.biascmd.getLsbD 63

/-- Clears BUSY: the flip is over. -/
def biasEnd (s : State) : State := modHost s fun h => { h with biascmd := h.biascmd &&& 0x7FFFFFFFFFFFFFFF, flip := none }

/-- Begins the flip that BIASCMD holds; one to the bias the granule has completes at once. -/
def beginFlip (s : State) : State :=
  let gran := s.host.biascmd.toNat % 2 ^ 18
  let toDevice := s.host.biascmd.getLsbD 18
  if !biasBusy s || s.host.flip.isSome then s
  else if toDevice != s.host.hostBias.contains gran then biasEnd s
  else modHost s fun h => { h with flip := some ⟨gran, toDevice, if toDevice then numsFrom (gran * 32) 32 else [], s.time⟩ }

/-- FIRMWARE_RESTART_DONE: BOOTSTATE is 3 again, the words held are written in completion order, and the commands that
waited begin. -/
def execFirmwareRestartDone (s : State) : Host.Outcome State Fault Refusal :=
  .next (if s.host.bootstate ≠ 4 then s
    else
      let s1 := s.host.heldWords.foldl writeCompletion s
      serveMig (beginFlip (modHost s1 fun h => { h with bootstate := 3, heldWords := [] })))

/-! ### The mailbox (R405) -/

/-- Ends a mailbox command: response word 0 holds the result. -/
def mailboxDone (s : State) (result : Nat) : State :=
  modHost s fun h => { h with mboxResp := h.mboxResp.set 0 (BitVec.ofNat 64 result) }

/-- The mailbox's BUSY. -/
def mailboxBusy (s : State) : Bool := (s.host.mboxResp.getD 0 0).getLsbD 63

/-- A request of the driver: its first words are written, the first of them last, which starts the command (assumption log
79 gives the words' places). One that comes while a command runs changes nothing. -/
def request (s : State) (words : List Nat) : State :=
  if !windowOpen s || mailboxBusy s then s
  else modHost s fun h => { h with
    mboxReq := words.map (BitVec.ofNat 64) ++ h.mboxReq.drop words.length
    mboxResp := h.mboxResp.set 0 0x8000000000000000 }

/-- Whether a name is registered: a binding stands in this module's directory, or in another's, whether this module keeps a copy of
it or knows nothing of it, which is free (R405; spec/19 R336; assumption log 12). -/
def nameRegistered (s : State) : Bool :=
  s.names.any (fun b => !b.2.ended) || s.aqueduct.any (fun b => !b.2.ended) ||
    (decide (1 < s.host.domainSize) && Config.namesElsewhere s.fresh)

/-- DOMAIN: refused while any name is registered, or outside m < D ≤ 1024. -/
def runDomain (m d : Nat) (s : State) : State :=
  if d ≤ m ∨ 1024 < d ∨ nameRegistered s = true then mailboxDone s 1
  else mailboxDone (modHost s fun h => { h with module := m, domainSize := d }) 0

/-- COMMIT: raises a fused counter to a version whose image has reached BOOTSTATE 3 (R402). -/
def runCommit (image version : Nat) (s : State) : State :=
  if !s.host.reached.contains (image, version) then mailboxDone s 1
  else mailboxDone (modHost s fun h =>
    { h with counters := fset h.counters image (max version (fgetD h.counters image 0)) }) 0

/-- Runs the request that the mailbox holds. STAGE stays busy until the image has been read from the host (execStage). -/
def runMailbox (s : State) : State :=
  if !mailboxBusy s then s
  else
    let w := fun i => (s.host.mboxReq.getD i 0).toNat
    match w 0 with
    | 1 => runDomain (w 1) (w 2) s
    | 2 => if s.host.bootstate = 3 then mailboxDone (startRestart s) 0 else mailboxDone s 1
    | 3 => s
    | 4 => runCommit (w 1) (w 2) s
    | _ => mailboxDone s 2

/-- DOMAIN -/
def execDomain (m d : Nat) (s : State) : Host.Outcome State Fault Refusal := .next (runMailbox (request s [1, m, d]))

/-- RESTART -/
def execRestart (s : State) : Host.Outcome State Fault Refusal := .next (runMailbox (request s [2]))

/-- STAGE: an image, 1 to 4, goes to the second flash bank; it ends a STAGE that a register write has started, too. -/
def execStage (image version : Nat) (sigOk : Bool) (digest : Nat) (s : State) : Host.Outcome State Fault Refusal :=
  .next (let t := request s [3, image]
    if !windowOpen t || !mailboxBusy t || t.host.mboxReq.getD 0 0 != 3 then s
    else if image = 0 ∨ 4 < image then mailboxDone t 1
    else mailboxDone (modHost t fun h => { h with bank1 := fset h.bank1 image ⟨version, sigOk, digest⟩ }) 0)

/-- COMMIT -/
def execCommit (image version : Nat) (s : State) : Host.Outcome State Fault Refusal :=
  .next (runMailbox (request s [4, image, version]))

/-- A mailbox request that names no known command completes with result 2. -/
def execUnknownMailboxCommand (code : Nat) (s : State) : Host.Outcome State Fault Refusal :=
  .next (if 1 ≤ code ∧ code ≤ 4 then s else runMailbox (request s [code % 2 ^ 64]))

/-! ### SPDM (R402) -/

/-- Beryl's answer: the request's number, then its words. -/
def spdmAnswer (s : State) (kind : Nat) (words : List Nat) : State :=
  if s.host.bootstate = 0 then s
  else modHost s fun h => { h with spdm := BitVec.ofNat 64 kind :: words.map (BitVec.ofNat 64) }

/-- GET_VERSION: SPDM 1.3 (Table 25.1). -/
def execGetVersion (s : State) : Host.Outcome State Fault Refusal := .next (spdmAnswer s 1 [0x13])

/-- GET_CAPABILITIES -/
def execGetCapabilities (s : State) : Host.Outcome State Fault Refusal := .next (spdmAnswer s 2 [Config.spdmReply 2 []])

/-- NEGOTIATE_ALGORITHMS -/
def execNegotiateAlgorithms (s : State) : Host.Outcome State Fault Refusal :=
  .next (spdmAnswer s 3 [Config.spdmReply 3 []])

/-- GET_DIGESTS -/
def execGetDigests (s : State) : Host.Outcome State Fault Refusal := .next (spdmAnswer s 4 [Config.spdmReply 4 []])

/-- GET_CERTIFICATE of a slot -/
def execGetCertificate (slot : Nat) (s : State) : Host.Outcome State Fault Refusal :=
  .next (spdmAnswer s 5 [Config.spdmReply 5 [slot]])

/-- A signature of the device key of slot 0 over some words: 96 bytes, which the manual does not give (assumption log 15). -/
def signature (kind : Nat) (words : List Nat) : List Nat :=
  (numsFrom 0 12).map fun i => Config.spdmReply kind (i :: words)

/-- CHALLENGE: signed with the device key of slot 0 over the nonce and the measurements. -/
def execChallenge (slot nonce : Nat) (s : State) : Host.Outcome State Fault Refusal :=
  .next (spdmAnswer s 6 (signature 6 (slot :: nonce :: s.host.measurements.map Prod.snd)))

/-- The 48 bytes of a digest as six words, low word first. -/
def digestWords (x : Nat) : List Nat := (numsFrom 0 6).map fun i => x / 2 ^ (64 * i) % 2 ^ 64

/-- GET_MEASUREMENTS: the digest at an index, 1 to 5, signed. -/
def execGetMeasurements (index : Nat) (s : State) : Host.Outcome State Fault Refusal :=
  .next (spdmAnswer s 7 (match fget s.host.measurements index with
    | some x => index :: digestWords x ++ signature 7 [index, x]
    | none => [Config.spdmReply 7 [index]]))

end Sys2Proof.Machine
end

