-- ==== Sys2Proof/Machine/Window.lean ====
section
/-! DEFINITION. The register window, doorbells, queue contexts, BIASCMD and the coherent window as the host sees them
(spec/15 R284; spec/17 R297; spec/19 R345; spec/21 R346, R347, R357; spec/25 R392-R396, R406). -/

namespace Sys2Proof.Machine

open Sys2Proof

/-! ### Queues (R346, R347) -/

/-- A queue at reset; a thermal trip has set ERROR in every queue (R408). -/
def blankQueue (s : State) : Queue := ⟨0, 0, 0, 0, 0, s.host.trip, false, false, 0⟩

def getQueue (s : State) (q : Nat) : Queue := fgetD s.host.queues q (blankQueue s)

def setQueue (s : State) (q : Nat) (x : Queue) : State := modHost s fun h => { h with queues := fset h.queues q x }

/-- DOORBELL_WRITE: a write of w to a queue's doorbell (R347); any write but an aligned 8-byte one sets ERROR. -/
def doorbell (s : State) (q size w : Nat) : State :=
  let x := getQueue s q
  if !windowOpen s || decide (4096 ≤ q) then s
  else if size ≠ 8 then setQueue s q { x with error := true }
  else if w ≤ x.latch then s
  else if x.ci + 2 ^ x.lsize < w then setQueue s q { x with overrun := true }
  else setQueue s q { x with latch := w }

def execDoorbellWrite (q size val : Nat) (s : State) : Host.Outcome State Fault Refusal :=
  .next (doorbell s q size (val % 2 ^ 64))

/-- Sets EN: from 0 it clears ERROR and validates the queue (R346). -/
def enableQueue (s : State) (q : Nat) : State :=
  let x := getQueue s q
  if x.en then s
  else
    let good := decide (4 ≤ x.lsize ∧ x.lsize ≤ 16) && (regionOfIndex s x.rgn).isSome
    setQueue s q { x with en := true, error := !good }

/-- Clears EN, CI and LATCH (R346). -/
def disableQueue (s : State) (q : Nat) : State :=
  setQueue s q { getQueue s q with en := false, ci := 0, latch := 0 }

/-- QUEUE_ENABLE -/
def execQueueEnable (q : Nat) (s : State) : Host.Outcome State Fault Refusal :=
  .next (if windowOpen s && decide (q < 4096) then enableQueue s q else s)

/-- QUEUE_DISABLE -/
def execQueueDisable (q : Nat) (s : State) : Host.Outcome State Fault Refusal :=
  .next (if windowOpen s && decide (q < 4096) then disableQueue s q else s)

/-! ### Parameters and caps (R357, R406) -/

/-- Writes AGELIMIT or QUANTUM; a value outside its limits is refused (Table 21.2). -/
def writeParam (s : State) (quantum : Bool) (v : Nat) : State :=
  if quantum then (if 65536 ≤ v ∧ v ≤ 16777216 then { s with quantum := v } else s)
  else if 65536 ≤ v ∧ v ≤ 67108864 then { s with agelimit := v } else s

/-- SCHED_PARAM_WRITE -/
def execSchedParamWrite (quantum : Bool) (val : Nat) (s : State) : Host.Outcome State Fault Refusal :=
  .next (if windowOpen s then writeParam s quantum val else s)

/-- CAP_WRITE -/
def execCapWrite (val : Nat) (s : State) : Host.Outcome State Fault Refusal :=
  .next (if windowOpen s then capWrite val s else s)

/-! ### BIASCMD (R395, Table 25.4) -/

/-- A write to BIASCMD; `lo` and `hi` tell which of its halves it covers. -/
def biasWrite (s : State) (lo hi : Bool) (v : Nat) : State :=
  if v / 2 ^ 19 % 2 ^ 42 ≠ 0 then s
  else if lo && biasBusy s then modHost s fun h => { h with biascmd := h.biascmd ||| 0x2000000000000000 }
  else
    let clear : DWord := if hi then BitVec.ofNat 64 (v / 2 ^ 61 % 4 * 2 ^ 61) else 0
    let s := modHost s fun h => { h with biascmd := h.biascmd &&& ~~~ clear }
    if !lo then s
    else
      let s := modHost s fun h => { h with
        biascmd := (h.biascmd &&& 0x6000000000000000) ||| BitVec.ofNat 64 (2 ^ 63 + v % 2 ^ 19) }
      if s.host.bootstate = 4 then s else beginFlip s

/-- BIAS_FLIP_DEVICE: BIASCMD written with TARGET 1. -/
def execBiasFlipDevice (gran : Nat) (s : State) : Host.Outcome State Fault Refusal :=
  .next (if windowOpen s then biasWrite s true true (2 ^ 18 + gran % 2 ^ 18) else s)

/-- BIAS_FLIP_HOST: BIASCMD written with TARGET 0. -/
def execBiasFlipHost (gran : Nat) (s : State) : Host.Outcome State Fault Refusal :=
  .next (if windowOpen s then biasWrite s true true (gran % 2 ^ 18) else s)

/-- A line of a flip to device bias is settled; with the last, the bitmap bit is set and BUSY clears. The logged accesses that
waited for the line go on (spec/11 R198). -/
def lineSettled (s : State) (f : Flip) (line : Nat) : State :=
  let rest := f.lines.filter (· != line)
  replayAll (if rest.isEmpty then biasEnd (modHost s fun h => { h with hostBias := h.hostBias.filter (· != f.gran) })
    else modHost s fun h => { h with flip := some { f with lines := rest } })

/-- BIAS_SNOOP_RESPONSE: modified data is written at the home. -/
def execBiasSnoopResponse (line : Nat) (modified : Bool) (data : List (BitVec 8)) (s : State) :
    Host.Outcome State Fault Refusal :=
  .next (match s.host.flip with
    | none => s
    | some f =>
      if !f.toDevice || !f.lines.contains line then s
      else
        let s := if modified then
            { s with mem := setBytes s.mem (line * 128) (data.take 128), hostLines := fdel s.hostLines line }
          else touchLine s (line * 128)
        lineSettled s f line)

/-- BIAS_SNOOP_TIMEOUT: after 10 ms a line keeps its HBM value, TMO is set and the host's data is lost. -/
def execBiasSnoopTimeout (line : Nat) (s : State) : Host.Outcome State Fault Refusal :=
  .next (match s.host.flip with
    | none => s
    | some f =>
      if !f.toDevice || !f.lines.contains line || decide (s.time ≤ f.since + 10 * millisecond) then s
      else
        let s := modHost { s with hostLines := fdel s.hostLines line } fun h =>
          { h with biascmd := h.biascmd ||| 0x4000000000000000 }
        lineSettled s f line)

/-- BIAS_FLIP_HOST_DONE: the granule's modified copies are in HBM; the bit and BUSY clear. -/
def execBiasFlipHostDone (s : State) : Host.Outcome State Fault Refusal :=
  .next (match s.host.flip with
    | none => s
    | some f =>
      if f.toDevice then s
      else biasEnd (modHost s fun h => { h with hostBias := f.gran :: h.hostBias.filter (· != f.gran) }))

/-! ### The coherent window (R299, R394) -/

/-- Whether the host may hold a line: its granule is in host bias, or its flip to device bias still waits for it. -/
def hostMayHold (s : State) (line : Nat) : Bool :=
  s.host.hostBias.contains (line / 32) && (match s.host.flip with
    | some f => !(f.toDevice && f.gran == line / 32) || f.lines.contains line
    | none => true)

/-- The host writes a byte of the window. -/
def hostWriteByte (s : State) (pa : Nat) (x : BitVec 8) : State :=
  if hostMayHold s (pa / 128) then
    let l := (fget s.hostLines (pa / 128)).getD (bytesAt s.mem (pa / 128 * 128) 128)
    { s with hostLines := fset s.hostLines (pa / 128) (l.set (pa % 128) x) }
  else { s with mem := setByte s.mem pa x }

/-- What the host reads in the window. -/
def hostRead (s : State) (pa n : Nat) : Nat := leNat ((numsFrom pa n).map (viewByte s))

/-- HOST_WINDOW_ACCESS: at the home in device bias, in the host's cache in host bias. A write to the host's own memory is
taken as what the host does there (assumption log 16). -/
def execHostWindowAccess (write : Bool) (pa size val : Nat) (s : State) : Host.Outcome State Fault Refusal :=
  .next (if !write || !s.host.everReady || !s.host.powered then s
    else if pa + size ≤ 0x40000000 then
      ((numsFrom pa size).zip (leBytes size val)).foldl (fun s p => hostWriteByte s p.1 p.2) s
    else if hostBase ≤ pa ∧ pa + size ≤ 2 * hostBase then { s with mem := setBytes s.mem pa (leBytes size val) }
    else s)

/-- UNSUPPORTED_REQUEST: completed as Unsupported Request, with no other effect (R392). -/
def execUnsupportedRequest (s : State) : Host.Outcome State Fault Refusal := .next s

/-! ### Reading the window (R393, Tables 25.2-25.4, 25.8, 21.1, 15.4, 17.2, 19.5) -/

/-- The queues a virtual function owns, ascending. -/
def ownedQueues (s : State) (fn : Nat) : List Nat :=
  s.host.queues.filterMap fun p => if p.2.owner == fn && decide (p.1 < 4096) then some p.1 else none

/-- A bit as a number. -/
def bitNum (b : Bool) : Nat := if b then 1 else 0

/-- Doubleword `i` of a queue context (Table 21.1). -/
def queueDword (s : State) (q i : Nat) : Nat :=
  let x := getQueue s q
  match i with
  | 0 => bitNum x.en + 2 * bitNum x.overrun + 4 * bitNum x.error + x.lsize * 2 ^ 32 + x.rgn * 2 ^ 44
  | 1 => x.base
  | 2 => x.ci
  | _ => x.latch

/-- The identity and status block (Table 25.3). -/
def identDword (s : State) (i : Nat) : Nat :=
  match i with
  | 0 => 0x940 + 0xB1 * 2 ^ 32
  | 1 => 3 * 2 ^ 24 + s.host.release % 2 ^ 24
  | 2 => s.host.bootstate + s.host.failCode * 2 ^ 32
  | 3 => s.host.incarnation + (s.host.module + (s.host.domainSize - 1) * 2 ^ 16) * 2 ^ 32
  | 4 => ticks s
  | _ => 0

/-- The power and thermal block (Table 25.8). -/
def powerDword (s : State) (i : Nat) : Nat :=
  let h := s.host
  match i with
  | 0 => h.capNext.getD h.cap + 2 ^ 16 * bitNum h.caperr + 2 ^ 17 * bitNum h.trip + h.ecap * 2 ^ 32 +
      h.draw % 2 ^ 16 * 2 ^ 48
  | 1 => h.draw / 2 ^ 16 + h.flow * 2 ^ 16 + h.tin * 2 ^ 32 + h.tjmax * 2 ^ 48
  | _ => 0

/-- A channel record (Table 15.4), a lease record (Table 17.2), a link record (Table 19.5). -/
def channelDword (s : State) (ch i : Nat) : Nat :=
  let r := fgetD s.channels ch (0, 0, 0)
  match i with
  | 0 => (r.2.2 % 32).toNat
  | 1 => r.2.1
  | 2 => r.1
  | _ => 0

def leaseDword (s : State) (core i : Nat) : Nat :=
  let a := fgetD s.accesses core (0, 0)
  let counted := fun n (f : Nat → Bool) => ((numsFrom 0 n).filter f).length
  (match i with
  | 0 => counted a.1 (Config.leaseFigure core 0)
  | 1 => counted a.1 fun k => Config.leaseFigure core 1 k && !Config.leaseFigure core 0 k
  | 2 => fgetD s.leases core 0
  | _ => counted a.2 (Config.leaseFigure core 3)) % 2 ^ 64

def linkDword (s : State) (p i : Nat) : Nat :=
  match fget s.links p with
  | none => 0
  | some l => [l.flitsTx, l.flitsRx, l.replayed, l.retrain, l.dedup, l.retired].getD i 0

/-- The doubleword of the bias bitmap for granules from 64 w. -/
def biasDword (s : State) (w : Nat) : Nat :=
  (numsFrom 0 64).foldr (fun i n => 2 * n + bitNum (!s.host.hostBias.contains (64 * w + i))) 0

/-- The commands block at 0x003_0000. -/
def commandDword (s : State) (o : Nat) : Nat :=
  let h := s.host
  if o = 0 then h.biascmd.toNat
  else if o = 0x40 then h.migRegion.toNat
  else if o = 0x48 then h.migVa.toNat
  else if o = 0x50 then h.migCmd.toNat
  else if o = 0x58 then h.migResult.toNat
  else if 0x100 ≤ o ∧ o < 0x140 then (h.mboxReq.getD ((o - 0x100) / 8) 0).toNat
  else if 0x140 ≤ o ∧ o < 0x180 then (h.mboxResp.getD ((o - 0x140) / 8) 0).toNat
  else 0

/-- The aligned doubleword of the PF's BAR0 at an offset (Table 25.2). -/
def pfDword (s : State) (off : Nat) : Nat :=
  if off < 0x10000 then identDword s (off / 8)
  else if !s.host.everReady then 0
  else if off = 0x10000 then s.agelimit
  else if off = 0x10008 then s.quantum
  else if 0x20000 ≤ off ∧ off < 0x20010 then powerDword s ((off - 0x20000) / 8)
  else if 0x30000 ≤ off ∧ off < 0x40000 then commandDword s (off - 0x30000)
  else if 0x100000 ≤ off ∧ off < 0x120000 then queueDword s ((off - 0x100000) / 32) (off / 8 % 4)
  else if 0x130000 ≤ off ∧ off < 0x131000 then
    (numsFrom 0 8).foldr (fun i n => 256 * n + (getQueue s (off - 0x130000 + i)).owner) 0
  else if 0x400000 ≤ off ∧ off < 0x440000 ∧ off % 0x10000 < 3072 then
    channelDword s ((off - 0x400000) / 0x10000 * 96 + off % 0x10000 / 32) (off / 8 % 4)
  else if 0x500000 ≤ off ∧ off < 0x540000 ∧ off % 0x10000 < 1536 then
    leaseDword s ((off - 0x500000) / 0x10000 * 48 + off % 0x10000 / 32) (off / 8 % 4)
  else if 0x600000 ≤ off ∧ off < 0x600400 then linkDword s ((off - 0x600000) / 64) (off / 8 % 8)
  else if 0x800000 ≤ off ∧ off < 0x808000 then biasDword s ((off - 0x800000) / 8)
  else 0

/-- The aligned doubleword of a VF's BAR0 at an offset. -/
def vfDword (s : State) (fn off : Nat) : Nat :=
  if !s.host.everReady then 0
  else match (ownedQueues s fn)[off / 32]? with
    | some q => if off < 0x80000 then queueDword s q (off / 8 % 4) else 0
    | none => 0

/-- What a host read of the register window returns: the PF is function 0, VF n is function n (R393). -/
def barRead (s : State) (fn off size : Nat) : Nat :=
  if (size ≠ 4 ∧ size ≠ 8) ∨ off % size ≠ 0 ∨ 64 < fn then 0
  else
    let d := if fn = 0 then pfDword s (off / 8 * 8) else vfDword s fn (off / 8 * 8)
    d / 2 ^ (8 * (off % 8)) % 2 ^ (8 * size)

/-! ### Writing the window (R393) -/

/-- A doubleword with the covered halves replaced. -/
def mergeHalves (old v : Nat) (lo hi : Bool) : Nat :=
  (if lo then v % 2 ^ 32 else old % 2 ^ 32) + (if hi then v / 2 ^ 32 % 2 ^ 32 else old / 2 ^ 32 % 2 ^ 32) * 2 ^ 32

/-- A write to a queue context (Table 21.1). -/
def queueWrite (s : State) (q i v : Nat) (lo hi : Bool) : State :=
  let x := getQueue s q
  match i with
  | 0 =>
    let y := if hi && !x.en then { x with lsize := v / 2 ^ 32 % 32, rgn := v / 2 ^ 44 % 2 ^ 20 } else x
    let s1 := if hi && !x.en then setQueue s q y else s
    if !lo then s1
    else
      let z := { y with
        overrun := y.overrun && v / 2 % 2 == 0, error := y.error && (v / 4 % 2 == 0 || x.en) }
      let s2 := if z = x then s1 else setQueue s q z
      if v % 2 = 1 then enableQueue s2 q else disableQueue s2 q
  | 1 => if x.en then s else setQueue s q { x with base := mergeHalves x.base v lo hi / 64 * 64 }
  | _ => s

/-- Writes the owner bytes of the queues from q (Table 25.2). -/
def writeOwners (s : State) (q v : Nat) (lo hi : Bool) : State :=
  ((if lo then numsFrom 0 4 else []) ++ if hi then numsFrom 4 4 else []).foldl (fun s i =>
    let b := v / 2 ^ (8 * i) % 256
    let x := getQueue s (q + i)
    if 64 < b ∨ x.en = true then s else setQueue s (q + i) { x with owner := b }) s

/-- A write to the commands block. A write of the first word of BIASCMD, of MIGCMD's command or of a mailbox request starts
its command. -/
def commandWrite (s : State) (o v : Nat) (lo hi : Bool) : State :=
  let h := s.host
  let put := fun (x : DWord) => BitVec.ofNat 64 (mergeHalves x.toNat v lo hi)
  if o = 0 then biasWrite s lo hi v
  else if o = 0x40 then { s with host := { h with migRegion := put h.migRegion } }
  else if o = 0x48 then { s with host := { h with migVa := put h.migVa } }
  else if o = 0x50 then
    (if lo then migCommand s h.migRegion.toNat h.migVa.toNat (put h.migCmd).toNat (Config.freeValue s.fresh) else s)
  else if 0x100 ≤ o ∧ o < 0x140 then
    let i := (o - 0x100) / 8
    if mailboxBusy s then s
    else
      let t := { s with host := { h with
        mboxReq := h.mboxReq.set i (put (h.mboxReq.getD i 0))
        mboxResp := if i = 0 ∧ lo = true then h.mboxResp.set 0 0x8000000000000000 else h.mboxResp } }
      if i = 0 ∧ lo = true then runMailbox t else t
  else s

/-- A write to an aligned doubleword of the PF's BAR0, outside the doorbells. -/
def pfWrite (s : State) (off v : Nat) (lo hi : Bool) : State :=
  if off = 0x10000 then writeParam s false (mergeHalves s.agelimit v lo hi)
  else if off = 0x10008 then writeParam s true (mergeHalves s.quantum v lo hi)
  else if off = 0x20000 then
    (if lo then capWrite (v % 65536) (modHost s fun h => { h with caperr := h.caperr && v / 65536 % 2 == 0 }) else s)
  else if 0x30000 ≤ off ∧ off < 0x40000 then commandWrite s (off - 0x30000) v lo hi
  else if 0x100000 ≤ off ∧ off < 0x120000 then queueWrite s ((off - 0x100000) / 32) (off / 8 % 4) v lo hi
  else if 0x130000 ≤ off ∧ off < 0x131000 then writeOwners s (off - 0x130000) v lo hi
  else s

/-- REGISTER_WRITE: a host write of `size` bytes at an offset of a function's BAR0. -/
def execRegisterWrite (fn off size val : Nat) (s : State) : Host.Outcome State Fault Refusal :=
  .next (let lo := decide (off % 8 = 0)
    let hi := decide (size = 8 ∨ off % 8 = 4)
    let v := val % 2 ^ (8 * size) * 2 ^ (8 * (off % 8))
    let plain := (size == 4 || size == 8) && off % size == 0
    let bell := fun (o : Nat) => if off % 8 = 0 then o else 0
    if !windowOpen s || decide (64 < fn) then s
    else if fn = 0 then
      (if 0x1000000 ≤ off ∧ off < 0x1008000 then doorbell s ((off - 0x1000000) / 8) (bell size) (val % 2 ^ 64)
       else if plain then pfWrite s (off / 8 * 8) v lo hi else s)
    else
      let mine := ownedQueues s fn
      if 0x80000 ≤ off then match mine[(off - 0x80000) / 8]? with
        | some q => doorbell s q (bell size) (val % 2 ^ 64)
        | none => s
      else if !plain then s
      else match mine[off / 32]? with
        | some q => queueWrite s q (off / 8 % 4) v lo hi
        | none => s)

end Sys2Proof.Machine
end

