-- ==== Sys2Proof/Machine/Packets.lean ====
section
/-! DEFINITION. Queue packets: fetch, acceptance, work and completion (spec/21 R348-R350; spec/23 R390, R391; spec/25
R397-R399, R403). -/

namespace Sys2Proof.Machine

open Sys2Proof

/-! ### Fetching (R348-R350) -/

/-- Bytes of host memory outside the device. -/
def hostBytes (s : State) (a n : Nat) : List (BitVec 8) := bytesAt s.mem (hostBase + a % hostBase) n

/-- The packet a queue fetches next, while it fetches. -/
def nextPacket (s : State) (q : Nat) : Option (List (BitVec 8)) :=
  match fget s.host.queues q with
  | none => none
  | some x =>
    if s.host.bootstate = 3 ∧ s.host.powered ∧ x.en ∧ !x.error ∧ x.ci < x.latch then
      some (hostBytes s (x.base + 64 * (x.ci % 2 ^ x.lsize)) 64)
    else none

/-- A packet's 8-byte word. -/
def pktWord (bs : List (BitVec 8)) (i : Nat) : Nat := fieldAt bs (8 * i) 8

/-- Whether a queue's next packet may be accepted: one with BARRIER waits for every earlier packet of its queue (R349). -/
def acceptable (s : State) (q : Nat) : Bool :=
  match nextPacket s q with
  | none => false
  | some bs => pktWord bs 0 / 256 % 2 == 0 || !s.host.packets.any fun p => p.2.q == q

/-- The queue a Spinel fetches from next: ascending from its last visit, wrapping around (R350). -/
def spinelNext (s : State) (sp : Nat) : Option Nat :=
  let ready := (s.host.queues.map Prod.fst).filter fun q => q % 6 == sp && acceptable s q
  let last := fget s.host.visits sp
  match ready.find? fun q => match last with
    | some l => decide (l < q)
    | none => true with
  | some q => some q
  | none => ready.head?

/-- Whether a packet's header, CADDR and fields keep their limits (R397, Table 25.5). -/
def packetValid (bs : List (BitVec 8)) : Bool :=
  let w := pktWord bs
  let t := w 0 % 256
  decide (t ≤ 7) && w 0 / 2 ^ 11 == 0 && w 7 % 8 == 0 && (match t with
    | 1 => decide (w 3 / 2 ^ 32 % 256 ≤ 64) && w 3 / 2 ^ 40 == 0 && (w 3 / 2 ^ 32 % 256 != 0 || w 5 == 0)
    | 2 => w 1 % 8 == 0 && w 3 / 4 == 0
    | 3 => w 1 % 8 == 0
    | 4 => decide (1 ≤ w 3 ∧ w 3 ≤ 2 ^ 40)
    | 5 => decide (w 1 ≤ 2)
    | 6 => w 2 % 65536 == 0
    | 7 => decide (1 ≤ w 3 ∧ w 3 ≤ 4096)
    | _ => true)

/-- What the work of a packet comes to when it starts. -/
inductive Started where
  /-- accepted; it completes later, or has completed -/
  | runs (s : State)
  /-- accepted, and completes with a status -/
  | ends (s : State) (st : Nat)
  /-- its operands lie on pages that are not resident: the Cistern brings them, and the packet is accepted later -/
  | pages (root : DWord) (vas : List Nat)

/-- Resolves faults of a packet's reads, for its region. -/
def resolveAll (s : State) (rg : Nat) (root : DWord) (vas : List Nat) : State :=
  askedBy (vas.foldl (fun s va => replayAll (resolution s (resolvePage s root va 0) root va)) s) rg

/-- Accepts the next packet of a queue, when its Spinel turns to that queue and the packet is of the kind given: CI
advances, ACQ discards host lines, and the work starts. -/
def acceptPacket (s : State) (q : Nat) (kind : List (BitVec 8) → Bool)
    (f : State → Nat → Packet → List (BitVec 8) → Started) : State :=
  match nextPacket s q with
  | none => s
  | some bs =>
    if !kind bs || spinelNext s (q % 6) != some q then s
    else
      let x := getQueue s q
      let w := pktWord bs
      let rg := ((regionOfIndex s x.rgn).map Prod.fst).getD 0
      let pk := s.serial
      let p : Packet := ⟨q, x.ci, w 0 % 256, w 0 / 1024 % 2 == 1, w 7, rg, 0, 0, 0, 0, 0, []⟩
      let s1 := setQueue { s with serial := s.serial + 1 } q { x with ci := x.ci + 1 }
      let s2 := modHost s1 fun h => { h with visits := fset h.visits (q % 6) q, packets := fset h.packets pk p }
      let s3 := if w 0 / 512 % 2 = 1 then discardHostLines s2 else s2
      match f s3 pk p bs with
      | .runs t => t
      | .ends t st => completePacket t pk st
      | .pages root vas => resolveAll s rg root vas

/-- A valid packet of a type. -/
def validType (t : Nat) (bs : List (BitVec 8)) : Bool := packetValid bs && pktWord bs 0 % 256 == t

/-- A valid REGION packet of an operation. -/
def validRegion (op : Nat) (bs : List (BitVec 8)) : Bool := validType 5 bs && pktWord bs 1 == op

/-- Changes what is kept of a packet. -/
def modPacket (s : State) (pk : Nat) (f : Packet → Packet) : State :=
  modHost s fun h => { h with packets := fmod h.packets pk f }

/-- The packet status of an object status (R399). -/
def packetStatus (st : Nat) : Nat :=
  match st with
  | 11 => 3
  | 7 => 4
  | 4 => 5
  | _ => 2

/-- The region a packet's handle names, RGN or a descendant of it; else the packet's status (R398). -/
def packetRegion (s : State) (rgn : Nat) (h : Nat) (need : Nat) : Except Nat Nat :=
  match checkHandle s rgn (BitVec.ofNat 64 h) [tREGION] need with
  | .error st => .error (if st = stDEAD then 5 else 2)
  | .ok e => if within s e.obj rgn then .ok e.obj else .error 2

/-! ### The packets (Table 25.5) -/

/-- BADPKT: a packet whose TYPE, header, CADDR or fields break their limits completes without running. -/
def execBadpkt (q : Nat) (s : State) : Host.Outcome State Fault Refusal :=
  .next (acceptPacket s q (fun bs => !packetValid bs) fun s _ _ _ => .ends s 1)

/-- NOP: completes at acceptance. -/
def execPktNop (q : Nat) (s : State) : Host.Outcome State Fault Refusal :=
  .next (acceptPacket s q (validType 0) fun s _ _ _ => .ends s 0)

/-- LAUNCH: completes when its range does (R31, R349). -/
def execLaunch (q : Nat) (s : State) : Host.Outcome State Fault Refusal :=
  .next (acceptPacket s q (validType 1) fun s pk p bs =>
    let w := pktWord bs
    let target := if w 6 = 0 then .ok p.region else packetRegion s p.region (w 6) 0
    match target with
    | .error st => .ends s st
    | .ok rg =>
      let n := w 3 / 2 ^ 32 % 256
      match launchRange (modPacket s pk fun p => { p with region := rg }) ⟨effPtroot s rg, 0⟩ rg p.region 0 (w 1) (w 2) (w 3 % 2 ^ 32 + 1) (w 4)
          (w 5, n) (some pk) with
      | .ok m => .runs m.st
      | .refused t st => .ends t (packetStatus st)
      | .wait va => .pages (effPtroot s rg) [va])

/-- Resolves a packet's 8 bytes at a VA. -/
def packetReach (s : State) (rg va n : Nat) (k : Acc) : EngReach := engReach s (effPtroot s rg) 0 va n k

/-- Writes at a place a packet reached. -/
def packetWrite (s : State) (rg : Nat) (p : Place) (bs : List (BitVec 8)) : State :=
  setLocs (useLeaves (prepareList s p.locs).1 (effPtroot s rg) p (some (regionGen s rg))) p.locs bs

/-- SIGNAL: a promoted release, then a store of, or an atomic addition to, the target (R301). -/
def execSignal (q : Nat) (s : State) : Host.Outcome State Fault Refusal :=
  .next (acceptPacket s q (validType 2) fun s _ p bs =>
    let w := pktWord bs
    let s := writeBackAll s
    let new := fun (old : Nat) => leBytes 8 (if w 3 / 2 % 2 = 1 then old + w 2 else w 2)
    if w 3 % 2 = 0 then
      .ends (hostWrite s (hostBase + w 1 % hostBase) (new (leNat (hostBytes s (w 1) 8)))) 0
    else match packetReach s p.region (w 1) 8 .write with
      | .fail _ va _ => .ends (settleWalk s (effPtroot s p.region) va) 7
      | .wait va => .pages (effPtroot s p.region) [va]
      | .ok pl =>
        let old := leNat (pl.locs.map (locView s))
        .ends (packetWrite s p.region pl (new old)) 0)

/-- WAITSIG: accepted; it completes when its word is at least n. -/
def execWaitsig (q : Nat) (s : State) : Host.Outcome State Fault Refusal :=
  .next (acceptPacket s q (validType 3) fun s pk p bs =>
    match packetReach s p.region (pktWord bs 1) 8 .read with
    | .fail _ va _ => .ends (settleWalk s (effPtroot s p.region) va) 7
    | _ => .runs (modPacket s pk fun p => { p with a := pktWord bs 1, b := pktWord bs 2 }))

/-- WAITSIG_SATISFIED: the word is read, which merges its line (spec/17 R304); where it has reached n, the packet completes. -/
def execWaitsigSatisfied (pkt : Nat) (s : State) : Host.Outcome State Fault Refusal :=
  .next (match fget s.host.packets pkt with
    | none => s
    | some p =>
      if p.type ≠ 3 then s
      else match packetReach s p.region p.a 8 .read with
        | .fail _ va _ => completePacket (settleWalk s (effPtroot s p.region) va) pkt 7
        | .wait _ => s
        | .ok pl =>
          let t := (prepareList s pl.locs).1
          if p.b ≤ leNat (pl.locs.map (locView t)) then completePacket (useLeaves t (effPtroot s p.region) pl none) pkt 0
          else t)

/-- COPY: accepted; its bytes move in chunks of 4 KiB. -/
def execCopy (q : Nat) (s : State) : Host.Outcome State Fault Refusal :=
  .next (acceptPacket s q (validType 4) fun s pk _ bs =>
    .runs (modPacket s pk fun p => { p with a := pktWord bs 1, b := pktWord bs 2, c := pktWord bs 3 }))

/-- The byte a source place held before the packet's own writes (spec/13 R211). -/
def Packet.srcByte (p : Packet) (s : State) (l : Loc) : BitVec 8 := (fget p.undo (locKey l)).getD (locView s l)

/-- PACKET_COPY_DONE: the next 4 KiB chunk moves as in R211, traffic of the packet's region (spec/21 R366); the last completes the
packet, an unresolvable translation ends it with FAULT. -/
def execPacketCopyDone (pkt : Nat) (s : State) : Host.Outcome State Fault Refusal :=
  .next (match fget s.host.packets pkt with
    | none => s
    | some p =>
      let o := 4096 * p.moved
      let n := min 4096 (p.c - o)
      if p.type ≠ 4 then s
      else match packetReach s p.region (p.b + o) n .read, packetReach s p.region (p.a + o) n .write with
        | .fail _ va _, _ => completePacket (settleWalk s (effPtroot s p.region) va) pkt 7
        | _, .fail _ va _ => completePacket (settleWalk s (effPtroot s p.region) va) pkt 7
        | .ok src, .ok dst =>
          let bs := src.locs.map (p.srcByte s)
          let s1 := useLeaves (prepareList s (src.locs ++ dst.locs)).1 (effPtroot s p.region) src none
          let undo := if p.c ≤ 4096 then [] else p.undo ++ dst.locs.map fun l => (locKey l, locByte s1 l)
          let s2 := setLocs (useLeaves s1 (effPtroot s p.region) dst (some (regionGen s p.region))) dst.locs bs
          let s2 := placeTraffic s2 p.region (src.locs ++ dst.locs)
          if p.c ≤ o + 4096 then completePacket s2 pkt 0
          else modPacket s2 pkt fun p => { p with moved := p.moved + 1, undo := undo }
        | _, _ => s)

/-- REGION create: the RCB image comes from host memory, and the new handle goes there. -/
def execRegionCreate (q : Nat) (s : State) : Host.Outcome State Fault Refusal :=
  .next (acceptPacket s q (validRegion 0) fun s _ p bs =>
    let w := pktWord bs
    match packetRegion s p.region (w 2) rADMIN with
    | .error st => .ends s st
    | .ok parent => match createRegion s parent p.region 0 (hostBytes s (w 3) 64) with
      | .error st => .ends s (packetStatus st)
      | .ok m =>
        .ends (hostWrite m.st (hostBase + w 5 % hostBase) (leBytes 8 m.handle.toNat)) 0)

/-- REGION set: one field of RGN or of a descendant. -/
def execRegionSet (q : Nat) (s : State) : Host.Outcome State Fault Refusal :=
  .next (acceptPacket s q (validRegion 1) fun s _ p bs =>
    let w := pktWord bs
    match packetRegion s p.region (w 2) rADMIN with
    | .error st => .ends s st
    | .ok rg => match setRegion s rg (w 3) (w 4) with
      | .error st => .ends s (packetStatus st)
      | .ok t => .ends t 0)

/-- REGION discard: the target must be a fault domain. -/
def execRegionDiscard (q : Nat) (s : State) : Host.Outcome State Fault Refusal :=
  .next (acceptPacket s q (validRegion 2) fun s _ p bs =>
    match packetRegion s p.region (pktWord bs 2) rADMIN with
    | .error st => .ends s st
    | .ok rg => if faultDomain s rg = rg then .ends (discard s rg) 0 else .ends s 2)

/-- Whether a region's PTROOT is its own. -/
def ownsSpace (s : State) (r : Nat) : Bool :=
  match fget s.regions r with
  | some g => g.parent.isNone || g.ovr % 2 == 1
  | none => false

/-- CKPT: sets the destination and opens a generation, once no copy of the address space runs (R391). -/
def execCkpt (q : Nat) (s : State) : Host.Outcome State Fault Refusal :=
  .next (acceptPacket s q (validType 6) fun s pk p bs =>
    let w := pktWord bs
    match packetRegion s p.region (w 1) 0 with
    | .error st => .ends s st
    | .ok rg =>
      let s := modPacket s pk fun p => { p with obj := rg, a := w 2, b := w 3 }
      if !ownsSpace s rg then .ends s 2
      else if ((fget s.regions rg).map fun g => g.ckRun.isSome).getD false then .runs s
      else match fget s.host.packets pk with
        | none => .runs s
        | some p => .runs (runCkptPacket s pk p))

/-! ### RESTORE (R390, R403) -/

/-- The header of an image in host memory. -/
structure ImageHead where
  addr : Nat
  magic : Nat
  gen : Nat
  shape : List Nat
  pages : Nat
  deriving DecidableEq, Repr

def imageHead (s : State) (a : Nat) : ImageHead :=
  let bs := hostBytes s a 64
  ⟨a, fieldAt bs 0 4, fieldAt bs 8 8, [fieldAt bs 16 4, fieldAt bs 20 4, fieldAt bs 24 4, fieldAt bs 28 4], fieldAt bs 32 8⟩

/-- The images of a RESTORE packet. -/
def imageHeads (s : State) (p : Packet) : List ImageHead :=
  (numsFrom 0 p.c).map fun i => imageHead s (leNat (hostBytes s (p.b + 8 * i) 8))

/-- Whether generations follow one another. -/
def genChain : List ImageHead → Bool
  | a :: b :: t => b.gen == a.gen + 1 && genChain (b :: t)
  | _ => true

/-- RESTORE: refused when an image's shape differs (SHAPE) or the chain is broken (BADARG); else its pages are to be
written. -/
def execRestore (q : Nat) (s : State) : Host.Outcome State Fault Refusal :=
  .next (acceptPacket s q (validType 7) fun s pk p bs =>
    let w := pktWord bs
    match packetRegion s p.region (w 1) 0 with
    | .error st => .ends s st
    | .ok rg =>
      let p2 := { p with obj := rg, b := w 2, c := w 3 }
      let hs := imageHeads s p2
      if !ownsSpace s rg then .ends s 2
      else if hs.any fun h => h.shape != [Config.dies, Config.cores, s.host.domainSize, s.host.module] then .ends s 6
      else if (hs.any fun h => h.magic != 0x57434B31) || !genChain hs then .ends s 2
      else .runs (modPacket s pk fun _ => p2))

/-- Writes one saved page: where the VA is mapped, its frame, unless it is a page of a sealed segment, to which no write takes
place any more (spec/17 R312); else a new page (assumption log 17). A page that has been granted away is refused, as any access to it raises
GRANTED (spec/17 R316; assumption log 107). -/
def restorePage (s : State) (root : DWord) (rg va : Nat) (bs : List (BitVec 8)) : Except Nat State :=
  match walk s root va with
  | .leaf a e f _ =>
    let s := settleFrame s f
    if pGranted e then .error 7
    else if pAmber e && (segOfFrame s f).any (fun x => x.2.1.status != 0) then .ok s
    else
      let t := { zeroFrame s f with
        mem := setBytes (zeroFrame s f).mem (f * 65536) bs
        hostL2 := s.hostL2.filter fun p => p.1 / 512 != f }
      .ok (pageTraffic (markDirty t (regionGen t rg) a e) (hostBase / 65536) f)
  | _ => match makeRoom 0 rg (1 + tablesMissing s va 4 0 root.toNat) 64 s with
    | none => .error 3
    | some s1 => match takeHbm s1 0 with
      | none => .error 3
      | some (f, s2) =>
        let s3 := pageTraffic (charge (writeFrame s2 f bs) .hbm rg 1) (hostBase / 65536) f
        match mapPage s3 root rg 0 va (hbmLeaf f true false false) with
        | none => .error 3
        | some s4 => match pageLeaf s4 root va with
          | some (a, e, _) => .ok (markDirty s4 (regionGen s4 rg) a e)
          | none => .ok s4

/-- Writes the pages of an image. -/
def restoreImage (s : State) (root : DWord) (rg : Nat) (h : ImageHead) : Except Nat State :=
  (numsFrom 0 h.pages).foldl (fun (s : Except Nat State) i => s.bind fun s =>
    let a := h.addr + 64 + 65544 * i
    restorePage s root rg (leNat (hostBytes s a 8) / 65536 * 65536) (hostBytes s (a + 8) 65536)) (.ok s)

/-- Whether a page that a RESTORE writes waits: one under migration (spec/17 R318), one that has still to be copied for a checkpoint
(spec/17 R320), or one with a line of its bytes or its tables whose snoop response is awaited (spec/25 R395). -/
def restoreHolds (s : State) (p : Packet) : Bool :=
  let root := effPtroot s p.obj
  (imageHeads s p).any fun h => (numsFrom 0 h.pages).any fun i =>
    let va := leNat (hostBytes s (h.addr + 64 + 65544 * i) 8)
    tablesHeld s root va || (match walk s root va with
      | .leaf _ e f _ => pMig e || (holdsAny s && (ckptHolds s f || flipHolds s (f * 65536) 65536))
      | _ => false)

/-- RESTORE_DONE: every page of every image is written, in generation order, and the packet completes. -/
def execRestoreDone (pkt : Nat) (s : State) : Host.Outcome State Fault Refusal :=
  .next (match fget s.host.packets pkt with
    | none => s
    | some p =>
      if p.type ≠ 7 ∨ restoreHolds s p then s
      else match (imageHeads s p).foldl (fun (s : Except Nat State) h => s.bind fun s =>
          restoreImage s (effPtroot s p.obj) p.obj h) (.ok s) with
        | .error st => completePacket s pkt st
        | .ok t => completePacket (askedBy t p.obj) pkt 0)

end Sys2Proof.Machine
end

