-- ==== Sys2Proof/Machine/Dispatch.lean ====
section
/-! DEFINITION. One arm per constructor: each is one direct call of its meaning. -/

namespace Sys2Proof.Machine

open Sys2Proof

/-- The effect of one instruction or event on the state. -/
def exec (i : Instr) (s : State) : Host.Outcome State Fault Refusal :=
  match i with
  | .vaddI32 g d a b => Sys2Proof.Machine.execVaddI32 g d a b s
  | .vsubI32 g d a b => Sys2Proof.Machine.execVsubI32 g d a b s
  | .vmulloI32 g d a b => Sys2Proof.Machine.execVmulloI32 g d a b s
  | .vmulhiI32 g d a b => Sys2Proof.Machine.execVmulhiI32 g d a b s
  | .vmulhiN32 g d a b => Sys2Proof.Machine.execVmulhiN32 g d a b s
  | .vmadI32 g d a b => Sys2Proof.Machine.execVmadI32 g d a b s
  | .vminI32 g d a b => Sys2Proof.Machine.execVminI32 g d a b s
  | .vminN32 g d a b => Sys2Proof.Machine.execVminN32 g d a b s
  | .vmaxI32 g d a b => Sys2Proof.Machine.execVmaxI32 g d a b s
  | .vmaxN32 g d a b => Sys2Proof.Machine.execVmaxN32 g d a b s
  | .vabsdI32 g d a b => Sys2Proof.Machine.execVabsdI32 g d a b s
  | .vabsdN32 g d a b => Sys2Proof.Machine.execVabsdN32 g d a b s
  | .vaddsI32 g d a b => Sys2Proof.Machine.execVaddsI32 g d a b s
  | .vsubsI32 g d a b => Sys2Proof.Machine.execVsubsI32 g d a b s
  | .vaddsN32 g d a b => Sys2Proof.Machine.execVaddsN32 g d a b s
  | .vsubsN32 g d a b => Sys2Proof.Machine.execVsubsN32 g d a b s
  | .vand g d a b => Sys2Proof.Machine.execVand g d a b s
  | .vor g d a b => Sys2Proof.Machine.execVor g d a b s
  | .vxor g d a b => Sys2Proof.Machine.execVxor g d a b s
  | .vandn g d a b => Sys2Proof.Machine.execVandn g d a b s
  | .vshl g d a b => Sys2Proof.Machine.execVshl g d a b s
  | .vshrN32 g d a b => Sys2Proof.Machine.execVshrN32 g d a b s
  | .vshrI32 g d a b => Sys2Proof.Machine.execVshrI32 g d a b s
  | .vrotl g d a b => Sys2Proof.Machine.execVrotl g d a b s
  | .vpopc g d a => Sys2Proof.Machine.execVpopc g d a s
  | .vclz g d a => Sys2Proof.Machine.execVclz g d a s
  | .vbrev g d a => Sys2Proof.Machine.execVbrev g d a s
  | .vbfeN32 g d a b => Sys2Proof.Machine.execVbfeN32 g d a b s
  | .vbfeI32 g d a b => Sys2Proof.Machine.execVbfeI32 g d a b s
  | .vbfi g d a b => Sys2Proof.Machine.execVbfi g d a b s
  | .vsel g d a b => Sys2Proof.Machine.execVsel g d a b s
  | .vmov g d a => Sys2Proof.Machine.execVmov g d a s
  | .vfaddF32 g d a b => Sys2Proof.Machine.execVfaddF32 g d a b s
  | .vfsubF32 g d a b => Sys2Proof.Machine.execVfsubF32 g d a b s
  | .vfmulF32 g d a b => Sys2Proof.Machine.execVfmulF32 g d a b s
  | .vfmaF32 g d a b => Sys2Proof.Machine.execVfmaF32 g d a b s
  | .vfminF32 g d a b => Sys2Proof.Machine.execVfminF32 g d a b s
  | .vfmaxF32 g d a b => Sys2Proof.Machine.execVfmaxF32 g d a b s
  | .vfsgnF32 g d a b => Sys2Proof.Machine.execVfsgnF32 g d a b s
  | .vfscaleF32 g d a b => Sys2Proof.Machine.execVfscaleF32 g d a b s
  | .vhaddF16x2 g d a b => Sys2Proof.Machine.execVhaddF16x2 g d a b s
  | .vhmulF16x2 g d a b => Sys2Proof.Machine.execVhmulF16x2 g d a b s
  | .vhfmaF16x2 g d a b => Sys2Proof.Machine.execVhfmaF16x2 g d a b s
  | .vhaddBf16x2 g d a b => Sys2Proof.Machine.execVhaddBf16x2 g d a b s
  | .vhmulBf16x2 g d a b => Sys2Proof.Machine.execVhmulBf16x2 g d a b s
  | .vhfmaBf16x2 g d a b => Sys2Proof.Machine.execVhfmaBf16x2 g d a b s
  | .vhminF16x2 g d a b => Sys2Proof.Machine.execVhminF16x2 g d a b s
  | .vhmaxF16x2 g d a b => Sys2Proof.Machine.execVhmaxF16x2 g d a b s
  | .vdaddF64 g d a b => Sys2Proof.Machine.execVdaddF64 g d a b s
  | .vdsubF64 g d a b => Sys2Proof.Machine.execVdsubF64 g d a b s
  | .vdmulF64 g d a b => Sys2Proof.Machine.execVdmulF64 g d a b s
  | .vdfmaF64 g d a b => Sys2Proof.Machine.execVdfmaF64 g d a b s
  | .vdminF64 g d a b => Sys2Proof.Machine.execVdminF64 g d a b s
  | .vdmaxF64 g d a b => Sys2Proof.Machine.execVdmaxF64 g d a b s
  | .vdsqrtF64 g d a => Sys2Proof.Machine.execVdsqrtF64 g d a s
  | .vddivF64 g d a b => Sys2Proof.Machine.execVddivF64 g d a b s
  | .vrcpF32 g d a => Sys2Proof.Machine.execVrcpF32 g d a s
  | .vrsqF32 g d a => Sys2Proof.Machine.execVrsqF32 g d a s
  | .vsqrtF32 g d a => Sys2Proof.Machine.execVsqrtF32 g d a s
  | .vexp2F32 g d a => Sys2Proof.Machine.execVexp2F32 g d a s
  | .vlog2F32 g d a => Sys2Proof.Machine.execVlog2F32 g d a s
  | .vsinpiF32 g d a => Sys2Proof.Machine.execVsinpiF32 g d a s
  | .vcospiF32 g d a => Sys2Proof.Machine.execVcospiF32 g d a s
  | .vdivF32 g d a b => Sys2Proof.Machine.execVdivF32 g d a b s
  | .vcmpEqI32 g d a b => Sys2Proof.Machine.execVcmpEqI32 g d a b s
  | .vcmpLtI32 g d a b => Sys2Proof.Machine.execVcmpLtI32 g d a b s
  | .vcmpLtN32 g d a b => Sys2Proof.Machine.execVcmpLtN32 g d a b s
  | .vcmpLeI32 g d a b => Sys2Proof.Machine.execVcmpLeI32 g d a b s
  | .vcmpEqF32 g d a b => Sys2Proof.Machine.execVcmpEqF32 g d a b s
  | .vcmpLtF32 g d a b => Sys2Proof.Machine.execVcmpLtF32 g d a b s
  | .vcmpLeF32 g d a b => Sys2Proof.Machine.execVcmpLeF32 g d a b s
  | .vcmpUnF32 g d a b => Sys2Proof.Machine.execVcmpUnF32 g d a b s
  | .vcvtn g d a fmt slot => Sys2Proof.Machine.execVcvtn g d a fmt slot s
  | .vcvtw g d a fmt slot => Sys2Proof.Machine.execVcvtw g d a fmt slot s
  | .vcvti2f g d a fmt slot => Sys2Proof.Machine.execVcvti2f g d a fmt slot s
  | .vcvtf2i g d a fmt slot => Sys2Proof.Machine.execVcvtf2i g d a fmt slot s
  | .vcvtd2f g d a fmt slot => Sys2Proof.Machine.execVcvtd2f g d a fmt slot s
  | .vcvtf2d g d a fmt slot => Sys2Proof.Machine.execVcvtf2d g d a fmt slot s
  | .vsrnd g d a fmt slot => Sys2Proof.Machine.execVsrnd g d a fmt slot s
  | .vmxs g d a fmt slot => Sys2Proof.Machine.execVmxs g d a fmt slot s
  | .vaddi g d a imm => Sys2Proof.Machine.execVaddi g d a imm s
  | .vmuli g d a imm => Sys2Proof.Machine.execVmuli g d a imm s
  | .vandi g d a imm => Sys2Proof.Machine.execVandi g d a imm s
  | .vori g d a imm => Sys2Proof.Machine.execVori g d a imm s
  | .vxori g d a imm => Sys2Proof.Machine.execVxori g d a imm s
  | .vshli g d a imm => Sys2Proof.Machine.execVshli g d a imm s
  | .vshriN32 g d a imm => Sys2Proof.Machine.execVshriN32 g d a imm s
  | .vshriI32 g d a imm => Sys2Proof.Machine.execVshriI32 g d a imm s
  | .vshf g d a b => Sys2Proof.Machine.execVshf g d a b s
  | .vshfx g d a b => Sys2Proof.Machine.execVshfx g d a b s
  | .vshfup g d a b => Sys2Proof.Machine.execVshfup g d a b s
  | .vshfdn g d a b => Sys2Proof.Machine.execVshfdn g d a b s
  | .vredsumI32 g d a => Sys2Proof.Machine.execVredsumI32 g d a s
  | .vredmaxF32 g d a => Sys2Proof.Machine.execVredmaxF32 g d a s
  | .vscanI32 g d a => Sys2Proof.Machine.execVscanI32 g d a s
  | .vredsumF32 g d a => Sys2Proof.Machine.execVredsumF32 g d a s
  | .vdot4I8 g d a b => Sys2Proof.Machine.execVdot4I8 g d a b s
  | .vdot4N8 g d a b => Sys2Proof.Machine.execVdot4N8 g d a b s
  | .vdot4In8 g d a b => Sys2Proof.Machine.execVdot4In8 g d a b s
  | .vdot8I4 g d a b => Sys2Proof.Machine.execVdot8I4 g d a b s
  | .vdot8N4 g d a b => Sys2Proof.Machine.execVdot8N4 g d a b s
  | .vdot2Bf16 g d a b => Sys2Proof.Machine.execVdot2Bf16 g d a b s
  | .vdot4E4m3 g d a b => Sys2Proof.Machine.execVdot4E4m3 g d a b s
  | .vdot8E2m1 g d a b => Sys2Proof.Machine.execVdot8E2m1 g d a b s
  | .sadd d a b => Sys2Proof.Machine.execSadd d a b s
  | .ssub d a b => Sys2Proof.Machine.execSsub d a b s
  | .smullo d a b => Sys2Proof.Machine.execSmullo d a b s
  | .smulhiI32 d a b => Sys2Proof.Machine.execSmulhiI32 d a b s
  | .smulhiN32 d a b => Sys2Proof.Machine.execSmulhiN32 d a b s
  | .sdivI32 d a b => Sys2Proof.Machine.execSdivI32 d a b s
  | .sdivN32 d a b => Sys2Proof.Machine.execSdivN32 d a b s
  | .sremI32 d a b => Sys2Proof.Machine.execSremI32 d a b s
  | .sremN32 d a b => Sys2Proof.Machine.execSremN32 d a b s
  | .sminI32 d a b => Sys2Proof.Machine.execSminI32 d a b s
  | .sminN32 d a b => Sys2Proof.Machine.execSminN32 d a b s
  | .smaxI32 d a b => Sys2Proof.Machine.execSmaxI32 d a b s
  | .smaxN32 d a b => Sys2Proof.Machine.execSmaxN32 d a b s
  | .sand d a b => Sys2Proof.Machine.execSand d a b s
  | .sor d a b => Sys2Proof.Machine.execSor d a b s
  | .sxor d a b => Sys2Proof.Machine.execSxor d a b s
  | .sshl d a b => Sys2Proof.Machine.execSshl d a b s
  | .sshrN32 d a b => Sys2Proof.Machine.execSshrN32 d a b s
  | .sshrI32 d a b => Sys2Proof.Machine.execSshrI32 d a b s
  | .saddI64 d a b => Sys2Proof.Machine.execSaddI64 d a b s
  | .ssubI64 d a b => Sys2Proof.Machine.execSsubI64 d a b s
  | .smulI64 d a b => Sys2Proof.Machine.execSmulI64 d a b s
  | .sshlB64 d a b => Sys2Proof.Machine.execSshlB64 d a b s
  | .sshrN64 d a b => Sys2Proof.Machine.execSshrN64 d a b s
  | .scmpEq d a b => Sys2Proof.Machine.execScmpEq d a b s
  | .scmpLtI32 d a b => Sys2Proof.Machine.execScmpLtI32 d a b s
  | .scmpLtN32 d a b => Sys2Proof.Machine.execScmpLtN32 d a b s
  | .sfaddF32 d a b => Sys2Proof.Machine.execSfaddF32 d a b s
  | .sfmulF32 d a b => Sys2Proof.Machine.execSfmulF32 d a b s
  | .sfmaF32 d a b => Sys2Proof.Machine.execSfmaF32 d a b s
  | .scvtf2i d a => Sys2Proof.Machine.execScvtf2i d a s
  | .scvti2f d a => Sys2Proof.Machine.execScvti2f d a s
  | .saddi d a imm => Sys2Proof.Machine.execSaddi d a imm s
  | .sandi d a imm => Sys2Proof.Machine.execSandi d a imm s
  | .sori d a imm => Sys2Proof.Machine.execSori d a imm s
  | .sxori d a imm => Sys2Proof.Machine.execSxori d a imm s
  | .sshli d a imm => Sys2Proof.Machine.execSshli d a imm s
  | .sshri d a imm => Sys2Proof.Machine.execSshri d a imm s
  | .slui d a imm => Sys2Proof.Machine.execSlui d a imm s
  | .smovi d imm => Sys2Proof.Machine.execSmovi d imm s
  | .vbcast d a => Sys2Proof.Machine.execVbcast d a s
  | .vrdlane d a b => Sys2Proof.Machine.execVrdlane d a b s
  | .vwrlane d a b => Sys2Proof.Machine.execVwrlane d a b s
  | .vlpc d b => Sys2Proof.Machine.execVlpc d b s
  | .srsr d a => Sys2Proof.Machine.execSrsr d a s
  | .swsr d a => Sys2Proof.Machine.execSwsr d a s
  | .p2s d a => Sys2Proof.Machine.execP2s d a s
  | .s2p d a => Sys2Proof.Machine.execS2p d a s
  | .pand d a b => Sys2Proof.Machine.execPand d a b s
  | .por d a b => Sys2Proof.Machine.execPor d a b s
  | .pxor d a b => Sys2Proof.Machine.execPxor d a b s
  | .pnot d a => Sys2Proof.Machine.execPnot d a s
  | .ptag a => Sys2Proof.Machine.execPtag a s
  | .pcount d a => Sys2Proof.Machine.execPcount d a s
  | .twr d a b => Sys2Proof.Machine.execTwr d a b s
  | .trd d a b => Sys2Proof.Machine.execTrd d a b s
  | .br off => Sys2Proof.Machine.execBr off s
  | .brp c off => Sys2Proof.Machine.execBrp c off s
  | .brnp c off => Sys2Proof.Machine.execBrnp c off s
  | .brz c off => Sys2Proof.Machine.execBrz c off s
  | .brnz c off => Sys2Proof.Machine.execBrnz c off s
  | .call off => Sys2Proof.Machine.execCall off s
  | .jmpi c => Sys2Proof.Machine.execJmpi c s
  | .jmpv v => Sys2Proof.Machine.execJmpv v s
  | .ret => Sys2Proof.Machine.execRet s
  | .exit => Sys2Proof.Machine.execExit s
  | .nop => Sys2Proof.Machine.execNop s
  | .yield => Sys2Proof.Machine.execYield s
  | .trap imm => Sys2Proof.Machine.execTrap imm s
  | .brk imm => Sys2Proof.Machine.execBrk imm s
  | .ereturn => Sys2Proof.Machine.execEreturn s
  | .ldN8 g vt vo sp => Sys2Proof.Machine.execLdN8 g vt vo sp s
  | .ldI8 g vt vo sp => Sys2Proof.Machine.execLdI8 g vt vo sp s
  | .ldN16 g vt vo sp => Sys2Proof.Machine.execLdN16 g vt vo sp s
  | .ldI16 g vt vo sp => Sys2Proof.Machine.execLdI16 g vt vo sp s
  | .ldB32 g vt vo sp => Sys2Proof.Machine.execLdB32 g vt vo sp s
  | .ldB64 g vt vo sp => Sys2Proof.Machine.execLdB64 g vt vo sp s
  | .ldB128 g vt vo sp => Sys2Proof.Machine.execLdB128 g vt vo sp s
  | .stB8 g vt vo sp => Sys2Proof.Machine.execStB8 g vt vo sp s
  | .stB16 g vt vo sp => Sys2Proof.Machine.execStB16 g vt vo sp s
  | .stB32 g vt vo sp => Sys2Proof.Machine.execStB32 g vt vo sp s
  | .stB64 g vt vo sp => Sys2Proof.Machine.execStB64 g vt vo sp s
  | .stB128 g vt vo sp => Sys2Proof.Machine.execStB128 g vt vo sp s
  | .aaddI32 g vt vo sp => Sys2Proof.Machine.execAaddI32 g vt vo sp s
  | .aaddI64 g vt vo sp => Sys2Proof.Machine.execAaddI64 g vt vo sp s
  | .aaddF32 g vt vo sp => Sys2Proof.Machine.execAaddF32 g vt vo sp s
  | .aminI32 g vt vo sp => Sys2Proof.Machine.execAminI32 g vt vo sp s
  | .amaxI32 g vt vo sp => Sys2Proof.Machine.execAmaxI32 g vt vo sp s
  | .aminN32 g vt vo sp => Sys2Proof.Machine.execAminN32 g vt vo sp s
  | .amaxN32 g vt vo sp => Sys2Proof.Machine.execAmaxN32 g vt vo sp s
  | .aminF32 g vt vo sp => Sys2Proof.Machine.execAminF32 g vt vo sp s
  | .amaxF32 g vt vo sp => Sys2Proof.Machine.execAmaxF32 g vt vo sp s
  | .aand g vt vo sp => Sys2Proof.Machine.execAand g vt vo sp s
  | .aor g vt vo sp => Sys2Proof.Machine.execAor g vt vo sp s
  | .axor g vt vo sp => Sys2Proof.Machine.execAxor g vt vo sp s
  | .axchgB32 g vt vo sp => Sys2Proof.Machine.execAxchgB32 g vt vo sp s
  | .axchgB64 g vt vo sp => Sys2Proof.Machine.execAxchgB64 g vt vo sp s
  | .acasB32 g vt vo sp => Sys2Proof.Machine.execAcasB32 g vt vo sp s
  | .acasB64 g vt vo sp => Sys2Proof.Machine.execAcasB64 g vt vo sp s
  | .vpoolB32 g vt vo sp => Sys2Proof.Machine.execVpoolB32 g vt vo sp s
  | .vpoolB64 g vt vo sp => Sys2Proof.Machine.execVpoolB64 g vt vo sp s
  | .sldB32 d sp off => Sys2Proof.Machine.execSldB32 d sp off s
  | .sldB64 d sp off => Sys2Proof.Machine.execSldB64 d sp off s
  | .sstB32 d sp off => Sys2Proof.Machine.execSstB32 d sp off s
  | .sstB64 d sp off => Sys2Proof.Machine.execSstB64 d sp off s
  | .saaddB64 d sp off => Sys2Proof.Machine.execSaaddB64 d sp off s
  | .scasB64 d sp off => Sys2Proof.Machine.execScasB64 d sp off s
  | .sprefetch sp off => Sys2Proof.Machine.execSprefetch sp off s
  | .slduB32 d sp off => Sys2Proof.Machine.execSlduB32 d sp off s
  | .aappB32 g vt vo sp => Sys2Proof.Machine.execAappB32 g vt vo sp s
  | .aappB128 g vt vo sp => Sys2Proof.Machine.execAappB128 g vt vo sp s
  | .aappl g vt vo sp => Sys2Proof.Machine.execAappl g vt vo sp s
  | .ccopy ctx td ts sl sb => Sys2Proof.Machine.execCcopy ctx td ts sl sb s
  | .cblock ctx td ts sl sb => Sys2Proof.Machine.execCblock ctx td ts sl sb s
  | .cfill ctx td ts sl sb => Sys2Proof.Machine.execCfill ctx td ts sl sb s
  | .cgather ctx td ts sl sb => Sys2Proof.Machine.execCgather ctx td ts sl sb s
  | .cprefetch ctx ts sl sb => Sys2Proof.Machine.execCprefetch ctx ts sl sb s
  | .cpromote ctx ts sl sb => Sys2Proof.Machine.execCpromote ctx ts sl sb s
  | .mloop acc ta tb sk vf => Sys2Proof.Machine.execMloop acc ta tb sk vf s
  | .mloopG acc ta tb sk vf => Sys2Proof.Machine.execMloopG acc ta tb sk vf s
  | .mloopCx acc ta tb sk vf => Sys2Proof.Machine.execMloopCx acc ta tb sk vf s
  | .mdrain acc ta sk vf => Sys2Proof.Machine.execMdrain acc ta sk vf s
  | .mdrainMx acc ta tb sk vf => Sys2Proof.Machine.execMdrainMx acc ta tb sk vf s
  | .mzero acc => Sys2Proof.Machine.execMzero acc s
  | .mload acc ta => Sys2Proof.Machine.execMload acc ta s
  | .mprog acc sk => Sys2Proof.Machine.execMprog acc sk s
  | .barinit a b => Sys2Proof.Machine.execBarinit a b s
  | .bararrive d a b => Sys2Proof.Machine.execBararrive d a b s
  | .barexpect d a b => Sys2Proof.Machine.execBarexpect d a b s
  | .barquery d a => Sys2Proof.Machine.execBarquery d a s
  | .tlread d a => Sys2Proof.Machine.execTlread d a s
  | .wait d a tmo => Sys2Proof.Machine.execWait d a tmo s
  | .waitInline d a tmo => Sys2Proof.Machine.execWaitInline d a tmo s
  | .settle nl ns nc nm => Sys2Proof.Machine.execSettle nl ns nc nm s
  | .fenceSys => Sys2Proof.Machine.execFenceSys s
  | .flush d a b => Sys2Proof.Machine.execFlush d a b s
  | .inval d a b => Sys2Proof.Machine.execInval d a b s
  | .clock d => Sys2Proof.Machine.execClock d s
  | .wspawn d a b => Sys2Proof.Machine.execWspawn d a b s
  | .wexit d a => Sys2Proof.Machine.execWexit d a s
  | .rspawn d a b => Sys2Proof.Machine.execRspawn d a b s
  | .odup d a b => Sys2Proof.Machine.execOdup d a b s
  | .oclose d a => Sys2Proof.Machine.execOclose d a s
  | .oinfo d a b => Sys2Proof.Machine.execOinfo d a b s
  | .wsnew d => Sys2Proof.Machine.execWsnew d s
  | .wsadd d a b => Sys2Proof.Machine.execWsadd d a b s
  | .wsdel d a b => Sys2Proof.Machine.execWsdel d a b s
  | .tnew d => Sys2Proof.Machine.execTnew d s
  | .tarm d a b => Sys2Proof.Machine.execTarm d a b s
  | .tcancel d a => Sys2Proof.Machine.execTcancel d a s
  | .pnew d a => Sys2Proof.Machine.execPnew d a s
  | .psend d a b => Sys2Proof.Machine.execPsend d a b s
  | .pgrant d a b => Sys2Proof.Machine.execPgrant d a b s
  | .precv d a b => Sys2Proof.Machine.execPrecv d a b s
  | .pslot d a b => Sys2Proof.Machine.execPslot d a b s
  | .pname d a => Sys2Proof.Machine.execPname d a s
  | .preg d a b => Sys2Proof.Machine.execPreg d a b s
  | .anew d a b => Sys2Proof.Machine.execAnew d a b s
  | .aseal d a => Sys2Proof.Machine.execAseal d a s
  | .afree d a => Sys2Proof.Machine.execAfree d a s
  | .atail d a b => Sys2Proof.Machine.execAtail d a b s
  | .rgnew d a b => Sys2Proof.Machine.execRgnew d a b s
  | .rgset d a b => Sys2Proof.Machine.execRgset d a b s
  | .wread d a b => Sys2Proof.Machine.execWread d a b s
  | .wwrite d a b => Sys2Proof.Machine.execWwrite d a b s
  | .wresume d a => Sys2Proof.Machine.execWresume d a s
  | .gsaved d => Sys2Proof.Machine.execGsaved d s
  | .rdlog d a b => Sys2Proof.Machine.execRdlog d a b s
  | .csaveq d a => Sys2Proof.Machine.execCsaveq d a s
  | .creplay d a => Sys2Proof.Machine.execCreplay d a s
  | .tlbinv d a b => Sys2Proof.Machine.execTlbinv d a b s
  | .ckmark d a => Sys2Proof.Machine.execCkmark d a s
  | .vfrint g d a => Sys2Proof.Machine.execVfrint g d a s
  | .vffloor g d a => Sys2Proof.Machine.execVffloor g d a s
  | .vfceil g d a => Sys2Proof.Machine.execVfceil g d a s
  | .vftrunc g d a => Sys2Proof.Machine.execVftrunc g d a s
  | .vfclass g d a => Sys2Proof.Machine.execVfclass g d a s
  | .vfexp g d a => Sys2Proof.Machine.execVfexp g d a s
  | .vfmant g d a => Sys2Proof.Machine.execVfmant g d a s
  | .vfmed3 g d a b => Sys2Proof.Machine.execVfmed3 g d a b s
  | .ximm p => Sys2Proof.Machine.execXimm p s
  | .xop p => Sys2Proof.Machine.execXop p s
  | .hint p => Sys2Proof.Machine.execHint p s
  | .guard neg pg => Sys2Proof.Machine.execGuard neg pg s
  | .trapEntry w => Sys2Proof.Machine.execTrapEntry w s
  | .deferredPreciseTrap w => Sys2Proof.Machine.execDeferredPreciseTrap w s
  | .pageFill rg va die => Sys2Proof.Machine.execPageFill rg va die s
  | .migrationDone rg va die => Sys2Proof.Machine.execMigrationDone rg va die s
  | .engineChunkLand gang ctx num chunk => Sys2Proof.Machine.execEngineChunkLand gang ctx num chunk s
  | .matrixRowDone gang ctx => Sys2Proof.Machine.execMatrixRowDone gang ctx s
  | .mprogArrive gang ctx => Sys2Proof.Machine.execMprogArrive gang ctx s
  | .engineFault gang ctx num => Sys2Proof.Machine.execEngineFault gang ctx num s
  | .waitWake w grp => Sys2Proof.Machine.execWaitWake w grp s
  | .waitTimeout w grp => Sys2Proof.Machine.execWaitTimeout w grp s
  | .timerExpire timer => Sys2Proof.Machine.execTimerExpire timer s
  | .placement cluster => Sys2Proof.Machine.execPlacement cluster s
  | .cohortStart cohort => Sys2Proof.Machine.execCohortStart cohort s
  | .unitAged saved unit => Sys2Proof.Machine.execUnitAged saved unit s
  | .quantumExpiry gang => Sys2Proof.Machine.execQuantumExpiry gang s
  | .saveDrainOverrun cohort => Sys2Proof.Machine.execSaveDrainOverrun cohort s
  | .deadlockDetect rg => Sys2Proof.Machine.execDeadlockDetect rg s
  | .progressStall rg => Sys2Proof.Machine.execProgressStall rg s
  | .memerr rg => Sys2Proof.Machine.execMemerr rg s
  | .discardRelease rg => Sys2Proof.Machine.execDiscardRelease rg s
  | .commitTailAdvance seg blk => Sys2Proof.Machine.execCommitTailAdvance seg blk s
  | .asealDone seg => Sys2Proof.Machine.execAsealDone seg s
  | .afreeDone seg => Sys2Proof.Machine.execAfreeDone seg s
  | .replicaCreate seg page die => Sys2Proof.Machine.execReplicaCreate seg page die s
  | .remoteSendRequest link src wave tag incarn port origin header eight words => Sys2Proof.Machine.execRemoteSendRequest link src wave tag incarn port origin header eight words s
  | .sendReply link incarn send status => Sys2Proof.Machine.execSendReply link incarn send status s
  | .grantReservation link src wave tag incarn port origin header eight words gword => Sys2Proof.Machine.execGrantReservation link src wave tag incarn port origin header eight words gword s
  | .grantPointReply link incarn send status => Sys2Proof.Machine.execGrantPointReply link incarn send status s
  | .grantPageCopy link incarn resv pages => Sys2Proof.Machine.execGrantPageCopy link incarn resv pages s
  | .grantAck link incarn send => Sys2Proof.Machine.execGrantAck link incarn send s
  | .peerDead module announced => Sys2Proof.Machine.execPeerDead module announced s
  | .flitReceive port flit crcOk => Sys2Proof.Machine.execFlitReceive port flit crcOk s
  | .nakReceive port seq => Sys2Proof.Machine.execNakReceive port seq s
  | .linkRetrainDone port ok => Sys2Proof.Machine.execLinkRetrainDone port ok s
  | .checkpointPageCopy rg page => Sys2Proof.Machine.execCheckpointPageCopy rg page s
  | .checkpointImageDone rg => Sys2Proof.Machine.execCheckpointImageDone rg s
  | .refreshInterval ch => Sys2Proof.Machine.execRefreshInterval ch s
  | .refresh ch waiting => Sys2Proof.Machine.execRefresh ch waiting s
  | .flushDone job => Sys2Proof.Machine.execFlushDone job s
  | .energyWindowStart => Sys2Proof.Machine.execEnergyWindowStart s
  | .energyMeterRead core energy traffic => Sys2Proof.Machine.execEnergyMeterRead core energy traffic s
  | .thermalCapUpdate tjmax tin flow => Sys2Proof.Machine.execThermalCapUpdate tjmax tin flow s
  | .thermalTrip => Sys2Proof.Machine.execThermalTrip s
  | .coolantTimeout => Sys2Proof.Machine.execCoolantTimeout s
  | .diePowerOff => Sys2Proof.Machine.execDiePowerOff s
  | .coldReset => Sys2Proof.Machine.execColdReset s
  | .warmBoot => Sys2Proof.Machine.execWarmBoot s
  | .clusterStart cluster => Sys2Proof.Machine.execClusterStart cluster s
  | .jasperHeartbeatTimeout => Sys2Proof.Machine.execJasperHeartbeatTimeout s
  | .jasperException => Sys2Proof.Machine.execJasperException s
  | .firmwareRestartDone => Sys2Proof.Machine.execFirmwareRestartDone s
  | .doorbellWrite q size val => Sys2Proof.Machine.execDoorbellWrite q size val s
  | .queueEnable q => Sys2Proof.Machine.execQueueEnable q s
  | .queueDisable q => Sys2Proof.Machine.execQueueDisable q s
  | .schedParamWrite quantum val => Sys2Proof.Machine.execSchedParamWrite quantum val s
  | .capWrite val => Sys2Proof.Machine.execCapWrite val s
  | .registerWrite fn off size val => Sys2Proof.Machine.execRegisterWrite fn off size val s
  | .pktNop q => Sys2Proof.Machine.execPktNop q s
  | .launch q => Sys2Proof.Machine.execLaunch q s
  | .signal q => Sys2Proof.Machine.execSignal q s
  | .waitsig q => Sys2Proof.Machine.execWaitsig q s
  | .waitsigSatisfied pkt => Sys2Proof.Machine.execWaitsigSatisfied pkt s
  | .copy q => Sys2Proof.Machine.execCopy q s
  | .packetCopyDone pkt => Sys2Proof.Machine.execPacketCopyDone pkt s
  | .regionCreate q => Sys2Proof.Machine.execRegionCreate q s
  | .regionSet q => Sys2Proof.Machine.execRegionSet q s
  | .regionDiscard q => Sys2Proof.Machine.execRegionDiscard q s
  | .ckpt q => Sys2Proof.Machine.execCkpt q s
  | .restore q => Sys2Proof.Machine.execRestore q s
  | .biasFlipDevice gran => Sys2Proof.Machine.execBiasFlipDevice gran s
  | .biasFlipHost gran => Sys2Proof.Machine.execBiasFlipHost gran s
  | .biasSnoopResponse line modified data => Sys2Proof.Machine.execBiasSnoopResponse line modified data s
  | .biasSnoopTimeout line => Sys2Proof.Machine.execBiasSnoopTimeout line s
  | .biasFlipHostDone => Sys2Proof.Machine.execBiasFlipHostDone s
  | .migToHost rindex va frame => Sys2Proof.Machine.execMigToHost rindex va frame s
  | .migToDevice rindex va => Sys2Proof.Machine.execMigToDevice rindex va s
  | .migPinRelease rindex va => Sys2Proof.Machine.execMigPinRelease rindex va s
  | .domain m d => Sys2Proof.Machine.execDomain m d s
  | .restart => Sys2Proof.Machine.execRestart s
  | .stage image version sigOk digest => Sys2Proof.Machine.execStage image version sigOk digest s
  | .commit image version => Sys2Proof.Machine.execCommit image version s
  | .getVersion => Sys2Proof.Machine.execGetVersion s
  | .getCapabilities => Sys2Proof.Machine.execGetCapabilities s
  | .negotiateAlgorithms => Sys2Proof.Machine.execNegotiateAlgorithms s
  | .getDigests => Sys2Proof.Machine.execGetDigests s
  | .getCertificate slot => Sys2Proof.Machine.execGetCertificate slot s
  | .challenge slot nonce => Sys2Proof.Machine.execChallenge slot nonce s
  | .getMeasurements index => Sys2Proof.Machine.execGetMeasurements index s
  | .unsupportedRequest => Sys2Proof.Machine.execUnsupportedRequest s
  | .hostWindowAccess write pa size val => Sys2Proof.Machine.execHostWindowAccess write pa size val s
  | .illegalEncoding w => Sys2Proof.Machine.execIllegalEncoding w s
  | .badpkt q => Sys2Proof.Machine.execBadpkt q s
  | .restoreDone pkt => Sys2Proof.Machine.execRestoreDone pkt s
  | .unknownMailboxCommand code => Sys2Proof.Machine.execUnknownMailboxCommand code s

end Sys2Proof.Machine
end

