-- ==== Sys2Proof/Machine/Compiled.lean ====
section
/-! DEFINITION. What a fetched word does, by class and function code, equal to `exec` of the instruction it decodes to. The
compiler has no tags for all the constructors of `Instr`, so this is the form in which `step` is compiled. -/

namespace Sys2Proof.Machine

open Sys2Proof

/-- What an instruction does to the state. -/
abbrev Meaning := State → Host.Outcome State Fault Refusal

theorem run_if {p : Prop} [Decidable p] {f : Meaning} {i : Instr} {x : Option Meaning} {y : Option Instr} (h : f = exec i)
    (h2 : x = y.map exec) : (if p then some f else x) = (if p then some i else y).map exec := by
  subst h h2
  split <;> rfl

/-- What a word of class 0 does. -/
def runClass0 (w : Nat) : Option Meaning :=
  match fieldOf w 0 3 with
  | 0 => some (execVaddI32 (bitsOf 3 24 w) (bitsOf 7 17 w) (bitsOf 7 10 w) (bitsOf 7 3 w))
  | 1 => some (execVsubI32 (bitsOf 3 24 w) (bitsOf 7 17 w) (bitsOf 7 10 w) (bitsOf 7 3 w))
  | 2 => some (execVmulloI32 (bitsOf 3 24 w) (bitsOf 7 17 w) (bitsOf 7 10 w) (bitsOf 7 3 w))
  | 3 => some (execVmulhiI32 (bitsOf 3 24 w) (bitsOf 7 17 w) (bitsOf 7 10 w) (bitsOf 7 3 w))
  | 4 => some (execVmulhiN32 (bitsOf 3 24 w) (bitsOf 7 17 w) (bitsOf 7 10 w) (bitsOf 7 3 w))
  | 5 => some (execVmadI32 (bitsOf 3 24 w) (bitsOf 7 17 w) (bitsOf 7 10 w) (bitsOf 7 3 w))
  | 6 => some (execVminI32 (bitsOf 3 24 w) (bitsOf 7 17 w) (bitsOf 7 10 w) (bitsOf 7 3 w))
  | 7 => some (execVminN32 (bitsOf 3 24 w) (bitsOf 7 17 w) (bitsOf 7 10 w) (bitsOf 7 3 w))
  | _ => none

theorem runClass0_eq (w : Nat) : runClass0 w = (decodeClass0 w).map exec := by
  unfold runClass0 decodeClass0
  generalize fieldOf w 0 3 = x
  match x with
  | 0 => rfl
  | 1 => rfl
  | 2 => rfl
  | 3 => rfl
  | 4 => rfl
  | 5 => rfl
  | 6 => rfl
  | 7 => rfl
  | _ + 8 => rfl

/-- What a word of class 1 does. -/
def runClass1 (w : Nat) : Option Meaning :=
  match fieldOf w 0 3 with
  | 0 => some (execVmaxI32 (bitsOf 3 24 w) (bitsOf 7 17 w) (bitsOf 7 10 w) (bitsOf 7 3 w))
  | 1 => some (execVmaxN32 (bitsOf 3 24 w) (bitsOf 7 17 w) (bitsOf 7 10 w) (bitsOf 7 3 w))
  | 2 => some (execVabsdI32 (bitsOf 3 24 w) (bitsOf 7 17 w) (bitsOf 7 10 w) (bitsOf 7 3 w))
  | 3 => some (execVabsdN32 (bitsOf 3 24 w) (bitsOf 7 17 w) (bitsOf 7 10 w) (bitsOf 7 3 w))
  | 4 => some (execVaddsI32 (bitsOf 3 24 w) (bitsOf 7 17 w) (bitsOf 7 10 w) (bitsOf 7 3 w))
  | 5 => some (execVsubsI32 (bitsOf 3 24 w) (bitsOf 7 17 w) (bitsOf 7 10 w) (bitsOf 7 3 w))
  | 6 => some (execVaddsN32 (bitsOf 3 24 w) (bitsOf 7 17 w) (bitsOf 7 10 w) (bitsOf 7 3 w))
  | 7 => some (execVsubsN32 (bitsOf 3 24 w) (bitsOf 7 17 w) (bitsOf 7 10 w) (bitsOf 7 3 w))
  | _ => none

theorem runClass1_eq (w : Nat) : runClass1 w = (decodeClass1 w).map exec := by
  unfold runClass1 decodeClass1
  generalize fieldOf w 0 3 = x
  match x with
  | 0 => rfl
  | 1 => rfl
  | 2 => rfl
  | 3 => rfl
  | 4 => rfl
  | 5 => rfl
  | 6 => rfl
  | 7 => rfl
  | _ + 8 => rfl

/-- What a word of class 2 does. -/
def runClass2 (w : Nat) : Option Meaning :=
  match fieldOf w 0 3 with
  | 0 => some (execVand (bitsOf 3 24 w) (bitsOf 7 17 w) (bitsOf 7 10 w) (bitsOf 7 3 w))
  | 1 => some (execVor (bitsOf 3 24 w) (bitsOf 7 17 w) (bitsOf 7 10 w) (bitsOf 7 3 w))
  | 2 => some (execVxor (bitsOf 3 24 w) (bitsOf 7 17 w) (bitsOf 7 10 w) (bitsOf 7 3 w))
  | 3 => some (execVandn (bitsOf 3 24 w) (bitsOf 7 17 w) (bitsOf 7 10 w) (bitsOf 7 3 w))
  | 4 => some (execVshl (bitsOf 3 24 w) (bitsOf 7 17 w) (bitsOf 7 10 w) (bitsOf 7 3 w))
  | 5 => some (execVshrN32 (bitsOf 3 24 w) (bitsOf 7 17 w) (bitsOf 7 10 w) (bitsOf 7 3 w))
  | 6 => some (execVshrI32 (bitsOf 3 24 w) (bitsOf 7 17 w) (bitsOf 7 10 w) (bitsOf 7 3 w))
  | 7 => some (execVrotl (bitsOf 3 24 w) (bitsOf 7 17 w) (bitsOf 7 10 w) (bitsOf 7 3 w))
  | _ => none

theorem runClass2_eq (w : Nat) : runClass2 w = (decodeClass2 w).map exec := by
  unfold runClass2 decodeClass2
  generalize fieldOf w 0 3 = x
  match x with
  | 0 => rfl
  | 1 => rfl
  | 2 => rfl
  | 3 => rfl
  | 4 => rfl
  | 5 => rfl
  | 6 => rfl
  | 7 => rfl
  | _ + 8 => rfl

/-- What a word of class 3 does. -/
def runClass3 (w : Nat) : Option Meaning :=
  match fieldOf w 0 3 with
  | 0 => if fieldOf w 3 7 = 0 then some (execVpopc (bitsOf 3 24 w) (bitsOf 7 17 w) (bitsOf 7 10 w)) else none
  | 1 => if fieldOf w 3 7 = 0 then some (execVclz (bitsOf 3 24 w) (bitsOf 7 17 w) (bitsOf 7 10 w)) else none
  | 2 => if fieldOf w 3 7 = 0 then some (execVbrev (bitsOf 3 24 w) (bitsOf 7 17 w) (bitsOf 7 10 w)) else none
  | 3 => some (execVbfeN32 (bitsOf 3 24 w) (bitsOf 7 17 w) (bitsOf 7 10 w) (bitsOf 7 3 w))
  | 4 => some (execVbfeI32 (bitsOf 3 24 w) (bitsOf 7 17 w) (bitsOf 7 10 w) (bitsOf 7 3 w))
  | 5 => some (execVbfi (bitsOf 3 24 w) (bitsOf 7 17 w) (bitsOf 7 10 w) (bitsOf 7 3 w))
  | 6 => some (execVsel (bitsOf 3 24 w) (bitsOf 7 17 w) (bitsOf 7 10 w) (bitsOf 7 3 w))
  | 7 => if fieldOf w 3 7 = 0 then some (execVmov (bitsOf 3 24 w) (bitsOf 7 17 w) (bitsOf 7 10 w)) else none
  | _ => none

theorem runClass3_eq (w : Nat) : runClass3 w = (decodeClass3 w).map exec := by
  unfold runClass3 decodeClass3
  generalize fieldOf w 0 3 = x
  match x with
  | 0 => exact run_if rfl rfl
  | 1 => exact run_if rfl rfl
  | 2 => exact run_if rfl rfl
  | 3 => rfl
  | 4 => rfl
  | 5 => rfl
  | 6 => rfl
  | 7 => exact run_if rfl rfl
  | _ + 8 => rfl

/-- What a word of class 4 does. -/
def runClass4 (w : Nat) : Option Meaning :=
  match fieldOf w 0 3 with
  | 0 => some (execVfaddF32 (bitsOf 3 24 w) (bitsOf 7 17 w) (bitsOf 7 10 w) (bitsOf 7 3 w))
  | 1 => some (execVfsubF32 (bitsOf 3 24 w) (bitsOf 7 17 w) (bitsOf 7 10 w) (bitsOf 7 3 w))
  | 2 => some (execVfmulF32 (bitsOf 3 24 w) (bitsOf 7 17 w) (bitsOf 7 10 w) (bitsOf 7 3 w))
  | 3 => some (execVfmaF32 (bitsOf 3 24 w) (bitsOf 7 17 w) (bitsOf 7 10 w) (bitsOf 7 3 w))
  | 4 => some (execVfminF32 (bitsOf 3 24 w) (bitsOf 7 17 w) (bitsOf 7 10 w) (bitsOf 7 3 w))
  | 5 => some (execVfmaxF32 (bitsOf 3 24 w) (bitsOf 7 17 w) (bitsOf 7 10 w) (bitsOf 7 3 w))
  | 6 => some (execVfsgnF32 (bitsOf 3 24 w) (bitsOf 7 17 w) (bitsOf 7 10 w) (bitsOf 7 3 w))
  | 7 => some (execVfscaleF32 (bitsOf 3 24 w) (bitsOf 7 17 w) (bitsOf 7 10 w) (bitsOf 7 3 w))
  | _ => none

theorem runClass4_eq (w : Nat) : runClass4 w = (decodeClass4 w).map exec := by
  unfold runClass4 decodeClass4
  generalize fieldOf w 0 3 = x
  match x with
  | 0 => rfl
  | 1 => rfl
  | 2 => rfl
  | 3 => rfl
  | 4 => rfl
  | 5 => rfl
  | 6 => rfl
  | 7 => rfl
  | _ + 8 => rfl

/-- What a word of class 5 does. -/
def runClass5 (w : Nat) : Option Meaning :=
  match fieldOf w 0 3 with
  | 0 => some (execVhaddF16x2 (bitsOf 3 24 w) (bitsOf 7 17 w) (bitsOf 7 10 w) (bitsOf 7 3 w))
  | 1 => some (execVhmulF16x2 (bitsOf 3 24 w) (bitsOf 7 17 w) (bitsOf 7 10 w) (bitsOf 7 3 w))
  | 2 => some (execVhfmaF16x2 (bitsOf 3 24 w) (bitsOf 7 17 w) (bitsOf 7 10 w) (bitsOf 7 3 w))
  | 3 => some (execVhaddBf16x2 (bitsOf 3 24 w) (bitsOf 7 17 w) (bitsOf 7 10 w) (bitsOf 7 3 w))
  | 4 => some (execVhmulBf16x2 (bitsOf 3 24 w) (bitsOf 7 17 w) (bitsOf 7 10 w) (bitsOf 7 3 w))
  | 5 => some (execVhfmaBf16x2 (bitsOf 3 24 w) (bitsOf 7 17 w) (bitsOf 7 10 w) (bitsOf 7 3 w))
  | 6 => some (execVhminF16x2 (bitsOf 3 24 w) (bitsOf 7 17 w) (bitsOf 7 10 w) (bitsOf 7 3 w))
  | 7 => some (execVhmaxF16x2 (bitsOf 3 24 w) (bitsOf 7 17 w) (bitsOf 7 10 w) (bitsOf 7 3 w))
  | _ => none

theorem runClass5_eq (w : Nat) : runClass5 w = (decodeClass5 w).map exec := by
  unfold runClass5 decodeClass5
  generalize fieldOf w 0 3 = x
  match x with
  | 0 => rfl
  | 1 => rfl
  | 2 => rfl
  | 3 => rfl
  | 4 => rfl
  | 5 => rfl
  | 6 => rfl
  | 7 => rfl
  | _ + 8 => rfl

/-- What a word of class 6 does. -/
def runClass6 (w : Nat) : Option Meaning :=
  match fieldOf w 0 3 with
  | 0 => some (execVdaddF64 (bitsOf 3 24 w) (bitsOf 7 17 w) (bitsOf 7 10 w) (bitsOf 7 3 w))
  | 1 => some (execVdsubF64 (bitsOf 3 24 w) (bitsOf 7 17 w) (bitsOf 7 10 w) (bitsOf 7 3 w))
  | 2 => some (execVdmulF64 (bitsOf 3 24 w) (bitsOf 7 17 w) (bitsOf 7 10 w) (bitsOf 7 3 w))
  | 3 => some (execVdfmaF64 (bitsOf 3 24 w) (bitsOf 7 17 w) (bitsOf 7 10 w) (bitsOf 7 3 w))
  | 4 => some (execVdminF64 (bitsOf 3 24 w) (bitsOf 7 17 w) (bitsOf 7 10 w) (bitsOf 7 3 w))
  | 5 => some (execVdmaxF64 (bitsOf 3 24 w) (bitsOf 7 17 w) (bitsOf 7 10 w) (bitsOf 7 3 w))
  | 6 => if fieldOf w 3 7 = 0 then some (execVdsqrtF64 (bitsOf 3 24 w) (bitsOf 7 17 w) (bitsOf 7 10 w)) else none
  | 7 => some (execVddivF64 (bitsOf 3 24 w) (bitsOf 7 17 w) (bitsOf 7 10 w) (bitsOf 7 3 w))
  | _ => none

theorem runClass6_eq (w : Nat) : runClass6 w = (decodeClass6 w).map exec := by
  unfold runClass6 decodeClass6
  generalize fieldOf w 0 3 = x
  match x with
  | 0 => rfl
  | 1 => rfl
  | 2 => rfl
  | 3 => rfl
  | 4 => rfl
  | 5 => rfl
  | 6 => exact run_if rfl rfl
  | 7 => rfl
  | _ + 8 => rfl

/-- What a word of class 7 does. -/
def runClass7 (w : Nat) : Option Meaning :=
  match fieldOf w 0 3 with
  | 0 => if fieldOf w 3 7 = 0 then some (execVrcpF32 (bitsOf 3 24 w) (bitsOf 7 17 w) (bitsOf 7 10 w)) else none
  | 1 => if fieldOf w 3 7 = 0 then some (execVrsqF32 (bitsOf 3 24 w) (bitsOf 7 17 w) (bitsOf 7 10 w)) else none
  | 2 => if fieldOf w 3 7 = 0 then some (execVsqrtF32 (bitsOf 3 24 w) (bitsOf 7 17 w) (bitsOf 7 10 w)) else none
  | 3 => if fieldOf w 3 7 = 0 then some (execVexp2F32 (bitsOf 3 24 w) (bitsOf 7 17 w) (bitsOf 7 10 w)) else none
  | 4 => if fieldOf w 3 7 = 0 then some (execVlog2F32 (bitsOf 3 24 w) (bitsOf 7 17 w) (bitsOf 7 10 w)) else none
  | 5 => if fieldOf w 3 7 = 0 then some (execVsinpiF32 (bitsOf 3 24 w) (bitsOf 7 17 w) (bitsOf 7 10 w)) else none
  | 6 => if fieldOf w 3 7 = 0 then some (execVcospiF32 (bitsOf 3 24 w) (bitsOf 7 17 w) (bitsOf 7 10 w)) else none
  | 7 => some (execVdivF32 (bitsOf 3 24 w) (bitsOf 7 17 w) (bitsOf 7 10 w) (bitsOf 7 3 w))
  | _ => none

theorem runClass7_eq (w : Nat) : runClass7 w = (decodeClass7 w).map exec := by
  unfold runClass7 decodeClass7
  generalize fieldOf w 0 3 = x
  match x with
  | 0 => exact run_if rfl rfl
  | 1 => exact run_if rfl rfl
  | 2 => exact run_if rfl rfl
  | 3 => exact run_if rfl rfl
  | 4 => exact run_if rfl rfl
  | 5 => exact run_if rfl rfl
  | 6 => exact run_if rfl rfl
  | 7 => rfl
  | _ + 8 => rfl

/-- What a word of class 8 does. -/
def runClass8 (w : Nat) : Option Meaning :=
  match fieldOf w 0 3 with
  | 0 => some (execVcmpEqI32 (bitsOf 3 24 w) (bitsOf 7 17 w) (bitsOf 7 10 w) (bitsOf 7 3 w))
  | 1 => some (execVcmpLtI32 (bitsOf 3 24 w) (bitsOf 7 17 w) (bitsOf 7 10 w) (bitsOf 7 3 w))
  | 2 => some (execVcmpLtN32 (bitsOf 3 24 w) (bitsOf 7 17 w) (bitsOf 7 10 w) (bitsOf 7 3 w))
  | 3 => some (execVcmpLeI32 (bitsOf 3 24 w) (bitsOf 7 17 w) (bitsOf 7 10 w) (bitsOf 7 3 w))
  | 4 => some (execVcmpEqF32 (bitsOf 3 24 w) (bitsOf 7 17 w) (bitsOf 7 10 w) (bitsOf 7 3 w))
  | 5 => some (execVcmpLtF32 (bitsOf 3 24 w) (bitsOf 7 17 w) (bitsOf 7 10 w) (bitsOf 7 3 w))
  | 6 => some (execVcmpLeF32 (bitsOf 3 24 w) (bitsOf 7 17 w) (bitsOf 7 10 w) (bitsOf 7 3 w))
  | 7 => some (execVcmpUnF32 (bitsOf 3 24 w) (bitsOf 7 17 w) (bitsOf 7 10 w) (bitsOf 7 3 w))
  | _ => none

theorem runClass8_eq (w : Nat) : runClass8 w = (decodeClass8 w).map exec := by
  unfold runClass8 decodeClass8
  generalize fieldOf w 0 3 = x
  match x with
  | 0 => rfl
  | 1 => rfl
  | 2 => rfl
  | 3 => rfl
  | 4 => rfl
  | 5 => rfl
  | 6 => rfl
  | 7 => rfl
  | _ + 8 => rfl

/-- What a word of class 9 does. -/
def runClass9 (w : Nat) : Option Meaning :=
  match fieldOf w 7 3 with
  | 0 => some (execVcvtn (bitsOf 3 24 w) (bitsOf 7 17 w) (bitsOf 7 10 w) (bitsOf 5 2 w) (bitsOf 2 0 w))
  | 1 => some (execVcvtw (bitsOf 3 24 w) (bitsOf 7 17 w) (bitsOf 7 10 w) (bitsOf 5 2 w) (bitsOf 2 0 w))
  | 2 => some (execVcvti2f (bitsOf 3 24 w) (bitsOf 7 17 w) (bitsOf 7 10 w) (bitsOf 5 2 w) (bitsOf 2 0 w))
  | 3 => some (execVcvtf2i (bitsOf 3 24 w) (bitsOf 7 17 w) (bitsOf 7 10 w) (bitsOf 5 2 w) (bitsOf 2 0 w))
  | 4 => some (execVcvtd2f (bitsOf 3 24 w) (bitsOf 7 17 w) (bitsOf 7 10 w) (bitsOf 5 2 w) (bitsOf 2 0 w))
  | 5 => some (execVcvtf2d (bitsOf 3 24 w) (bitsOf 7 17 w) (bitsOf 7 10 w) (bitsOf 5 2 w) (bitsOf 2 0 w))
  | 6 => some (execVsrnd (bitsOf 3 24 w) (bitsOf 7 17 w) (bitsOf 7 10 w) (bitsOf 5 2 w) (bitsOf 2 0 w))
  | 7 => some (execVmxs (bitsOf 3 24 w) (bitsOf 7 17 w) (bitsOf 7 10 w) (bitsOf 5 2 w) (bitsOf 2 0 w))
  | _ => none

theorem runClass9_eq (w : Nat) : runClass9 w = (decodeClass9 w).map exec := by
  unfold runClass9 decodeClass9
  generalize fieldOf w 7 3 = x
  match x with
  | 0 => rfl
  | 1 => rfl
  | 2 => rfl
  | 3 => rfl
  | 4 => rfl
  | 5 => rfl
  | 6 => rfl
  | 7 => rfl
  | _ + 8 => rfl

/-- What a word of class 10 does. -/
def runClass10 (w : Nat) : Option Meaning :=
  match fieldOf w 7 3 with
  | 0 => some (execVaddi (bitsOf 3 24 w) (bitsOf 7 17 w) (bitsOf 7 10 w) (bitsOf 7 0 w))
  | 1 => some (execVmuli (bitsOf 3 24 w) (bitsOf 7 17 w) (bitsOf 7 10 w) (bitsOf 7 0 w))
  | 2 => some (execVandi (bitsOf 3 24 w) (bitsOf 7 17 w) (bitsOf 7 10 w) (bitsOf 7 0 w))
  | 3 => some (execVori (bitsOf 3 24 w) (bitsOf 7 17 w) (bitsOf 7 10 w) (bitsOf 7 0 w))
  | 4 => some (execVxori (bitsOf 3 24 w) (bitsOf 7 17 w) (bitsOf 7 10 w) (bitsOf 7 0 w))
  | 5 => if fieldOf w 5 2 = 0 then some (execVshli (bitsOf 3 24 w) (bitsOf 7 17 w) (bitsOf 7 10 w) (bitsOf 5 0 w)) else none
  | 6 => if fieldOf w 5 2 = 0 then some (execVshriN32 (bitsOf 3 24 w) (bitsOf 7 17 w) (bitsOf 7 10 w) (bitsOf 5 0 w)) else none
  | 7 => if fieldOf w 5 2 = 0 then some (execVshriI32 (bitsOf 3 24 w) (bitsOf 7 17 w) (bitsOf 7 10 w) (bitsOf 5 0 w)) else none
  | _ => none

theorem runClass10_eq (w : Nat) : runClass10 w = (decodeClass10 w).map exec := by
  unfold runClass10 decodeClass10
  generalize fieldOf w 7 3 = x
  match x with
  | 0 => rfl
  | 1 => rfl
  | 2 => rfl
  | 3 => rfl
  | 4 => rfl
  | 5 => exact run_if rfl rfl
  | 6 => exact run_if rfl rfl
  | 7 => exact run_if rfl rfl
  | _ + 8 => rfl

/-- What a word of class 11 does. -/
def runClass11 (w : Nat) : Option Meaning :=
  match fieldOf w 0 3 with
  | 0 => some (execVshf (bitsOf 3 24 w) (bitsOf 7 17 w) (bitsOf 7 10 w) (bitsOf 7 3 w))
  | 1 => some (execVshfx (bitsOf 3 24 w) (bitsOf 7 17 w) (bitsOf 7 10 w) (bitsOf 7 3 w))
  | 2 => some (execVshfup (bitsOf 3 24 w) (bitsOf 7 17 w) (bitsOf 7 10 w) (bitsOf 7 3 w))
  | 3 => some (execVshfdn (bitsOf 3 24 w) (bitsOf 7 17 w) (bitsOf 7 10 w) (bitsOf 7 3 w))
  | 4 => if fieldOf w 3 7 = 0 then some (execVredsumI32 (bitsOf 3 24 w) (bitsOf 7 17 w) (bitsOf 7 10 w)) else none
  | 5 => if fieldOf w 3 7 = 0 then some (execVredmaxF32 (bitsOf 3 24 w) (bitsOf 7 17 w) (bitsOf 7 10 w)) else none
  | 6 => if fieldOf w 3 7 = 0 then some (execVscanI32 (bitsOf 3 24 w) (bitsOf 7 17 w) (bitsOf 7 10 w)) else none
  | 7 => if fieldOf w 3 7 = 0 then some (execVredsumF32 (bitsOf 3 24 w) (bitsOf 7 17 w) (bitsOf 7 10 w)) else none
  | _ => none

theorem runClass11_eq (w : Nat) : runClass11 w = (decodeClass11 w).map exec := by
  unfold runClass11 decodeClass11
  generalize fieldOf w 0 3 = x
  match x with
  | 0 => rfl
  | 1 => rfl
  | 2 => rfl
  | 3 => rfl
  | 4 => exact run_if rfl rfl
  | 5 => exact run_if rfl rfl
  | 6 => exact run_if rfl rfl
  | 7 => exact run_if rfl rfl
  | _ + 8 => rfl

/-- What a word of class 12 does. -/
def runClass12 (w : Nat) : Option Meaning :=
  match fieldOf w 0 3 with
  | 0 => some (execVdot4I8 (bitsOf 3 24 w) (bitsOf 7 17 w) (bitsOf 7 10 w) (bitsOf 7 3 w))
  | 1 => some (execVdot4N8 (bitsOf 3 24 w) (bitsOf 7 17 w) (bitsOf 7 10 w) (bitsOf 7 3 w))
  | 2 => some (execVdot4In8 (bitsOf 3 24 w) (bitsOf 7 17 w) (bitsOf 7 10 w) (bitsOf 7 3 w))
  | 3 => some (execVdot8I4 (bitsOf 3 24 w) (bitsOf 7 17 w) (bitsOf 7 10 w) (bitsOf 7 3 w))
  | 4 => some (execVdot8N4 (bitsOf 3 24 w) (bitsOf 7 17 w) (bitsOf 7 10 w) (bitsOf 7 3 w))
  | 5 => some (execVdot2Bf16 (bitsOf 3 24 w) (bitsOf 7 17 w) (bitsOf 7 10 w) (bitsOf 7 3 w))
  | 6 => some (execVdot4E4m3 (bitsOf 3 24 w) (bitsOf 7 17 w) (bitsOf 7 10 w) (bitsOf 7 3 w))
  | 7 => some (execVdot8E2m1 (bitsOf 3 24 w) (bitsOf 7 17 w) (bitsOf 7 10 w) (bitsOf 7 3 w))
  | _ => none

theorem runClass12_eq (w : Nat) : runClass12 w = (decodeClass12 w).map exec := by
  unfold runClass12 decodeClass12
  generalize fieldOf w 0 3 = x
  match x with
  | 0 => rfl
  | 1 => rfl
  | 2 => rfl
  | 3 => rfl
  | 4 => rfl
  | 5 => rfl
  | 6 => rfl
  | 7 => rfl
  | _ + 8 => rfl

/-- What a word of class 13 does. -/
def runClass13 (w : Nat) : Option Meaning :=
  match fieldOf w 0 6 with
  | 0 => some (execSadd (bitsOf 7 20 w) (bitsOf 7 13 w) (bitsOf 7 6 w))
  | 1 => some (execSsub (bitsOf 7 20 w) (bitsOf 7 13 w) (bitsOf 7 6 w))
  | 2 => some (execSmullo (bitsOf 7 20 w) (bitsOf 7 13 w) (bitsOf 7 6 w))
  | 3 => some (execSmulhiI32 (bitsOf 7 20 w) (bitsOf 7 13 w) (bitsOf 7 6 w))
  | 4 => some (execSmulhiN32 (bitsOf 7 20 w) (bitsOf 7 13 w) (bitsOf 7 6 w))
  | 5 => some (execSdivI32 (bitsOf 7 20 w) (bitsOf 7 13 w) (bitsOf 7 6 w))
  | 6 => some (execSdivN32 (bitsOf 7 20 w) (bitsOf 7 13 w) (bitsOf 7 6 w))
  | 7 => some (execSremI32 (bitsOf 7 20 w) (bitsOf 7 13 w) (bitsOf 7 6 w))
  | 8 => some (execSremN32 (bitsOf 7 20 w) (bitsOf 7 13 w) (bitsOf 7 6 w))
  | 9 => some (execSminI32 (bitsOf 7 20 w) (bitsOf 7 13 w) (bitsOf 7 6 w))
  | 10 => some (execSminN32 (bitsOf 7 20 w) (bitsOf 7 13 w) (bitsOf 7 6 w))
  | 11 => some (execSmaxI32 (bitsOf 7 20 w) (bitsOf 7 13 w) (bitsOf 7 6 w))
  | 12 => some (execSmaxN32 (bitsOf 7 20 w) (bitsOf 7 13 w) (bitsOf 7 6 w))
  | 13 => some (execSand (bitsOf 7 20 w) (bitsOf 7 13 w) (bitsOf 7 6 w))
  | 14 => some (execSor (bitsOf 7 20 w) (bitsOf 7 13 w) (bitsOf 7 6 w))
  | 15 => some (execSxor (bitsOf 7 20 w) (bitsOf 7 13 w) (bitsOf 7 6 w))
  | 16 => some (execSshl (bitsOf 7 20 w) (bitsOf 7 13 w) (bitsOf 7 6 w))
  | 17 => some (execSshrN32 (bitsOf 7 20 w) (bitsOf 7 13 w) (bitsOf 7 6 w))
  | 18 => some (execSshrI32 (bitsOf 7 20 w) (bitsOf 7 13 w) (bitsOf 7 6 w))
  | 19 => some (execSaddI64 (bitsOf 7 20 w) (bitsOf 7 13 w) (bitsOf 7 6 w))
  | 20 => some (execSsubI64 (bitsOf 7 20 w) (bitsOf 7 13 w) (bitsOf 7 6 w))
  | 21 => some (execSmulI64 (bitsOf 7 20 w) (bitsOf 7 13 w) (bitsOf 7 6 w))
  | 22 => some (execSshlB64 (bitsOf 7 20 w) (bitsOf 7 13 w) (bitsOf 7 6 w))
  | 23 => some (execSshrN64 (bitsOf 7 20 w) (bitsOf 7 13 w) (bitsOf 7 6 w))
  | 24 => some (execScmpEq (bitsOf 7 20 w) (bitsOf 7 13 w) (bitsOf 7 6 w))
  | 25 => some (execScmpLtI32 (bitsOf 7 20 w) (bitsOf 7 13 w) (bitsOf 7 6 w))
  | 26 => some (execScmpLtN32 (bitsOf 7 20 w) (bitsOf 7 13 w) (bitsOf 7 6 w))
  | 27 => some (execSfaddF32 (bitsOf 7 20 w) (bitsOf 7 13 w) (bitsOf 7 6 w))
  | 28 => some (execSfmulF32 (bitsOf 7 20 w) (bitsOf 7 13 w) (bitsOf 7 6 w))
  | 29 => some (execSfmaF32 (bitsOf 7 20 w) (bitsOf 7 13 w) (bitsOf 7 6 w))
  | 30 => if fieldOf w 6 7 = 0 then some (execScvtf2i (bitsOf 7 20 w) (bitsOf 7 13 w)) else none
  | 31 => if fieldOf w 6 7 = 0 then some (execScvti2f (bitsOf 7 20 w) (bitsOf 7 13 w)) else none
  | _ => none

theorem runClass13_eq (w : Nat) : runClass13 w = (decodeClass13 w).map exec := by
  unfold runClass13 decodeClass13
  generalize fieldOf w 0 6 = x
  match x with
  | 0 => rfl
  | 1 => rfl
  | 2 => rfl
  | 3 => rfl
  | 4 => rfl
  | 5 => rfl
  | 6 => rfl
  | 7 => rfl
  | 8 => rfl
  | 9 => rfl
  | 10 => rfl
  | 11 => rfl
  | 12 => rfl
  | 13 => rfl
  | 14 => rfl
  | 15 => rfl
  | 16 => rfl
  | 17 => rfl
  | 18 => rfl
  | 19 => rfl
  | 20 => rfl
  | 21 => rfl
  | 22 => rfl
  | 23 => rfl
  | 24 => rfl
  | 25 => rfl
  | 26 => rfl
  | 27 => rfl
  | 28 => rfl
  | 29 => rfl
  | 30 => exact run_if rfl rfl
  | 31 => exact run_if rfl rfl
  | _ + 32 => rfl

/-- What a word of class 14 does. -/
def runClass14 (w : Nat) : Option Meaning :=
  match fieldOf w 10 3 with
  | 0 => some (execSaddi (bitsOf 7 20 w) (bitsOf 7 13 w) (bitsOf 10 0 w))
  | 1 => some (execSandi (bitsOf 7 20 w) (bitsOf 7 13 w) (bitsOf 10 0 w))
  | 2 => some (execSori (bitsOf 7 20 w) (bitsOf 7 13 w) (bitsOf 10 0 w))
  | 3 => some (execSxori (bitsOf 7 20 w) (bitsOf 7 13 w) (bitsOf 10 0 w))
  | 4 => some (execSshli (bitsOf 7 20 w) (bitsOf 7 13 w) (bitsOf 10 0 w))
  | 5 => some (execSshri (bitsOf 7 20 w) (bitsOf 7 13 w) (bitsOf 10 0 w))
  | 6 => some (execSlui (bitsOf 7 20 w) (bitsOf 7 13 w) (bitsOf 10 0 w))
  | 7 => if fieldOf w 13 7 = 0 then some (execSmovi (bitsOf 7 20 w) (bitsOf 10 0 w)) else none
  | _ => none

theorem runClass14_eq (w : Nat) : runClass14 w = (decodeClass14 w).map exec := by
  unfold runClass14 decodeClass14
  generalize fieldOf w 10 3 = x
  match x with
  | 0 => rfl
  | 1 => rfl
  | 2 => rfl
  | 3 => rfl
  | 4 => rfl
  | 5 => rfl
  | 6 => rfl
  | 7 => exact run_if rfl rfl
  | _ + 8 => rfl

/-- What a word of class 15 does. -/
def runClass15 (w : Nat) : Option Meaning :=
  match fieldOf w 0 6 with
  | 0 => if fieldOf w 6 7 = 0 then some (execVbcast (bitsOf 7 20 w) (bitsOf 7 13 w)) else none
  | 1 => some (execVrdlane (bitsOf 7 20 w) (bitsOf 7 13 w) (bitsOf 7 6 w))
  | 2 => some (execVwrlane (bitsOf 7 20 w) (bitsOf 7 13 w) (bitsOf 7 6 w))
  | 3 => if fieldOf w 13 7 = 0 then some (execVlpc (bitsOf 7 20 w) (bitsOf 7 6 w)) else none
  | 4 => if fieldOf w 6 7 = 0 then some (execSrsr (bitsOf 7 20 w) (bitsOf 7 13 w)) else none
  | 5 => if fieldOf w 6 7 = 0 then some (execSwsr (bitsOf 7 20 w) (bitsOf 7 13 w)) else none
  | 6 => if fieldOf w 6 7 = 0 then some (execP2s (bitsOf 7 20 w) (bitsOf 7 13 w)) else none
  | 7 => if fieldOf w 6 7 = 0 then some (execS2p (bitsOf 7 20 w) (bitsOf 7 13 w)) else none
  | 8 => some (execPand (bitsOf 7 20 w) (bitsOf 7 13 w) (bitsOf 7 6 w))
  | 9 => some (execPor (bitsOf 7 20 w) (bitsOf 7 13 w) (bitsOf 7 6 w))
  | 10 => some (execPxor (bitsOf 7 20 w) (bitsOf 7 13 w) (bitsOf 7 6 w))
  | 11 => if fieldOf w 6 7 = 0 then some (execPnot (bitsOf 7 20 w) (bitsOf 7 13 w)) else none
  | 12 => if fieldOf w 6 7 = 0 ∧ fieldOf w 20 7 = 0 then some (execPtag (bitsOf 7 13 w)) else none
  | 13 => if fieldOf w 6 7 = 0 then some (execPcount (bitsOf 7 20 w) (bitsOf 7 13 w)) else none
  | 14 => some (execTwr (bitsOf 7 20 w) (bitsOf 7 13 w) (bitsOf 7 6 w))
  | 15 => some (execTrd (bitsOf 7 20 w) (bitsOf 7 13 w) (bitsOf 7 6 w))
  | _ => none

theorem runClass15_eq (w : Nat) : runClass15 w = (decodeClass15 w).map exec := by
  unfold runClass15 decodeClass15
  generalize fieldOf w 0 6 = x
  match x with
  | 0 => exact run_if rfl rfl
  | 1 => rfl
  | 2 => rfl
  | 3 => exact run_if rfl rfl
  | 4 => exact run_if rfl rfl
  | 5 => exact run_if rfl rfl
  | 6 => exact run_if rfl rfl
  | 7 => exact run_if rfl rfl
  | 8 => rfl
  | 9 => rfl
  | 10 => rfl
  | 11 => exact run_if rfl rfl
  | 12 => exact run_if rfl rfl
  | 13 => exact run_if rfl rfl
  | 14 => rfl
  | 15 => rfl
  | _ + 16 => rfl

/-- What a word of class 16 does. -/
def runClass16 (w : Nat) : Option Meaning :=
  match fieldOf w 24 3 with
  | 0 => if fieldOf w 20 4 = 0 then some (execBr (bitsOf 20 0 w)) else none
  | 1 => some (execBrp (bitsOf 4 20 w) (bitsOf 20 0 w))
  | 2 => some (execBrnp (bitsOf 4 20 w) (bitsOf 20 0 w))
  | 3 => some (execBrz (bitsOf 4 20 w) (bitsOf 20 0 w))
  | 4 => some (execBrnz (bitsOf 4 20 w) (bitsOf 20 0 w))
  | 5 => if fieldOf w 20 4 = 0 then some (execCall (bitsOf 20 0 w)) else none
  | 6 => if fieldOf w 0 20 = 0 then some (execJmpi (bitsOf 4 20 w)) else none
  | 7 => if fieldOf w 7 17 = 0 then some (execJmpv (bitsOf 7 0 w)) else none
  | _ => none

theorem runClass16_eq (w : Nat) : runClass16 w = (decodeClass16 w).map exec := by
  unfold runClass16 decodeClass16
  generalize fieldOf w 24 3 = x
  match x with
  | 0 => exact run_if rfl rfl
  | 1 => rfl
  | 2 => rfl
  | 3 => rfl
  | 4 => rfl
  | 5 => exact run_if rfl rfl
  | 6 => exact run_if rfl rfl
  | 7 => exact run_if rfl rfl
  | _ + 8 => rfl

/-- What a word of class 17 does. -/
def runClass17 (w : Nat) : Option Meaning :=
  match fieldOf w 24 3 with
  | 0 => if fieldOf w 0 24 = 0 then some (execRet) else none
  | 1 => if fieldOf w 0 24 = 0 then some (execExit) else none
  | 2 => if fieldOf w 0 24 = 0 then some (execNop) else none
  | 3 => if fieldOf w 0 24 = 0 then some (execYield) else none
  | 4 => if fieldOf w 16 8 = 0 then some (execTrap (bitsOf 16 0 w)) else none
  | 5 => if fieldOf w 16 8 = 0 then some (execBrk (bitsOf 16 0 w)) else none
  | 6 => if fieldOf w 0 24 = 0 then some (execEreturn) else none
  | _ => none

theorem runClass17_eq (w : Nat) : runClass17 w = (decodeClass17 w).map exec := by
  unfold runClass17 decodeClass17
  generalize fieldOf w 24 3 = x
  match x with
  | 0 => exact run_if rfl rfl
  | 1 => exact run_if rfl rfl
  | 2 => exact run_if rfl rfl
  | 3 => exact run_if rfl rfl
  | 4 => exact run_if rfl rfl
  | 5 => exact run_if rfl rfl
  | 6 => exact run_if rfl rfl
  | _ + 7 => rfl

/-- What a word of class 18 does. -/
def runClass18 (w : Nat) : Option Meaning :=
  match fieldOf w 0 5 with
  | 0 => some (execLdN8 (bitsOf 3 24 w) (bitsOf 7 17 w) (bitsOf 7 10 w) (bitsOf 5 5 w))
  | 1 => some (execLdI8 (bitsOf 3 24 w) (bitsOf 7 17 w) (bitsOf 7 10 w) (bitsOf 5 5 w))
  | 2 => some (execLdN16 (bitsOf 3 24 w) (bitsOf 7 17 w) (bitsOf 7 10 w) (bitsOf 5 5 w))
  | 3 => some (execLdI16 (bitsOf 3 24 w) (bitsOf 7 17 w) (bitsOf 7 10 w) (bitsOf 5 5 w))
  | 4 => some (execLdB32 (bitsOf 3 24 w) (bitsOf 7 17 w) (bitsOf 7 10 w) (bitsOf 5 5 w))
  | 5 => some (execLdB64 (bitsOf 3 24 w) (bitsOf 7 17 w) (bitsOf 7 10 w) (bitsOf 5 5 w))
  | 6 => some (execLdB128 (bitsOf 3 24 w) (bitsOf 7 17 w) (bitsOf 7 10 w) (bitsOf 5 5 w))
  | _ => none

theorem runClass18_eq (w : Nat) : runClass18 w = (decodeClass18 w).map exec := by
  unfold runClass18 decodeClass18
  generalize fieldOf w 0 5 = x
  match x with
  | 0 => rfl
  | 1 => rfl
  | 2 => rfl
  | 3 => rfl
  | 4 => rfl
  | 5 => rfl
  | 6 => rfl
  | _ + 7 => rfl

/-- What a word of class 19 does. -/
def runClass19 (w : Nat) : Option Meaning :=
  match fieldOf w 0 5 with
  | 0 => some (execStB8 (bitsOf 3 24 w) (bitsOf 7 17 w) (bitsOf 7 10 w) (bitsOf 5 5 w))
  | 1 => some (execStB16 (bitsOf 3 24 w) (bitsOf 7 17 w) (bitsOf 7 10 w) (bitsOf 5 5 w))
  | 2 => some (execStB32 (bitsOf 3 24 w) (bitsOf 7 17 w) (bitsOf 7 10 w) (bitsOf 5 5 w))
  | 3 => some (execStB64 (bitsOf 3 24 w) (bitsOf 7 17 w) (bitsOf 7 10 w) (bitsOf 5 5 w))
  | 4 => some (execStB128 (bitsOf 3 24 w) (bitsOf 7 17 w) (bitsOf 7 10 w) (bitsOf 5 5 w))
  | _ => none

theorem runClass19_eq (w : Nat) : runClass19 w = (decodeClass19 w).map exec := by
  unfold runClass19 decodeClass19
  generalize fieldOf w 0 5 = x
  match x with
  | 0 => rfl
  | 1 => rfl
  | 2 => rfl
  | 3 => rfl
  | 4 => rfl
  | _ + 5 => rfl

/-- What a word of class 20 does. -/
def runClass20 (w : Nat) : Option Meaning :=
  match fieldOf w 0 5 with
  | 0 => some (execAaddI32 (bitsOf 3 24 w) (bitsOf 7 17 w) (bitsOf 7 10 w) (bitsOf 5 5 w))
  | 1 => some (execAaddI64 (bitsOf 3 24 w) (bitsOf 7 17 w) (bitsOf 7 10 w) (bitsOf 5 5 w))
  | 2 => some (execAaddF32 (bitsOf 3 24 w) (bitsOf 7 17 w) (bitsOf 7 10 w) (bitsOf 5 5 w))
  | 3 => some (execAminI32 (bitsOf 3 24 w) (bitsOf 7 17 w) (bitsOf 7 10 w) (bitsOf 5 5 w))
  | 4 => some (execAmaxI32 (bitsOf 3 24 w) (bitsOf 7 17 w) (bitsOf 7 10 w) (bitsOf 5 5 w))
  | 5 => some (execAminN32 (bitsOf 3 24 w) (bitsOf 7 17 w) (bitsOf 7 10 w) (bitsOf 5 5 w))
  | 6 => some (execAmaxN32 (bitsOf 3 24 w) (bitsOf 7 17 w) (bitsOf 7 10 w) (bitsOf 5 5 w))
  | 7 => some (execAminF32 (bitsOf 3 24 w) (bitsOf 7 17 w) (bitsOf 7 10 w) (bitsOf 5 5 w))
  | 8 => some (execAmaxF32 (bitsOf 3 24 w) (bitsOf 7 17 w) (bitsOf 7 10 w) (bitsOf 5 5 w))
  | 9 => some (execAand (bitsOf 3 24 w) (bitsOf 7 17 w) (bitsOf 7 10 w) (bitsOf 5 5 w))
  | 10 => some (execAor (bitsOf 3 24 w) (bitsOf 7 17 w) (bitsOf 7 10 w) (bitsOf 5 5 w))
  | 11 => some (execAxor (bitsOf 3 24 w) (bitsOf 7 17 w) (bitsOf 7 10 w) (bitsOf 5 5 w))
  | 12 => some (execAxchgB32 (bitsOf 3 24 w) (bitsOf 7 17 w) (bitsOf 7 10 w) (bitsOf 5 5 w))
  | 13 => some (execAxchgB64 (bitsOf 3 24 w) (bitsOf 7 17 w) (bitsOf 7 10 w) (bitsOf 5 5 w))
  | 14 => some (execAcasB32 (bitsOf 3 24 w) (bitsOf 7 17 w) (bitsOf 7 10 w) (bitsOf 5 5 w))
  | 15 => some (execAcasB64 (bitsOf 3 24 w) (bitsOf 7 17 w) (bitsOf 7 10 w) (bitsOf 5 5 w))
  | _ => none

theorem runClass20_eq (w : Nat) : runClass20 w = (decodeClass20 w).map exec := by
  unfold runClass20 decodeClass20
  generalize fieldOf w 0 5 = x
  match x with
  | 0 => rfl
  | 1 => rfl
  | 2 => rfl
  | 3 => rfl
  | 4 => rfl
  | 5 => rfl
  | 6 => rfl
  | 7 => rfl
  | 8 => rfl
  | 9 => rfl
  | 10 => rfl
  | 11 => rfl
  | 12 => rfl
  | 13 => rfl
  | 14 => rfl
  | 15 => rfl
  | _ + 16 => rfl

/-- What a word of class 21 does. -/
def runClass21 (w : Nat) : Option Meaning :=
  match fieldOf w 0 5 with
  | 0 => some (execVpoolB32 (bitsOf 3 24 w) (bitsOf 7 17 w) (bitsOf 7 10 w) (bitsOf 5 5 w))
  | 1 => some (execVpoolB64 (bitsOf 3 24 w) (bitsOf 7 17 w) (bitsOf 7 10 w) (bitsOf 5 5 w))
  | _ => none

theorem runClass21_eq (w : Nat) : runClass21 w = (decodeClass21 w).map exec := by
  unfold runClass21 decodeClass21
  generalize fieldOf w 0 5 = x
  match x with
  | 0 => rfl
  | 1 => rfl
  | _ + 2 => rfl

/-- What a word of class 22 does. -/
def runClass22 (w : Nat) : Option Meaning :=
  match fieldOf w 12 3 with
  | 0 => some (execSldB32 (bitsOf 7 20 w) (bitsOf 5 15 w) (bitsOf 12 0 w))
  | 1 => some (execSldB64 (bitsOf 7 20 w) (bitsOf 5 15 w) (bitsOf 12 0 w))
  | 2 => some (execSstB32 (bitsOf 7 20 w) (bitsOf 5 15 w) (bitsOf 12 0 w))
  | 3 => some (execSstB64 (bitsOf 7 20 w) (bitsOf 5 15 w) (bitsOf 12 0 w))
  | 4 => some (execSaaddB64 (bitsOf 7 20 w) (bitsOf 5 15 w) (bitsOf 12 0 w))
  | 5 => some (execScasB64 (bitsOf 7 20 w) (bitsOf 5 15 w) (bitsOf 12 0 w))
  | 6 => if fieldOf w 20 7 = 0 then some (execSprefetch (bitsOf 5 15 w) (bitsOf 12 0 w)) else none
  | 7 => some (execSlduB32 (bitsOf 7 20 w) (bitsOf 5 15 w) (bitsOf 12 0 w))
  | _ => none

theorem runClass22_eq (w : Nat) : runClass22 w = (decodeClass22 w).map exec := by
  unfold runClass22 decodeClass22
  generalize fieldOf w 12 3 = x
  match x with
  | 0 => rfl
  | 1 => rfl
  | 2 => rfl
  | 3 => rfl
  | 4 => rfl
  | 5 => rfl
  | 6 => exact run_if rfl rfl
  | 7 => rfl
  | _ + 8 => rfl

/-- What a word of class 23 does. -/
def runClass23 (w : Nat) : Option Meaning :=
  match fieldOf w 0 5 with
  | 0 => some (execAappB32 (bitsOf 3 24 w) (bitsOf 7 17 w) (bitsOf 7 10 w) (bitsOf 5 5 w))
  | 1 => some (execAappB128 (bitsOf 3 24 w) (bitsOf 7 17 w) (bitsOf 7 10 w) (bitsOf 5 5 w))
  | 2 => some (execAappl (bitsOf 3 24 w) (bitsOf 7 17 w) (bitsOf 7 10 w) (bitsOf 5 5 w))
  | _ => none

theorem runClass23_eq (w : Nat) : runClass23 w = (decodeClass23 w).map exec := by
  unfold runClass23 decodeClass23
  generalize fieldOf w 0 5 = x
  match x with
  | 0 => rfl
  | 1 => rfl
  | 2 => rfl
  | _ + 3 => rfl

/-- What a word of class 24 does. -/
def runClass24 (w : Nat) : Option Meaning :=
  match fieldOf w 24 3 with
  | 0 => some (execCcopy (bitsOf 3 21 w) (bitsOf 5 16 w) (bitsOf 5 11 w) (bitsOf 6 5 w) (bitsOf 5 0 w))
  | 1 => some (execCblock (bitsOf 3 21 w) (bitsOf 5 16 w) (bitsOf 5 11 w) (bitsOf 6 5 w) (bitsOf 5 0 w))
  | 2 => some (execCfill (bitsOf 3 21 w) (bitsOf 5 16 w) (bitsOf 5 11 w) (bitsOf 6 5 w) (bitsOf 5 0 w))
  | 3 => some (execCgather (bitsOf 3 21 w) (bitsOf 5 16 w) (bitsOf 5 11 w) (bitsOf 6 5 w) (bitsOf 5 0 w))
  | 4 => if fieldOf w 16 5 = 0 then some (execCprefetch (bitsOf 3 21 w) (bitsOf 5 11 w) (bitsOf 6 5 w) (bitsOf 5 0 w)) else none
  | 5 => if fieldOf w 16 5 = 0 then some (execCpromote (bitsOf 3 21 w) (bitsOf 5 11 w) (bitsOf 6 5 w) (bitsOf 5 0 w)) else none
  | _ => none

theorem runClass24_eq (w : Nat) : runClass24 w = (decodeClass24 w).map exec := by
  unfold runClass24 decodeClass24
  generalize fieldOf w 24 3 = x
  match x with
  | 0 => rfl
  | 1 => rfl
  | 2 => rfl
  | 3 => rfl
  | 4 => exact run_if rfl rfl
  | 5 => exact run_if rfl rfl
  | _ + 6 => rfl

/-- What a word of class 25 does. -/
def runClass25 (w : Nat) : Option Meaning :=
  match fieldOf w 24 3 with
  | 0 => some (execMloop (bitsOf 4 20 w) (bitsOf 5 15 w) (bitsOf 5 10 w) (bitsOf 5 5 w) (bitsOf 5 0 w))
  | 1 => some (execMloopG (bitsOf 4 20 w) (bitsOf 5 15 w) (bitsOf 5 10 w) (bitsOf 5 5 w) (bitsOf 5 0 w))
  | 2 => some (execMloopCx (bitsOf 4 20 w) (bitsOf 5 15 w) (bitsOf 5 10 w) (bitsOf 5 5 w) (bitsOf 5 0 w))
  | 3 => if fieldOf w 10 5 = 0 then some (execMdrain (bitsOf 4 20 w) (bitsOf 5 15 w) (bitsOf 5 5 w) (bitsOf 5 0 w)) else none
  | 4 => some (execMdrainMx (bitsOf 4 20 w) (bitsOf 5 15 w) (bitsOf 5 10 w) (bitsOf 5 5 w) (bitsOf 5 0 w))
  | 5 => if fieldOf w 0 20 = 0 then some (execMzero (bitsOf 4 20 w)) else none
  | 6 => if fieldOf w 0 15 = 0 then some (execMload (bitsOf 4 20 w) (bitsOf 5 15 w)) else none
  | 7 => if fieldOf w 0 5 = 0 ∧ fieldOf w 10 10 = 0 then some (execMprog (bitsOf 4 20 w) (bitsOf 5 5 w)) else none
  | _ => none

theorem runClass25_eq (w : Nat) : runClass25 w = (decodeClass25 w).map exec := by
  unfold runClass25 decodeClass25
  generalize fieldOf w 24 3 = x
  match x with
  | 0 => rfl
  | 1 => rfl
  | 2 => rfl
  | 3 => exact run_if rfl rfl
  | 4 => rfl
  | 5 => exact run_if rfl rfl
  | 6 => exact run_if rfl rfl
  | 7 => exact run_if rfl rfl
  | _ + 8 => rfl

/-- What a word of class 26 does. -/
def runClass26 (w : Nat) : Option Meaning :=
  match fieldOf w 22 5 with
  | 0 => if fieldOf w 0 1 = 0 ∧ fieldOf w 15 7 = 0 then some (execBarinit (bitsOf 7 8 w) (bitsOf 7 1 w)) else none
  | 1 => if fieldOf w 0 1 = 0 then some (execBararrive (bitsOf 7 15 w) (bitsOf 7 8 w) (bitsOf 7 1 w)) else none
  | 2 => if fieldOf w 0 1 = 0 then some (execBarexpect (bitsOf 7 15 w) (bitsOf 7 8 w) (bitsOf 7 1 w)) else none
  | 3 => if fieldOf w 0 8 = 0 then some (execBarquery (bitsOf 7 15 w) (bitsOf 7 8 w)) else none
  | 4 => if fieldOf w 0 8 = 0 then some (execTlread (bitsOf 7 15 w) (bitsOf 7 8 w)) else none
  | 5 => if fieldOf w 0 1 = 0 ∧ fieldOf w 7 1 = 0 then some (execWait (bitsOf 7 15 w) (bitsOf 7 8 w) (bitsOf 6 1 w)) else if fieldOf w 0 1 = 0 ∧ fieldOf w 7 1 = 1 then some (execWaitInline (bitsOf 7 15 w) (bitsOf 7 8 w) (bitsOf 6 1 w)) else none
  | 6 => if fieldOf w 0 2 = 0 then some (execSettle (bitsOf 5 17 w) (bitsOf 5 12 w) (bitsOf 5 7 w) (bitsOf 5 2 w)) else none
  | 7 => if fieldOf w 0 22 = 0 then some (execFenceSys) else none
  | 8 => if fieldOf w 0 1 = 0 then some (execFlush (bitsOf 7 15 w) (bitsOf 7 8 w) (bitsOf 7 1 w)) else none
  | 9 => if fieldOf w 0 1 = 0 then some (execInval (bitsOf 7 15 w) (bitsOf 7 8 w) (bitsOf 7 1 w)) else none
  | 10 => if fieldOf w 0 15 = 0 then some (execClock (bitsOf 7 15 w)) else none
  | _ => none

theorem runClass26_eq (w : Nat) : runClass26 w = (decodeClass26 w).map exec := by
  unfold runClass26 decodeClass26
  generalize fieldOf w 22 5 = x
  match x with
  | 0 => exact run_if rfl rfl
  | 1 => exact run_if rfl rfl
  | 2 => exact run_if rfl rfl
  | 3 => exact run_if rfl rfl
  | 4 => exact run_if rfl rfl
  | 5 => exact run_if rfl (run_if rfl rfl)
  | 6 => exact run_if rfl rfl
  | 7 => exact run_if rfl rfl
  | 8 => exact run_if rfl rfl
  | 9 => exact run_if rfl rfl
  | 10 => exact run_if rfl rfl
  | _ + 11 => rfl

/-- What a word of class 27 does. -/
def runClass27 (w : Nat) : Option Meaning :=
  match fieldOf w 22 5 with
  | 0 => if fieldOf w 0 1 = 0 then some (execWspawn (bitsOf 7 15 w) (bitsOf 7 8 w) (bitsOf 7 1 w)) else none
  | 1 => if fieldOf w 0 8 = 0 then some (execWexit (bitsOf 7 15 w) (bitsOf 7 8 w)) else none
  | 2 => if fieldOf w 0 1 = 0 then some (execRspawn (bitsOf 7 15 w) (bitsOf 7 8 w) (bitsOf 7 1 w)) else none
  | 3 => if fieldOf w 0 1 = 0 then some (execOdup (bitsOf 7 15 w) (bitsOf 7 8 w) (bitsOf 7 1 w)) else none
  | 4 => if fieldOf w 0 8 = 0 then some (execOclose (bitsOf 7 15 w) (bitsOf 7 8 w)) else none
  | 5 => if fieldOf w 0 1 = 0 then some (execOinfo (bitsOf 7 15 w) (bitsOf 7 8 w) (bitsOf 7 1 w)) else none
  | 6 => if fieldOf w 0 15 = 0 then some (execWsnew (bitsOf 7 15 w)) else none
  | 7 => if fieldOf w 0 1 = 0 then some (execWsadd (bitsOf 7 15 w) (bitsOf 7 8 w) (bitsOf 7 1 w)) else none
  | 8 => if fieldOf w 0 1 = 0 then some (execWsdel (bitsOf 7 15 w) (bitsOf 7 8 w) (bitsOf 7 1 w)) else none
  | 9 => if fieldOf w 0 15 = 0 then some (execTnew (bitsOf 7 15 w)) else none
  | 10 => if fieldOf w 0 1 = 0 then some (execTarm (bitsOf 7 15 w) (bitsOf 7 8 w) (bitsOf 7 1 w)) else none
  | 11 => if fieldOf w 0 8 = 0 then some (execTcancel (bitsOf 7 15 w) (bitsOf 7 8 w)) else none
  | 12 => if fieldOf w 0 8 = 0 then some (execPnew (bitsOf 7 15 w) (bitsOf 7 8 w)) else none
  | 13 => if fieldOf w 0 1 = 0 then some (execPsend (bitsOf 7 15 w) (bitsOf 7 8 w) (bitsOf 7 1 w)) else none
  | 14 => if fieldOf w 0 1 = 0 then some (execPgrant (bitsOf 7 15 w) (bitsOf 7 8 w) (bitsOf 7 1 w)) else none
  | 15 => if fieldOf w 0 1 = 0 ∧ fieldOf w 7 1 = 0 then some (execPrecv (bitsOf 7 15 w) (bitsOf 7 8 w) (bitsOf 6 1 w)) else none
  | 16 => if fieldOf w 0 1 = 0 ∧ fieldOf w 7 1 = 0 then some (execPslot (bitsOf 7 15 w) (bitsOf 7 8 w) (bitsOf 6 1 w)) else none
  | 17 => if fieldOf w 0 8 = 0 then some (execPname (bitsOf 7 15 w) (bitsOf 7 8 w)) else none
  | 18 => if fieldOf w 0 1 = 0 then some (execPreg (bitsOf 7 15 w) (bitsOf 7 8 w) (bitsOf 7 1 w)) else none
  | 19 => if fieldOf w 0 1 = 0 then some (execAnew (bitsOf 7 15 w) (bitsOf 7 8 w) (bitsOf 7 1 w)) else none
  | 20 => if fieldOf w 0 8 = 0 then some (execAseal (bitsOf 7 15 w) (bitsOf 7 8 w)) else none
  | 21 => if fieldOf w 0 8 = 0 then some (execAfree (bitsOf 7 15 w) (bitsOf 7 8 w)) else none
  | 22 => if fieldOf w 0 1 = 0 then some (execAtail (bitsOf 7 15 w) (bitsOf 7 8 w) (bitsOf 7 1 w)) else none
  | 23 => if fieldOf w 0 1 = 0 then some (execRgnew (bitsOf 7 15 w) (bitsOf 7 8 w) (bitsOf 7 1 w)) else none
  | 24 => if fieldOf w 0 1 = 0 then some (execRgset (bitsOf 7 15 w) (bitsOf 7 8 w) (bitsOf 7 1 w)) else none
  | _ => none

theorem runClass27_eq (w : Nat) : runClass27 w = (decodeClass27 w).map exec := by
  unfold runClass27 decodeClass27
  generalize fieldOf w 22 5 = x
  match x with
  | 0 => exact run_if rfl rfl
  | 1 => exact run_if rfl rfl
  | 2 => exact run_if rfl rfl
  | 3 => exact run_if rfl rfl
  | 4 => exact run_if rfl rfl
  | 5 => exact run_if rfl rfl
  | 6 => exact run_if rfl rfl
  | 7 => exact run_if rfl rfl
  | 8 => exact run_if rfl rfl
  | 9 => exact run_if rfl rfl
  | 10 => exact run_if rfl rfl
  | 11 => exact run_if rfl rfl
  | 12 => exact run_if rfl rfl
  | 13 => exact run_if rfl rfl
  | 14 => exact run_if rfl rfl
  | 15 => exact run_if rfl rfl
  | 16 => exact run_if rfl rfl
  | 17 => exact run_if rfl rfl
  | 18 => exact run_if rfl rfl
  | 19 => exact run_if rfl rfl
  | 20 => exact run_if rfl rfl
  | 21 => exact run_if rfl rfl
  | 22 => exact run_if rfl rfl
  | 23 => exact run_if rfl rfl
  | 24 => exact run_if rfl rfl
  | _ + 25 => rfl

/-- What a word of class 28 does. -/
def runClass28 (w : Nat) : Option Meaning :=
  match fieldOf w 22 5 with
  | 0 => if fieldOf w 0 1 = 0 then some (execWread (bitsOf 7 15 w) (bitsOf 7 8 w) (bitsOf 7 1 w)) else none
  | 1 => if fieldOf w 0 1 = 0 then some (execWwrite (bitsOf 7 15 w) (bitsOf 7 8 w) (bitsOf 7 1 w)) else none
  | 2 => if fieldOf w 0 8 = 0 then some (execWresume (bitsOf 7 15 w) (bitsOf 7 8 w)) else none
  | 3 => if fieldOf w 0 15 = 0 then some (execGsaved (bitsOf 7 15 w)) else none
  | 4 => if fieldOf w 0 1 = 0 then some (execRdlog (bitsOf 7 15 w) (bitsOf 7 8 w) (bitsOf 7 1 w)) else none
  | 5 => if fieldOf w 0 8 = 0 then some (execCsaveq (bitsOf 7 15 w) (bitsOf 7 8 w)) else none
  | 6 => if fieldOf w 0 8 = 0 then some (execCreplay (bitsOf 7 15 w) (bitsOf 7 8 w)) else none
  | 7 => if fieldOf w 0 1 = 0 then some (execTlbinv (bitsOf 7 15 w) (bitsOf 7 8 w) (bitsOf 7 1 w)) else none
  | 8 => if fieldOf w 0 8 = 0 then some (execCkmark (bitsOf 7 15 w) (bitsOf 7 8 w)) else none
  | _ => none

theorem runClass28_eq (w : Nat) : runClass28 w = (decodeClass28 w).map exec := by
  unfold runClass28 decodeClass28
  generalize fieldOf w 22 5 = x
  match x with
  | 0 => exact run_if rfl rfl
  | 1 => exact run_if rfl rfl
  | 2 => exact run_if rfl rfl
  | 3 => exact run_if rfl rfl
  | 4 => exact run_if rfl rfl
  | 5 => exact run_if rfl rfl
  | 6 => exact run_if rfl rfl
  | 7 => exact run_if rfl rfl
  | 8 => exact run_if rfl rfl
  | _ + 9 => rfl

/-- What a word of class 29 does. -/
def runClass29 (w : Nat) : Option Meaning :=
  match fieldOf w 0 3 with
  | 0 => if fieldOf w 3 7 = 0 then some (execVfrint (bitsOf 3 24 w) (bitsOf 7 17 w) (bitsOf 7 10 w)) else none
  | 1 => if fieldOf w 3 7 = 0 then some (execVffloor (bitsOf 3 24 w) (bitsOf 7 17 w) (bitsOf 7 10 w)) else none
  | 2 => if fieldOf w 3 7 = 0 then some (execVfceil (bitsOf 3 24 w) (bitsOf 7 17 w) (bitsOf 7 10 w)) else none
  | 3 => if fieldOf w 3 7 = 0 then some (execVftrunc (bitsOf 3 24 w) (bitsOf 7 17 w) (bitsOf 7 10 w)) else none
  | 4 => if fieldOf w 3 7 = 0 then some (execVfclass (bitsOf 3 24 w) (bitsOf 7 17 w) (bitsOf 7 10 w)) else none
  | 5 => if fieldOf w 3 7 = 0 then some (execVfexp (bitsOf 3 24 w) (bitsOf 7 17 w) (bitsOf 7 10 w)) else none
  | 6 => if fieldOf w 3 7 = 0 then some (execVfmant (bitsOf 3 24 w) (bitsOf 7 17 w) (bitsOf 7 10 w)) else none
  | 7 => some (execVfmed3 (bitsOf 3 24 w) (bitsOf 7 17 w) (bitsOf 7 10 w) (bitsOf 7 3 w))
  | _ => none

theorem runClass29_eq (w : Nat) : runClass29 w = (decodeClass29 w).map exec := by
  unfold runClass29 decodeClass29
  generalize fieldOf w 0 3 = x
  match x with
  | 0 => exact run_if rfl rfl
  | 1 => exact run_if rfl rfl
  | 2 => exact run_if rfl rfl
  | 3 => exact run_if rfl rfl
  | 4 => exact run_if rfl rfl
  | 5 => exact run_if rfl rfl
  | 6 => exact run_if rfl rfl
  | 7 => rfl
  | _ + 8 => rfl

/-- What a word of class 31 does. -/
def runClass31 (w : Nat) : Option Meaning :=
  match fieldOf w 24 3 with
  | 0 => some (execXimm (bitsOf 24 0 w))
  | 1 => if fieldOf w 0 6 = 0 then some (execXop (bitsOf 18 6 w)) else none
  | 2 => some (execHint (bitsOf 24 0 w))
  | 3 => if fieldOf w 5 19 = 0 then some (execGuard (bitsOf 1 4 w) (bitsOf 4 0 w)) else none
  | _ => none

theorem runClass31_eq (w : Nat) : runClass31 w = (decodeClass31 w).map exec := by
  unfold runClass31 decodeClass31
  generalize fieldOf w 24 3 = x
  match x with
  | 0 => rfl
  | 1 => exact run_if rfl rfl
  | 2 => rfl
  | 3 => exact run_if rfl rfl
  | _ + 4 => rfl

/-- What a word of some row does. -/
def runRow? (w : Nat) : Option Meaning :=
  match fieldOf w 27 5 with
  | 0 => runClass0 w
  | 1 => runClass1 w
  | 2 => runClass2 w
  | 3 => runClass3 w
  | 4 => runClass4 w
  | 5 => runClass5 w
  | 6 => runClass6 w
  | 7 => runClass7 w
  | 8 => runClass8 w
  | 9 => runClass9 w
  | 10 => runClass10 w
  | 11 => runClass11 w
  | 12 => runClass12 w
  | 13 => runClass13 w
  | 14 => runClass14 w
  | 15 => runClass15 w
  | 16 => runClass16 w
  | 17 => runClass17 w
  | 18 => runClass18 w
  | 19 => runClass19 w
  | 20 => runClass20 w
  | 21 => runClass21 w
  | 22 => runClass22 w
  | 23 => runClass23 w
  | 24 => runClass24 w
  | 25 => runClass25 w
  | 26 => runClass26 w
  | 27 => runClass27 w
  | 28 => runClass28 w
  | 29 => runClass29 w
  | 31 => runClass31 w
  | _ => none

theorem runRow?_eq (w : Nat) : runRow? w = (decodeRow w).map exec := by
  unfold runRow? decodeRow
  generalize fieldOf w 27 5 = x
  match x with
  | 0 => exact runClass0_eq w
  | 1 => exact runClass1_eq w
  | 2 => exact runClass2_eq w
  | 3 => exact runClass3_eq w
  | 4 => exact runClass4_eq w
  | 5 => exact runClass5_eq w
  | 6 => exact runClass6_eq w
  | 7 => exact runClass7_eq w
  | 8 => exact runClass8_eq w
  | 9 => exact runClass9_eq w
  | 10 => exact runClass10_eq w
  | 11 => exact runClass11_eq w
  | 12 => exact runClass12_eq w
  | 13 => exact runClass13_eq w
  | 14 => exact runClass14_eq w
  | 15 => exact runClass15_eq w
  | 16 => exact runClass16_eq w
  | 17 => exact runClass17_eq w
  | 18 => exact runClass18_eq w
  | 19 => exact runClass19_eq w
  | 20 => exact runClass20_eq w
  | 21 => exact runClass21_eq w
  | 22 => exact runClass22_eq w
  | 23 => exact runClass23_eq w
  | 24 => exact runClass24_eq w
  | 25 => exact runClass25_eq w
  | 26 => exact runClass26_eq w
  | 27 => exact runClass27_eq w
  | 28 => exact runClass28_eq w
  | 29 => exact runClass29_eq w
  | 30 => rfl
  | 31 => exact runClass31_eq w
  | _ + 32 => rfl

/-- `exec` of the instruction that a word decodes to. -/
noncomputable def runWord (w : BitVec 32) (s : State) : Host.Outcome State Fault Refusal := exec (decodeWord w) s

/-- The compiled form of `runWord`. -/
def runWordByClass (w : BitVec 32) (s : State) : Host.Outcome State Fault Refusal :=
  match runRow? w.toNat with
  | some f => f s
  | none => execIllegalEncoding w s

@[csimp] theorem runWord_eq : @runWord = @runWordByClass := by
  funext w s
  unfold runWord runWordByClass decodeWord
  rw [runRow?_eq]
  cases decodeRow w.toNat <;> rfl

end Sys2Proof.Machine
end

