-- ==== Sys2Proof/Machine/Time.lean ====
section
/-! DEFINITION. What the passing of time changes by itself: the clock, ages, service values, monitors, and the run queues
(spec/01 R15, R16; spec/21 R352, R358, R368; spec/23 R382, R383). -/

namespace Sys2Proof.Machine

open Sys2Proof

/-- The cores that hold gangs of a region's own (R352). -/
def ownCores (s : State) (r : Nat) : List Nat :=
  (s.gangs.filterMap fun p =>
    if gangRegion s p.1 == r && gangResident s p.2 then some p.2.core else none).dedup

/-- Whether a saved or saving cohort ages: from its PREEMPT entry on (R358). -/
def Cohort.ages (c : Cohort) : Bool :=
  !c.ended && (c.saved || (c.preempted && c.entered))

/-- Whether a region's progress counter runs: a resident gang has a live, unparked lane or an incomplete engine operation
(R383). -/
def progressRuns (s : State) (r : Nat) : Bool :=
  s.gangs.any fun p => !p.2.ended && gangRegion s p.1 == r && gangResident s p.2 &&
    (!p.2.idle || (gangWaves s p.1).any fun w => w.2.lanes.any (· == .live))

/-- A region after `n` cycles. Its service value is kept in units of 2^-16 above a 64-bit whole part (R352; assumption log
73). -/
def Region.after (g : Region) (s : State) (r n : Nat) : Region :=
  if g.status = 2 then g
  else
    { g with
      vserv := (g.vserv + n * ((ownCores s r).length * 2 ^ 32 / max 1 (eff s 12 Region.share r))) % 2 ^ 80
      deadFor := if deadlocked s r then g.deadFor + n else 0
      progress := if progressRuns s r then g.progress + n else g.progress }

/-- The entries a cluster's quadrants take in `n` cycles, each quadrant its own waves' in order, one per cycle; and those
that stay. -/
def takeEntries (s : State) (n : Nat) : List Nat → List Nat → List Nat × List Nat
  | [], _ => ([], [])
  | w :: rest, quads =>
    let q := ((getWave s w).map (quadrantOf s)).getD 0
    let r := takeEntries s n rest (q :: quads)
    if (quads.filter (· == q)).length < n then (w :: r.1, r.2) else (r.1, w :: r.2)

/-- Run-queue entries taken in `n` cycles: the waves that waited for them are ready from now (R368). -/
def takeRuns (s : State) (n : Nat) : State :=
  s.clusters.foldl (fun s p =>
    if p.2.runq.isEmpty then s
    else
      let r := takeEntries s n p.2.runq []
      let s := { s with clusters := fset s.clusters p.1 { p.2 with runq := r.2 } }
      r.1.foldl (fun s w => modWave s w fun v => if v.queued then { v with ready := s.time, queued := false } else v) s) s

/-- The event next due waits that much less. -/
def nearer (dt : Nat) : List (Nat × Instr) → List (Nat × Instr)
  | [] => []
  | (d, e) :: t => (d - dt, e) :: t

/-- Fabric cycles since reset (spec/01 R15). -/
def fabricCycle (time : Nat) : Nat := 2 * time / 15

/-- At the end of a fabric cycle the clusters that its events have set due are to run the placement procedure (R355). -/
def setRuns (s : State) : State :=
  { s with clusters := fmapv (fun _ c => if c.due then { c with due := false, run := true } else c) s.clusters }

/-- The module after `dt` units of time in which nothing else happens. -/
def elapse (s : State) (dt : Nat) : State :=
  let n := (s.time + dt) / 5 - s.time / 5
  let t := { s with time := s.time + dt, agenda := nearer dt s.agenda }
  let t := if fabricCycle s.time < fabricCycle t.time then setRuns t else t
  if n = 0 then t
  else
    takeRuns { t with
      ranges := fmapv (fun k r =>
        if r.waits && regionStatus s r.region != 2 && eligibleApart s (false, k) then { r with age := r.age + n } else r)
        t.ranges
      cohorts := fmapv (fun k c => if c.ages && eligibleApart s (true, k) then { c with age := c.age + n } else c) t.cohorts
      regions := fmapv (fun r g => g.after s r n) t.regions
      gangs := fmapv (fun _ g =>
        if gangResident s g && g.ctxs.any (fun c => !c.ops.isEmpty && !c.stopped && !c.halted) then
          { g with work := g.work + n } else g) t.gangs } n

end Sys2Proof.Machine
end

