-- ==== Sys2Proof/Machine/Agenda.lean ====
section
/-! DEFINITION. The event that is due next where the agenda names none: the schedule the model follows among the orders
the manual leaves open (assumption log 1). -/

namespace Sys2Proof.Machine

open Sys2Proof

/-- The events that the module itself makes due. -/
inductive Due where
  | trapEntry (w : Nat)
  | deferredPreciseTrap (w : Nat)
  | pageFill (rg : Nat) (va : Nat) (die : Nat)
  | migrationDone (rg : Nat) (va : Nat) (die : Nat)
  | engineChunkLand (gang : Nat) (ctx : Nat) (num : Nat) (chunk : Nat)
  | matrixRowDone (gang : Nat) (ctx : Nat)
  | mprogArrive (gang : Nat) (ctx : Nat)
  | engineFault (gang : Nat) (ctx : Nat) (num : Nat)
  | waitWake (w : Nat) (grp : Nat)
  | waitTimeout (w : Nat) (grp : Nat)
  | placement (cluster : Nat)
  | cohortStart (cohort : Nat)
  | unitAged (saved : Bool) (unit : Nat)
  | quantumExpiry (gang : Nat)
  | saveDrainOverrun (cohort : Nat)
  | deadlockDetect (rg : Nat)
  | progressStall (rg : Nat)
  | discardRelease (rg : Nat)
  | peerDead (module : Nat) (announced : Bool)
  | commitTailAdvance (seg : Nat) (blk : Nat)
  | asealDone (seg : Nat)
  | afreeDone (seg : Nat)
  | checkpointPageCopy (rg : Nat) (page : Nat)
  | checkpointImageDone (rg : Nat)
  | flushDone (job : Nat)
  | refreshInterval (ch : Nat)
  | refresh (ch : Nat) (waiting : Bool)
  | energyWindowStart
  | thermalTrip
  | coolantTimeout
  | diePowerOff
  | clusterStart (cluster : Nat)
  | firmwareRestartDone
  | pktNop (q : Nat)
  | launch (q : Nat)
  | signal (q : Nat)
  | waitsig (q : Nat)
  | waitsigSatisfied (pkt : Nat)
  | copy (q : Nat)
  | packetCopyDone (pkt : Nat)
  | regionCreate (q : Nat)
  | regionSet (q : Nat)
  | regionDiscard (q : Nat)
  | ckpt (q : Nat)
  | restore (q : Nat)
  | biasSnoopTimeout (line : Nat)
  | biasFlipHostDone
  | badpkt (q : Nat)
  | restoreDone (pkt : Nat)
  | grantPoint (send : Nat)
  deriving DecidableEq, Repr

/-- The event as an instruction. -/
noncomputable def Due.instr : Due → Instr
  | .trapEntry w => .trapEntry w
  | .deferredPreciseTrap w => .deferredPreciseTrap w
  | .pageFill rg va die => .pageFill rg va die
  | .migrationDone rg va die => .migrationDone rg va die
  | .engineChunkLand gang ctx num chunk => .engineChunkLand gang ctx num chunk
  | .matrixRowDone gang ctx => .matrixRowDone gang ctx
  | .mprogArrive gang ctx => .mprogArrive gang ctx
  | .engineFault gang ctx num => .engineFault gang ctx num
  | .waitWake w grp => .waitWake w grp
  | .waitTimeout w grp => .waitTimeout w grp
  | .placement cluster => .placement cluster
  | .cohortStart cohort => .cohortStart cohort
  | .unitAged saved unit => .unitAged saved unit
  | .quantumExpiry gang => .quantumExpiry gang
  | .saveDrainOverrun cohort => .saveDrainOverrun cohort
  | .deadlockDetect rg => .deadlockDetect rg
  | .progressStall rg => .progressStall rg
  | .discardRelease rg => .discardRelease rg
  | .peerDead module announced => .peerDead module announced
  | .commitTailAdvance seg blk => .commitTailAdvance seg blk
  | .asealDone seg => .asealDone seg
  | .afreeDone seg => .afreeDone seg
  | .checkpointPageCopy rg page => .checkpointPageCopy rg page
  | .checkpointImageDone rg => .checkpointImageDone rg
  | .flushDone job => .flushDone job
  | .refreshInterval ch => .refreshInterval ch
  | .refresh ch waiting => .refresh ch waiting
  | .energyWindowStart => .energyWindowStart
  | .thermalTrip => .thermalTrip
  | .coolantTimeout => .coolantTimeout
  | .diePowerOff => .diePowerOff
  | .clusterStart cluster => .clusterStart cluster
  | .firmwareRestartDone => .firmwareRestartDone
  | .pktNop q => .pktNop q
  | .launch q => .launch q
  | .signal q => .signal q
  | .waitsig q => .waitsig q
  | .waitsigSatisfied pkt => .waitsigSatisfied pkt
  | .copy q => .copy q
  | .packetCopyDone pkt => .packetCopyDone pkt
  | .regionCreate q => .regionCreate q
  | .regionSet q => .regionSet q
  | .regionDiscard q => .regionDiscard q
  | .ckpt q => .ckpt q
  | .restore q => .restore q
  | .biasSnoopTimeout line => .biasSnoopTimeout line
  | .biasFlipHostDone => .biasFlipHostDone
  | .badpkt q => .badpkt q
  | .restoreDone pkt => .restoreDone pkt
  | .grantPoint send => .grantPointReply 0 0 send 0

/-- What a due event does: its meaning. -/
noncomputable def runDue (e : Due) (s : State) : Host.Outcome State Fault Refusal := exec e.instr s

/-- The compiled form of `runDue`. -/
def runDueByCase (e : Due) (s : State) : Host.Outcome State Fault Refusal :=
  match e with
  | .trapEntry w => execTrapEntry w s
  | .deferredPreciseTrap w => execDeferredPreciseTrap w s
  | .pageFill rg va die => execPageFill rg va die s
  | .migrationDone rg va die => execMigrationDone rg va die s
  | .engineChunkLand gang ctx num chunk => execEngineChunkLand gang ctx num chunk s
  | .matrixRowDone gang ctx => execMatrixRowDone gang ctx s
  | .mprogArrive gang ctx => execMprogArrive gang ctx s
  | .engineFault gang ctx num => execEngineFault gang ctx num s
  | .waitWake w grp => execWaitWake w grp s
  | .waitTimeout w grp => execWaitTimeout w grp s
  | .placement cluster => execPlacement cluster s
  | .cohortStart cohort => execCohortStart cohort s
  | .unitAged saved unit => execUnitAged saved unit s
  | .quantumExpiry gang => execQuantumExpiry gang s
  | .saveDrainOverrun cohort => execSaveDrainOverrun cohort s
  | .deadlockDetect rg => execDeadlockDetect rg s
  | .progressStall rg => execProgressStall rg s
  | .discardRelease rg => execDiscardRelease rg s
  | .peerDead module announced => execPeerDead module announced s
  | .commitTailAdvance seg blk => execCommitTailAdvance seg blk s
  | .asealDone seg => execAsealDone seg s
  | .afreeDone seg => execAfreeDone seg s
  | .checkpointPageCopy rg page => execCheckpointPageCopy rg page s
  | .checkpointImageDone rg => execCheckpointImageDone rg s
  | .flushDone job => execFlushDone job s
  | .refreshInterval ch => execRefreshInterval ch s
  | .refresh ch waiting => execRefresh ch waiting s
  | .energyWindowStart => execEnergyWindowStart s
  | .thermalTrip => execThermalTrip s
  | .coolantTimeout => execCoolantTimeout s
  | .diePowerOff => execDiePowerOff s
  | .clusterStart cluster => execClusterStart cluster s
  | .firmwareRestartDone => execFirmwareRestartDone s
  | .pktNop q => execPktNop q s
  | .launch q => execLaunch q s
  | .signal q => execSignal q s
  | .waitsig q => execWaitsig q s
  | .waitsigSatisfied pkt => execWaitsigSatisfied pkt s
  | .copy q => execCopy q s
  | .packetCopyDone pkt => execPacketCopyDone pkt s
  | .regionCreate q => execRegionCreate q s
  | .regionSet q => execRegionSet q s
  | .regionDiscard q => execRegionDiscard q s
  | .ckpt q => execCkpt q s
  | .restore q => execRestore q s
  | .biasSnoopTimeout line => execBiasSnoopTimeout line s
  | .biasFlipHostDone => execBiasFlipHostDone s
  | .badpkt q => execBadpkt q s
  | .restoreDone pkt => execRestoreDone pkt s
  | .grantPoint send => execGrantPointReply 0 0 send 0 s

@[csimp] theorem runDue_eq : @runDue = @runDueByCase := by
  funext e s
  cases e <;> rfl

/-! ### Power, boot, firmware -/

/-- What a bias flip does next. -/
def dueFlip (s : State) : Option Due :=
  s.host.flip.bind fun f =>
    if !f.toDevice then some .biasFlipHostDone
    else if f.since + 10 * millisecond < s.time then f.lines.head?.map .biasSnoopTimeout
    else none

/-- What the channels do next (R283): intervals that have ended, then the refreshes owed. -/
def dueRefresh (s : State) : Option Due :=
  if refreshIntervals s = 0 then none
  else (numsFrom 0 Config.channels).findSome? fun ch => match refreshOwed s ch with
    | some w => some (.refresh ch w)
    | none => if fgetD s.intervals ch 0 < refreshIntervals s then some (.refreshInterval ch) else none

/-- What is due on the module as a whole. -/
def dueModule (s : State) : Option Due :=
  let h := s.host
  if h.powered && secondSince s h.tripAt then some .diePowerOff
  else if canTrip s && decide (1680 ≤ h.tjmax) then some .thermalTrip
  else if canTrip s && (secondSince s h.hotSince || secondSince s h.dryAt) then some .coolantTimeout
  else if h.bootstate = 1 then some (.clusterStart 0)
  else if h.bootstate = 2 then
    ((s.clusters.find? fun p => !p.2.started).filter fun p => clusterTime s p.1).map fun p => .clusterStart p.1
  else if h.bootstate = 4 ∧ h.restarts.headD 0 + 250 * millisecond ≤ s.time then some .firmwareRestartDone
  else if h.powered ∧ h.windows < s.time / millisecond then some .energyWindowStart
  else match dueFlip s with
    | some e => some e
    | none => if h.powered then dueRefresh s else none

/-! ### Traps and waits -/

/-- A wave that takes a trap at its boundary now. -/
def dueTrap (s : State) : Option Due :=
  s.waves.findSome? fun p =>
    let v := p.2
    if v.pend.isEmpty && !v.log.head?.any (·.cause != 0) then none
    else if !atBoundary s p.1 v then none
    else if v.log.head?.any (·.cause != 0) then
      (if logStops s v && v.dues.isEmpty then some (.deferredPreciseTrap p.1) else none)
    else if (enterFirst s p.1 v v.stopPC).isSome then some (.trapEntry p.1)
    else none

/-- The parked groups that wake at the end of a fabric cycle (R52), or one of whose words is pooled and so to be read first: rank
and event. -/
def wakers (s : State) : List (Nat × Due) :=
  s.waves.flatMap fun p =>
    if p.2.groups.isEmpty || !canWake s p.2 then []
    else (numsFrom 0 p.2.groups.length).filterMap fun i => (p.2.groups[i]?).bind fun g =>
      let at' := waitRank s p.2 g.mask
      if (waitWords s p.2 g.on).any (wordPooled s (effPtroot s (waveRegion s p.2))) then some (at', .waitWake p.1 i)
      else (groupResult s p.2 g).map fun r => (at', if r.st = stTIMEOUT then .waitTimeout p.1 i else .waitWake p.1 i)

/-! ### Pages -/

/-- Whether a fill evicts no page that became resident in this core cycle: one that did stays until the accesses that wait for
it have had their turn (R56). DESIGN CHOICE (assumption log 94). -/
def keepsNew (s t : State) : Bool := s.resident.all fun p => p.2 != s.time || (fget t.resident p.1).isSome

/-- What a page that an access waits for needs: the end of its migration, or a fill. -/
def pageNeed (s : State) (rg va die : Nat) : Option Due :=
  let root := effPtroot s rg
  let fills := (fillRoom s root va die).any (keepsNew s)
  match walk s root va with
  | .leaf _ e f big =>
    if big then none
    else if pMig e then ((fget s.migs f).filter fun m => !moveWaits s f m).map fun _ => .migrationDone rg va die
    else if tablesHeld s root va || leavesHeld s f then none
    else if (pTier e = 1 ∨ (pTier e = 2 ∧ !pPin e)) ∧ !pGranted e ∧ fills then some (.pageFill rg va die)
    else none
  | _ => if isStackVA va && !tablesHeld s root va && fills then some (.pageFill rg va die) else none

/-- The pages that the next word of a wave waits for, as its last try has told. -/
def wantedPage (s : State) (w : Wave) (vas : List Nat) : Option Due :=
  vas.findSome? fun va => pageNeed s (waveRegion s w) va (waveDie s w)

/-- A list begun at another place, which changes from cycle to cycle, so that no one is served first for ever (assumption log 94). -/
def rotated {α : Type} (s : State) (l : List α) : List α :=
  let n := cycles s % max 1 l.length
  l.drop n ++ l.take n

/-- A page that the oldest log entry of a wave waits for, or a word that a parked group waits on (spec/13 R230). -/
def dueWavePage (s : State) : Option Due :=
  (rotated s s.waves).findSome? fun p =>
    if p.2.ended || p.2.saved || regionStatus s (waveRegion s p.2) == 2 then none
    else wantedPage s p.2 (logVAs s p.2 ++
      if p.2.groups.isEmpty || !canWake s p.2 then [] else p.2.groups.flatMap fun g => waitWords s p.2 g.on)

/-! ### Engines -/

/-- Whether an event brings a page. -/
def Due.isPage : Due → Bool
  | .pageFill _ _ _ | .migrationDone _ _ _ => true
  | _ => false

/-- What a chunk of an operation of class 24 does next. -/
def dueChunk (s : State) (root : DWord) (rg gid k die : Nat) (o : EngOp) (ch : Nat) : Option Due :=
  if o.isCopy then match (chunkPlan s root gid o ch).all with
    | .ok _ => some (.engineChunkLand gid k o.num ch)
    | .fail _ _ _ => some (.engineFault gid k o.num)
    | .wait va =>
      if readsPooled s root (ChunkPlan.read s root gid o ch) va then some (.engineChunkLand gid k o.num ch)
      else pageNeed s rg va die
  else if residentReach s root gid o ch (fillRefused s root die) then some (.engineChunkLand gid k o.num ch)
  else (o.pieces ch).findSome? fun p =>
    let a := ((rowAddr o.tb false p.1 p.2.1) % 2 ^ 64).toNat
    (numsFrom (a / 65536) ((a % 65536 + p.2.2 + 65535) / 65536)).findSome? fun pg => pageNeed s rg (max a (pg * 65536) % 2 ^ 64) die

/-- What an operation of class 24 does next, of the events that bring pages or of the others. -/
def dueCopy (s : State) (root : DWord) (rg gid k die : Nat) (pages : Bool) (o : EngOp) : Option Due :=
  if o.left.isEmpty then (if pages then none else some (.engineChunkLand gid k o.num 0))
  else o.left.findSome? fun ch => (dueChunk s root rg gid k die o ch).filter fun e => e.isPage == pages

/-- What the oldest operation of a matrix context does next. -/
def dueMatrix (s : State) (root : DWord) (rg gid k die : Nat) (g : Gang) (c : Ctx) (o : EngOp) : Option Due :=
  if o.fn = 7 then some (.mprogArrive gid k)
  else if o.rows ≤ c.prog then some (.matrixRowDone gid k)
  else
    let r := matrixRow s root gid g o c.prog
    match r.reach.join r.dst with
    | .ok _ => some (.matrixRowDone gid k)
    | .fail _ _ _ => some (.engineFault gid k o.num)
    | .wait va =>
      if readsPooled s root (o.indexReach s root gid c.prog) va then some (.matrixRowDone gid k) else pageNeed s rg va die

/-- What context k of a gang does next, of the events that bring pages or of the others. -/
def dueContext (s : State) (pages : Bool) (k gid : Nat) (g : Gang) : Option Due :=
  let rg := gangRegion s gid
  let root := effPtroot s rg
  let die := dieOf g.core
  (g.ctxs[k]?).bind fun c =>
    if !ctxRuns s gid c then none
    else c.ops.head?.bind fun o =>
      if o.cls = 24 then c.ops.findSome? (dueCopy s root rg gid k die pages)
      else (dueMatrix s root rg gid k die g c o).filter fun e => e.isPage == pages

/-- What the engines do next, of the events that bring pages or of the others, the contexts of all gangs in channel order (R49). -/
def dueContexts (s : State) (pages : Bool) (gs : List (Nat × Gang)) : Option Due :=
  if gs.isEmpty then none
  else (numsFrom 0 8).findSome? fun k => gs.findSome? fun p => dueContext s pages k p.1 p.2

/-- What an engine does next: chunks and rows land before any wave issues in a core cycle (R49), and then pages are brought. -/
def dueEngine (s : State) : Option Due :=
  if !s.issued.isEmpty then none
  else
    let gs := s.gangs.filter fun p => !p.2.idle
    match dueContexts s false gs with
    | some e => some e
    | none => dueContexts s true (rotated s gs)

/-! ### Objects, flushes, checkpoints, migration -/

/-- What is due on a segment. -/
def dueSegment (s : State) : Option Due :=
  s.segments.findSome? fun p =>
    if p.2.gone then none
    else match (numsFrom 0 p.2.blocks.length).find? fun i => (p.2.blocks[i]?).any fun b => !b.landed && !blockWaits s p.2 b with
      | some i => some (.commitTailAdvance p.1 i)
      | none =>
        if p.2.commit ≠ p.2.frozenAt ∨ p.2.status = 0 then none
        else if p.2.status = 2 then (if p.2.remotes.isEmpty && !freeWaits s p.2 then some (.afreeDone p.1) else none)
        else if p.2.sealDone then none
        else some (.asealDone p.1)

/-- A grant that its port's home has accepted and that has not passed its grant point: what brings its pages, and then the grant point
itself (spec/19 R334 stage 2). -/
def dueGrant (s : State) : Option Due :=
  s.sends.findSome? fun p =>
    if !p.2.accepted || p.2.reply.isSome || regionStatus s p.2.region == 2 then none
    else match grantPages s (effPtroot s p.2.region) p.2.va.toNat p.2.pages with
      | .wait => (numsFrom 0 p.2.pages).findSome? fun i => pageNeed s p.2.region (p.2.va.toNat + 65536 * i) 0
      | _ => some (.grantPoint p.1)

/-- What the Cistern does next in the background. -/
def dueCistern (s : State) : Option Due :=
  match s.flushes.head? with
  | some p => some (.flushDone p.1)
  | none =>
    match s.migs.find? fun p => !moveWaits s p.1 p.2 with
    | some (_, m) => some (.migrationDone (((rootOwner s m.root).map Prod.fst).getD 0) m.va m.die)
    | none => match s.regions.findSome? fun p => p.2.ckRun.map fun run => match run.pend with
        | [] => Due.checkpointImageDone p.1
        | page :: _ => .checkpointPageCopy p.1 page with
      | some e => some e
      | none => dueGrant s

/-! ### Placement and monitors -/

/-- What scheduling does next (spec/21 R355-R361). -/
def duePlacement (s : State) : Option Due :=
  if !s.host.powered then none
  else match s.cohorts.find? fun p => p.2.resident && !p.2.started && !p.2.ended && regionStatus s p.2.region != 2 &&
      (startCohort s p.1 p.2).isSome with
    | some p => some (.cohortStart p.1)
    | none => match s.clusters.find? fun p => p.2.run && p.2.started with
      | some p => some (.placement p.1)
      | none =>
        let aged := if s.ranges.any (fun p => decide (s.agelimit ≤ p.2.age)) ||
            s.cohorts.any (fun p => decide (s.agelimit ≤ p.2.age)) then
            (waitingUnits s).find? fun u => !unitAgedFlag s u && decide (s.agelimit ≤ unitAge s u) else none
        match aged with
        | some u => some (.unitAged u.1 u.2)
        | none =>
          let cores := s.clusters.flatMap fun p => if p.2.head.isSome then p.2.reserved else []
          (s.gangs.find? fun p => cores.contains p.2.core && !p.2.ended && !p.2.preempted && gangResident s p.2 &&
            decide (p.2.runStart + 5 * s.quantum ≤ s.time)).map fun p => .quantumExpiry p.1

/-- What the monitors find (spec/23 R375, R382, R383, R386). -/
def dueMonitor (s : State) : Option Due :=
  match s.cohorts.find? fun p => p.2.preempted && p.2.resident && !p.2.ended && regionStatus s p.2.region != 2 &&
      decide (p.2.raisedAt + 480000 < s.time) && p.2.gangs.any fun g => match fget s.gangs g with
        | some x => x.mask != 0 && !x.released && !x.ended
        | none => false with
  | some p => some (.saveDrainOverrun p.1)
  | none => s.regions.findSome? fun p =>
    if p.2.discarding && p.2.status == 2 && !landsStill s (subtree s p.1) then some (.discardRelease p.1)
    else if p.2.status ≠ 2 ∧ !p.2.deadRaised ∧ 2 ^ 20 ≤ p.2.deadFor ∧ deadlocked s p.1 then some (.deadlockDetect p.1)
    else if p.2.status = 0 ∧ 2 ^ 26 ≤ p.2.progress then some (.progressStall p.1)
    else none

/-- A peer that has been silent too long (spec/19 R340). -/
def duePeer (s : State) : Option Due :=
  (s.peers.find? fun p => p.1 != s.host.module && peerSilent s p.1).map fun p => .peerDead p.1 false

/-! ### Packets -/

/-- The row of a packet about to be accepted. -/
def packetRow (q : Nat) (bs : List (BitVec 8)) : Due :=
  if !packetValid bs then .badpkt q
  else match pktWord bs 0 % 256, pktWord bs 1 with
    | 0, _ => .pktNop q
    | 1, _ => .launch q
    | 2, _ => .signal q
    | 3, _ => .waitsig q
    | 4, _ => .copy q
    | 5, 0 => .regionCreate q
    | 5, 1 => .regionSet q
    | 5, _ => .regionDiscard q
    | 6, _ => .ckpt q
    | _, _ => .restore q

/-- Whether the line of a place is pooled. -/
def linePooled (s : State) : Loc → Bool
  | .phys pa => (fget s.pool (pa / 128)).isSome
  | .spad _ _ => false

/-- What the Spinels do next: a packet under way, or the next acceptance. -/
def duePacket (s : State) : Option Due :=
  let busy := s.host.packets.findSome? fun p =>
    let x := p.2
    let need := fun (r : EngReach) (e : Option Due) => match r with
      | .wait va => pageNeed s x.region va 0
      | _ => e
    match x.type with
    | 3 =>
      let r := packetReach s x.region x.a 8 .read
      need r (match r with
        | .ok pl =>
          if x.b ≤ leNat (pl.locs.map (locView s)) ∨ pl.locs.any (linePooled s) then some (.waitsigSatisfied p.1) else none
        | _ => some (.waitsigSatisfied p.1))
    | 4 =>
      let n := min 4096 (x.c - 4096 * x.moved)
      need ((packetReach s x.region (x.b + 4096 * x.moved) n .read).join
        (packetReach s x.region (x.a + 4096 * x.moved) n .write)) (some (.packetCopyDone p.1))
    | 7 => if restoreHolds s x then none else some (.restoreDone p.1)
    | _ => none
  match busy with
  | some e => some e
  | none =>
    if s.host.queues.isEmpty then none
    else (numsFrom 0 6).findSome? fun sp => (spinelNext s sp).bind fun q => (nextPacket s q).map (packetRow q)

/-- The event due now. -/
def dueEvent (s : State) : Option Due :=
  [dueModule, dueTrap, dueWavePage, dueEngine, dueSegment, dueCistern, duePlacement, dueMonitor,
    duePeer, duePacket].findSome? fun f => f s

end Sys2Proof.Machine
end

