-- ==== Sys2Proof/Machine/Fetch.lean ====
section
/-! DEFINITION. Instruction fetch and the choice of the wave that issues (spec/03 R37, R43; spec/11 R171, R197). -/

namespace Sys2Proof.Machine

open Sys2Proof

/-! ### Fetch (R171) -/

/-- How a fetch ends. -/
inductive FetchEnd where
  /-- with a word, its translation noted as cached -/
  | word (x : Word) (s : State)
  /-- with a trap -/
  | trap (s : State)
  /-- the wave waits, for pages of some addresses where it waits for any -/
  | wait (vas : List Nat)

/-- The address of a wave's next word: its issue PC, or further on in the chain it is in. -/
def Wave.fetchPC (w : Wave) : Option (DWord × DWord) :=
  w.front.map fun f => (f.1, f.1 + BitVec.ofNat 64 (4 * f.2.2.length))

/-- A fetch trap: SR.TPC is the chain's first word, SR.TADDR the word fetched, INFO[6] is 1 (R188), and no PC has changed. While the operand
log holds entries it waits (R197). -/
def fetchTrap (s : State) (wid : Nat) (w : Wave) (pc x : DWord) (cause : Nat) : FetchEnd :=
  if w.priv == .u && !w.log.isEmpty then .wait [] else .trap (takeTrap s wid ⟨cause, 64, pc, pc, x, false⟩)

/-- The place of a gang's fetches from a VA among those noted. -/
def fetchKey (gang va : Nat) : Nat := gang * 2 ^ 64 + va

/-- The word a VA mapped to a physical address held when the range of a gang was accepted, where it was mapped there
then. -/
def acceptedWord (s : State) (gang va pa : Nat) (root : DWord) : Option Word :=
  (fget s.gangs gang).bind fun g => (fget s.cohorts g.cohort).bind fun c => (fget s.ranges c.range).bind fun r =>
    let t := { s with mem := r.code, hostL2 := [], hostLines := [], pool := [] }
    match walk t root va with
    | .leaf _ _ f _ =>
      if f * 65536 + va % 65536 = pa then some (BitVec.ofNat 32 (leNat ((numsFrom pa 4).map (viewByte t)))) else none
    | _ => none

/-- The word a fetch of a gang returns from a VA mapped to a physical address: what memory holds there, or, where a store
has changed the word since the gang last fetched it or since its range was accepted, a word held before (R113; assumption
log 20). -/
def wordAt (s : State) (gang va pa : Nat) (root : DWord) : Word :=
  let now := BitVec.ofNat 32 (leNat ((numsFrom pa 4).map (viewByte s)))
  match fget s.fetched (fetchKey gang va) with
  | some (p, old) => if p = pa ∧ Config.fetchesOld s.fresh va = 1 then old else now
  | none => match acceptedWord s gang va pa root with
    | some old => if 1 < Config.fetchesOld s.fresh va then old else now
    | none => now

/-- Notes the word that a gang fetched from a VA. -/
def noteFetch (s : State) (gang va pa : Nat) (x : Word) : State :=
  { s with fetched := fset s.fetched (fetchKey gang va) (pa, x) }

/-- Fetches the next word of a wave. -/
def fetchWord (s : State) (wid : Nat) (w : Wave) : FetchEnd :=
  match w.fetchPC with
  | none => .wait []
  | some (pc, x) =>
    let root := effPtroot s (waveRegion s w)
    if 0xFFFF800000000000 ≤ x.toNat then fetchTrap s wid w pc x cAPERTURE
    else match translate s root x.toNat 4 .fetch ⟨waveDie s w, 0⟩ with
      | .ok pa _ e =>
        let word := wordAt s w.gang x.toNat pa root
        .word word (noteFetch (fillTlb s root x.toNat e) w.gang x.toNat pa word)
      | .fail c => fetchTrap (settleWalk s root x.toNat) wid w pc x c
      | _ => .wait [x.toNat]

/-! ### The choice among waves (R43) -/

/-- The place of a wave in the order of issue: quadrants ascending (spec/09 R133), and in each higher PRIO first, then
longer ready (R43). -/
def issueKey (s : State) (w : Wave) : Nat :=
  (quadrantOf s w * 8 + (7 - effPrio s (waveRegion s w))) * 2 ^ 128 + w.ready

/-- Puts a wave into a list ordered by key, after its equals. -/
def insertByKey (k w : Nat) : List (Nat × Nat) → List (Nat × Nat)
  | [] => [(k, w)]
  | (k', w') :: t => if k < k' then (k, w) :: (k', w') :: t else (k', w') :: insertByKey k w t

/-- Whether a wave stands ready as far as its own state tells (R37, R43). -/
def standsReady (s : State) (wid : Nat) (w : Wave) : Bool :=
  !w.ended && mayIssue s wid w && w.front.isSome && !w.queued

/-- The waves that may issue in this cycle, in the order in which they are tried: each quadrant issues once, and quadrants in
ascending order (spec/09 R133). -/
def readyWaves (s : State) : List Nat :=
  (s.waves.foldl (fun l p =>
    if standsReady s p.1 p.2 && s.issued.all (fun q => decide (q < quadrantOf s p.2)) then insertByKey (issueKey s p.2) p.1 l else l)
    []).map Prod.snd

/-- Whether an issue went through: the wave has moved on, or has left something under way. -/
def moved (s t : State) (wid : Nat) : Bool :=
  match getWave s wid, getWave t wid with
  | some v, some w =>
    v.ready != w.ready || v.priv != w.priv || v.chain != w.chain || v.ended != w.ended || s.serial != t.serial ||
      regionStatus s (waveRegion s v) != regionStatus t (waveRegion t w)
  | _, _ => true

/-- One wave fetches a word and issues it. -/
def issueWave (s : State) (wid : Nat) : Host.Outcome State Fault Refusal :=
  match getWave s wid with
  | none => .next s
  | some w => match fetchWord s wid w with
    | .word x t => runWord x { t with cur := some wid }
    | .trap t => .next t
    | .wait vas => .next { s with wants := vas }

/-- The quadrant of a wave has issued in this cycle. -/
def markIssued (s t : State) (wid : Nat) : State :=
  match getWave s wid with
  | some w => { t with issued := quadrantOf s w :: t.issued }
  | none => t

/-- The walks of the pages that the next word of a wave waits for have been read (spec/17 R304). -/
def settleWants (s : State) (w : Wave) (vas : List Nat) : State :=
  if s.pool.isEmpty then s else vas.foldl (fun s va => settleWalk s (effPtroot s (waveRegion s w)) va) s

/-- What happens at the turn of a wave: its issue where that goes through; else the lines of its walks merge, and what brings a page
that the issue waits for. -/
def waveTurn (s : State) (wid : Nat) : Option (Host.Outcome State Fault Refusal) :=
  match issueWave s wid with
  | .next t =>
    if moved s t wid then some (.next (markIssued s t wid))
    else (getWave s wid).bind fun w =>
      let u := settleWants s w t.wants
      if u.pool.length ≠ s.pool.length then some (.next u) else (wantedPage s w t.wants).map fun e => runDue e s
  | o => some o

/-- How many events of a region are pending. -/
def eventCount (s : State) (r : Nat) : Nat := ((fget s.regions r).map fun g => g.events.length).getD 0

/-- The state in which no group is parked, but those that a return from a trap re-evaluates. -/
def unparked (s : State) (wid : Nat) : State :=
  { s with waves := fmapv (fun k w => if k = wid ∧ w.priv = .s then w else { w with groups := [] }) s.waves }

/-- Whether the next instruction of a wave is about to return on a region event, were it the only wait: several may be so in one fabric
cycle, and which of them takes the event is decided at its end (R55). -/
def contends (s : State) (wid : Nat) : Bool :=
  (getWave s wid).any fun w =>
    let n := eventCount s (waveRegion s w)
    n != 0 && (match issueWave (unparked s wid) wid with
      | .next t => decide (eventCount t (waveRegion s w) < n)
      | _ => false)

/-- The quadrant of a wave by its number. -/
def quadrantAt (s : State) (wid : Nat) : Nat := ((getWave s wid).map (quadrantOf s)).getD 0

/-- The first of some waves at whose turn something happens. One that is to return on a region event leaves its turn, and its quadrant
issues nothing else in this cycle, until the fabric cycle ends (R55). -/
def issueFirst (s : State) (kept : List Nat) : List Nat → Option (Host.Outcome State Fault Refusal)
  | [] => none
  | w :: rest =>
    if kept.contains (quadrantAt s w) then issueFirst s kept rest
    else if contends s w then issueFirst s (quadrantAt s w :: kept) rest
    else match waveTurn s w with
      | some o => some o
      | none => issueFirst s kept rest

/-! ### The end of a fabric cycle (R52, R55) -/

/-- A turn at the end of a fabric cycle: a parked group wakes, or a wait issues that returns on a region event. -/
inductive Turn where
  | wake (e : Due)
  | issue (wid : Nat)
  deriving DecidableEq, Repr

/-- Whether this core cycle is the last that begins in its fabric cycle (spec/01 R15). -/
def lastCycle (s : State) : Bool := decide (fabricCycle s.time < fabricCycle (s.time + 5))

/-- The mark among the quadrants that have issued that nothing but the turns of the fabric cycle's end is left of this cycle. -/
def fabricEnd : Nat := 2 ^ 32

/-- The first wave of each quadrant. -/
def firstOfQuadrants (s : State) (seen : List Nat) : List Nat → List Nat
  | [] => []
  | w :: rest =>
    if seen.contains (quadrantAt s w) then firstOfQuadrants s seen rest
    else w :: firstOfQuadrants s (quadrantAt s w :: seen) rest

/-- The waves whose next instruction is about to return on a region event: rank and turn, one wave of each quadrant that has not
issued. -/
def waitTurns (s : State) : List (Nat × Turn) :=
  if s.regions.all fun p => p.2.events.isEmpty then []
  else
    let l := s.waves.foldl (fun l p =>
      if standsReady s p.1 p.2 && !s.issued.contains (quadrantOf s p.2) && contends s p.1 then insertByKey (issueKey s p.2) p.1 l
      else l) []
    (firstOfQuadrants s [] (l.map Prod.snd)).filterMap fun wid => (getWave s wid).bind fun w => w.front.map fun f =>
      (waitRank s w f.2.1, .issue wid)

/-- The first turn of the end of a fabric cycle, in the order of R55. -/
def lastTurn (s : State) : Option Turn :=
  if lastCycle s then
    (minBy Prod.fst ((wakers s).map (fun x => (x.1, Turn.wake x.2)) ++ waitTurns s)).map Prod.snd
  else none

/-- What happens at a turn of the end of a fabric cycle. -/
def runTurn (t : Turn) (s : State) : Host.Outcome State Fault Refusal :=
  let ends := fun (o : Host.Outcome State Fault Refusal) => match o with
    | .next t => .next { t with issued := fabricEnd :: t.issued }
    | o => o
  match t with
  | .wake e => ends (runDue e s)
  | .issue wid => ends (match issueWave s wid with
    | .next t => .next (markIssued s t wid)
    | o => o)

/-- What a step adds around an event or an issue: a fresh number, no current wave, the gang's issue slot counted (spec/21
R366), the lines of host memory that L2 gives up (spec/17 R300), and the members of parked groups that have fired (spec/03 R52). -/
def closeStep : Host.Outcome State Fault Refusal → Host.Outcome State Fault Refusal
  | .next t =>
    let u := match t.cur with
      | some w => match getWave t w with
        | some v => modGang t v.gang fun g => { g with work := g.work + 1 }
        | none => t
      | none => t
    .next (noteMembers { evictLines u with cur := none, fresh := t.fresh + 1, wants := [] })
  | o => o

/-- Whether a wave could issue now, but for its quadrant's one issue in a cycle; and where not, the addresses for which it waits. -/
def tryIssue (s : State) (wid : Nat) (w : Wave) : Bool × List Nat :=
  if !standsReady s wid w then (false, [])
  else match issueWave s wid with
    | .next t => if moved s t wid then (true, []) else (false, t.wants)
    | _ => (true, [])

/-- The end of a core cycle (spec/01 R15), when no quadrant has anything more to issue: a wave that could not issue in it
turns ready in a later one (R43), and the time of a cycle passes. -/
def endCycle (s : State) : State :=
  elapse { s with
    issued := []
    waves := fmapv (fun k w =>
      if w.ended then w
      else
        let x := tryIssue s k w
        { w with ready := if x.1 then w.ready else s.time + 5, wants := x.2 }) s.waves } 5

/-! ### Placing one instruction (assumption log 18) -/

/-- Where the next word is fetched, when a wave is about to fetch it. -/
def fetchPlace (s : State) : Option Nat :=
  if !s.agenda.isEmpty || (dueEvent s).isSome || s.regions.any (fun p => !p.2.events.isEmpty) then none
  else (readyWaves s).head?.bind fun wid => (getWave s wid).bind fun w => w.fetchPC.bind fun x =>
    match translate s (effPtroot s (waveRegion s w)) x.2.toNat 4 .fetch ⟨waveDie s w, 0⟩ with
    | .ok pa _ _ => some pa
    | _ => none

/-- Bytes of a table that maps one entry: its address and the entry. -/
def tableBytes (m : List Host.Cell) (a e : Nat) : List Host.Cell := setBytes m a (leBytes 8 e)

/-- The memory of a loaded program: four tables that map VA 0x10000 to one page, and the word there. -/
def loadedMem (m : List Host.Cell) (x : Nat) : List Host.Cell :=
  let t1 := tableBytes m 0x50000000 (1 + 0x5001 * 2 ^ 22)
  let t2 := tableBytes t1 0x50010000 (1 + 0x5002 * 2 ^ 22)
  let t3 := tableBytes t2 0x50020000 (1 + 0x5003 * 2 ^ 22)
  let t4 := tableBytes t3 0x50030008 (15 + 0x5004 * 2 ^ 22)
  setBytes t4 0x50040000 (leBytes 4 x)

/-- A started cluster with nothing due. -/
def quietCluster : Cluster := ⟨true, false, false, none, [], []⟩

/-- The cohort of a loaded program. -/
def loadedCohort : Cohort where
  range := 9
  lo := 0
  hi := 1
  region := 1
  cluster := 0
  gangs := [3]
  resident := true
  saved := false
  preempted := false
  raisedAt := 0
  entered := false
  age := 0
  aged := false
  started := true
  ended := false

/-- Its gang, on core 0. -/
def loadedGang (now : Nat) : Gang where
  cohort := 2
  gidx := 0
  index := 3
  regg := 1
  spadg := 1
  accg := 0
  core := 0
  spad := []
  acc := []
  ctxs := List.replicate 8 emptyCtx
  eflags := 0
  posted := (0, 0)
  slots := []
  csa := false
  mask := 0
  preempted := false
  restoring := false
  replayed := false
  returned := []
  released := false
  runStart := now
  work := 0
  ended := false

/-- Its wave: GENERAL, with every register, at VA 0x10000. -/
def loadedWave (now : Nat) : Wave :=
  { startWave 3 0 3 128 128 32 now 0x10000 [] with slot := 0 }

/-- The root region as a loaded program finds it: with a trap vector in the program's page. -/
def loadedRegion : Region :=
  { rootRegion 0x50000000 0x0019010000000001 with trapvec := 0x10100, cSram := 2 }

/-- A module booted, with one wave about to fetch the word. -/
def loadWord (s : State) (x : Nat) : State :=
  { s with
    agenda := []
    cur := none
    serial := max s.serial 16
    issued := []
    mem := loadedMem s.mem x
    flushes := []
    tlb := []
    fetched := []
    migs := []
    peers := []
    regions := [(1, loadedRegion)]
    ranges := []
    cohorts := [(2, loadedCohort)]
    gangs := [(3, loadedGang s.time)]
    waves := [(4, loadedWave s.time)]
    entries := [(1, ⟨1, 1, 25, 1, 0, 0⟩), (3, ⟨3, 3, 9, 1, 0, 0⟩), (4, ⟨2, 4, 25, 1, 0, 0⟩)]
    segments := []
    clusters := [(0, quietCluster)]
    host := { s.host with
      resetAt := s.time, bootstate := 3, everReady := true, powered := true, trip := false, windows := s.time / millisecond, flip := none
      migResult := 0, mig := none, queues := [], packets := [], hotSince := none, dryAt := none, tripAt := none, tjmax := 0 } }

end Sys2Proof.Machine
end

