-- ==== Sys2Proof/Machine/Step.lean ====
section
/-! DEFINITION. One step of the module: the agenda's event when its time has come, else the event that is due, else the
issue of one word by one wave of a quadrant that has not issued in this cycle, else a turn of the end of the fabric cycle, else the
end of the cycle (assumption log 1). -/

namespace Sys2Proof.Machine

open Sys2Proof

/-- The end of a core cycle: the turns of the end of a fabric cycle, and then the time passes. -/
def stepLast (s : State) : Host.Outcome State Fault Refusal :=
  match lastTurn s with
  | some t => closeStep (runTurn t s)
  | none => closeStep (.next (endCycle s))

/-- A step without an event of the agenda. -/
def stepAlone (s : State) : Host.Outcome State Fault Refusal :=
  if s.issued.contains fabricEnd then stepLast s
  else match dueEvent s with
    | some e => closeStep (runDue e s)
    | none => match issueFirst s [] (readyWaves s) with
      | some o => closeStep o
      | none => stepLast s

/-- One step. -/
def step (s : State) : Host.Outcome State Fault Refusal :=
  match s.agenda with
  | (0, e) :: rest => closeStep (exec e { s with agenda := rest })
  | _ => stepAlone s

/-- The state in which the next step fetches and runs the instruction whose bits, above `nbits` zero, are `w`: stored
where a wave is about to fetch, else in a module loaded with one wave (assumption log 18). -/
def State.withFetchWord (s : State) (nbits w : Nat) : State :=
  let x := w % 2 ^ nbits % 2 ^ 32
  match fetchPlace s with
  | some pa => { s with mem := setBytes s.mem pa (leBytes 4 x), fetched := [] }
  | none => loadWord s x

end Sys2Proof.Machine
end

