-- ==== Sys2Proof/Safety.lean ====
section
/-! DEFINITION. The terms in which claims are stated: a wave about to issue, what its word sees, how an issue completes,
and the properties that every step keeps. -/

namespace Sys2Proof.Machine

open Sys2Proof

/-! ### A wave about to issue -/

/-- Wave `wid` is the current one and stands at a word: the chain's address, its lanes and its prefix words so far. It may
issue (spec/03 R37, R43), no wexit waits to end it at its next boundary (spec/13 R241), and not all of its lanes have
exited (spec/03 R40). -/
structure Stands (s : State) (wid : Nat) (w : Wave) (pc : DWord) (iss : Word) (ws : List Word) : Prop where
  cur : s.cur = some wid
  here : getWave s wid = some w
  front : w.front = some (pc, iss, ws)
  may : mayIssue s wid w = true
  staying : w.endReq = false
  alive : (laneIdx.all fun l => w.lane l == .exited) = false

/-- The rounding mode a word samples: the XOP override, else SR.MODE.RM (spec/07 R84). -/
def samples (w : Wave) (ws : List Word) : Nat :=
  w.sampledRm (if plBit ((prefixOf ws 1).getD 0) 9 then some ((prefixOf ws 1).getD 0 / 64 % 8) else none)

/-- The word passes the checks of Table 7.5 for the registers and forms it names, and neither a reserved register nor an
operand log that holds entries keeps it back (spec/11 R193, R197). -/
structure Passes (w : Wave) (i : OpInfo) (ws : List Word) : Prop where
  free : w.reserved (i.rs ++ i.ws) = false
  open' : (w.priv == .u && !w.log.isEmpty && decide (24 ≤ i.cls ∧ i.cls ≤ 28)) = false
  checks : issueCheck w i ws (samples w ws) = none

/-- Whether the word increments SR.ISEQ (spec/05 R74). -/
def bumps (w : Wave) (i : OpInfo) (ws : List Word) : Bool := (i.rounds || i.roundsLate) && samples w ws == 5

/-- What the effect of a word sees. -/
def sees (wid : Nat) (w : Wave) (pc : DWord) (iss : Word) (ws : List Word) (i : OpInfo) : Env where
  wid := wid
  w := w
  pc := pc
  wpc := pc + BitVec.ofNat 64 (4 * ws.length)
  next := pc + BitVec.ofNat 64 (4 * ws.length) + 4
  iss := iss
  e := if i.guard then iss &&& w.guardMask i.g ws else iss
  rm := samples w ws
  ftz := w.ftz
  sat := if plBit ((prefixOf ws 1).getD 0) 10 then 1 else 0
  seq := w.iseq.toNat + (if bumps w i ws then 1 else 0)
  ximm := prefixOf ws 0
  xop := (prefixOf ws 1).getD 0
  pfx := ws

/-! ### How an issue completes -/

/-- The wave once a word has been issued: its dead marks taken, the issuing lanes at their next addresses, the chain
closed and SR.ISEQ counted (spec/03 R38, spec/05 R74, spec/07 R111). -/
def closing (i : OpInfo) (v : Env) (marks : Bool) (pcs : Nat → DWord) (u : Wave) : Wave :=
  let x := if marks then u.hintMarks i (if i.every then v.iss else v.e) v.pfx else u
  { x.advance v.iss pcs with iseq := if bumps v.w i v.pfx then BitVec.ofNat 64 v.seq else x.iseq }

/-- The state after a word that changed its wave by `f` and sent its issuing lanes to `pcs`: the wave is ready afresh
(spec/03 R43), and its region has progressed (spec/23 R383). Nothing else changes. -/
def leaves (s : State) (i : OpInfo) (v : Env) (pcs : Nat → DWord) (f : Wave → Wave) : State :=
  modRegion (setWave s v.wid { closing i v true pcs (f v.w) with ready := s.time + 5 }) (waveRegion s v.w) fun g =>
    { g with progress := 0, deadRaised := g.deadRaised && v.w.priv == .s }

/-- The state after a word that changed its wave by `f` and went on to the next word. -/
def completed (s : State) (i : OpInfo) (v : Env) (f : Wave → Wave) : State := leaves s i v (fun _ => v.next) f

/-- The state after a word whose effect reached `t`, which may have changed more than the wave. -/
def completedIn (t : State) (i : OpInfo) (v : Env) : State :=
  settleIssue t v.wid (closing i v true fun _ => v.next)

/-- The same where the word sent its lanes to the addresses given. -/
def jumped (t : State) (i : OpInfo) (v : Env) (pcs : Nat → DWord) : State :=
  settleIssue t v.wid (closing i v true pcs)

/-! ### Shapes of claims about one instruction -/

/-- Wherever a wave stands at the word and the word passes its checks, the instruction answers the next state that `t`
gives. -/
def Does (i : Instr) (info : Wave → List Word → OpInfo) (t : Env → State → State) : Prop :=
  ∀ s wid w pc iss ws, Stands s wid w pc iss ws → Passes w (info w ws) ws →
    exec i s = .next (t (sees wid w pc iss ws (info w ws)) s)

/-- The same, in the states and operands that `c` admits. -/
def DoesWhen (i : Instr) (info : Wave → List Word → OpInfo) (c : Env → State → Prop) (t : Env → State → State) : Prop :=
  ∀ s wid w pc iss ws, Stands s wid w pc iss ws → Passes w (info w ws) ws → c (sees wid w pc iss ws (info w ws)) s →
    exec i s = .next (t (sees wid w pc iss ws (info w ws)) s)

/-- The instruction changes its wave as `f` says, goes on to the next word, and changes nothing else. -/
def Writes (i : Instr) (info : Wave → List Word → OpInfo) (f : Env → Wave → Wave) : Prop :=
  Does i info fun v s => completed s (info v.w v.pfx) v (f v)

/-- The flags that the active lanes raise. -/
def lanesRaise (v : Env) (r : Nat → Nat × Word) : Word := flagUnion ((lanesOf v.e).map fun l => (r l).2)

/-- A floating-point member with results `r` for its lanes (spec/05 R91): when no flag raised is enabled, the results are
written by `put` and the flags are set; otherwise the flags are set, nothing is written, and FPX is taken with the
flags in INFO and the lanes that raised them in SR.TADDR. -/
def Rounds (i : Instr) (info : Wave → List Word → OpInfo) (r : Env → Nat → Nat × Word)
    (put : Env → (Nat → Nat) → Wave → Wave) : Prop :=
  Does i info fun v s =>
    let fl := lanesRaise v (r v)
    let x := v.w.fpx fl
    if x = 0 then completed s (info v.w v.pfx) v fun u => put v (fun l => (r v l).1) (u.orFlags fl)
    else takeTrap (modWave s v.wid fun u => u.orFlags fl) v.wid ⟨cFPX, x.toNat, v.pc, v.pc,
      BitVec.ofNat 64 (maskOf fun l => bitAt v.e l && (r v l).2 &&& x != 0).toNat, false⟩

/-- A floating-point member with one result, such as a scalar one; SR.TADDR takes the mask `m`. -/
def RoundsOnce (i : Instr) (info : Wave → List Word → OpInfo) (r : Env → Nat × Word) (m : Env → Word)
    (put : Env → Nat → Wave → Wave) : Prop :=
  Does i info fun v s =>
    let x := v.w.fpx (r v).2
    if x = 0 then completed s (info v.w v.pfx) v fun u => put v (r v).1 (u.orFlags (r v).2)
    else takeTrap (modWave s v.wid fun u => u.orFlags (r v).2) v.wid ⟨cFPX, x.toNat, v.pc, v.pc,
      BitVec.ofNat 64 (m v).toNat, false⟩

/-- The number that a finite value is (spec/05 R75). -/
def XVal.rat : XVal → ℚ
  | .fin n m e _ => (if n then -1 else 1) * (m : ℚ) * (2 : ℚ) ^ e
  | _ => 0

/-- A wave as trap entry leaves it (spec/23 Table 23.2): in S mode with every lane live at the trap vector, its U-mode
lanes and addresses held, and the trap registers as the cause gives them. -/
def Wave.trapped (u : Wave) (vec : DWord) (cause info : Nat) (tpc tresume taddr : DWord) (tlog : Nat) : Wave :=
  { u with
    priv := .s, held := ⟨u.pcs, u.lanes⟩, pcs := splat vec, lanes := splat .live, chain := none
    tcause := BitVec.ofNat 32 (info % 256 * 256 + cause % 256), tpc := tpc, tresume := tresume, taddr := taddr
    tlog := BitVec.ofNat 32 tlog }

/-- What `o` answers where a wave that has become `u` enters PREEMPT (spec/23 R377 to R379): its gang's contexts stop and the
context save area is mapped at the gang's first entry; the first entry of the cohort begins its age as a waiting unit
(spec/21 R358); the wave stands in S mode with SR.TADDR at the area's base, and the device's items are written. Where a
page that this takes cannot be had, the state stays `stays`. -/
def EntersPreempt (s stays : State) (wid : Nat) (u : Wave) (rg : Nat) (tpc tresume : DWord)
    (o : Host.Outcome State Fault Refusal) : Prop :=
  ∀ g, fget s.gangs u.gang = some g → effTrapvec s rg ≠ 0 →
    let base := csaBase g.index
    let root := effPtroot s rg
    let halted := modGang (setWave s wid u) u.gang fun x => { x with
      ctxs := x.ctxs.map fun c => { c with halted := true } }
    let mapped := if g.csa then some halted else mapCsa halted root rg g
    (mapped = none → o = .next stays) ∧
    (∀ t, mapped = some t → getWave t wid = some u → waveRegion t u = rg → effTrapvec t rg = effTrapvec s rg →
      let e := u.trapped (effTrapvec s rg) cPREEMPT 0 tpc tresume (BitVec.ofNat 64 base) (min u.log.length 4)
      let t := modCohort (modGang (setWave t wid e) u.gang fun x => { x with csa := true }) g.cohort fun k =>
        if k.entered then k else { k with entered := true, age := 0, aged := false }
      (writeDeviceItems t root (dieOf g.core) base e = none → o = .next stays) ∧
      (∀ y, writeDeviceItems t root (dieOf g.core) base e = some y →
        o = .next (modWave (askedBy y rg) wid fun u => { u with inSave := true })))

/-! ### Memory instructions (spec/11) -/

/-- The words of the MV format: constructor, class, code and what each does (Tables 11.5 to 11.8). -/
def vectorMemory : List ((BitVec 3 → BitVec 7 → BitVec 7 → BitVec 5 → Instr) × Nat × Nat × MemOp) :=
  [(.ldN8, 18, 0, .load 1 false), (.ldI8, 18, 1, .load 1 true), (.ldN16, 18, 2, .load 2 false),
   (.ldI16, 18, 3, .load 2 true), (.ldB32, 18, 4, .load 4 false), (.ldB64, 18, 5, .load 8 false),
   (.ldB128, 18, 6, .load 16 false),
   (.stB8, 19, 0, .store 1), (.stB16, 19, 1, .store 2), (.stB32, 19, 2, .store 4), (.stB64, 19, 3, .store 8),
   (.stB128, 19, 4, .store 16)] ++
  [(.aaddI32, 20, 0, .atom (.add 4)), (.aaddI64, 20, 1, .atom (.add 8)), (.aaddF32, 20, 2, .atom .fadd),
   (.aminI32, 20, 3, .atom .smin), (.amaxI32, 20, 4, .atom .smax), (.aminN32, 20, 5, .atom .umin),
   (.amaxN32, 20, 6, .atom .umax), (.aminF32, 20, 7, .atom .fmin), (.amaxF32, 20, 8, .atom .fmax),
   (.aand, 20, 9, .atom .and), (.aor, 20, 10, .atom .or), (.axor, 20, 11, .atom .xor),
   (.axchgB32, 20, 12, .atom (.xchg 4)), (.axchgB64, 20, 13, .atom (.xchg 8)), (.acasB32, 20, 14, .atom (.cas 4)),
   (.acasB64, 20, 15, .atom (.cas 8))] ++
  [(.vpoolB32, 21, 0, .pool 4), (.vpoolB64, 21, 1, .pool 8),
   (.aappB32, 23, 0, .append 4), (.aappB128, 23, 1, .append 16), (.aappl, 23, 2, .appendLen)]

/-- The words of the MS format but sprefetch: constructor, code and what each does (Table 11.7). -/
def scalarMemory : List ((BitVec 7 → BitVec 5 → BitVec 12 → Instr) × Nat × MemOp) :=
  [(.sldB32, 0, .sload 4), (.sldB64, 1, .sload 8), (.sstB32, 2, .sstore 4), (.sstB64, 3, .sstore 8),
   (.saaddB64, 4, .satom (.add 8)), (.scasB64, 5, .satom (.cas 8)), (.slduB32, 7, .sload 4)]

/-- The translation root of a wave. -/
def rootOf (s : State) (w : Wave) : DWord := effPtroot s (waveRegion s w)

/-- A memory instruction may go on to its accesses: in U mode its log is empty, and a store finds room to be counted
(spec/11 R196, R201). -/
def mayAccess (s : State) (v : Env) (op : MemOp) : Prop :=
  (v.w.priv = .s ∨ v.w.log = []) ∧ (op.isStore = true → storeCount s v.wid v.w < 31)

/-- Its checks pass and every lane is reached, at the places `ps` (Table 11.4, spec/11 R195). -/
def reaches (s : State) (v : Env) (e : LogEntry) (op : MemOp) (d : Nat) (ps : List (Nat × Place)) : Prop :=
  mayAccess s v op ∧ memCheck s v.w e op d = none ∧ reachAll s v.w (rootOf s v.w) e op = .ok ps

/-- A line that is neither pooled, nor held modified by the host, nor host memory. -/
def plainLine (s : State) (pa : Nat) : Prop :=
  fget s.pool (pa / 128) = none ∧ fget s.hostLines (pa / 128) = none ∧ isHostPA pa = false

/-- An address of the device whose line the host does not hold modified; the line may be pooled. -/
def deviceLine (s : State) (pa : Nat) : Prop := isHostPA pa = false ∧ fget s.hostLines (pa / 128) = none

/-- The same of a place; a scratchpad is the device's. -/
def deviceLoc (s : State) : Loc → Prop
  | .phys pa => deviceLine s pa
  | .spad _ _ => True

/-- Every byte of a place lies in a plain line or a scratchpad. -/
def plainPlace (s : State) (p : Place) : Prop := ∀ pa, Loc.phys pa ∈ p.locs → plainLine s pa

/-- An address lies in no table entry that the places came through. -/
def outsideLeaves (ps : List (Nat × Place)) (a : Nat) : Prop :=
  ∀ p ∈ ps, ∀ m ∈ p.2.marks, a < m.1 ∨ m.1 + 8 ≤ a

/-- A place lies in no table entry that the places came through. -/
def clearOf (ps : List (Nat × Place)) : Loc → Prop
  | .phys a => outsideLeaves ps a
  | .spad _ _ => True

/-- No place overlaps an entry that the places came through. -/
def apartFromLeaves (ps : List (Nat × Place)) : Prop := ∀ p ∈ ps, ∀ x ∈ p.2.locs, clearOf ps x

/-- A memory, given by its bytes, with the little-endian bytes of a number put at places. -/
def putAt (locs : List Loc) (x : Nat) (m : Loc → BitVec 8) : Loc → BitVec 8 := fun y =>
  match locs.findIdx? (· == y) with
  | some k => BitVec.ofNat 8 (x / 2 ^ (8 * k))
  | none => m y

/-- The lanes of an atomic, one after another on a memory given by its bytes (spec/11 R185): the memory they leave, the
old value of each lane, and the flags raised. `new` gives a lane's new value and flags from its old value. -/
def atomicChain (new : Nat → Nat → Nat × Word) :
    List (Nat × Place) → (Loc → BitVec 8) → (Loc → BitVec 8) × List (Nat × Nat) × Word
  | [], m => (m, [], 0)
  | (l, p) :: t, m =>
    let old := leNat (p.locs.map m)
    let r := atomicChain new t (putAt p.locs (new l old).1 m)
    (r.1, (l, old) :: r.2.1, (new l old).2 ||| r.2.2)

/-! ### Object and supervisor instructions (spec/13 R235, R236) -/

/-- The state after an instruction of class 27 or 28 that reached `t` and reports OK with a value. -/
def reported (t : State) (form : ObjForm) (v : Env) (x : Nat) : State :=
  completedIn (modWave t v.wid fun u => u.report form.d form.val 0 x) (form.info v.w v.pfx) v

/-- Where `c` holds, and the Cistern is not in firmware restart, the instruction reaches `t` and reports OK with `x`. -/
def Reports (i : Instr) (form : ObjForm) (c : Env → State → Prop) (t : Env → State → State) (x : Env → State → Nat) :
    Prop :=
  DoesWhen i form.info (fun v s => (form.cls = 27 → s.host.bootstate ≠ 4) ∧ c v s) fun v s =>
    reported (t v s) form v (x v s)

/-- Where `c` holds, and the Cistern is not in firmware restart, the instruction reports the status `st`, in a state that may
differ in what its reads have merged; where sd names no register it raises OBJ with the status in INFO (R236). -/
def Fails (i : Instr) (form : ObjForm) (st : Nat) (c : Env → State → Prop) (t : Env → State → State := fun _ s => s) : Prop :=
  DoesWhen i form.info (fun v s => (form.cls = 27 → s.host.bootstate ≠ 4) ∧ c v s) fun v s =>
    if form.d = 0 then takeTrap (t v s) v.wid ⟨cOBJ, st, v.pc, v.pc, 0, false⟩
    else completedIn (modWave (t v s) v.wid fun u => u.report form.d form.val st 0) (form.info v.w v.pfx) v

/-! ### Properties that every step keeps -/

/-- The memory of the module is in canonical form. -/
def State.memoryOk (s : State) : Prop := Memory.wf s.mem = true

/-- Every scratchpad is in canonical form. -/
def State.spadsOk (s : State) : Prop := ∀ p ∈ s.gangs, Memory.wf p.2.spad = true

/-- The scheduler's parameters lie within their limits (spec/21 Table 21.2). -/
def State.paramsOk (s : State) : Prop :=
  65536 ≤ s.agelimit ∧ s.agelimit ≤ 67108864 ∧ 65536 ≤ s.quantum ∧ s.quantum ≤ 16777216

end Sys2Proof.Machine
end

