-- ==== Sys2Proof/Certificates/Slice0/Obligations.lean ====
section
/-! DEFINITION. The statements for the provers. Each says what the rules of spec/ give an instruction, an event or the whole
machine; OBLIGATIONS.json lists them. -/

open Sys2Proof Sys2Proof.Machine

/-! ### Vector members on integers (spec/09) -/

/-- R134: the members of Table 9.1. Each writes its result in the active lanes of Vd and changes no other register, no
memory and no flag; only a saturating member sets SAT, when it clamps. No member traps after issue. -/
def Obligations.VectorIntegerArithmetic : Prop :=
  ∀ (g : BitVec 3) (d a b : BitVec 7),
    let info := fun (cls third : Nat) (_ : Wave) (ws : List Word) =>
      vrInfo cls g d a b 1 1 1 third (if third = 0 then 0 else xThird) false ws
    let two := fun (i : Instr) (cls : Nat) (f : Word → Word → Word) =>
      Writes i (info cls 0) fun v u => u.writeV d.toNat v.e fun l => f (v.w.vlane a.toNat l) (v.w.vlane b.toNat l)
    let clamped := fun (i : Instr) (lo hi : Int) (f : Word → Word → Int) =>
      Writes i (info 1 0) fun v u =>
        let x := fun l => f (v.w.vlane a.toNat l) (v.w.vlane b.toNat l)
        (u.orFlags (if (lanesOf v.e).any fun l => decide (x l < lo ∨ hi < x l) then 0x20 else 0)).writeV d.toNat v.e
          fun l => BitVec.ofInt 32 (max lo (min hi (x l)))
    two (.vaddI32 g d a b) 0 (fun x y => x + y) ∧
    two (.vsubI32 g d a b) 0 (fun x y => x - y) ∧
    two (.vmulloI32 g d a b) 0 (fun x y => x * y) ∧
    two (.vmulhiI32 g d a b) 0 (fun x y => (x.signExtend 64 * y.signExtend 64).extractLsb' 32 32) ∧
    two (.vmulhiN32 g d a b) 0 (fun x y => (x.zeroExtend 64 * y.zeroExtend 64).extractLsb' 32 32) ∧
    (Writes (.vmadI32 g d a b) (info 0 1) fun v u => u.writeV d.toNat v.e fun l =>
      v.w.vlane a.toNat l * v.w.vlane b.toNat l +
        v.w.vlane (if plBit v.xop 16 then v.xop / 2 ^ 17 % 128 else d.toNat) l) ∧
    two (.vminI32 g d a b) 0 (fun x y => if x.toInt ≤ y.toInt then x else y) ∧
    two (.vminN32 g d a b) 0 (fun x y => if x.toNat ≤ y.toNat then x else y) ∧
    two (.vmaxI32 g d a b) 1 (fun x y => if y.toInt ≤ x.toInt then x else y) ∧
    two (.vmaxN32 g d a b) 1 (fun x y => if y.toNat ≤ x.toNat then x else y) ∧
    two (.vabsdI32 g d a b) 1 (fun x y => BitVec.ofInt 32 |x.toInt - y.toInt|) ∧
    two (.vabsdN32 g d a b) 1 (fun x y => if y.toNat ≤ x.toNat then x - y else y - x) ∧
    clamped (.vaddsI32 g d a b) (-2 ^ 31) (2 ^ 31 - 1) (fun x y => x.toInt + y.toInt) ∧
    clamped (.vsubsI32 g d a b) (-2 ^ 31) (2 ^ 31 - 1) (fun x y => x.toInt - y.toInt) ∧
    clamped (.vaddsN32 g d a b) 0 (2 ^ 32 - 1) (fun x y => (x.toNat : Int) + y.toNat) ∧
    clamped (.vsubsN32 g d a b) 0 (2 ^ 32 - 1) (fun x y => (x.toNat : Int) - y.toNat)

/-- R135: the members of class 2. Only b[4:0] counts for a shift. -/
def Obligations.VectorLogicAndShifts : Prop :=
  ∀ (g : BitVec 3) (d a b : BitVec 7),
    let two := fun (i : Instr) (f : Word → Word → Word) =>
      Writes i (fun _ ws => vrInfo 2 g d a b 1 1 1 0 0 false ws) fun v u =>
        u.writeV d.toNat v.e fun l => f (v.w.vlane a.toNat l) (v.w.vlane b.toNat l)
    let n := fun (y : Word) => (y.extractLsb' 0 5).toNat
    two (.vand g d a b) (fun x y => x &&& y) ∧
    two (.vor g d a b) (fun x y => x ||| y) ∧
    two (.vxor g d a b) (fun x y => x ^^^ y) ∧
    two (.vandn g d a b) (fun x y => x &&& ~~~ y) ∧
    two (.vshl g d a b) (fun x y => x <<< n y) ∧
    two (.vshrN32 g d a b) (fun x y => x >>> n y) ∧
    two (.vshrI32 g d a b) (fun x y => x.sshiftRight (n y)) ∧
    two (.vrotl g d a b) (fun x y => (x <<< n y) ||| (x >>> (32 - n y)))

/-- R136, R137: the members of class 3, by the bits of their results; vsel writes every issuing lane. -/
def Obligations.VectorBitFields : Prop :=
  ∀ (g : BitVec 3) (d a b : BitVec 7),
    let info := fun (lb third : Nat) (_ : Wave) (ws : List Word) =>
      vrInfo 3 g d a (if lb = 0 then 0 else b) 1 1 lb third (if third = 0 then 0 else xThird) false ws
    let off := fun (y : Word) => (y.extractLsb' 0 5).toNat
    let width := fun (y : Word) => min (y.extractLsb' 8 6).toNat (32 - off y)
    let inside := fun (y : Word) (k : Nat) => decide (off y ≤ k ∧ k < off y + width y)
    (Writes (.vpopc g d a) (info 0 0) fun v u => u.writeV d.toNat v.e fun l =>
      BitVec.ofNat 32 ((List.range 32).filter fun k => (v.w.vlane a.toNat l).getLsbD k).length) ∧
    (Writes (.vclz g d a) (info 0 0) fun v u => u.writeV d.toNat v.e fun l =>
      BitVec.ofNat 32 (((List.range 32).find? fun k => (v.w.vlane a.toNat l).getLsbD (31 - k)).getD 32)) ∧
    (∃ r : Word → Word, (∀ x k, k < 32 → (r x).getLsbD k = x.getLsbD (31 - k)) ∧
      Writes (.vbrev g d a) (info 0 0) fun v u => u.writeV d.toNat v.e fun l => r (v.w.vlane a.toNat l)) ∧
    (∃ r : Word → Word → Word,
      (∀ x y k, k < 32 → (r x y).getLsbD k = (decide (k < width y) && x.getLsbD (off y + k))) ∧
      Writes (.vbfeN32 g d a b) (info 1 0) fun v u =>
        u.writeV d.toNat v.e fun l => r (v.w.vlane a.toNat l) (v.w.vlane b.toNat l)) ∧
    (∃ r : Word → Word → Word,
      (∀ x y k, k < 32 → (r x y).getLsbD k =
        (decide (width y ≠ 0) && x.getLsbD (off y + min k (width y - 1)))) ∧
      Writes (.vbfeI32 g d a b) (info 1 0) fun v u =>
        u.writeV d.toNat v.e fun l => r (v.w.vlane a.toNat l) (v.w.vlane b.toNat l)) ∧
    (∃ r : Word → Word → Word → Word,
      (∀ x y z k, k < 32 → (r x y z).getLsbD k = if inside y k then x.getLsbD (k - off y) else z.getLsbD k) ∧
      Writes (.vbfi g d a b) (info 1 1) fun v u => u.writeV d.toNat v.e fun l =>
        r (v.w.vlane a.toNat l) (v.w.vlane b.toNat l)
          (v.w.vlane (if plBit v.xop 16 then v.xop / 2 ^ 17 % 128 else d.toNat) l)) ∧
    (Writes (.vsel g d a b) (fun w ws => { info 1 0 w ws with every := true }) fun v u => u.writeV d.toNat v.iss fun l =>
      if bitAt (v.w.guardMask g.toNat v.pfx) l then v.w.vlane a.toNat l else v.w.vlane b.toNat l) ∧
    (Writes (.vmov g d a) (info 0 0) fun v u => u.writeV d.toNat v.e fun l => v.w.vlane a.toNat l)

/-- R138: the members of class 10, with the immediate, or its composite with XIMM, sign-extended. -/
def Obligations.VectorImmediates : Prop :=
  ∀ (g : BitVec 3) (d a imm : BitVec 7) (n : BitVec 5),
    let info := fun (_ : Wave) (ws : List Word) => { vrInfo 10 g d a 0 1 1 0 0 0 false ws with ximm := true }
    let shiftInfo := fun (w : Wave) (ws : List Word) => { info w ws with bad := (prefixOf ws 0).any (· != 0) }
    let value := fun (v : Env) => match v.ximm with
      | none => imm.signExtend 32
      | some p => (BitVec.ofNat 24 p ++ imm).signExtend 32
    let one := fun (i : Instr) (f : Word → Word → Word) =>
      Writes i info fun v u => u.writeV d.toNat v.e fun l => f (v.w.vlane a.toNat l) (value v)
    let shift := fun (i : Instr) (f : Word → Word) =>
      Writes i shiftInfo fun v u => u.writeV d.toNat v.e fun l => f (v.w.vlane a.toNat l)
    one (.vaddi g d a imm) (fun x k => x + k) ∧
    one (.vmuli g d a imm) (fun x k => x * k) ∧
    one (.vandi g d a imm) (fun x k => x &&& k) ∧
    one (.vori g d a imm) (fun x k => x ||| k) ∧
    one (.vxori g d a imm) (fun x k => x ^^^ k) ∧
    shift (.vshli g d a n) (fun x => x <<< n.toNat) ∧
    shift (.vshriN32 g d a n) (fun x => x >>> n.toNat) ∧
    shift (.vshriI32 g d a n) (fun x => x.sshiftRight n.toNat)

/-- R148 for integers, R153 and R154: compares write the bits of Pd of the active lanes; a shuffle reads Va in its source
lane whatever that lane's state; the sums run over the active lanes. -/
def Obligations.VectorComparesAndLanes : Prop :=
  ∀ (g : BitVec 3) (d a b : BitVec 7),
    let cmp := fun (i : Instr) (f : Word → Word → Bool) =>
      Writes i (fun _ ws => { vrInfo 8 g d a b 0 1 1 0 0 false ws with bad := decide (15 < d.toNat) }) fun v u =>
        u.writeP d.toNat (maskOf fun l =>
          if bitAt v.e l then f (v.w.vlane a.toNat l) (v.w.vlane b.toNat l) else bitAt (u.readP d.toNat) l)
    let shuf := fun (i : Instr) (src : Nat → Word → Int) =>
      Writes i (fun _ ws => vrInfo 11 g d a b 1 1 1 0 0 false ws) fun v u => u.writeV d.toNat v.e fun l =>
        let k := src l (v.w.vlane b.toNat l)
        v.w.vlane a.toNat (if 0 ≤ k ∧ k ≤ 31 then k.toNat else l)
    let sum := fun (i : Instr) (ls : Env → Nat → List Nat) =>
      Writes i (fun _ ws => vrInfo 11 g d a 0 1 1 0 0 0 false ws) fun v u => u.writeV d.toNat v.e fun l =>
        ((ls v l).map fun k => v.w.vlane a.toNat k).sum
    cmp (.vcmpEqI32 g d a b) (fun x y => decide (x = y)) ∧
    cmp (.vcmpLtI32 g d a b) (fun x y => x.slt y) ∧
    cmp (.vcmpLtN32 g d a b) (fun x y => x.ult y) ∧
    cmp (.vcmpLeI32 g d a b) (fun x y => x.sle y) ∧
    shuf (.vshf g d a b) (fun _ y => (y.extractLsb' 0 5).toNat) ∧
    shuf (.vshfx g d a b) (fun l y => (BitVec.ofNat 5 l ^^^ y.extractLsb' 0 5).toNat) ∧
    shuf (.vshfup g d a b) (fun l y => (l : Int) - (y.extractLsb' 0 6).toNat) ∧
    shuf (.vshfdn g d a b) (fun l y => (l : Int) + (y.extractLsb' 0 6).toNat) ∧
    sum (.vredsumI32 g d a) (fun v _ => laneIdx.filter fun k => bitAt v.e k) ∧
    sum (.vscanI32 g d a) (fun v l => laneIdx.filter fun k => bitAt v.e k && decide (k ≤ l))

/-- R156: the integer dot products: c plus the exact sum of the products of the elements, modulo 2^32 or, under SAT,
clamped with the SAT flag. -/
def Obligations.VectorIntegerDot : Prop :=
  ∀ (g : BitVec 3) (d a b : BitVec 7),
    let dot := fun (i : Instr) (n len : Nat) (sa sb : Bool) =>
      Writes i (fun _ ws => vrInfo 12 g d a b 1 1 1 1 (xThird + xSat) false ws) fun v u =>
        let el := fun (sg : Bool) (x : Word) (k : Nat) =>
          let e := x.extractLsb' (len * k) len
          if sg then e.toInt else (e.toNat : Int)
        let sum := fun l =>
          (v.w.vlane (if plBit v.xop 16 then v.xop / 2 ^ 17 % 128 else d.toNat) l).toInt +
            ((List.range n).map fun k => el sa (v.w.vlane a.toNat l) k * el sb (v.w.vlane b.toNat l) k).sum
        let out := fun l => decide (sum l < -2 ^ 31 ∨ 2 ^ 31 - 1 < sum l)
        (u.orFlags (if plBit v.xop 10 && (lanesOf v.e).any out then 0x20 else 0)).writeV d.toNat v.e fun l =>
          BitVec.ofInt 32 (if plBit v.xop 10 then max (-2 ^ 31) (min (2 ^ 31 - 1) (sum l)) else sum l)
    dot (.vdot4I8 g d a b) 4 8 true true ∧
    dot (.vdot4N8 g d a b) 4 8 false false ∧
    dot (.vdot4In8 g d a b) 4 8 true false ∧
    dot (.vdot8I4 g d a b) 8 4 true true ∧
    dot (.vdot8N4 g d a b) 8 4 false false

/-! ### Vector members on floating-point numbers (spec/09) -/

/-- R139, R140, R141: class 4, and R146: class 7. A rounding member writes the exact result rounded once under the sampled
mode with coordinate the lane (R84, R85), after ABS, NEG and FTZ of its inputs. The exact results of vexp2, vlog2,
vsinpi and vcospi are the model's fixed-point evaluation with 512 fraction bits (log 8). What vsqrt.f32 gives for +Inf
under SAT is the model's choice (log 99). -/
def Obligations.VectorFp32 : Prop :=
  ∀ (g : BitVec 3) (d a b : BitVec 7),
    let A := fun (v : Env) l => v.modA fp32 (v.w.vlane a.toNat l).toNat
    let B := fun (v : Env) l => v.modB fp32 (v.w.vlane b.toNat l).toNat
    let C := fun (v : Env) l => v.modC fp32 (v.w.vlane (v.vc d.toNat) l).toNat
    let num := fun (v : Env) (x : Nat) => decodeFloat fp32 (flushBits fp32 v.ftz x)
    let put := fun (v : Env) (r : Nat → Nat) (u : Wave) => u.writeV d.toNat v.e fun l => BitVec.ofNat 32 (r l)
    let two := fun (i : Instr) (cls : Nat) (f : REnv → XVal → XVal → XVal × Word) =>
      Rounds i (fun _ ws => vrInfo cls g d a b 1 1 1 0 (namesA + namesB + namesR) true ws)
        (fun v l => rounded fp32 (v.renv l) (f (v.renv l) (num v (A v l)) (num v (B v l)))) put
    let one := fun (i : Instr) (f : XVal → XVal × Word) =>
      Rounds i (fun _ ws => vrInfo 7 g d a 0 1 1 0 0 (namesA + namesR) true ws)
        (fun v l => rounded fp32 (v.renv l) (f (num v (A v l)))) put
    let choose := fun (i : Instr) (mx : Bool) =>
      Rounds i (fun _ ws => vrInfo 4 g d a b 1 1 1 0 (namesA + namesB) false ws)
        (fun v l => minMaxBits fp32 v.ftz mx (A v l) (B v l)) put
    two (.vfaddF32 g d a b) 4 opAdd ∧
    two (.vfsubF32 g d a b) 4 opSub ∧
    two (.vfmulF32 g d a b) 4 opMul ∧
    (Rounds (.vfmaF32 g d a b)
      (fun _ ws => vrInfo 4 g d a b 1 1 1 1 (namesA + namesB + namesC + namesR) true ws)
      (fun v l => rounded fp32 (v.renv l) (opFma (v.renv l) (num v (A v l)) (num v (B v l)) (num v (C v l)))) put) ∧
    choose (.vfminF32 g d a b) false ∧
    choose (.vfmaxF32 g d a b) true ∧
    (Writes (.vfsgnF32 g d a b) (fun _ ws => vrInfo 4 g d a b 1 1 1 0 (namesA + namesB) false ws) fun v u =>
      u.writeV d.toNat v.e fun l =>
        (BitVec.ofNat 32 (B v l)).extractLsb' 31 1 ++ (BitVec.ofNat 32 (A v l)).extractLsb' 0 31) ∧
    (Rounds (.vfscaleF32 g d a b) (fun _ ws => vrInfo 4 g d a b 1 1 1 0 (namesA + namesR) true ws)
      (fun v l =>
        let x := num v (A v l)
        match x with
        | .inf n => (fp32.signed n fp32.infMag, 0)
        | _ => rounded fp32 (v.renv l) (x.scale (v.w.vlane b.toNat l).toInt, flagIf x.isNan fIV)) put) ∧
    one (.vrcpF32 g d a) (fun x => xdiv (.fin false 1 0 false) x) ∧
    one (.vrsqF32 g d a) xrsqrt ∧
    one (.vsqrtF32 g d a) xsqrt ∧
    one (.vexp2F32 g d a) xexp2 ∧
    one (.vlog2F32 g d a) xlog2 ∧
    one (.vsinpiF32 g d a) xsinpi ∧
    one (.vcospiF32 g d a) xcospi ∧
    two (.vdivF32 g d a b) 7 (fun _ x y => xdiv x y)

/-- R144, R145: the packed members of class 5, each element rounded by itself at coordinate L + 32j, and the members of
class 6 on pairs. -/
def Obligations.VectorPackedAndFp64 : Prop :=
  ∀ (g : BitVec 3) (d a b : BitVec 7),
    let el := fun (x : Word) (j : Nat) => (x.extractLsb' (16 * j) 16).toNat
    let num := fun (f : FloatFmt) (v : Env) (x : Nat) => decodeFloat f (flushBits f v.ftz x)
    let put := fun (v : Env) (r : Nat → Nat) (u : Wave) => u.writeV d.toNat v.e fun l => BitVec.ofNat 32 (r l)
    let put64 := fun (v : Env) (r : Nat → Nat) (u : Wave) => u.writeV64 d.toNat v.e fun l => BitVec.ofNat 64 (r l)
    let join := fun (r : Nat → Nat × Word) =>
      ((BitVec.ofNat 16 (r 1).1 ++ BitVec.ofNat 16 (r 0).1).toNat, (r 0).2 ||| (r 1).2)
    let A := fun (f : FloatFmt) (v : Env) l j => v.modA f (el (v.w.vlane a.toNat l) j)
    let B := fun (f : FloatFmt) (v : Env) l j => v.modB f (el (v.w.vlane b.toNat l) j)
    let C := fun (f : FloatFmt) (v : Env) l j => v.modC f (el (v.w.vlane (v.vc d.toNat) l) j)
    let two := fun (i : Instr) (f : FloatFmt) (op : REnv → XVal → XVal → XVal × Word) =>
      Rounds i (fun _ ws => vrInfo 5 g d a b 1 1 1 0 (namesA + namesB + namesR) true ws)
        (fun v l => join fun j => rounded f (v.renv (l + 32 * j))
          (op (v.renv (l + 32 * j)) (num f v (A f v l j)) (num f v (B f v l j)))) put
    let three := fun (i : Instr) (f : FloatFmt) =>
      Rounds i (fun _ ws => vrInfo 5 g d a b 1 1 1 1 (namesA + namesB + namesR + namesC) true ws)
        (fun v l => join fun j => rounded f (v.renv (l + 32 * j))
          (opFma (v.renv (l + 32 * j)) (num f v (A f v l j)) (num f v (B f v l j)) (num f v (C f v l j)))) put
    let choose := fun (i : Instr) (mx : Bool) =>
      Rounds i (fun _ ws => vrInfo 5 g d a b 1 1 1 0 (namesA + namesB) false ws)
        (fun v l => join fun j => minMaxBits fp16 v.ftz mx (A fp16 v l j) (B fp16 v l j)) put
    let A6 := fun (v : Env) l => num fp64 v (v.modA fp64 (v.w.vlane64 a.toNat l).toNat)
    let B6 := fun (v : Env) l => num fp64 v (v.modB fp64 (v.w.vlane64 b.toNat l).toNat)
    let C6 := fun (v : Env) l => num fp64 v (v.modC fp64 (v.w.vlane64 (v.vc d.toNat) l).toNat)
    let pair := fun (i : Instr) (op : REnv → XVal → XVal → XVal × Word) =>
      Rounds i (fun _ ws => vrInfo 6 g d a b 2 2 2 0 (namesA + namesR + namesB) true ws)
        (fun v l => rounded fp64 (v.renv l) (op (v.renv l) (A6 v l) (B6 v l))) put64
    let choose6 := fun (i : Instr) (mx : Bool) =>
      Rounds i (fun _ ws => vrInfo 6 g d a b 2 2 2 0 (namesA + namesB) false ws)
        (fun v l => minMaxBits fp64 v.ftz mx (v.modA fp64 (v.w.vlane64 a.toNat l).toNat)
          (v.modB fp64 (v.w.vlane64 b.toNat l).toNat)) put64
    two (.vhaddF16x2 g d a b) fp16 opAdd ∧
    two (.vhmulF16x2 g d a b) fp16 opMul ∧
    three (.vhfmaF16x2 g d a b) fp16 ∧
    two (.vhaddBf16x2 g d a b) bf16 opAdd ∧
    two (.vhmulBf16x2 g d a b) bf16 opMul ∧
    three (.vhfmaBf16x2 g d a b) bf16 ∧
    choose (.vhminF16x2 g d a b) false ∧
    choose (.vhmaxF16x2 g d a b) true ∧
    pair (.vdaddF64 g d a b) opAdd ∧
    pair (.vdsubF64 g d a b) opSub ∧
    pair (.vdmulF64 g d a b) opMul ∧
    (Rounds (.vdfmaF64 g d a b)
      (fun _ ws => vrInfo 6 g d a b 2 2 2 2 (namesA + namesR + namesB + namesC) true ws)
      (fun v l => rounded fp64 (v.renv l) (opFma (v.renv l) (A6 v l) (B6 v l) (C6 v l))) put64) ∧
    choose6 (.vdminF64 g d a b) false ∧
    choose6 (.vdmaxF64 g d a b) true ∧
    (Rounds (.vdsqrtF64 g d a) (fun _ ws => vrInfo 6 g d a 0 2 2 0 0 (namesA + namesR) true ws)
      (fun v l => rounded fp64 (v.renv l) (xsqrt (A6 v l))) put64) ∧
    pair (.vddivF64 g d a b) (fun _ x y => xdiv x y)

/-- R142, R143: class 29. That an infinity passes vfrint unchanged under SAT too is the model's choice (log 92). -/
def Obligations.VectorIntegralAndClass : Prop :=
  ∀ (g : BitVec 3) (d a b : BitVec 7),
    let A := fun (v : Env) l => v.modA fp32 (v.w.vlane a.toNat l).toNat
    let put := fun (v : Env) (r : Nat → Nat) (u : Wave) => u.writeV d.toNat v.e fun l => BitVec.ofNat 32 (r l)
    let fl := fun (v : Env) x => flushBits fp32 v.ftz x
    let plain := fun (i : Instr) (f : Env → Nat → Nat × Word) =>
      Rounds i (fun _ ws => vrInfo 29 g d a 0 1 1 0 0 namesA false ws) (fun v l => f v (A v l)) put
    (Rounds (.vfrint g d a) (fun _ ws => vrInfo 29 g d a 0 1 1 0 0 (namesA + namesR) true ws)
      (fun v l => integral (v.renv l) true (fl v (A v l))) put) ∧
    plain (.vffloor g d a) (fun v x => integral ⟨2, 0, false, 0⟩ false (fl v x)) ∧
    plain (.vfceil g d a) (fun v x => integral ⟨3, 0, false, 0⟩ false (fl v x)) ∧
    plain (.vftrunc g d a) (fun v x => integral ⟨1, 0, false, 0⟩ false (fl v x)) ∧
    plain (.vfclass g d a) (fun _ x => (classBits x, 0)) ∧
    plain (.vfexp g d a) (fun v x => match decodeFloat fp32 (fl v x) with
      | .nan => (0x80000000, fIV)
      | .inf _ => (0x7FFFFFFF, 0)
      | .zero _ => (0x80000000, fDZ)
      | .fin _ m e _ => ((BitVec.ofInt 32 ((Nat.log2 m : Int) + e)).toNat, 0)) ∧
    plain (.vfmant g d a) (fun v x => match decodeFloat fp32 (fl v x) with
      | .nan => (0x7FC00000, fIV)
      | .fin n m _ _ => ((roundTo fp32 ⟨0, 0, false, 0⟩ (.fin n m (-(Nat.log2 m : Int)) false)).bits, 0)
      | _ => (fl v x, 0)) ∧
    (Rounds (.vfmed3 g d a b) (fun _ ws => vrInfo 29 g d a b 1 1 1 1 (namesA + namesB + namesC) false ws)
      (fun v l =>
        let x := fl v (A v l)
        let y := fl v (v.modB fp32 (v.w.vlane b.toNat l).toNat)
        let z := fl v (v.modC fp32 (v.w.vlane (v.vc d.toNat) l).toNat)
        let mn := fun p q => (minMaxBits fp32 false false p q).1
        let mx := fun p q => (minMaxBits fp32 false true p q).1
        if [x, y, z].any fun q => (decodeFloat fp32 q).isNan then (0x7FC00000, fIV)
        else (mx (mn x y) (mn (mx x y) z), 0)) put)

/-- R148 for FP32, R154, R155 and R156: compares, reductions and dot products. For the reductions SR.TADDR's mask is E. -/
def Obligations.VectorFpComparesAndSums : Prop :=
  ∀ (g : BitVec 3) (d a b : BitVec 7),
    let num := fun (v : Env) (x : Nat) => decodeFloat fp32 (flushBits fp32 v.ftz x)
    let A := fun (v : Env) l => v.modA fp32 (v.w.vlane a.toNat l).toNat
    let B := fun (v : Env) l => v.modB fp32 (v.w.vlane b.toNat l).toNat
    let put := fun (v : Env) (r : Nat → Nat) (u : Wave) => u.writeV d.toNat v.e fun l => BitVec.ofNat 32 (r l)
    let all := fun (v : Env) (r : Nat) (u : Wave) => u.writeV d.toNat v.e fun _ => BitVec.ofNat 32 r
    let cmp := fun (i : Instr) (iv : Bool) (f : XVal → XVal → Bool) =>
      Rounds i
        (fun _ ws => { vrInfo 8 g d a b 0 1 1 0 (namesA + namesB) false ws with bad := decide (15 < d.toNat) })
        (fun v l => (if f (num v (A v l)) (num v (B v l)) then 1 else 0,
          flagIf (iv && ((num v (A v l)).isNan || (num v (B v l)).isNan)) fIV))
        (fun v r u => u.writeP d.toNat (maskOf fun l =>
          if bitAt v.e l then r l == 1 else bitAt (u.readP d.toNat) l))
    let dot := fun (i : Instr) (f : FloatFmt) (n len : Nat) =>
      Rounds i (fun _ ws => vrInfo 12 g d a b 1 1 1 1 (namesC + namesR) true ws)
        (fun v l =>
          let el := fun (x : Word) (k : Nat) => decodeFloat f (x.extractLsb' (len * k) len).toNat
          let ps := (List.range n).map fun k =>
            (xmul (el (v.w.vlane a.toNat l) k) (el (v.w.vlane b.toNat l) k)).1
          let c := decodeFloat fp32 (v.modC fp32 (v.w.vlane (v.vc d.toNat) l).toNat)
          rounded fp32 (v.renv l) (ivIf (xsum ((v.renv l).rm == 2) (c :: ps)))) put
    cmp (.vcmpEqF32 g d a b) false xeq ∧
    cmp (.vcmpLtF32 g d a b) true (xlt false) ∧
    cmp (.vcmpLeF32 g d a b) true (fun x y => xlt false x y || xeq x y) ∧
    cmp (.vcmpUnF32 g d a b) false (fun x y => x.isNan || y.isNan) ∧
    (RoundsOnce (.vredmaxF32 g d a) (fun _ ws => vrInfo 11 g d a 0 1 1 0 0 namesA false ws)
      (fun v => match (lanesOf v.e).map fun l => flushBits fp32 v.ftz (A v l) with
        | [] => (0, 0)
        | x :: t => t.foldl (fun m y =>
            ((minMaxBits fp32 false true m.1 y).1, m.2 ||| (minMaxBits fp32 false true m.1 y).2))
            (minMaxBits fp32 false true x x))
      (fun v => v.e) all) ∧
    (RoundsOnce (.vredsumF32 g d a) (fun _ ws => vrInfo 11 g d a 0 1 1 0 0 (namesA + namesR) true ws)
      (fun v =>
        let leaf := fun l =>
          let x := flushBits fp32 v.ftz (A v l)
          if !bitAt v.e l then (none, 0)
          else if (decodeFloat fp32 x).isNan then (some 0x7FC00000, fIV) else (some x, 0)
        let r := ([1, 2, 3, 4, 5].foldl (fun t lv => sumLevel v lv 0 t) (laneIdx.map leaf)).headD (none, 0)
        (r.1.getD 0, r.2))
      (fun v => v.e) all) ∧
    dot (.vdot2Bf16 g d a b) bf16 2 16 ∧
    dot (.vdot4E4m3 g d a b) e4m3 4 8 ∧
    dot (.vdot8E2m1 g d a b) e2m1 8 4

/-- R149, R150, R151, R152: conversions. An element takes its slot of Vd and the other bits keep their value; a 4-bit
member works on the pair of registers and one byte slot. An exact conversion and vmxs set no rounding flag. The NEG
and ABS fields that a 4-bit conversion names are a reading (log 27). The element number that RSD takes at a byte slot
is a reading (log 62). -/
def Obligations.VectorConversions : Prop :=
  ∀ (g : BitVec 3) (d a : BitVec 7) (fmt : BitVec 5) (slot : BitVec 2),
    let i := fmt.toNat
    let n := fmtWidth i
    let f := (floatFmt i).getD fp32
    let els := fun (v : Env) (el : Nat → Nat → Nat × Word) (l : Nat) =>
      if !bitAt v.e l then [] else if n = 4 then [el l 0, el l 1] else [el l 0]
    let conv := fun (x : Instr) (info : Wave → List Word → OpInfo) (c : Env → Nat → Nat → Nat × Word)
        (put : Env → (Nat → List Nat) → Wave → Wave) =>
      Does x info fun v s =>
        let tb := laneIdx.map (els v (c v))
        let fl := flagUnion (tb.flatten.map Prod.snd)
        let en := v.w.fpx fl
        if en = 0 then completed s (info v.w v.pfx) v fun u =>
          put v (fun l => (els v (c v) l).map Prod.fst) (u.orFlags fl)
        else takeTrap (modWave s v.wid fun u => u.orFlags fl) v.wid ⟨cFPX, en.toNat, v.pc, v.pc,
          BitVec.ofNat 64 (maskOf fun l => (els v (c v) l).any fun r => r.2 &&& en != 0).toNat, false⟩
    let narrow := fun (v : Env) (r : Nat → List Nat) (u : Wave) =>
      u.writeV d.toNat v.e fun l => putElems n slot.toNat (u.vlane d.toNat l) (r l)
    let wide := fun (v : Env) (r : Nat → List Nat) (u : Wave) =>
      if n = 4 then (u.writeV d.toNat v.e fun l => BitVec.ofNat 32 ((r l).getD 0 0)).writeV (d.toNat + 1) v.e
        fun l => BitVec.ofNat 32 ((r l).getD 1 0)
      else u.writeV d.toNat v.e fun l => BitVec.ofNat 32 ((r l).getD 0 0)
    let src := fun (v : Env) l j => v.srcSlot a.toNat l n slot.toNat j
    let int := (intRange i slot.toNat).getD (0, 0)
    let place := fun (j : Nat) => if n = 4 then j else if n = 8 then slot.toNat else 0
    conv (.vcvtn g d a fmt slot)
      (fun _ ws => cvtInfo g d a 1 (if n = 4 then 2 else 1) (namesR + namesA) true (slotOk false i slot.toNat)
        (decide (2 ≤ i ∧ i ≤ 9)) ws)
      (fun v l j => cvtTo f (v.renv (l + 32 * place j)) (v.srcF32 a.toNat l j)) narrow ∧
    conv (.vcvtw g d a fmt slot)
      (fun _ ws => cvtInfo g d a (if n = 4 then 2 else 1) 1 (if n = 4 then 0 else namesA) false
        (slotOk false i slot.toNat) (decide (2 ≤ i ∧ i ≤ 9)) ws)
      (fun v l j => cvtExact fp32 (inputFloat f v.ftz
        (if n = 4 then src v l j else v.modA f (src v l j % 2 ^ (f.eb + f.mb + 1))))) wide ∧
    conv (.vcvti2f g d a fmt slot)
      (fun _ ws => cvtInfo g d a (if n = 4 then 2 else 1) 1 namesR true (slotOk true i slot.toNat)
        (intRange i slot.toNat).isSome ws)
      (fun v l j => rounded fp32 (v.renv (l + 32 * j))
        (xOfInt (if int.1 < 0 then signed n (src v l j) else (src v l j : Int)), 0)) wide ∧
    conv (.vcvtf2i g d a fmt slot)
      (fun _ ws => cvtInfo g d a 1 (if n = 4 then 2 else 1) namesA true (slotOk true i slot.toNat)
        (intRange i slot.toNat).isSome ws)
      (fun v l j =>
        let q := roundInt (v.renv (l + 32 * place j)) int.1 int.2 (v.srcF32 a.toNat l j)
        ((BitVec.ofInt 32 q.1).toNat, q.2)) narrow ∧
    (Rounds (.vcvtd2f g d a fmt slot)
      (fun _ ws => cvtInfo g d a 1 2 (namesR + namesA) true (slotOk false i slot.toNat) (decide (1 ≤ i ∧ i ≤ 4)) ws)
      (fun v l => cvtTo f (v.renv l) (inputFloat fp64 v.ftz (v.modA fp64 (v.w.vlane64 a.toNat l).toNat)))
      (fun v r u => u.writeV d.toNat v.e fun l => putElems n slot.toNat (u.vlane d.toNat l) [r l])) ∧
    (Rounds (.vcvtf2d g d a fmt slot)
      (fun _ ws => cvtInfo g d a 2 1 namesA false (slotOk false i slot.toNat) (decide (1 ≤ i ∧ i ≤ 8)) ws)
      (fun v l => cvtExact fp64 (inputFloat f v.ftz (v.modA f (src v l 0 % 2 ^ (f.eb + f.mb + 1)))))
      (fun v r u => u.writeV64 d.toNat v.e fun l => BitVec.ofNat 64 (r l))) ∧
    (Rounds (.vsrnd g d a fmt slot)
      (fun _ ws => cvtInfo g d a 1 1 (namesR + namesA) true (slot == 0) (decide (2 ≤ i ∧ i ≤ 9)) ws)
      (fun v l =>
        let r := cvtTo f (v.renv l) (v.srcF32 a.toNat l 0)
        ((roundTo fp32 ⟨0, 0, false, 0⟩ (decodeFloat f r.1)).bits, r.2))
      (fun v r u => u.writeV d.toNat v.e fun l => BitVec.ofNat 32 (r l))) ∧
    (Writes (.vmxs g d a fmt slot)
      (fun _ ws => cvtInfo g d a 1 1 namesA false (slotOk false i slot.toNat) (decide (15 ≤ i ∧ i ≤ 20)) ws)
      fun v u => u.writeV d.toNat v.e fun l => putSlot (u.vlane d.toNat l) 8 slot.toNat
        (blockScale i ((lanesOf v.e).map fun k => v.srcF32 a.toNat k 0)))

/-! ### Scalars, predicates and special registers (spec/09, spec/05) -/

/-- R157, R158: the integer members of class 13. A write to S0 is discarded (`Wave.writeS`); no flag is set. -/
def Obligations.ScalarArithmetic : Prop :=
  ∀ (d a b : BitVec 7),
    let three := fun (i : Instr) (f : Word → Word → Word) =>
      Writes i (fun _ _ => scalarInfo d a b 1 1 1) fun v u =>
        u.writeS d.toNat (f (v.w.readS a.toNat) (v.w.readS b.toNat))
    let pairs := fun (i : Instr) (f : DWord → DWord → DWord) =>
      Writes i (fun _ _ => scalarInfo d a b 2 2 2) fun v u =>
        u.writeS64 d.toNat (f (v.w.readS64 a.toNat) (v.w.readS64 b.toNat))
    let shift := fun (i : Instr) (f : DWord → Nat → DWord) =>
      Writes i (fun _ _ => scalarInfo d a b 2 2 1) fun v u =>
        u.writeS64 d.toNat (f (v.w.readS64 a.toNat) ((v.w.readS b.toNat).extractLsb' 0 6).toNat)
    let n := fun (y : Word) => (y.extractLsb' 0 5).toNat
    let quot := fun (x y : Word) => if y = 0 then (0xFFFFFFFF : Word)
      else if x = 0x80000000 ∧ y = 0xFFFFFFFF then 0x80000000 else BitVec.ofInt 32 (x.toInt.tdiv y.toInt)
    let one := fun (p : Prop) [Decidable p] => if p then (1 : Word) else 0
    three (.sadd d a b) (fun x y => x + y) ∧
    three (.ssub d a b) (fun x y => x - y) ∧
    three (.smullo d a b) (fun x y => x * y) ∧
    three (.smulhiI32 d a b) (fun x y => (x.signExtend 64 * y.signExtend 64).extractLsb' 32 32) ∧
    three (.smulhiN32 d a b) (fun x y => (x.zeroExtend 64 * y.zeroExtend 64).extractLsb' 32 32) ∧
    three (.sdivI32 d a b) quot ∧
    three (.sdivN32 d a b) (fun x y => if y = 0 then 0xFFFFFFFF else x / y) ∧
    three (.sremI32 d a b) (fun x y => if y = 0 then x else if x = 0x80000000 ∧ y = 0xFFFFFFFF then 0
      else x - quot x y * y) ∧
    three (.sremN32 d a b) (fun x y => if y = 0 then x else x - x / y * y) ∧
    three (.sminI32 d a b) (fun x y => if x.toInt ≤ y.toInt then x else y) ∧
    three (.sminN32 d a b) (fun x y => if x.toNat ≤ y.toNat then x else y) ∧
    three (.smaxI32 d a b) (fun x y => if y.toInt ≤ x.toInt then x else y) ∧
    three (.smaxN32 d a b) (fun x y => if y.toNat ≤ x.toNat then x else y) ∧
    three (.sand d a b) (fun x y => x &&& y) ∧
    three (.sor d a b) (fun x y => x ||| y) ∧
    three (.sxor d a b) (fun x y => x ^^^ y) ∧
    three (.sshl d a b) (fun x y => x <<< n y) ∧
    three (.sshrN32 d a b) (fun x y => x >>> n y) ∧
    three (.sshrI32 d a b) (fun x y => x.sshiftRight (n y)) ∧
    pairs (.saddI64 d a b) (fun x y => x + y) ∧
    pairs (.ssubI64 d a b) (fun x y => x - y) ∧
    pairs (.smulI64 d a b) (fun x y => x * y) ∧
    shift (.sshlB64 d a b) (fun x k => x <<< k) ∧
    shift (.sshrN64 d a b) (fun x k => x >>> k) ∧
    three (.scmpEq d a b) (fun x y => one (x = y)) ∧
    three (.scmpLtI32 d a b) (fun x y => one (x.toInt < y.toInt)) ∧
    three (.scmpLtN32 d a b) (fun x y => one (x.toNat < y.toNat))

/-- R159: the floating-point members of class 13; SR.TADDR is 0 for an FPX. -/
def Obligations.ScalarFloat : Prop :=
  ∀ (d a b : BitVec 7),
    let e := fun (v : Env) => v.renv (2 ^ 40)
    let x := fun (v : Env) (n : BitVec 7) => decodeFloat fp32 (flushBits fp32 v.ftz (v.w.readS n.toNat).toNat)
    let put := fun (_ : Env) (r : Nat) (u : Wave) => u.writeS d.toNat (BitVec.ofNat 32 r)
    let bin := fun (i : Instr) (f : REnv → XVal → XVal → XVal × Word) =>
      RoundsOnce i (fun _ _ => { scalarInfo d a b 1 1 1 with rounds := true })
        (fun v => rounded fp32 (e v) (f (e v) (x v a) (x v b))) (fun _ => 0) put
    let un := fun (i : Instr) (f : Env → Nat × Word) =>
      RoundsOnce i
        (fun _ _ => { srInfo 13 [.s a.toNat 1] [.s d.toNat 1] [.s a.toNat 1] [] false with rounds := true }) f
        (fun _ => 0) put
    bin (.sfaddF32 d a b) opAdd ∧
    bin (.sfmulF32 d a b) opMul ∧
    (RoundsOnce (.sfmaF32 d a b)
      (fun _ _ =>
        let i := scalarInfo d a b 1 1 1
        { i with rounds := true, rs := i.rs ++ [.s d.toNat 1] })
      (fun v => rounded fp32 (e v) (opFma (e v) (x v a) (x v b) (x v d))) (fun _ => 0) put) ∧
    un (.scvtf2i d a) (fun v =>
      let q := roundInt (e v) (-2 ^ 31) (2 ^ 31 - 1) (x v a)
      ((BitVec.ofInt 32 q.1).toNat, q.2)) ∧
    un (.scvti2f d a) (fun v => rounded fp32 (e v) (xOfInt (v.w.readS a.toNat).toInt, 0))

/-- R160: class 14, with the 10-bit immediate, or its 34-bit composite with XIMM, sign-extended, its low 32 bits. -/
def Obligations.ScalarImmediates : Prop :=
  ∀ (d a : BitVec 7) (imm : BitVec 10),
    let value := fun (x : Option Nat) => (match x with
      | none => imm.signExtend 32
      | some p => (BitVec.ofNat 24 p ++ imm).setWidth 32 : Word)
    let info := fun (_ : Wave) (_ : List Word) =>
      { srInfo 14 [.s a.toNat 1] [.s d.toNat 1] [.s a.toNat 1] [] false with ximm := true }
    let shiftInfo := fun (w : Wave) (ws : List Word) =>
      { info w ws with bad := decide (31 < (value (prefixOf ws 0)).toNat) }
    let one := fun (i : Instr) (f : Word → Word → Word) =>
      Writes i info fun v u => u.writeS d.toNat (f (v.w.readS a.toNat) (value v.ximm))
    let shift := fun (i : Instr) (f : Word → Nat → Word) =>
      Writes i shiftInfo fun v u => u.writeS d.toNat (f (v.w.readS a.toNat) (value v.ximm).toNat)
    one (.saddi d a imm) (fun x k => x + k) ∧
    one (.sandi d a imm) (fun x k => x &&& k) ∧
    one (.sori d a imm) (fun x k => x ||| k) ∧
    one (.sxori d a imm) (fun x k => x ^^^ k) ∧
    shift (.sshli d a imm) (fun x k => x <<< k) ∧
    shift (.sshri d a imm) (fun x k => x >>> k) ∧
    one (.slui d a imm) (fun x k => k.extractLsb' 0 16 ++ x.extractLsb' 0 16) ∧
    (Writes (.smovi d imm) (fun _ _ => { srInfo 14 [] [.s d.toNat 1] [] [] false with ximm := true }) fun v u =>
      u.writeS d.toNat (value v.ximm))

/-- R161, R162, R163, R165: moves, predicate members, T register halves and the pool tag. A tag of operator 15 raises
BADTAG and changes no register but the trap's. The address that vlpc gives for a lane at an exit or a wait with
prefixes is a reading (log 75). -/
def Obligations.MovesAndPredicates : Prop :=
  ∀ (d a b : BitVec 7),
    let lane := fun (v : Env) => ((v.w.readS b.toNat).extractLsb' 0 5).toNat
    let s1 := fun (n : BitVec 7) => RegRun.s n.toNat 1
    let preds := fun (i : Instr) (c : BitVec 7) (f : Word → Word → Word) =>
      Writes i (fun _ _ => srInfo 15 [] [] [] []
        (decide (15 < d.toNat) || decide (15 < a.toNat) || decide (15 < c.toNat))) fun v u =>
        u.writeP d.toNat (f (v.w.readP a.toNat) (v.w.readP c.toNat))
    (Writes (.vbcast d a) (fun _ _ => srInfo 15 [s1 a] [.v d.toNat 1] [s1 a] [] false) fun v u =>
      u.writeV d.toNat v.iss fun _ => v.w.readS a.toNat) ∧
    (Writes (.vrdlane d a b) (fun _ _ => srInfo 15 [.v a.toNat 1, s1 b] [s1 d] [.v a.toNat 1] [s1 b] false) fun v u =>
      u.writeS d.toNat (v.w.vlane a.toNat (lane v))) ∧
    (Writes (.vwrlane d a b) (fun _ _ => srInfo 15 [s1 a, s1 b] [.v d.toNat 1] [s1 a] [s1 b] false) fun v u =>
      u.writeV d.toNat (maskOf fun l => l == lane v) fun _ => v.w.readS a.toNat) ∧
    (Writes (.vlpc d b) (fun _ _ => srInfo 15 [s1 b] [.s d.toNat 2] [] [s1 b] false) fun v u =>
      u.writeS64 d.toNat (if v.w.priv = .s then v.w.held.pcs.getD (lane v) 0 else v.w.pcs.getD (lane v) 0)) ∧
    (Writes (.p2s d a) (fun _ _ => srInfo 15 [] [s1 d] [] [] (decide (15 < a.toNat))) fun v u =>
      u.writeS d.toNat (v.w.readP a.toNat)) ∧
    (Writes (.s2p d a) (fun _ _ => srInfo 15 [s1 a] [] [s1 a] [] (decide (15 < d.toNat))) fun v u =>
      u.writeP d.toNat (v.w.readS a.toNat)) ∧
    preds (.pand d a b) b (fun x y => x &&& y) ∧
    preds (.por d a b) b (fun x y => x ||| y) ∧
    preds (.pxor d a b) b (fun x y => x ^^^ y) ∧
    preds (.pnot d a) 0 (fun x _ => ~~~ x) ∧
    (Does (.ptag a) (fun _ _ => srInfo 15 [s1 a] [] [s1 a] [] false) fun v s =>
      if (v.w.readS a.toNat).extractLsb' 0 4 = 15 then takeTrap s v.wid ⟨cBADTAG, 0, v.pc, v.pc, 0, false⟩
      else completed s (srInfo 15 [s1 a] [] [s1 a] [] false) v fun u =>
        { u with ptag := ((v.w.readS a.toNat).extractLsb' 0 12).setWidth 32 }) ∧
    (Writes (.pcount d a) (fun _ _ => srInfo 15 [] [s1 d] [] [] (decide (15 < a.toNat))) fun v u =>
      u.writeS d.toNat (BitVec.ofNat 32 ((List.range 32).filter fun k => (v.w.readP a.toNat).getLsbD k).length)) ∧
    (Writes (.twr d a b)
      (fun w _ => srInfo 15 [.s a.toNat 2] [] [.s a.toNat 2] []
        (decide (31 < d.toNat) || decide (w.tn ≤ d.toNat) || decide (1 < b.toNat))) fun v u =>
      u.writeT d.toNat (if b = 0 then (u.readT d.toNat).extractLsb' 64 64 ++ v.w.readS64 a.toNat
        else v.w.readS64 a.toNat ++ (u.readT d.toNat).extractLsb' 0 64)) ∧
    (Writes (.trd d a b)
      (fun w _ => srInfo 15 [] [.s d.toNat 2] [] []
        (decide (31 < a.toNat) || decide (w.tn ≤ a.toNat) || decide (1 < b.toNat))) fun v u =>
      u.writeS64 d.toNat ((v.w.readT a.toNat).extractLsb' (64 * b.toNat) 64))

/-- R67, R164 and Table 5.6: srsr reads every special register into a register or a pair, and swsr writes each writable
one. The numbers, widths, S-mode checks and reserved bits are the ones the issue checks test. R133, R186: a read or a
write of SR.FLAGS waits while a logged floating-point atomic owes its flags (that it does not in S mode is the model's
choice, log 100), and the flags that an engine posts to SR.EFLAGS in the cycle of a swsr stay set. R73: a write of
SR.MPROGk is ignored unless Ek is stopped, or has been re-entered stopped; then the oldest operation goes on at the
written progress: a matrix operation at that row, a copy with the chunks from there. That what lies below is not
written again is the model's choice (log 85). -/
def Obligations.SpecialRegisters : Prop :=
  ∀ (d a : BitVec 7),
    let n := a.toNat
    let k := d.toNat
    let rInfo := fun (_ : Wave) (_ : List Word) =>
      { srInfo 15 [] [.s d.toNat (max 1 (srWidth n))] [] [] (srWidth n == 0) with priv := srReadPriv n }
    let wInfo := fun (w : Wave) (_ : List Word) =>
      let r : RegRun := .s a.toNat (max 1 (srWidth k))
      { srInfo 15 [r] [] [r] [] (!srWritable k || srReservedBits k (swsrValue w k a.toNat)) with priv := srWritePriv k }
    let owed := fun (v : Env) => v.w.priv = .u ∧ ∃ e ∈ v.w.log, e.word.extractLsb' 27 5 = 20 ∧
      (e.word.extractLsb' 0 5 = 2 ∨ e.word.extractLsb' 0 5 = 7 ∨ e.word.extractLsb' 0 5 = 8)
    let read := fun (x : Nat) (f : State → Wave → DWord) => n = x →
      DoesWhen (.srsr d a) rInfo (fun v _ => n = 1 → ¬ owed v) fun v s => completed s (rInfo v.w v.pfx) v fun u =>
        if srWidth n = 1 then u.writeS d.toNat ((f s v.w).setWidth 32) else u.writeS64 d.toNat (f s v.w)
    let rd := fun (x : Nat) (f : Wave → DWord) => read x fun _ w => f w
    let wr := fun (x : Nat) (f : Word → DWord → Wave → Wave) => k = x →
      DoesWhen (.swsr d a) wInfo (fun v _ => k = 1 → ¬ owed v) fun v s =>
        completed s (wInfo v.w v.pfx) v (f (v.w.readS a.toNat) (v.w.readS64 a.toNat))
    rd 0x00 (fun w => w.mode.setWidth 64) ∧
    rd 0x01 (fun w => w.flags.setWidth 64) ∧
    rd 0x02 (fun w => w.seed) ∧
    rd 0x03 (fun w => w.ptag.setWidth 64) ∧
    rd 0x05 (fun w => w.iseq) ∧
    rd 0x08 (fun w => w.tcause.setWidth 64) ∧
    rd 0x09 (fun w => w.tpc) ∧
    rd 0x0A (fun w => w.tresume) ∧
    rd 0x0B (fun w => w.taddr) ∧
    rd 0x0C (fun w => w.tlog.setWidth 64) ∧
    rd 0x10 (fun w => w.scra) ∧
    rd 0x11 (fun w => w.scrb) ∧
    rd 0x12 (fun w => w.scrc) ∧
    rd 0x13 (fun w => w.scrd) ∧
    read 0x04 (fun s _ => BitVec.ofNat 64 (s.time / 12)) ∧
    read 0x06 (fun s w => BitVec.ofNat 64 (placeOf (((fget s.gangs w.gang).map Gang.core).getD 0) w.quad w.slot)) ∧
    read 0x07 (fun s w => (((fget s.gangs w.gang).map Gang.eflags).getD 0).setWidth 64) ∧
    (∀ j, j < 8 → read (0x18 + j) fun s w =>
      BitVec.ofNat 64 ((((fget s.gangs w.gang).bind fun g => g.ctxs[j]?).map Ctx.prog).getD 0)) ∧
    wr 0x00 (fun x _ u => { u with mode := x }) ∧
    wr 0x01 (fun x _ u => { u with flags := x }) ∧
    wr 0x02 (fun _ x u => { u with seed := x }) ∧
    wr 0x05 (fun _ x u => { u with iseq := x }) ∧
    wr 0x08 (fun x _ u => { u with tcause := x }) ∧
    wr 0x09 (fun _ x u => { u with tpc := x }) ∧
    wr 0x0A (fun _ x u => { u with tresume := x }) ∧
    wr 0x0B (fun _ x u => { u with taddr := x }) ∧
    wr 0x10 (fun _ x u => { u with scra := x }) ∧
    wr 0x11 (fun _ x u => { u with scrb := x }) ∧
    wr 0x12 (fun _ x u => { u with scrc := x }) ∧
    wr 0x13 (fun _ x u => { u with scrd := x }) ∧
    (k = 0x07 → Does (.swsr d a) wInfo fun v s =>
      completedIn (modGang s v.w.gang fun g => { g with
        eflags := v.w.readS a.toNat ||| if g.posted.1 = s.time / 5 then g.posted.2 else 0 }) (wInfo v.w v.pfx) v) ∧
    (n = 1 → DoesWhen (.srsr d a) rInfo (fun v _ => owed v) fun _ s => s) ∧
    (k = 1 → DoesWhen (.swsr d a) wInfo (fun v _ => owed v) fun _ s => s) ∧
    (∀ j, j < 8 → k = 0x18 + j → Does (.swsr d a) wInfo fun v s =>
      completedIn (writeProg s v.w.gang j (v.w.readS64 a.toNat).toNat) (wInfo v.w v.pfx) v) ∧
    (∀ (s : State) (gang j p : Nat) (g : Gang) (c : Ctx), fget s.gangs gang = some g → g.ctxs[j]? = some c →
      let t := writeProg s gang j p
      t = { s with gangs := t.gangs } ∧
      (∀ m, m ≠ gang → fget t.gangs m = fget s.gangs m) ∧
      (c.stopped = false → c.retry = false → fget t.gangs gang = some g) ∧
      (c.stopped = true ∨ c.retry = true → ∃ x, fget t.gangs gang = some { g with ctxs := g.ctxs.set j x } ∧
        x.prog = p ∧ x.stopped = c.stopped ∧ x.retry = c.retry ∧ x.subm = c.subm ∧ x.tl = c.tl ∧
        x.ops.tail = c.ops.tail ∧
        ∀ o, c.ops.head? = some o → ∃ y, x.ops.head? = some y ∧ y = { o with landed := y.landed } ∧
          ∀ ch, ch ∈ y.left ↔ ch < o.chunks ∧ p ≤ ch))

/-! ### Control flow (spec/11) -/

/-- R168, R169, R170, R173: branches, calls, jumps, ret, exit, nop and yield. The target of a relative branch is the
branch word's own address plus four times its offset, or the 44-bit composite of R109. A misaligned target of a jump
or a ret raises ALIGN with the target of the lowest such lane, and nothing else changes. An exit waits for the operand
log to empty (R197). -/
def Obligations.ControlFlow : Prop :=
  ∀ (off : BitVec 20) (c : BitVec 4) (r : BitVec 7),
    let target := fun (v : Env) => v.wpc + (match v.ximm with
      | none => off.signExtend 64
      | some p => (BitVec.ofNat 24 p ++ off).signExtend 64) * 4
    let rel := fun (i : Instr) (rs : List RegRun) (taken : Env → Nat → Bool) =>
      Does i (fun _ _ => { cls := 16, rs := rs, ximm := true }) fun v s =>
        leaves s { cls := 16, rs := rs, ximm := true } v (fun l => if taken v l then target v else v.next) id
    let jump := fun (i : Instr) (o : OpInfo) (scalar : Bool) (tgt : Env → Nat → DWord) =>
      Does i (fun _ _ => o) fun v s =>
        match (lanesOf v.iss).find? fun l => (tgt v l).extractLsb' 0 2 != 0 with
        | none => leaves s o v (tgt v) id
        | some l => takeTrap s v.wid ⟨cALIGN, if scalar then 64 else l, v.pc, v.pc, tgt v l, false⟩
    rel (.br off) [] (fun _ _ => true) ∧
    rel (.brp c off) [] (fun v l => bitAt (v.w.readP c.toNat) l) ∧
    rel (.brnp c off) [] (fun v l => !bitAt (v.w.readP c.toNat) l) ∧
    rel (.brz c off) [.s c.toNat 1] (fun v _ => decide (v.w.readS c.toNat = 0)) ∧
    rel (.brnz c off) [.s c.toNat 1] (fun v _ => decide (v.w.readS c.toNat ≠ 0)) ∧
    (Does (.call off) (fun _ _ => { cls := 16, ws := [.v 127 1], ximm := true }) fun v s =>
      leaves s { cls := 16, ws := [.v 127 1], ximm := true } v (fun _ => target v) fun u =>
        u.writeV 127 v.iss fun _ => v.next.extractLsb' 0 32) ∧
    jump (.jmpi c) { cls := 16, rs := [.s (2 * c.toNat) 2] } true (fun v _ => v.w.readS64 (2 * c.toNat)) ∧
    jump (.jmpv r) { cls := 16, rs := [.v r.toNat 2], bad := r.toNat % 2 == 1 } false
      (fun v l => v.w.vlane64 r.toNat l) ∧
    jump .ret { cls := 17, rs := [.v 127 1] } false (fun v l => v.wpc.extractLsb' 32 32 ++ v.w.vlane 127 l) ∧
    (DoesWhen .exit (fun _ _ => { cls := 17 }) (fun v _ => v.w.priv = .s ∨ v.w.log = []) fun v s =>
      completedIn (modWave s v.wid fun u =>
        { u with lanes := laneIdx.map fun l => if bitAt v.iss l then .exited else u.lane l }) { cls := 17 } v) ∧
    (Does .nop (fun _ _ => { cls := 17 }) fun v s => completed s { cls := 17 } v id) ∧
    (Does .yield (fun _ _ => { cls := 17 }) fun v s => completed s { cls := 17 } v id)

/-- R174 with Table 23.2: trap advances its lanes and raises SYSCALL, brk raises BRK where it stands; the code is in
SR.TADDR, INFO is 0, and SR.TRESUME is the address after the word for trap and the chain's address for brk. Both wait
for the operand log to empty (R197). R375: in S mode, or where the effective trap vector is 0, the trap is
unrecoverable and the fault domain of the wave's region is discarded. -/
def Obligations.TrapAndBreak : Prop :=
  (∀ (imm : BitVec 16) s wid w pc iss ws, Stands s wid w pc iss ws → Passes w { cls := 17 } ws →
    let rg := waveRegion s w
    let fresh := fun (g : Region) => { g with progress := 0, deadRaised := g.deadRaised && w.priv == .s }
    (w.priv = .s ∨ (w.log = [] ∧ effTrapvec s rg = 0) →
      exec (.trap imm) s =
        .next (discardOf (completed s { cls := 17 } (sees wid w pc iss ws { cls := 17 }) id) rg) ∧
      exec (.brk imm) s =
        .next (discardOf (modRegion (setWave s wid { w with ready := s.time + 5 }) rg fresh) rg)) ∧
    (w.priv = .u → w.log ≠ [] → exec (.trap imm) s = .next s ∧ exec (.brk imm) s = .next s) ∧
    (∀ t, discardOf s rg = t → ∀ r, within s r (faultDomain s rg) = true → (fget s.regions r).isSome = true →
      regionStatus t r = 2)) ∧
  ∀ (imm : BitVec 16) s wid w pc iss ws,
    Stands s wid w pc iss ws → Passes w { cls := 17 } ws → w.priv = .u → w.log = [] →
    effTrapvec s (waveRegion s w) ≠ 0 →
    let vec := effTrapvec s (waveRegion s w)
    let next := pc + BitVec.ofNat 64 (4 * ws.length) + 4
    let moved := fun l => if bitAt iss l && w.lane l == .live then next else w.pc l
    let entered := fun (t : State) (cause : Nat) (pcs : List DWord) (resume : DWord) =>
      ∃ u, getWave t wid = some u ∧ u.priv = .s ∧ u.held = ⟨pcs, w.lanes⟩ ∧ u.pcs = splat vec ∧ u.lanes = splat .live ∧
        u.chain = none ∧ u.tcause = BitVec.ofNat 32 cause ∧ u.tpc = pc ∧ u.tresume = resume ∧
        u.taddr = imm.setWidth 64 ∧ u.tlog = 0 ∧ u.v = w.v ∧ u.s = w.s ∧ u.p = w.p ∧ u.t = w.t ∧ u.flags = w.flags ∧
        u.mode = w.mode ∧ t.mem = s.mem ∧ t.gangs = s.gangs
    (∃ t, exec (.trap imm) s = .next t ∧ entered t 0x18 (laneIdx.map moved) next) ∧
    (∃ t, exec (.brk imm) s = .next t ∧ entered t 0x12 w.pcs pc)

/-- R107, R110, R111, R112: a prefix word joins its chain, and nothing else changes. -/
def Obligations.PrefixWords : Prop :=
  ∀ (p : BitVec 24) (x : BitVec 18) (neg : BitVec 1) (pg : BitVec 4),
    let joins := fun (i : Instr) (kind payload : Nat) =>
      Does i (fun _ ws => { cls := 31, ximm := true, xop := some 0xFFFFFF, guard := true
                            bad := (prefixOf ws kind).isSome || decide (3 ≤ ws.length) }) fun v s =>
        setWave s v.wid { v.w with
          chain := some ⟨v.pc, v.iss, v.pfx ++ [BitVec.ofNat 32 (0xF8000000 + kind * 2 ^ 24 + payload)]⟩ }
    joins (.ximm p) 0 p.toNat ∧
    joins (.xop x) 1 (x.toNat * 64) ∧
    joins (.hint p) 2 p.toNat ∧
    joins (.guard neg pg) 3 (neg.toNat * 16 + pg.toNat)

/-- R45, R62, R100, R104, Table 7.5: the checks at issue trap at the chain's address, in order, before any effect; a word
that encodes no instruction raises ILLEGAL; and one instance of each of the first five checks. Which of several dead
sources is reported (log 24), and that S0 may be dead (log 63), are the model's. -/
def Obligations.IssueChecksTrap : Prop :=
  (∀ (x : BitVec 32) s wid w pc iss ws,
    Stands s wid w pc iss ws → w.priv = .s ∨ w.log = [] →
    exec (.illegalEncoding x) s = .next (takeTrap s wid ⟨cILLEGAL, 0, pc, pc, 0, false⟩)) ∧
  (∀ info body s wid w pc iss ws c a,
    Stands s wid w pc iss ws → w.priv = .s ∨ w.log = [] → w.reserved ((info w ws).rs ++ (info w ws).ws) = false →
    issueCheck w (info w ws) ws (samples w ws) = some (c, a) →
    issue s info body = takeTrap s wid ⟨c, 0, pc, pc, a, false⟩) ∧
  (∀ (g : BitVec 3) (d a b : BitVec 7) s wid w pc iss,
    Stands s wid w pc iss [] → w.log = [] → w.dues = [] →
    let raises := fun (i : Instr) (cause : Nat) (taddr : DWord) =>
      exec i s = .next (takeTrap s wid ⟨cause, 0, pc, pc, taddr, false⟩)
    let held := w.holdsV d.toNat = true ∧ w.holdsV a.toNat = true ∧ w.holdsV b.toNat = true
    (¬ held → raises (.vaddI32 g d a b) 0x01 0) ∧
    (w.priv = .u → raises .ereturn 0x02 0) ∧
    (held → w.role = 0 ∨ w.role = 1 → raises (.vaddI32 g d a b) 0x03 0) ∧
    (held → w.role = 2 ∨ w.role = 3 → w.priv = .u → w.mode.getLsbD 4 = true → w.deadV.getLsbD a.toNat = true →
      raises (.vaddI32 g d a b) 0x10 (a.setWidth 64)) ∧
    (held → w.role = 2 ∨ w.role = 3 → w.mode.getLsbD 4 = false → 5 < w.sampledRm none →
      raises (.vfaddF32 g d a b) 0x06 0))

/-! ### Memory (spec/11) -/

/-- R176, R180, R183, R185, R187, R191, R197: the addresses of a vector memory instruction's lanes, and of an append. One
with no active lane only goes on, once the operand log has room; one whose checks pass and whose lanes are all reached
performs in them and goes on. That the lanes perform in one step is the model's choice (log 67). -/
def Obligations.VectorMemoryPerforms : Prop :=
  ∀ r ∈ vectorMemory, ∀ (g : BitVec 3) (vt vo : BitVec 7) (sp : BitVec 5) s wid w pc iss ws,
    let i := mvInfo r.2.1 r.2.2.2 g vt vo sp w ws
    let v := sees wid w pc iss ws i
    let e := v.mvEntry r.2.1 r.2.2.1 r.2.2.2 g vt vo sp
    (∀ l, l < 32 → e.addr r.2.2.2 l =
      w.readS64 (2 * sp.toNat) + (if r.2.1 = 23 then 0 else (w.vlane vo.toNat l).signExtend 64) +
        (match prefixOf ws 0 with
          | none => 0
          | some p => (BitVec.ofNat 24 p).signExtend 64)) ∧
    (Stands s wid w pc iss ws → Passes w i ws →
      (v.e = 0 → w.priv = .s ∨ w.log.length < 4 → exec (r.1 g vt vo sp) s = .next (completed s i v id)) ∧
      (∀ ps, v.e ≠ 0 → reaches s v e r.2.2.2 vt.toNat ps →
        exec (r.1 g vt vo sp) s =
          .next (completedIn (performMem s wid (rootOf s w) e r.2.2.2 vt.toNat vo.toNat ps) i v)))

/-! ### Rounding (spec/05) -/

/-- R84 to R87: an exact value that a format holds keeps its encoding and raises no flag. One between two neighbours a < x
< b goes to the neighbour that its mode names, with the sign of x: the nearer one, and on a tie the even one (RNE) or
the one farther from zero (RNA), the one nearer zero, a, b, or under RSD b when h < floor(2^24 (x - a) / (b - a)); it
raises NX, and UF where x is tiny. FTZ replaces a tiny result by a zero of its sign with UF and NX. One beyond the
greatest finite magnitude M, with N the value one step farther, keeps M with NX alone where its mode takes M from
between M and N, and else overflows as Table 5.12 says; under RSD by the neighbour chosen on the grid that |x| would
have without the limit. Which overflows set SAT is a reading (log 25). -/
def Obligations.RoundingFollowsTheModes : Prop :=
  ∀ f ∈ [fp64, fp32, f19, bf16, fp16, e4m3, e5m2, e3m2, e2m3, e2m1], ∀ (v : REnv) (neg : Bool) (m : Nat) (e : Int),
    0 < m → v.rm ≤ 5 → v.sat ≤ 2 →
    let x := (XVal.fin neg m e false).rat
    let r := roundTo f v (.fin neg m e false)
    let val := fun c => (decodeFloat f c).rat
    let finite := fun c => c < 2 ^ (f.eb + f.mb + 1) ∧ (decodeFloat f c).isNan = false ∧ (decodeFloat f c).isInf = false
    let tiny := |x| < (2 : ℚ) ^ f.emin
    (v.ftz = true → tiny → r = ⟨f.signed neg 0, fUF ||| fNX⟩) ∧
    (¬ (v.ftz = true ∧ tiny) → ∀ c, finite c → val c = x → r = ⟨c, 0⟩) ∧
    (¬ (v.ftz = true ∧ tiny) → ∀ a b, finite a → finite b → val a < x → x < val b →
      (∀ c, finite c → val c ≤ val a ∨ val b ≤ val c) →
      let nearB := val b - x < x - val a
      let tie := val b - x = x - val a
      let toB := match v.rm with
        | 0 => nearB ∨ (tie ∧ b % 2 = 0)
        | 1 => |val b| < |val a|
        | 2 => False
        | 3 => True
        | 4 => nearB ∨ (tie ∧ |val a| < |val b|)
        | _ => (v.h : ℤ) < ⌊(2 : ℚ) ^ 24 * (x - val a) / (val b - val a)⌋
      finite r.bits ∧ r.bits / 2 ^ (f.eb + f.mb) = (if neg then 1 else 0) ∧ (toB → val r.bits = val b) ∧
        (¬ toB → val r.bits = val a) ∧ (tiny → r.flags = fNX ||| fUF) ∧ (¬ tiny → r.flags = fNX)) ∧
    (let M := val f.maxMag
     let N := M + (M - val (f.maxMag - 1))
     let part := Int.fract (|x| / (2 : ℚ) ^ (Int.log 2 |x| - f.mb))
     let choosesB := part ≠ 0 ∧ (v.h : ℤ) < ⌊(2 : ℚ) ^ 24 * (if neg then 1 - part else part)⌋
     let beyond := N ≤ |x| ∨ (match v.rm with
       | 0 => N - |x| < |x| - M ∨ (N - |x| = |x| - M ∧ f.maxMag % 2 = 1)
       | 1 => False
       | 2 => neg = true
       | 3 => neg = false
       | 4 => N - |x| ≤ |x| - M
       | _ => (neg = false ↔ choosesB))
     M < |x| →
       (¬ beyond → r = ⟨f.signed neg f.maxMag, fNX⟩) ∧
       (beyond → r =
         if f.special = .none ∨ v.sat = 1 ∨ (f.special = .ieee ∧ v.sat = 0 ∧
             (v.rm = 1 ∨ (v.rm = 2 ∧ neg = false) ∨ (v.rm = 3 ∧ neg = true) ∨
               (v.rm = 5 ∧ (choosesB ↔ neg = true)))) then
           ⟨f.signed neg f.maxMag, fSAT ||| fOF ||| fNX⟩
         else if f.special = .nanOnly ∨ v.sat = 2 then ⟨f.nanBits, fOF ||| fNX⟩
         else ⟨f.signed neg f.infMag, fOF ||| fNX⟩))

/-! ### Checks and results of memory instructions (spec/11) -/

/-- R182, R188 and Table 11.4: a memory instruction that fails a check traps with the cause and lane of the first one that
fails; INFO[5] tells a write, INFO[6] a scalar access, and SR.TADDR is that lane's address. The checks, each reporting
its lowest failing lane: BADTAG of vpool (R187), ALIGN of a misaligned address (R179) or a bad aappl length, ILLEGAL
of an aappl length that names a register not held, APERTURE (R178), and POOLOVF of a value outside its anchor's range
(R306). -/
def Obligations.MemoryChecksTrap : Prop :=
  (∀ r ∈ vectorMemory, ∀ (g : BitVec 3) (vt vo : BitVec 7) (sp : BitVec 5) s wid w pc iss ws c l,
    let i := mvInfo r.2.1 r.2.2.2 g vt vo sp w ws
    let v := sees wid w pc iss ws i
    let e := v.mvEntry r.2.1 r.2.2.1 r.2.2.2 g vt vo sp
    Stands s wid w pc iss ws → Passes w i ws → v.e ≠ 0 → mayAccess s v r.2.2.2 → w.priv = .u →
    memCheck s w e r.2.2.2 vt.toNat = some (c, l) →
    exec (r.1 g vt vo sp) s = .next (takeTrap s wid
      ⟨c, l + (if r.2.1 = 18 then 0 else 32), pc, pc, e.addr r.2.2.2 l, false⟩)) ∧
  (∀ r ∈ vectorMemory, ∀ (g : BitVec 3) (vt vo : BitVec 7) (sp : BitVec 5) s wid w pc iss ws,
    let v := sees wid w pc iss ws (mvInfo r.2.1 r.2.2.2 g vt vo sp w ws)
    let e := v.mvEntry r.2.1 r.2.2.1 r.2.2.2 g vt vo sp
    let op := (w.ptag.extractLsb' 0 4).toNat
    let wide := op = 2 ∨ op = 14
    let len := fun l => (w.vlane vo.toNat l).toNat
    let n := r.2.2.2.bytes
    let tagBad := r.2.1 = 21 ∧ (op = 0 ∨ (wide ∧ n = 4) ∨ (¬ wide ∧ n = 8))
    let misaligned := fun l => if r.2.1 = 23 then r.2.2.1 = 2 ∧ (len l % 4 ≠ 0 ∨ 64 < len l)
      else (e.addr r.2.2.2 l).toNat % n ≠ 0
    let missing := fun l => r.2.1 = 23 ∧ r.2.2.1 = 2 ∧ ∃ k, k < len l / 4 ∧ w.holdsV (vt.toNat + k) = false
    let outside := fun l =>
      let a := (e.addr r.2.2.2 l).toNat
      ¬ (a < 0xFFFF800000000000 ∨ (r.2.1 ≤ 20 ∧ 0xFFFF800000000000 ≤ a ∧ a < 0xFFFF800001400000 ∧
          spadTarget s w.gang (a - 0xFFFF800000000000) n ≠ .bad) ∨
        (r.2.1 ≤ 20 ∧ 0xFFFF900000000000 ≤ a ∧ a < 0xFFFF900000004000))
    let beyond := fun l => r.2.1 = 21 ∧ (op = 13 ∨ op = 14) ∧ poolValue op (w.ptag.extractLsb' 4 8).toInt
      (if n = 8 then (w.vlane64 vt.toNat l).toNat else (w.vlane vt.toNat l).toNat) = none
    let lowest := fun (q : Nat → Prop) (l : Nat) => l ∈ lanesOf v.e ∧ q l ∧ ∀ k ∈ lanesOf v.e, q k → l ≤ k
    let no := fun (q : Nat → Prop) => ∀ l ∈ lanesOf v.e, ¬ q l
    let check := memCheck s w e r.2.2.2 vt.toNat
    (tagBad → ∀ l, lowest (fun _ => True) l → check = some (0x0E, l)) ∧
    (¬ tagBad →
      (∀ l, lowest misaligned l → check = some (0x0C, l)) ∧
      (no misaligned →
        (∀ l, lowest missing l → check = some (0x01, l)) ∧
        (no missing →
          (∀ l, lowest outside l → check = some (0x0D, l)) ∧
          (no outside → (∀ l, lowest beyond l → check = some (0x13, l)) ∧ (no beyond → check = none)))))) ∧
  (∀ r ∈ scalarMemory, ∀ (d : BitVec 7) (sp : BitVec 5) (off : BitVec 12) s wid w pc iss ws,
    let v := sees wid w pc iss ws (msInfo r.2.2 d sp w ws)
    let e := v.msEntry r.2.1 r.2.2 d sp off
    let a := (e.addr r.2.2 0).toNat
    let inside := a < 0xFFFF800000000000 ∨ (0xFFFF800000000000 ≤ a ∧ a < 0xFFFF800001400000 ∧
      spadTarget s w.gang (a - 0xFFFF800000000000) r.2.2.bytes ≠ .bad)
    let check := memCheck s w e r.2.2 d.toNat
    (a % r.2.2.bytes ≠ 0 → check = some (0x0C, 0)) ∧
    (a % r.2.2.bytes = 0 → (¬ inside → check = some (0x0D, 0)) ∧ (inside → check = none))) ∧
  (∀ r ∈ scalarMemory, ∀ (d : BitVec 7) (sp : BitVec 5) (off : BitVec 12) s wid w pc iss ws c l,
    let i := msInfo r.2.2 d sp w ws
    let v := sees wid w pc iss ws i
    let e := v.msEntry r.2.1 r.2.2 d sp off
    Stands s wid w pc iss ws → Passes w i ws → mayAccess s v r.2.2 → w.priv = .u →
    memCheck s w e r.2.2 d.toNat = some (c, l) →
    exec (r.1 d sp off) s = .next (takeTrap s wid
      ⟨c, 64 + (if r.2.2.writes then 32 else 0), pc, pc, v.w.readS64 (2 * sp.toNat) + (match v.ximm with
        | none => off.signExtend 64
        | some p => (BitVec.ofNat 24 p ++ off).signExtend 64), false⟩))

/-- R193, R194, R196: in U mode, a memory instruction, vector or scalar, that passes its checks but meets a fault enters
the operand log with the lane, 0 of a scalar one, and the cause (0 where it can be resolved), performs nothing, marks
nothing dead and goes on; so does one that passes its checks while the log holds entries. The walks of an access that
meets a fault merge the table lines that they read (spec/17 R304). R197: one that finds four entries does not issue.
An access that reaches a page under migration stalls, and so does one of a wave in S mode that a page on its way would
resolve (Table 11.9); in S mode one that cannot be resolved traps, and the log stays as it is. -/
def Obligations.FaultsEnterTheLog : Prop :=
  let enters := fun (instr : Instr) (i : OpInfo) (v : Env) (e : LogEntry) (op : MemOp) (d : Nat) (s : State) (wid : Nat)
      (w : Wave) (pc : DWord) (iss : Word) (ws : List Word) (acts : Prop) =>
    let logged := fun (t : State) (e : LogEntry) => Host.Outcome.next (σ := State) (φ := Fault) (ρ := Refusal)
      (settleIssue (setWave t wid { w with log := w.log ++ [{ e with since := s.time }] }) wid
        (closing i v false fun _ => v.next))
    let walked := walkEntry s w (rootOf s w) e op
    let reached := reachAll s w (rootOf s w) e op
    let waits := exec instr s = .next { s with wants := entryVAs s w e op }
    Stands s wid w pc iss ws → Passes w i ws →
    (w.priv = .u → 4 ≤ w.log.length → exec instr s = .next s) ∧
    (acts → (op.isStore = true → storeCount s wid w < 31) → memCheck s w e op d = none →
      (w.priv = .u → w.log.length < 4 →
        (w.log ≠ [] → exec instr s = logged s e) ∧
        (∀ l va, w.log = [] → reached = .resolvable l va → exec instr s = logged walked { e with flane := l, fva := va }) ∧
        (∀ c l va, w.log = [] → reached = .fail c l va →
          exec instr s = logged walked { e with cause := c, flane := l, fva := va })) ∧
      (w.priv = .s ∨ w.log = [] → reached = .stall → waits) ∧
      (w.priv = .s →
        (∀ l va, reached = .resolvable l va → waits) ∧
        (∀ c l va, reached = .fail c l va → exec instr s = .next (takeTrap walked wid
          ⟨c, (if op.isScalar then 64 else l) + (if op.writes then 32 else 0), pc, pc, va, false⟩))))
  (∀ r ∈ vectorMemory, ∀ (g : BitVec 3) (vt vo : BitVec 7) (sp : BitVec 5) s wid w pc iss ws,
    let i := mvInfo r.2.1 r.2.2.2 g vt vo sp w ws
    let v := sees wid w pc iss ws i
    let e := v.mvEntry r.2.1 r.2.2.1 r.2.2.2 g vt vo sp
    enters (r.1 g vt vo sp) i v e r.2.2.2 vt.toNat s wid w pc iss ws (v.e ≠ 0)) ∧
  (∀ r ∈ scalarMemory, ∀ (d : BitVec 7) (sp : BitVec 5) (off : BitVec 12) s wid w pc iss ws,
    let i := msInfo r.2.2 d sp w ws
    let v := sees wid w pc iss ws i
    enters (r.1 d sp off) i v (v.msEntry r.2.1 r.2.2 d sp off) r.2.2 d.toNat s wid w pc iss ws True)

/-- R183: the values of the loads. Where the lanes reach plain memory, word k of Vt in an active lane is bits [32k +
31:32k] of the bytes at its place, little-endian (spec/00 R4), zero- or sign-extended; the other lanes, all other
registers but for the dead marks of a HINT (R111), SR.FLAGS, every byte of a scratchpad and every byte of memory keep
their values. A read of a table's line may merge it (spec/17 R304), which changes no byte that is read. -/
def Obligations.VectorLoadValues : Prop :=
  ∀ r ∈ vectorMemory, ∀ n sx, r.2.2.2 = .load n sx →
  ∀ (g : BitVec 3) (vt vo : BitVec 7) (sp : BitVec 5) s wid w pc iss ws ps,
    let i := mvInfo r.2.1 r.2.2.2 g vt vo sp w ws
    let v := sees wid w pc iss ws i
    let e := v.mvEntry r.2.1 r.2.2.1 r.2.2.2 g vt vo sp
    let bits := fun (p : Place) => leNat (p.locs.map (locByte s))
    let value := fun (p : Place) => if sx then signed (8 * n) (bits p) else (bits p : Int)
    let marked := w.hintMarks i v.e ws
    s.memoryOk → s.spadsOk → Stands s wid w pc iss ws → Passes w i ws → v.e ≠ 0 →
    reaches s v e r.2.2.2 vt.toNat ps →
    (∀ p ∈ ps, plainPlace s p.2) →
    ∃ t u, exec (r.1 g vt vo sp) s = .next t ∧ getWave t wid = some u ∧
      (∀ p ∈ ps, ∀ k, k < max 1 (n / 4) →
        u.vlane (vt.toNat + k) p.1 = BitVec.ofInt 32 (value p.2 / 2 ^ (32 * k))) ∧
      (∀ k l, k < max 1 (n / 4) → l < 32 → bitAt v.e l = false → u.vlane (vt.toNat + k) l = w.vlane (vt.toNat + k) l) ∧
      (∀ m, (m < vt.toNat ∨ vt.toNat + max 1 (n / 4) ≤ m) → u.readV m = marked.readV m) ∧
      u.s = w.s ∧ u.deadS = marked.deadS ∧ u.p = w.p ∧ u.t = w.t ∧ u.flags = w.flags ∧ u.mode = w.mode ∧
      u.log = w.log ∧ t.gangs = s.gangs ∧ t.hostL2 = s.hostL2 ∧ t.hostLines = s.hostLines ∧
      (∀ a, deviceLine s a → viewByte t a = viewByte s a) ∧ (s.pool = [] → t.mem = s.mem ∧ t.pool = [])

/-- R181, R183: the bytes a store writes. Where the lanes reach plain memory, each byte takes the value of the highest
lane that writes it; every other byte of memory and of the scratchpads keeps its value, but for the entries of the
page tables that the store's pages came through, whose dirty fields it may set (spec/15 R269, R270); no register
changes but for the dead marks of a HINT (R111). A 128-bit operand with a dead register is read register by register
(log 66). -/
def Obligations.VectorStoreBytes : Prop :=
  ∀ r ∈ vectorMemory, ∀ n, r.2.2.2 = .store n →
  ∀ (g : BitVec 3) (vt vo : BitVec 7) (sp : BitVec 5) s wid w pc iss ws ps,
    let i := mvInfo r.2.1 r.2.2.2 g vt vo sp w ws
    let v := sees wid w pc iss ws i
    let e := v.mvEntry r.2.1 r.2.2.1 r.2.2.2 g vt vo sp
    let marked := w.hintMarks i v.e ws
    s.memoryOk → s.spadsOk → Stands s wid w pc iss ws → Passes w i ws → v.e ≠ 0 →
    reaches s v e r.2.2.2 vt.toNat ps →
    (∀ p ∈ ps, plainPlace s p.2) →
    ∃ t u, exec (r.1 g vt vo sp) s = .next t ∧ getWave t wid = some u ∧
      (∀ l p k x, (l, p) ∈ ps → p.locs[k]? = some x → (∀ q ∈ ps, l < q.1 → x ∉ q.2.locs) →
        (∀ j, k < j → p.locs[j]? ≠ some x) → clearOf ps x →
        locView t x =
          if n = 8 then (w.vlane64 vt.toNat l).extractLsb' (8 * k) 8
          else (w.vlane (vt.toNat + k / 4) l).extractLsb' (8 * (k % 4)) 8) ∧
      (∀ x, (∀ q ∈ ps, x ∉ q.2.locs) → clearOf ps x → deviceLoc s x → locView t x = locView s x) ∧
      u.v = w.v ∧ u.deadV = marked.deadV ∧ u.s = w.s ∧ u.deadS = marked.deadS ∧ u.p = w.p ∧ u.t = w.t ∧
      u.flags = w.flags ∧ u.mode = w.mode ∧ u.log = w.log ∧ (s.pool = [] → t.pool = [])

/-- R184 to R187, R191, R303, R309: the results of class 20, 21 and 23. An atomic goes lane after lane, ascending, each
reading, writing and returning the old value in one access, its flags ORed into SR.FLAGS; every other register and
byte keeps its value, but for dirty fields and the dead marks of a HINT. A vpool changes no register; each lane
updates its core's partial of its element, one after another, in a line pooled under its tag, or newly pooled; a line
under another tag is merged first. An append reserves its total at the reserve tail, gives each lane of E the offset
of its bytes in Vo:Vo+1, and its bytes stand in flight, to land by their own event. The order of the lanes in one step
(log 67), and what an append names its segment by (log 68), are the model's. -/
def Obligations.AtomicsPoolsAndAppends : Prop :=
  ∀ r ∈ vectorMemory, ∀ (g : BitVec 3) (vt vo : BitVec 7) (sp : BitVec 5) s wid w pc iss ws ps,
    let i := mvInfo r.2.1 r.2.2.2 g vt vo sp w ws
    let v := sees wid w pc iss ws i
    let e := v.mvEntry r.2.1 r.2.2.1 r.2.2.2 g vt vo sp
    let marked := w.hintMarks i v.e ws
    let kept := fun (u : Wave) => u.s = w.s ∧ u.deadS = marked.deadS ∧ u.p = w.p ∧ u.t = w.t ∧ u.mode = w.mode ∧
      u.log = w.log
    let one := fun l => (w.vlane vt.toNat l).toNat
    let pair := fun l => (w.vlane64 vt.toNat l).toNat
    s.memoryOk → s.spadsOk → Stands s wid w pc iss ws → Passes w i ws → v.e ≠ 0 →
    reaches s v e r.2.2.2 vt.toNat ps →
    (∀ a, r.2.2.2 = .atom a → (∀ p ∈ ps, plainPlace s p.2 ∧ p.2.locs.Nodup) → apartFromLeaves ps →
      let new := fun (l m : Nat) => (match a with
        | .add n => ((m + if n = 8 then pair l else one l) % 2 ^ (8 * n), 0)
        | .fadd =>
          let env : REnv := ⟨v.rm, 0, v.ftz, if v.rm = 5 then rsdHash w.seed l v.seq else 0⟩
          rounded fp32 env (opAdd env (inputFloat fp32 v.ftz m) (inputFloat fp32 v.ftz (one l)))
        | .smin => (if signed 32 (one l) < signed 32 m then one l else m, 0)
        | .smax => (if signed 32 m < signed 32 (one l) then one l else m, 0)
        | .umin => (min m (one l), 0)
        | .umax => (max m (one l), 0)
        | .fmin => minMaxBits fp32 false false m (one l)
        | .fmax => minMaxBits fp32 false true m (one l)
        | .and => (m &&& one l, 0)
        | .or => (m ||| one l, 0)
        | .xor => (m ^^^ one l, 0)
        | .xchg n => (if n = 8 then pair l else one l, 0)
        | .cas n => (if n = 8 then (if m = pair l then (w.vlane64 (vt.toNat + 2) l).toNat else m)
            else (if m = one l then (w.vlane (vt.toNat + 1) l).toNat else m), 0) : Nat × Word)
      let c := atomicChain new ps (locView s)
      ∃ t u, exec (r.1 g vt vo sp) s = .next t ∧ getWave t wid = some u ∧ kept u ∧ u.flags = w.flags ||| c.2.2 ∧
        (∀ x, clearOf ps x → deviceLoc s x → locView t x = c.1 x) ∧
        (∀ q ∈ c.2.1, ∀ k, k < a.bytes / 4 → u.vlane (vt.toNat + k) q.1 = BitVec.ofNat 32 (q.2 / 2 ^ (32 * k))) ∧
        (∀ k l, k < a.bytes / 4 → l < 32 → bitAt v.e l = false →
          u.vlane (vt.toNat + k) l = w.vlane (vt.toNat + k) l) ∧
        (∀ m, (m < vt.toNat ∨ vt.toNat + a.bytes / 4 ≤ m) → u.readV m = marked.readV m)) ∧
    (∀ n, r.2.2.2 = .pool n →
      let op := (w.ptag.extractLsb' 0 4).toNat
      let anchor := (w.ptag.extractLsb' 4 8).toInt
      let val := fun l => (poolValue op anchor (if n = 8 then pair l else one l)).getD 0
      let key := fun (pa : Nat) => waveCore s wid * 32 + pa % 128 / n
      let tagged := fun (x : PoolLine) => x.op = op ∧ x.anchor = anchor
      let at' := fun (p : Nat × Place) => (p.2.phys).getD 0
      let mine := fun (line : Nat) => ps.filter fun p => at' p / 128 == line
      (∀ p ∈ ps, ∀ m ∈ p.2.marks, pDirty m.2.1 = true ∧ pDgen m.2.1 = regionGen s (waveRegion s w) % 16 ∧
        ∀ a ∈ walkReads s m.2.2 4 0 (rootOf s w).toNat, fget s.pool (a / 128) = none ∧ mine (a / 128) = []) →
      ((∀ p ∈ ps, ∀ x, fget s.pool (at' p / 128) = some x → tagged x) →
        ∃ t u, exec (r.1 g vt vo sp) s = .next t ∧ getWave t wid = some u ∧ kept u ∧ u.flags = w.flags ∧
          u.v = w.v ∧ u.deadV = marked.deadV ∧ t.mem = s.mem ∧ t.gangs = s.gangs ∧
          (∀ line, mine line = [] → fget t.pool line = fget s.pool line) ∧
          (∀ line, mine line ≠ [] → ∃ x, fget t.pool line = some x ∧ tagged x ∧ ∀ k, fget x.parts k =
            ((mine line).filter fun p => key (at' p) == k).foldl (fun o p => some (match o with
              | none => val p.1
              | some y => poolCombine op y (val p.1))) ((fget s.pool line).bind fun x => fget x.parts k))) ∧
      (∀ l p x, ps = [(l, p)] → fget s.pool (at' (l, p) / 128) = some x → ¬ tagged x →
        ∃ t, exec (r.1 g vt vo sp) s = .next t ∧ t.mem = (mergedMem s (at' (l, p) / 128) x).1 ∧
          fget t.pool (at' (l, p) / 128) = some ⟨op, anchor, [(key (at' (l, p)), val l)]⟩)) ∧
    (∀ k seg, r.2.1 = 23 →
      let size := fun l => if r.2.2.1 = 0 then 4 else if r.2.2.1 = 1 then 16 else (w.vlane vo.toNat l).toNat
      let total := sumBy size (lanesOf v.e)
      let off := fun l => seg.reserve + sumBy size ((lanesOf v.e).filter (· < l))
      appendTarget s (rootOf s w) (e.base + e.disp).toNat total (lowLane v.e) = .ok (k, seg) →
      ∃ t u, exec (r.1 g vt vo sp) s = .next t ∧ getWave t wid = some u ∧ kept u ∧ u.flags = w.flags ∧
        t.mem = s.mem ∧ t.pool = s.pool ∧ t.gangs = s.gangs ∧
        t.segments = fset s.segments k { seg with
          reserve := seg.reserve + total
          blocks := seg.blocks ++ ((lanesOf v.e).filter fun l => size l != 0).map fun l =>
            ⟨off l, (numsFrom 0 (size l)).map fun j =>
              (w.vlane (vt.toNat + j / 4) l).extractLsb' (8 * (j % 4)) 8, false, wid, s.serial⟩ } ∧
        (∀ l, l < 32 → u.vlane vo.toNat l = (if bitAt v.e l then BitVec.ofNat 32 (off l) else w.vlane vo.toNat l) ∧
          u.vlane (vo.toNat + 1) l =
            (if bitAt v.e l then BitVec.ofNat 32 (off l / 2 ^ 32) else w.vlane (vo.toNat + 1) l)) ∧
        (∀ m, (m < vo.toNat ∨ vo.toNat + 2 ≤ m) → u.readV m = marked.readV m))

/-- R185, R189, R190: a scalar memory instruction whose checks pass and whose address is reached performs there once and
goes on; sprefetch only goes on. What they leave on plain memory: a load its value in Sd, or Sd:Sd+1; a store its
bytes; saadd.b64 and scas.b64 the old value in the pair and the new one in memory. Every other register, but for the
dead marks of a HINT (R111), and every other byte of memory and of the scratchpads, but for dirty fields, keeps its
value. -/
def Obligations.ScalarMemoryResults : Prop :=
  (∀ r ∈ scalarMemory, ∀ (d : BitVec 7) (sp : BitVec 5) (off : BitVec 12) s wid w pc iss ws ps,
    let i := msInfo r.2.2 d sp w ws
    let v := sees wid w pc iss ws i
    let e := v.msEntry r.2.1 r.2.2 d sp off
    Stands s wid w pc iss ws → Passes w i ws → reaches s v e r.2.2 d.toNat ps →
    exec (r.1 d sp off) s = .next (completedIn (performMem s wid (rootOf s w) e r.2.2 d.toNat 0 ps) i v)) ∧
  (∀ (sp : BitVec 5) (off : BitVec 12),
    let i : OpInfo := { cls := 22, rs := [.s (2 * sp.toNat) 2], ximm := true, deadB := [.s (2 * sp.toNat) 2] }
    Does (.sprefetch sp off) (fun _ _ => i) fun v s => completed s i v id) ∧
  (∀ (d : BitVec 7) (sp : BitVec 5) (off : BitVec 12) s wid w pc iss ws p,
    let old := leNat (p.locs.map (locByte s))
    let pair := fun (k : Nat) => (w.readS64 k : DWord)
    let at' := fun (i : Instr) (op : MemOp) (f written : Nat) (value : Nat) (stored : Option DWord) =>
      let o := msInfo op d sp w ws
      let v := sees wid w pc iss ws o
      let marked := w.hintMarks o v.e ws
      s.memoryOk → s.spadsOk → Stands s wid w pc iss ws → Passes w o ws →
      reaches s v (v.msEntry f op d sp off) op d.toNat [(0, p)] → plainPlace s p → p.locs.Nodup →
      p.locs.length = op.bytes → apartFromLeaves [(0, p)] →
      ∃ t u, exec i s = .next t ∧ getWave t wid = some u ∧
        (∀ k, k < written → u.readS (d.toNat + k) =
          if d.toNat + k = 0 then 0 else BitVec.ofNat 32 (value / 2 ^ (32 * k))) ∧
        (∀ k, (k < d.toNat ∨ d.toNat + written ≤ k) → u.readS k = marked.readS k) ∧
        u.v = w.v ∧ u.deadV = marked.deadV ∧ u.p = w.p ∧ u.t = w.t ∧ u.flags = w.flags ∧ u.mode = w.mode ∧
        (∀ x, stored = some x → leNat (p.locs.map (locView t)) = x.toNat % 2 ^ (8 * op.bytes)) ∧
        (∀ x, (stored ≠ none → x ∉ p.locs) → clearOf [(0, p)] x → deviceLoc s x → locView t x = locView s x) ∧
        (stored = none → s.pool = [] → t.mem = s.mem ∧ t.gangs = s.gangs)
    at' (.sldB32 d sp off) (.sload 4) 0 1 old none ∧
    at' (.sldB64 d sp off) (.sload 8) 1 2 old none ∧
    at' (.sstB32 d sp off) (.sstore 4) 2 0 0 (some ((w.readS d.toNat).setWidth 64)) ∧
    at' (.sstB64 d sp off) (.sstore 8) 3 0 0 (some (pair d.toNat)) ∧
    at' (.saaddB64 d sp off) (.satom (.add 8)) 4 2 old (some (BitVec.ofNat 64 old + pair d.toNat)) ∧
    at' (.scasB64 d sp off) (.satom (.cas 8)) 5 2 old
      (some (if BitVec.ofNat 64 old = pair d.toNat then pair (d.toNat + 2) else BitVec.ofNat 64 old)) ∧
    at' (.slduB32 d sp off) (.sload 4) 7 1 old none)

/-! ### Engines and synchronisation (spec/13) -/

/-- R203, R205, R209, R210: a copy instruction whose checks pass and whose context is not full is accepted: it takes the
next submission number and joins its context with the operand values as they are, and each named T register with ADV
is moved on by its KINC (R204). A full context holds the wave. ALIGN, then APERTURE, then the trap of a barrier offset
comes before that, with INFO[6] and the address or offset in SR.TADDR, and nothing is submitted. That td is checked
before ts, with SR.TADDR its BASE, is a reading (log 70), and so is how far the aperture reaches (log 61). -/
def Obligations.CopiesAreSubmitted : Prop :=
  ∀ (ctx : BitVec 3) (td ts : BitVec 5) (sl : BitVec 6) (sb : BitVec 5),
    let sub := fun (i : Instr) (fn : Nat) (td : BitVec 5) => ∀ s wid w pc iss ws gg c,
      let info := copyInfo fn ctx td ts sl sb w ws
      let v := sees wid w pc iss ws info
      let x := w.readS sl.toNat
      let rbytes := if x.extractLsb' 0 16 = 0 then 65536 else (x.extractLsb' 0 16).toNat
      let idx := w.readS64 (sl.toNat + 2)
      let D := w.readT td.toNat
      let S := w.readT ts.toNat
      let hasD := fn < 4
      let hasS := fn ≠ 2
      let strict := fn = 0 ∨ fn = 2 ∨ fn = 3
      let askew := fun (r : BitVec 128) => strict ∧ ¬ (tBase r % 4 = 0 ∧ tStride r % 4 = 0)
      let above := fun (r : BitVec 128) => 0xFFFF900000000000 ≤ tBase r
      let bar := w.readS sb.toNat
      let traps := fun (cause addr : Nat) => exec i s = .next (takeTrap s wid ⟨cause, 64, pc, pc, BitVec.ofNat 64 addr, false⟩)
      let op : EngOp := { blankOp v 24 fn with
        num := c.subm + 1
        bar := if sb = 0 then none else some bar
        ta := if hasD then D else 0, tb := if hasS then S else 0, shape := x
        pat := if fn = 2 then w.readS ts.toNat else 0, idx := if fn = 3 then idx else 0 }
      let named := (if hasD then [td.toNat] else []) ++ (if hasS then [ts.toNat] else [])
      Stands s wid w pc iss ws → Passes w info ws → fget s.gangs w.gang = some gg → gg.ctxs[ctx.toNat]? = some c →
      (hasD ∧ askew D → traps cALIGN (tBase D)) ∧
      (¬ (hasD ∧ askew D) → hasS ∧ askew S → traps cALIGN (tBase S)) ∧
      (¬ (hasD ∧ askew D) → ¬ (hasS ∧ askew S) → strict ∧ rbytes % 4 ≠ 0 → traps cALIGN (tBase D)) ∧
      (¬ (hasD ∧ askew D) → ¬ (hasS ∧ askew S) → ¬ (strict ∧ rbytes % 4 ≠ 0) →
       (fn = 3 ∧ idx.toNat % 4 ≠ 0 → traps cALIGN idx.toNat) ∧
       (¬ (fn = 3 ∧ idx.toNat % 4 ≠ 0) →
        (hasD ∧ above D → traps cAPERTURE (tBase D)) ∧
        (¬ (hasD ∧ above D) → hasS ∧ above S → traps cAPERTURE (tBase S)) ∧
        (¬ (hasD ∧ above D) → ¬ (hasS ∧ above S) →
         (∀ k, sb ≠ 0 → barTrap s w.gang bar = some k → traps k bar.toNat) ∧
         ((sb ≠ 0 → barTrap s w.gang bar = none) →
          (4 ≤ c.ops.length → exec i s = .next s) ∧
          (c.ops.length < 4 → exec i s = .next (completedIn (modWave (modGang s w.gang fun gg =>
          { gg with ctxs := gg.ctxs.modify ctx.toNat fun c => { c with
              subm := c.subm + 1, ops := c.ops ++ [{ op with num := c.subm + 1 }] } }) wid fun u =>
          named.foldl (fun u n => if tAdv (w.readT n) then
            u.writeT n ((w.readT n).extractLsb' 64 64 ++ moveAddr ((w.readT n).extractLsb' 0 64) (tKinc (w.readT n)))
          else u) u) info v))))))
    sub (.ccopy ctx td ts sl sb) 0 td ∧
    sub (.cblock ctx td ts sl sb) 1 td ∧
    sub (.cfill ctx td ts sl sb) 2 td ∧
    sub (.cgather ctx td ts sl sb) 3 td ∧
    sub (.cprefetch ctx ts sl sb) 4 0 ∧
    sub (.cpromote ctx ts sl sb) 5 0

/-- R46, R203, R205, R214, R215: a matrix instruction whose checks pass, whose issuing lanes agree on an allowed format
word and whose context is not full is accepted by E(4 + acc div 4), with the operand values as they are; a full
context holds the wave. Before that come, in this order, FMTDIV with the lanes that differ, ILLEGAL of a tile pair or
a scale register not held, BADFMT of the agreed word (R93) and BADRM, and then ALIGN, APERTURE and the trap of a
barrier offset (R205). What SR.TADDR names is log 70, how far the aperture reaches log 61. That the odd accumulator of
mloop.cx is found after the vote is a reading (log 98). -/
def Obligations.MatrixOperationsAreSubmitted : Prop :=
  ∀ (acc : BitVec 4) (ta tb sk vf : BitVec 5),
    let sub := fun (i : Instr) (m : MForm) (tb sk vf : BitVec 5) => ∀ s wid w pc iss ws gg c,
      let ta : BitVec 5 := if m.hasA then ta else 0
      let info := matrixInfo s m acc ta tb sk vf w ws
      let v := sees wid w pc iss ws info
      let vote := formatVote w iss vf.toNat
      let f := if m.hasFmt then vote.1.toNat else 0
      let x := w.readS sk.toNat
      let k := 4 + acc.toNat / 4
      let A := w.readT ta.toNat
      let B := w.readT tb.toNat
      let idx := w.readS64 (sk.toNat + 2)
      let rounds := m.hasFmt && opRounds m.fn f
      let scales := if m.loop then scaleReg (fwA f) ta.toNat ++ scaleReg (fwB f) tb.toNat else []
      let askew := fun (r : BitVec 128) => ¬ (tBase r % 4 = 0 ∧ tStride r % 4 = 0 ∧ (m.loop = true → tKinc r % 4 = 0))
      let above := fun (r : BitVec 128) => 0xFFFF900000000000 ≤ tBase r
      let traps := fun (cause info : Nat) (addr : Nat) =>
        exec i s = .next (takeTrap s wid ⟨cause, info, pc, pc, BitVec.ofNat 64 addr, false⟩)
      let split := m.hasFmt = true ∧ vote.2 ≠ 0
      let unheld := (m.hasFmt = true ∧ needsPair m.fn f = true ∧ ¬ (acc.toNat % 2 = 0 ∧ acc.toNat + 1 < accTiles s w)) ∨
        ∃ n ∈ scales, ¬ (n < w.tn ∧ n ≤ 31)
      let unfit := m.hasFmt = true ∧ ¬ (formatFieldsOk f = true ∧
        (if m.loop then loopFormatOk (m.fn == 2) f else drainFormatOk (m.fn == 4) f) = true)
      let badA := m.hasA = true ∧ askew A
      let badB := m.hasB = true ∧ m.fn ≠ 4 ∧ askew B
      let badI := m.fn = 1 ∧ idx.toNat % 4 ≠ 0
      let op : EngOp := { blankOp v 25 m.fn with
        acc := acc.toNat, bar := if m.fn = 7 ∧ sk ≠ 0 then some x else none
        rm := if rounds then v.rm else 0, ftz := rounds && v.ftz, sat := fwSat f
        ta := if m.hasA then A else 0, tb := if m.hasB then B else 0
        ta1 := if m.loop ∧ isMx (fwA f) then w.readT (ta.toNat + 1) else 0
        tb1 := if m.loop ∧ isMx (fwB f) then w.readT (tb.toNat + 1) else 0
        shape := if m.fn ≤ 4 then x else 0, idx := if m.fn = 1 then idx else 0, fmt := BitVec.ofNat 32 f
        seed := if rounds then w.seed else 0, seq := if rounds then v.seq else 0 }
      Stands s wid w pc iss ws → Passes w info ws → fget s.gangs w.gang = some gg → gg.ctxs[k]? = some c →
      (split → traps cFMTDIV 0 vote.2.toNat) ∧
      (¬ split → unheld → traps cILLEGAL 0 0) ∧
      (¬ split → ¬ unheld → unfit → traps cBADFMT 0 0) ∧
      (¬ split → ¬ unheld → ¬ unfit →
       (rounds = true ∧ 5 < v.rm → traps cBADRM 0 0) ∧
       ((rounds = true → v.rm ≤ 5) →
        (badA → traps cALIGN 64 (tBase A)) ∧
        (¬ badA → badB → traps cALIGN 64 (tBase B)) ∧
        (¬ badA → ¬ badB → badI → traps cALIGN 64 idx.toNat) ∧
        (¬ badA → ¬ badB → ¬ badI →
         (m.hasA = true ∧ above A → traps cAPERTURE 64 (tBase A)) ∧
         (¬ (m.hasA = true ∧ above A) → m.hasB = true ∧ above B → traps cAPERTURE 64 (tBase B)) ∧
         (¬ (m.hasA = true ∧ above A) → ¬ (m.hasB = true ∧ above B) →
          (∀ n, scales.find? (fun n => decide (above (w.readT n))) = some n → traps cAPERTURE 64 (tBase (w.readT n))) ∧
          ((∀ n ∈ scales, ¬ above (w.readT n)) →
           (∀ k, m.fn = 7 ∧ sk ≠ 0 → barTrap s w.gang x = some k → traps k 64 x.toNat) ∧
           ((m.fn = 7 ∧ sk ≠ 0 → barTrap s w.gang x = none) →
            (4 ≤ c.ops.length → exec i s = .next s) ∧
            (c.ops.length < 4 → exec i s = .next (completedIn (modWave (modGang s w.gang fun gg =>
          { gg with ctxs := gg.ctxs.modify k fun c => { c with
              subm := c.subm + 1, ops := c.ops ++ [{ op with num := c.subm + 1 }] } }) wid fun u =>
          (if m.loop then [ta.toNat, tb.toNat] else []).foldl (fun u n => if tAdv (w.readT n) then
            u.writeT n ((w.readT n).extractLsb' 64 64 ++
              moveAddr ((w.readT n).extractLsb' 0 64) (tKinc (w.readT n) * x.toNat))
          else u) u) info v))))))))
    sub (.mloop acc ta tb sk vf) ⟨0, true, true, true, true⟩ tb sk vf ∧
    sub (.mloopG acc ta tb sk vf) ⟨1, true, true, true, true⟩ tb sk vf ∧
    sub (.mloopCx acc ta tb sk vf) ⟨2, true, true, true, true⟩ tb sk vf ∧
    sub (.mdrain acc ta sk vf) ⟨3, true, false, true, false⟩ 0 sk vf ∧
    sub (.mdrainMx acc ta tb sk vf) ⟨4, true, true, true, false⟩ tb sk vf ∧
    sub (.mzero acc) ⟨5, false, false, false, false⟩ 0 0 0 ∧
    sub (.mload acc ta) ⟨6, true, false, false, false⟩ 0 0 0 ∧
    sub (.mprog acc sk) ⟨7, false, false, false, false⟩ 0 sk 0

/-- R48, R49, R225, R226: the barrier members, on a barrier offset that is within the cohort's windows and a multiple of
16. An arrival or an expectation is one update with the test: where the counts meet, the phase completes. R225: an
offset that is too great, misaligned or outside the windows traps, APERTURE, ALIGN, APERTURE in that order, with INFO
64 and the offset in SR.TADDR. That each half of the pair of barinit is a field of its own, dead or live by itself, is
the model's choice (log 96). -/
def Obligations.Barriers : Prop :=
  (∀ (d a b : BitVec 7) s wid w pc iss ws pl,
     let at' := fun (i : Instr) (info : OpInfo) (t : Env → State) =>
       Stands s wid w pc iss ws → Passes w info ws → barTrap s w.gang (w.readS a.toNat) = none →
       barPlace s w.gang (w.readS a.toNat) = some pl →
       exec i s = .next (completedIn (t (sees wid w pc iss ws info)) info (sees wid w pc iss ws info))
     let one := fun (n : BitVec 7) => RegRun.s n.toNat 1
     let x := readBarrier s pl
     let rb : List RegRun := if b = 0 then [] else [one b]
     let tested := fun (y : Barrier) =>
       if y.arr % 2 ^ 16 = y.aexp ∧ y.landed % 2 ^ 32 = y.bexp % 2 ^ 32 then
         (⟨(y.phase + 1) % 2 ^ 32, 0, 0, y.aexp, 0⟩ : Barrier) else y
     let phase := fun (t : State) => modWave t wid fun u => u.writeS d.toNat (BitVec.ofNat 32 x.phase)
     at' (.barinit a b)
       (exInfo 26 [one a, .s b.toNat 2] [] [one a] [.s b.toNat 2]
         (oddReg b || decide (65535 < (w.readS b.toNat).toNat) || (w.readS b.toNat).toNat == 0))
       (fun _ => writeBarrier s pl ⟨0, 0, (w.readS (b.toNat + 1)).toNat, (w.readS b.toNat).toNat, 0⟩) ∧
     at' (.bararrive d a b) (exInfo 26 ([one a] ++ rb) [one d] [one a] rb false)
       (fun _ => phase (writeBarrier s pl (tested { x with
         arr := (x.arr + if b = 0 then 1 else (w.readS b.toNat).toNat % 65536) % 65536 }))) ∧
     at' (.barexpect d a b) (exInfo 26 [one a, one b] [one d] [one a] [one b] false)
       (fun _ => phase (writeBarrier s pl (tested { x with bexp := (x.bexp + (w.readS b.toNat).toNat) % 2 ^ 32 }))) ∧
     at' (.barquery d a) (exInfo 26 [one a] [.s d.toNat 4] [one a] [] (decide (d.toNat % 4 ≠ 0)))
       (fun _ => modWave s wid fun u => (((u.writeS d.toNat (BitVec.ofNat 32 x.phase)).writeS (d.toNat + 1)
         (BitVec.ofNat 32 (x.aexp * 65536 + x.arr))).writeS (d.toNat + 2) (BitVec.ofNat 32 x.bexp)).writeS (d.toNat + 3)
         (BitVec.ofNat 32 x.landed))) ∧
  (∀ (d a b : BitVec 7) s wid w pc iss ws,
     let one := fun (n : BitVec 7) => RegRun.s n.toNat 1
     let rb : List RegRun := if b = 0 then [] else [one b]
     let B := w.readS a.toNat
     let cause := if B.extractLsb' 25 7 ≠ 0 then some 0x0D else if B.extractLsb' 0 4 ≠ 0 then some 0x0C
       else if spadTarget s w.gang B.toNat 16 = .bad ∨ 0x1400000 ≤ B.toNat then some 0x0D else none
     let traps := fun (i : Instr) (info : OpInfo) => ∀ c,
       Stands s wid w pc iss ws → Passes w info ws → cause = some c →
       exec i s = .next (takeTrap s wid ⟨c, 64, pc, pc, B.setWidth 64, false⟩)
     traps (.barinit a b) (exInfo 26 [one a, .s b.toNat 2] [] [one a] [.s b.toNat 2]
       (oddReg b || decide (65535 < (w.readS b.toNat).toNat) || (w.readS b.toNat).toNat == 0)) ∧
     traps (.bararrive d a b) (exInfo 26 ([one a] ++ rb) [one d] [one a] rb false) ∧
     traps (.barexpect d a b) (exInfo 26 [one a, one b] [one d] [one a] [one b] false) ∧
     traps (.barquery d a) (exInfo 26 [one a] [.s d.toNat 4] [one a] [] (decide (d.toNat % 4 ≠ 0))))

/-- R227, R230, R231, R232, R233: tlread, settle, fence.sys, flush, inval and clock. A flush or an inval is accepted with
the lines it covers, once its walks have merged the table lines they read (spec/17 R304), and reports in Sd when
FLUSH_DONE comes; a page that ends in no frame has none (log 87); a base or a length that is no multiple of 128 raises
ALIGN, and the base is the trap's address, the model's choice (log 102); settle holds while a count is above its
bound, and then nothing changes. clock reads the cycles since module reset; how much later a core began to count is
the model's free value (log 3), and a line of L2 may leave it at any step (log 21). -/
def Obligations.TimelinesFlushesAndClock : Prop :=
  (∀ (d a b : BitVec 7) (nl ns nc nm : BitVec 5),
     let one := fun (n : BitVec 7) => RegRun.s n.toNat 1
     let flush := fun (i : Instr) (discards : Bool) =>
       let info := exInfo 26 [.s a.toNat 2, one b] [one d] [.s a.toNat 2] [one b] (oddReg a)
       DoesWhen i (fun _ _ => info)
         (fun v _ => (v.w.readS64 a.toNat).toNat % 128 ≠ 0 ∨ (v.w.readS b.toNat).toNat % 128 ≠ 0)
         (fun v s => takeTrap s v.wid ⟨0x0C, 64, v.pc, v.pc, v.w.readS64 a.toNat, false⟩) ∧
       DoesWhen i (fun _ _ => info)
         (fun v _ => (v.w.readS64 a.toNat).toNat % 128 = 0 ∧ (v.w.readS b.toNat).toNat % 128 = 0) fun v s =>
         let base := (v.w.readS64 a.toNat).toNat
         let n := (v.w.readS b.toNat).toNat
         let t := settleWalks s (rootOf s v.w) base (if n = 0 then 0 else (base + n + 65535) / 65536 - base / 65536)
         let held := hostLinesOf t (rootOf s v.w) base n
         let ls := if discards then held
           else held.filter fun l => ((fget t.hostL2 l).map fun x => x.dirty != 0).getD false
         let t' := { t with flushes := fset t.flushes t.serial ⟨v.wid, ls, discards⟩, serial := t.serial + 1 }
         completedIn (if d = 0 then t' else modWave t' v.wid fun u =>
           { u with dues := u.dues ++ [⟨d.toNat, .flush t.serial⟩] }) info v
     (let info := fun (w : Wave) (_ : List Word) => exInfo 26 [one a] [.s d.toNat 2] [one a] []
         (oddReg d || decide (15 < (w.readS a.toNat).toNat))
       ∀ s wid w pc iss ws gg c, Stands s wid w pc iss ws → Passes w (info w ws) ws →
       fget s.gangs w.gang = some gg → gg.ctxs[(w.readS a.toNat).toNat % 8]? = some c →
       exec (.tlread d a) s = .next (completed s (info w ws) (sees wid w pc iss ws (info w ws)) fun u =>
         u.writeS64 d.toNat (BitVec.ofNat 64 (if (w.readS a.toNat).toNat < 8 then c.tl else c.subm)))) ∧
     (DoesWhen (.settle nl ns nc nm) (fun _ _ => exInfo 26 [] [] [] [] false)
       (fun v s => loadCount v.w ≤ nl.toNat ∧ storeCount s v.wid v.w ≤ ns.toNat ∧ engineCount s v.wid v.w 24 ≤ nc.toNat ∧
         engineCount s v.wid v.w 25 ≤ nm.toNat) fun v s => completed s (exInfo 26 [] [] [] [] false) v id) ∧
     (Does .fenceSys (fun _ _ => exInfo 26 [] [] [] [] false) fun v s =>
       completedIn (writeBackAll s) (exInfo 26 [] [] [] [] false) v) ∧
     flush (.flush d a b) false ∧
     flush (.inval d a b) true ∧
     (Does (.clock d) (fun _ _ => exInfo 26 [] [.s d.toNat 2] [] [] (oddReg d)) fun v s =>
       completed s (exInfo 26 [] [.s d.toNat 2] [] [] (oddReg d)) v fun u => u.writeS64 d.toNat (BitVec.ofNat 64
         (s.time / 5 - s.host.resetAt / 5 - Config.coreLag (((fget s.gangs v.w.gang).map Gang.core).getD 0))))) ∧
  (∀ (nl ns nc nm : BitVec 5) s wid w pc iss ws,
     Stands s wid w pc iss ws → Passes w (exInfo 26 [] [] [] [] false) ws →
     (nl.toNat < loadCount w ∨ ns.toNat < storeCount s wid w ∨ nc.toNat < engineCount s wid w 24 ∨
       nm.toNat < engineCount s wid w 25) →
     exec (.settle nl ns nc nm) s = .next s)

/-- R50, R228, R230: a wait whose members are satisfied or failed returns at once the status and the index of the lowest
such member, taking its event, once the words it waits on are read (spec/17 R304); otherwise, with a timeout of 0 or
in S mode, it returns TIMEOUT; otherwise its lanes park in one group with the deadline SR.TIME + T, or none. -/
def Obligations.Waits : Prop :=
  ∀ (d a : BitVec 7) (tmo : BitVec 6),
    let T := fun (w : Wave) => if tmo = 0 then (0xFFFFFFFFFFFFFFFF : DWord) else w.readS64 tmo.toNat
    let result := fun (v : Env) (s : State) (st idx : Nat) => modWave s v.wid fun u =>
      (u.writeS d.toNat (BitVec.ofNat 32 st)).writeS (d.toNat + 1) (BitVec.ofNat 32 idx)
    let on := fun (v : Env) (s : State) (m : WaitOn) =>
      let rg := waveRegion s v.w
      let s := settleWait s v.w m
      match waitResult s v.w (eventsFor s rg (waitRank s v.w v.iss)) m with
      | some r => result v (takeEvent s rg r.takes) r.st r.idx
      | none =>
        if T v.w = 0 ∨ v.w.priv = .s then result v s 9 0xFFFFFFFF
        else modWave s v.wid fun u => { u with
          lanes := laneIdx.map fun l => if bitAt v.iss l then .parked else u.lane l
          groups := u.groups ++ [⟨v.iss, m, if s.time / 12 % 2 ^ 64 + (T v.w).toNat < 2 ^ 64 - 1 then
            BitVec.ofNat 64 (s.time / 12 % 2 ^ 64 + (T v.w).toNat) else 0xFFFFFFFFFFFFFFFF, none⟩] }
    (Does (.wait d a tmo) (fun _ _ => waitInfo d a tmo 2) fun v s =>
      completedIn (on v s (.set (v.w.readS64 a.toNat))) (waitInfo d a tmo 2) v) ∧
    (Does (.waitInline d a tmo) (fun _ _ => waitInfo d a tmo 6) fun v s =>
      completedIn (match parseMember s v.w a.toNat with
        | none => result v s 12 0xFFFFFFFF
        | some m => on v s (.inline m)) (waitInfo d a tmo 6) v)

/-! ### Objects (spec/13, class 27) -/

/-- R235: the check of a handle operand, in order: reserved bits give BADARG; a missing entry or one that disagrees in
generation, type or home gives STALE; a wrong type BADARG; rights beyond the entry's, a holder outside the region's
path or a missing right RIGHTS; an object that lives no longer DEAD. -/
def Obligations.HandleCheckOrder : Prop :=
  ∀ (s : State) (rg : Nat) (h : DWord) (types : List Nat) (need : Nat),
    let e? := fget s.entries (h.extractLsb' 0 20).toNat
    let typ := (h.extractLsb' 40 8).toNat
    let rights := (h.extractLsb' 48 8).toNat
    ((h.extractLsb' 58 6 ≠ 0 ∨ h.extractLsb' 53 3 ≠ 0) → checkHandle s rg h types need = .error 12) ∧
    (h.extractLsb' 58 6 = 0 → h.extractLsb' 53 3 = 0 →
      (e? = none → checkHandle s rg h types need = .error 2) ∧
      (∀ e, e? = some e →
        let same := e.gen = (h.extractLsb' 20 20).toNat ∧ e.type = typ ∧ e.home = (h.extractLsb' 56 2).toNat
        let able := rights &&& (255 - e.rights) = 0 ∧ e.holder ∈ regionPath s rg ∧ need &&& (255 - rights) = 0
        (¬ same → checkHandle s rg h types need = .error 2) ∧
        (same → typ ∉ types → checkHandle s rg h types need = .error 12) ∧
        (same → typ ∈ types → ¬ able → checkHandle s rg h types need = .error 3) ∧
        (same → typ ∈ types → able → objectDead s e = true → checkHandle s rg h types need = .error 4) ∧
        (same → typ ∈ types → able → objectDead s e = false → checkHandle s rg h types need = .ok e)))

/-- R236, R238: an object instruction whose handle fails its check writes the status to Sd, or raises OBJ with the status
in INFO when sd is 0, and changes nothing else; an empty slot of the gang's table is BADARG (R246). While the Cistern
restarts its firmware every one of class 27 gives AGAIN, those without a handle operand too. A wave whose send to
another module has gone out from this address is not meant (PortsAndNames). That a dead mark of a field that names a
block marks all of it is the model's choice (log 91). That ckmark asks no right of its handle is a reading (log 41). -/
def Obligations.FailedHandlesReport : Prop :=
  ∀ (d a b : BitVec 7) (k : BitVec 6) (st : Nat), st ≠ 0 →
    let reports := fun (i : Instr) (form : ObjForm) (c : Env → State → Prop) =>
      DoesWhen i form.info
        (fun v s => openSend s v.wid v.pc = none ∧ ((form.cls = 27 ∧ s.host.bootstate = 4 ∧ st = 1) ∨
          ((form.cls = 27 → s.host.bootstate ≠ 4) ∧ c v s)))
        fun v s =>
          if form.d = 0 then takeTrap s v.wid ⟨cOBJ, st, v.pc, v.pc, 0, false⟩
          else completedIn (modWave s v.wid fun u => u.report form.d form.val st 0) (form.info v.w v.pfx) v
    let fails := fun (i : Instr) (form : ObjForm) (n : BitVec 7) (types : List Nat) (need : Nat) =>
      reports i form fun v s => checkHandle s (waveRegion s v.w) (v.w.readS64 n.toNat) types need = .error st
    let slotFails := fun (i : Instr) (form : ObjForm) (slot : Nat) (types : List Nat) (need : Nat) =>
      reports i form fun v s => match slotHandle s v.w slot with
        | none => st = 12
        | some h => checkHandle s (waveRegion s v.w) h types need = .error st
    let again := fun (i : Instr) (form : ObjForm) => reports i form fun _ _ => False
    let one : ObjForm := { cls := 27, d := d.toNat, rs := [pairRun a], da := [pairRun a], bad := oddReg a }
    let two : ObjForm := { cls := 27, d := d.toNat, rs := [pairRun a, pairRun b], da := [pairRun a], db := [pairRun b]
                           bad := oddReg a || oddReg b }
    let withWord : ObjForm := { cls := 27, d := d.toNat, rs := [pairRun a, .s b.toNat 1], da := [pairRun a]
                                db := [.s b.toNat 1], bad := oddReg a }
    let withPair : ObjForm := { cls := 27, d := d.toNat, rs := [pairRun a, .s b.toNat 1, .s (b.toNat + 2) 2]
                                da := [pairRun a], db := [.s b.toNat 1, .s (b.toNat + 2) 2]
                                bad := oddReg a || decide (b.toNat % 4 ≠ 0) }
    let send := fun (grant : Bool) => ({ cls := 27, d := d.toNat
                                         rs := blockReads grant a.toNat (decide (64 ≤ b.toNat))
                                         named := [.s a.toNat (if decide (64 ≤ b.toNat) then 24 else 16)]
                                         bad := decide (a.toNat % 8 ≠ 0)
                                         da := blockReads grant a.toNat (decide (64 ≤ b.toNat)) } : ObjForm)
    fails (.wexit d a) one a [tWAVE] rADMIN ∧
    fails (.oclose d a) one a allTypes 0 ∧
    fails (.oinfo d a b) { withWord with val := true } a allTypes rRECV ∧
    fails (.wsadd d a b) { cls := 27, d := d.toNat, val := true, rs := [pairRun a, .s b.toNat 6], da := [pairRun a]
                           db := [.s b.toNat 6], bad := oddReg a || oddReg b } a [tWAITSET] rSEND ∧
    fails (.wsdel d a b) withWord a [tWAITSET] rSEND ∧
    fails (.tarm d a b) two a [tTIMER] rSEND ∧
    fails (.tcancel d a) one a [tTIMER] rSEND ∧
    fails (.aseal d a) one a [tSEGMENT] rSEND ∧
    fails (.afree d a) one a [tSEGMENT] rADMIN ∧
    fails (.atail d a b) { withWord with val := true } a [tSEGMENT] rRECV ∧
    fails (.odup d a b) { withPair with val := true } a allTypes rDUP ∧
    (reports (.odup d a b) { withPair with val := true } fun v s =>
      (∃ e, checkHandle s (waveRegion s v.w) (v.w.readS64 a.toNat) allTypes rDUP = .ok e) ∧
      (v.w.readS b.toNat).toNat < 256 ∧ v.w.readS64 (b.toNat + 2) ≠ 0 ∧
      checkHandle s (waveRegion s v.w) (v.w.readS64 (b.toNat + 2)) [tREGION] 0 = .error st) ∧
    (b ≠ 0 → fails (.rspawn d a b) { two with val := true } b [tREGION] rADMIN) ∧
    slotFails (.psend d a b) (send false) (b.toNat % 64) [tPORT, tPROXY] rSEND ∧
    slotFails (.pgrant d a b) (send true) (b.toNat % 64) [tPORT, tPROXY] (rSEND + rGRANT) ∧
    slotFails (.precv d a k) { cls := 27, d := d.toNat, ws := [.s a.toNat 24], bad := decide (a.toNat % 8 ≠ 0) } k.toNat
      [tPORT] rRECV ∧
    (reports (.pslot d a k) one fun v s => v.w.readS64 a.toNat ≠ 0 ∧ st ≠ 3 ∧
      checkHandle s (waveRegion s v.w) (v.w.readS64 a.toNat) [tPORT, tPROXY] 0 = .error st) ∧
    fails (.preg d a b) two a [tPORT] rADMIN ∧
    fails (.rgnew d a b) { two with val := true, priv := true } a [tREGION] rADMIN ∧
    fails (.rgset d a b) { withPair with priv := true } a [tREGION] rADMIN ∧
    fails (.ckmark d a) { cls := 28, d := d.toNat, val := true, rs := [pairRun a], da := [pairRun a], bad := oddReg a
                          priv := true } a [tREGION] 0 ∧
    again (.wspawn d a b) { two with val := true } ∧
    (b = 0 → again (.rspawn d a b) { one with val := true }) ∧
    again (.wsnew d) { cls := 27, d := d.toNat, val := true } ∧
    again (.tnew d) { cls := 27, d := d.toNat, val := true } ∧
    again (.pnew d a) { one with val := true } ∧
    again (.pname d a) { one with val := true } ∧
    again (.anew d a b) { withWord with val := true }

/-- R240, R241, R242: wspawn makes a wave of the issuing gang with its own registers, its index and the start PC of Sa; it
joins its cluster's run queue (R368). wexit ends a wave, another at once and the issuing one at its next boundary;
that one of another region ends too is the model's choice (log 88), where R241 speaks of a wave of the issuing region.
rspawn launches a range from a descriptor, its template read as loads of the issuing wave; that its home is the
issuing wave's die is the model's choice (log 103). A start PC or a descriptor that is misaligned or cannot be read
gives BADARG, a gang or a core without room NOSPACE, a wave in S mode AGAIN and one that has ended DEAD. Which free
entry is taken is the model's choice (log 10). -/
def Obligations.WavesAndRanges : Prop :=
  ∀ (d a b : BitVec 7),
    let spawn : ObjForm := { cls := 27, d := d.toNat, val := true, rs := [pairRun a, pairRun b], da := [pairRun a]
                             db := [pairRun b], bad := oddReg a || oddReg b }
    let rb : List RegRun := if b = 0 then [] else [pairRun b]
    (∀ g m, Reports (.wspawn d a b) spawn
      (fun v s =>
        let mates := (gangWaves s v.w.gang).map Prod.snd
        fget s.gangs v.w.gang = some g ∧ (v.w.readS64 a.toNat).toNat % 4 = 0 ∧ mates.length < 32 ∧
        (coreWaves s g.core).length < 64 ∧ sumBy Wave.poolBytes mates + v.w.poolBytes ≤ g.regg * 32768 ∧
        makeObject s tWAVE (waveRegion s v.w) (typeRights tWAVE) (dieOf g.core) true = .ok m)
      (fun v s =>
        let w := v.w
        let mates := (gangWaves s w.gang).map Prod.snd
        let idx := (laneIdx.find? fun i => !(mates.any fun x => x.idx == i)).getD 0
        let regs := [2, 3, 4, 5, 6, 7, 10, 11].foldl (fun r n => fset r n (w.readS n))
          (fset (fset (fset [] 1 (BitVec.ofNat 32 idx)) 8 ((w.readS64 b.toNat).extractLsb' 0 32)) 9
            ((w.readS64 b.toNat).extractLsb' 32 32))
        enqueueRun (seatWave (setWave m.st m.obj
          (startWave w.gang idx w.role w.vn w.sn w.tn (s.time + 5) (w.readS64 a.toNat) regs)) m.obj g.core) m.obj true)
      (fun _ _ => m.handle.toNat)) ∧
    (∀ e u, Reports (.wexit d a) { cls := 27, d := d.toNat, rs := [pairRun a], da := [pairRun a], bad := oddReg a }
      (fun v s => v.check s a.toNat [tWAVE] rADMIN = .ok e ∧ getWave s e.obj = some u ∧ u.ended = false ∧ u.priv = .u)
      (fun v s => if e.obj = v.wid then modWave s v.wid fun u => { u with endReq := true } else finishWave s e.obj)
      (fun _ _ => 0)) ∧
    (let gangOf := fun (v : Env) (s : State) (g : Gang) => fget s.gangs v.w.gang = some g
     let fits := fun (v : Env) (s : State) (g : Gang) =>
       let mates := (gangWaves s v.w.gang).map Prod.snd
       mates.length < 32 ∧ (coreWaves s g.core).length < 64 ∧ sumBy Wave.poolBytes mates + v.w.poolBytes ≤ g.regg * 32768
     ∀ g, Fails (.wspawn d a b) spawn 12 (fun v s => gangOf v s g ∧ (v.w.readS64 a.toNat).toNat % 4 ≠ 0) ∧
       Fails (.wspawn d a b) spawn 7 (fun v s => gangOf v s g ∧ (v.w.readS64 a.toNat).toNat % 4 = 0 ∧ ¬ fits v s g) ∧
       ∀ st, Fails (.wspawn d a b) spawn st fun v s => gangOf v s g ∧ (v.w.readS64 a.toNat).toNat % 4 = 0 ∧ fits v s g ∧
         makeObject s tWAVE (waveRegion s v.w) (typeRights tWAVE) (dieOf g.core) true = .error st) ∧
    (∀ e u, let exits := { cls := 27, d := d.toNat, rs := [pairRun a], da := [pairRun a], bad := oddReg a : ObjForm }
      let names := fun (v : Env) (s : State) => v.check s a.toNat [tWAVE] rADMIN = .ok e ∧ getWave s e.obj = some u
      Fails (.wexit d a) exits 4 (fun v s => names v s ∧ u.ended = true) ∧
      Fails (.wexit d a) exits 1 (fun v s => names v s ∧ u.ended = false ∧ u.priv = .s)) ∧
    (let ranges := { cls := 27, d := d.toNat, val := true, rs := pairRun a :: rb, da := [pairRun a], db := rb
                     bad := oddReg a || oddReg b : ObjForm }
     let target := fun (v : Env) (s : State) (rg : Nat) =>
       if b = 0 then rg = waveRegion s v.w else ∃ e, v.check s b.toNat [tREGION] rADMIN = .ok e ∧ e.obj = rg
     let va := fun (v : Env) => (v.w.readS64 a.toNat).toNat
     ∀ rg s1, Fails (.rspawn d a b) ranges 12 (fun v s => target v s rg ∧ va v % 8 ≠ 0) ∧
       Fails (.rspawn d a b) ranges 12 (fun v s => target v s rg ∧ va v % 8 = 0 ∧
         fetchBytes s (rootOf s v.w) v.w.gang (va v) 32 = .bad s1) (fun _ _ => s1) ∧
       ∀ bs s2 st, Fails (.rspawn d a b) ranges st (fun v s => target v s rg ∧ va v % 8 = 0 ∧
         fetchBytes s (rootOf s v.w) v.w.gang (va v) 32 = .ok bs s1 ∧
         launchRange s1 ⟨rootOf s v.w, v.w.gang⟩ rg (waveRegion s v.w) (waveDie s v.w) (fieldAt bs 0 8) (fieldAt bs 8 8)
           (fieldAt bs 16 8) (fieldAt bs 24 8) (0, 0) none = .refused s2 st) fun _ _ => s2) ∧
    (∀ rg bs s1 m, Reports (.rspawn d a b)
      { cls := 27, d := d.toNat, val := true, rs := pairRun a :: rb, da := [pairRun a], db := rb
        bad := oddReg a || oddReg b }
      (fun v s =>
        (if b = 0 then rg = waveRegion s v.w else ∃ e, v.check s b.toNat [tREGION] rADMIN = .ok e ∧ e.obj = rg) ∧
        (v.w.readS64 a.toNat).toNat % 8 = 0 ∧
        fetchBytes s (rootOf s v.w) v.w.gang (v.w.readS64 a.toNat).toNat 32 = .ok bs s1 ∧
        launchRange s1 ⟨rootOf s v.w, v.w.gang⟩ rg (waveRegion s v.w) (waveDie s v.w) (fieldAt bs 0 8) (fieldAt bs 8 8)
          (fieldAt bs 16 8) (fieldAt bs 24 8) (0, 0) none = .ok m)
      (fun _ _ => m.st) (fun _ _ => m.handle.toNat))

/-- R243, R244: handles, wait sets and timers. A new object is refused with BUDGET where its charge is and with NOSPACE
where the table is full (R26, R238); a mask beyond eight bits, an item the object does not have, a member that breaks
a rule of R229 or an index that names no member gives BADARG, a holder outside the issuing region's subtree RIGHTS,
and a thirty-third member FULL. That a dead mark of a field that names a block marks all of it is the model's choice
(log 91), and so is which free entry is taken (log 10). -/
def Obligations.HandlesWaitSetsTimers : Prop :=
  ∀ (d a b : BitVec 7),
    let one : ObjForm := { cls := 27, d := d.toNat, rs := [pairRun a], da := [pairRun a], bad := oddReg a }
    let withWord : ObjForm := { cls := 27, d := d.toNat, rs := [pairRun a, .s b.toNat 1], da := [pairRun a]
                                db := [.s b.toNat 1], bad := oddReg a }
    let make := fun (i : Instr) (type : Nat) (put : State → Nat → State) => ∀ m,
      Reports i { cls := 27, d := d.toNat, val := true }
        (fun v s => makeObject s type (waveRegion s v.w) (typeRights type) (waveDie s v.w) true = .ok m)
        (fun _ _ => put m.st m.obj) (fun _ _ => m.handle.toNat)
    (∀ e r h s1, Reports (.odup d a b)
      { cls := 27, d := d.toNat, val := true, rs := [pairRun a, .s b.toNat 1, .s (b.toNat + 2) 2], da := [pairRun a]
        db := [.s b.toNat 1, .s (b.toNat + 2) 2], bad := oddReg a || decide (b.toNat % 4 ≠ 0) }
      (fun v s =>
        v.check s a.toNat allTypes rDUP = .ok e ∧ (v.w.readS b.toNat).toNat < 256 ∧
        (if v.w.readS64 (b.toNat + 2) = 0 then r = waveRegion s v.w
         else ∃ x, v.check s (b.toNat + 2) [tREGION] 0 = .ok x ∧ x.obj = r ∧ within s r (waveRegion s v.w) = true) ∧
        newEntry s e.type e.obj (hRights (v.w.readS64 a.toNat) &&& (v.w.readS b.toNat).toNat) r e.home = some (h, s1))
      (fun _ _ => s1) (fun _ _ => h.toNat)) ∧
    (∀ e, Reports (.oclose d a) one (fun v s => v.check s a.toNat allTypes 0 = .ok e)
      (fun v s => closeEntry s ((v.w.readS64 a.toNat).extractLsb' 0 20).toNat) (fun _ _ => 0)) ∧
    (∀ e x, Reports (.oinfo d a b) { withWord with val := true }
      (fun v s => v.check s a.toNat allTypes rRECV = .ok e ∧ itemOf s e (v.w.readS b.toNat).toNat = some x)
      (fun _ s => s) (fun _ _ => x)) ∧
    make (.wsnew d) tWAITSET (fun s o => { s with waitsets := fset s.waitsets o [] }) ∧
    make (.tnew d) tTIMER (fun s o => { s with timers := fset s.timers o ⟨false, 0⟩ }) ∧
    (∀ e m i, Reports (.wsadd d a b)
      { cls := 27, d := d.toNat, val := true, rs := [pairRun a, .s b.toNat 6], da := [pairRun a]
        db := [.s b.toNat 6], bad := oddReg a || oddReg b }
      (fun v s =>
        v.check s a.toNat [tWAITSET] rSEND = .ok e ∧
        parseMember s v.w b.toNat = some m ∧ memberHandle s (waveRegion s v.w) m = none ∧
        i < 32 ∧ freeKey (fgetD s.waitsets e.obj []) 32 0 = i)
      (fun _ s => { s with waitsets := fset s.waitsets e.obj (fset (fgetD s.waitsets e.obj []) i m) }) (fun _ _ => i)) ∧
    (∀ e m, Reports (.wsdel d a b) withWord
      (fun v s => v.check s a.toNat [tWAITSET] rSEND = .ok e ∧
        fget (fgetD s.waitsets e.obj []) (v.w.readS b.toNat).toNat = some m)
      (fun v s => { s with
        waitsets := fset s.waitsets e.obj (fdel (fgetD s.waitsets e.obj []) (v.w.readS b.toNat).toNat) })
      (fun _ _ => 0)) ∧
    (∀ e, Reports (.tarm d a b)
      { cls := 27, d := d.toNat, rs := [pairRun a, pairRun b], da := [pairRun a], db := [pairRun b]
        bad := oddReg a || oddReg b }
      (fun v s => v.check s a.toNat [tTIMER] rSEND = .ok e)
      (fun v s => { s with timers := fset s.timers e.obj ⟨true, v.w.readS64 b.toNat⟩ }) (fun _ _ => 0)) ∧
    (∀ e, Reports (.tcancel d a) one (fun v s => v.check s a.toNat [tTIMER] rSEND = .ok e)
      (fun _ s => { s with timers := fmod s.timers e.obj fun t => { t with armed := false } }) (fun _ _ => 0)) ∧
    (∀ (s : State) (type rg rights home : Nat),
      (mayCharge s .objects rg 1 = false → makeObject s type rg rights home true = .error 11) ∧
      (mayCharge s .objects rg 1 = true → newEntry s type s.serial rights rg home = none →
        makeObject s type rg rights home true = .error 7)) ∧
    (let simple : ObjForm := { cls := 27, d := d.toNat, val := true }
     let refused := fun (type st : Nat) (v : Env) (s : State) =>
       makeObject s type (waveRegion s v.w) (typeRights type) (waveDie s v.w) true = .error st
     ∀ st, Fails (.wsnew d) simple st (refused tWAITSET st) ∧ Fails (.tnew d) simple st (refused tTIMER st)) ∧
    (∀ e, let dup : ObjForm := { cls := 27, d := d.toNat, val := true, rs := [pairRun a, .s b.toNat 1, .s (b.toNat + 2) 2]
                                 da := [pairRun a], db := [.s b.toNat 1, .s (b.toNat + 2) 2]
                                 bad := oddReg a || decide (b.toNat % 4 ≠ 0) }
      let holder := fun (v : Env) (s : State) (r : Nat) => if v.w.readS64 (b.toNat + 2) = 0 then r = waveRegion s v.w
        else ∃ x, v.check s (b.toNat + 2) [tREGION] 0 = .ok x ∧ x.obj = r ∧ within s r (waveRegion s v.w) = true
      let passes := fun (v : Env) (s : State) => v.check s a.toNat allTypes rDUP = .ok e
      Fails (.odup d a b) dup 12 (fun v s => passes v s ∧ 256 ≤ (v.w.readS b.toNat).toNat) ∧
      (∀ x, Fails (.odup d a b) dup 3 fun v s => passes v s ∧ (v.w.readS b.toNat).toNat < 256 ∧
        v.w.readS64 (b.toNat + 2) ≠ 0 ∧ v.check s (b.toNat + 2) [tREGION] 0 = .ok x ∧
        within s x.obj (waveRegion s v.w) = false) ∧
      (∀ r, Fails (.odup d a b) dup 7 fun v s => passes v s ∧ (v.w.readS b.toNat).toNat < 256 ∧ holder v s r ∧
        newEntry s e.type e.obj (hRights (v.w.readS64 a.toNat) &&& (v.w.readS b.toNat).toNat) r e.home = none) ∧
      Fails (.oinfo d a b) { withWord with val := true } 12 (fun v s =>
        v.check s a.toNat allTypes rRECV = .ok e ∧ itemOf s e (v.w.readS b.toNat).toNat = none) ∧
      Fails (.wsdel d a b) withWord 12 (fun v s => v.check s a.toNat [tWAITSET] rSEND = .ok e ∧
        fget (fgetD s.waitsets e.obj []) (v.w.readS b.toNat).toNat = none) ∧
      let adds := { cls := 27, d := d.toNat, val := true, rs := [pairRun a, .s b.toNat 6], da := [pairRun a]
                    db := [.s b.toNat 6], bad := oddReg a || oddReg b : ObjForm }
      let set := fun (v : Env) (s : State) => v.check s a.toNat [tWAITSET] rSEND = .ok e
      Fails (.wsadd d a b) adds 12 (fun v s => set v s ∧ parseMember s v.w b.toNat = none) ∧
      ∀ m, (∀ st, Fails (.wsadd d a b) adds st fun v s => set v s ∧ parseMember s v.w b.toNat = some m ∧
          memberHandle s (waveRegion s v.w) m = some st) ∧
        Fails (.wsadd d a b) adds 5 fun v s => set v s ∧ parseMember s v.w b.toNat = some m ∧
          memberHandle s (waveRegion s v.w) m = none ∧ 32 ≤ freeKey (fgetD s.waitsets e.obj []) 32 0)

/-- R245 to R248: ports. A send to a port of this module delivers the block; precv takes the oldest message into the 24
registers from Sa and gives a borrowed slot back; a slot is set, or emptied by a zero handle. R323, R334, R336, R337:
a send or a grant through a proxy reaches the port at once where the port is this module's; otherwise it goes out to
the other module, is tried again until its reply has come, and then reports that reply alone; a link in retraining
gives AGAIN. A name whose directory lies in another module is answered by a copy, or by that directory, whose answer
is free (log 12), and its binding is kept as a copy. A send's wave waits in front of it (log 82). A port without room
is FULL, one that has ended DEAD, an empty one EMPTY; a grant of no page, of too many, of pages that may not be
granted or to a port without slots is BADARG, one that the port's region cannot take BUDGET; a name that is not bound
is NONAME, one whose agent is dead DEAD, one that is taken BADARG. That a dead mark of a field that names a block
marks all of it is the model's choice (log 91). -/
def Obligations.PortsAndNames : Prop :=
  ∀ (d a b : BitVec 7) (k : BitVec 6),
    let sendForm := fun (grant : Bool) =>
      ({ cls := 27, d := d.toNat, rs := blockReads grant a.toNat (decide (64 ≤ b.toNat))
         named := [.s a.toNat (if decide (64 ≤ b.toNat) then 24 else 16)], bad := decide (a.toNat % 8 ≠ 0)
         da := blockReads grant a.toNat (decide (64 ≤ b.toNat)) } : ObjForm)
    let pairForm : ObjForm := { cls := 27, d := d.toNat, rs := [pairRun a], da := [pairRun a], bad := oddReg a }
    let va := fun (v : Env) => v.w.readS64 (a.toNat + 2)
    let gw := fun (v : Env) => (v.w.readS (a.toNat + 4)).toNat
    let granted := fun (v : Env) => gw v / 512 % 128 = 0 ∧ gw v / 2 ^ 18 = 0 ∧ 1 ≤ gw v % 512 ∧ gw v % 512 ≤ 256 ∧
      (va v).toNat % 65536 = 0
    let send := fun (grant : Bool) => if grant then Instr.pgrant d a b else Instr.psend d a b
    let fresh := fun (v : Env) (s : State) => openSend s v.wid v.pc = none
    let names := fun (grant : Bool) (v : Env) (s : State) (e : Entry) => ∃ h, slotHandle s v.w (b.toNat % 64) = some h ∧
      checkHandle s (waveRegion s v.w) h [tPORT, tPROXY] (rSEND + if grant then rGRANT else 0) = .ok e
    let local' := fun (grant : Bool) (v : Env) (s : State) (pn : Nat) => ∃ e, names grant v s e ∧
      ((e.type = tPORT ∧ e.obj = pn) ∨ (e.type = tPROXY ∧ ∃ x, fget s.proxies e.obj = some x ∧
        x.module = s.host.module ∧ x.port = pn))
    let away := fun (grant : Bool) (v : Env) (s : State) (x : Proxy) => ∃ e, names grant v s e ∧ e.type = tPROXY ∧
      fget s.proxies e.obj = some x ∧ x.module ≠ s.host.module
    let fails := fun (grant : Bool) (st : Nat) (v : Env) (s : State) =>
      if d = 0 then takeTrap s v.wid ⟨cOBJ, st, v.pc, v.pc, 0, false⟩
      else completedIn (modWave s v.wid fun u => u.report d.toNat false st 0) ((sendForm grant).info v.w v.pfx) v
    let goesOut := fun (x : Proxy) (v : Env) (s : State) (grant owned : Bool) (va : DWord) (n : Nat) =>
      let t := meetPeer (progressed (writeBackAll s) (waveRegion s v.w)) x.module x.incarn
      transmitFor { t with
        sends := fset t.sends t.serial {
          wave := v.wid, pc := v.pc, region := waveRegion s v.w, module := x.module, grant := grant, owned := owned
          va := va, pages := n, reply := none, accepted := false, taken := false, past := false, frames := [] }
        serial := t.serial + 1 } (waveRegion s v.w) x.module
    (∀ s pn p m, portDead s pn = false → fget s.ports pn = some p →
      (p.queue.length + p.reserved < p.cap + p.borrowed → p.pfN ≤ m.header.toNat % 65536 →
        sendHere s pn m = .ok { s with ports := fset s.ports pn { p with queue := p.queue ++ [m] } }) ∧
      (p.cap + p.borrowed ≤ p.queue.length + p.reserved → 65536 ≤ p.borrowed ∨ mayCharge s .slots p.region 1 = false →
        sendHere s pn m = .error 5)) ∧
    (∀ pn s', Reports (.psend d a b) (sendForm false)
      (fun v s => fresh v s ∧ local' false v s pn ∧
        sendHere s pn (blockMsg s v.w a.toNat (decide (64 ≤ b.toNat))) = .ok s')
      (fun _ _ => s') (fun _ _ => 0)) ∧
    (∀ pn s', Reports (.pgrant d a b) (sendForm true)
      (fun v s => fresh v s ∧ local' true v s pn ∧ granted v ∧
        grantHere s (waveRegion s v.w) pn (blockMsg s v.w a.toNat (decide (64 ≤ b.toNat)))
          ⟨(va v).toNat, gw v % 512, gw v / 2 ^ 16 % 2 == 1, gw v / 2 ^ 17 % 2 == 1⟩ = .ok s' 0)
      (fun _ _ => s') (fun _ _ => 0)) ∧
    (∀ x,
      (∀ grant, DoesWhen (send grant) (sendForm grant).info
        (fun v s => s.host.bootstate ≠ 4 ∧ fresh v s ∧ away grant v s x ∧ (grant = true → granted v) ∧
          linksRetraining s x.module = true) (fails grant 1)) ∧
      (DoesWhen (send false) (sendForm false).info
        (fun v s => s.host.bootstate ≠ 4 ∧ fresh v s ∧ away false v s x ∧ linksRetraining s x.module = false)
        fun v s => goesOut x v s false false 0 0) ∧
      (let walked := fun (v : Env) (s : State) => settleWalks s (rootOf s v.w) (va v).toNat (gw v % 512)
       let page := fun (v : Env) (s : State) => grantPages (walked v s) (rootOf s v.w) (va v).toNat (gw v % 512)
       let grants := fun (c : Env → State → Prop) (t : Env → State → State) => DoesWhen (send true) (sendForm true).info
         (fun v s => s.host.bootstate ≠ 4 ∧ fresh v s ∧ away true v s x ∧ granted v ∧ linksRetraining s x.module = false ∧
           c v s) t
       grants (fun v _ => gw v / 2 ^ 16 % 2 = 0) (fails true 12) ∧
       grants (fun v s => gw v / 2 ^ 16 % 2 = 1 ∧ page v s = .bad) (fun v s => fails true 12 v (walked v s)) ∧
       (∀ fs, grants (fun v s => gw v / 2 ^ 16 % 2 = 1 ∧ page v s = .owned fs)
         fun v s => goesOut x v (walked v s) true true (va v) (gw v % 512)) ∧
       (∀ k fs, grants (fun v s => gw v / 2 ^ 16 % 2 = 1 ∧ page v s = .sealed k fs)
         fun v s => goesOut x v (walked v s) true false (va v) (gw v % 512)))) ∧
    (∀ grant n r,
      let answered := fun (v : Env) (t : State) (q : RemoteSend) (st : Nat) =>
        let t := { t with sends := if q.past then fset t.sends n { q with taken := true } else fdel t.sends n }
        if st = 0 then reported t (sendForm grant) v 0 else fails grant st v t
      (DoesWhen (send grant) (sendForm grant).info
        (fun v s => openSend s v.wid v.pc = some (n, r) ∧ r.reply = none ∧ r.accepted = false) fun _ s => s) ∧
      (∀ st, DoesWhen (send grant) (sendForm grant).info
        (fun v s => openSend s v.wid v.pc = some (n, r) ∧ r.reply = some st) fun v s => answered v s r st) ∧
      (∀ q st, DoesWhen (send grant) (sendForm grant).info
        (fun v s => openSend s v.wid v.pc = some (n, r) ∧ r.reply = none ∧ r.accepted = true ∧
          fget (passGrant s n r).sends n = some q ∧ q.reply = some st) fun v s => answered v (passGrant s n r) q st)) ∧
    (∀ h e p m rest, Reports (.precv d a k)
      { cls := 27, d := d.toNat, ws := [.s a.toNat 24], bad := decide (a.toNat % 8 ≠ 0) }
      (fun v s => slotHandle s v.w k.toNat = some h ∧ checkHandle s (waveRegion s v.w) h [tPORT] rRECV = .ok e ∧
        fget s.ports e.obj = some p ∧ p.queue = m :: rest)
      (fun v s =>
        let s := if 0 < p.borrowed then uncharge s .slots p.region 1 else s
        modWave { s with ports := fset s.ports e.obj { p with queue := rest, borrowed := p.borrowed - 1 } } v.wid
          fun u => u.writeBlock a.toNat m)
      (fun _ _ => 0)) ∧
    Reports (.pslot d a k) pairForm
      (fun v s => v.w.readS64 a.toNat = 0 ∨
        ∃ e, checkHandle s (waveRegion s v.w) (v.w.readS64 a.toNat) [tPORT, tPROXY] 0 = .ok e)
      (fun v s => modGang s v.w.gang fun g => { g with
        slots := if v.w.readS64 a.toNat = 0 then fdel g.slots k.toNat
          else fset g.slots k.toNat (v.w.readS64 a.toNat) })
      (fun _ _ => 0) ∧
    (∀ bs s1 p m (s2 : State), Reports (.pnew d a) { pairForm with val := true }
      (fun v s =>
        fetchBytes s (rootOf s v.w) v.w.gang (v.w.readS64 a.toNat).toNat 32 = .ok bs s1 ∧
        parsePort bs (waveRegion s v.w) (waveDie s v.w) = some p ∧
        let walked := settleWalks s1 (rootOf s v.w) p.lz.toNat (p.lzN * p.lzP)
        rangeUnmapped walked (rootOf s v.w) p.lz.toNat (p.lzN * p.lzP) = true ∧
        rangeHeld walked (rootOf s v.w) p.lz.toNat (p.lzN * p.lzP) = false ∧
        makeObject walked tPORT (waveRegion s v.w) (typeRights tPORT) p.home true = .ok m ∧
        reserveTables m.st (rootOf s v.w) (waveRegion s v.w) p.home p.lz.toNat (p.lzN * p.lzP) = some s2)
      (fun _ _ => { s2 with ports := fset s2.ports m.obj p }) (fun _ _ => m.handle.toNat)) ∧
    (∀ x m, Reports (.pname d a) { pairForm with val := true }
      (fun v s =>
        let name := (v.w.readS64 a.toNat).toNat
        directoryHere s name = true ∧ fget s.names name = some x ∧ bindingDead s x = false ∧
        makeObject (noteBinding s x) tPROXY (waveRegion s v.w) (typeRights tPROXY + if x.grant then rGRANT else 0)
          (waveDie s v.w) true = .ok m)
      (fun v _ => { m.st with
        proxies := fset m.st.proxies m.obj ⟨x.module, x.port, x.incarn, v.w.readS64 a.toNat, false⟩ })
      (fun _ _ => m.handle.toNat)) ∧
    (∀ x m, Reports (.pname d a) { pairForm with val := true }
      (fun v s =>
        let name := (v.w.readS64 a.toNat).toNat
        let r := Config.remoteBinding s.fresh name
        let kept := (fget s.aqueduct name).filter fun x => !bindingDead s x
        let t := if kept = none then transmitFor s (waveRegion s v.w) (name % s.host.domainSize) else s
        directoryHere s name = false ∧ bindingDead s x = false ∧
        (kept = some x ∨ (kept = none ∧ r 0 % 2 = 1 ∧
          x = ⟨r 1 % s.host.domainSize, r 2, r 3 % 2 ^ 24, r 4 % 2 == 1, r 5 % 2 == 0⟩)) ∧
        makeObject (noteBinding t x) tPROXY (waveRegion s v.w) (typeRights tPROXY + if x.grant then rGRANT else 0)
          (waveDie s v.w) true = .ok m)
      (fun v _ => { m.st with
        proxies := fset m.st.proxies m.obj ⟨x.module, x.port, x.incarn, v.w.readS64 a.toNat, false⟩
        aqueduct := fset m.st.aqueduct (v.w.readS64 a.toNat).toNat x })
      (fun _ _ => m.handle.toNat)) ∧
    (∀ e, Reports (.preg d a b)
      { cls := 27, d := d.toNat, rs := [pairRun a, pairRun b], da := [pairRun a], db := [pairRun b]
        bad := oddReg a || oddReg b }
      (fun v s =>
        let name := (v.w.readS64 b.toNat).toNat
        checkHandle s (waveRegion s v.w) (v.w.readS64 a.toNat) [tPORT] rADMIN = .ok e ∧ name ≠ 0 ∧
        directoryHere s name = true ∧ (∀ x, fget s.names name = some x → bindingDead s x = true))
      (fun v s => { s with names := fset s.names (v.w.readS64 b.toNat).toNat ⟨s.host.module, e.obj, s.host.incarnation,
        (v.w.readS64 a.toNat).getLsbD 50, false⟩ })
      (fun _ _ => 0)) ∧
    (∀ e, Reports (.preg d a b)
      { cls := 27, d := d.toNat, rs := [pairRun a, pairRun b], da := [pairRun a], db := [pairRun b]
        bad := oddReg a || oddReg b }
      (fun v s =>
        let name := (v.w.readS64 b.toNat).toNat
        checkHandle s (waveRegion s v.w) (v.w.readS64 a.toNat) [tPORT] rADMIN = .ok e ∧ name ≠ 0 ∧
        directoryHere s name = false ∧ (∀ x, resolveName s name = some x → bindingDead s x = true))
      (fun v s =>
        let name := (v.w.readS64 b.toNat).toNat
        transmitFor { s with aqueduct := fset s.aqueduct name ⟨s.host.module, e.obj, s.host.incarnation,
          (v.w.readS64 a.toNat).getLsbD 50, false⟩ } (waveRegion s v.w) (name % s.host.domainSize))
      (fun _ _ => 0)) ∧
    (∀ s pn m, portDead s pn = true → sendHere s pn m = .error 4) ∧
    (∀ pn st, Fails (.psend d a b) (sendForm false) st fun v s => fresh v s ∧ local' false v s pn ∧
      sendHere s pn (blockMsg s v.w a.toNat (decide (64 ≤ b.toNat))) = .error st) ∧
    (∀ e, Fails (.pgrant d a b) (sendForm true) 12 fun v s => fresh v s ∧ names true v s e ∧ ¬ granted v) ∧
    (let grants := fun (v : Env) (s : State) (pn : Nat) => fresh v s ∧ local' true v s pn ∧ granted v
     let here := fun (v : Env) (s : State) (pn : Nat) =>
       grantHere s (waveRegion s v.w) pn (blockMsg s v.w a.toNat (decide (64 ≤ b.toNat)))
         ⟨(va v).toNat, gw v % 512, gw v / 2 ^ 16 % 2 == 1, gw v / 2 ^ 17 % 2 == 1⟩
     ∀ pn st, Fails (.pgrant d a b) (sendForm true) st (fun v s => grants v s pn ∧ here v s pn = .fail st) ∧
       ∀ t, Fails (.pgrant d a b) (sendForm true) st (fun v s => grants v s pn ∧ here v s pn = .failed t st)
         fun _ _ => t) ∧
    (∀ s rg pn m g p, let here := grantHere s rg pn m g
      let t := settleWalks s (effPtroot s rg) g.va g.pages
      let pages := grantPages t (effPtroot s rg) g.va g.pages
      let full := ringFree p = false ∨ portRoom t p = false
      (portDead s pn = true → here = .fail 4) ∧
      (portDead s pn = false → fget s.ports pn = some p →
        (p.lz = 0 ∨ p.lzP < g.pages ∨ g.read = false → here = .fail 12) ∧
        (p.lz ≠ 0 → g.pages ≤ p.lzP → g.read = true →
          (pages = .bad → here = .failed t 12) ∧
          (∀ fs, pages = .owned fs → (full → here = .failed t 5) ∧
            (¬ full → mayMove t rg p.region g.pages = false → here = .failed t 11)) ∧
          (∀ k fs, pages = .sealed k fs → full → here = .failed t 5)))) ∧
    (∀ h e p, Fails (.precv d a k) { cls := 27, d := d.toNat, ws := [.s a.toNat 24], bad := decide (a.toNat % 8 ≠ 0) } 6
      fun v s => slotHandle s v.w k.toNat = some h ∧ checkHandle s (waveRegion s v.w) h [tPORT] rRECV = .ok e ∧
        fget s.ports e.obj = some p ∧ p.queue = []) ∧
    (let makes : ObjForm := { pairForm with val := true }
     let reads := fun (v : Env) (s : State) => fetchBytes s (rootOf s v.w) v.w.gang (v.w.readS64 a.toNat).toNat 32
     let walked := fun (v : Env) (s s1 : State) (p : Port) => settleWalks s1 (rootOf s v.w) p.lz.toNat (p.lzN * p.lzP)
     ∀ bs s1 p, Fails (.pnew d a) makes 12 (fun v s => reads v s = .bad s1) (fun _ _ => s1) ∧
       Fails (.pnew d a) makes 12 (fun v s => reads v s = .ok bs s1 ∧ parsePort bs (waveRegion s v.w) (waveDie s v.w) = none)
         (fun _ _ => s1) ∧
       let parsed := fun (v : Env) (s : State) => reads v s = .ok bs s1 ∧
         parsePort bs (waveRegion s v.w) (waveDie s v.w) = some p
       let unmapped := fun (v : Env) (s : State) =>
         rangeUnmapped (walked v s s1 p) (rootOf s v.w) p.lz.toNat (p.lzN * p.lzP)
       let free := fun (v : Env) (s : State) => unmapped v s = true ∧
         rangeHeld (walked v s s1 p) (rootOf s v.w) p.lz.toNat (p.lzN * p.lzP) = false
       let made := fun (v : Env) (s : State) =>
         makeObject (walked v s s1 p) tPORT (waveRegion s v.w) (typeRights tPORT) p.home true
       Fails (.pnew d a) makes 12 (fun v s => parsed v s ∧ unmapped v s = false) (fun v s => walked v s s1 p) ∧
       (∀ st, Fails (.pnew d a) makes st (fun v s => parsed v s ∧ free v s ∧ made v s = .error st)
         fun v s => walked v s s1 p) ∧
       ∀ m, Fails (.pnew d a) makes 11 (fun v s => parsed v s ∧ free v s ∧ made v s = .ok m ∧
         reserveTables m.st (rootOf s v.w) (waveRegion s v.w) p.home p.lz.toNat (p.lzN * p.lzP) = none)
         fun v s => walked v s s1 p) ∧
    (let asked := fun (v : Env) (s : State) => askDirectory s (waveRegion s v.w) (v.w.readS64 a.toNat).toNat
     let makes : ObjForm := { pairForm with val := true }
     Fails (.pname d a) makes 8 (fun v s => resolveName s (v.w.readS64 a.toNat).toNat = none) asked ∧
     ∀ x, Fails (.pname d a) makes 4
         (fun v s => resolveName s (v.w.readS64 a.toNat).toNat = some x ∧ bindingDead s x = true) asked ∧
       ∀ st, Fails (.pname d a) makes st (fun v s => resolveName s (v.w.readS64 a.toNat).toNat = some x ∧
         bindingDead s x = false ∧ makeObject (noteBinding (asked v s) x) tPROXY (waveRegion s v.w)
           (typeRights tPROXY + if x.grant then rGRANT else 0) (waveDie s v.w) true = .error st) asked) ∧
    (let registers : ObjForm := { cls := 27, d := d.toNat, rs := [pairRun a, pairRun b], da := [pairRun a], db := [pairRun b]
                                  bad := oddReg a || oddReg b }
     let passes := fun (v : Env) (s : State) (e : Entry) =>
       checkHandle s (waveRegion s v.w) (v.w.readS64 a.toNat) [tPORT] rADMIN = .ok e
     ∀ e, Fails (.preg d a b) registers 12 (fun v s => passes v s e ∧ v.w.readS64 b.toNat = 0) ∧
       ∀ x, Fails (.preg d a b) registers 12 (fun v s => passes v s e ∧ v.w.readS64 b.toNat ≠ 0 ∧
         resolveName s (v.w.readS64 b.toNat).toNat = some x ∧ bindingDead s x = false)
         fun v s => askDirectory s (waveRegion s v.w) (v.w.readS64 b.toNat).toNat)

/-- R249, R250: amber segments. anew maps fresh frames, charged to HBMP; a seal freezes the tail at the reserve tail and
reports at once when every byte has landed, and later otherwise; afree seals an open segment first, and asks the
modules that share its pages to remove their mappings (spec/19 R334); atail reads the tails. Which frames are mapped
is the model's choice (log 9), and so is the die they come from (log 89). A range that is no range of free pages gives
BADARG, a refused charge BUDGET, too few frames NOSPACE; a segment that is sealed or being freed gives SEALED, a tail
that does not exist BADARG. -/
def Obligations.AmberSegments : Prop :=
  ∀ (d a b : BitVec 7),
    let one : ObjForm := { cls := 27, d := d.toNat, rs := [pairRun a], da := [pairRun a], bad := oddReg a }
    let withWord : ObjForm := { cls := 27, d := d.toNat, val := true, rs := [pairRun a, .s b.toNat 1], da := [pairRun a]
                                db := [.s b.toNat 1], bad := oddReg a }
    (∀ m fs s1 s2, Reports (.anew d a b) withWord
      (fun v s =>
        let rg := waveRegion s v.w
        let base := (v.w.readS64 a.toNat).toNat
        let n := (v.w.readS b.toNat).toNat
        base % 65536 = 0 ∧ 1 ≤ n ∧ n ≤ 65536 ∧ base + 65536 * n ≤ 0xFFFF700000000000 ∧
        let t := settleWalks s (rootOf s v.w) base n
        rangeUnmapped t (rootOf s v.w) base n = true ∧ mayCharge t .hbm rg n = true ∧ rangeHeld t (rootOf s v.w) base n = false ∧
        makeObject t tSEGMENT rg (typeRights tSEGMENT) (waveDie s v.w) true = .ok m ∧
        takeFrames m.st (waveDie s v.w) n [] = some (fs, s1) ∧
        mapSegment (charge s1 .hbm rg n) (rootOf s v.w) rg (waveDie s v.w) base fs = some s2 ∧
        mayCharge s2 .hbm rg 0 = true)
      (fun v s => { s2 with segments := fset s2.segments m.obj {
        region := waveRegion s v.w, root := rootOf s v.w, frames := fs, base := v.w.readS64 a.toNat
        pages := (v.w.readS b.toNat).toNat, reserve := 0, commit := 0, status := 0, frozenAt := 0, sealDone := false
        blocks := [], replicas := [], remotes := [], freer := waveRegion s v.w, handle := m.handle, gone := false } })
      (fun _ _ => m.handle.toNat)) ∧
    (∀ e g, Reports (.aseal d a) one
      (fun v s => v.check s a.toNat [tSEGMENT] rSEND = .ok e ∧ fget s.segments e.obj = some g ∧ g.status = 0 ∧
        g.commit = g.reserve)
      (fun _ s => { s with
        segments := fset s.segments e.obj { g with status := 1, frozenAt := g.reserve, sealDone := true } })
      (fun _ _ => 0)) ∧
    (∀ e g, DoesWhen (.aseal d a) one.info
      (fun v s => s.host.bootstate ≠ 4 ∧ v.check s a.toNat [tSEGMENT] rSEND = .ok e ∧
        fget s.segments e.obj = some g ∧ g.status = 0 ∧ g.commit ≠ g.reserve)
      fun v s =>
        let s := { s with
          segments := fset s.segments e.obj { g with status := 1, frozenAt := g.reserve, sealDone := false } }
        completedIn (if d.toNat = 0 then s else modWave s v.wid fun u =>
          { u with dues := u.dues ++ [⟨d.toNat, .seal e.obj⟩] }) (one.info v.w v.pfx) v) ∧
    (∀ e g, Reports (.afree d a) one
      (fun v s => v.check s a.toNat [tSEGMENT] rADMIN = .ok e ∧ fget s.segments e.obj = some g ∧ g.status ≠ 2)
      (fun v s => g.remotes.foldl (fun t m => transmitFor t (waveRegion s v.w) m) { s with segments := fset s.segments e.obj { g with
        status := 2, frozenAt := if g.status = 0 then g.reserve else g.frozenAt, freer := waveRegion s v.w } })
      (fun _ _ => 0)) ∧
    (∀ e g, Reports (.atail d a b) withWord
      (fun v s => v.check s a.toNat [tSEGMENT] rRECV = .ok e ∧ fget s.segments e.obj = some g ∧
        (v.w.readS b.toNat).toNat ≤ 1)
      (fun _ s => s) (fun v _ => if v.w.readS b.toNat = 0 then g.reserve else g.commit)) ∧
    (let base := fun (v : Env) => (v.w.readS64 a.toNat).toNat
     let n := fun (v : Env) => (v.w.readS b.toNat).toNat
     let fits := fun (v : Env) => base v % 65536 = 0 ∧ 1 ≤ n v ∧ n v ≤ 65536 ∧ base v + 65536 * n v ≤ 0xFFFF700000000000
     let walked := fun (v : Env) (s : State) => settleWalks s (rootOf s v.w) (base v) (n v)
     let free := fun (v : Env) (s : State) => rangeUnmapped (walked v s) (rootOf s v.w) (base v) (n v)
     let charges := fun (v : Env) (s : State) => mayCharge (walked v s) .hbm (waveRegion s v.w) (n v)
     let goes := fun (v : Env) (s : State) => fits v ∧ free v s = true ∧ charges v s = true ∧
       rangeHeld (walked v s) (rootOf s v.w) (base v) (n v) = false
     let made := fun (v : Env) (s : State) =>
       makeObject (walked v s) tSEGMENT (waveRegion s v.w) (typeRights tSEGMENT) (waveDie s v.w) true
     let fails := fun (st : Nat) (c : Env → State → Prop) => Fails (.anew d a b) withWord st c walked
     Fails (.anew d a b) withWord 12 (fun v _ => ¬ fits v) ∧
     fails 12 (fun v s => fits v ∧ free v s = false) ∧
     fails 11 (fun v s => fits v ∧ free v s = true ∧ charges v s = false) ∧
     (∀ st, fails st fun v s => goes v s ∧ made v s = .error st) ∧
     ∀ m, fails 7 (fun v s => goes v s ∧ made v s = .ok m ∧ takeFrames m.st (waveDie s v.w) (n v) [] = none) ∧
       ∀ fs s1, let mapped := fun (v : Env) (s : State) =>
           mapSegment (charge s1 .hbm (waveRegion s v.w) (n v)) (rootOf s v.w) (waveRegion s v.w) (waveDie s v.w) (base v) fs
         let taken := fun (v : Env) (s : State) => goes v s ∧ made v s = .ok m ∧
           takeFrames m.st (waveDie s v.w) (n v) [] = some (fs, s1)
         fails 7 (fun v s => taken v s ∧ mapped v s = none) ∧
         ∀ s2, fails 11 fun v s => taken v s ∧ mapped v s = some s2 ∧ mayCharge s2 .hbm (waveRegion s v.w) 0 = false) ∧
    (∀ e g, let segment := fun (v : Env) (s : State) (need : Nat) => v.check s a.toNat [tSEGMENT] need = .ok e ∧
        fget s.segments e.obj = some g
      Fails (.aseal d a) one 10 (fun v s => segment v s rSEND ∧ g.status ≠ 0) ∧
      Fails (.afree d a) one 10 (fun v s => segment v s rADMIN ∧ g.status = 2) ∧
      Fails (.atail d a b) withWord 12 (fun v s => segment v s rRECV ∧ 2 ≤ (v.w.readS b.toNat).toNat))

/-! ### Supervisor instructions (spec/13, class 28) -/

/-- R251, R253, R254, R388, R389: regions, other waves' state, the operand log's image, cached translations and the
checkpoint mark; a wave resumed goes on with its operand log. R259: gsaved records a wave other than the leader as
saved; the leader's waits until they all are and no store of theirs is under way, and releases the gang, and with the
last gang of its cohort the placement. R377: csaveq and creplay make each page of the context save area resident
first. What the checks of an image cover is a reading (log 35), and so are what an image does not hold (log 34), that
the leader's gsaved leaves the gang no scratchpad and no accumulators (log 38), that ckmark asks no right of its
handle (log 41), that a hold waits for a send that has gone out (log 82), what wwrite makes of reserved bits and of a
lane's own state (log 90), what a dead mark of a block marks (log 91), that creplay takes the whole word of SR.EFLAGS
(log 97) and that a region's home is the issuing wave's die (log 103). What the rules refuse is refused with their
status; a gang block that is malformed makes creplay raise OBJ (R258). -/
def Obligations.SupervisorInstructions : Prop :=
  ∀ (d a b : BitVec 7),
    let two : ObjForm := { cls := 28, d := d.toNat, val := true, rs := [.s a.toNat 1, .s b.toNat 1], da := [.s a.toNat 1]
                           db := [.s b.toNat 1], priv := true }
    let pair : ObjForm := { cls := 28, d := d.toNat, val := true, rs := [pairRun a], da := [pairRun a], bad := oddReg a
                            priv := true }
    (∀ e img s1 m, Reports (.rgnew d a b)
      { cls := 27, d := d.toNat, val := true, rs := [pairRun a, pairRun b], da := [pairRun a], db := [pairRun b]
        bad := oddReg a || oddReg b, priv := true }
      (fun v s =>
        v.check s a.toNat [tREGION] rADMIN = .ok e ∧ (v.w.readS64 b.toNat).toNat % 64 = 0 ∧
        fetchBytes s (rootOf s v.w) v.w.gang (v.w.readS64 b.toNat).toNat 64 = .ok img s1 ∧
        createRegion s1 e.obj (waveRegion s v.w) (waveDie s v.w) img = .ok m)
      (fun _ _ => m.st) (fun _ _ => m.handle.toNat)) ∧
    (∀ e s', Reports (.rgset d a b)
      { cls := 27, d := d.toNat, rs := pairRun a :: [.s b.toNat 1, .s (b.toNat + 2) 2], da := [pairRun a]
        db := [.s b.toNat 1, .s (b.toNat + 2) 2], bad := oddReg a || decide (b.toNat % 4 ≠ 0), priv := true }
      (fun v s =>
        v.check s a.toNat [tREGION] rADMIN = .ok e ∧ e.obj ≠ waveRegion s v.w ∧
        within s e.obj (waveRegion s v.w) = true ∧
        setRegion s e.obj (v.w.readS b.toNat).toNat (v.w.readS64 (b.toNat + 2)).toNat = .ok s')
      (fun _ _ => s') (fun _ _ => 0)) ∧
    let write : ObjForm := { cls := 28, d := d.toNat, rs := [.s a.toNat 1, .s b.toNat 1, .s (d.toNat + 2) 2]
                             da := [.s a.toNat 1], db := [.s b.toNat 1], priv := true, bad := oddReg d }
    let saves : ObjForm := { cls := 28, d := d.toNat, priv := true }
    (∀ wid' u q, DoesWhen (.wread d a b) two.info
      (fun v s => targetWave v s a = .ok (wid', u) ∧ parseSelector u (v.w.readS b.toNat).toNat = some q ∧
        waitsBoundary s v.wid wid' u = true) fun _ s => s) ∧
    (∀ wid' u q, DoesWhen (.wwrite d a b) write.info
      (fun v s => targetWave v s a = .ok (wid', u) ∧ parseSelector u (v.w.readS b.toNat).toNat = some q ∧
        (q.kind = 6 → srWritable q.num = true) ∧ waitsBoundary s v.wid wid' u = true) fun _ s => s) ∧
    (∀ wid' u q, Reports (.wread d a b) two
      (fun v s => targetWave v s a = .ok (wid', u) ∧ parseSelector u (v.w.readS b.toNat).toNat = some q ∧
        waitsBoundary s v.wid wid' u = false)
      (fun v s => holdWave s v.wid wid' u)
      (fun v s => selectRead (holdWave s v.wid wid' u) ((getWave (holdWave s v.wid wid' u) wid').getD u) q)) ∧
    (∀ wid' u q s', Reports (.wwrite d a b) write
      (fun v s => targetWave v s a = .ok (wid', u) ∧ parseSelector u (v.w.readS b.toNat).toNat = some q ∧
        (q.kind = 6 → srWritable q.num = true) ∧ waitsBoundary s v.wid wid' u = false ∧
        selectWrite (holdWave s v.wid wid' u) wid' ((getWave (holdWave s v.wid wid' u) wid').getD u) q
          (v.w.readS64 (d.toNat + 2)).toNat = .ok s')
      (fun _ _ => s') (fun _ _ => 0)) ∧
    (∀ wid' u, Reports (.wresume d a) { cls := 28, d := d.toNat, rs := [.s a.toNat 1], da := [.s a.toNat 1], priv := true }
      (fun v s => targetWave v s a = .ok (wid', u) ∧ wid' ≠ v.wid ∧ u.frozen = true ∧
        (laneIdx.all fun l => u.lane l == .exited) = false)
      (fun _ s => replay 4 (setWave s wid' { u with frozen := false }) wid') (fun _ _ => 0)) ∧
    Reports (.gsaved d) saves
      (fun v s => v.w.inSave = true ∧ ∃ l u, leaderOf s v.w.gang = some (l, u) ∧ l ≠ v.wid)
      (fun v s => modWave s v.wid fun u => { u with saved := true, inSave := false }) (fun _ _ => 0) ∧
    (let leads := fun (v : Env) (s : State) => v.w.inSave = true ∧ ∃ u, leaderOf s v.w.gang = some (v.wid, u)
     let done := fun (v : Env) (s : State) => ∀ p ∈ gangWaves s v.w.gang,
       (p.1 ≠ v.wid → p.2.saved = true) ∧ appendsInFlight s p.1 = 0
     DoesWhen (.gsaved d) saves.info (fun v s => leads v s ∧ ¬ done v s) (fun _ s => s) ∧
     (∀ g, Reports (.gsaved d) saves (fun v s => leads v s ∧ done v s ∧ fget s.gangs v.w.gang = some g)
       (fun v s => finishSave (modGang (modWave s v.wid fun u => { u with saved := true, inSave := false }) v.w.gang
         fun g => { g with released := true, spad := [], acc := [] }) g.cohort) (fun _ _ => 0))) ∧
    (∀ s c k, fget s.cohorts c = some k → k.preempted = true → k.resident = true → k.ended = false →
      ((∃ n g, n ∈ k.gangs ∧ fget s.gangs n = some g ∧ g.released = false ∧ g.ended = false) → finishSave s c = s) ∧
      ((∀ n ∈ k.gangs, ∀ g, fget s.gangs n = some g → g.released = true ∨ g.ended = true) →
        fget (finishSave s c).cohorts c = some { k with resident := false, saved := true } ∧
        (finishSave s c).gangs = s.gangs ∧ (finishSave s c).mem = s.mem ∧
        ∀ p ∈ (finishSave s c).clusters, p.1 = k.cluster → p.2.started = true → p.2.due = true)) ∧
    (∀ e, Reports (.rdlog d a b) two
      (fun v _ => (v.w.readS a.toNat).toNat % 4 < v.w.tlog.toNat % 8 ∧ v.w.log[(v.w.readS a.toNat).toNat % 4]? = some e)
      (fun _ s => s) (fun v _ => fieldAt e.image (8 * ((v.w.readS b.toNat).toNat % 64)) 8)) ∧
    (∀ g s1 s2, Reports (.csaveq d a) pair
      (fun v s => v.w.inSave = true ∧ leadsAt s v a = true ∧ fget s.gangs v.w.gang = some g ∧
        csaStore true s (rootOf s v.w) (regionGen s (waveRegion s v.w)) (dieOf g.core) (csaBase g.index) g.block = .ok s1 ∧
        csaStore true s1 (rootOf s v.w) (regionGen s (waveRegion s v.w)) (dieOf g.core) (csaBase g.index + 0xC1000 + g.spadg * 0x8000) g.accImage = .ok s2)
      (fun v s => askedBy s2 (waveRegion s v.w)) (fun _ _ => g.descriptors.length)) ∧
    (∀ g blk s1 acc s2, Reports (.creplay d a) pair
      (fun v s => v.w.inRestore = true ∧ leadsAt s v a = true ∧ fget s.gangs v.w.gang = some g ∧
        csaLoad true s (rootOf s v.w) (dieOf g.core) (csaBase g.index) 0x1000 = .ok (blk, s1) ∧
        csaLoad true s1 (rootOf s v.w) (dieOf g.core) (csaBase g.index + 0xC1000 + g.spadg * 0x8000)
          (2 * g.accg * 16384) = .ok (acc, s2) ∧
        blockBad blk = false)
      (fun v s => modGang (askedBy s2 (waveRegion s v.w)) v.w.gang fun x => { x with
        ctxs := (g.ctxs.zip (numsFrom 0 8)).map fun p => replayedCtx blk p.1 (waveOfIndex s v.w.gang) p.2
        eflags := BitVec.ofNat 32 (fieldAt blk 0xC 4), acc := accOfImage acc (2 * g.accg * 4096), replayed := true })
      (fun v s => sumBy (fun p : Ctx × Nat => (replayedCtx blk p.1 (waveOfIndex s v.w.gang) p.2).ops.length)
        (g.ctxs.zip (numsFrom 0 8)))) ∧
    Reports (.tlbinv d a b)
      { cls := 28, d := d.toNat, rs := [pairRun a, .s b.toNat 1], da := [pairRun a], db := [.s b.toNat 1]
        bad := oddReg a, priv := true }
      (fun v _ => v.w.readS b.toNat = 0 ∨ (v.w.readS64 a.toNat).toNat % 65536 = 0)
      (fun v s => { s with tlb := s.tlb.filter fun p => !(p.1 / 2 ^ 48 == (rootOf s v.w).toNat / 65536 &&
        (v.w.readS b.toNat == 0 ||
          decide ((p.1 + 2 ^ 48 - (v.w.readS64 a.toNat).toNat / 65536) % 2 ^ 48 < (v.w.readS b.toNat).toNat))) })
      (fun _ _ => 0) ∧
    (∀ e n s', Reports (.ckmark d a) pair
      (fun v s => v.check s a.toNat [tREGION] 0 = .ok e ∧ startCheckpoint s e.obj none = .ok (n, s'))
      (fun _ _ => s') (fun _ _ => n)) ∧
    (∀ e st, Fails (.ckmark d a) pair st fun v s => v.check s a.toNat [tREGION] 0 = .ok e ∧
      startCheckpoint s e.obj none = .error st) ∧
    (∀ s r g packet, fget s.regions r = some g →
      let owns := g.parent = none ∨ g.ovr % 2 = 1
      (¬ owns ∨ g.ckDest = none → startCheckpoint s r packet = .error 12) ∧
      (owns → g.ckDest ≠ none → (g.ckRun ≠ none → startCheckpoint s r packet = .error 1) ∧
        (g.ckRun = none → g.ckCut = true → startCheckpoint s r packet = .error 7))) ∧
    (let creates : ObjForm := { cls := 27, d := d.toNat, val := true, rs := [pairRun a, pairRun b], da := [pairRun a]
                                db := [pairRun b], bad := oddReg a || oddReg b, priv := true }
     let va := fun (v : Env) => (v.w.readS64 b.toNat).toNat
     let reads := fun (v : Env) (s : State) => fetchBytes s (rootOf s v.w) v.w.gang (va v) 64
     ∀ e s1, let parent := fun (v : Env) (s : State) => v.check s a.toNat [tREGION] rADMIN = .ok e
       Fails (.rgnew d a b) creates 12 (fun v s => parent v s ∧ va v % 64 ≠ 0) ∧
       Fails (.rgnew d a b) creates 12 (fun v s => parent v s ∧ va v % 64 = 0 ∧ reads v s = .bad s1) (fun _ _ => s1) ∧
       ∀ img st, Fails (.rgnew d a b) creates st (fun v s => parent v s ∧ va v % 64 = 0 ∧ reads v s = .ok img s1 ∧
         createRegion s1 e.obj (waveRegion s v.w) (waveDie s v.w) img = .error st) fun _ _ => s1) ∧
    (∀ s parent issuer home img p, fget s.regions parent = some p →
      let made := createRegion s parent issuer home img
      let room := (s.regions.filter fun x => x.2.status != 2).length < 4096
      (7 ≤ p.depth → made = .error 12) ∧
      (p.depth < 7 → ¬ room → made = .error 7) ∧
      (p.depth < 7 → room → regionOfImage (leNat img) (p.depth + 1) parent p.handle = none → made = .error 12)) ∧
    (let sets : ObjForm := { cls := 27, d := d.toNat, rs := pairRun a :: [.s b.toNat 1, .s (b.toNat + 2) 2], da := [pairRun a]
                             db := [.s b.toNat 1, .s (b.toNat + 2) 2], bad := oddReg a || decide (b.toNat % 4 ≠ 0)
                             priv := true }
     ∀ e, let target := fun (v : Env) (s : State) => v.check s a.toNat [tREGION] rADMIN = .ok e
       let below := fun (v : Env) (s : State) => e.obj ≠ waveRegion s v.w ∧ within s e.obj (waveRegion s v.w) = true
       Fails (.rgset d a b) sets 3 (fun v s => target v s ∧ ¬ below v s) ∧
       ∀ st, Fails (.rgset d a b) sets st fun v s => target v s ∧ below v s ∧
         setRegion s e.obj (v.w.readS b.toNat).toNat (v.w.readS64 (b.toNat + 2)).toNat = .error st) ∧
    (∀ s r g n x, fget s.regions r = some g →
      (n = 14 → 2 < x → setRegion s r n x = .error 12) ∧
      (n = 14 → x = 2 → faultDomain s r ≠ r → setRegion s r n x = .error 12) ∧
      (14 < n → setRegion s r n x = .error 12) ∧
      (n ≠ 14 → g.withField n x = none → setRegion s r n x = .error 12)) ∧
    (let resumes : ObjForm := { cls := 28, d := d.toNat, rs := [.s a.toNat 1], da := [.s a.toNat 1], priv := true }
     let sel := fun (v : Env) => (v.w.readS b.toNat).toNat
     (∀ st, Fails (.wread d a b) two st (fun v s => targetWave v s a = .error st) ∧
       Fails (.wwrite d a b) write st (fun v s => targetWave v s a = .error st) ∧
       Fails (.wresume d a) resumes st fun v s => targetWave v s a = .error st) ∧
     (∀ v s, let found := (gangWaves s v.w.gang).find? fun p => p.2.idx == (v.w.readS a.toNat).toNat % 32
       (found = none → targetWave v s a = .error 12) ∧
       ∀ p, found = some p →
         (p.1 ≠ v.wid → p.2.inSave = true ∨ p.2.inRestore = true ∨ p.2.saved = true → targetWave v s a = .error 1) ∧
         (p.1 = v.wid ∨ (p.2.inSave = false ∧ p.2.inRestore = false ∧ p.2.saved = false) → targetWave v s a = .ok p)) ∧
     (∀ wid' u, let names := fun (v : Env) (s : State) => targetWave v s a = .ok (wid', u)
       Fails (.wread d a b) two 12 (fun v s => names v s ∧ parseSelector u (sel v) = none) ∧
       Fails (.wwrite d a b) write 12 (fun v s => names v s ∧ parseSelector u (sel v) = none) ∧
       Fails (.wresume d a) resumes 12 (fun v s => names v s ∧ (wid' = v.wid ∨ u.frozen = false)) ∧
       ∀ q, Fails (.wwrite d a b) write 12 (fun v s => names v s ∧ parseSelector u (sel v) = some q ∧ q.kind = 6 ∧
           srWritable q.num = false) ∧
         ∀ st, Fails (.wwrite d a b) write st fun v s => names v s ∧ parseSelector u (sel v) = some q ∧
           (q.kind = 6 → srWritable q.num = true) ∧ waitsBoundary s v.wid wid' u = false ∧
           selectWrite (holdWave s v.wid wid' u) wid' ((getWave (holdWave s v.wid wid' u) wid').getD u) q
             (v.w.readS64 (d.toNat + 2)).toNat = .error st)) ∧
    Fails (.gsaved d) saves 12 (fun v _ => v.w.inSave = false) ∧
    Fails (.rdlog d a b) two 12 (fun v _ => v.w.tlog.toNat % 8 ≤ (v.w.readS a.toNat).toNat % 4 ∨
      v.w.log[(v.w.readS a.toNat).toNat % 4]? = none) ∧
    Fails (.csaveq d a) pair 12 (fun v s => v.w.inSave = false ∨ leadsAt s v a = false) ∧
    Fails (.creplay d a) pair 12 (fun v s => v.w.inRestore = false ∨ leadsAt s v a = false) ∧
    (∀ g blk s1 acc s2, DoesWhen (.creplay d a) pair.info
      (fun v s => v.w.inRestore = true ∧ leadsAt s v a = true ∧ fget s.gangs v.w.gang = some g ∧
        csaLoad true s (rootOf s v.w) (dieOf g.core) (csaBase g.index) 0x1000 = .ok (blk, s1) ∧
        csaLoad true s1 (rootOf s v.w) (dieOf g.core) (csaBase g.index + 0xC1000 + g.spadg * 0x8000)
          (2 * g.accg * 16384) = .ok (acc, s2) ∧ blockBad blk = true)
      fun v s => takeTrap s v.wid ⟨cOBJ, 12, v.pc, v.pc, 0, false⟩) ∧
    Fails (.tlbinv d a b)
      { cls := 28, d := d.toNat, rs := [pairRun a, .s b.toNat 1], da := [pairRun a], db := [.s b.toNat 1]
        bad := oddReg a, priv := true } 12
      (fun v _ => v.w.readS b.toNat ≠ 0 ∧ (v.w.readS64 a.toNat).toNat % 65536 ≠ 0)

/-! ### Traps and returns (spec/11, spec/23) -/

/-- R175, R199, R374: ereturn in S mode restores the held U-mode state. The live lanes at the least held PC of a live lane
go on at SR.TRESUME, the others at their held PCs; a context that an engine fault stopped retries (R207). A parked
group whose wait is over wakes with its result. The operand log then performs afresh, its oldest entry first; a trap
that is pending is entered in place of that, with SR.TRESUME and the log as they were, PREEMPT as
PendingTrapsAreEntered has it, and where its entry must wait the return waits. R381: a return that ends a restore
waits for creplay and for the leader's stores, loads SR.SCRA to SR.SCRD from the wave's block, lets the contexts that
creplay re-entered stopped retry, and with the gang's last one unmaps its context save area. That a group is
re-evaluated once is a reading (log 81). -/
def Obligations.TrapReturnResumes : Prop :=
  ∀ s wid w pc iss ws (m : DWord),
    Stands s wid w pc iss ws → Passes w { cls := 17, priv := true } ws → w.held.pcs.length = 32 →
    let live := fun l => w.held.lanes.getD l .exited == .live
    ((∃ l ∈ laneIdx, live l = true ∧ w.held.pcs.getD l 0 = m) ∨
      (∀ l ∈ laneIdx, live l = false) ∧ ∃ l ∈ laneIdx, w.held.lanes.getD l .exited = .parked) →
    (∀ l ∈ laneIdx, live l = true → m.toNat ≤ (w.held.pcs.getD l 0).toNat) →
    let rg := waveRegion s w
    let back : Wave := { w with
      pcs := laneIdx.map fun l => if live l && w.held.pcs.getD l 0 == m then w.tresume else w.held.pcs.getD l 0
      lanes := w.held.lanes, held := ⟨[], []⟩, chain := none, priv := .u, inSave := false, inRestore := false
      trapCtx := none }
    let fresh := fun (c : Ctx) => { c with stopped := false, ops := c.ops.map fun o => { o with idxs := [] } }
    let retried := match w.trapCtx with
      | none => s
      | some k => modCtx s w.gang k fresh
    let t := setWave retried wid back
    let ends := fun (t : State) (u : Wave) =>
      modRegion (setWave t wid { u with ready := s.time + 5 }) rg fun g => { g with progress := 0 }
    let afresh := { back with log := back.log.map fun e => { e with cause := 0 } }
    let read := fun (n : Nat) => (w.groups.take n).foldl (fun t g => settleWait t back g.on) t
    (w.inRestore = false → (∀ i g, i < 64 → w.groups[i]? = some g → groupResult (read (i + 1)) back g = none) →
      let t := read 64
      (w.pend = [] → exec .ereturn s = .next (replay 4 (ends t afresh) wid)) ∧
      (w.pend = [] → w.log = [] → exec .ereturn s = .next (ends t back)) ∧
      (∀ p rest, w.pend = p :: rest → p.cause ≠ cPREEMPT → effTrapvec s rg ≠ 0 →
        exec .ereturn s = .next (modWave (ends t back) wid fun u =>
          { u with pend := rest, trapCtx := p.ctx, frozen := false }.trapped (effTrapvec s rg) p.cause p.info
            (p.tpc.getD back.stopPC) w.tresume p.taddr (min w.log.length 4))) ∧
      (∀ p rest, w.pend = p :: rest → p.cause = cPREEMPT →
        let u := { back with ready := s.time + 5, pend := rest, frozen := false }
        EntersPreempt (ends t back) s wid u rg back.stopPC w.tresume (exec .ereturn s))) ∧
    (w.inRestore = true → ∀ gg l lw, fget s.gangs w.gang = some gg → leaderOf s w.gang = some (l, lw) →
      let held := rangeHeld s (effPtroot s (gangRegion s w.gang)) (csaBase gg.index) (csaPages gg)
      (gg.replayed = false ∨ appendsInFlight s l ≠ 0 ∨ held = true → exec .ereturn s = .next s) ∧
      (gg.replayed = true → appendsInFlight s l = 0 → held = false →
        let saved := csaLoad false s (effPtroot s rg) (dieOf gg.core) (csaBase gg.index + waveBlock w.idx + 0x4600) 32
        (saved.made = none → exec .ereturn s = .next s) ∧
        (∀ bs s1 g1, saved = .ok (bs, s1) → getWave s1 wid = some w → fget s1.gangs w.gang = some g1 →
          w.trapCtx = none → w.groups = [] → w.pend = [] → w.log = [] →
          let scratch := fun (k : Nat) => BitVec.ofNat 64 (fieldAt bs (8 * k) 8)
          let back := { back with scra := scratch 0, scrb := scratch 1, scrc := scratch 2, scrd := scratch 3 }
          let t := modGang (setWave (askedBy s1 rg) wid back) w.gang fun g => { g with
            returned := w.idx :: g.returned
            ctxs := g.ctxs.map fun c => if c.retry then { fresh c with retry := false } else c }
          let others := ∃ p ∈ gangWaves t w.gang, p.2.inRestore = true
          (others ∨ g1.restoring = false → exec .ereturn s = .next (ends t back)) ∧
          (¬ others → g1.restoring = true →
            exec .ereturn s = .next (ends (modGang (unmapRange t (effPtroot t (gangRegion t w.gang)) (gangRegion t w.gang)
              (csaBase g1.index) (csaPages g1)) w.gang fun g => { g with
                restoring := false, replayed := false, csa := false, returned := [] }) back))))) ∧
    (∀ g r, w.inRestore = false → w.groups = [g] → groupResult (read 1) back g = some r → w.pend = [] → w.log = [] →
      let t := read 1
      let word := waitWord t (effPtroot t rg) 3 (back.pc (lowLane g.mask))
      let sd := word.1.toNat / 2 ^ 15 % 128
      ∃ t' u, exec .ereturn s = .next t' ∧ getWave t' wid = some u ∧ u.priv = .u ∧ u.groups = [] ∧
        u.lanes = laneIdx.map (fun l => if bitAt g.mask l then .live else back.lane l) ∧
        u.pcs = laneIdx.map (fun l => if bitAt g.mask l then word.2 else back.pc l) ∧
        u.s = ((w.writeS sd (BitVec.ofNat 32 r.st)).writeS (sd + 1) (BitVec.ofNat 32 r.idx)).s ∧
        u.v = w.v ∧ u.p = w.p ∧ u.t = w.t ∧ t'.mem = t.mem)

/-- R371, R373, R375, R377: a pending trap stands before those of a greater place in the order: an engine fault 20 and its
context (EnginesWork), POOLOVF 30, that of an engine 31, DEADLOCK and STALL 40 (SchedulerAndMonitors), PREEMPT 50,
which is raised in every wave of every gang of a cohort. At an issue boundary a wave enters the first of its pending
traps, the deferred-precise one before them all, with the registers of Table 23.2, the entries its operand log holds
counted in SR.TLOG; with a trap vector of zero its fault domain is discarded instead. R378: PREEMPT stops the gang's
contexts; the gang's CSA is mapped at its first entry, and while no frame can be made free the entry waits; the
device's items are written, in pages made resident, before the handler runs. R200: an entry that cannot be resolved
traps with DEFER, the address it faulted on and the PC of its instruction. Where a wave whose lanes are all parked
stops is a reading (log 14), and so are when a wave with an unresolvable entry stops (log 19) and that a hold ends
with the first trap entered while PREEMPT is pending (log 69). A wave whose send to another module has gone out is at
no boundary (log 82). -/
def Obligations.PendingTrapsAreEntered : Prop :=
  (∀ (s : State) (wid : Nat) (u : Wave) (p : Pending), getWave s wid = some u →
    let q := u.pend.filter (fun x => x.order ≤ p.order) ++ [p] ++ u.pend.filter (fun x => p.order < x.order)
    getWave (addPending s wid p) wid = some { u with pend := q } ∧
    (u.pend.Pairwise (fun a b => a.order ≤ b.order) → q.Pairwise fun a b => a.order ≤ b.order)) ∧
  (∀ s c k g wid u, fget s.cohorts c = some k → k.preempted = false → k.resident = true → k.ended = false → g ∈ k.gangs →
    getWave s wid = some u → u.gang = g → u.idx < 32 → u.ended = false →
    ∃ x, getWave (raisePreempt s c) wid = some x ∧ ⟨50, cPREEMPT, 0, none, 0, none⟩ ∈ x.pend ∧ ∀ p ∈ u.pend, p ∈ x.pend) ∧
  ∀ s wid w, getWave s wid = some w → w.ended = false → w.saved = false → w.priv = .u → s.host.powered = true →
    regionStatus s (waveRegion s w) ≠ 2 → (w.frozen = false ∨ ∃ p ∈ w.pend, p.cause = cPREEMPT) →
    (sendStands s wid w = true →
      exec (.trapEntry wid) s = .next s ∧ exec (.deferredPreciseTrap wid) s = .next s) ∧
    (sendStands s wid w = false →
    let rg := waveRegion s w
    let vec := effTrapvec s rg
    let count := min w.log.length 4
    ((∃ e ∈ w.log.head?, e.cause ≠ 0) → exec (.trapEntry wid) s = .next s) ∧
    ((∀ e ∈ w.log.head?, e.cause = 0) →
      (∀ p rest, w.pend = p :: rest → p.cause ≠ cPREEMPT →
        let u := { w with pend := rest, trapCtx := p.ctx, frozen := false }
        (vec ≠ 0 → exec (.trapEntry wid) s = .next (setWave s wid
          (u.trapped vec p.cause p.info (p.tpc.getD w.stopPC) w.stopPC p.taddr count))) ∧
        (vec = 0 → exec (.trapEntry wid) s = .next (discardOf (setWave s wid u) rg))) ∧
      (∀ p rest, w.pend = p :: rest → p.cause = cPREEMPT →
        EntersPreempt s s wid { w with pend := rest, frozen := false } rg w.stopPC w.stopPC (exec (.trapEntry wid) s))) ∧
    (∀ e rest op, w.log = e :: rest → e.cause ≠ 0 → w.dues = [] → memOpOf e.word = some op → vec ≠ 0 →
      exec (.deferredPreciseTrap wid) s = .next (setWave s wid ({ w with frozen := false }.trapped vec e.cause
        (memInfoBits op e.flane) e.pc w.stopPC e.fva (8 + count)))))

/-! ### Events of the Cistern (spec/15, spec/23, spec/25) -/

/-- R265, R275, R289, R290: a fill gives a stack page a zeroed frame charged to the gang's region, brings a page back from
the deep tier, or sets MIG in the leaves of a host-side page, or pins one at its fourth move; each releases the
waiters. What it moves is traffic of the region that asked (spec/21 R366), and a fault resolved is its progress
(spec/23 R383); a fill that resolves nothing is none. A migration that completes copies the page to a frame of the
die, charged, and writes its leaves; where no frame can be had the leaves take back their entries. Which frame is
given is the model's choice (log 9); that a fill needs no waiting access (log 31), that a request makes room by at
most 64 evictions (log 42) and what ends a move without a frame (log 77) are readings. A move waits while a checkpoint
has still to copy the page, or its leaves cannot be written (spec/17 R320, spec/25 R395). -/
def Obligations.PagesAreFilledAndMoved : Prop :=
  (∀ s0 rg va die (s1 : State), (fget s0.regions rg).isSome = true →
    let root := effPtroot s0 rg
    let s := settleWalk s0 root va
    let filled := exec (.pageFill rg va die) s0
    let ends := fun (t : State) => Host.Outcome.next (σ := State) (φ := Fault) (ρ := Refusal)
      (replayAll (askedBy (resolutionFor s0 t rg root va) rg))
    tablesHeld s root va = false →
    (∀ f s2 s3, walk s root va = .invalid → isStackVA va = true → fillRoom s root va (die % 4) = some s1 →
      takeHbm s1 (die % 4) = some (f, s2) →
      mapPage (traffic (charge (zeroFrame s2 f) .hbm (stackRegion s1 root va) 1) 0 0 65536) root (stackRegion s1 root va)
        (die % 4) (va / 65536 * 65536) (hbmLeaf f true false false) = some s3 →
      filled = ends s3) ∧
    (∀ a e f d s2, walk s root va = .leaf a e f false → pMig e = false → pGranted e = false → leavesHeld s f = false →
      pTier e = 1 → fillRoom s root va (die % 4) = some s1 → takeHbm s1 ((f - 0x1000000) / Config.deepPages) = some (d, s2) →
      let moved := retarget (movePage s2 f d) f fun e => pField (pField e 8 2 0) 22 36 d
      filled = ends (pageTraffic
        (charge (uncharge (freeFrame moved f) .deep (pageCharge s1 root f) 1) .hbm (pageCharge s1 root f) 1) f d)) ∧
    (∀ a e f, walk s root va = .leaf a e f false → pMig e = false → pGranted e = false → leavesHeld s f = false →
      pTier e = 2 → pPin e = false → fillRoom s root va (die % 4) = some s1 →
      (fourthMove s f = true → filled = ends (retarget s f fun e => pSet e 11 true)) ∧
      (fourthMove s f = false →
        let marked := retarget s f fun e => pSet e 10 true
        let move : Migration := ⟨root, va, die % 4, (leavesAt s f).map fun l => ⟨l.root, l.va, l.at', l.e⟩⟩
        filled = ends { marked with migs := fset marked.migs f move }))) ∧
  (∀ s rg va die (s1 : State),
    let root := effPtroot s rg
    let ends := fun (t : State) => Host.Outcome.next (σ := State) (φ := Fault) (ρ := Refusal) (replayAll (askedBy t rg))
    (∀ f m, migrationOf s root va = some (f, m) → moveWaits s f m = true → exec (.migrationDone rg va die) s = .next s) ∧
    (∀ f m, migrationOf s root va = some (f, m) → moveWaits s f m = false → s.host.mig = none → m.leaves ≠ [] →
      isHostPA (f * 65536) = true →
      let r := pageCharge s m.root f
      (∀ d s2, makeRoom (die % 4) r 1 64 s = some s1 → takeHbm s1 (die % 4) = some (d, s2) →
        let t := pageTraffic (charge (copyHostFrame s2 f d) .hbm r 1) f d
        let leaf := fun (l : Moving) => pField (pSet (pSet (pField (pField l.e 8 2 0) 22 36 d) 10 false) 16 true) 18 4
          (genFor t rg l.root % 16)
        exec (.migrationDone rg va die) s = ends (resolutionFor s (noteMove (endMove t f leaf) d) rg m.root m.va)) ∧
      (makeRoom (die % 4) r 1 64 s = none → exec (.migrationDone rg va die) s = ends (endMove s f Moving.e)))) ∧
  (∀ s t rg root va,
    let u := resolutionFor s t rg root va
    let counts := fun (r : Nat) => (fget t.regions r).isSome = true → (fget u.regions r).map Region.progress = some 0
    let meant := fun (r x : Nat) => samePage s root va (effPtroot s r) x = true
    (unresolved s root va = false ∨ unresolved t root va = true → u = t) ∧
    (unresolved s root va = true → unresolved t root va = false →
      counts rg ∧
      (∀ p ∈ s.waves, ∀ x ∈ p.2.waitsFor s, meant (waveRegion s p.2) x → counts (waveRegion s p.2)) ∧
      (∀ p ∈ s.gangs, p.2.idle = false → ∀ x ∈ engineWants s p.1 p.2, meant (gangRegion s p.1) x →
        counts (gangRegion s p.1)) ∧
      u.mem = t.mem ∧ u.waves = t.waves))

/-- R396, R289, R290: MIGCMD takes its registers; the result word holds BUSY while a move runs, then 0, 1 for a page that
may not move, or 2 for a region or page that does not exist. A command for a page that moves already, or that a
checkpoint has still to copy (spec/17 R320), waits with BUSY set. The move ends with a copy of the page in the frame
of the other side, its time noted with that frame (R290), and the result. The host frame of a move, and the wait
during a restart, are the model's (log 46), and so is the result of a move that has no frame (log 77). When the fourth
move is judged is the model's choice (log 104). -/
def Obligations.MigrationCommands : Prop :=
  ∀ s rindex va frame, windowOpen s = true → s.host.migResult.getLsbD 63 = false → rindex < 2 ^ 20 → va < 2 ^ 64 →
    let busy := fun (cmd frame : Nat) => modHost s fun h => { h with
      migRegion := BitVec.ofNat 64 rindex, migVa := BitVec.ofNat 64 va, migCmd := BitVec.ofNat 64 cmd
      migResult := 0x8000000000000000, mig := some ⟨rindex, va, cmd, frame, none⟩ }
    let done := fun (t : State) (result : Nat) =>
      modHost t fun h => { h with migResult := BitVec.ofNat 64 result, mig := none }
    let region := s.regions.find? fun p => p.2.index == rindex && p.2.status != 2
    (s.host.bootstate = 4 →
      exec (.migToHost rindex va frame) s = .next (busy 0 frame) ∧
      exec (.migToDevice rindex va) s = .next (busy 1 0) ∧
      exec (.migPinRelease rindex va) s = .next (busy 2 0)) ∧
    (s.host.bootstate ≠ 4 →
      (region = none →
        exec (.migToHost rindex va frame) s = .next (done (busy 0 frame) 2) ∧
        exec (.migToDevice rindex va) s = .next (done (busy 1 0) 2) ∧
        exec (.migPinRelease rindex va) s = .next (done (busy 2 0) 2)) ∧
      (∀ rg g a e f, region = some (rg, g) →
        let root := effPtroot s rg
        let busy := fun (cmd frame : Nat) => settleWalk (busy cmd frame) root va
        let s1 := settleWalk s root va
        (va % 65536 ≠ 0 →
          exec (.migToHost rindex va frame) s = .next (done (busy 0 frame) 2) ∧
          exec (.migToDevice rindex va) s = .next (done (busy 1 0) 2) ∧
          exec (.migPinRelease rindex va) s = .next (done (busy 2 0) 2)) ∧
        (va % 65536 = 0 → walk s1 root va = .leaf a e f false →
        let marks := fun (t : State) (bit : Nat) (on : Bool) => retarget t f fun e => pSet e bit on
        let starts := fun (cmd frame : Nat) => modHost (startMove (busy cmd frame) root va f 0) fun h =>
          { h with mig := some ⟨rindex, va, cmd, frame, some f⟩ }
        (ckptHolds s1 f = true ∨ leavesHeld s1 f = true →
          exec (.migToHost rindex va frame) s = .next (busy 0 frame) ∧
          exec (.migToDevice rindex va) s = .next (busy 1 0) ∧
          exec (.migPinRelease rindex va) s = .next (busy 2 0)) ∧
        (ckptHolds s1 f = false → leavesHeld s1 f = false →
        (pMig e = true → (fget s.migs f).isSome = true →
          exec (.migToHost rindex va frame) s = .next (busy 0 frame) ∧
          exec (.migToDevice rindex va) s = .next (busy 1 0)) ∧
        (pMig e = false → pTier e = 2 → exec (.migToHost rindex va frame) s = .next (done (busy 0 frame) 0)) ∧
        (pMig e = false → pTier e ≠ 2 → evictable s1 ⟨0, root, va, a, e, f⟩ = false →
          exec (.migToHost rindex va frame) s = .next (done (busy 0 frame) 1)) ∧
        (pMig e = false → pTier e ≠ 2 → evictable s1 ⟨0, root, va, a, e, f⟩ = true →
          exec (.migToHost rindex va frame) s = .next (starts 0 frame)) ∧
        (pMig e = false → pTier e ≠ 2 → exec (.migToDevice rindex va) s = .next (done (busy 1 0) 0)) ∧
        (pMig e = false → pTier e = 2 → pPin e = true ∨ pAmber e = true ∨ pGranted e = true →
          exec (.migToDevice rindex va) s = .next (done (busy 1 0) 1)) ∧
        (pMig e = false → pTier e = 2 → pPin e = false → pAmber e = false → pGranted e = false →
          (fourthMove s1 f = false → exec (.migToDevice rindex va) s = .next (starts 1 0)) ∧
          (fourthMove s1 f = true →
            exec (.migToDevice rindex va) s = .next (done (marks (busy 1 0) 11 true) 0))) ∧
        (pTier e ≠ 2 → exec (.migPinRelease rindex va) s = .next (done (busy 2 0) 1)) ∧
        (pTier e = 2 → exec (.migPinRelease rindex va) s = .next (done (marks (busy 2 0) 11 false) 0)))))) ∧
    (∀ (t : State) rg f m die j, migrationOf t (effPtroot t rg) va = some (f, m) → moveWaits t f m = false →
      m.leaves ≠ [] → t.host.mig = some j → j.going = some f →
      let r := pageCharge t m.root f
      let ends := fun (u : State) (result : Nat) => Host.Outcome.next (σ := State) (φ := Fault) (ρ := Refusal)
        (replayAll (askedBy (done u result) rg))
      (isHostPA (f * 65536) = false →
        let h := hostBase / 65536 + j.frame % (hostBase / 65536)
        let u := movePage (settleFrame t f) f h
        let u := endMove { u with hostL2 := u.hostL2.filter fun p => p.1 / 512 != h } f fun l =>
          pSet (pField (pField l.e 8 2 2) 22 36 h) 11 (fourthMove t f)
        exec (.migrationDone rg va die) t = ends (noteMove (pageTraffic (uncharge (freeFrame u f) .hbm r 1) f h) h) 0) ∧
      (isHostPA (f * 65536) = true →
        (∀ t1 d t2, makeRoom (die % 4) r 1 64 t = some t1 → takeHbm t1 (die % 4) = some (d, t2) →
          let u := pageTraffic (charge (copyHostFrame t2 f d) .hbm r 1) f d
          let leaf := fun (l : Moving) => pField (pSet (pSet (pField (pField l.e 8 2 0) 22 36 d) 10 false) 16 true) 18 4
            (genFor u rg l.root % 16)
          exec (.migrationDone rg va die) t = ends (resolutionFor t (noteMove (endMove u f leaf) d) rg m.root m.va) 0) ∧
        (makeRoom (die % 4) r 1 64 t = none → exec (.migrationDone rg va die) t = ends (endMove t f Moving.e) 1)))

/-- R389, R403: a checkpoint copy writes the page's VA and its bytes at the image's next record, clears D where the leaf's
DGEN is what it was at the mark, and sets SAVED in a page of a segment sealed to its end, of this module or copied
from another, in the leaf and in the entry that a migration keeps; what the Cistern writes to host memory the device
reads back, past the lines that its L2 holds (spec/17 R292, R300); a record that would pass the capacity cuts the
image; then what waited for the copy goes on. R391: when no page is left the header is written and the destination
moves past the image. R386: a discarded subtree is released, and its parent receives CHILDDISCARD. That the leaves a
release writes wait for no copy is the model's choice (log 108). -/
def Obligations.CheckpointsAndReleases : Prop :=
  ∀ s rg g, fget s.regions rg = some g →
    (∀ run page, g.ckRun = some run → page ∈ run.pend →
      let rest := run.pend.filter (· != page)
      let keeps := fun (t : State) (r : CkptRun) => modRegion t rg fun g => { g with ckRun := some r }
      (∀ a e f, walk s g.ptroot (page * 65536) = .leaf a e f false →
        (run.cut = true ∨ run.room < 65544 →
          exec (.checkpointPageCopy rg page) s = .next (replayAll (keeps s { run with pend := [], cut := true }))) ∧
        (run.cut = false → 65544 ≤ run.room →
          let t := settleFrame s f
          let rec' := leBytes 8 (page * 65536) ++ (numsFrom (f * 65536) 65536).map (devByte t)
          let t := askedBy (pageTraffic (hostWrite t (hostBase + run.at') rec') f (hostBase / 65536)) rg
          let whole := fun (e : DWord) => pAmber e && ((segOfFrame t (pFrame e)).map fun x =>
            x.2.1.status == 1 && x.2.1.commit == x.2.1.frozenAt).getD true
          let copied := fun (e : DWord) =>
            let e2 := if pDgen e = fgetD run.dgens page (pDgen e) then pSet e 16 false else e
            if whole e then pSet e2 17 true else e2
          exec (.checkpointPageCopy rg page) s = .next (replayAll (keeps
            (modMoving (putEntry t a (copied e)) a copied)
            { run with pend := rest, pages := run.pages + 1, at' := run.at' + 65544, room := run.room - 65544 })))) ∧
      (walk s g.ptroot (page * 65536) = .invalid →
        exec (.checkpointPageCopy rg page) s = .next (replayAll (keeps s { run with pend := rest })))) ∧
    (∀ run, g.ckRun = some run → run.pend = [] → run.packet = none → 64 ≤ g.ckRoom →
      (∀ p ∈ s.host.packets, p.2.type ≠ 6) →
      let next := (run.at' + 63) / 64 * 64
      exec (.checkpointImageDone rg) s = .next
        (modRegion (hostWrite s (hostBase + run.base) (imageHeader s run)) rg fun g => { g with
          ckRun := none, ckNext := next, ckRoom := g.ckRoom - (next - run.base), ckCut := run.cut })) ∧
    (∀ pa bs, hostBase ≤ pa → pa + bs.length ≤ 2 * hostBase →
      let t := hostWrite s pa bs
      t.mem = setBytes s.mem pa bs ∧ t.pool = s.pool ∧ t.regions = s.regions ∧ t.waves = s.waves ∧
      (s.memoryOk → ∀ i b, bs[i]? = some b → devByte t (pa + i) = b)) ∧
    (∀ p, g.discarding = true → g.status = 2 → landsStill s (subtree s rg) = false → g.parent = some p →
      exec (.discardRelease rg) s = .next (placementDue (pushEvent
        (modRegion (releaseSubtree s (subtree s rg)) rg fun g => { g with discarding := false }) p 3 g.handle)
        fun _ => true))

/-! ### Engine events (spec/13) -/

/-- R206 to R208, R211 to R213, R218, R222: a chunk whose places are all reached writes its bytes and counts as landed; a
matrix row writes its bytes, the accumulators and its flags; a marker adds an arrival; an unresolvable translation
stops the context and makes a trap pending in the issuing wave, and with no live wave discards the fault domain; one
that comes again after creplay goes to a restored wave (R258). What is moved is traffic of the gang's region (spec/21
R366). Which of several faults of a chunk is reported, and that a drained row is a row of memory, are readings (logs
29, 30). R73: an operation whose chunks have all landed, by a write to its progress, completes. R219: a row's index is
read when the row is first processed, and kept. Whether a gather sees an index that it has written itself is free (log
71). How large one access of an engine is (log 101), and that a merge that overflows while the gang has no live wave
delivers nothing (log 105), are the model's choices. -/
def Obligations.EnginesWork : Prop :=
  (∀ s gang k num chunk g c o, engineOp s gang k (·.find? fun x => x.num == num && x.cls == 24) = some (g, c, o) →
     ctxRuns s gang c = true → chunk ∉ o.landed → chunk < o.chunks →
     let root := effPtroot s (gangRegion s gang)
     let landed := fun (t : State) (undo : FMap (BitVec 8)) =>
       let t := modOp t gang k o.num fun x => { x with landed := chunk :: o.landed, undo := undo }
       let t := modCtx t gang k fun c => { c with
         prog := if c.ops.head?.map (·.num) = some o.num then landedPrefix (chunk :: o.landed) else c.prog
         refault := if c.refault = some o.num ∧ chunk = landedPrefix o.landed then none else c.refault }
       let t := match o.bar with
         | some b => updateBarrier t gang b fun x => { x with landed := x.landed + min 4096 (o.total - 4096 * chunk) }
         | none => t
       let t := progressed t (gangRegion t gang)
       if o.chunks ≤ o.landed.length + 1 then completeOp t gang k o.num else t
     (∀ p d s1 s2, o.isCopy = true → (chunkPlan s root gang o chunk).all = .ok p → (chunkPlan s root gang o chunk).dst = .ok d →
       prepareList s (p.locs.take (p.locs.length - d.locs.length)) = (s1, []) → prepareList s1 d.locs = (s2, []) →
       let t := useLeaves (useLeaves s2 root p none) root d (some (regionGen s (gangRegion s gang)))
       exec (.engineChunkLand gang k num chunk) s = .next (landed
         (placeTraffic (setLocs t d.locs (chunkBytes t o chunk (chunkPlan s root gang o chunk))) (gangRegion s gang) p.locs)
         (if o.chunks ≤ 1 ∨ o.fn = 2 then [] else o.undo ++ d.locs.map fun l => (locKey l, locByte t l)))) ∧
     (o.isCopy = false → residentReach s root gang o chunk (fillRefused s root (gangDie s gang)) = true →
       exec (.engineChunkLand gang k num chunk) s = .next (landed s o.undo))) ∧
  (∀ s gang k num chunk g c o, engineOp s gang k (·.find? fun x => x.num == num && x.cls == 24) = some (g, c, o) →
     ctxRuns s gang c = true → (∀ n, n < o.chunks → n ∈ o.landed) →
     exec (.engineChunkLand gang k num chunk) s = .next (completeOp s gang k o.num)) ∧
  (∀ s gang k g c o, ctxRuns s gang c = true →
     let root := effPtroot s (gangRegion s gang)
     (engineOp s gang k (·.head?) = some (g, c, o) → o.cls = 25 →
       (∀ p d s1, o.fn ≠ 7 → c.prog < o.rows →
         (matrixRow s root gang g o c.prog).reach = .ok p → (matrixRow s root gang g o c.prog).dst = .ok d →
         prepareList s p.locs = (s1, []) →
         let r := matrixRow s root gang g o c.prog
         let gen := if o.fn = 3 ∨ o.fn = 4 then some (regionGen s (gangRegion s gang)) else none
         let t := placeTraffic (setLocs (useLeaves s1 root p gen) d.locs r.bytes) (gangRegion s gang) p.locs
         let t := modGang t gang fun x => { x with acc := r.acc }
         let index := o.rowIndex s root gang (c.prog % 64)
         let t := modOp t gang k o.num fun x => { x with
           flags := x.flags ||| r.flags
           idxs := if o.fn = 1 then fset x.idxs (c.prog % 64) index.bits else x.idxs }
         let t := progressed (modCtx t gang k fun x => { x with prog := c.prog + 1, refault := none }) (gangRegion t gang)
         exec (.matrixRowDone gang k) s = .next (if o.rows ≤ c.prog + 1 then completeOp t gang k o.num else t)) ∧
       (o.fn = 7 → exec (.mprogArrive gang k) s = .next (completeOp (match o.bar with
         | some b => updateBarrier s gang b fun x => { x with arr := x.arr + 1 }
         | none => s) gang k o.num))) ∧
     (∀ num cs va wr, engineOp s gang k (·.find? fun x => x.num == num) = some (g, c, o) →
       engineFaultOf s root gang g c o = some (cs, va, wr) →
       let read := settleRead s root gang k o (faultRead s root gang c o) (some va)
       let t := modCtx read gang k fun x => { x with stopped := true, refault := none }
       let goes := fun (wid : Nat) => exec (.engineFault gang k num) s = .next (addPending t wid
         ⟨20 + k, cs, 128 + (if wr then 32 else 0) + k, some o.pc, BitVec.ofNat 64 va, some k⟩)
       let restored := (gangWaves t gang).filter fun p => p.2.restored
       (c.refault = some num →
         ((∃ p ∈ restored, p.1 = o.owner) → goes o.owner) ∧
         (∀ p rest, (∀ q ∈ restored, q.1 ≠ o.owner) → restored = p :: rest → goes p.1)) ∧
       (c.refault ≠ some num ∨ restored = [] →
         (∀ wid, engineTaker t gang o.owner = some wid → goes wid) ∧
         (engineTaker t gang o.owner = none →
           exec (.engineFault gang k num) s = .next (discardOf t (gangRegion s gang))))))

/-! ### Waits, flushes and segments (spec/03, spec/13, spec/17) -/

/-- R52, R54: a parked group's words are read, which merges their lines (spec/17 R304), and where a member is then
satisfied or failed, or has been since the fabric cycle began, it wakes with the status and index of the lowest such;
what has been so is noted after every step. One whose deadline has passed, no member being satisfied, wakes with
TIMEOUT; the result goes to the pair that the wait word at the group's address names (log 32); its lanes go on after
the wait, and SR.TIME alone satisfies an armed timer (R51, R244). R232: a flush writes back every line and an inval
also discards it. That the groups of a held wave wake, and that waits are decided at the end of a fabric cycle, are
readings (log 95). -/
def Obligations.WaitsAndFlushesEnd : Prop :=
  (∀ s wid w n g, getWave s wid = some w → canWake s w = true → w.groups[n]? = some g →
    let result := fun (s : State) =>
      g.first (waitResult s w (eventsFor s (waveRegion s w) (waitRank s w g.mask)) g.on)
    let woken := fun (s : State) (o : Host.Outcome State Fault Refusal) (st idx : Nat) =>
      let word := waitWord s (effPtroot s (waveRegion s w)) 3 (w.pc (lowLane g.mask))
      let sd := word.1.toNat / 2 ^ 15 % 128
      ∃ t u, o = .next t ∧ getWave t wid = some u ∧ u.groups = w.groups.eraseIdx n ∧
        u.lanes = laneIdx.map (fun l => if bitAt g.mask l then .live else w.lane l) ∧
        u.pcs = laneIdx.map (fun l => if bitAt g.mask l then word.2 else w.pc l) ∧
        u.s = ((w.writeS sd (BitVec.ofNat 32 st)).writeS (sd + 1) (BitVec.ofNat 32 idx)).s ∧
        u.v = w.v ∧ u.p = w.p ∧ u.t = w.t ∧ t.mem = s.mem ∧ t.gangs = s.gangs
    let read := settleWait s w g.on
    (∀ r, result read = some r → woken read (exec (.waitWake wid n) s) r.st r.idx) ∧
    (result read = none → exec (.waitWake wid n) s = .next read) ∧
    (result s = none → g.deadline.toNat ≠ 2 ^ 64 - 1 → g.deadline.toNat ≤ s.time / 12 % 2 ^ 64 →
      woken s (exec (.waitTimeout wid n) s) 9 0xFFFFFFFF)) ∧
  (∀ (g : Group) (r : WaitResult),
    (g.met = none → g.first none = none ∧ g.first (some r) = some r) ∧
    (∀ i st, g.met = some (i, st) → g.first none = some ⟨st, i, none⟩ ∧
      (i < r.idx → g.first (some r) = some ⟨st, i, none⟩) ∧ (r.idx ≤ i → g.first (some r) = some r))) ∧
  (∀ (s : State) (wid : Nat) (w : Wave) (n : Nat) (g : Group), getWave s wid = some w → w.groups[n]? = some g → ∃ u x,
    getWave (noteMembers s) wid = some u ∧ u.groups[n]? = some x ∧ x.mask = g.mask ∧ x.on = g.on ∧
    x.met = if canWake s w then (g.first (waitResult s w [] g.on)).map fun r => (r.idx, r.st) else none) ∧
  (∀ s n, exec (.timerExpire n) s = .next s) ∧
  (∀ s w evs m e t, m.kind = 2 → checkHandle s (waveRegion s w) m.operand [tTIMER] rRECV = .ok e →
    fget s.timers e.obj = some t →
    (evalMember s w evs m = .sat ↔ t.armed = true ∧ t.deadline.toNat ≤ s.time / 12 % 2 ^ 64)) ∧
  (∀ s job j w d, fget s.flushes job = some j → getWave (j.lines.foldl writeBack s) j.wave = some w →
    w.dues.find? (fun x => x.on == .flush job) = some d →
    let t := j.lines.foldl writeBack s
    exec (.flushDone job) s = .next (setWave
      { t with
        flushes := fdel t.flushes job, hostL2 := if j.discard then j.lines.foldl fdel t.hostL2 else t.hostL2 } j.wave
      { w.writeS d.sd 0 with dues := w.dues.erase d }))

/-- R309, R310: the bytes of an appended block land, unless a page or a leaf of it waits for a checkpoint's copy (R320) or
a snoop, and the commit tail passes every byte landed without a gap. R312: a sealed segment whose tails meet answers
its aseal. R314: a segment being freed goes once its tails meet, every module that shares it has answered (R334) and
no checkpoint has still to copy a page or a table of it (R320), with FREEDONE; the slots that hold its pages lose
them. R313: a die with frames to spare takes a replica of a sealed page. The order in which blocks land is named by
the event (log 26), and a replica is a frame taken (log 36). -/
def Obligations.SegmentsLand : Prop :=
  ∀ s seg g, fget s.segments seg = some g → g.gone = false →
    (∀ n b, g.blocks[n]? = some b → b.landed = false → (∀ x ∈ g.blocks, x.data ≠ []) →
      (∀ i, b.off / 65536 ≤ i → i ≤ (b.off + b.data.length - 1) / 65536 →
        ckptHolds s (g.frames.getD i 0) = false ∧ tablesHeld s g.root (g.base.toNat + 65536 * i) = false) →
      let bs := g.blocks.set n { b with landed := true }
      let mem := ((numsFrom b.off b.data.length).zip b.data).foldl (fun m p => setByte m (g.byteAddr p.1) p.2) s.mem
      let dirty := (numsFrom (b.off / 65536) ((b.off + b.data.length - 1) / 65536 - b.off / 65536 + 1)).foldl
        (fun s i => match pageLeaf s g.root (g.base.toNat + 65536 * i) with
          | some (a, e, _) => markDirty s (genFor s g.region g.root) a e
          | none => s) { s with mem := mem }
      ∃ c, exec (.commitTailAdvance seg n) s = .next { dirty with segments := fset dirty.segments seg { g with
          commit := c, blocks := bs.filter fun x => !(x.landed && decide (x.off + x.data.length ≤ c)) } } ∧
        g.commit ≤ c ∧
        (∀ o, g.commit ≤ o → o < c → ∃ x ∈ bs, x.landed = true ∧ x.off ≤ o ∧ o < x.off + x.data.length) ∧
        (∀ x ∈ bs, x.landed = true → x.off ≠ c)) ∧
    (g.status ≠ 0 → g.sealDone = false → g.commit = g.frozenAt →
      exec (.asealDone seg) s = .next (settleSeal { s with segments := fset s.segments seg { g with sealDone := true } } seg)) ∧
    (g.status = 2 → g.commit = g.frozenAt → g.remotes ≠ [] ∨ freeWaits s g = true →
      exec (.afreeDone seg) s = .next s) ∧
    (g.status = 2 → g.commit = g.frozenAt → g.remotes = [] → freeWaits s g = false →
      let t := unmapRange (dropReceived (g.replicas.foldl (fun s r => freeFrame s r.2) (settleSeal s seg))
        fun _ _ b _ => b.shared == some seg) g.root g.region g.base.toNat g.pages
      exec (.afreeDone seg) s = .next (objectEnded (pushEvent
        { t with segments := fset t.segments seg { g with gone := true, replicas := [], blocks := [] } } g.freer 2 g.handle)
        seg)) ∧
    (∀ page die f s1, g.status = 1 → g.commit = g.frozenAt → page < g.pages → die ≤ 3 → 16384 < freeHbm s die →
      (∀ r ∈ g.replicas, r.1 ≠ page * 4 + die) → takeHbm s die = some (f, s1) →
      let from' := g.frames.getD page 0
      exec (.replicaCreate seg page die) s = .next { askedBy (pageTraffic (copyFrame s1 from' f) from' f) noRegion with
        segments := fset s1.segments seg { g with replicas := (page * 4 + die, f) :: g.replicas } })
/-! ### Scheduling and the monitors (spec/21, spec/23) -/

/-- R29, R351 to R361, R368, R375, R377, R380 to R383: placement takes the waiting units in the order of R353, going on
past one that is not eligible or does not fit, and a head-of-line unit alone and on its reserved cores; a request to a
range gives the last chunk of the cluster's claim, at most a grain long, a new claim being the upper half of the
longest pending interval; the procedure runs once for the events of a fabric cycle (R355), and the arbiter after the
placements (R359); a cohort starts with its waves in the run queue; an aged unit goes to the arbiter; a gang on a
reserved core is pre-empted after QUANTUM cycles; and an overrun save, a deadlock, a stall and a memory error do what
they are said to do. Ties, the cost of a reservation and a full object table are readings (logs 37, 42). -/
def Obligations.SchedulerAndMonitors : Prop :=
  (∀ s c,
    let heads := fun (u : Bool × Nat) => ∃ x, fget s.clusters c = some x ∧ x.head = some u
    let prio := fun (u : Bool × Nat) => effPrio s (unitRegion s u)
    let short := fun (u : Bool × Nat) => (coresOf s (unitRegion s u)).length < eff s 8 Region.mincores (unitRegion s u)
    let served := fun (u : Bool × Nat) => ((fget s.regions (unitRegion s u)).map Region.vserv).getD 0
    (orderedUnits s c).Perm (waitingUnits s) ∧ (orderedUnits s c).Pairwise fun a b =>
      (heads a ∧ ¬ heads b) ∨ (heads a ↔ heads b) ∧ (prio b < prio a ∨ prio a = prio b ∧
        ((short a ∧ ¬ short b) ∨ (short a ↔ short b) ∧ (served a < served b ∨ served a = served b ∧
          (unitAge s b < unitAge s a ∨ unitAge s a = unitAge s b ∧
            ((a.1 = true ∧ b.1 = false) ∨ a.1 = b.1 ∧ unitIndex s a ≤ unitIndex s b)))))) ∧
  (∀ (r : Range) c, 0 < r.grain →
    let cut := fun (y : Nat) => r.lo0 + r.grain * ((y - 1 - r.lo0) / r.grain)
    let keeps := fun (x lo : Nat) => if x < lo then fset r.claims c (x, lo) else fdel r.claims c
    (fget r.claims c = none → r.pending = [] → requestChunk r c = none) ∧
    (∀ x y, fget r.claims c = some (x, y) → r.lo0 ≤ x → x < y →
      requestChunk r c = some ((max x (cut y), y), { r with claims := keeps x (max x (cut y)) }) ∧
      x ≤ max x (cut y) ∧ max x (cut y) < y ∧ y - max x (cut y) ≤ r.grain) ∧
    (∀ a b, fget r.claims c = none → (a, b) ∈ r.pending → r.lo0 ≤ a → a < b → b < 2 ^ 64 →
      (∀ i ∈ r.pending, i.2 - i.1 < b - a ∨ i.2 - i.1 = b - a ∧ a < i.1 ∨ i = (a, b)) →
      let rest := r.pending.erase (a, b)
      let s0 := r.lo0 + r.grain * ((a + (b - a) / 2 - r.lo0) / r.grain)
      let m := if s0 = a then a + r.grain else s0
      let x := if b - a ≤ r.grain then a else m
      requestChunk r c = some ((max x (cut b), b), { r with
        claims := keeps x (max x (cut b)), pending := if b - a ≤ r.grain then rest else rest ++ [(a, m)] }))) ∧
  (∀ s shape free cores, fitCores s shape free = some cores → free.Nodup →
    cores.length = shape.length ∧ cores.Nodup ∧ (∀ k ∈ cores, k ∈ free) ∧
    ∀ p ∈ shape.zip cores, coreGranules s p.2 + p.1.1 ≤ 64 ∧ (coreWaves s p.2).length + p.1.2 ≤ 64) ∧
  (∀ s n c, fget s.clusters n = some c → c.run = false → exec (.placement n) s = .next s) ∧
  (∀ s, (∃ p ∈ s.clusters, p.2.run = true ∧ p.2.started = true) → arbiter s = s) ∧
  (∀ s n c u cores, fget s.clusters n = some c → c.run = true → c.started = true → s.host.powered = true →
    let t := { s with clusters := fset s.clusters n { c with run := false } }
    let put := fun (t : State) (u : Bool × Nat) (cores : List Nat) =>
      if u.1 then placeSaved t u.2 n cores else placeRange t u.2 n cores
    (c.head = some u → u ∈ waitingUnits t → c.reserved.Pairwise (· ≤ ·) → unitFit t u c.reserved = some cores →
      exec (.placement n) s = .next (arbiter (put t u cores))) ∧
    (c.head = some u → u ∈ waitingUnits t → unitFit t u (sortBy (fun a b => decide (a ≤ b)) c.reserved) = none →
      exec (.placement n) s = .next (arbiter t)) ∧
    (c.head = none → exec (.placement n) s = .next (arbiter ((orderedUnits t n).foldl (fun t u =>
      if u ∈ waitingUnits t then match unitFit t u (clusterCores n) with
        | some cores => put t u cores
        | none => t
      else t) t)))) ∧
  (∀ s n k, fget s.cohorts n = some k → k.started = false → k.resident = true → k.ended = false →
    regionStatus s k.region ≠ 2 → (∀ g ∈ k.gangs, ∀ x, fget s.gangs g = some x → x.restoring = false) →
    exec (.cohortStart n) s = .next (askedBy (k.gangs.foldl (fun s g => (gangWaves s g).foldl (fun s p =>
      enqueueRun s p.1 true) s) (modCohort s n fun k => { k with started := true })) k.region)) ∧
  (∀ s n, (false, n) ∈ waitingUnits s → unitAgedFlag s (false, n) = false → s.agelimit ≤ unitAge s (false, n) →
    exec (.unitAged false n) s = .next (arbiter { s with ranges := fmod s.ranges n fun r => { r with aged := true } })) ∧
  (∀ s n, (true, n) ∈ waitingUnits s → unitAgedFlag s (true, n) = false → s.agelimit ≤ unitAge s (true, n) →
    exec (.unitAged true n) s = .next (arbiter (modCohort s n fun k => { k with aged := true }))) ∧
  (∀ s n g p, fget s.gangs n = some g → g.ended = false → gangResident s g = true → p ∈ s.clusters →
    p.2.head.isSome = true → g.core ∈ p.2.reserved → g.runStart + 5 * s.quantum ≤ s.time →
    exec (.quantumExpiry n) s = .next (raisePreempt s g.cohort)) ∧
  (∀ s n k g x, fget s.cohorts n = some k → k.preempted = true → k.resident = true → k.ended = false → g ∈ k.gangs →
    fget s.gangs g = some x → x.mask ≠ 0 → x.released = false → x.ended = false → k.raisedAt + 480000 < s.time →
    regionStatus s k.region ≠ 2 → exec (.saveDrainOverrun n) s = .next (discard s (faultDomain s k.region))) ∧
  (∀ s r g, fget s.regions r = some g → g.status ≠ 2 → g.deadRaised = false → 2 ^ 20 ≤ g.deadFor →
    deadlocked s r = true → exec (.deadlockDetect r) s = .next ((leaders s r true).foldl
      (fun s w => addPending s w ⟨40, 0x14, 0, none, 0, none⟩) (modRegion s r fun g => { g with deadRaised := true }))) ∧
  (∀ s r g p, fget s.regions r = some g → g.status = 0 → 2 ^ 26 ≤ g.progress → g.parent = some p →
    let t := pushEvent (modRegion s r fun g => { g with status := 1 }) p 4 g.handle
    exec (.progressStall r) s = .next ((leaders t r false).foldl
      (fun s w => addPending s w ⟨40, 0x15, 0, none, 0, none⟩) t)) ∧
  (∀ s r g, fget s.regions r = some g → g.status ≠ 2 → exec (.memerr r) s = .next (discard s (faultDomain s r)))

/-! ### The fabric (spec/19) -/

/-- R323, R326, R334 to R345: a request of another module performs once, in the order of its checks, or is held behind a
grant of its wave that has not landed; a repeated one is answered again, and an arrival of a retired incarnation is
counted and dropped. A grant reserves, passes its grant point, lands, lets what was held behind it go on, and frees
the sender's frames. A peer that announces its reboot or is silent for 1 000 000 ticks is declared dead, which ends
its proxies, answers the sends that wait for it, frees the frames granted to it and gives back what it reserved. The
link layer takes flits in order, answers an error or a gap with a NAK, drops what the peer acknowledges, replays the
rest after a NAK, and after three failed retrains is down. Link routes, the beats of flits and what a flit carries
beside them are free (log 12); the first sequence numbers are the model's (log 45); when pages are judged and when a
status is written are readings (log 44), and so are the silence of a peer and flits passed on (log 80). -/
def Obligations.FabricEvents : Prop :=
  ∀ (s : State) (link src wave tag incarn port origin header : Nat) (eight : Bool) (words : List Nat) (gword : Nat),
    let noted := notePeer s src incarn
    let key := 2 * (src % 1024 + 1024 * (tag % 2 ^ 18))
    let counts := fun (s : State) (f : LinkPort → LinkPort) => { s with links := fmod s.links link f }
    let out := fun (s : State) (m : Nat) => transmitFor s noRegion m
    let again := fun (s : State) (src : Nat) => Host.Outcome.next (σ := State) (φ := Fault) (ρ := Refusal)
      (out (counts s fun l => { l with dedup := (l.dedup + 1) % 2 ^ 64 }) src)
    let dropped := Host.Outcome.next (σ := State) (φ := Fault) (ρ := Refusal)
      (counts s fun l => { l with retired := (l.retired + 1) % 2 ^ 64 })
    let send := exec (.remoteSendRequest link src wave tag incarn port origin header eight words) s
    let grant := exec (.grantReservation link src wave tag incarn port origin header eight words gword) s
    let msg := arrivedMsg origin header eight words
    let owner := ((fget s.ports port).map Port.region).getD 0
    let answers := fun (t : State) (st : Nat) => Host.Outcome.next (σ := State) (φ := Fault) (ρ := Refusal)
      (let u := progressed t owner
       out { u with dedup := fset u.dedup key st } src)
    let freed := fun (t : State) (n : Nat) (r : RemoteSend) =>
      let u := uncharge (r.frames.foldl freeFrame t) .hbm r.region r.frames.length
      if r.taken then { u with sends := fdel u.sends n }
      else { u with sends := fset u.sends n { r with frames := [], past := false } }
    (retiredArrival s src incarn = true → send = dropped ∧ grant = dropped) ∧
    (retiredArrival s src incarn = false → (fget s.dedup key).isSome = true →
      send = again noted src ∧ grant = again noted src) ∧
    (retiredArrival s src incarn = false → fget s.dedup key = none →
      (∀ h ∈ s.held, 2 * (h.src % 1024 + 1024 * (h.tag % 2 ^ 18)) ≠ key) →
      let waits := (portDead s port = false ∧ ∃ r ∈ s.reservations, r.2.src = src ∧ r.2.wave = wave ∧ r.2.port = port) ∨
        ∃ h ∈ s.held, h.src = src ∧ h.wave = wave ∧ h.port = port
      (waits →
        send = .next { noted with held := s.held ++ [⟨link, src, wave, tag, port, msg, none⟩] } ∧
        grant = .next { noted with held := s.held ++ [⟨link, src, wave, tag, port, msg, some gword⟩] }) ∧
      (¬ waits →
        (portDead s port = true → send = answers noted 4 ∧ grant = answers noted 4) ∧
        (∀ p, portDead s port = false → fget s.ports port = some p →
          (portRoom noted p = true → send = answers (deliver (takeRoom noted port) port msg) 0) ∧
          (portRoom noted p = false → send = answers noted 5) ∧
          (let n := gword % 512
           (p.lz = 0 ∨ p.lzP < n ∨ n = 0 → grant = answers noted 12) ∧
           (p.lz ≠ 0 → n ≤ p.lzP → 0 < n →
             (ringFree p = false ∨ portRoom noted p = false → grant = answers noted 5) ∧
             (ringFree p = true → portRoom noted p = true →
               (mayCharge noted .hbm p.region n = false → grant = answers noted 11) ∧
               (∀ fs s1, mayCharge noted .hbm p.region n = true → takeFrames noted p.home n [] = some (fs, s1) →
                 let t := takeSlot (takeRoom (charge s1 .hbm p.region n) port) port
                 let shared := gword / 2 ^ 18 % 2 == 1
                 let m := { msg with
                   landing := BitVec.ofNat 64 (p.slotVA p.nextSlot)
                   gword := grantWord n (gword / 2 ^ 17 % 2 == 1) shared }
                 let slot : Landing := ⟨[], if shared then some 0 else none, src⟩
                 let resv : Reservation := ⟨src, wave, port, p.nextSlot, m, fs⟩
                 grant = answers { t with
                   ports := fmod t.ports port fun q => { q with
                     reserved := q.reserved + 1, busy := fset q.busy p.nextSlot slot }
                   reservations := fset t.reservations t.serial resv
                   serial := t.serial + 1 } 0))))))) ∧
    (∀ n pages,
      (∀ r, fget s.reservations n = some r → retiredArrival s r.src incarn = false →
        let copy := exec (.grantPageCopy link incarn n pages) s
        let heard := notePeer s r.src incarn
        let answer := fun (t : State) => out { t with
          reservations := fdel t.reservations n, dedup := fset t.dedup (2 * n + 1) r.src } r.src
        (portDead s r.port = true → copy = .next (answer (dropReservation heard n r))) ∧
        (portDead s r.port = false → pages.length = r.frames.length → landingHeld s r = true → copy = .next heard) ∧
        (portDead s r.port = false → pages.length = r.frames.length → landingHeld s r = false →
          let t := answer ((r.frames.zip pages).foldl (fun s p => writeFrame s p.1 p.2)
            (traffic heard noRegion 0 (65536 * pages.length)))
          let u := mapLanding t r.port r.slot r.frames
            (r.msg.gword.getLsbD 17) (if r.msg.gword.getLsbD 18 then some 0 else none) r.src
          let u := deliver { u with ports := fmod u.ports r.port fun q => { q with reserved := q.reserved - 1 } } r.port r.msg
          let landed := progressed u (((fget u.ports r.port).map Port.region).getD 0)
          (landed.held = [] → copy = .next landed) ∧
          (∀ h, landed.held = [h] → grantAhead landed h.src h.wave h.port = false →
            copy = .next (admitHeld { landed with held := [] } h)))) ∧
      (∀ from', fget s.reservations n = none → fget s.dedup (2 * n + 1) = some from' →
        retiredArrival s from' incarn = false →
        exec (.grantPageCopy link incarn n pages) s = again (notePeer s from' incarn) from') ∧
      (∀ m, fget s.late n = some m → retiredArrival s m incarn = true →
        (fget s.reservations n = none → fget s.dedup (2 * n + 1) = none →
          exec (.grantPageCopy link incarn n pages) s = dropped) ∧
        (fget s.sends n = none → exec (.grantAck link incarn n) s = dropped ∧
          ∀ st, exec (.sendReply link incarn n st) s = dropped ∧ exec (.grantPointReply link incarn n st) s = dropped))) ∧
    (∀ n r,
      let root := effPtroot s r.region
      let put := fun (s : State) (r : RemoteSend) => { s with sends := fset s.sends n r }
      let t := settleWalks s root r.va.toNat r.pages
      let carried := fun (s : State) => traffic (traffic s r.region 0 (65536 * r.pages)) r.region 2 (65536 * r.pages)
      (∀ fs, grantPages t root r.va.toNat r.pages = .owned fs → passGrant s n r = put
        (carried (transmit (grantPoint (writeBackAll t) root r.va.toNat fs true) r.module))
        { r with reply := some 0, past := true, owned := true, frames := fs }) ∧
      (∀ k fs, grantPages t root r.va.toNat r.pages = .sealed k fs →
        let v := carried (transmit (grantPoint (writeBackAll t) root r.va.toNat fs false) r.module)
        passGrant s n r = put { v with segments := fmod v.segments k fun g => { g with remotes := r.module :: g.remotes } }
          { r with reply := some 0, past := true, owned := false }) ∧
      (grantPages t root r.va.toNat r.pages = .wait → passGrant s n r = put t { r with accepted := true }) ∧
      (grantPages t root r.va.toNat r.pages = .bad → passGrant s n r = put t { r with reply := some 12 })) ∧
    (∀ n r st, fget s.sends n = some r → retiredArrival s r.module incarn = false →
      let t := notePeer s r.module incarn
      let u := progressed t r.region
      let put := fun (s : State) (r : RemoteSend) => { s with sends := fset s.sends n r }
      (r.grant = false → r.reply = none → st ∈ [0, 4, 5] →
        exec (.sendReply link incarn n st) s = .next (progressed (put t { r with reply := some st }) r.region)) ∧
      (r.grant = true → r.reply = none → r.accepted = true →
        exec (.grantPointReply link incarn n st) s =
          .next (if regionStatus s r.region = 2 then s else passGrant s n r)) ∧
      (r.grant = true → r.reply = none → r.accepted = false → regionStatus t r.region = 2 →
        exec (.grantPointReply link incarn n st) s = .next t) ∧
      (r.grant = true → r.reply = none → r.accepted = false → regionStatus t r.region ≠ 2 →
        (st ∈ [4, 5, 11, 12] → exec (.grantPointReply link incarn n st) s = .next (put u { r with reply := some st })) ∧
        exec (.grantPointReply link incarn n 0) s = .next (passGrant u n r)) ∧
      (r.past = true → exec (.grantAck link incarn n) s = .next (freed u n r)) ∧
      (r.past = false → exec (.grantAck link incarn n) s = .next t)) ∧
    (∀ m announced, m ≠ s.host.module →
      let silent := ∃ p, fget s.peers m = some p ∧ p.dead = false ∧ p.heard + 12000000 ≤ s.time
      (announced = false → ¬ silent → exec (.peerDead m announced) s = .next s) ∧
      (announced = true ∨ silent →
        let known := s.proxies.foldl (fun n p => if p.2.module = m then max n p.2.incarn else n)
          (((fget s.peers m).map Peer.incarn).getD 0)
        let sent := s.sends.filter fun p => p.2.module == m
        let kept := s.reservations.filter fun r => r.2.src == m
        let t := { s with
          peers := fset s.peers m (Peer.mk known true s.time)
          proxies := fmapv (fun _ x => if x.module == m then { x with ended := true } else x) s.proxies
          segments := fmapv (fun _ g => { g with remotes := g.remotes.filter (· != m) }) s.segments
          held := s.held.filter fun h => h.src != m
          late := (sent.map Prod.fst ++ kept.map Prod.fst).foldl (fun l n => fset l n m) s.late }
        let t := sent.foldl (fun t p =>
          if p.2.past = true then freed t p.1 p.2
          else if p.2.past = false ∧ p.2.reply = none then
            { t with sends := fset t.sends p.1 { p.2 with reply := some 4 } }
          else t) t
        exec (.peerDead m announced) s = .next (kept.foldl (fun t r => match fget t.ports r.2.port with
          | none => { t with reservations := fdel t.reservations r.1 }
          | some p =>
            let u := uncharge (r.2.frames.foldl freeFrame t) .hbm p.region r.2.frames.length
            let u := if 0 < p.borrowed then uncharge u .slots p.region 1 else u
            { u with
              reservations := fdel u.reservations r.1
              ports := fset u.ports r.2.port { p with
                reserved := p.reserved - 1, borrowed := p.borrowed - 1, busy := fdel p.busy r.2.slot } }) t))) ∧
    (∀ announced,
      let live := fun (p : Nat × Binding) => p.2.module == s.host.module && !p.2.ended
      let told := if s.names.any live then numsFrom 0 s.host.domainSize
        else (s.aqueduct.filter live).map fun p => p.1 % s.host.domainSize
      let t := told.foldl out { s with host := { s.host with incarnation := (s.host.incarnation + 1) % 2 ^ 24 } }
      exec (.peerDead s.host.module announced) s = .next { t with
        names := fmapv (fun _ b => if b.module == s.host.module then { b with ended := true } else b) t.names
        aqueduct := t.aqueduct.filter fun p => !(p.2.module == s.host.module)
        proxies := fmapv (fun _ x => if x.module == s.host.module then { x with ended := true } else x) t.proxies }) ∧
    (∀ l, fget s.links link = some l →
      let now := fun (l : LinkPort) => Host.Outcome.next (σ := State) (φ := Fault) (ρ := Refusal)
        { s with links := fset s.links link l }
      let past := fun (a b : Nat) => (a + 4096 - b) % 4096
      let acked := fun (l : LinkPort) (n : Nat) =>
        if ∃ f ∈ l.replay, f.seq = n then
          LinkPort.drain { l with
            acked := n, naks := 0
            replay := l.replay.filter fun f => decide (0 < past f.seq n ∧ past f.seq n < 2048) } l.waiting
        else l
      let refused := fun (l : LinkPort) => { l with discarding := true, nakOut := some ((l.expSeq + 4095) % 4096) }
      (∀ flit, l.status = 0 → flit.length = 256 → fieldAt flit 0 2 / 4096 = 1 →
        let seq := fieldAt flit 0 2 % 4096
        let dest := fieldAt flit 4 2 % 1024
        let from' := fieldAt flit 6 2 % 1024
        let l1 := acked l (fieldAt flit 2 2 % 4096)
        let got := { l1 with
          discarding := false, nakOut := none, expSeq := (seq + 1) % 4096, flitsRx := (l1.flitsRx + 1) % 2 ^ 64 }
        let heard := fun (l : LinkPort) => { s with
          links := fset s.links link l, peers := fmod s.peers from' fun p => { p with heard := s.time } }
        (seq = l.expSeq → dest ≠ s.host.module → exec (.flitReceive link flit true) s =
          .next (traffic (routeFlits (heard got) [(dest, from', (flit.drop 8).take 240)]) noRegion 2 256)) ∧
        (seq = l.expSeq → dest = s.host.module →
          let t := heard { got with rx := got.rx ++ [(flit.drop 8).take 240] }
          let x := Config.flitCarries s.fresh
          let gives := fun (t : State) => exec (.flitReceive link flit true) s = .next t
          let request := 2 * (from' % 1024 + 1024 * (x 5 % 2 ^ 18))
          let p := notePeer t from' (x 1)
          let done := fun (p : State) => gives (out { p with dedup := fset p.dedup request 0 } from')
          (x 0 = 0 ∨ 5 < x 0 → gives t) ∧
          (1 ≤ x 0 → x 0 ≤ 5 → retiredArrival t from' (x 1) = true →
            gives (counts t fun l => { l with retired := (l.retired + 1) % 2 ^ 64 })) ∧
          (retiredArrival t from' (x 1) = false →
            (1 ≤ x 0 → x 0 ≤ 3 → (fget t.dedup request).isSome = true →
              gives (out (counts p fun l => { l with dedup := (l.dedup + 1) % 2 ^ 64 }) from')) ∧
            (fget t.dedup request = none →
              (x 0 = 1 → directoryHere p (x 2) = true → x 2 ≠ 0 →
                (∀ b, fget p.names (x 2) = some b → bindingDead p b = true) →
                done { p with names := fset p.names (x 2) ⟨from', x 3, x 1, x 4 % 2 == 1, false⟩ }) ∧
              (x 0 = 1 → ∀ b, fget p.names (x 2) = some b → bindingDead p b = false → done p) ∧
              (x 0 = 3 → done (releaseShared p from' (x 2) (x 3))) ∧
              (x 0 = 2 → directoryHere p (x 2) = true → ∀ b, fget p.names (x 2) = some b →
                b.module = from' → b.ended = false →
                done (endProxiesOf ((numsFrom 0 p.host.domainSize).foldl out
                  { p with names := fset p.names (x 2) { b with ended := true } }) (x 2) from'))) ∧
            (x 0 = 4 → gives { p with segments := fmod p.segments (x 2) fun g =>
              if g.status = 2 then { g with remotes := g.remotes.erase from' } else g }) ∧
            (x 0 = 5 → gives { p with
              dedup := if x 3 % 2 = 0 then fdel p.dedup (2 * (from' % 1024 + 1024 * (x 2 % 2 ^ 18)))
                else if fget p.dedup (2 * x 2 + 1) = some from' then fdel p.dedup (2 * x 2 + 1) else p.dedup }))) ∧
        (0 < past seq l.expSeq → past seq l.expSeq < 2048 →
          exec (.flitReceive link flit true) s = .next (heard (refused l1)))) ∧
      (∀ flit, l.status = 0 → exec (.flitReceive link flit false) s = now (refused l)) ∧
      (∀ q, l.status = 0 →
        let l1 := acked l (q % 4096)
        let count := if l1.nakAt = q % 4096 then l1.naks + 1 else 1
        let replayed := (l1.replayed + l1.replay.length) % 2 ^ 64
        exec (.nakReceive link q) s = now (if 8 ≤ count then
          { l1 with naks := 0, nakAt := q % 4096, replayed := replayed, status := 1, retrain := (l1.retrain + 1) % 2 ^ 64 }
          else { l1 with naks := count, nakAt := q % 4096, replayed := replayed })) ∧
      (l.status = 1 →
        exec (.linkRetrainDone link true) s = now ({ l with status := 0, retrainFails := 0 }.drain l.waiting) ∧
        (2 ≤ l.retrainFails →
          exec (.linkRetrainDone link false) s = .next (routeFlits
            { s with links := fset s.links link { l with status := 2, retrainFails := 3, replay := [], waiting := [] } }
            (l.replay.map (fun f => (f.dest, f.source, f.beats)) ++ l.waiting))) ∧
        (l.retrainFails < 2 →
          exec (.linkRetrainDone link false) s = now { l with
            retrainFails := l.retrainFails + 1, retrain := (l.retrain + 1) % 2 ^ 64 })))

/-! ### Refresh, energy and heat (spec/15, spec/21, spec/25) -/

/-- R283, R365 to R367, R406 to R408: refresh debts, which rise once for each interval of 3 900 ticks, the energy windows
and meter, the traffic that is noted for a region until it is charged, the thermal cap, the trip and the power-off
that follows it. The debt kept at 8 and the rounding of energy are the model's (logs 48, 49), and so is the order at a
window start (log 50). -/
def Obligations.RefreshEnergyAndHeat : Prop :=
  (∀ s ch waiting, ch < 384 →
    let r := fgetD s.channels ch (0, 0, 0)
    let put := fun (pulled forced : Nat) (debt : Int) => Host.Outcome.next (σ := State) (φ := Fault) (ρ := Refusal)
      { s with channels := fset s.channels ch (pulled, forced, debt) }
    let ended := (s.time - s.host.resetAt) / (12 * 3900)
    let seen := fgetD s.intervals ch 0
    (r.2.2 < 8 → seen < ended → exec (.refreshInterval ch) s = .next { s with
      channels := fset s.channels ch (r.1, r.2.1, r.2.2 + 1), intervals := fset s.intervals ch (seen + 1) }) ∧
    (ended ≤ seen → exec (.refreshInterval ch) s = .next s) ∧
    (8 ≤ r.2.2 → exec (.refresh ch waiting) s = put r.1 ((r.2.1 + 1) % 2 ^ 64) (r.2.2 - 1)) ∧
    (0 < r.2.2 → r.2.2 < 8 → exec (.refresh ch false) s = put r.1 r.2.1 (r.2.2 - 1)) ∧
    (-8 < r.2.2 → r.2.2 ≤ 0 → exec (.refresh ch false) s = put ((r.1 + 1) % 2 ^ 64) r.2.1 (r.2.2 - 1)) ∧
    (r.2.2 ≤ -8 → exec (.refresh ch waiting) s = .next s) ∧
    (r.2.2 < 8 → exec (.refresh ch true) s = .next s)) ∧
  (∀ s, s.host.powered = true → s.host.windows < s.time / 12000000 →
    let filled := fun (a e : Int) => min (a + e) (2 * e)
    let cap := s.host.capNext.getD s.host.cap
    let ecap := min cap (thermalCap s.host.tjmax)
    exec .energyWindowStart s = .next (placementDue { s with
      regions := fmapv (fun k g => if energyOf s k = unlimitedEnergy then g
        else { g with account := filled g.account (energyOf s k) }) s.regions
      host := { s.host with
        windows := s.host.windows + 1, cap := cap, capNext := none, ecap := ecap
        account := filled s.host.account (1000 * (ecap : Int)), draw := s.host.windowDrawn / 1000 % 2 ^ 32
        windowDrawn := 0 } } fun _ => true)) ∧
  (∀ t16 : Nat,
    let exact := 2100 - 150 * ((t16 : ℚ) / 16 - 90)
    (t16 ≤ 16 * 90 → thermalCap t16 = 2100) ∧ (16 * 100 ≤ t16 → thermalCap t16 = 600) ∧
    (16 * 90 < t16 → t16 < 16 * 100 →
      (thermalCap t16 : ℚ) ≤ exact ∧ exact < thermalCap t16 + 25 ∧ thermalCap t16 % 25 = 0) ∧
    (∀ u, t16 ≤ u → thermalCap u ≤ thermalCap t16)) ∧
  (∀ (s : State) (core energy kind lines gang : Nat), s.host.powered = true →
    let rate : Nat := [17, 37, 23, 10].getD kind 10
    let r := gangRegion s gang
    let spent := fun (t : State) (e : Nat) => { t with host := { t.host with
      account := t.host.account - e, windowDrawn := t.host.windowDrawn + e } }
    let charged := fun (t : State) (r e : Nat) => (regionPath t r).foldl (fun u k =>
      if energyOf t k = unlimitedEnergy then u else modRegion u k fun g => { g with account := g.account - e }) t
    let mine := s.gangs.filter fun p => p.2.core == core && gangResident s p.2
    let total := sumBy (fun p : Nat × Gang => p.2.work) mine
    let split := mine.foldl (fun t p =>
      let t := if total = 0 then t else charged t (gangRegion t p.1) (energy * p.2.work / total)
      modGang t p.1 fun g => { g with work := 0 }) (spent s energy)
    let moved := fset s.moved r (fgetD s.moved r 0 + 128 * lines * rate)
    let reads := (s.time - s.host.resetAt) / 120000
    let had := fgetD s.metered core 0
    (reads ≤ had → exec (.energyMeterRead core energy [(gang, kind, lines)]) s = .next s) ∧
    (had < reads → exec (.energyMeterRead core energy [(gang, kind, lines)]) s = .next (moved.foldl (fun t p =>
      let cost := p.2 / (128 * 10000)
      charged (spent { t with moved := fset t.moved p.1 (p.2 % (128 * 10000)) } cost) p.1 cost)
        { split with moved := moved, metered := fset s.metered core reads }))) ∧
  (∀ (s : State) (r kind bytes : Nat) (src dst : Nat),
    (traffic s r kind bytes).moved = fset s.moved r (fgetD s.moved r 0 + bytes * [17, 37, 23, 10].getD kind 10) ∧
    pageTraffic s src dst = traffic (traffic s 0 (trafficKind (src * 65536)) 65536) 0 (trafficKind (dst * 65536)) 65536 ∧
    (∀ m, m ≠ s.host.module → transmitFor s r m = traffic (transmit s m) r 2 (256 * (Config.linkBeats s.fresh m).length)) ∧
    transmitFor s r s.host.module = s ∧
    (∀ n, fget s.moved 0 = some n → askedBy s r = { s with moved := fset (fdel s.moved 0) r (fgetD s.moved r 0 + n) })) ∧
  (∀ s tj tin flow, s.host.powered = true → tj < 65536 → tin < 65536 → flow < 65536 →
    exec (.thermalCapUpdate tj tin flow) s = .next { s with host := { s.host with
      tjmax := tj, tin := tin, flow := flow, ecap := min s.host.cap (thermalCap tj)
      hotSince := if 720 < tin then some (s.host.hotSince.getD s.time) else none
      dryAt := if flow < 750 then some (s.host.dryAt.getD s.time) else none } }) ∧
  (∀ s, s.host.powered = true → s.host.trip = false →
    let tripped := Host.Outcome.next (modHost (discardRoot s) fun h => { h with
      queues := fmapv (fun _ q => { q with error := true }) h.queues, trip := true, bootstate := 6
      failCode := Config.failureCode 6 % 2 ^ 32, tripAt := some s.time })
    (1680 ≤ s.host.tjmax → exec .thermalTrip s = tripped) ∧
    (∀ t, s.host.hotSince = some t ∨ s.host.dryAt = some t → t + 12000000000 ≤ s.time →
      exec .coolantTimeout s = tripped)) ∧
  (∀ s t, s.host.powered = true → s.host.tripAt = some t → t + 12000000000 ≤ s.time →
    exec .diePowerOff s = .next { s with
      hostL2 := [], tlb := [], pool := [], flushes := [], host := { s.host with powered := false } })
/-! ### Reset, boot and firmware (spec/01, spec/03, spec/25) -/

/-- R16, R22, R401, R402, R404, R409: a reset release leaves every register at its reset value but those it names (flash,
fuses, the incarnation, memory and what the host holds of it), clears SR.TIME when it is cold, and verifies the images
at BOOTSTATE 1 or names the one that does not verify; with the first cluster's start the images are loaded and
measured, at BOOTSTATE 2; the clusters start in order, one every 2 us; with the last the links are trained, the root
region is made and BOOTSTATE is 3, before which no queue is fetched. A firmware restart ends at BOOTSTATE 3, when the
commands that waited begin, the third within 10 s at 5. That a warm boot keeps memory is the model's choice (log 51),
and so are the images of a delivered module (log 7), the failure codes, which are free (log 15), what the root's
charges start at (log 52) and when a boot step or a restart ends (log 57). -/
def Obligations.BootAndRestart : Prop :=
  (∀ s cold,
    let o := if cold then exec .coldReset s else exec .warmBoot s
    cold = true ∨ s.host.trip = false →
    ∃ t, o = .next t ∧
      t = { State.reset with
        time := t.time, agenda := s.agenda, fresh := s.fresh, serial := s.serial, mem := t.mem, hostLines := t.hostLines
        host := { HostState.reset with
          resetAt := t.time, incarnation := s.host.incarnation, bank0 := s.host.bank0, bank1 := s.host.bank1
          counters := s.host.counters, reached := s.host.reached, windows := t.time / 12000000
          hostBias := if cold then [] else s.host.hostBias, bootstate := t.host.bootstate
          failCode := t.host.failCode } } ∧
      t.time = (if cold then 0 else s.time) ∧ t.waves = [] ∧ t.gangs = [] ∧ t.cohorts = [] ∧
      t.ranges = [] ∧ t.regions = [] ∧ t.entries = [] ∧ t.ports = [] ∧ t.segments = [] ∧ t.tlb = [] ∧ t.pool = [] ∧
      t.links = [] ∧ t.agelimit = 2097152 ∧ t.quantum = 1048576 ∧ t.host.queues = [] ∧ t.host.biascmd = 0 ∧
      t.host.cap = 2100 ∧ t.host.trip = false ∧ t.host.incarnation = s.host.incarnation ∧
      t.host.resetAt = t.time ∧ (∀ m, verifyImages s [1, 2, 3, 4] = .ok m → t.host.bootstate = 1 ∧ t.clusters = []) ∧
      (∀ i, verifyImages s [1, 2, 3, 4] = .error i → t.host.bootstate = 5 ∧ t.clusters = []) ∧
      (cold = false → t.mem = s.mem)) ∧
  (∀ s m, s.host.bootstate = 1 → verifyImages s [1, 2, 3, 4] = .ok m →
    ∃ t, exec (.clusterStart 0) s = .next t ∧ t.host.bootstate = 2 ∧ t.host.running = m ∧ t.host.startAt = s.time ∧
      (∀ i x, (i, x) ∈ m → i < 5 → fget t.host.measurements i = (fget m i).map Image.digest) ∧
      fget t.host.measurements 5 = some (Config.fuseDigest s.host.counters) ∧ t.clusters.length = 48 ∧
      (∀ p ∈ t.clusters, p.2.started = decide (p.1 = 0))) ∧
  (∀ s n c, fget s.clusters n = some c → s.host.bootstate = 2 → s.time < s.host.startAt + 24000 * n →
    exec (.clusterStart n) s = .next s) ∧
  (∀ s n c, fget s.clusters n = some c → s.host.bootstate = 2 → c.started = false →
    s.host.startAt + 24000 * n ≤ s.time → (∀ p ∈ s.clusters, p.1 < n → p.2.started = true) →
    let t := { s with clusters := fset s.clusters n { c with started := true } }
    ((∃ p ∈ t.clusters, p.2.started = false) → exec (.clusterStart n) s = .next t) ∧
    ((∀ p ∈ t.clusters, p.2.started = true) →
      let u := createRoot { t with links := (numsFrom 0 16).map fun p => (p, trainedLink) }
      exec (.clusterStart n) s = .next { u with host := { u.host with
        incarnation := (s.host.incarnation + 1) % 2 ^ 24, bootstate := 3, everReady := true
        reached := (s.host.reached ++ s.host.running.map fun p => (p.1, p.2.version)).dedup } })) ∧
  (∀ s q, s.host.bootstate ≠ 3 → nextPacket s q = none) ∧
  (∀ s q x, s.host.bootstate = 3 → s.host.powered = true → fget s.host.queues q = some x → x.en = true →
    x.error = false → x.ci < x.latch → nextPacket s q = some (hostBytes s (x.base + 64 * (x.ci % 2 ^ x.lsize)) 64)) ∧
  (∀ s f s1 m, takeHbm s 0 = some (f, s1) → makeObject (zeroFrame s1 f) tREGION s1.serial 25 0 false = .ok m →
    ∃ g, fget (createRoot s).regions m.obj = some g ∧ g.status = 0 ∧ g.depth = 0 ∧ g.ovr = 0 ∧ g.share = 1 ∧ g.fdom = 1 ∧
      g.prio = 0 ∧ g.maxcores = 192 ∧ g.mincores = 0 ∧ g.sramg = 12288 ∧ g.objq = 1048576 ∧ g.msgpool = 0xFFFFFFFF ∧
      g.energy = 0xFFFFFFFF ∧ g.deepp = 25165824 ∧ g.hbmp = 12582912 ∧ g.trapvec = 0 ∧ g.parent = none ∧
      g.handle = m.handle ∧ g.ptroot = BitVec.ofNat 64 (f * 65536)) ∧
  (∀ s, s.host.bootstate = 3 →
    let recent := s.host.restarts.filter fun t => decide (s.time < t + 120000000000)
    let noted := modHost s fun h => { h with restarts := s.time :: recent }
    let begun := if recent.length < 2 then modHost noted fun h => { h with bootstate := 4 }
      else modHost (discardRoot noted) fun h => { h with bootstate := 5, failCode := Config.failureCode 5 % 2 ^ 32 }
    exec .jasperHeartbeatTimeout s = .next begun ∧ exec .jasperException s = .next begun) ∧
  (∀ s, s.host.bootstate = 4 → s.host.biascmd.getLsbD 63 = false → s.host.migResult.getLsbD 63 = false →
    exec .firmwareRestartDone s = .next
      (modHost (s.host.heldWords.foldl writeCompletion s) fun h => { h with bootstate := 3, heldWords := [] })) ∧
  (∀ s, s.host.bootstate = 4 → exec .firmwareRestartDone s = .next (serveMig (beginFlip
    (modHost (s.host.heldWords.foldl writeCompletion s) fun h => { h with bootstate := 3, heldWords := [] })))) ∧
  (∀ s, s.host.biascmd.getLsbD 63 = true → s.host.flip = none →
    let gran := s.host.biascmd.toNat % 2 ^ 18
    let host := gran ∈ s.host.hostBias
    let done := modHost s fun h => { h with biascmd := h.biascmd &&& 0x7FFFFFFFFFFFFFFF }
    let begins := fun (d : Bool) (lines : List Nat) => modHost s fun h => { h with flip := some ⟨gran, d, lines, s.time⟩ }
    (s.host.biascmd.getLsbD 18 = true →
      (host → beginFlip s = begins true (numsFrom (gran * 32) 32)) ∧ (¬ host → beginFlip s = done)) ∧
    (s.host.biascmd.getLsbD 18 = false → (host → beginFlip s = done) ∧ (¬ host → beginFlip s = begins false [])))

/-! ### The host's requests (spec/17, spec/21, spec/25) -/

/-- R299, R346, R347, R357, R392 to R396, R402, R405, R406: doorbells, queue enables, parameters, the cap, the bias
commands and their flips, writes of the register window at its other offsets, the coherent window, unsupported
requests, the mailbox and the SPDM requests. The SPDM answers the manual does not give, its signatures among them, are
free (log 15), and a host access outside the window stands for a host store (log 16). What a mailbox command is
refused for (log 53), where its words stand (log 79), which region a queue may name (log 55) and that a write of a
queue context with nonzero reserved bits takes effect in the other bits (log 54) are readings; the frame of host
memory that a move by MIGCMD takes is free (log 46). -/
def Obligations.HostRequests : Prop :=
  ∀ s,
    (∀ fn off size val, windowOpen s = false ∨ 64 < fn → exec (.registerWrite fn off size val) s = .next s) ∧
    (windowOpen s = true →
    let host := fun (f : HostState → HostState) => Host.Outcome.next (σ := State) (φ := Fault) (ρ := Refusal)
      { s with host := f s.host }
    let setsQueue := fun (q : Nat) (x : Queue) => host fun h => { h with queues := fset h.queues q x }
    let answers := fun (f : HostState → HostState) (words : List Nat) (result : Nat) => host fun h => { f h with
      mboxReq := words.map (BitVec.ofNat 64) ++ h.mboxReq.drop words.length
      mboxResp := h.mboxResp.set 0 (BitVec.ofNat 64 result) }
    (∀ q val, q < 4096 → val < 2 ^ 64 →
      let x := getQueue s q
      let writes := fun (y : Queue) => exec (.doorbellWrite q 8 val) s = setsQueue q y ∧
        exec (.registerWrite 0 (0x1000000 + 8 * q) 8 val) s = setsQueue q y
      (x.latch < val → val ≤ x.ci + 2 ^ x.lsize → writes { x with latch := val }) ∧
      (x.latch < val → x.ci + 2 ^ x.lsize < val → writes { x with overrun := true }) ∧
      (val ≤ x.latch → exec (.doorbellWrite q 8 val) s = .next s) ∧
      (∀ size, size ≠ 8 → exec (.doorbellWrite q size val) s = setsQueue q { x with error := true })) ∧
    (∀ q, q < 4096 →
      let x := getQueue s q
      exec (.queueDisable q) s = setsQueue q { x with en := false, ci := 0, latch := 0 } ∧
      (x.en = false → exec (.queueEnable q) s = setsQueue q { x with
        en := true, error := !(decide (4 ≤ x.lsize ∧ x.lsize ≤ 16) && (regionOfIndex s x.rgn).isSome) })) ∧
    (∀ q val, q < 4096 → val < 2 ^ 64 →
      let x := getQueue s q
      let at' := 0x100000 + 32 * q
      let reg := fun (o size : Nat) => exec (.registerWrite 0 (at' + o) size val) s
      let y := { x with
        overrun := x.overrun && val / 2 % 2 == 0, error := x.error && (val / 4 % 2 == 0 || x.en) }
      (x.en = false →
        reg 8 8 = setsQueue q { x with base := val / 64 * 64 } ∧
        (val < 2 ^ 32 → reg 4 4 = setsQueue q { x with lsize := val % 32, rgn := val / 2 ^ 12 }) ∧
        (val % 2 = 1 → reg 0 4 = setsQueue q { y with
          en := true, error := !(decide (4 ≤ x.lsize ∧ x.lsize ≤ 16) && (regionOfIndex s x.rgn).isSome) })) ∧
      (x.en = true → reg 8 8 = .next s ∧ reg 4 4 = .next s ∧ (val % 2 = 1 → y ≠ x → reg 0 4 = setsQueue q y)) ∧
      (val % 2 = 0 → reg 0 4 = setsQueue q { y with en := false, ci := 0, latch := 0 }) ∧
      reg 16 8 = .next s ∧ reg 24 8 = .next s) ∧
    (∀ k i val, k < 512 → i < 8 → ∃ t, exec (.registerWrite 0 (0x130000 + 8 * k) 8 val) s = .next t ∧
      let b := val / 2 ^ (8 * i) % 256
      let x := getQueue s (8 * k + i)
      getQueue t (8 * k + i) = if 64 < b ∨ x.en = true then x else { x with owner := b }) ∧
    (∀ fn k val, 1 ≤ fn → fn ≤ 64 →
      (∀ q, (ownedQueues s fn)[k]? = some q →
        exec (.registerWrite fn (0x80000 + 8 * k) 8 val) s = exec (.doorbellWrite q 8 val) s ∧
        ∀ o size, o < 32 → 32 * k + o < 0x80000 →
          exec (.registerWrite fn (32 * k + o) size val) s = exec (.registerWrite 0 (0x100000 + 32 * q + o) size val) s) ∧
      ((ownedQueues s fn)[k]? = none → exec (.registerWrite fn (0x80000 + 8 * k) 8 val) s = .next s)) ∧
    (∀ off size val, off < 0x1000000 → (size ≠ 4 ∧ size ≠ 8) ∨ off % size ≠ 0 →
      exec (.registerWrite 0 off size val) s = .next s) ∧
    (∀ val, val < 2 ^ 64 →
      let pf := fun (off : Nat) => exec (.registerWrite 0 off 8 val) s
      pf 0x10000 = exec (.schedParamWrite false val) s ∧ pf 0x10008 = exec (.schedParamWrite true val) s ∧
      pf 0x20000 = .next (capWrite (val % 65536) { s with
        host := { s.host with caperr := s.host.caperr && val / 65536 % 2 == 0 } }) ∧
      pf 0x30040 = host (fun h => { h with migRegion := BitVec.ofNat 64 val }) ∧
      pf 0x30048 = host (fun h => { h with migVa := BitVec.ofNat 64 val }) ∧
      pf 0x30050 = (if migBusy s then .next s
        else .next (migCommand s s.host.migRegion.toNat s.host.migVa.toNat val (Config.freeValue s.fresh))) ∧
      (∀ i, i < 8 → mailboxBusy s = true → pf (0x30100 + 8 * i) = .next s) ∧
      (∀ i, 1 ≤ i → i < 8 → mailboxBusy s = false →
        pf (0x30100 + 8 * i) = host fun h => { h with mboxReq := h.mboxReq.set i (BitVec.ofNat 64 val) })) ∧
    (∀ val,
      (65536 ≤ val ∧ val ≤ 67108864 → exec (.schedParamWrite false val) s = .next { s with agelimit := val }) ∧
      (65536 ≤ val ∧ val ≤ 16777216 → exec (.schedParamWrite true val) s = .next { s with quantum := val }) ∧
      (val < 65536 ∨ 67108864 < val → exec (.schedParamWrite false val) s = .next s) ∧
      (val < 65536 ∨ 16777216 < val → exec (.schedParamWrite true val) s = .next s) ∧
      exec (.capWrite val) s = host fun h =>
        if val % 25 = 0 ∧ 600 ≤ val ∧ val ≤ 2100 then { h with capNext := some val } else { h with caperr := true }) ∧
    (∀ gran bit, gran < 2 ^ 18 → bit < 2 → s.host.biascmd.getLsbD 63 = true →
      let rejects := host fun h => { h with biascmd := h.biascmd ||| 0x2000000000000000 }
      exec (.biasFlipDevice gran) s = rejects ∧ exec (.biasFlipHost gran) s = rejects ∧
      exec (.registerWrite 0 0x30000 4 (bit * 2 ^ 18 + gran)) s = rejects ∧
      ∀ c, c < 8 → exec (.registerWrite 0 0x30000 8 (c * 2 ^ 61 + bit * 2 ^ 18 + gran)) s = rejects) ∧
    (∀ c, c < 8 → exec (.registerWrite 0 0x30004 4 (c * 2 ^ 29)) s =
      host fun h => { h with biascmd := h.biascmd &&& ~~~ BitVec.ofNat 64 (c % 4 * 2 ^ 61) }) ∧
    (∀ val size, size = 4 ∨ size = 8 → val % 2 ^ (8 * size) / 2 ^ 19 % 2 ^ 42 ≠ 0 →
      exec (.registerWrite 0 0x30000 size val) s = .next s) ∧
    (∀ gran, gran < 2 ^ 18 → s.host.bootstate ≠ 4 → s.host.biascmd.getLsbD 63 = false → s.host.flip = none →
      let command := fun (bit : Nat) (h : HostState) =>
        (h.biascmd &&& 0x6000000000000000) ||| BitVec.ofNat 64 (2 ^ 63 + (bit * 2 ^ 18 + gran))
      let begins := fun (bit : Nat) (lines : List Nat) => host fun h => { h with
        biascmd := command bit h, flip := some ⟨gran, bit == 1, lines, s.time⟩ }
      let done := fun (bit : Nat) => host fun h => { h with biascmd := command bit h &&& 0x7FFFFFFFFFFFFFFF }
      (gran ∈ s.host.hostBias → exec (.biasFlipDevice gran) s = begins 1 (numsFrom (gran * 32) 32) ∧
        exec (.biasFlipHost gran) s = done 0) ∧
      (gran ∉ s.host.hostBias → exec (.biasFlipHost gran) s = begins 0 [] ∧ exec (.biasFlipDevice gran) s = done 1)) ∧
    (∀ f line data, s.host.flip = some f →
      let cleared := fun (h : HostState) => { h with biascmd := h.biascmd &&& 0x7FFFFFFFFFFFFFFF, flip := none }
      (f.toDevice = true → line ∈ f.lines →
        let rest := f.lines.filter (· != line)
        let settled := fun (h : HostState) => if rest = [] then
            cleared { h with hostBias := h.hostBias.filter (· != f.gran) }
          else { h with flip := some { f with lines := rest } }
        exec (.biasSnoopResponse line true data) s = .next (replayAll { s with
          mem := setBytes s.mem (line * 128) (data.take 128), hostLines := fdel s.hostLines line, host := settled s.host }) ∧
        exec (.biasSnoopResponse line false data) s =
          .next (replayAll { touchLine s (line * 128) with host := settled s.host }) ∧
        (f.since + 120000000 < s.time → exec (.biasSnoopTimeout line) s = .next (replayAll { s with
          hostLines := fdel s.hostLines line
          host := settled { s.host with biascmd := s.host.biascmd ||| 0x4000000000000000 } }))) ∧
      (f.toDevice = false → exec .biasFlipHostDone s = host fun h =>
        cleared { h with hostBias := f.gran :: h.hostBias.filter (· != f.gran) })) ∧
    (∀ pa size val, s.host.powered = true → hostBase ≤ pa → pa + size ≤ 2 * hostBase →
      exec (.hostWindowAccess true pa size val) s = .next { s with mem := setBytes s.mem pa (leBytes size val) }) ∧
    (∀ pa val, s.host.powered = true → pa < 0x40000000 → s.host.hostBias.contains (pa / 128 / 32) = false →
      exec (.hostWindowAccess true pa 1 val) s = .next { s with mem := setByte s.mem pa (BitVec.ofNat 8 val) }) ∧
    (∀ pa val, s.host.powered = true → pa < 0x40000000 → s.host.hostBias.contains (pa / 128 / 32) = true →
      s.host.flip = none →
      let line := (fget s.hostLines (pa / 128)).getD (bytesAt s.mem (pa / 128 * 128) 128)
      exec (.hostWindowAccess true pa 1 val) s = .next { s with
        hostLines := fset s.hostLines (pa / 128) (line.set (pa % 128) (BitVec.ofNat 8 val)) }) ∧
    exec .unsupportedRequest s = .next s ∧
    (s.host.mboxResp ≠ [] → (s.host.mboxResp.getD 0 0).getLsbD 63 = false →
      (∀ m d, m < 2 ^ 64 → d < 2 ^ 64 →
        let elsewhere := 1 < s.host.domainSize ∧ Config.namesElsewhere s.fresh = true
        (d ≤ m ∨ 1024 < d ∨ (∃ b ∈ s.names ++ s.aqueduct, b.2.ended = false) ∨ elsewhere →
          exec (.domain m d) s = answers id [1, m, d] 1) ∧
        (m < d → d ≤ 1024 → (∀ b ∈ s.names ++ s.aqueduct, b.2.ended = true) → ¬ elsewhere →
          exec (.domain m d) s = answers (fun h => { h with module := m, domainSize := d }) [1, m, d] 0)) ∧
      (s.host.bootstate = 3 → (s.host.restarts.filter fun t => decide (s.time < t + 120000000000)).length < 2 →
        exec .restart s = answers (fun h => { h with
          restarts := s.time :: s.host.restarts.filter (fun t => decide (s.time < t + 120000000000)), bootstate := 4 }) [2] 0) ∧
      (s.host.bootstate = 4 → exec .restart s = answers id [2] 1) ∧
      (∀ image version sigOk digest, image < 2 ^ 64 → version < 2 ^ 64 →
        (1 ≤ image ∧ image ≤ 4 → exec (.stage image version sigOk digest) s =
          answers (fun h => { h with bank1 := fset h.bank1 image ⟨version, sigOk, digest⟩ }) [3, image] 0) ∧
        (image = 0 ∨ 4 < image → exec (.stage image version sigOk digest) s = answers id [3, image] 1) ∧
        ((image, version) ∈ s.host.reached → exec (.commit image version) s = answers (fun h => { h with
          counters := fset h.counters image (max version (fgetD h.counters image 0)) }) [4, image, version] 0) ∧
        ((image, version) ∉ s.host.reached → exec (.commit image version) s = answers id [4, image, version] 1)) ∧
      (∀ code, code < 2 ^ 64 → code = 0 ∨ 4 < code →
        exec (.unknownMailboxCommand code) s = answers id [code] 2)) ∧
    (s.host.bootstate ≠ 0 →
      let replies := fun (kind : Nat) (words : List Nat) => host fun h => { h with
        spdm := BitVec.ofNat 64 kind :: words.map (BitVec.ofNat 64) }
      exec .getVersion s = replies 1 [0x13] ∧ exec .getCapabilities s = replies 2 [Config.spdmReply 2 []] ∧
      exec .negotiateAlgorithms s = replies 3 [Config.spdmReply 3 []] ∧ exec .getDigests s = replies 4 [Config.spdmReply 4 []] ∧
      (∀ slot, exec (.getCertificate slot) s = replies 5 [Config.spdmReply 5 [slot]]) ∧
      let signed := fun (kind : Nat) (words : List Nat) => (numsFrom 0 12).map fun i => Config.spdmReply kind (i :: words)
      (∀ slot nonce, exec (.challenge slot nonce) s =
        replies 6 (signed 6 (slot :: nonce :: s.host.measurements.map Prod.snd))) ∧
      (∀ n x, fget s.host.measurements n = some x →
        exec (.getMeasurements n) s = replies 7 (n :: digestWords x ++ signed 7 [n, x]))))

/-! ### Packets (spec/21, spec/25) -/

/-- R348 to R350, R390, R391, R397 to R399: a Spinel accepts the packet its round reaches: CI advances, and the packet is
kept until it completes with its status in the completion word. Each kind then does its work: what it reads, what it
writes, and when it completes. A COPY's bytes move as R211 says, in chunks of 4 KiB. One row of the table moves one
chunk of a COPY (log 58); which status ends a RESTORE with a bad header is a reading (log 56), and so are that a
packet's region handles need no right of their own (log 41) and that a CKPT stays accepted until its image is complete
(log 47). A packet whose translation cannot be resolved ends with FAULT, one whose handle names no region of RGN's
subtree with BADARG, a discarded one with DISCARDED; a refused charge ends it with BUDGET, a full table with NOSPACE.
That a RESTORE of a page that has been granted away ends with FAULT is a reading (log 107). -/
def Obligations.PacketsRun : Prop :=
  (∀ s q bs, nextPacket s q = some bs → spinelNext s (q % 6) = some q →
     let w := pktWord bs
     let x := getQueue s q
     let rg := ((regionOfIndex s x.rgn).map Prod.fst).getD 0
     let pk : Packet := ⟨q, x.ci, w 0 % 256, w 0 / 1024 % 2 == 1, w 7, rg, 0, 0, 0, 0, 0, []⟩
     let taken := { s with
       serial := s.serial + 1
       host := { s.host with
         queues := fset s.host.queues q { x with ci := x.ci + 1 }, visits := fset s.host.visits (q % 6) q
         packets := fset s.host.packets s.serial pk } }
     let t := if w 0 / 512 % 2 = 1 then discardHostLines taken else taken
     let kept := fun (p : Packet) =>
       { t with host := { t.host with packets := fset t.host.packets s.serial p } }
     let ends := fun (t : State) (st : Nat) => Host.Outcome.next (σ := State) (φ := Fault) (ρ := Refusal)
       (completePacket t s.serial st)
     let code := fun (st : Nat) => if st = 11 then 3 else if st = 7 then 4 else if st = 4 then 5 else 2
     let target := fun (h need : Nat) => packetRegion t rg h need
     let failed := fun (u : State) (va : Nat) => ends (settleWalk u (effPtroot t rg) va) 7
     (packetValid bs = false → exec (.badpkt q) s = ends t 1) ∧
     (packetValid bs = true →
       (∀ st, w 0 % 256 = 1 → w 6 ≠ 0 → target (w 6) 0 = .error st → exec (.launch q) s = ends t st) ∧
       (∀ r u st, w 0 % 256 = 1 → (w 6 = 0 ∧ r = rg) ∨ (w 6 ≠ 0 ∧ target (w 6) 0 = .ok r) →
         launchRange (kept { pk with region := r }) ⟨effPtroot t r, 0⟩ r rg 0 (w 1) (w 2) (w 3 % 2 ^ 32 + 1) (w 4)
          (w 5, w 3 / 2 ^ 32 % 256) (some s.serial) = .refused u st →
         exec (.launch q) s = ends u (code st)) ∧
       (∀ c va wr, w 0 % 256 = 2 → w 3 % 2 = 1 → packetReach (writeBackAll t) rg (w 1) 8 .write = .fail c va wr →
         exec (.signal q) s = failed (writeBackAll t) va) ∧
       (∀ c va wr, w 0 % 256 = 3 → packetReach t rg (w 1) 8 .read = .fail c va wr → exec (.waitsig q) s = failed t va) ∧
       (∀ st, target (w 2) rADMIN = .error st → w 0 % 256 = 5 →
         (w 1 = 0 → exec (.regionCreate q) s = ends t st) ∧ (w 1 = 1 → exec (.regionSet q) s = ends t st) ∧
         (w 1 = 2 → exec (.regionDiscard q) s = ends t st)) ∧
       (∀ parent st, w 0 % 256 = 5 → w 1 = 0 → target (w 2) rADMIN = .ok parent →
         createRegion t parent rg 0 (hostBytes t (w 3) 64) = .error st → exec (.regionCreate q) s = ends t (code st)) ∧
       (∀ r st, w 0 % 256 = 5 → w 1 = 1 → target (w 2) rADMIN = .ok r → setRegion t r (w 3) (w 4) = .error st →
         exec (.regionSet q) s = ends t (code st)) ∧
       (∀ st, target (w 1) 0 = .error st →
         (w 0 % 256 = 6 → exec (.ckpt q) s = ends t st) ∧ (w 0 % 256 = 7 → exec (.restore q) s = ends t st)) ∧
       (∀ r, target (w 1) 0 = .ok r → ownsSpace t r = false →
         (w 0 % 256 = 6 → exec (.ckpt q) s = ends (kept { pk with obj := r, a := w 2, b := w 3 }) 2) ∧
         (w 0 % 256 = 7 → exec (.restore q) s = ends t 2)) ∧
       (w 0 % 256 = 0 → exec (.pktNop q) s = ends t 0) ∧
       (∀ r m, w 0 % 256 = 1 → (w 6 = 0 ∧ r = rg) ∨ (w 6 ≠ 0 ∧ packetRegion t rg (w 6) 0 = .ok r) →
         launchRange (kept { pk with region := r }) ⟨effPtroot t r, 0⟩ r rg 0 (w 1) (w 2) (w 3 % 2 ^ 32 + 1) (w 4)
          (w 5, w 3 / 2 ^ 32 % 256) (some s.serial) = .ok m →
         exec (.launch q) s = .next m.st) ∧
       (w 0 % 256 = 2 → w 3 % 2 = 0 →
         let u := writeBackAll t
         let old := leNat (bytesAt u.mem (hostBase + w 1 % hostBase) 8)
         let new := leBytes 8 (if w 3 / 2 % 2 = 1 then old + w 2 else w 2)
         exec (.signal q) s = ends (hostWrite u (hostBase + w 1 % hostBase) new) 0) ∧
       (∀ p, w 0 % 256 = 2 → w 3 % 2 = 1 → packetReach (writeBackAll t) rg (w 1) 8 .write = .ok p →
         let u := writeBackAll t
         let old := leNat (p.locs.map (locView u))
         exec (.signal q) s = ends (packetWrite u rg p (leBytes 8 (if w 3 / 2 % 2 = 1 then old + w 2 else w 2))) 0) ∧
       (∀ p, w 0 % 256 = 3 → packetReach t rg (w 1) 8 .read = .ok p →
         exec (.waitsig q) s = .next (kept { pk with a := w 1, b := w 2 })) ∧
       (w 0 % 256 = 4 → exec (.copy q) s = .next (kept { pk with a := w 1, b := w 2, c := w 3 })) ∧
       (∀ parent m, w 0 % 256 = 5 → w 1 = 0 → packetRegion t rg (w 2) rADMIN = .ok parent →
         createRegion t parent rg 0 (hostBytes t (w 3) 64) = .ok m →
         exec (.regionCreate q) s = ends (hostWrite m.st (hostBase + w 5 % hostBase) (leBytes 8 m.handle.toNat)) 0) ∧
       (∀ r u, w 0 % 256 = 5 → w 1 = 1 → packetRegion t rg (w 2) rADMIN = .ok r → setRegion t r (w 3) (w 4) = .ok u →
         exec (.regionSet q) s = ends u 0) ∧
       (∀ r, w 0 % 256 = 5 → w 1 = 2 → packetRegion t rg (w 2) rADMIN = .ok r →
         (faultDomain t r = r → exec (.regionDiscard q) s = ends (discard t r) 0) ∧
         (faultDomain t r ≠ r → exec (.regionDiscard q) s = ends t 2)) ∧
       (∀ r g, w 0 % 256 = 6 → packetRegion t rg (w 1) 0 = .ok r → ownsSpace t r = true →
         fget t.regions r = some g → g.ckRun = none →
         exec (.ckpt q) s = .next (runCkptPacket (kept { pk with obj := r, a := w 2, b := w 3 }) s.serial
           { pk with obj := r, a := w 2, b := w 3 })) ∧
       (∀ r, w 0 % 256 = 7 → packetRegion t rg (w 1) 0 = .ok r → ownsSpace t r = true →
         let p := { pk with obj := r, b := w 2, c := w 3 }
         let hs := imageHeads t p
         let fits := ∀ h ∈ hs, h.shape = [Config.dies, Config.cores, t.host.domainSize, t.host.module]
         (¬ fits → exec (.restore q) s = ends t 6) ∧
         (fits → (∃ h ∈ hs, h.magic ≠ 0x57434B31) ∨ genChain hs = false → exec (.restore q) s = ends t 2) ∧
         (fits → (∀ h ∈ hs, h.magic = 0x57434B31) → genChain hs = true → exec (.restore q) s = .next (kept p))))) ∧
  (∀ s rgn h need,
     let check := checkHandle s rgn (BitVec.ofNat 64 h) [tREGION] need
     (∀ st, check = .error st → packetRegion s rgn h need = .error (if st = 4 then 5 else 2)) ∧
     (∀ e, check = .ok e → packetRegion s rgn h need = if within s e.obj rgn then .ok e.obj else .error 2)) ∧
  (∀ s n r g, fget s.ranges n = some r → r.complete = false → r.packet = some g →
     dropRange s n = completePacket (objectEnded { s with
       ranges := fset s.ranges n { r with complete := true, pending := [], claims := [] } } n) g 5) ∧
  (∀ s n p, fget s.host.packets n = some p →
     let failed := fun (va : Nat) => completePacket (settleWalk s (effPtroot s p.region) va) n 7
     (∀ c va wr, p.type = 3 → packetReach s p.region p.a 8 .read = .fail c va wr →
       exec (.waitsigSatisfied n) s = .next (failed va)) ∧
     (∀ c va wr, p.type = 4 →
       let o := 4096 * p.moved
       let len := min 4096 (p.c - o)
       let src := packetReach s p.region (p.b + o) len .read
       src = .fail c va wr ∨ (∀ c va wr, src ≠ .fail c va wr) ∧ packetReach s p.region (p.a + o) len .write = .fail c va wr →
       exec (.packetCopyDone n) s = .next (failed va)) ∧
     (∀ st, p.type = 7 → restoreHolds s p = false →
       (imageHeads s p).foldl (fun (s : Except Nat State) h => s.bind fun s => restoreImage s (effPtroot s p.obj) p.obj h)
         (.ok s) = .error st → exec (.restoreDone n) s = .next (completePacket s n st)) ∧
     (∀ pl, p.type = 3 → packetReach s p.region p.a 8 .read = .ok pl →
       let t := (prepareList s pl.locs).1
       exec (.waitsigSatisfied n) s = .next (if p.b ≤ leNat (pl.locs.map (locView t))
         then completePacket (useLeaves t (effPtroot s p.region) pl none) n 0 else t)) ∧
     (∀ src dst, p.type = 4 →
       let o := 4096 * p.moved
       let len := min 4096 (p.c - o)
       packetReach s p.region (p.b + o) len .read = .ok src → packetReach s p.region (p.a + o) len .write = .ok dst →
       let root := effPtroot s p.region
       let u := useLeaves (prepareList s (src.locs ++ dst.locs)).1 root src none
       let t := placeTraffic (setLocs (useLeaves u root dst (some (regionGen s p.region))) dst.locs
         (src.locs.map fun l => (fget p.undo (locKey l)).getD (locView s l))) p.region (src.locs ++ dst.locs)
       (p.c ≤ o + 4096 → exec (.packetCopyDone n) s = .next (completePacket t n 0)) ∧
       let undo := p.undo ++ dst.locs.map fun l => (locKey l, locByte u l)
       (o + 4096 < p.c → exec (.packetCopyDone n) s = .next { t with host := { t.host with
         packets := fmod t.host.packets n fun x => { x with moved := x.moved + 1, undo := undo } } })) ∧
     (p.type = 7 → restoreHolds s p = true → exec (.restoreDone n) s = .next s) ∧
     (∀ t, p.type = 7 → restoreHolds s p = false → (imageHeads s p).foldl (fun (s : Except Nat State) h => s.bind fun s =>
         restoreImage s (effPtroot s p.obj) p.obj h) (.ok s) = .ok t →
       exec (.restoreDone n) s = .next (completePacket (askedBy t p.obj) n 0)))
/-! ### Registers, reset, encodings and the step -/

/-- R57 to R62, R129: the register files. S0 reads zero and discards writes, P0 reads all ones and discards writes; a
write changes the lanes of its mask in one register; a pair is its even register below its odd one, and reads zero
where a half is dead; a dead register reads zero and a write makes it live, its lanes outside the mask zero. That S0
takes a dead mark and loses it at a write is a reading (log 63). -/
def Obligations.RegisterFiles : Prop :=
  ∀ (w : Wave) (n m l : Nat) (x : Word) (y : DWord) (t : BitVec 128) (mask : Word) (f : Nat → Word),
    n < 128 → m < 128 → m ≠ n → l < 32 →
    (w.readS 0 = 0 ∧ w.writeS 0 x = { w with deadS := w.deadS &&& ~~~ 1 } ∧ w.readP 0 = 0xFFFFFFFF ∧ w.writeP 0 x = w) ∧
    (n ≠ 0 → (w.writeS n x).readS n = x ∧ (w.writeS n x).readS m = w.readS m ∧ (w.writeS n x).v = w.v ∧
      (w.writeS n x).p = w.p ∧ (w.writeS n x).t = w.t ∧ (w.writeS n x).flags = w.flags) ∧
    (n ≠ 0 → (w.writeP n x).readP n = x ∧ (w.writeP n x).readP m = w.readP m ∧ (w.writeP n x).s = w.s) ∧
    ((w.writeT n t).readT n = t ∧ (w.writeT n t).readT m = w.readT m) ∧
    (mask ≠ 0 → (w.writeV n mask f).vlane n l = (if mask.getLsbD l then f l else w.vlane n l) ∧
      (w.writeV n mask f).readV m = w.readV m ∧ (w.writeV n mask f).s = w.s) ∧
    (mask = 0 → w.writeV n mask f = w) ∧
    (n ≠ 0 → n + 1 < 128 → (w.writeS64 n y).readS64 n = y ∧
      (w.writeS64 n y).readS n = y.extractLsb' 0 32 ∧ (w.writeS64 n y).readS (n + 1) = y.extractLsb' 32 32) ∧
    (w.deadS.getLsbD n = true → w.readS n = 0 ∧ w.readS64 n = 0) ∧ (w.deadS.getLsbD (n + 1) = true → w.readS64 n = 0) ∧
    (w.deadV.getLsbD n = true → w.vlane n l = 0 ∧
      (mask ≠ 0 → (w.writeV n mask f).vlane n l = if mask.getLsbD l then f l else 0))

/-- What reset leaves (spec/01 R16, spec/21 Tables 21.1 and 21.2, spec/25 R401 and Tables 25.3, 25.4, 25.8): SR.TIME is 0,
no object exists, and the host reads the rows of Table 25.3 and, beyond them, zero (R393); once the window is open,
CAP and ECAP read 2 100 W and the rest of Table 25.8 zero, BIASCMD, MIGCMD, the mailbox, the queue contexts and the
link records zero, the parameters as Table 21.2 gives them, and the bias bitmap all ones. The memory is in its
canonical form and the parameters are within their limits. The values that the manual does not give at reset are the
model's (logs 4, 6, 7). -/
def Obligations.ResetMachine : Prop :=
  State.reset.time = 0 ∧ State.reset.waves = [] ∧ State.reset.gangs = [] ∧ State.reset.cohorts = [] ∧
  State.reset.ranges = [] ∧ State.reset.regions = [] ∧ State.reset.entries = [] ∧ State.reset.ports = [] ∧
  State.reset.segments = [] ∧ State.reset.host.bootstate = 0 ∧ State.reset.agelimit = 2097152 ∧
  State.reset.quantum = 1048576 ∧ State.reset.host.cap = 2100 ∧ State.reset.host.trip = false ∧
  State.reset.host.biascmd = 0 ∧ (∀ q, getQueue State.reset q = ⟨0, 0, 0, 0, 0, false, false, false, 0⟩) ∧
  (∀ i, i < 4 → barRead State.reset 0 (0x100000 + 8 * i) 8 = 0) ∧
  (let reads := fun (s : State) (off size x : Nat) => barRead s 0 off size = x
   let opened : State := { State.reset with host := { State.reset.host with everReady := true, bootstate := 3 } }
   reads State.reset 0 4 0x940 ∧ reads State.reset 4 4 0xB1 ∧ barRead State.reset 0 8 4 / 2 ^ 24 = 3 ∧
   reads State.reset 0x10 4 0 ∧ reads State.reset 0x14 4 0 ∧ reads State.reset 0x18 4 0 ∧ reads State.reset 0x1C 4 0 ∧
   reads State.reset 0x20 8 0 ∧ (∀ fn off size, 0x10000 ≤ off ∨ fn ≠ 0 → barRead State.reset fn off size = 0) ∧
   reads opened 0x10000 8 2097152 ∧ reads opened 0x10008 8 1048576 ∧ reads opened 0x20000 8 (2100 * 2 ^ 32 + 2100) ∧
   reads opened 0x20008 8 0 ∧ (∀ o, o < 0x10000 → reads opened (0x30000 + o) 8 0) ∧
   (∀ o, o < 0x20000 → reads opened (0x100000 + o) 8 0) ∧ (∀ o, o < 0x400 → reads opened (0x600000 + o) 8 0) ∧
   ∀ g, g < 4096 → reads opened (0x800000 + 8 * g) 8 (2 ^ 64 - 1)) ∧
  (∀ w : Nat, biasDword State.reset w = 2 ^ 64 - 1) ∧ State.reset.memoryOk ∧ State.reset.spadsOk ∧ State.reset.paramsOk

/-- Every step keeps the canonical form of memory and of the scratchpads, in which no listed byte is zero and the
addresses rise, and the limits of the scheduler's parameters (spec/21 Table 21.2). That an unlisted byte reads zero is
the model's choice (log 4). -/
def Obligations.StepKeepsTheInvariants : Prop :=
  ∀ s t, step s = .next t →
    (s.memoryOk → t.memoryOk) ∧ (s.spadsOk → t.spadsOk) ∧ (s.paramsOk → t.paramsOk)

/-- R98 to R104, Tables 7.1 to 7.4: decoding the encoding of a well-formed instruction gives it back, and every word is
the encoding of what it decodes to, so that no bit is dropped either way. -/
def Obligations.DecodeAndEncodeAgree : Prop :=
  (∀ i, i.wf = true → decodeWord (encode i) = i) ∧ (∀ x, encode (decodeWord x) = x ∧ (decodeWord x).wf = true)

/-- Words written out in the spec's tables of encodings (Tables 7.11, 9.9, 11.13, 13.19 and the tables of spec/08) decode
to what they stand for; R104, R100: words that encode nothing decode to an illegal word. -/
def Obligations.WordsDecode : Prop :=
  decodeWord 0x000A0410 = .vaddI32 0 5 1 2 ∧
  decodeWord 0x2310183A = .vfmulF32 3 8 6 7 ∧
  decodeWord 0x68A04100 = .sadd 10 2 4 ∧
  decodeWord 0x84CFFFFD = .brnz 12 0xFFFFD ∧
  decodeWord 0x8E000000 = .ereturn ∧
  decodeWord 0x90080885 = .ldB64 0 4 2 4 ∧
  decodeWord 0xB1421010 = .sldB64 20 4 16 ∧
  decodeWord 0xD14A18BC = .waitInline 20 24 30 ∧
  decodeWord 0xDB543006 = .psend 40 48 3 ∧
  decodeWord 0xE1461400 = .csaveq 12 20 ∧
  decodeWord 0xFB000019 = .guard 1 9 ∧
  decodeWord 0x8F000000 = .illegalEncoding 0x8F000000 ∧
  decodeWord 0xFFFFFFFF = .illegalEncoding 0xFFFFFFFF

/-- R37, R43, R98, R107, R133, R171: where no event is due, the first wave in the order of issue that can issue fetches
the four bytes at its next address, which make a word, low byte first; the step is the execution of the instruction
that word decodes to, with its quadrant noted as having issued in this cycle, the gang's issue slot counted, a fresh
number, and no current wave left. A fetch at or above the last address, or whose translation fails, is a trap with the
chain's first address and the address fetched (R171, R188); while the operand log of a wave in U mode holds entries
that trap waits (R197). A page that a wave's next word waits for is brought at that wave's turn (R56), its walks read
first (R304). A wait that is to return on a region event leaves its turn, and its quadrant's, to the end of the fabric
cycle (R55). Where no wave can issue, the turns of a fabric cycle's end come, and then the cycle ends and its time
passes (R15; latencies are left out, log 22); with the end of a fabric cycle the clusters that are due are to run the
placement procedure (R355). R113: where a store has changed the word since the gang last fetched it there, or since
its range was accepted, the fetch may return the older word (log 20: which is free); R300: lines of host memory may
leave L2 at any step (log 21: which ones is free). The order of events and waves is log 1, that of a fabric cycle's
turns logs 13 and 95, the fresh number log 2. Where an event is due the step is that event. Every instruction and
event answers a next state (log 59). -/
def Obligations.StepRunsTheDecodedInstruction : Prop :=
  let idle := fun (s : State) (u : Nat) => ∀ t, issueWave s u = .next t →
    moved s t u = false ∧ ∀ x, getWave s u = some x →
      (settleWants s x t.wants).pool.length = s.pool.length ∧ wantedPage s x t.wants = none
  let kept := fun (s : State) (ahead : List Nat) (u : Nat) =>
    ∃ v ∈ ahead ++ [u], quadrantAt s v = quadrantAt s u ∧ contends s v = true
  let passed := fun (s : State) (before : List Nat) => ∀ l u r, before = l ++ u :: r → kept s l u ∨ idle s u
  let quiet := fun (s : State) =>
    (∀ e rest, s.agenda ≠ (0, e) :: rest) ∧ s.issued.contains fabricEnd = false ∧ dueEvent s = none
  let turn := fun (s : State) (wid : Nat) => ∃ before rest, readyWaves s = before ++ wid :: rest ∧ passed s before ∧
    ¬ kept s before wid
  let still := fun (s : State) => (∀ e rest, s.agenda ≠ (0, e) :: rest) ∧
    (s.issued.contains fabricEnd = true ∨ dueEvent s = none ∧ passed s (readyWaves s))
  (∀ i s, ∃ t, exec i s = .next t) ∧
  (∀ s e rest, s.agenda = (0, e) :: rest → step s = closeStep (exec e { s with agenda := rest })) ∧
  (∀ s e, (∀ e rest, s.agenda ≠ (0, e) :: rest) → s.issued.contains fabricEnd = false → dueEvent s = some e →
    step s = closeStep (runDue e s) ∧ runDue e s = exec e.instr s) ∧
  (∀ s wid w pc iss ws pa a e, getWave s wid = some w → w.front = some (pc, iss, ws) →
    let at' := (pc + BitVec.ofNat 64 (4 * ws.length)).toNat
    let root := effPtroot s (waveRegion s w)
    at' < 0xFFFF800000000000 → translate s root at' 4 .fetch ⟨waveDie s w, 0⟩ = .ok pa a e →
    let now := viewByte s (pa + 3) ++ viewByte s (pa + 2) ++ viewByte s (pa + 1) ++ viewByte s pa
    let key := w.gang * 2 ^ 64 + at'
    let last := fget s.fetched key
    let choice := Config.fetchesOld s.fresh at'
    decode [viewByte s pa, viewByte s (pa + 1), viewByte s (pa + 2), viewByte s (pa + 3)] = .ok (decodeWord now, []) ∧
    (∀ word : Word,
      (choice = 0 ∧ word = now) ∨
      (choice = 1 ∧ (last = some (pa, word) ∨ (∀ old, last ≠ some (pa, old)) ∧ word = now)) ∨
      (1 < choice ∧ (last ≠ none ∧ word = now ∨
        last = none ∧ word = (acceptedWord s w.gang at' pa root).getD now)) →
      issueWave s wid = exec (decodeWord word) { fillTlb s root at' e with
        cur := some wid, fetched := fset s.fetched key (pa, word) })) ∧
  (∀ s wid w pc iss ws c, getWave s wid = some w → w.front = some (pc, iss, ws) →
    let x := pc + BitVec.ofNat 64 (4 * ws.length)
    let root := effPtroot s (waveRegion s w)
    let held := w.priv = .u ∧ w.log ≠ []
    let trap := fun (t : State) (c : Nat) =>
      (held → issueWave s wid = .next { s with wants := [] }) ∧
      (¬ held → issueWave s wid = .next (takeTrap t wid ⟨c, 64, pc, pc, x, false⟩))
    let reads := translate s root x.toNat 4 .fetch ⟨waveDie s w, 0⟩
    (0xFFFF800000000000 ≤ x.toNat → trap s 0x0D) ∧
    (x.toNat < 0xFFFF800000000000 → reads = .fail c → trap (settleWalk s root x.toNat) c) ∧
    (x.toNat < 0xFFFF800000000000 → reads = .stall ∨ reads = .resolvable →
      issueWave s wid = .next { s with wants := [x.toNat] }) ∧
    (walkHeld s root x.toNat = false →
      (lookup s root x.toNat 0 = none → isStackVA x.toNat = false → reads = .fail 7) ∧
      (∀ a e f, lookup s root x.toNat 0 = some (a, e, f) → pAmber e = false → pMig e = false →
        (pGranted e = true → reads = .fail 0x0B) ∧
        (pGranted e = false → pX e = false → reads = .fail 8)) ∧
      (∀ a e f, lookup s root x.toNat 0 = some (a, e, f) → pAmber e = false → pMig e = true → reads = .stall))) ∧
  (∀ s wid w v z, quiet s → turn s wid → getWave s wid = some w → issueWave s wid = .next v → moved s v wid = true →
    v.cur = some wid → getWave v wid = some z →
      let t := modGang { v with issued := quadrantOf s w :: v.issued } z.gang fun g => { g with work := g.work + 1 }
      step s = .next (noteMembers { evictLines t with cur := none, fresh := v.fresh + 1, wants := [] })) ∧
  (∀ s wid w v, quiet s → turn s wid → getWave s wid = some w → issueWave s wid = .next v → moved s v wid = true →
    v.cur = none → step s = .next (noteMembers
      { evictLines { v with issued := quadrantOf s w :: v.issued } with cur := none, fresh := v.fresh + 1, wants := [] })) ∧
  (∀ s wid w t, quiet s → turn s wid → getWave s wid = some w → issueWave s wid = .next t → moved s t wid = false →
    let walked := settleWants s w t.wants
    (walked.pool.length ≠ s.pool.length → step s = closeStep (.next walked)) ∧
    (∀ e, walked.pool.length = s.pool.length → wantedPage s w t.wants = some e → step s = closeStep (runDue e s))) ∧
  (∀ s e, still s → lastTurn s = some (.wake e) → ∃ t, runDue e s = .next t ∧
    step s = closeStep (.next { t with issued := fabricEnd :: t.issued })) ∧
  (∀ s wid w, still s → lastTurn s = some (.issue wid) → getWave s wid = some w → ∃ t, issueWave s wid = .next t ∧
    step s = closeStep (.next { t with issued := fabricEnd :: quadrantOf s w :: t.issued })) ∧
  (∀ s, still s → lastTurn s = none →
    ∃ t, step s = .next t ∧ t.time = s.time + 5 ∧ t.issued = [] ∧ t.cur = none ∧ t.fresh = s.fresh + 1 ∧
      ((∀ p ∈ s.clusters, p.2.runq = []) → t.clusters = s.clusters.map fun p =>
        if 2 * s.time / 15 < 2 * t.time / 15 ∧ p.2.due = true then (p.1, { p.2 with due := false, run := true }) else p))
end

