-- ==== Sys2Proof/Laws/Fabric.lean ====
section
/-! SUPPORT. Flits that are sent change the links and nothing else. -/

namespace Sys2Proof.Machine

open Sys2Proof

theorem routeFlits_links (s : State) (fs : List (Nat × Nat × List (BitVec 8))) : ∃ ls, routeFlits s fs = { s with links := ls } := by
  unfold routeFlits
  induction fs generalizing s with
  | nil => exact ⟨s.links, rfl⟩
  | cons f t ih =>
    rw [List.foldl_cons]
    dsimp only
    split
    · exact ih s
    · obtain ⟨ls, h⟩ := ih (modLink s _ fun l => l.drain (l.waiting ++ [f]))
      exact ⟨ls, h⟩

theorem transmit_links (s : State) (m : Nat) : ∃ ls, transmit s m = { s with links := ls } := by
  unfold transmit
  split
  · exact ⟨s.links, rfl⟩
  · exact routeFlits_links ..

@[simp] theorem transmit_mem (s : State) (m : Nat) : (transmit s m).mem = s.mem := by
  obtain ⟨ls, h⟩ := transmit_links s m
  rw [h]

@[simp] theorem transmit_ports (s : State) (m : Nat) : (transmit s m).ports = s.ports := by
  obtain ⟨ls, h⟩ := transmit_links s m
  rw [h]

@[simp] theorem transmit_dedup (s : State) (m : Nat) : (transmit s m).dedup = s.dedup := by
  obtain ⟨ls, h⟩ := transmit_links s m
  rw [h]

end Sys2Proof.Machine
end

