-- ==== Sys2Proof/Laws/State.lean ====
section
/-! SUPPORT. What each update of the state leaves alone: one lemma for each field and update. -/

namespace Sys2Proof.Machine

open Sys2Proof

/-! ### setWave -/

@[simp] theorem setWave_time (s : State) (k : Nat) (x : Wave) : (setWave s k x).time = s.time := rfl
@[simp] theorem setWave_agenda (s : State) (k : Nat) (x : Wave) : (setWave s k x).agenda = s.agenda := rfl
@[simp] theorem setWave_cur (s : State) (k : Nat) (x : Wave) : (setWave s k x).cur = s.cur := rfl
@[simp] theorem setWave_fresh (s : State) (k : Nat) (x : Wave) : (setWave s k x).fresh = s.fresh := rfl
@[simp] theorem setWave_serial (s : State) (k : Nat) (x : Wave) : (setWave s k x).serial = s.serial := rfl
@[simp] theorem setWave_issued (s : State) (k : Nat) (x : Wave) : (setWave s k x).issued = s.issued := rfl
@[simp] theorem setWave_wants (s : State) (k : Nat) (x : Wave) : (setWave s k x).wants = s.wants := rfl
@[simp] theorem setWave_mem (s : State) (k : Nat) (x : Wave) : (setWave s k x).mem = s.mem := rfl
@[simp] theorem setWave_hostL2 (s : State) (k : Nat) (x : Wave) : (setWave s k x).hostL2 = s.hostL2 := rfl
@[simp] theorem setWave_hostLines (s : State) (k : Nat) (x : Wave) : (setWave s k x).hostLines = s.hostLines := rfl
@[simp] theorem setWave_flushes (s : State) (k : Nat) (x : Wave) : (setWave s k x).flushes = s.flushes := rfl
@[simp] theorem setWave_tlb (s : State) (k : Nat) (x : Wave) : (setWave s k x).tlb = s.tlb := rfl
@[simp] theorem setWave_fetched (s : State) (k : Nat) (x : Wave) : (setWave s k x).fetched = s.fetched := rfl
@[simp] theorem setWave_pool (s : State) (k : Nat) (x : Wave) : (setWave s k x).pool = s.pool := rfl
@[simp] theorem setWave_hbmNext (s : State) (k : Nat) (x : Wave) : (setWave s k x).hbmNext = s.hbmNext := rfl
@[simp] theorem setWave_hbmFree (s : State) (k : Nat) (x : Wave) : (setWave s k x).hbmFree = s.hbmFree := rfl
@[simp] theorem setWave_deepNext (s : State) (k : Nat) (x : Wave) : (setWave s k x).deepNext = s.deepNext := rfl
@[simp] theorem setWave_deepFree (s : State) (k : Nat) (x : Wave) : (setWave s k x).deepFree = s.deepFree := rfl
@[simp] theorem setWave_resident (s : State) (k : Nat) (x : Wave) : (setWave s k x).resident = s.resident := rfl
@[simp] theorem setWave_moves (s : State) (k : Nat) (x : Wave) : (setWave s k x).moves = s.moves := rfl
@[simp] theorem setWave_migs (s : State) (k : Nat) (x : Wave) : (setWave s k x).migs = s.migs := rfl
@[simp] theorem setWave_channels (s : State) (k : Nat) (x : Wave) : (setWave s k x).channels = s.channels := rfl
@[simp] theorem setWave_intervals (s : State) (k : Nat) (x : Wave) : (setWave s k x).intervals = s.intervals := rfl
@[simp] theorem setWave_leases (s : State) (k : Nat) (x : Wave) : (setWave s k x).leases = s.leases := rfl
@[simp] theorem setWave_accesses (s : State) (k : Nat) (x : Wave) : (setWave s k x).accesses = s.accesses := rfl
@[simp] theorem setWave_moved (s : State) (k : Nat) (x : Wave) : (setWave s k x).moved = s.moved := rfl
@[simp] theorem setWave_metered (s : State) (k : Nat) (x : Wave) : (setWave s k x).metered = s.metered := rfl
@[simp] theorem setWave_regions (s : State) (k : Nat) (x : Wave) : (setWave s k x).regions = s.regions := rfl
@[simp] theorem setWave_ranges (s : State) (k : Nat) (x : Wave) : (setWave s k x).ranges = s.ranges := rfl
@[simp] theorem setWave_cohorts (s : State) (k : Nat) (x : Wave) : (setWave s k x).cohorts = s.cohorts := rfl
@[simp] theorem setWave_gangs (s : State) (k : Nat) (x : Wave) : (setWave s k x).gangs = s.gangs := rfl
@[simp] theorem setWave_waves (s : State) (k : Nat) (x : Wave) : (setWave s k x).waves = fset s.waves k x := rfl
@[simp] theorem setWave_entries (s : State) (k : Nat) (x : Wave) : (setWave s k x).entries = s.entries := rfl
@[simp] theorem setWave_nextGen (s : State) (k : Nat) (x : Wave) : (setWave s k x).nextGen = s.nextGen := rfl
@[simp] theorem setWave_charged (s : State) (k : Nat) (x : Wave) : (setWave s k x).charged = s.charged := rfl
@[simp] theorem setWave_waitsets (s : State) (k : Nat) (x : Wave) : (setWave s k x).waitsets = s.waitsets := rfl
@[simp] theorem setWave_timers (s : State) (k : Nat) (x : Wave) : (setWave s k x).timers = s.timers := rfl
@[simp] theorem setWave_ports (s : State) (k : Nat) (x : Wave) : (setWave s k x).ports = s.ports := rfl
@[simp] theorem setWave_proxies (s : State) (k : Nat) (x : Wave) : (setWave s k x).proxies = s.proxies := rfl
@[simp] theorem setWave_segments (s : State) (k : Nat) (x : Wave) : (setWave s k x).segments = s.segments := rfl
@[simp] theorem setWave_links (s : State) (k : Nat) (x : Wave) : (setWave s k x).links = s.links := rfl
@[simp] theorem setWave_dedup (s : State) (k : Nat) (x : Wave) : (setWave s k x).dedup = s.dedup := rfl
@[simp] theorem setWave_sends (s : State) (k : Nat) (x : Wave) : (setWave s k x).sends = s.sends := rfl
@[simp] theorem setWave_reservations (s : State) (k : Nat) (x : Wave) : (setWave s k x).reservations = s.reservations := rfl
@[simp] theorem setWave_held (s : State) (k : Nat) (x : Wave) : (setWave s k x).held = s.held := rfl
@[simp] theorem setWave_late (s : State) (k : Nat) (x : Wave) : (setWave s k x).late = s.late := rfl
@[simp] theorem setWave_names (s : State) (k : Nat) (x : Wave) : (setWave s k x).names = s.names := rfl
@[simp] theorem setWave_peers (s : State) (k : Nat) (x : Wave) : (setWave s k x).peers = s.peers := rfl
@[simp] theorem setWave_aqueduct (s : State) (k : Nat) (x : Wave) : (setWave s k x).aqueduct = s.aqueduct := rfl
@[simp] theorem setWave_clusters (s : State) (k : Nat) (x : Wave) : (setWave s k x).clusters = s.clusters := rfl
@[simp] theorem setWave_agelimit (s : State) (k : Nat) (x : Wave) : (setWave s k x).agelimit = s.agelimit := rfl
@[simp] theorem setWave_quantum (s : State) (k : Nat) (x : Wave) : (setWave s k x).quantum = s.quantum := rfl
@[simp] theorem setWave_host (s : State) (k : Nat) (x : Wave) : (setWave s k x).host = s.host := rfl

/-! ### modWave -/

@[simp] theorem modWave_time (s : State) (k : Nat) (f : Wave → Wave) : (modWave s k f).time = s.time := rfl
@[simp] theorem modWave_agenda (s : State) (k : Nat) (f : Wave → Wave) : (modWave s k f).agenda = s.agenda := rfl
@[simp] theorem modWave_cur (s : State) (k : Nat) (f : Wave → Wave) : (modWave s k f).cur = s.cur := rfl
@[simp] theorem modWave_fresh (s : State) (k : Nat) (f : Wave → Wave) : (modWave s k f).fresh = s.fresh := rfl
@[simp] theorem modWave_serial (s : State) (k : Nat) (f : Wave → Wave) : (modWave s k f).serial = s.serial := rfl
@[simp] theorem modWave_issued (s : State) (k : Nat) (f : Wave → Wave) : (modWave s k f).issued = s.issued := rfl
@[simp] theorem modWave_wants (s : State) (k : Nat) (f : Wave → Wave) : (modWave s k f).wants = s.wants := rfl
@[simp] theorem modWave_mem (s : State) (k : Nat) (f : Wave → Wave) : (modWave s k f).mem = s.mem := rfl
@[simp] theorem modWave_hostL2 (s : State) (k : Nat) (f : Wave → Wave) : (modWave s k f).hostL2 = s.hostL2 := rfl
@[simp] theorem modWave_hostLines (s : State) (k : Nat) (f : Wave → Wave) : (modWave s k f).hostLines = s.hostLines := rfl
@[simp] theorem modWave_flushes (s : State) (k : Nat) (f : Wave → Wave) : (modWave s k f).flushes = s.flushes := rfl
@[simp] theorem modWave_tlb (s : State) (k : Nat) (f : Wave → Wave) : (modWave s k f).tlb = s.tlb := rfl
@[simp] theorem modWave_fetched (s : State) (k : Nat) (f : Wave → Wave) : (modWave s k f).fetched = s.fetched := rfl
@[simp] theorem modWave_pool (s : State) (k : Nat) (f : Wave → Wave) : (modWave s k f).pool = s.pool := rfl
@[simp] theorem modWave_hbmNext (s : State) (k : Nat) (f : Wave → Wave) : (modWave s k f).hbmNext = s.hbmNext := rfl
@[simp] theorem modWave_hbmFree (s : State) (k : Nat) (f : Wave → Wave) : (modWave s k f).hbmFree = s.hbmFree := rfl
@[simp] theorem modWave_deepNext (s : State) (k : Nat) (f : Wave → Wave) : (modWave s k f).deepNext = s.deepNext := rfl
@[simp] theorem modWave_deepFree (s : State) (k : Nat) (f : Wave → Wave) : (modWave s k f).deepFree = s.deepFree := rfl
@[simp] theorem modWave_resident (s : State) (k : Nat) (f : Wave → Wave) : (modWave s k f).resident = s.resident := rfl
@[simp] theorem modWave_moves (s : State) (k : Nat) (f : Wave → Wave) : (modWave s k f).moves = s.moves := rfl
@[simp] theorem modWave_migs (s : State) (k : Nat) (f : Wave → Wave) : (modWave s k f).migs = s.migs := rfl
@[simp] theorem modWave_channels (s : State) (k : Nat) (f : Wave → Wave) : (modWave s k f).channels = s.channels := rfl
@[simp] theorem modWave_intervals (s : State) (k : Nat) (f : Wave → Wave) : (modWave s k f).intervals = s.intervals := rfl
@[simp] theorem modWave_leases (s : State) (k : Nat) (f : Wave → Wave) : (modWave s k f).leases = s.leases := rfl
@[simp] theorem modWave_accesses (s : State) (k : Nat) (f : Wave → Wave) : (modWave s k f).accesses = s.accesses := rfl
@[simp] theorem modWave_moved (s : State) (k : Nat) (f : Wave → Wave) : (modWave s k f).moved = s.moved := rfl
@[simp] theorem modWave_metered (s : State) (k : Nat) (f : Wave → Wave) : (modWave s k f).metered = s.metered := rfl
@[simp] theorem modWave_regions (s : State) (k : Nat) (f : Wave → Wave) : (modWave s k f).regions = s.regions := rfl
@[simp] theorem modWave_ranges (s : State) (k : Nat) (f : Wave → Wave) : (modWave s k f).ranges = s.ranges := rfl
@[simp] theorem modWave_cohorts (s : State) (k : Nat) (f : Wave → Wave) : (modWave s k f).cohorts = s.cohorts := rfl
@[simp] theorem modWave_gangs (s : State) (k : Nat) (f : Wave → Wave) : (modWave s k f).gangs = s.gangs := rfl
@[simp] theorem modWave_waves (s : State) (k : Nat) (f : Wave → Wave) : (modWave s k f).waves = fmod s.waves k f := rfl
@[simp] theorem modWave_entries (s : State) (k : Nat) (f : Wave → Wave) : (modWave s k f).entries = s.entries := rfl
@[simp] theorem modWave_nextGen (s : State) (k : Nat) (f : Wave → Wave) : (modWave s k f).nextGen = s.nextGen := rfl
@[simp] theorem modWave_charged (s : State) (k : Nat) (f : Wave → Wave) : (modWave s k f).charged = s.charged := rfl
@[simp] theorem modWave_waitsets (s : State) (k : Nat) (f : Wave → Wave) : (modWave s k f).waitsets = s.waitsets := rfl
@[simp] theorem modWave_timers (s : State) (k : Nat) (f : Wave → Wave) : (modWave s k f).timers = s.timers := rfl
@[simp] theorem modWave_ports (s : State) (k : Nat) (f : Wave → Wave) : (modWave s k f).ports = s.ports := rfl
@[simp] theorem modWave_proxies (s : State) (k : Nat) (f : Wave → Wave) : (modWave s k f).proxies = s.proxies := rfl
@[simp] theorem modWave_segments (s : State) (k : Nat) (f : Wave → Wave) : (modWave s k f).segments = s.segments := rfl
@[simp] theorem modWave_links (s : State) (k : Nat) (f : Wave → Wave) : (modWave s k f).links = s.links := rfl
@[simp] theorem modWave_dedup (s : State) (k : Nat) (f : Wave → Wave) : (modWave s k f).dedup = s.dedup := rfl
@[simp] theorem modWave_sends (s : State) (k : Nat) (f : Wave → Wave) : (modWave s k f).sends = s.sends := rfl
@[simp] theorem modWave_reservations (s : State) (k : Nat) (f : Wave → Wave) : (modWave s k f).reservations = s.reservations := rfl
@[simp] theorem modWave_held (s : State) (k : Nat) (f : Wave → Wave) : (modWave s k f).held = s.held := rfl
@[simp] theorem modWave_late (s : State) (k : Nat) (f : Wave → Wave) : (modWave s k f).late = s.late := rfl
@[simp] theorem modWave_names (s : State) (k : Nat) (f : Wave → Wave) : (modWave s k f).names = s.names := rfl
@[simp] theorem modWave_peers (s : State) (k : Nat) (f : Wave → Wave) : (modWave s k f).peers = s.peers := rfl
@[simp] theorem modWave_aqueduct (s : State) (k : Nat) (f : Wave → Wave) : (modWave s k f).aqueduct = s.aqueduct := rfl
@[simp] theorem modWave_clusters (s : State) (k : Nat) (f : Wave → Wave) : (modWave s k f).clusters = s.clusters := rfl
@[simp] theorem modWave_agelimit (s : State) (k : Nat) (f : Wave → Wave) : (modWave s k f).agelimit = s.agelimit := rfl
@[simp] theorem modWave_quantum (s : State) (k : Nat) (f : Wave → Wave) : (modWave s k f).quantum = s.quantum := rfl
@[simp] theorem modWave_host (s : State) (k : Nat) (f : Wave → Wave) : (modWave s k f).host = s.host := rfl

/-! ### modGang -/

@[simp] theorem modGang_time (s : State) (k : Nat) (f : Gang → Gang) : (modGang s k f).time = s.time := rfl
@[simp] theorem modGang_agenda (s : State) (k : Nat) (f : Gang → Gang) : (modGang s k f).agenda = s.agenda := rfl
@[simp] theorem modGang_cur (s : State) (k : Nat) (f : Gang → Gang) : (modGang s k f).cur = s.cur := rfl
@[simp] theorem modGang_fresh (s : State) (k : Nat) (f : Gang → Gang) : (modGang s k f).fresh = s.fresh := rfl
@[simp] theorem modGang_serial (s : State) (k : Nat) (f : Gang → Gang) : (modGang s k f).serial = s.serial := rfl
@[simp] theorem modGang_issued (s : State) (k : Nat) (f : Gang → Gang) : (modGang s k f).issued = s.issued := rfl
@[simp] theorem modGang_wants (s : State) (k : Nat) (f : Gang → Gang) : (modGang s k f).wants = s.wants := rfl
@[simp] theorem modGang_mem (s : State) (k : Nat) (f : Gang → Gang) : (modGang s k f).mem = s.mem := rfl
@[simp] theorem modGang_hostL2 (s : State) (k : Nat) (f : Gang → Gang) : (modGang s k f).hostL2 = s.hostL2 := rfl
@[simp] theorem modGang_hostLines (s : State) (k : Nat) (f : Gang → Gang) : (modGang s k f).hostLines = s.hostLines := rfl
@[simp] theorem modGang_flushes (s : State) (k : Nat) (f : Gang → Gang) : (modGang s k f).flushes = s.flushes := rfl
@[simp] theorem modGang_tlb (s : State) (k : Nat) (f : Gang → Gang) : (modGang s k f).tlb = s.tlb := rfl
@[simp] theorem modGang_fetched (s : State) (k : Nat) (f : Gang → Gang) : (modGang s k f).fetched = s.fetched := rfl
@[simp] theorem modGang_pool (s : State) (k : Nat) (f : Gang → Gang) : (modGang s k f).pool = s.pool := rfl
@[simp] theorem modGang_hbmNext (s : State) (k : Nat) (f : Gang → Gang) : (modGang s k f).hbmNext = s.hbmNext := rfl
@[simp] theorem modGang_hbmFree (s : State) (k : Nat) (f : Gang → Gang) : (modGang s k f).hbmFree = s.hbmFree := rfl
@[simp] theorem modGang_deepNext (s : State) (k : Nat) (f : Gang → Gang) : (modGang s k f).deepNext = s.deepNext := rfl
@[simp] theorem modGang_deepFree (s : State) (k : Nat) (f : Gang → Gang) : (modGang s k f).deepFree = s.deepFree := rfl
@[simp] theorem modGang_resident (s : State) (k : Nat) (f : Gang → Gang) : (modGang s k f).resident = s.resident := rfl
@[simp] theorem modGang_moves (s : State) (k : Nat) (f : Gang → Gang) : (modGang s k f).moves = s.moves := rfl
@[simp] theorem modGang_migs (s : State) (k : Nat) (f : Gang → Gang) : (modGang s k f).migs = s.migs := rfl
@[simp] theorem modGang_channels (s : State) (k : Nat) (f : Gang → Gang) : (modGang s k f).channels = s.channels := rfl
@[simp] theorem modGang_intervals (s : State) (k : Nat) (f : Gang → Gang) : (modGang s k f).intervals = s.intervals := rfl
@[simp] theorem modGang_leases (s : State) (k : Nat) (f : Gang → Gang) : (modGang s k f).leases = s.leases := rfl
@[simp] theorem modGang_accesses (s : State) (k : Nat) (f : Gang → Gang) : (modGang s k f).accesses = s.accesses := rfl
@[simp] theorem modGang_moved (s : State) (k : Nat) (f : Gang → Gang) : (modGang s k f).moved = s.moved := rfl
@[simp] theorem modGang_metered (s : State) (k : Nat) (f : Gang → Gang) : (modGang s k f).metered = s.metered := rfl
@[simp] theorem modGang_regions (s : State) (k : Nat) (f : Gang → Gang) : (modGang s k f).regions = s.regions := rfl
@[simp] theorem modGang_ranges (s : State) (k : Nat) (f : Gang → Gang) : (modGang s k f).ranges = s.ranges := rfl
@[simp] theorem modGang_cohorts (s : State) (k : Nat) (f : Gang → Gang) : (modGang s k f).cohorts = s.cohorts := rfl
@[simp] theorem modGang_gangs (s : State) (k : Nat) (f : Gang → Gang) : (modGang s k f).gangs = fmod s.gangs k f := rfl
@[simp] theorem modGang_waves (s : State) (k : Nat) (f : Gang → Gang) : (modGang s k f).waves = s.waves := rfl
@[simp] theorem modGang_entries (s : State) (k : Nat) (f : Gang → Gang) : (modGang s k f).entries = s.entries := rfl
@[simp] theorem modGang_nextGen (s : State) (k : Nat) (f : Gang → Gang) : (modGang s k f).nextGen = s.nextGen := rfl
@[simp] theorem modGang_charged (s : State) (k : Nat) (f : Gang → Gang) : (modGang s k f).charged = s.charged := rfl
@[simp] theorem modGang_waitsets (s : State) (k : Nat) (f : Gang → Gang) : (modGang s k f).waitsets = s.waitsets := rfl
@[simp] theorem modGang_timers (s : State) (k : Nat) (f : Gang → Gang) : (modGang s k f).timers = s.timers := rfl
@[simp] theorem modGang_ports (s : State) (k : Nat) (f : Gang → Gang) : (modGang s k f).ports = s.ports := rfl
@[simp] theorem modGang_proxies (s : State) (k : Nat) (f : Gang → Gang) : (modGang s k f).proxies = s.proxies := rfl
@[simp] theorem modGang_segments (s : State) (k : Nat) (f : Gang → Gang) : (modGang s k f).segments = s.segments := rfl
@[simp] theorem modGang_links (s : State) (k : Nat) (f : Gang → Gang) : (modGang s k f).links = s.links := rfl
@[simp] theorem modGang_dedup (s : State) (k : Nat) (f : Gang → Gang) : (modGang s k f).dedup = s.dedup := rfl
@[simp] theorem modGang_sends (s : State) (k : Nat) (f : Gang → Gang) : (modGang s k f).sends = s.sends := rfl
@[simp] theorem modGang_reservations (s : State) (k : Nat) (f : Gang → Gang) : (modGang s k f).reservations = s.reservations := rfl
@[simp] theorem modGang_held (s : State) (k : Nat) (f : Gang → Gang) : (modGang s k f).held = s.held := rfl
@[simp] theorem modGang_late (s : State) (k : Nat) (f : Gang → Gang) : (modGang s k f).late = s.late := rfl
@[simp] theorem modGang_names (s : State) (k : Nat) (f : Gang → Gang) : (modGang s k f).names = s.names := rfl
@[simp] theorem modGang_peers (s : State) (k : Nat) (f : Gang → Gang) : (modGang s k f).peers = s.peers := rfl
@[simp] theorem modGang_aqueduct (s : State) (k : Nat) (f : Gang → Gang) : (modGang s k f).aqueduct = s.aqueduct := rfl
@[simp] theorem modGang_clusters (s : State) (k : Nat) (f : Gang → Gang) : (modGang s k f).clusters = s.clusters := rfl
@[simp] theorem modGang_agelimit (s : State) (k : Nat) (f : Gang → Gang) : (modGang s k f).agelimit = s.agelimit := rfl
@[simp] theorem modGang_quantum (s : State) (k : Nat) (f : Gang → Gang) : (modGang s k f).quantum = s.quantum := rfl
@[simp] theorem modGang_host (s : State) (k : Nat) (f : Gang → Gang) : (modGang s k f).host = s.host := rfl

/-! ### modCohort -/

@[simp] theorem modCohort_time (s : State) (k : Nat) (f : Cohort → Cohort) : (modCohort s k f).time = s.time := rfl
@[simp] theorem modCohort_agenda (s : State) (k : Nat) (f : Cohort → Cohort) : (modCohort s k f).agenda = s.agenda := rfl
@[simp] theorem modCohort_cur (s : State) (k : Nat) (f : Cohort → Cohort) : (modCohort s k f).cur = s.cur := rfl
@[simp] theorem modCohort_fresh (s : State) (k : Nat) (f : Cohort → Cohort) : (modCohort s k f).fresh = s.fresh := rfl
@[simp] theorem modCohort_serial (s : State) (k : Nat) (f : Cohort → Cohort) : (modCohort s k f).serial = s.serial := rfl
@[simp] theorem modCohort_issued (s : State) (k : Nat) (f : Cohort → Cohort) : (modCohort s k f).issued = s.issued := rfl
@[simp] theorem modCohort_wants (s : State) (k : Nat) (f : Cohort → Cohort) : (modCohort s k f).wants = s.wants := rfl
@[simp] theorem modCohort_mem (s : State) (k : Nat) (f : Cohort → Cohort) : (modCohort s k f).mem = s.mem := rfl
@[simp] theorem modCohort_hostL2 (s : State) (k : Nat) (f : Cohort → Cohort) : (modCohort s k f).hostL2 = s.hostL2 := rfl
@[simp] theorem modCohort_hostLines (s : State) (k : Nat) (f : Cohort → Cohort) : (modCohort s k f).hostLines = s.hostLines := rfl
@[simp] theorem modCohort_flushes (s : State) (k : Nat) (f : Cohort → Cohort) : (modCohort s k f).flushes = s.flushes := rfl
@[simp] theorem modCohort_tlb (s : State) (k : Nat) (f : Cohort → Cohort) : (modCohort s k f).tlb = s.tlb := rfl
@[simp] theorem modCohort_fetched (s : State) (k : Nat) (f : Cohort → Cohort) : (modCohort s k f).fetched = s.fetched := rfl
@[simp] theorem modCohort_pool (s : State) (k : Nat) (f : Cohort → Cohort) : (modCohort s k f).pool = s.pool := rfl
@[simp] theorem modCohort_hbmNext (s : State) (k : Nat) (f : Cohort → Cohort) : (modCohort s k f).hbmNext = s.hbmNext := rfl
@[simp] theorem modCohort_hbmFree (s : State) (k : Nat) (f : Cohort → Cohort) : (modCohort s k f).hbmFree = s.hbmFree := rfl
@[simp] theorem modCohort_deepNext (s : State) (k : Nat) (f : Cohort → Cohort) : (modCohort s k f).deepNext = s.deepNext := rfl
@[simp] theorem modCohort_deepFree (s : State) (k : Nat) (f : Cohort → Cohort) : (modCohort s k f).deepFree = s.deepFree := rfl
@[simp] theorem modCohort_resident (s : State) (k : Nat) (f : Cohort → Cohort) : (modCohort s k f).resident = s.resident := rfl
@[simp] theorem modCohort_moves (s : State) (k : Nat) (f : Cohort → Cohort) : (modCohort s k f).moves = s.moves := rfl
@[simp] theorem modCohort_migs (s : State) (k : Nat) (f : Cohort → Cohort) : (modCohort s k f).migs = s.migs := rfl
@[simp] theorem modCohort_channels (s : State) (k : Nat) (f : Cohort → Cohort) : (modCohort s k f).channels = s.channels := rfl
@[simp] theorem modCohort_intervals (s : State) (k : Nat) (f : Cohort → Cohort) : (modCohort s k f).intervals = s.intervals := rfl
@[simp] theorem modCohort_leases (s : State) (k : Nat) (f : Cohort → Cohort) : (modCohort s k f).leases = s.leases := rfl
@[simp] theorem modCohort_accesses (s : State) (k : Nat) (f : Cohort → Cohort) : (modCohort s k f).accesses = s.accesses := rfl
@[simp] theorem modCohort_moved (s : State) (k : Nat) (f : Cohort → Cohort) : (modCohort s k f).moved = s.moved := rfl
@[simp] theorem modCohort_metered (s : State) (k : Nat) (f : Cohort → Cohort) : (modCohort s k f).metered = s.metered := rfl
@[simp] theorem modCohort_regions (s : State) (k : Nat) (f : Cohort → Cohort) : (modCohort s k f).regions = s.regions := rfl
@[simp] theorem modCohort_ranges (s : State) (k : Nat) (f : Cohort → Cohort) : (modCohort s k f).ranges = s.ranges := rfl
@[simp] theorem modCohort_cohorts (s : State) (k : Nat) (f : Cohort → Cohort) : (modCohort s k f).cohorts = fmod s.cohorts k f := rfl
@[simp] theorem modCohort_gangs (s : State) (k : Nat) (f : Cohort → Cohort) : (modCohort s k f).gangs = s.gangs := rfl
@[simp] theorem modCohort_waves (s : State) (k : Nat) (f : Cohort → Cohort) : (modCohort s k f).waves = s.waves := rfl
@[simp] theorem modCohort_entries (s : State) (k : Nat) (f : Cohort → Cohort) : (modCohort s k f).entries = s.entries := rfl
@[simp] theorem modCohort_nextGen (s : State) (k : Nat) (f : Cohort → Cohort) : (modCohort s k f).nextGen = s.nextGen := rfl
@[simp] theorem modCohort_charged (s : State) (k : Nat) (f : Cohort → Cohort) : (modCohort s k f).charged = s.charged := rfl
@[simp] theorem modCohort_waitsets (s : State) (k : Nat) (f : Cohort → Cohort) : (modCohort s k f).waitsets = s.waitsets := rfl
@[simp] theorem modCohort_timers (s : State) (k : Nat) (f : Cohort → Cohort) : (modCohort s k f).timers = s.timers := rfl
@[simp] theorem modCohort_ports (s : State) (k : Nat) (f : Cohort → Cohort) : (modCohort s k f).ports = s.ports := rfl
@[simp] theorem modCohort_proxies (s : State) (k : Nat) (f : Cohort → Cohort) : (modCohort s k f).proxies = s.proxies := rfl
@[simp] theorem modCohort_segments (s : State) (k : Nat) (f : Cohort → Cohort) : (modCohort s k f).segments = s.segments := rfl
@[simp] theorem modCohort_links (s : State) (k : Nat) (f : Cohort → Cohort) : (modCohort s k f).links = s.links := rfl
@[simp] theorem modCohort_dedup (s : State) (k : Nat) (f : Cohort → Cohort) : (modCohort s k f).dedup = s.dedup := rfl
@[simp] theorem modCohort_sends (s : State) (k : Nat) (f : Cohort → Cohort) : (modCohort s k f).sends = s.sends := rfl
@[simp] theorem modCohort_reservations (s : State) (k : Nat) (f : Cohort → Cohort) : (modCohort s k f).reservations = s.reservations := rfl
@[simp] theorem modCohort_held (s : State) (k : Nat) (f : Cohort → Cohort) : (modCohort s k f).held = s.held := rfl
@[simp] theorem modCohort_late (s : State) (k : Nat) (f : Cohort → Cohort) : (modCohort s k f).late = s.late := rfl
@[simp] theorem modCohort_names (s : State) (k : Nat) (f : Cohort → Cohort) : (modCohort s k f).names = s.names := rfl
@[simp] theorem modCohort_peers (s : State) (k : Nat) (f : Cohort → Cohort) : (modCohort s k f).peers = s.peers := rfl
@[simp] theorem modCohort_aqueduct (s : State) (k : Nat) (f : Cohort → Cohort) : (modCohort s k f).aqueduct = s.aqueduct := rfl
@[simp] theorem modCohort_clusters (s : State) (k : Nat) (f : Cohort → Cohort) : (modCohort s k f).clusters = s.clusters := rfl
@[simp] theorem modCohort_agelimit (s : State) (k : Nat) (f : Cohort → Cohort) : (modCohort s k f).agelimit = s.agelimit := rfl
@[simp] theorem modCohort_quantum (s : State) (k : Nat) (f : Cohort → Cohort) : (modCohort s k f).quantum = s.quantum := rfl
@[simp] theorem modCohort_host (s : State) (k : Nat) (f : Cohort → Cohort) : (modCohort s k f).host = s.host := rfl

/-! ### modRegion -/

@[simp] theorem modRegion_time (s : State) (k : Nat) (f : Region → Region) : (modRegion s k f).time = s.time := rfl
@[simp] theorem modRegion_agenda (s : State) (k : Nat) (f : Region → Region) : (modRegion s k f).agenda = s.agenda := rfl
@[simp] theorem modRegion_cur (s : State) (k : Nat) (f : Region → Region) : (modRegion s k f).cur = s.cur := rfl
@[simp] theorem modRegion_fresh (s : State) (k : Nat) (f : Region → Region) : (modRegion s k f).fresh = s.fresh := rfl
@[simp] theorem modRegion_serial (s : State) (k : Nat) (f : Region → Region) : (modRegion s k f).serial = s.serial := rfl
@[simp] theorem modRegion_issued (s : State) (k : Nat) (f : Region → Region) : (modRegion s k f).issued = s.issued := rfl
@[simp] theorem modRegion_wants (s : State) (k : Nat) (f : Region → Region) : (modRegion s k f).wants = s.wants := rfl
@[simp] theorem modRegion_mem (s : State) (k : Nat) (f : Region → Region) : (modRegion s k f).mem = s.mem := rfl
@[simp] theorem modRegion_hostL2 (s : State) (k : Nat) (f : Region → Region) : (modRegion s k f).hostL2 = s.hostL2 := rfl
@[simp] theorem modRegion_hostLines (s : State) (k : Nat) (f : Region → Region) : (modRegion s k f).hostLines = s.hostLines := rfl
@[simp] theorem modRegion_flushes (s : State) (k : Nat) (f : Region → Region) : (modRegion s k f).flushes = s.flushes := rfl
@[simp] theorem modRegion_tlb (s : State) (k : Nat) (f : Region → Region) : (modRegion s k f).tlb = s.tlb := rfl
@[simp] theorem modRegion_fetched (s : State) (k : Nat) (f : Region → Region) : (modRegion s k f).fetched = s.fetched := rfl
@[simp] theorem modRegion_pool (s : State) (k : Nat) (f : Region → Region) : (modRegion s k f).pool = s.pool := rfl
@[simp] theorem modRegion_hbmNext (s : State) (k : Nat) (f : Region → Region) : (modRegion s k f).hbmNext = s.hbmNext := rfl
@[simp] theorem modRegion_hbmFree (s : State) (k : Nat) (f : Region → Region) : (modRegion s k f).hbmFree = s.hbmFree := rfl
@[simp] theorem modRegion_deepNext (s : State) (k : Nat) (f : Region → Region) : (modRegion s k f).deepNext = s.deepNext := rfl
@[simp] theorem modRegion_deepFree (s : State) (k : Nat) (f : Region → Region) : (modRegion s k f).deepFree = s.deepFree := rfl
@[simp] theorem modRegion_resident (s : State) (k : Nat) (f : Region → Region) : (modRegion s k f).resident = s.resident := rfl
@[simp] theorem modRegion_moves (s : State) (k : Nat) (f : Region → Region) : (modRegion s k f).moves = s.moves := rfl
@[simp] theorem modRegion_migs (s : State) (k : Nat) (f : Region → Region) : (modRegion s k f).migs = s.migs := rfl
@[simp] theorem modRegion_channels (s : State) (k : Nat) (f : Region → Region) : (modRegion s k f).channels = s.channels := rfl
@[simp] theorem modRegion_intervals (s : State) (k : Nat) (f : Region → Region) : (modRegion s k f).intervals = s.intervals := rfl
@[simp] theorem modRegion_leases (s : State) (k : Nat) (f : Region → Region) : (modRegion s k f).leases = s.leases := rfl
@[simp] theorem modRegion_accesses (s : State) (k : Nat) (f : Region → Region) : (modRegion s k f).accesses = s.accesses := rfl
@[simp] theorem modRegion_moved (s : State) (k : Nat) (f : Region → Region) : (modRegion s k f).moved = s.moved := rfl
@[simp] theorem modRegion_metered (s : State) (k : Nat) (f : Region → Region) : (modRegion s k f).metered = s.metered := rfl
@[simp] theorem modRegion_regions (s : State) (k : Nat) (f : Region → Region) : (modRegion s k f).regions = fmod s.regions k f := rfl
@[simp] theorem modRegion_ranges (s : State) (k : Nat) (f : Region → Region) : (modRegion s k f).ranges = s.ranges := rfl
@[simp] theorem modRegion_cohorts (s : State) (k : Nat) (f : Region → Region) : (modRegion s k f).cohorts = s.cohorts := rfl
@[simp] theorem modRegion_gangs (s : State) (k : Nat) (f : Region → Region) : (modRegion s k f).gangs = s.gangs := rfl
@[simp] theorem modRegion_waves (s : State) (k : Nat) (f : Region → Region) : (modRegion s k f).waves = s.waves := rfl
@[simp] theorem modRegion_entries (s : State) (k : Nat) (f : Region → Region) : (modRegion s k f).entries = s.entries := rfl
@[simp] theorem modRegion_nextGen (s : State) (k : Nat) (f : Region → Region) : (modRegion s k f).nextGen = s.nextGen := rfl
@[simp] theorem modRegion_charged (s : State) (k : Nat) (f : Region → Region) : (modRegion s k f).charged = s.charged := rfl
@[simp] theorem modRegion_waitsets (s : State) (k : Nat) (f : Region → Region) : (modRegion s k f).waitsets = s.waitsets := rfl
@[simp] theorem modRegion_timers (s : State) (k : Nat) (f : Region → Region) : (modRegion s k f).timers = s.timers := rfl
@[simp] theorem modRegion_ports (s : State) (k : Nat) (f : Region → Region) : (modRegion s k f).ports = s.ports := rfl
@[simp] theorem modRegion_proxies (s : State) (k : Nat) (f : Region → Region) : (modRegion s k f).proxies = s.proxies := rfl
@[simp] theorem modRegion_segments (s : State) (k : Nat) (f : Region → Region) : (modRegion s k f).segments = s.segments := rfl
@[simp] theorem modRegion_links (s : State) (k : Nat) (f : Region → Region) : (modRegion s k f).links = s.links := rfl
@[simp] theorem modRegion_dedup (s : State) (k : Nat) (f : Region → Region) : (modRegion s k f).dedup = s.dedup := rfl
@[simp] theorem modRegion_sends (s : State) (k : Nat) (f : Region → Region) : (modRegion s k f).sends = s.sends := rfl
@[simp] theorem modRegion_reservations (s : State) (k : Nat) (f : Region → Region) : (modRegion s k f).reservations = s.reservations := rfl
@[simp] theorem modRegion_held (s : State) (k : Nat) (f : Region → Region) : (modRegion s k f).held = s.held := rfl
@[simp] theorem modRegion_late (s : State) (k : Nat) (f : Region → Region) : (modRegion s k f).late = s.late := rfl
@[simp] theorem modRegion_names (s : State) (k : Nat) (f : Region → Region) : (modRegion s k f).names = s.names := rfl
@[simp] theorem modRegion_peers (s : State) (k : Nat) (f : Region → Region) : (modRegion s k f).peers = s.peers := rfl
@[simp] theorem modRegion_aqueduct (s : State) (k : Nat) (f : Region → Region) : (modRegion s k f).aqueduct = s.aqueduct := rfl
@[simp] theorem modRegion_clusters (s : State) (k : Nat) (f : Region → Region) : (modRegion s k f).clusters = s.clusters := rfl
@[simp] theorem modRegion_agelimit (s : State) (k : Nat) (f : Region → Region) : (modRegion s k f).agelimit = s.agelimit := rfl
@[simp] theorem modRegion_quantum (s : State) (k : Nat) (f : Region → Region) : (modRegion s k f).quantum = s.quantum := rfl
@[simp] theorem modRegion_host (s : State) (k : Nat) (f : Region → Region) : (modRegion s k f).host = s.host := rfl

/-! ### modHost -/

@[simp] theorem modHost_time (s : State) (f : HostState → HostState) : (modHost s f).time = s.time := rfl
@[simp] theorem modHost_agenda (s : State) (f : HostState → HostState) : (modHost s f).agenda = s.agenda := rfl
@[simp] theorem modHost_cur (s : State) (f : HostState → HostState) : (modHost s f).cur = s.cur := rfl
@[simp] theorem modHost_fresh (s : State) (f : HostState → HostState) : (modHost s f).fresh = s.fresh := rfl
@[simp] theorem modHost_serial (s : State) (f : HostState → HostState) : (modHost s f).serial = s.serial := rfl
@[simp] theorem modHost_issued (s : State) (f : HostState → HostState) : (modHost s f).issued = s.issued := rfl
@[simp] theorem modHost_wants (s : State) (f : HostState → HostState) : (modHost s f).wants = s.wants := rfl
@[simp] theorem modHost_mem (s : State) (f : HostState → HostState) : (modHost s f).mem = s.mem := rfl
@[simp] theorem modHost_hostL2 (s : State) (f : HostState → HostState) : (modHost s f).hostL2 = s.hostL2 := rfl
@[simp] theorem modHost_hostLines (s : State) (f : HostState → HostState) : (modHost s f).hostLines = s.hostLines := rfl
@[simp] theorem modHost_flushes (s : State) (f : HostState → HostState) : (modHost s f).flushes = s.flushes := rfl
@[simp] theorem modHost_tlb (s : State) (f : HostState → HostState) : (modHost s f).tlb = s.tlb := rfl
@[simp] theorem modHost_fetched (s : State) (f : HostState → HostState) : (modHost s f).fetched = s.fetched := rfl
@[simp] theorem modHost_pool (s : State) (f : HostState → HostState) : (modHost s f).pool = s.pool := rfl
@[simp] theorem modHost_hbmNext (s : State) (f : HostState → HostState) : (modHost s f).hbmNext = s.hbmNext := rfl
@[simp] theorem modHost_hbmFree (s : State) (f : HostState → HostState) : (modHost s f).hbmFree = s.hbmFree := rfl
@[simp] theorem modHost_deepNext (s : State) (f : HostState → HostState) : (modHost s f).deepNext = s.deepNext := rfl
@[simp] theorem modHost_deepFree (s : State) (f : HostState → HostState) : (modHost s f).deepFree = s.deepFree := rfl
@[simp] theorem modHost_resident (s : State) (f : HostState → HostState) : (modHost s f).resident = s.resident := rfl
@[simp] theorem modHost_moves (s : State) (f : HostState → HostState) : (modHost s f).moves = s.moves := rfl
@[simp] theorem modHost_migs (s : State) (f : HostState → HostState) : (modHost s f).migs = s.migs := rfl
@[simp] theorem modHost_channels (s : State) (f : HostState → HostState) : (modHost s f).channels = s.channels := rfl
@[simp] theorem modHost_intervals (s : State) (f : HostState → HostState) : (modHost s f).intervals = s.intervals := rfl
@[simp] theorem modHost_leases (s : State) (f : HostState → HostState) : (modHost s f).leases = s.leases := rfl
@[simp] theorem modHost_accesses (s : State) (f : HostState → HostState) : (modHost s f).accesses = s.accesses := rfl
@[simp] theorem modHost_moved (s : State) (f : HostState → HostState) : (modHost s f).moved = s.moved := rfl
@[simp] theorem modHost_metered (s : State) (f : HostState → HostState) : (modHost s f).metered = s.metered := rfl
@[simp] theorem modHost_regions (s : State) (f : HostState → HostState) : (modHost s f).regions = s.regions := rfl
@[simp] theorem modHost_ranges (s : State) (f : HostState → HostState) : (modHost s f).ranges = s.ranges := rfl
@[simp] theorem modHost_cohorts (s : State) (f : HostState → HostState) : (modHost s f).cohorts = s.cohorts := rfl
@[simp] theorem modHost_gangs (s : State) (f : HostState → HostState) : (modHost s f).gangs = s.gangs := rfl
@[simp] theorem modHost_waves (s : State) (f : HostState → HostState) : (modHost s f).waves = s.waves := rfl
@[simp] theorem modHost_entries (s : State) (f : HostState → HostState) : (modHost s f).entries = s.entries := rfl
@[simp] theorem modHost_nextGen (s : State) (f : HostState → HostState) : (modHost s f).nextGen = s.nextGen := rfl
@[simp] theorem modHost_charged (s : State) (f : HostState → HostState) : (modHost s f).charged = s.charged := rfl
@[simp] theorem modHost_waitsets (s : State) (f : HostState → HostState) : (modHost s f).waitsets = s.waitsets := rfl
@[simp] theorem modHost_timers (s : State) (f : HostState → HostState) : (modHost s f).timers = s.timers := rfl
@[simp] theorem modHost_ports (s : State) (f : HostState → HostState) : (modHost s f).ports = s.ports := rfl
@[simp] theorem modHost_proxies (s : State) (f : HostState → HostState) : (modHost s f).proxies = s.proxies := rfl
@[simp] theorem modHost_segments (s : State) (f : HostState → HostState) : (modHost s f).segments = s.segments := rfl
@[simp] theorem modHost_links (s : State) (f : HostState → HostState) : (modHost s f).links = s.links := rfl
@[simp] theorem modHost_dedup (s : State) (f : HostState → HostState) : (modHost s f).dedup = s.dedup := rfl
@[simp] theorem modHost_sends (s : State) (f : HostState → HostState) : (modHost s f).sends = s.sends := rfl
@[simp] theorem modHost_reservations (s : State) (f : HostState → HostState) : (modHost s f).reservations = s.reservations := rfl
@[simp] theorem modHost_held (s : State) (f : HostState → HostState) : (modHost s f).held = s.held := rfl
@[simp] theorem modHost_late (s : State) (f : HostState → HostState) : (modHost s f).late = s.late := rfl
@[simp] theorem modHost_names (s : State) (f : HostState → HostState) : (modHost s f).names = s.names := rfl
@[simp] theorem modHost_peers (s : State) (f : HostState → HostState) : (modHost s f).peers = s.peers := rfl
@[simp] theorem modHost_aqueduct (s : State) (f : HostState → HostState) : (modHost s f).aqueduct = s.aqueduct := rfl
@[simp] theorem modHost_clusters (s : State) (f : HostState → HostState) : (modHost s f).clusters = s.clusters := rfl
@[simp] theorem modHost_agelimit (s : State) (f : HostState → HostState) : (modHost s f).agelimit = s.agelimit := rfl
@[simp] theorem modHost_quantum (s : State) (f : HostState → HostState) : (modHost s f).quantum = s.quantum := rfl
@[simp] theorem modHost_host (s : State) (f : HostState → HostState) : (modHost s f).host = f s.host := rfl

/-! ### Wave.writeV -/

@[simp] theorem writeV_gang (w : Wave) (n : Nat) (m : Word) (f : Nat → Word) : (w.writeV n m f).gang = w.gang := by unfold Wave.writeV; split <;> rfl
@[simp] theorem writeV_idx (w : Wave) (n : Nat) (m : Word) (f : Nat → Word) : (w.writeV n m f).idx = w.idx := by unfold Wave.writeV; split <;> rfl
@[simp] theorem writeV_role (w : Wave) (n : Nat) (m : Word) (f : Nat → Word) : (w.writeV n m f).role = w.role := by unfold Wave.writeV; split <;> rfl
@[simp] theorem writeV_vn (w : Wave) (n : Nat) (m : Word) (f : Nat → Word) : (w.writeV n m f).vn = w.vn := by unfold Wave.writeV; split <;> rfl
@[simp] theorem writeV_sn (w : Wave) (n : Nat) (m : Word) (f : Nat → Word) : (w.writeV n m f).sn = w.sn := by unfold Wave.writeV; split <;> rfl
@[simp] theorem writeV_tn (w : Wave) (n : Nat) (m : Word) (f : Nat → Word) : (w.writeV n m f).tn = w.tn := by unfold Wave.writeV; split <;> rfl
@[simp] theorem writeV_quad (w : Wave) (n : Nat) (m : Word) (f : Nat → Word) : (w.writeV n m f).quad = w.quad := by unfold Wave.writeV; split <;> rfl
@[simp] theorem writeV_slot (w : Wave) (n : Nat) (m : Word) (f : Nat → Word) : (w.writeV n m f).slot = w.slot := by unfold Wave.writeV; split <;> rfl
@[simp] theorem writeV_s (w : Wave) (n : Nat) (m : Word) (f : Nat → Word) : (w.writeV n m f).s = w.s := by unfold Wave.writeV; split <;> rfl
@[simp] theorem writeV_p (w : Wave) (n : Nat) (m : Word) (f : Nat → Word) : (w.writeV n m f).p = w.p := by unfold Wave.writeV; split <;> rfl
@[simp] theorem writeV_t (w : Wave) (n : Nat) (m : Word) (f : Nat → Word) : (w.writeV n m f).t = w.t := by unfold Wave.writeV; split <;> rfl
@[simp] theorem writeV_deadS (w : Wave) (n : Nat) (m : Word) (f : Nat → Word) : (w.writeV n m f).deadS = w.deadS := by unfold Wave.writeV; split <;> rfl
@[simp] theorem writeV_pcs (w : Wave) (n : Nat) (m : Word) (f : Nat → Word) : (w.writeV n m f).pcs = w.pcs := by unfold Wave.writeV; split <;> rfl
@[simp] theorem writeV_lanes (w : Wave) (n : Nat) (m : Word) (f : Nat → Word) : (w.writeV n m f).lanes = w.lanes := by unfold Wave.writeV; split <;> rfl
@[simp] theorem writeV_priv (w : Wave) (n : Nat) (m : Word) (f : Nat → Word) : (w.writeV n m f).priv = w.priv := by unfold Wave.writeV; split <;> rfl
@[simp] theorem writeV_held (w : Wave) (n : Nat) (m : Word) (f : Nat → Word) : (w.writeV n m f).held = w.held := by unfold Wave.writeV; split <;> rfl
@[simp] theorem writeV_chain (w : Wave) (n : Nat) (m : Word) (f : Nat → Word) : (w.writeV n m f).chain = w.chain := by unfold Wave.writeV; split <;> rfl
@[simp] theorem writeV_mode (w : Wave) (n : Nat) (m : Word) (f : Nat → Word) : (w.writeV n m f).mode = w.mode := by unfold Wave.writeV; split <;> rfl
@[simp] theorem writeV_flags (w : Wave) (n : Nat) (m : Word) (f : Nat → Word) : (w.writeV n m f).flags = w.flags := by unfold Wave.writeV; split <;> rfl
@[simp] theorem writeV_seed (w : Wave) (n : Nat) (m : Word) (f : Nat → Word) : (w.writeV n m f).seed = w.seed := by unfold Wave.writeV; split <;> rfl
@[simp] theorem writeV_ptag (w : Wave) (n : Nat) (m : Word) (f : Nat → Word) : (w.writeV n m f).ptag = w.ptag := by unfold Wave.writeV; split <;> rfl
@[simp] theorem writeV_iseq (w : Wave) (n : Nat) (m : Word) (f : Nat → Word) : (w.writeV n m f).iseq = w.iseq := by unfold Wave.writeV; split <;> rfl
@[simp] theorem writeV_tcause (w : Wave) (n : Nat) (m : Word) (f : Nat → Word) : (w.writeV n m f).tcause = w.tcause := by unfold Wave.writeV; split <;> rfl
@[simp] theorem writeV_tpc (w : Wave) (n : Nat) (m : Word) (f : Nat → Word) : (w.writeV n m f).tpc = w.tpc := by unfold Wave.writeV; split <;> rfl
@[simp] theorem writeV_tresume (w : Wave) (n : Nat) (m : Word) (f : Nat → Word) : (w.writeV n m f).tresume = w.tresume := by unfold Wave.writeV; split <;> rfl
@[simp] theorem writeV_taddr (w : Wave) (n : Nat) (m : Word) (f : Nat → Word) : (w.writeV n m f).taddr = w.taddr := by unfold Wave.writeV; split <;> rfl
@[simp] theorem writeV_tlog (w : Wave) (n : Nat) (m : Word) (f : Nat → Word) : (w.writeV n m f).tlog = w.tlog := by unfold Wave.writeV; split <;> rfl
@[simp] theorem writeV_scra (w : Wave) (n : Nat) (m : Word) (f : Nat → Word) : (w.writeV n m f).scra = w.scra := by unfold Wave.writeV; split <;> rfl
@[simp] theorem writeV_scrb (w : Wave) (n : Nat) (m : Word) (f : Nat → Word) : (w.writeV n m f).scrb = w.scrb := by unfold Wave.writeV; split <;> rfl
@[simp] theorem writeV_scrc (w : Wave) (n : Nat) (m : Word) (f : Nat → Word) : (w.writeV n m f).scrc = w.scrc := by unfold Wave.writeV; split <;> rfl
@[simp] theorem writeV_scrd (w : Wave) (n : Nat) (m : Word) (f : Nat → Word) : (w.writeV n m f).scrd = w.scrd := by unfold Wave.writeV; split <;> rfl
@[simp] theorem writeV_log (w : Wave) (n : Nat) (m : Word) (f : Nat → Word) : (w.writeV n m f).log = w.log := by unfold Wave.writeV; split <;> rfl
@[simp] theorem writeV_groups (w : Wave) (n : Nat) (m : Word) (f : Nat → Word) : (w.writeV n m f).groups = w.groups := by unfold Wave.writeV; split <;> rfl
@[simp] theorem writeV_pend (w : Wave) (n : Nat) (m : Word) (f : Nat → Word) : (w.writeV n m f).pend = w.pend := by unfold Wave.writeV; split <;> rfl
@[simp] theorem writeV_dues (w : Wave) (n : Nat) (m : Word) (f : Nat → Word) : (w.writeV n m f).dues = w.dues := by unfold Wave.writeV; split <;> rfl
@[simp] theorem writeV_frozen (w : Wave) (n : Nat) (m : Word) (f : Nat → Word) : (w.writeV n m f).frozen = w.frozen := by unfold Wave.writeV; split <;> rfl
@[simp] theorem writeV_saved (w : Wave) (n : Nat) (m : Word) (f : Nat → Word) : (w.writeV n m f).saved = w.saved := by unfold Wave.writeV; split <;> rfl
@[simp] theorem writeV_trapCtx (w : Wave) (n : Nat) (m : Word) (f : Nat → Word) : (w.writeV n m f).trapCtx = w.trapCtx := by unfold Wave.writeV; split <;> rfl
@[simp] theorem writeV_inSave (w : Wave) (n : Nat) (m : Word) (f : Nat → Word) : (w.writeV n m f).inSave = w.inSave := by unfold Wave.writeV; split <;> rfl
@[simp] theorem writeV_inRestore (w : Wave) (n : Nat) (m : Word) (f : Nat → Word) : (w.writeV n m f).inRestore = w.inRestore := by unfold Wave.writeV; split <;> rfl
@[simp] theorem writeV_restored (w : Wave) (n : Nat) (m : Word) (f : Nat → Word) : (w.writeV n m f).restored = w.restored := by unfold Wave.writeV; split <;> rfl
@[simp] theorem writeV_endReq (w : Wave) (n : Nat) (m : Word) (f : Nat → Word) : (w.writeV n m f).endReq = w.endReq := by unfold Wave.writeV; split <;> rfl
@[simp] theorem writeV_ended (w : Wave) (n : Nat) (m : Word) (f : Nat → Word) : (w.writeV n m f).ended = w.ended := by unfold Wave.writeV; split <;> rfl
@[simp] theorem writeV_ready (w : Wave) (n : Nat) (m : Word) (f : Nat → Word) : (w.writeV n m f).ready = w.ready := by unfold Wave.writeV; split <;> rfl
@[simp] theorem writeV_queued (w : Wave) (n : Nat) (m : Word) (f : Nat → Word) : (w.writeV n m f).queued = w.queued := by unfold Wave.writeV; split <;> rfl
@[simp] theorem writeV_wants (w : Wave) (n : Nat) (m : Word) (f : Nat → Word) : (w.writeV n m f).wants = w.wants := by unfold Wave.writeV; split <;> rfl

/-! ### Wave.writeS -/

@[simp] theorem writeS_gang (w : Wave) (n : Nat) (x : Word) : (w.writeS n x).gang = w.gang := by unfold Wave.writeS; split <;> rfl
@[simp] theorem writeS_idx (w : Wave) (n : Nat) (x : Word) : (w.writeS n x).idx = w.idx := by unfold Wave.writeS; split <;> rfl
@[simp] theorem writeS_role (w : Wave) (n : Nat) (x : Word) : (w.writeS n x).role = w.role := by unfold Wave.writeS; split <;> rfl
@[simp] theorem writeS_vn (w : Wave) (n : Nat) (x : Word) : (w.writeS n x).vn = w.vn := by unfold Wave.writeS; split <;> rfl
@[simp] theorem writeS_sn (w : Wave) (n : Nat) (x : Word) : (w.writeS n x).sn = w.sn := by unfold Wave.writeS; split <;> rfl
@[simp] theorem writeS_tn (w : Wave) (n : Nat) (x : Word) : (w.writeS n x).tn = w.tn := by unfold Wave.writeS; split <;> rfl
@[simp] theorem writeS_quad (w : Wave) (n : Nat) (x : Word) : (w.writeS n x).quad = w.quad := by unfold Wave.writeS; split <;> rfl
@[simp] theorem writeS_slot (w : Wave) (n : Nat) (x : Word) : (w.writeS n x).slot = w.slot := by unfold Wave.writeS; split <;> rfl
@[simp] theorem writeS_v (w : Wave) (n : Nat) (x : Word) : (w.writeS n x).v = w.v := by unfold Wave.writeS; split <;> rfl
@[simp] theorem writeS_p (w : Wave) (n : Nat) (x : Word) : (w.writeS n x).p = w.p := by unfold Wave.writeS; split <;> rfl
@[simp] theorem writeS_t (w : Wave) (n : Nat) (x : Word) : (w.writeS n x).t = w.t := by unfold Wave.writeS; split <;> rfl
@[simp] theorem writeS_deadV (w : Wave) (n : Nat) (x : Word) : (w.writeS n x).deadV = w.deadV := by unfold Wave.writeS; split <;> rfl
@[simp] theorem writeS_pcs (w : Wave) (n : Nat) (x : Word) : (w.writeS n x).pcs = w.pcs := by unfold Wave.writeS; split <;> rfl
@[simp] theorem writeS_lanes (w : Wave) (n : Nat) (x : Word) : (w.writeS n x).lanes = w.lanes := by unfold Wave.writeS; split <;> rfl
@[simp] theorem writeS_priv (w : Wave) (n : Nat) (x : Word) : (w.writeS n x).priv = w.priv := by unfold Wave.writeS; split <;> rfl
@[simp] theorem writeS_held (w : Wave) (n : Nat) (x : Word) : (w.writeS n x).held = w.held := by unfold Wave.writeS; split <;> rfl
@[simp] theorem writeS_chain (w : Wave) (n : Nat) (x : Word) : (w.writeS n x).chain = w.chain := by unfold Wave.writeS; split <;> rfl
@[simp] theorem writeS_mode (w : Wave) (n : Nat) (x : Word) : (w.writeS n x).mode = w.mode := by unfold Wave.writeS; split <;> rfl
@[simp] theorem writeS_flags (w : Wave) (n : Nat) (x : Word) : (w.writeS n x).flags = w.flags := by unfold Wave.writeS; split <;> rfl
@[simp] theorem writeS_seed (w : Wave) (n : Nat) (x : Word) : (w.writeS n x).seed = w.seed := by unfold Wave.writeS; split <;> rfl
@[simp] theorem writeS_ptag (w : Wave) (n : Nat) (x : Word) : (w.writeS n x).ptag = w.ptag := by unfold Wave.writeS; split <;> rfl
@[simp] theorem writeS_iseq (w : Wave) (n : Nat) (x : Word) : (w.writeS n x).iseq = w.iseq := by unfold Wave.writeS; split <;> rfl
@[simp] theorem writeS_tcause (w : Wave) (n : Nat) (x : Word) : (w.writeS n x).tcause = w.tcause := by unfold Wave.writeS; split <;> rfl
@[simp] theorem writeS_tpc (w : Wave) (n : Nat) (x : Word) : (w.writeS n x).tpc = w.tpc := by unfold Wave.writeS; split <;> rfl
@[simp] theorem writeS_tresume (w : Wave) (n : Nat) (x : Word) : (w.writeS n x).tresume = w.tresume := by unfold Wave.writeS; split <;> rfl
@[simp] theorem writeS_taddr (w : Wave) (n : Nat) (x : Word) : (w.writeS n x).taddr = w.taddr := by unfold Wave.writeS; split <;> rfl
@[simp] theorem writeS_tlog (w : Wave) (n : Nat) (x : Word) : (w.writeS n x).tlog = w.tlog := by unfold Wave.writeS; split <;> rfl
@[simp] theorem writeS_scra (w : Wave) (n : Nat) (x : Word) : (w.writeS n x).scra = w.scra := by unfold Wave.writeS; split <;> rfl
@[simp] theorem writeS_scrb (w : Wave) (n : Nat) (x : Word) : (w.writeS n x).scrb = w.scrb := by unfold Wave.writeS; split <;> rfl
@[simp] theorem writeS_scrc (w : Wave) (n : Nat) (x : Word) : (w.writeS n x).scrc = w.scrc := by unfold Wave.writeS; split <;> rfl
@[simp] theorem writeS_scrd (w : Wave) (n : Nat) (x : Word) : (w.writeS n x).scrd = w.scrd := by unfold Wave.writeS; split <;> rfl
@[simp] theorem writeS_log (w : Wave) (n : Nat) (x : Word) : (w.writeS n x).log = w.log := by unfold Wave.writeS; split <;> rfl
@[simp] theorem writeS_groups (w : Wave) (n : Nat) (x : Word) : (w.writeS n x).groups = w.groups := by unfold Wave.writeS; split <;> rfl
@[simp] theorem writeS_pend (w : Wave) (n : Nat) (x : Word) : (w.writeS n x).pend = w.pend := by unfold Wave.writeS; split <;> rfl
@[simp] theorem writeS_dues (w : Wave) (n : Nat) (x : Word) : (w.writeS n x).dues = w.dues := by unfold Wave.writeS; split <;> rfl
@[simp] theorem writeS_frozen (w : Wave) (n : Nat) (x : Word) : (w.writeS n x).frozen = w.frozen := by unfold Wave.writeS; split <;> rfl
@[simp] theorem writeS_saved (w : Wave) (n : Nat) (x : Word) : (w.writeS n x).saved = w.saved := by unfold Wave.writeS; split <;> rfl
@[simp] theorem writeS_trapCtx (w : Wave) (n : Nat) (x : Word) : (w.writeS n x).trapCtx = w.trapCtx := by unfold Wave.writeS; split <;> rfl
@[simp] theorem writeS_inSave (w : Wave) (n : Nat) (x : Word) : (w.writeS n x).inSave = w.inSave := by unfold Wave.writeS; split <;> rfl
@[simp] theorem writeS_inRestore (w : Wave) (n : Nat) (x : Word) : (w.writeS n x).inRestore = w.inRestore := by unfold Wave.writeS; split <;> rfl
@[simp] theorem writeS_restored (w : Wave) (n : Nat) (x : Word) : (w.writeS n x).restored = w.restored := by unfold Wave.writeS; split <;> rfl
@[simp] theorem writeS_endReq (w : Wave) (n : Nat) (x : Word) : (w.writeS n x).endReq = w.endReq := by unfold Wave.writeS; split <;> rfl
@[simp] theorem writeS_ended (w : Wave) (n : Nat) (x : Word) : (w.writeS n x).ended = w.ended := by unfold Wave.writeS; split <;> rfl
@[simp] theorem writeS_ready (w : Wave) (n : Nat) (x : Word) : (w.writeS n x).ready = w.ready := by unfold Wave.writeS; split <;> rfl
@[simp] theorem writeS_queued (w : Wave) (n : Nat) (x : Word) : (w.writeS n x).queued = w.queued := by unfold Wave.writeS; split <;> rfl
@[simp] theorem writeS_wants (w : Wave) (n : Nat) (x : Word) : (w.writeS n x).wants = w.wants := by unfold Wave.writeS; split <;> rfl

/-! ### Wave.writeP -/

@[simp] theorem writeP_gang (w : Wave) (n : Nat) (x : Word) : (w.writeP n x).gang = w.gang := by unfold Wave.writeP; split <;> rfl
@[simp] theorem writeP_idx (w : Wave) (n : Nat) (x : Word) : (w.writeP n x).idx = w.idx := by unfold Wave.writeP; split <;> rfl
@[simp] theorem writeP_role (w : Wave) (n : Nat) (x : Word) : (w.writeP n x).role = w.role := by unfold Wave.writeP; split <;> rfl
@[simp] theorem writeP_vn (w : Wave) (n : Nat) (x : Word) : (w.writeP n x).vn = w.vn := by unfold Wave.writeP; split <;> rfl
@[simp] theorem writeP_sn (w : Wave) (n : Nat) (x : Word) : (w.writeP n x).sn = w.sn := by unfold Wave.writeP; split <;> rfl
@[simp] theorem writeP_tn (w : Wave) (n : Nat) (x : Word) : (w.writeP n x).tn = w.tn := by unfold Wave.writeP; split <;> rfl
@[simp] theorem writeP_quad (w : Wave) (n : Nat) (x : Word) : (w.writeP n x).quad = w.quad := by unfold Wave.writeP; split <;> rfl
@[simp] theorem writeP_slot (w : Wave) (n : Nat) (x : Word) : (w.writeP n x).slot = w.slot := by unfold Wave.writeP; split <;> rfl
@[simp] theorem writeP_v (w : Wave) (n : Nat) (x : Word) : (w.writeP n x).v = w.v := by unfold Wave.writeP; split <;> rfl
@[simp] theorem writeP_s (w : Wave) (n : Nat) (x : Word) : (w.writeP n x).s = w.s := by unfold Wave.writeP; split <;> rfl
@[simp] theorem writeP_t (w : Wave) (n : Nat) (x : Word) : (w.writeP n x).t = w.t := by unfold Wave.writeP; split <;> rfl
@[simp] theorem writeP_deadV (w : Wave) (n : Nat) (x : Word) : (w.writeP n x).deadV = w.deadV := by unfold Wave.writeP; split <;> rfl
@[simp] theorem writeP_deadS (w : Wave) (n : Nat) (x : Word) : (w.writeP n x).deadS = w.deadS := by unfold Wave.writeP; split <;> rfl
@[simp] theorem writeP_pcs (w : Wave) (n : Nat) (x : Word) : (w.writeP n x).pcs = w.pcs := by unfold Wave.writeP; split <;> rfl
@[simp] theorem writeP_lanes (w : Wave) (n : Nat) (x : Word) : (w.writeP n x).lanes = w.lanes := by unfold Wave.writeP; split <;> rfl
@[simp] theorem writeP_priv (w : Wave) (n : Nat) (x : Word) : (w.writeP n x).priv = w.priv := by unfold Wave.writeP; split <;> rfl
@[simp] theorem writeP_held (w : Wave) (n : Nat) (x : Word) : (w.writeP n x).held = w.held := by unfold Wave.writeP; split <;> rfl
@[simp] theorem writeP_chain (w : Wave) (n : Nat) (x : Word) : (w.writeP n x).chain = w.chain := by unfold Wave.writeP; split <;> rfl
@[simp] theorem writeP_mode (w : Wave) (n : Nat) (x : Word) : (w.writeP n x).mode = w.mode := by unfold Wave.writeP; split <;> rfl
@[simp] theorem writeP_flags (w : Wave) (n : Nat) (x : Word) : (w.writeP n x).flags = w.flags := by unfold Wave.writeP; split <;> rfl
@[simp] theorem writeP_seed (w : Wave) (n : Nat) (x : Word) : (w.writeP n x).seed = w.seed := by unfold Wave.writeP; split <;> rfl
@[simp] theorem writeP_ptag (w : Wave) (n : Nat) (x : Word) : (w.writeP n x).ptag = w.ptag := by unfold Wave.writeP; split <;> rfl
@[simp] theorem writeP_iseq (w : Wave) (n : Nat) (x : Word) : (w.writeP n x).iseq = w.iseq := by unfold Wave.writeP; split <;> rfl
@[simp] theorem writeP_tcause (w : Wave) (n : Nat) (x : Word) : (w.writeP n x).tcause = w.tcause := by unfold Wave.writeP; split <;> rfl
@[simp] theorem writeP_tpc (w : Wave) (n : Nat) (x : Word) : (w.writeP n x).tpc = w.tpc := by unfold Wave.writeP; split <;> rfl
@[simp] theorem writeP_tresume (w : Wave) (n : Nat) (x : Word) : (w.writeP n x).tresume = w.tresume := by unfold Wave.writeP; split <;> rfl
@[simp] theorem writeP_taddr (w : Wave) (n : Nat) (x : Word) : (w.writeP n x).taddr = w.taddr := by unfold Wave.writeP; split <;> rfl
@[simp] theorem writeP_tlog (w : Wave) (n : Nat) (x : Word) : (w.writeP n x).tlog = w.tlog := by unfold Wave.writeP; split <;> rfl
@[simp] theorem writeP_scra (w : Wave) (n : Nat) (x : Word) : (w.writeP n x).scra = w.scra := by unfold Wave.writeP; split <;> rfl
@[simp] theorem writeP_scrb (w : Wave) (n : Nat) (x : Word) : (w.writeP n x).scrb = w.scrb := by unfold Wave.writeP; split <;> rfl
@[simp] theorem writeP_scrc (w : Wave) (n : Nat) (x : Word) : (w.writeP n x).scrc = w.scrc := by unfold Wave.writeP; split <;> rfl
@[simp] theorem writeP_scrd (w : Wave) (n : Nat) (x : Word) : (w.writeP n x).scrd = w.scrd := by unfold Wave.writeP; split <;> rfl
@[simp] theorem writeP_log (w : Wave) (n : Nat) (x : Word) : (w.writeP n x).log = w.log := by unfold Wave.writeP; split <;> rfl
@[simp] theorem writeP_groups (w : Wave) (n : Nat) (x : Word) : (w.writeP n x).groups = w.groups := by unfold Wave.writeP; split <;> rfl
@[simp] theorem writeP_pend (w : Wave) (n : Nat) (x : Word) : (w.writeP n x).pend = w.pend := by unfold Wave.writeP; split <;> rfl
@[simp] theorem writeP_dues (w : Wave) (n : Nat) (x : Word) : (w.writeP n x).dues = w.dues := by unfold Wave.writeP; split <;> rfl
@[simp] theorem writeP_frozen (w : Wave) (n : Nat) (x : Word) : (w.writeP n x).frozen = w.frozen := by unfold Wave.writeP; split <;> rfl
@[simp] theorem writeP_saved (w : Wave) (n : Nat) (x : Word) : (w.writeP n x).saved = w.saved := by unfold Wave.writeP; split <;> rfl
@[simp] theorem writeP_trapCtx (w : Wave) (n : Nat) (x : Word) : (w.writeP n x).trapCtx = w.trapCtx := by unfold Wave.writeP; split <;> rfl
@[simp] theorem writeP_inSave (w : Wave) (n : Nat) (x : Word) : (w.writeP n x).inSave = w.inSave := by unfold Wave.writeP; split <;> rfl
@[simp] theorem writeP_inRestore (w : Wave) (n : Nat) (x : Word) : (w.writeP n x).inRestore = w.inRestore := by unfold Wave.writeP; split <;> rfl
@[simp] theorem writeP_restored (w : Wave) (n : Nat) (x : Word) : (w.writeP n x).restored = w.restored := by unfold Wave.writeP; split <;> rfl
@[simp] theorem writeP_endReq (w : Wave) (n : Nat) (x : Word) : (w.writeP n x).endReq = w.endReq := by unfold Wave.writeP; split <;> rfl
@[simp] theorem writeP_ended (w : Wave) (n : Nat) (x : Word) : (w.writeP n x).ended = w.ended := by unfold Wave.writeP; split <;> rfl
@[simp] theorem writeP_ready (w : Wave) (n : Nat) (x : Word) : (w.writeP n x).ready = w.ready := by unfold Wave.writeP; split <;> rfl
@[simp] theorem writeP_queued (w : Wave) (n : Nat) (x : Word) : (w.writeP n x).queued = w.queued := by unfold Wave.writeP; split <;> rfl
@[simp] theorem writeP_wants (w : Wave) (n : Nat) (x : Word) : (w.writeP n x).wants = w.wants := by unfold Wave.writeP; split <;> rfl

/-! ### Wave.writeT -/

@[simp] theorem writeT_gang (w : Wave) (n : Nat) (x : BitVec 128) : (w.writeT n x).gang = w.gang := rfl
@[simp] theorem writeT_idx (w : Wave) (n : Nat) (x : BitVec 128) : (w.writeT n x).idx = w.idx := rfl
@[simp] theorem writeT_role (w : Wave) (n : Nat) (x : BitVec 128) : (w.writeT n x).role = w.role := rfl
@[simp] theorem writeT_vn (w : Wave) (n : Nat) (x : BitVec 128) : (w.writeT n x).vn = w.vn := rfl
@[simp] theorem writeT_sn (w : Wave) (n : Nat) (x : BitVec 128) : (w.writeT n x).sn = w.sn := rfl
@[simp] theorem writeT_tn (w : Wave) (n : Nat) (x : BitVec 128) : (w.writeT n x).tn = w.tn := rfl
@[simp] theorem writeT_quad (w : Wave) (n : Nat) (x : BitVec 128) : (w.writeT n x).quad = w.quad := rfl
@[simp] theorem writeT_slot (w : Wave) (n : Nat) (x : BitVec 128) : (w.writeT n x).slot = w.slot := rfl
@[simp] theorem writeT_v (w : Wave) (n : Nat) (x : BitVec 128) : (w.writeT n x).v = w.v := rfl
@[simp] theorem writeT_s (w : Wave) (n : Nat) (x : BitVec 128) : (w.writeT n x).s = w.s := rfl
@[simp] theorem writeT_p (w : Wave) (n : Nat) (x : BitVec 128) : (w.writeT n x).p = w.p := rfl
@[simp] theorem writeT_deadV (w : Wave) (n : Nat) (x : BitVec 128) : (w.writeT n x).deadV = w.deadV := rfl
@[simp] theorem writeT_deadS (w : Wave) (n : Nat) (x : BitVec 128) : (w.writeT n x).deadS = w.deadS := rfl
@[simp] theorem writeT_pcs (w : Wave) (n : Nat) (x : BitVec 128) : (w.writeT n x).pcs = w.pcs := rfl
@[simp] theorem writeT_lanes (w : Wave) (n : Nat) (x : BitVec 128) : (w.writeT n x).lanes = w.lanes := rfl
@[simp] theorem writeT_priv (w : Wave) (n : Nat) (x : BitVec 128) : (w.writeT n x).priv = w.priv := rfl
@[simp] theorem writeT_held (w : Wave) (n : Nat) (x : BitVec 128) : (w.writeT n x).held = w.held := rfl
@[simp] theorem writeT_chain (w : Wave) (n : Nat) (x : BitVec 128) : (w.writeT n x).chain = w.chain := rfl
@[simp] theorem writeT_mode (w : Wave) (n : Nat) (x : BitVec 128) : (w.writeT n x).mode = w.mode := rfl
@[simp] theorem writeT_flags (w : Wave) (n : Nat) (x : BitVec 128) : (w.writeT n x).flags = w.flags := rfl
@[simp] theorem writeT_seed (w : Wave) (n : Nat) (x : BitVec 128) : (w.writeT n x).seed = w.seed := rfl
@[simp] theorem writeT_ptag (w : Wave) (n : Nat) (x : BitVec 128) : (w.writeT n x).ptag = w.ptag := rfl
@[simp] theorem writeT_iseq (w : Wave) (n : Nat) (x : BitVec 128) : (w.writeT n x).iseq = w.iseq := rfl
@[simp] theorem writeT_tcause (w : Wave) (n : Nat) (x : BitVec 128) : (w.writeT n x).tcause = w.tcause := rfl
@[simp] theorem writeT_tpc (w : Wave) (n : Nat) (x : BitVec 128) : (w.writeT n x).tpc = w.tpc := rfl
@[simp] theorem writeT_tresume (w : Wave) (n : Nat) (x : BitVec 128) : (w.writeT n x).tresume = w.tresume := rfl
@[simp] theorem writeT_taddr (w : Wave) (n : Nat) (x : BitVec 128) : (w.writeT n x).taddr = w.taddr := rfl
@[simp] theorem writeT_tlog (w : Wave) (n : Nat) (x : BitVec 128) : (w.writeT n x).tlog = w.tlog := rfl
@[simp] theorem writeT_scra (w : Wave) (n : Nat) (x : BitVec 128) : (w.writeT n x).scra = w.scra := rfl
@[simp] theorem writeT_scrb (w : Wave) (n : Nat) (x : BitVec 128) : (w.writeT n x).scrb = w.scrb := rfl
@[simp] theorem writeT_scrc (w : Wave) (n : Nat) (x : BitVec 128) : (w.writeT n x).scrc = w.scrc := rfl
@[simp] theorem writeT_scrd (w : Wave) (n : Nat) (x : BitVec 128) : (w.writeT n x).scrd = w.scrd := rfl
@[simp] theorem writeT_log (w : Wave) (n : Nat) (x : BitVec 128) : (w.writeT n x).log = w.log := rfl
@[simp] theorem writeT_groups (w : Wave) (n : Nat) (x : BitVec 128) : (w.writeT n x).groups = w.groups := rfl
@[simp] theorem writeT_pend (w : Wave) (n : Nat) (x : BitVec 128) : (w.writeT n x).pend = w.pend := rfl
@[simp] theorem writeT_dues (w : Wave) (n : Nat) (x : BitVec 128) : (w.writeT n x).dues = w.dues := rfl
@[simp] theorem writeT_frozen (w : Wave) (n : Nat) (x : BitVec 128) : (w.writeT n x).frozen = w.frozen := rfl
@[simp] theorem writeT_saved (w : Wave) (n : Nat) (x : BitVec 128) : (w.writeT n x).saved = w.saved := rfl
@[simp] theorem writeT_trapCtx (w : Wave) (n : Nat) (x : BitVec 128) : (w.writeT n x).trapCtx = w.trapCtx := rfl
@[simp] theorem writeT_inSave (w : Wave) (n : Nat) (x : BitVec 128) : (w.writeT n x).inSave = w.inSave := rfl
@[simp] theorem writeT_inRestore (w : Wave) (n : Nat) (x : BitVec 128) : (w.writeT n x).inRestore = w.inRestore := rfl
@[simp] theorem writeT_restored (w : Wave) (n : Nat) (x : BitVec 128) : (w.writeT n x).restored = w.restored := rfl
@[simp] theorem writeT_endReq (w : Wave) (n : Nat) (x : BitVec 128) : (w.writeT n x).endReq = w.endReq := rfl
@[simp] theorem writeT_ended (w : Wave) (n : Nat) (x : BitVec 128) : (w.writeT n x).ended = w.ended := rfl
@[simp] theorem writeT_ready (w : Wave) (n : Nat) (x : BitVec 128) : (w.writeT n x).ready = w.ready := rfl
@[simp] theorem writeT_queued (w : Wave) (n : Nat) (x : BitVec 128) : (w.writeT n x).queued = w.queued := rfl
@[simp] theorem writeT_wants (w : Wave) (n : Nat) (x : BitVec 128) : (w.writeT n x).wants = w.wants := rfl

/-! ### Wave.writeS64 -/

@[simp] theorem writeS64_gang (w : Wave) (n : Nat) (x : DWord) : (w.writeS64 n x).gang = w.gang := by simp [Wave.writeS64]
@[simp] theorem writeS64_idx (w : Wave) (n : Nat) (x : DWord) : (w.writeS64 n x).idx = w.idx := by simp [Wave.writeS64]
@[simp] theorem writeS64_role (w : Wave) (n : Nat) (x : DWord) : (w.writeS64 n x).role = w.role := by simp [Wave.writeS64]
@[simp] theorem writeS64_vn (w : Wave) (n : Nat) (x : DWord) : (w.writeS64 n x).vn = w.vn := by simp [Wave.writeS64]
@[simp] theorem writeS64_sn (w : Wave) (n : Nat) (x : DWord) : (w.writeS64 n x).sn = w.sn := by simp [Wave.writeS64]
@[simp] theorem writeS64_tn (w : Wave) (n : Nat) (x : DWord) : (w.writeS64 n x).tn = w.tn := by simp [Wave.writeS64]
@[simp] theorem writeS64_quad (w : Wave) (n : Nat) (x : DWord) : (w.writeS64 n x).quad = w.quad := by simp [Wave.writeS64]
@[simp] theorem writeS64_slot (w : Wave) (n : Nat) (x : DWord) : (w.writeS64 n x).slot = w.slot := by simp [Wave.writeS64]
@[simp] theorem writeS64_v (w : Wave) (n : Nat) (x : DWord) : (w.writeS64 n x).v = w.v := by simp [Wave.writeS64]
@[simp] theorem writeS64_p (w : Wave) (n : Nat) (x : DWord) : (w.writeS64 n x).p = w.p := by simp [Wave.writeS64]
@[simp] theorem writeS64_t (w : Wave) (n : Nat) (x : DWord) : (w.writeS64 n x).t = w.t := by simp [Wave.writeS64]
@[simp] theorem writeS64_deadV (w : Wave) (n : Nat) (x : DWord) : (w.writeS64 n x).deadV = w.deadV := by simp [Wave.writeS64]
@[simp] theorem writeS64_pcs (w : Wave) (n : Nat) (x : DWord) : (w.writeS64 n x).pcs = w.pcs := by simp [Wave.writeS64]
@[simp] theorem writeS64_lanes (w : Wave) (n : Nat) (x : DWord) : (w.writeS64 n x).lanes = w.lanes := by simp [Wave.writeS64]
@[simp] theorem writeS64_priv (w : Wave) (n : Nat) (x : DWord) : (w.writeS64 n x).priv = w.priv := by simp [Wave.writeS64]
@[simp] theorem writeS64_held (w : Wave) (n : Nat) (x : DWord) : (w.writeS64 n x).held = w.held := by simp [Wave.writeS64]
@[simp] theorem writeS64_chain (w : Wave) (n : Nat) (x : DWord) : (w.writeS64 n x).chain = w.chain := by simp [Wave.writeS64]
@[simp] theorem writeS64_mode (w : Wave) (n : Nat) (x : DWord) : (w.writeS64 n x).mode = w.mode := by simp [Wave.writeS64]
@[simp] theorem writeS64_flags (w : Wave) (n : Nat) (x : DWord) : (w.writeS64 n x).flags = w.flags := by simp [Wave.writeS64]
@[simp] theorem writeS64_seed (w : Wave) (n : Nat) (x : DWord) : (w.writeS64 n x).seed = w.seed := by simp [Wave.writeS64]
@[simp] theorem writeS64_ptag (w : Wave) (n : Nat) (x : DWord) : (w.writeS64 n x).ptag = w.ptag := by simp [Wave.writeS64]
@[simp] theorem writeS64_iseq (w : Wave) (n : Nat) (x : DWord) : (w.writeS64 n x).iseq = w.iseq := by simp [Wave.writeS64]
@[simp] theorem writeS64_tcause (w : Wave) (n : Nat) (x : DWord) : (w.writeS64 n x).tcause = w.tcause := by simp [Wave.writeS64]
@[simp] theorem writeS64_tpc (w : Wave) (n : Nat) (x : DWord) : (w.writeS64 n x).tpc = w.tpc := by simp [Wave.writeS64]
@[simp] theorem writeS64_tresume (w : Wave) (n : Nat) (x : DWord) : (w.writeS64 n x).tresume = w.tresume := by simp [Wave.writeS64]
@[simp] theorem writeS64_taddr (w : Wave) (n : Nat) (x : DWord) : (w.writeS64 n x).taddr = w.taddr := by simp [Wave.writeS64]
@[simp] theorem writeS64_tlog (w : Wave) (n : Nat) (x : DWord) : (w.writeS64 n x).tlog = w.tlog := by simp [Wave.writeS64]
@[simp] theorem writeS64_scra (w : Wave) (n : Nat) (x : DWord) : (w.writeS64 n x).scra = w.scra := by simp [Wave.writeS64]
@[simp] theorem writeS64_scrb (w : Wave) (n : Nat) (x : DWord) : (w.writeS64 n x).scrb = w.scrb := by simp [Wave.writeS64]
@[simp] theorem writeS64_scrc (w : Wave) (n : Nat) (x : DWord) : (w.writeS64 n x).scrc = w.scrc := by simp [Wave.writeS64]
@[simp] theorem writeS64_scrd (w : Wave) (n : Nat) (x : DWord) : (w.writeS64 n x).scrd = w.scrd := by simp [Wave.writeS64]
@[simp] theorem writeS64_log (w : Wave) (n : Nat) (x : DWord) : (w.writeS64 n x).log = w.log := by simp [Wave.writeS64]
@[simp] theorem writeS64_groups (w : Wave) (n : Nat) (x : DWord) : (w.writeS64 n x).groups = w.groups := by simp [Wave.writeS64]
@[simp] theorem writeS64_pend (w : Wave) (n : Nat) (x : DWord) : (w.writeS64 n x).pend = w.pend := by simp [Wave.writeS64]
@[simp] theorem writeS64_dues (w : Wave) (n : Nat) (x : DWord) : (w.writeS64 n x).dues = w.dues := by simp [Wave.writeS64]
@[simp] theorem writeS64_frozen (w : Wave) (n : Nat) (x : DWord) : (w.writeS64 n x).frozen = w.frozen := by simp [Wave.writeS64]
@[simp] theorem writeS64_saved (w : Wave) (n : Nat) (x : DWord) : (w.writeS64 n x).saved = w.saved := by simp [Wave.writeS64]
@[simp] theorem writeS64_trapCtx (w : Wave) (n : Nat) (x : DWord) : (w.writeS64 n x).trapCtx = w.trapCtx := by simp [Wave.writeS64]
@[simp] theorem writeS64_inSave (w : Wave) (n : Nat) (x : DWord) : (w.writeS64 n x).inSave = w.inSave := by simp [Wave.writeS64]
@[simp] theorem writeS64_inRestore (w : Wave) (n : Nat) (x : DWord) : (w.writeS64 n x).inRestore = w.inRestore := by simp [Wave.writeS64]
@[simp] theorem writeS64_restored (w : Wave) (n : Nat) (x : DWord) : (w.writeS64 n x).restored = w.restored := by simp [Wave.writeS64]
@[simp] theorem writeS64_endReq (w : Wave) (n : Nat) (x : DWord) : (w.writeS64 n x).endReq = w.endReq := by simp [Wave.writeS64]
@[simp] theorem writeS64_ended (w : Wave) (n : Nat) (x : DWord) : (w.writeS64 n x).ended = w.ended := by simp [Wave.writeS64]
@[simp] theorem writeS64_ready (w : Wave) (n : Nat) (x : DWord) : (w.writeS64 n x).ready = w.ready := by simp [Wave.writeS64]
@[simp] theorem writeS64_queued (w : Wave) (n : Nat) (x : DWord) : (w.writeS64 n x).queued = w.queued := by simp [Wave.writeS64]
@[simp] theorem writeS64_wants (w : Wave) (n : Nat) (x : DWord) : (w.writeS64 n x).wants = w.wants := by simp [Wave.writeS64]

/-! ### Wave.writeV64 -/

@[simp] theorem writeV64_gang (w : Wave) (n : Nat) (m : Word) (f : Nat → DWord) : (w.writeV64 n m f).gang = w.gang := by simp [Wave.writeV64]
@[simp] theorem writeV64_idx (w : Wave) (n : Nat) (m : Word) (f : Nat → DWord) : (w.writeV64 n m f).idx = w.idx := by simp [Wave.writeV64]
@[simp] theorem writeV64_role (w : Wave) (n : Nat) (m : Word) (f : Nat → DWord) : (w.writeV64 n m f).role = w.role := by simp [Wave.writeV64]
@[simp] theorem writeV64_vn (w : Wave) (n : Nat) (m : Word) (f : Nat → DWord) : (w.writeV64 n m f).vn = w.vn := by simp [Wave.writeV64]
@[simp] theorem writeV64_sn (w : Wave) (n : Nat) (m : Word) (f : Nat → DWord) : (w.writeV64 n m f).sn = w.sn := by simp [Wave.writeV64]
@[simp] theorem writeV64_tn (w : Wave) (n : Nat) (m : Word) (f : Nat → DWord) : (w.writeV64 n m f).tn = w.tn := by simp [Wave.writeV64]
@[simp] theorem writeV64_quad (w : Wave) (n : Nat) (m : Word) (f : Nat → DWord) : (w.writeV64 n m f).quad = w.quad := by simp [Wave.writeV64]
@[simp] theorem writeV64_slot (w : Wave) (n : Nat) (m : Word) (f : Nat → DWord) : (w.writeV64 n m f).slot = w.slot := by simp [Wave.writeV64]
@[simp] theorem writeV64_s (w : Wave) (n : Nat) (m : Word) (f : Nat → DWord) : (w.writeV64 n m f).s = w.s := by simp [Wave.writeV64]
@[simp] theorem writeV64_p (w : Wave) (n : Nat) (m : Word) (f : Nat → DWord) : (w.writeV64 n m f).p = w.p := by simp [Wave.writeV64]
@[simp] theorem writeV64_t (w : Wave) (n : Nat) (m : Word) (f : Nat → DWord) : (w.writeV64 n m f).t = w.t := by simp [Wave.writeV64]
@[simp] theorem writeV64_deadS (w : Wave) (n : Nat) (m : Word) (f : Nat → DWord) : (w.writeV64 n m f).deadS = w.deadS := by simp [Wave.writeV64]
@[simp] theorem writeV64_pcs (w : Wave) (n : Nat) (m : Word) (f : Nat → DWord) : (w.writeV64 n m f).pcs = w.pcs := by simp [Wave.writeV64]
@[simp] theorem writeV64_lanes (w : Wave) (n : Nat) (m : Word) (f : Nat → DWord) : (w.writeV64 n m f).lanes = w.lanes := by simp [Wave.writeV64]
@[simp] theorem writeV64_priv (w : Wave) (n : Nat) (m : Word) (f : Nat → DWord) : (w.writeV64 n m f).priv = w.priv := by simp [Wave.writeV64]
@[simp] theorem writeV64_held (w : Wave) (n : Nat) (m : Word) (f : Nat → DWord) : (w.writeV64 n m f).held = w.held := by simp [Wave.writeV64]
@[simp] theorem writeV64_chain (w : Wave) (n : Nat) (m : Word) (f : Nat → DWord) : (w.writeV64 n m f).chain = w.chain := by simp [Wave.writeV64]
@[simp] theorem writeV64_mode (w : Wave) (n : Nat) (m : Word) (f : Nat → DWord) : (w.writeV64 n m f).mode = w.mode := by simp [Wave.writeV64]
@[simp] theorem writeV64_flags (w : Wave) (n : Nat) (m : Word) (f : Nat → DWord) : (w.writeV64 n m f).flags = w.flags := by simp [Wave.writeV64]
@[simp] theorem writeV64_seed (w : Wave) (n : Nat) (m : Word) (f : Nat → DWord) : (w.writeV64 n m f).seed = w.seed := by simp [Wave.writeV64]
@[simp] theorem writeV64_ptag (w : Wave) (n : Nat) (m : Word) (f : Nat → DWord) : (w.writeV64 n m f).ptag = w.ptag := by simp [Wave.writeV64]
@[simp] theorem writeV64_iseq (w : Wave) (n : Nat) (m : Word) (f : Nat → DWord) : (w.writeV64 n m f).iseq = w.iseq := by simp [Wave.writeV64]
@[simp] theorem writeV64_tcause (w : Wave) (n : Nat) (m : Word) (f : Nat → DWord) : (w.writeV64 n m f).tcause = w.tcause := by simp [Wave.writeV64]
@[simp] theorem writeV64_tpc (w : Wave) (n : Nat) (m : Word) (f : Nat → DWord) : (w.writeV64 n m f).tpc = w.tpc := by simp [Wave.writeV64]
@[simp] theorem writeV64_tresume (w : Wave) (n : Nat) (m : Word) (f : Nat → DWord) : (w.writeV64 n m f).tresume = w.tresume := by simp [Wave.writeV64]
@[simp] theorem writeV64_taddr (w : Wave) (n : Nat) (m : Word) (f : Nat → DWord) : (w.writeV64 n m f).taddr = w.taddr := by simp [Wave.writeV64]
@[simp] theorem writeV64_tlog (w : Wave) (n : Nat) (m : Word) (f : Nat → DWord) : (w.writeV64 n m f).tlog = w.tlog := by simp [Wave.writeV64]
@[simp] theorem writeV64_scra (w : Wave) (n : Nat) (m : Word) (f : Nat → DWord) : (w.writeV64 n m f).scra = w.scra := by simp [Wave.writeV64]
@[simp] theorem writeV64_scrb (w : Wave) (n : Nat) (m : Word) (f : Nat → DWord) : (w.writeV64 n m f).scrb = w.scrb := by simp [Wave.writeV64]
@[simp] theorem writeV64_scrc (w : Wave) (n : Nat) (m : Word) (f : Nat → DWord) : (w.writeV64 n m f).scrc = w.scrc := by simp [Wave.writeV64]
@[simp] theorem writeV64_scrd (w : Wave) (n : Nat) (m : Word) (f : Nat → DWord) : (w.writeV64 n m f).scrd = w.scrd := by simp [Wave.writeV64]
@[simp] theorem writeV64_log (w : Wave) (n : Nat) (m : Word) (f : Nat → DWord) : (w.writeV64 n m f).log = w.log := by simp [Wave.writeV64]
@[simp] theorem writeV64_groups (w : Wave) (n : Nat) (m : Word) (f : Nat → DWord) : (w.writeV64 n m f).groups = w.groups := by simp [Wave.writeV64]
@[simp] theorem writeV64_pend (w : Wave) (n : Nat) (m : Word) (f : Nat → DWord) : (w.writeV64 n m f).pend = w.pend := by simp [Wave.writeV64]
@[simp] theorem writeV64_dues (w : Wave) (n : Nat) (m : Word) (f : Nat → DWord) : (w.writeV64 n m f).dues = w.dues := by simp [Wave.writeV64]
@[simp] theorem writeV64_frozen (w : Wave) (n : Nat) (m : Word) (f : Nat → DWord) : (w.writeV64 n m f).frozen = w.frozen := by simp [Wave.writeV64]
@[simp] theorem writeV64_saved (w : Wave) (n : Nat) (m : Word) (f : Nat → DWord) : (w.writeV64 n m f).saved = w.saved := by simp [Wave.writeV64]
@[simp] theorem writeV64_trapCtx (w : Wave) (n : Nat) (m : Word) (f : Nat → DWord) : (w.writeV64 n m f).trapCtx = w.trapCtx := by simp [Wave.writeV64]
@[simp] theorem writeV64_inSave (w : Wave) (n : Nat) (m : Word) (f : Nat → DWord) : (w.writeV64 n m f).inSave = w.inSave := by simp [Wave.writeV64]
@[simp] theorem writeV64_inRestore (w : Wave) (n : Nat) (m : Word) (f : Nat → DWord) : (w.writeV64 n m f).inRestore = w.inRestore := by simp [Wave.writeV64]
@[simp] theorem writeV64_restored (w : Wave) (n : Nat) (m : Word) (f : Nat → DWord) : (w.writeV64 n m f).restored = w.restored := by simp [Wave.writeV64]
@[simp] theorem writeV64_endReq (w : Wave) (n : Nat) (m : Word) (f : Nat → DWord) : (w.writeV64 n m f).endReq = w.endReq := by simp [Wave.writeV64]
@[simp] theorem writeV64_ended (w : Wave) (n : Nat) (m : Word) (f : Nat → DWord) : (w.writeV64 n m f).ended = w.ended := by simp [Wave.writeV64]
@[simp] theorem writeV64_ready (w : Wave) (n : Nat) (m : Word) (f : Nat → DWord) : (w.writeV64 n m f).ready = w.ready := by simp [Wave.writeV64]
@[simp] theorem writeV64_queued (w : Wave) (n : Nat) (m : Word) (f : Nat → DWord) : (w.writeV64 n m f).queued = w.queued := by simp [Wave.writeV64]
@[simp] theorem writeV64_wants (w : Wave) (n : Nat) (m : Word) (f : Nat → DWord) : (w.writeV64 n m f).wants = w.wants := by simp [Wave.writeV64]

/-! ### Wave.orFlags -/

@[simp] theorem orFlags_gang (w : Wave) (x : Word) : (w.orFlags x).gang = w.gang := rfl
@[simp] theorem orFlags_idx (w : Wave) (x : Word) : (w.orFlags x).idx = w.idx := rfl
@[simp] theorem orFlags_role (w : Wave) (x : Word) : (w.orFlags x).role = w.role := rfl
@[simp] theorem orFlags_vn (w : Wave) (x : Word) : (w.orFlags x).vn = w.vn := rfl
@[simp] theorem orFlags_sn (w : Wave) (x : Word) : (w.orFlags x).sn = w.sn := rfl
@[simp] theorem orFlags_tn (w : Wave) (x : Word) : (w.orFlags x).tn = w.tn := rfl
@[simp] theorem orFlags_quad (w : Wave) (x : Word) : (w.orFlags x).quad = w.quad := rfl
@[simp] theorem orFlags_slot (w : Wave) (x : Word) : (w.orFlags x).slot = w.slot := rfl
@[simp] theorem orFlags_v (w : Wave) (x : Word) : (w.orFlags x).v = w.v := rfl
@[simp] theorem orFlags_s (w : Wave) (x : Word) : (w.orFlags x).s = w.s := rfl
@[simp] theorem orFlags_p (w : Wave) (x : Word) : (w.orFlags x).p = w.p := rfl
@[simp] theorem orFlags_t (w : Wave) (x : Word) : (w.orFlags x).t = w.t := rfl
@[simp] theorem orFlags_deadV (w : Wave) (x : Word) : (w.orFlags x).deadV = w.deadV := rfl
@[simp] theorem orFlags_deadS (w : Wave) (x : Word) : (w.orFlags x).deadS = w.deadS := rfl
@[simp] theorem orFlags_pcs (w : Wave) (x : Word) : (w.orFlags x).pcs = w.pcs := rfl
@[simp] theorem orFlags_lanes (w : Wave) (x : Word) : (w.orFlags x).lanes = w.lanes := rfl
@[simp] theorem orFlags_priv (w : Wave) (x : Word) : (w.orFlags x).priv = w.priv := rfl
@[simp] theorem orFlags_held (w : Wave) (x : Word) : (w.orFlags x).held = w.held := rfl
@[simp] theorem orFlags_chain (w : Wave) (x : Word) : (w.orFlags x).chain = w.chain := rfl
@[simp] theorem orFlags_mode (w : Wave) (x : Word) : (w.orFlags x).mode = w.mode := rfl
@[simp] theorem orFlags_seed (w : Wave) (x : Word) : (w.orFlags x).seed = w.seed := rfl
@[simp] theorem orFlags_ptag (w : Wave) (x : Word) : (w.orFlags x).ptag = w.ptag := rfl
@[simp] theorem orFlags_iseq (w : Wave) (x : Word) : (w.orFlags x).iseq = w.iseq := rfl
@[simp] theorem orFlags_tcause (w : Wave) (x : Word) : (w.orFlags x).tcause = w.tcause := rfl
@[simp] theorem orFlags_tpc (w : Wave) (x : Word) : (w.orFlags x).tpc = w.tpc := rfl
@[simp] theorem orFlags_tresume (w : Wave) (x : Word) : (w.orFlags x).tresume = w.tresume := rfl
@[simp] theorem orFlags_taddr (w : Wave) (x : Word) : (w.orFlags x).taddr = w.taddr := rfl
@[simp] theorem orFlags_tlog (w : Wave) (x : Word) : (w.orFlags x).tlog = w.tlog := rfl
@[simp] theorem orFlags_scra (w : Wave) (x : Word) : (w.orFlags x).scra = w.scra := rfl
@[simp] theorem orFlags_scrb (w : Wave) (x : Word) : (w.orFlags x).scrb = w.scrb := rfl
@[simp] theorem orFlags_scrc (w : Wave) (x : Word) : (w.orFlags x).scrc = w.scrc := rfl
@[simp] theorem orFlags_scrd (w : Wave) (x : Word) : (w.orFlags x).scrd = w.scrd := rfl
@[simp] theorem orFlags_log (w : Wave) (x : Word) : (w.orFlags x).log = w.log := rfl
@[simp] theorem orFlags_groups (w : Wave) (x : Word) : (w.orFlags x).groups = w.groups := rfl
@[simp] theorem orFlags_pend (w : Wave) (x : Word) : (w.orFlags x).pend = w.pend := rfl
@[simp] theorem orFlags_dues (w : Wave) (x : Word) : (w.orFlags x).dues = w.dues := rfl
@[simp] theorem orFlags_frozen (w : Wave) (x : Word) : (w.orFlags x).frozen = w.frozen := rfl
@[simp] theorem orFlags_saved (w : Wave) (x : Word) : (w.orFlags x).saved = w.saved := rfl
@[simp] theorem orFlags_trapCtx (w : Wave) (x : Word) : (w.orFlags x).trapCtx = w.trapCtx := rfl
@[simp] theorem orFlags_inSave (w : Wave) (x : Word) : (w.orFlags x).inSave = w.inSave := rfl
@[simp] theorem orFlags_inRestore (w : Wave) (x : Word) : (w.orFlags x).inRestore = w.inRestore := rfl
@[simp] theorem orFlags_restored (w : Wave) (x : Word) : (w.orFlags x).restored = w.restored := rfl
@[simp] theorem orFlags_endReq (w : Wave) (x : Word) : (w.orFlags x).endReq = w.endReq := rfl
@[simp] theorem orFlags_ended (w : Wave) (x : Word) : (w.orFlags x).ended = w.ended := rfl
@[simp] theorem orFlags_ready (w : Wave) (x : Word) : (w.orFlags x).ready = w.ready := rfl
@[simp] theorem orFlags_queued (w : Wave) (x : Word) : (w.orFlags x).queued = w.queued := rfl
@[simp] theorem orFlags_wants (w : Wave) (x : Word) : (w.orFlags x).wants = w.wants := rfl

/-! ### Wave.markDead -/

@[simp] theorem markDead_gang (w : Wave) (r : RegRun) : (w.markDead r).gang = w.gang := by cases r <;> rfl
@[simp] theorem markDead_idx (w : Wave) (r : RegRun) : (w.markDead r).idx = w.idx := by cases r <;> rfl
@[simp] theorem markDead_role (w : Wave) (r : RegRun) : (w.markDead r).role = w.role := by cases r <;> rfl
@[simp] theorem markDead_vn (w : Wave) (r : RegRun) : (w.markDead r).vn = w.vn := by cases r <;> rfl
@[simp] theorem markDead_sn (w : Wave) (r : RegRun) : (w.markDead r).sn = w.sn := by cases r <;> rfl
@[simp] theorem markDead_tn (w : Wave) (r : RegRun) : (w.markDead r).tn = w.tn := by cases r <;> rfl
@[simp] theorem markDead_quad (w : Wave) (r : RegRun) : (w.markDead r).quad = w.quad := by cases r <;> rfl
@[simp] theorem markDead_slot (w : Wave) (r : RegRun) : (w.markDead r).slot = w.slot := by cases r <;> rfl
@[simp] theorem markDead_v (w : Wave) (r : RegRun) : (w.markDead r).v = w.v := by cases r <;> rfl
@[simp] theorem markDead_s (w : Wave) (r : RegRun) : (w.markDead r).s = w.s := by cases r <;> rfl
@[simp] theorem markDead_p (w : Wave) (r : RegRun) : (w.markDead r).p = w.p := by cases r <;> rfl
@[simp] theorem markDead_t (w : Wave) (r : RegRun) : (w.markDead r).t = w.t := by cases r <;> rfl
@[simp] theorem markDead_pcs (w : Wave) (r : RegRun) : (w.markDead r).pcs = w.pcs := by cases r <;> rfl
@[simp] theorem markDead_lanes (w : Wave) (r : RegRun) : (w.markDead r).lanes = w.lanes := by cases r <;> rfl
@[simp] theorem markDead_priv (w : Wave) (r : RegRun) : (w.markDead r).priv = w.priv := by cases r <;> rfl
@[simp] theorem markDead_held (w : Wave) (r : RegRun) : (w.markDead r).held = w.held := by cases r <;> rfl
@[simp] theorem markDead_chain (w : Wave) (r : RegRun) : (w.markDead r).chain = w.chain := by cases r <;> rfl
@[simp] theorem markDead_mode (w : Wave) (r : RegRun) : (w.markDead r).mode = w.mode := by cases r <;> rfl
@[simp] theorem markDead_flags (w : Wave) (r : RegRun) : (w.markDead r).flags = w.flags := by cases r <;> rfl
@[simp] theorem markDead_seed (w : Wave) (r : RegRun) : (w.markDead r).seed = w.seed := by cases r <;> rfl
@[simp] theorem markDead_ptag (w : Wave) (r : RegRun) : (w.markDead r).ptag = w.ptag := by cases r <;> rfl
@[simp] theorem markDead_iseq (w : Wave) (r : RegRun) : (w.markDead r).iseq = w.iseq := by cases r <;> rfl
@[simp] theorem markDead_tcause (w : Wave) (r : RegRun) : (w.markDead r).tcause = w.tcause := by cases r <;> rfl
@[simp] theorem markDead_tpc (w : Wave) (r : RegRun) : (w.markDead r).tpc = w.tpc := by cases r <;> rfl
@[simp] theorem markDead_tresume (w : Wave) (r : RegRun) : (w.markDead r).tresume = w.tresume := by cases r <;> rfl
@[simp] theorem markDead_taddr (w : Wave) (r : RegRun) : (w.markDead r).taddr = w.taddr := by cases r <;> rfl
@[simp] theorem markDead_tlog (w : Wave) (r : RegRun) : (w.markDead r).tlog = w.tlog := by cases r <;> rfl
@[simp] theorem markDead_scra (w : Wave) (r : RegRun) : (w.markDead r).scra = w.scra := by cases r <;> rfl
@[simp] theorem markDead_scrb (w : Wave) (r : RegRun) : (w.markDead r).scrb = w.scrb := by cases r <;> rfl
@[simp] theorem markDead_scrc (w : Wave) (r : RegRun) : (w.markDead r).scrc = w.scrc := by cases r <;> rfl
@[simp] theorem markDead_scrd (w : Wave) (r : RegRun) : (w.markDead r).scrd = w.scrd := by cases r <;> rfl
@[simp] theorem markDead_log (w : Wave) (r : RegRun) : (w.markDead r).log = w.log := by cases r <;> rfl
@[simp] theorem markDead_groups (w : Wave) (r : RegRun) : (w.markDead r).groups = w.groups := by cases r <;> rfl
@[simp] theorem markDead_pend (w : Wave) (r : RegRun) : (w.markDead r).pend = w.pend := by cases r <;> rfl
@[simp] theorem markDead_dues (w : Wave) (r : RegRun) : (w.markDead r).dues = w.dues := by cases r <;> rfl
@[simp] theorem markDead_frozen (w : Wave) (r : RegRun) : (w.markDead r).frozen = w.frozen := by cases r <;> rfl
@[simp] theorem markDead_saved (w : Wave) (r : RegRun) : (w.markDead r).saved = w.saved := by cases r <;> rfl
@[simp] theorem markDead_trapCtx (w : Wave) (r : RegRun) : (w.markDead r).trapCtx = w.trapCtx := by cases r <;> rfl
@[simp] theorem markDead_inSave (w : Wave) (r : RegRun) : (w.markDead r).inSave = w.inSave := by cases r <;> rfl
@[simp] theorem markDead_inRestore (w : Wave) (r : RegRun) : (w.markDead r).inRestore = w.inRestore := by cases r <;> rfl
@[simp] theorem markDead_restored (w : Wave) (r : RegRun) : (w.markDead r).restored = w.restored := by cases r <;> rfl
@[simp] theorem markDead_endReq (w : Wave) (r : RegRun) : (w.markDead r).endReq = w.endReq := by cases r <;> rfl
@[simp] theorem markDead_ended (w : Wave) (r : RegRun) : (w.markDead r).ended = w.ended := by cases r <;> rfl
@[simp] theorem markDead_ready (w : Wave) (r : RegRun) : (w.markDead r).ready = w.ready := by cases r <;> rfl
@[simp] theorem markDead_queued (w : Wave) (r : RegRun) : (w.markDead r).queued = w.queued := by cases r <;> rfl
@[simp] theorem markDead_wants (w : Wave) (r : RegRun) : (w.markDead r).wants = w.wants := by cases r <;> rfl

/-! ### The dead marks of a word -/

theorem foldl_markDead_gang (l : List RegRun) (w : Wave) : (l.foldl Wave.markDead w).gang = w.gang := by
  induction l generalizing w with
  | nil => rfl
  | cons r t ih => rw [List.foldl_cons, ih, markDead_gang]

@[simp] theorem hintMarks_gang (w : Wave) (i : OpInfo) (e : Word) (ws : List Word) : (w.hintMarks i e ws).gang = w.gang := by
  unfold Wave.hintMarks
  split
  · rfl
  · exact foldl_markDead_gang _ _

theorem foldl_markDead_idx (l : List RegRun) (w : Wave) : (l.foldl Wave.markDead w).idx = w.idx := by
  induction l generalizing w with
  | nil => rfl
  | cons r t ih => rw [List.foldl_cons, ih, markDead_idx]

@[simp] theorem hintMarks_idx (w : Wave) (i : OpInfo) (e : Word) (ws : List Word) : (w.hintMarks i e ws).idx = w.idx := by
  unfold Wave.hintMarks
  split
  · rfl
  · exact foldl_markDead_idx _ _

theorem foldl_markDead_role (l : List RegRun) (w : Wave) : (l.foldl Wave.markDead w).role = w.role := by
  induction l generalizing w with
  | nil => rfl
  | cons r t ih => rw [List.foldl_cons, ih, markDead_role]

@[simp] theorem hintMarks_role (w : Wave) (i : OpInfo) (e : Word) (ws : List Word) : (w.hintMarks i e ws).role = w.role := by
  unfold Wave.hintMarks
  split
  · rfl
  · exact foldl_markDead_role _ _

theorem foldl_markDead_vn (l : List RegRun) (w : Wave) : (l.foldl Wave.markDead w).vn = w.vn := by
  induction l generalizing w with
  | nil => rfl
  | cons r t ih => rw [List.foldl_cons, ih, markDead_vn]

@[simp] theorem hintMarks_vn (w : Wave) (i : OpInfo) (e : Word) (ws : List Word) : (w.hintMarks i e ws).vn = w.vn := by
  unfold Wave.hintMarks
  split
  · rfl
  · exact foldl_markDead_vn _ _

theorem foldl_markDead_sn (l : List RegRun) (w : Wave) : (l.foldl Wave.markDead w).sn = w.sn := by
  induction l generalizing w with
  | nil => rfl
  | cons r t ih => rw [List.foldl_cons, ih, markDead_sn]

@[simp] theorem hintMarks_sn (w : Wave) (i : OpInfo) (e : Word) (ws : List Word) : (w.hintMarks i e ws).sn = w.sn := by
  unfold Wave.hintMarks
  split
  · rfl
  · exact foldl_markDead_sn _ _

theorem foldl_markDead_tn (l : List RegRun) (w : Wave) : (l.foldl Wave.markDead w).tn = w.tn := by
  induction l generalizing w with
  | nil => rfl
  | cons r t ih => rw [List.foldl_cons, ih, markDead_tn]

@[simp] theorem hintMarks_tn (w : Wave) (i : OpInfo) (e : Word) (ws : List Word) : (w.hintMarks i e ws).tn = w.tn := by
  unfold Wave.hintMarks
  split
  · rfl
  · exact foldl_markDead_tn _ _

theorem foldl_markDead_quad (l : List RegRun) (w : Wave) : (l.foldl Wave.markDead w).quad = w.quad := by
  induction l generalizing w with
  | nil => rfl
  | cons r t ih => rw [List.foldl_cons, ih, markDead_quad]

@[simp] theorem hintMarks_quad (w : Wave) (i : OpInfo) (e : Word) (ws : List Word) : (w.hintMarks i e ws).quad = w.quad := by
  unfold Wave.hintMarks
  split
  · rfl
  · exact foldl_markDead_quad _ _

theorem foldl_markDead_slot (l : List RegRun) (w : Wave) : (l.foldl Wave.markDead w).slot = w.slot := by
  induction l generalizing w with
  | nil => rfl
  | cons r t ih => rw [List.foldl_cons, ih, markDead_slot]

@[simp] theorem hintMarks_slot (w : Wave) (i : OpInfo) (e : Word) (ws : List Word) : (w.hintMarks i e ws).slot = w.slot := by
  unfold Wave.hintMarks
  split
  · rfl
  · exact foldl_markDead_slot _ _

theorem foldl_markDead_v (l : List RegRun) (w : Wave) : (l.foldl Wave.markDead w).v = w.v := by
  induction l generalizing w with
  | nil => rfl
  | cons r t ih => rw [List.foldl_cons, ih, markDead_v]

@[simp] theorem hintMarks_v (w : Wave) (i : OpInfo) (e : Word) (ws : List Word) : (w.hintMarks i e ws).v = w.v := by
  unfold Wave.hintMarks
  split
  · rfl
  · exact foldl_markDead_v _ _

theorem foldl_markDead_s (l : List RegRun) (w : Wave) : (l.foldl Wave.markDead w).s = w.s := by
  induction l generalizing w with
  | nil => rfl
  | cons r t ih => rw [List.foldl_cons, ih, markDead_s]

@[simp] theorem hintMarks_s (w : Wave) (i : OpInfo) (e : Word) (ws : List Word) : (w.hintMarks i e ws).s = w.s := by
  unfold Wave.hintMarks
  split
  · rfl
  · exact foldl_markDead_s _ _

theorem foldl_markDead_p (l : List RegRun) (w : Wave) : (l.foldl Wave.markDead w).p = w.p := by
  induction l generalizing w with
  | nil => rfl
  | cons r t ih => rw [List.foldl_cons, ih, markDead_p]

@[simp] theorem hintMarks_p (w : Wave) (i : OpInfo) (e : Word) (ws : List Word) : (w.hintMarks i e ws).p = w.p := by
  unfold Wave.hintMarks
  split
  · rfl
  · exact foldl_markDead_p _ _

theorem foldl_markDead_t (l : List RegRun) (w : Wave) : (l.foldl Wave.markDead w).t = w.t := by
  induction l generalizing w with
  | nil => rfl
  | cons r t ih => rw [List.foldl_cons, ih, markDead_t]

@[simp] theorem hintMarks_t (w : Wave) (i : OpInfo) (e : Word) (ws : List Word) : (w.hintMarks i e ws).t = w.t := by
  unfold Wave.hintMarks
  split
  · rfl
  · exact foldl_markDead_t _ _

theorem foldl_markDead_pcs (l : List RegRun) (w : Wave) : (l.foldl Wave.markDead w).pcs = w.pcs := by
  induction l generalizing w with
  | nil => rfl
  | cons r t ih => rw [List.foldl_cons, ih, markDead_pcs]

@[simp] theorem hintMarks_pcs (w : Wave) (i : OpInfo) (e : Word) (ws : List Word) : (w.hintMarks i e ws).pcs = w.pcs := by
  unfold Wave.hintMarks
  split
  · rfl
  · exact foldl_markDead_pcs _ _

theorem foldl_markDead_lanes (l : List RegRun) (w : Wave) : (l.foldl Wave.markDead w).lanes = w.lanes := by
  induction l generalizing w with
  | nil => rfl
  | cons r t ih => rw [List.foldl_cons, ih, markDead_lanes]

@[simp] theorem hintMarks_lanes (w : Wave) (i : OpInfo) (e : Word) (ws : List Word) : (w.hintMarks i e ws).lanes = w.lanes := by
  unfold Wave.hintMarks
  split
  · rfl
  · exact foldl_markDead_lanes _ _

theorem foldl_markDead_priv (l : List RegRun) (w : Wave) : (l.foldl Wave.markDead w).priv = w.priv := by
  induction l generalizing w with
  | nil => rfl
  | cons r t ih => rw [List.foldl_cons, ih, markDead_priv]

@[simp] theorem hintMarks_priv (w : Wave) (i : OpInfo) (e : Word) (ws : List Word) : (w.hintMarks i e ws).priv = w.priv := by
  unfold Wave.hintMarks
  split
  · rfl
  · exact foldl_markDead_priv _ _

theorem foldl_markDead_held (l : List RegRun) (w : Wave) : (l.foldl Wave.markDead w).held = w.held := by
  induction l generalizing w with
  | nil => rfl
  | cons r t ih => rw [List.foldl_cons, ih, markDead_held]

@[simp] theorem hintMarks_held (w : Wave) (i : OpInfo) (e : Word) (ws : List Word) : (w.hintMarks i e ws).held = w.held := by
  unfold Wave.hintMarks
  split
  · rfl
  · exact foldl_markDead_held _ _

theorem foldl_markDead_chain (l : List RegRun) (w : Wave) : (l.foldl Wave.markDead w).chain = w.chain := by
  induction l generalizing w with
  | nil => rfl
  | cons r t ih => rw [List.foldl_cons, ih, markDead_chain]

@[simp] theorem hintMarks_chain (w : Wave) (i : OpInfo) (e : Word) (ws : List Word) : (w.hintMarks i e ws).chain = w.chain := by
  unfold Wave.hintMarks
  split
  · rfl
  · exact foldl_markDead_chain _ _

theorem foldl_markDead_mode (l : List RegRun) (w : Wave) : (l.foldl Wave.markDead w).mode = w.mode := by
  induction l generalizing w with
  | nil => rfl
  | cons r t ih => rw [List.foldl_cons, ih, markDead_mode]

@[simp] theorem hintMarks_mode (w : Wave) (i : OpInfo) (e : Word) (ws : List Word) : (w.hintMarks i e ws).mode = w.mode := by
  unfold Wave.hintMarks
  split
  · rfl
  · exact foldl_markDead_mode _ _

theorem foldl_markDead_flags (l : List RegRun) (w : Wave) : (l.foldl Wave.markDead w).flags = w.flags := by
  induction l generalizing w with
  | nil => rfl
  | cons r t ih => rw [List.foldl_cons, ih, markDead_flags]

@[simp] theorem hintMarks_flags (w : Wave) (i : OpInfo) (e : Word) (ws : List Word) : (w.hintMarks i e ws).flags = w.flags := by
  unfold Wave.hintMarks
  split
  · rfl
  · exact foldl_markDead_flags _ _

theorem foldl_markDead_seed (l : List RegRun) (w : Wave) : (l.foldl Wave.markDead w).seed = w.seed := by
  induction l generalizing w with
  | nil => rfl
  | cons r t ih => rw [List.foldl_cons, ih, markDead_seed]

@[simp] theorem hintMarks_seed (w : Wave) (i : OpInfo) (e : Word) (ws : List Word) : (w.hintMarks i e ws).seed = w.seed := by
  unfold Wave.hintMarks
  split
  · rfl
  · exact foldl_markDead_seed _ _

theorem foldl_markDead_ptag (l : List RegRun) (w : Wave) : (l.foldl Wave.markDead w).ptag = w.ptag := by
  induction l generalizing w with
  | nil => rfl
  | cons r t ih => rw [List.foldl_cons, ih, markDead_ptag]

@[simp] theorem hintMarks_ptag (w : Wave) (i : OpInfo) (e : Word) (ws : List Word) : (w.hintMarks i e ws).ptag = w.ptag := by
  unfold Wave.hintMarks
  split
  · rfl
  · exact foldl_markDead_ptag _ _

theorem foldl_markDead_iseq (l : List RegRun) (w : Wave) : (l.foldl Wave.markDead w).iseq = w.iseq := by
  induction l generalizing w with
  | nil => rfl
  | cons r t ih => rw [List.foldl_cons, ih, markDead_iseq]

@[simp] theorem hintMarks_iseq (w : Wave) (i : OpInfo) (e : Word) (ws : List Word) : (w.hintMarks i e ws).iseq = w.iseq := by
  unfold Wave.hintMarks
  split
  · rfl
  · exact foldl_markDead_iseq _ _

theorem foldl_markDead_tcause (l : List RegRun) (w : Wave) : (l.foldl Wave.markDead w).tcause = w.tcause := by
  induction l generalizing w with
  | nil => rfl
  | cons r t ih => rw [List.foldl_cons, ih, markDead_tcause]

@[simp] theorem hintMarks_tcause (w : Wave) (i : OpInfo) (e : Word) (ws : List Word) : (w.hintMarks i e ws).tcause = w.tcause := by
  unfold Wave.hintMarks
  split
  · rfl
  · exact foldl_markDead_tcause _ _

theorem foldl_markDead_tpc (l : List RegRun) (w : Wave) : (l.foldl Wave.markDead w).tpc = w.tpc := by
  induction l generalizing w with
  | nil => rfl
  | cons r t ih => rw [List.foldl_cons, ih, markDead_tpc]

@[simp] theorem hintMarks_tpc (w : Wave) (i : OpInfo) (e : Word) (ws : List Word) : (w.hintMarks i e ws).tpc = w.tpc := by
  unfold Wave.hintMarks
  split
  · rfl
  · exact foldl_markDead_tpc _ _

theorem foldl_markDead_tresume (l : List RegRun) (w : Wave) : (l.foldl Wave.markDead w).tresume = w.tresume := by
  induction l generalizing w with
  | nil => rfl
  | cons r t ih => rw [List.foldl_cons, ih, markDead_tresume]

@[simp] theorem hintMarks_tresume (w : Wave) (i : OpInfo) (e : Word) (ws : List Word) : (w.hintMarks i e ws).tresume = w.tresume := by
  unfold Wave.hintMarks
  split
  · rfl
  · exact foldl_markDead_tresume _ _

theorem foldl_markDead_taddr (l : List RegRun) (w : Wave) : (l.foldl Wave.markDead w).taddr = w.taddr := by
  induction l generalizing w with
  | nil => rfl
  | cons r t ih => rw [List.foldl_cons, ih, markDead_taddr]

@[simp] theorem hintMarks_taddr (w : Wave) (i : OpInfo) (e : Word) (ws : List Word) : (w.hintMarks i e ws).taddr = w.taddr := by
  unfold Wave.hintMarks
  split
  · rfl
  · exact foldl_markDead_taddr _ _

theorem foldl_markDead_tlog (l : List RegRun) (w : Wave) : (l.foldl Wave.markDead w).tlog = w.tlog := by
  induction l generalizing w with
  | nil => rfl
  | cons r t ih => rw [List.foldl_cons, ih, markDead_tlog]

@[simp] theorem hintMarks_tlog (w : Wave) (i : OpInfo) (e : Word) (ws : List Word) : (w.hintMarks i e ws).tlog = w.tlog := by
  unfold Wave.hintMarks
  split
  · rfl
  · exact foldl_markDead_tlog _ _

theorem foldl_markDead_scra (l : List RegRun) (w : Wave) : (l.foldl Wave.markDead w).scra = w.scra := by
  induction l generalizing w with
  | nil => rfl
  | cons r t ih => rw [List.foldl_cons, ih, markDead_scra]

@[simp] theorem hintMarks_scra (w : Wave) (i : OpInfo) (e : Word) (ws : List Word) : (w.hintMarks i e ws).scra = w.scra := by
  unfold Wave.hintMarks
  split
  · rfl
  · exact foldl_markDead_scra _ _

theorem foldl_markDead_scrb (l : List RegRun) (w : Wave) : (l.foldl Wave.markDead w).scrb = w.scrb := by
  induction l generalizing w with
  | nil => rfl
  | cons r t ih => rw [List.foldl_cons, ih, markDead_scrb]

@[simp] theorem hintMarks_scrb (w : Wave) (i : OpInfo) (e : Word) (ws : List Word) : (w.hintMarks i e ws).scrb = w.scrb := by
  unfold Wave.hintMarks
  split
  · rfl
  · exact foldl_markDead_scrb _ _

theorem foldl_markDead_scrc (l : List RegRun) (w : Wave) : (l.foldl Wave.markDead w).scrc = w.scrc := by
  induction l generalizing w with
  | nil => rfl
  | cons r t ih => rw [List.foldl_cons, ih, markDead_scrc]

@[simp] theorem hintMarks_scrc (w : Wave) (i : OpInfo) (e : Word) (ws : List Word) : (w.hintMarks i e ws).scrc = w.scrc := by
  unfold Wave.hintMarks
  split
  · rfl
  · exact foldl_markDead_scrc _ _

theorem foldl_markDead_scrd (l : List RegRun) (w : Wave) : (l.foldl Wave.markDead w).scrd = w.scrd := by
  induction l generalizing w with
  | nil => rfl
  | cons r t ih => rw [List.foldl_cons, ih, markDead_scrd]

@[simp] theorem hintMarks_scrd (w : Wave) (i : OpInfo) (e : Word) (ws : List Word) : (w.hintMarks i e ws).scrd = w.scrd := by
  unfold Wave.hintMarks
  split
  · rfl
  · exact foldl_markDead_scrd _ _

theorem foldl_markDead_log (l : List RegRun) (w : Wave) : (l.foldl Wave.markDead w).log = w.log := by
  induction l generalizing w with
  | nil => rfl
  | cons r t ih => rw [List.foldl_cons, ih, markDead_log]

@[simp] theorem hintMarks_log (w : Wave) (i : OpInfo) (e : Word) (ws : List Word) : (w.hintMarks i e ws).log = w.log := by
  unfold Wave.hintMarks
  split
  · rfl
  · exact foldl_markDead_log _ _

theorem foldl_markDead_groups (l : List RegRun) (w : Wave) : (l.foldl Wave.markDead w).groups = w.groups := by
  induction l generalizing w with
  | nil => rfl
  | cons r t ih => rw [List.foldl_cons, ih, markDead_groups]

@[simp] theorem hintMarks_groups (w : Wave) (i : OpInfo) (e : Word) (ws : List Word) : (w.hintMarks i e ws).groups = w.groups := by
  unfold Wave.hintMarks
  split
  · rfl
  · exact foldl_markDead_groups _ _

theorem foldl_markDead_pend (l : List RegRun) (w : Wave) : (l.foldl Wave.markDead w).pend = w.pend := by
  induction l generalizing w with
  | nil => rfl
  | cons r t ih => rw [List.foldl_cons, ih, markDead_pend]

@[simp] theorem hintMarks_pend (w : Wave) (i : OpInfo) (e : Word) (ws : List Word) : (w.hintMarks i e ws).pend = w.pend := by
  unfold Wave.hintMarks
  split
  · rfl
  · exact foldl_markDead_pend _ _

theorem foldl_markDead_dues (l : List RegRun) (w : Wave) : (l.foldl Wave.markDead w).dues = w.dues := by
  induction l generalizing w with
  | nil => rfl
  | cons r t ih => rw [List.foldl_cons, ih, markDead_dues]

@[simp] theorem hintMarks_dues (w : Wave) (i : OpInfo) (e : Word) (ws : List Word) : (w.hintMarks i e ws).dues = w.dues := by
  unfold Wave.hintMarks
  split
  · rfl
  · exact foldl_markDead_dues _ _

theorem foldl_markDead_frozen (l : List RegRun) (w : Wave) : (l.foldl Wave.markDead w).frozen = w.frozen := by
  induction l generalizing w with
  | nil => rfl
  | cons r t ih => rw [List.foldl_cons, ih, markDead_frozen]

@[simp] theorem hintMarks_frozen (w : Wave) (i : OpInfo) (e : Word) (ws : List Word) : (w.hintMarks i e ws).frozen = w.frozen := by
  unfold Wave.hintMarks
  split
  · rfl
  · exact foldl_markDead_frozen _ _

theorem foldl_markDead_saved (l : List RegRun) (w : Wave) : (l.foldl Wave.markDead w).saved = w.saved := by
  induction l generalizing w with
  | nil => rfl
  | cons r t ih => rw [List.foldl_cons, ih, markDead_saved]

@[simp] theorem hintMarks_saved (w : Wave) (i : OpInfo) (e : Word) (ws : List Word) : (w.hintMarks i e ws).saved = w.saved := by
  unfold Wave.hintMarks
  split
  · rfl
  · exact foldl_markDead_saved _ _

theorem foldl_markDead_trapCtx (l : List RegRun) (w : Wave) : (l.foldl Wave.markDead w).trapCtx = w.trapCtx := by
  induction l generalizing w with
  | nil => rfl
  | cons r t ih => rw [List.foldl_cons, ih, markDead_trapCtx]

@[simp] theorem hintMarks_trapCtx (w : Wave) (i : OpInfo) (e : Word) (ws : List Word) : (w.hintMarks i e ws).trapCtx = w.trapCtx := by
  unfold Wave.hintMarks
  split
  · rfl
  · exact foldl_markDead_trapCtx _ _

theorem foldl_markDead_inSave (l : List RegRun) (w : Wave) : (l.foldl Wave.markDead w).inSave = w.inSave := by
  induction l generalizing w with
  | nil => rfl
  | cons r t ih => rw [List.foldl_cons, ih, markDead_inSave]

@[simp] theorem hintMarks_inSave (w : Wave) (i : OpInfo) (e : Word) (ws : List Word) : (w.hintMarks i e ws).inSave = w.inSave := by
  unfold Wave.hintMarks
  split
  · rfl
  · exact foldl_markDead_inSave _ _

theorem foldl_markDead_inRestore (l : List RegRun) (w : Wave) : (l.foldl Wave.markDead w).inRestore = w.inRestore := by
  induction l generalizing w with
  | nil => rfl
  | cons r t ih => rw [List.foldl_cons, ih, markDead_inRestore]

@[simp] theorem hintMarks_inRestore (w : Wave) (i : OpInfo) (e : Word) (ws : List Word) : (w.hintMarks i e ws).inRestore = w.inRestore := by
  unfold Wave.hintMarks
  split
  · rfl
  · exact foldl_markDead_inRestore _ _

theorem foldl_markDead_restored (l : List RegRun) (w : Wave) : (l.foldl Wave.markDead w).restored = w.restored := by
  induction l generalizing w with
  | nil => rfl
  | cons r t ih => rw [List.foldl_cons, ih, markDead_restored]

@[simp] theorem hintMarks_restored (w : Wave) (i : OpInfo) (e : Word) (ws : List Word) : (w.hintMarks i e ws).restored = w.restored := by
  unfold Wave.hintMarks
  split
  · rfl
  · exact foldl_markDead_restored _ _

theorem foldl_markDead_endReq (l : List RegRun) (w : Wave) : (l.foldl Wave.markDead w).endReq = w.endReq := by
  induction l generalizing w with
  | nil => rfl
  | cons r t ih => rw [List.foldl_cons, ih, markDead_endReq]

@[simp] theorem hintMarks_endReq (w : Wave) (i : OpInfo) (e : Word) (ws : List Word) : (w.hintMarks i e ws).endReq = w.endReq := by
  unfold Wave.hintMarks
  split
  · rfl
  · exact foldl_markDead_endReq _ _

theorem foldl_markDead_ended (l : List RegRun) (w : Wave) : (l.foldl Wave.markDead w).ended = w.ended := by
  induction l generalizing w with
  | nil => rfl
  | cons r t ih => rw [List.foldl_cons, ih, markDead_ended]

@[simp] theorem hintMarks_ended (w : Wave) (i : OpInfo) (e : Word) (ws : List Word) : (w.hintMarks i e ws).ended = w.ended := by
  unfold Wave.hintMarks
  split
  · rfl
  · exact foldl_markDead_ended _ _

theorem foldl_markDead_ready (l : List RegRun) (w : Wave) : (l.foldl Wave.markDead w).ready = w.ready := by
  induction l generalizing w with
  | nil => rfl
  | cons r t ih => rw [List.foldl_cons, ih, markDead_ready]

@[simp] theorem hintMarks_ready (w : Wave) (i : OpInfo) (e : Word) (ws : List Word) : (w.hintMarks i e ws).ready = w.ready := by
  unfold Wave.hintMarks
  split
  · rfl
  · exact foldl_markDead_ready _ _

theorem foldl_markDead_queued (l : List RegRun) (w : Wave) : (l.foldl Wave.markDead w).queued = w.queued := by
  induction l generalizing w with
  | nil => rfl
  | cons r t ih => rw [List.foldl_cons, ih, markDead_queued]

@[simp] theorem hintMarks_queued (w : Wave) (i : OpInfo) (e : Word) (ws : List Word) : (w.hintMarks i e ws).queued = w.queued := by
  unfold Wave.hintMarks
  split
  · rfl
  · exact foldl_markDead_queued _ _

theorem foldl_markDead_wants (l : List RegRun) (w : Wave) : (l.foldl Wave.markDead w).wants = w.wants := by
  induction l generalizing w with
  | nil => rfl
  | cons r t ih => rw [List.foldl_cons, ih, markDead_wants]

@[simp] theorem hintMarks_wants (w : Wave) (i : OpInfo) (e : Word) (ws : List Word) : (w.hintMarks i e ws).wants = w.wants := by
  unfold Wave.hintMarks
  split
  · rfl
  · exact foldl_markDead_wants _ _

/-! ### Lanes that move on -/

@[simp] theorem advance_gang (w : Wave) (iss : Word) (pcs : Nat → DWord) : (w.advance iss pcs).gang = w.gang := rfl
@[simp] theorem advance_idx (w : Wave) (iss : Word) (pcs : Nat → DWord) : (w.advance iss pcs).idx = w.idx := rfl
@[simp] theorem advance_role (w : Wave) (iss : Word) (pcs : Nat → DWord) : (w.advance iss pcs).role = w.role := rfl
@[simp] theorem advance_vn (w : Wave) (iss : Word) (pcs : Nat → DWord) : (w.advance iss pcs).vn = w.vn := rfl
@[simp] theorem advance_sn (w : Wave) (iss : Word) (pcs : Nat → DWord) : (w.advance iss pcs).sn = w.sn := rfl
@[simp] theorem advance_tn (w : Wave) (iss : Word) (pcs : Nat → DWord) : (w.advance iss pcs).tn = w.tn := rfl
@[simp] theorem advance_quad (w : Wave) (iss : Word) (pcs : Nat → DWord) : (w.advance iss pcs).quad = w.quad := rfl
@[simp] theorem advance_slot (w : Wave) (iss : Word) (pcs : Nat → DWord) : (w.advance iss pcs).slot = w.slot := rfl
@[simp] theorem advance_v (w : Wave) (iss : Word) (pcs : Nat → DWord) : (w.advance iss pcs).v = w.v := rfl
@[simp] theorem advance_s (w : Wave) (iss : Word) (pcs : Nat → DWord) : (w.advance iss pcs).s = w.s := rfl
@[simp] theorem advance_p (w : Wave) (iss : Word) (pcs : Nat → DWord) : (w.advance iss pcs).p = w.p := rfl
@[simp] theorem advance_t (w : Wave) (iss : Word) (pcs : Nat → DWord) : (w.advance iss pcs).t = w.t := rfl
@[simp] theorem advance_deadV (w : Wave) (iss : Word) (pcs : Nat → DWord) : (w.advance iss pcs).deadV = w.deadV := rfl
@[simp] theorem advance_deadS (w : Wave) (iss : Word) (pcs : Nat → DWord) : (w.advance iss pcs).deadS = w.deadS := rfl
@[simp] theorem advance_lanes (w : Wave) (iss : Word) (pcs : Nat → DWord) : (w.advance iss pcs).lanes = w.lanes := rfl
@[simp] theorem advance_priv (w : Wave) (iss : Word) (pcs : Nat → DWord) : (w.advance iss pcs).priv = w.priv := rfl
@[simp] theorem advance_held (w : Wave) (iss : Word) (pcs : Nat → DWord) : (w.advance iss pcs).held = w.held := rfl
@[simp] theorem advance_mode (w : Wave) (iss : Word) (pcs : Nat → DWord) : (w.advance iss pcs).mode = w.mode := rfl
@[simp] theorem advance_flags (w : Wave) (iss : Word) (pcs : Nat → DWord) : (w.advance iss pcs).flags = w.flags := rfl
@[simp] theorem advance_seed (w : Wave) (iss : Word) (pcs : Nat → DWord) : (w.advance iss pcs).seed = w.seed := rfl
@[simp] theorem advance_ptag (w : Wave) (iss : Word) (pcs : Nat → DWord) : (w.advance iss pcs).ptag = w.ptag := rfl
@[simp] theorem advance_iseq (w : Wave) (iss : Word) (pcs : Nat → DWord) : (w.advance iss pcs).iseq = w.iseq := rfl
@[simp] theorem advance_tcause (w : Wave) (iss : Word) (pcs : Nat → DWord) : (w.advance iss pcs).tcause = w.tcause := rfl
@[simp] theorem advance_tpc (w : Wave) (iss : Word) (pcs : Nat → DWord) : (w.advance iss pcs).tpc = w.tpc := rfl
@[simp] theorem advance_tresume (w : Wave) (iss : Word) (pcs : Nat → DWord) : (w.advance iss pcs).tresume = w.tresume := rfl
@[simp] theorem advance_taddr (w : Wave) (iss : Word) (pcs : Nat → DWord) : (w.advance iss pcs).taddr = w.taddr := rfl
@[simp] theorem advance_tlog (w : Wave) (iss : Word) (pcs : Nat → DWord) : (w.advance iss pcs).tlog = w.tlog := rfl
@[simp] theorem advance_scra (w : Wave) (iss : Word) (pcs : Nat → DWord) : (w.advance iss pcs).scra = w.scra := rfl
@[simp] theorem advance_scrb (w : Wave) (iss : Word) (pcs : Nat → DWord) : (w.advance iss pcs).scrb = w.scrb := rfl
@[simp] theorem advance_scrc (w : Wave) (iss : Word) (pcs : Nat → DWord) : (w.advance iss pcs).scrc = w.scrc := rfl
@[simp] theorem advance_scrd (w : Wave) (iss : Word) (pcs : Nat → DWord) : (w.advance iss pcs).scrd = w.scrd := rfl
@[simp] theorem advance_log (w : Wave) (iss : Word) (pcs : Nat → DWord) : (w.advance iss pcs).log = w.log := rfl
@[simp] theorem advance_groups (w : Wave) (iss : Word) (pcs : Nat → DWord) : (w.advance iss pcs).groups = w.groups := rfl
@[simp] theorem advance_pend (w : Wave) (iss : Word) (pcs : Nat → DWord) : (w.advance iss pcs).pend = w.pend := rfl
@[simp] theorem advance_dues (w : Wave) (iss : Word) (pcs : Nat → DWord) : (w.advance iss pcs).dues = w.dues := rfl
@[simp] theorem advance_frozen (w : Wave) (iss : Word) (pcs : Nat → DWord) : (w.advance iss pcs).frozen = w.frozen := rfl
@[simp] theorem advance_saved (w : Wave) (iss : Word) (pcs : Nat → DWord) : (w.advance iss pcs).saved = w.saved := rfl
@[simp] theorem advance_trapCtx (w : Wave) (iss : Word) (pcs : Nat → DWord) : (w.advance iss pcs).trapCtx = w.trapCtx := rfl
@[simp] theorem advance_inSave (w : Wave) (iss : Word) (pcs : Nat → DWord) : (w.advance iss pcs).inSave = w.inSave := rfl
@[simp] theorem advance_inRestore (w : Wave) (iss : Word) (pcs : Nat → DWord) : (w.advance iss pcs).inRestore = w.inRestore := rfl
@[simp] theorem advance_restored (w : Wave) (iss : Word) (pcs : Nat → DWord) : (w.advance iss pcs).restored = w.restored := rfl
@[simp] theorem advance_endReq (w : Wave) (iss : Word) (pcs : Nat → DWord) : (w.advance iss pcs).endReq = w.endReq := rfl
@[simp] theorem advance_ended (w : Wave) (iss : Word) (pcs : Nat → DWord) : (w.advance iss pcs).ended = w.ended := rfl
@[simp] theorem advance_ready (w : Wave) (iss : Word) (pcs : Nat → DWord) : (w.advance iss pcs).ready = w.ready := rfl
@[simp] theorem advance_queued (w : Wave) (iss : Word) (pcs : Nat → DWord) : (w.advance iss pcs).queued = w.queued := rfl
@[simp] theorem advance_wants (w : Wave) (iss : Word) (pcs : Nat → DWord) : (w.advance iss pcs).wants = w.wants := rfl

end Sys2Proof.Machine
end

