-- ==== Sys2Proof/Laws/Issue.lean ====
section
/-! SUPPORT. What the issue of a word does, said once (spec/03 R37, R38; spec/07 Table 7.5). -/

namespace Sys2Proof.Machine

open Sys2Proof

/-! ### Maps -/

theorem fget_fset_same {α : Type} (m : FMap α) (k : Nat) (x : α) : fget (fset m k x) k = some x := by
  induction m with
  | nil => simp [fset, fget]
  | cons p t ih =>
    obtain ⟨k', y⟩ := p
    simp only [fset]
    split
    · simp [fget]
    · split
      · simp [fget]
      · simp only [fget]; rw [if_neg ‹_›]; exact ih

theorem fget_fset_other {α : Type} (m : FMap α) (k n : Nat) (x : α) (h : n ≠ k) :
    fget (fset m k x) n = fget m n := by
  induction m with
  | nil => simp [fset, fget, h]
  | cons p t ih =>
    obtain ⟨k', y⟩ := p
    simp only [fset]
    split
    · simp [fget, h]
    · split
      · subst_vars; simp [fget, h]
      · simp only [fget, ih]

theorem fset_fset {α : Type} (m : FMap α) (k : Nat) (x y : α) : fset (fset m k x) k y = fset m k y := by
  induction m with
  | nil => simp [fset]
  | cons p t ih =>
    obtain ⟨k', z⟩ := p
    simp only [fset]
    split
    · simp [fset]
    · split
      · simp [fset]
      · simp only [fset]; rw [if_neg ‹_›, if_neg ‹_›, ih]

theorem fmod_of_get {α : Type} {m : FMap α} {k : Nat} {x : α} (f : α → α) (h : fget m k = some x) :
    fmod m k f = fset m k (f x) := by
  simp [fmod, h]

/-! ### The wave that issues -/

theorem modWave_of_get {s : State} {wid : Nat} {w : Wave} (f : Wave → Wave) (h : getWave s wid = some w) :
    modWave s wid f = setWave s wid (f w) := by
  unfold modWave setWave
  rw [fmod_of_get f h]

@[simp] theorem getWave_setWave (s : State) (wid : Nat) (w : Wave) : getWave (setWave s wid w) wid = some w :=
  fget_fset_same _ _ _

theorem getWave_setWave_other (s : State) (wid n : Nat) (w : Wave) (h : n ≠ wid) :
    getWave (setWave s wid w) n = getWave s n :=
  fget_fset_other _ _ _ _ h

@[simp] theorem setWave_setWave (s : State) (wid : Nat) (w u : Wave) : setWave (setWave s wid w) wid u = setWave s wid u := by
  simp [setWave, fset_fset]

@[simp] theorem Wave.orFlags_zero (w : Wave) : w.orFlags 0 = w := by simp [Wave.orFlags]

@[simp] theorem closing_lanes (i : OpInfo) (v : Env) (m : Bool) (pcs : Nat → DWord) (u : Wave) :
    (closing i v m pcs u).lanes = u.lanes := by cases m <;> simp [closing]

@[simp] theorem closing_gang (i : OpInfo) (v : Env) (m : Bool) (pcs : Nat → DWord) (u : Wave) :
    (closing i v m pcs u).gang = u.gang := by cases m <;> simp [closing]

@[simp] theorem closing_endReq (i : OpInfo) (v : Env) (m : Bool) (pcs : Nat → DWord) (u : Wave) :
    (closing i v m pcs u).endReq = u.endReq := by cases m <;> simp [closing]

@[simp] theorem closing_priv (i : OpInfo) (v : Env) (m : Bool) (pcs : Nat → DWord) (u : Wave) :
    (closing i v m pcs u).priv = u.priv := by cases m <;> simp [closing]

/-! ### Issue -/

/-- How the end of an instruction's own part becomes the state after its issue. -/
def ended' (s : State) (wid : Nat) (w : Wave) (pc : DWord) (i : OpInfo) (v : Env) : Res → State
  | .done t => completedIn t i v
  | .jump t pcs => jumped t i v fun l => pcs.getD l 0
  | .logged t => settleIssue t wid (closing i v false fun _ => v.next)
  | .trap t c inf a =>
    if (w.priv == .u && !w.log.isEmpty) && decide (18 ≤ i.cls ∧ i.cls ≤ 23) then s
    else takeTrap t wid ⟨c, inf, pc, pc, a, false⟩
  | .hold => s
  | .await vas => { s with wants := vas }
  | .raw t => t

/-- The issue of a word that passes its checks is its own part, ended. -/
theorem issue_of_passes {s : State} {wid : Nat} {w : Wave} {pc : DWord} {iss : Word} {ws : List Word}
    {info : Wave → List Word → OpInfo} {body : Env → State → Res}
    (h : Stands s wid w pc iss ws) (p : Passes w (info w ws) ws) :
    issue s info body = ended' s wid w pc (info w ws) (sees wid w pc iss ws (info w ws))
      (body (sees wid w pc iss ws (info w ws)) s) := by
  obtain ⟨h1, h2, h3, h4, -, -⟩ := h
  obtain ⟨p1, p2, p3⟩ := p
  have e : issue s info body = (match body (sees wid w pc iss ws (info w ws)) s with
      | .done t => completedIn t (info w ws) (sees wid w pc iss ws (info w ws))
      | .jump t pcs => jumped t (info w ws) (sees wid w pc iss ws (info w ws)) fun l => pcs.getD l 0
      | .logged t => settleIssue t wid (closing (info w ws) (sees wid w pc iss ws (info w ws)) false
          fun _ => (sees wid w pc iss ws (info w ws)).next)
      | .trap t c inf a =>
        if (w.priv == .u && !w.log.isEmpty) && decide (18 ≤ (info w ws).cls ∧ (info w ws).cls ≤ 23) then s
        else takeTrap t wid ⟨c, inf, pc, pc, a, false⟩
      | .hold => s
      | .await vas => { s with wants := vas }
      | .raw t => t) := by
    unfold issue
    rw [h1]
    dsimp only
    rw [h2]
    dsimp only
    rw [h3]
    dsimp only
    rw [h4, p1]
    simp only [Bool.not_true, Bool.false_eq_true, if_false]
    rw [if_neg (by simpa using p2)]
    unfold samples at p3
    rw [p3]
    rfl
  rw [e]
  unfold ended'
  rfl

theorem retired_setWave (s : State) (wid : Nat) (u w : Wave) (hg : u.gang = w.gang) (hp : u.priv = w.priv) :
    retired (setWave s wid u) wid = modRegion (setWave s wid { u with ready := s.time + 5 }) (waveRegion s w) fun g =>
      { g with progress := 0, deadRaised := g.deadRaised && w.priv == .s } := by
  rw [show waveRegion s w = waveRegion s u by simp only [waveRegion, hg], ← hp]
  unfold retired
  rw [getWave_setWave]
  dsimp only
  rw [setWave_setWave]
  rfl

/-- The end of an issue whose effect reached a state that differs in the wave alone. -/
theorem settle_setWave {s : State} {wid : Nat} {w : Wave} {pc : DWord} {iss : Word} {ws : List Word}
    (h : Stands s wid w pc iss ws) (i k : OpInfo) (pcs : Nat → DWord) (f : Wave → Wave)
    (hl : (f w).lanes = w.lanes) (hg : (f w).gang = w.gang) (he : (f w).endReq = w.endReq)
    (hp : (f w).priv = w.priv) :
    settleIssue (setWave s wid (f w)) wid (closing i (sees wid w pc iss ws k) true pcs) =
      leaves s i (sees wid w pc iss ws k) pcs f := by
  have a := h.alive
  have e := h.staying
  unfold settleIssue
  rw [modWave_of_get _ (getWave_setWave _ _ _), setWave_setWave]
  have hr := retired_setWave s wid (closing i (sees wid w pc iss ws k) true pcs (f w)) w
    ((closing_gang _ _ _ _ _).trans hg) ((closing_priv _ _ _ _ _).trans hp)
  rw [hr]
  have hw : getWave (leaves s i (sees wid w pc iss ws k) pcs f) wid =
      some { closing i (sees wid w pc iss ws k) true pcs (f w) with ready := s.time + 5 } := by
    simp only [leaves, modRegion, getWave]
    exact fget_fset_same _ _ _
  have ht : (modRegion (setWave s wid { closing i (sees wid w pc iss ws k) true pcs (f w) with ready := s.time + 5 })
      (waveRegion s w) fun g => { g with progress := 0, deadRaised := g.deadRaised && w.priv == .s }) =
      leaves s i (sees wid w pc iss ws k) pcs f := rfl
  rw [ht]
  dsimp only
  rw [hw]
  have ha : ((closing i (sees wid w pc iss ws k) true pcs (f w)).endReq || laneIdx.all fun l =>
      (closing i (sees wid w pc iss ws k) true pcs (f w)).lane l == LaneState.exited) = false := by
    have q : ∀ l, (closing i (sees wid w pc iss ws k) true pcs (f w)).lane l = w.lane l := fun l => by
      simp only [Wave.lane, closing_lanes, hl]
    simp only [q, closing_endReq, he, e, Bool.false_or]
    exact a
  dsimp only
  rw [if_neg]
  simp only [Wave.lane] at ha ⊢
  rw [ha]
  simp

/-- A word whose own part ends by changing its wave alone. -/
theorem issue_wave {s : State} {wid : Nat} {w : Wave} {pc : DWord} {iss : Word} {ws : List Word}
    {info : Wave → List Word → OpInfo} {body : Env → State → Res} {f : Wave → Wave}
    (h : Stands s wid w pc iss ws) (p : Passes w (info w ws) ws)
    (hb : body (sees wid w pc iss ws (info w ws)) s = .done (modWave s wid f))
    (hl : (f w).lanes = w.lanes) (hg : (f w).gang = w.gang) (he : (f w).endReq = w.endReq)
    (hp : (f w).priv = w.priv) :
    issue s info body = completed s (info w ws) (sees wid w pc iss ws (info w ws)) f := by
  rw [issue_of_passes h p, hb, modWave_of_get _ h.here]
  exact settle_setWave h _ _ _ _ hl hg he hp

/-- A member that sets flags and writes registers of its wave. -/
theorem issue_finishInt {s : State} {wid : Nat} {w : Wave} {pc : DWord} {iss : Word} {ws : List Word}
    {info : Wave → List Word → OpInfo} {fl : Env → Word} {put : Env → Wave → Wave}
    (h : Stands s wid w pc iss ws) (p : Passes w (info w ws) ws)
    (hl : ∀ v u, (put v u).lanes = u.lanes) (hg : ∀ v u, (put v u).gang = u.gang)
    (he : ∀ v u, (put v u).endReq = u.endReq) (hp : ∀ v u, (put v u).priv = u.priv) :
    issue s info (fun v s => finishInt v s (fl v) (put v)) =
      completed s (info w ws) (sees wid w pc iss ws (info w ws)) fun u =>
        put (sees wid w pc iss ws (info w ws)) (u.orFlags (fl (sees wid w pc iss ws (info w ws)))) := by
  apply issue_wave h p rfl <;> simp [hl, hg, he, hp]

end Sys2Proof.Machine
end

