-- ==== Sys2Proof/Laws/Integers.lean ====
section
/-! SUPPORT. The integer results of the vector members, as their rules write them (spec/09 R134-R138, R148, R154, R156). -/

namespace Sys2Proof.Machine

open Sys2Proof

/-! ### Lanes and masks -/

theorem mem_laneIdx {l : Nat} : l ∈ laneIdx ↔ l < 32 := by
  simp only [laneIdx, List.mem_cons, List.not_mem_nil, or_false]; omega

theorem flagUnion_nil : flagUnion [] = 0 := rfl

theorem foldl_or (l : List Word) (x : Word) : l.foldl (· ||| ·) x = x ||| flagUnion l := by
  induction l generalizing x with
  | nil => simp [flagUnion]
  | cons y t ih =>
    simp only [flagUnion, List.foldl_cons]
    rw [ih, ih]
    simp [BitVec.or_assoc]

@[simp] theorem flagUnion_cons (x : Word) (l : List Word) : flagUnion (x :: l) = x ||| flagUnion l := by
  have h := foldl_or l (0 ||| x)
  have z : (0 : Word) ||| x = x := BitVec.zero_or
  rw [z] at h
  rw [← h, ← z]
  simp [flagUnion]

theorem flagUnion_map_zero {α : Type} (l : List α) : flagUnion (l.map fun _ => (0 : Word)) = 0 := by
  induction l with
  | nil => rfl
  | cons x t ih => rw [List.map_cons, flagUnion_cons, ih]; rfl

/-- The union of a flag that some elements raise. -/
theorem flagUnion_map_if {α : Type} (l : List α) (p : α → Bool) (x : Word) :
    flagUnion (l.map fun k => if p k then x else 0) = if l.any p then x else 0 := by
  induction l with
  | nil => rfl
  | cons y t ih =>
    simp only [List.map_cons, flagUnion_cons, ih, List.any_cons]
    have z : x ||| 0 = x := BitVec.or_zero
    by_cases h : p y = true <;> by_cases h' : t.any p = true <;>
      simp only [h, h', Bool.true_or, Bool.false_or, Bool.or_true, Bool.or_false, if_true, if_false,
        Bool.false_eq_true, BitVec.or_self, z, BitVec.zero_or, Bool.not_eq_true] <;> simp_all

/-- A clamp as R134 writes it. -/
theorem clampTo_eq (lo hi x : Int) (h : lo ≤ hi) :
    clampTo lo hi x = (BitVec.ofInt 32 (max lo (min hi x)), if decide (x < lo ∨ hi < x) then 0x20 else 0) := by
  unfold clampTo
  split
  · simp only [show max lo (min hi x) = lo by omega]; simp [*, fSAT]
  · split
    · simp only [show max lo (min hi x) = hi by omega]; simp [*, fSAT]
    · simp only [show max lo (min hi x) = x by omega]; simp [*]

theorem mulHiS_eq (x y : Word) : mulHiS x y = (x.signExtend 64 * y.signExtend 64).extractLsb' 32 32 := by
  have hx := BitVec.toInt_lt (x := x); have hx' := BitVec.le_toInt (x := x)
  have hy := BitVec.toInt_lt (x := y); have hy' := BitVec.le_toInt (x := y)
  simp at hx hx' hy hy'
  have hp : (x.signExtend 64 * y.signExtend 64).toInt = x.toInt * y.toInt := by
    rw [BitVec.toInt_mul, BitVec.toInt_signExtend_of_le (by omega), BitVec.toInt_signExtend_of_le (by omega)]
    have ax : |x.toInt| ≤ 2 ^ 31 := by rw [abs_le]; omega
    have ay : |y.toInt| ≤ 2 ^ 31 := by rw [abs_le]; omega
    have am : |x.toInt * y.toInt| ≤ 2 ^ 31 * 2 ^ 31 := by
      rw [abs_mul]; exact mul_le_mul ax ay (abs_nonneg _) (by norm_num)
    rw [abs_le] at am
    apply Int.bmod_eq_of_le <;> norm_num at am ⊢ <;> omega
  unfold mulHiS
  rw [← hp]
  generalize x.signExtend 64 * y.signExtend 64 = z
  apply BitVec.eq_of_toNat_eq
  rw [BitVec.toNat_ofInt, BitVec.extractLsb'_toNat, Nat.shiftRight_eq_div_pow]
  have := BitVec.toInt_eq_toNat_cond z
  have hz := z.isLt
  split at this <;> omega

theorem mulHiU_eq (x y : Word) : mulHiU x y = (x.zeroExtend 64 * y.zeroExtend 64).extractLsb' 32 32 := by
  have hx := x.isLt; have hy := y.isLt
  unfold mulHiU
  apply BitVec.eq_of_toNat_eq
  rw [BitVec.toNat_ofNat, BitVec.extractLsb'_toNat, BitVec.toNat_mul, Nat.shiftRight_eq_div_pow]
  simp only [BitVec.zeroExtend, BitVec.toNat_setWidth]
  rw [Nat.mod_eq_of_lt (show x.toNat < 2 ^ 64 by omega), Nat.mod_eq_of_lt (show y.toNat < 2 ^ 64 by omega),
    Nat.mod_eq_of_lt (show x.toNat * y.toNat < 2 ^ 64 by nlinarith)]

theorem absDiffU_eq (x y : Word) :
    BitVec.ofNat 32 ((x.toNat : Int) - y.toNat).natAbs = if y.toNat ≤ x.toNat then x - y else y - x := by
  have hx := x.isLt; have hy := y.isLt
  apply BitVec.eq_of_toNat_eq
  split
  · rw [BitVec.toNat_ofNat, BitVec.toNat_sub]; omega
  · rw [BitVec.toNat_ofNat, BitVec.toNat_sub]; omega

theorem shiftCount_eq (y : Word) : shiftCount y = (y.extractLsb' 0 5).toNat := by
  simp [shiftCount]

theorem sshr_eq (x : Word) (n : Nat) : sshr x n = x.sshiftRight n := by
  unfold sshr
  apply BitVec.eq_of_toInt_eq
  rw [BitVec.toInt_sshiftRight, BitVec.toInt_ofInt, Int.shiftRight_eq_div_pow]
  have h1 := BitVec.toInt_lt (x := x); have h2 := BitVec.le_toInt (x := x)
  have h3 : (1 : Int) ≤ 2 ^ n := one_le_pow₀ (by norm_num)
  have h4 := Int.ediv_lt_of_lt_mul (a := x.toInt) (b := 2 ^ 31) (c := 2 ^ n) (by positivity) (by simp at h1; nlinarith)
  have h5 : -2 ^ 31 ≤ x.toInt / 2 ^ n := Int.le_ediv_of_mul_le (by positivity) (by simp at h2; nlinarith)
  push_cast
  exact Int.bmod_eq_of_le (by omega) (by omega)

end Sys2Proof.Machine
end

