-- ==== Sys2Proof/Laws/Floats.lean ====
section
/-! SUPPORT. The end of floating-point members, as R91 writes it (spec/05 R91). -/

namespace Sys2Proof.Machine

open Sys2Proof

/-- A write depends on its values in the 32 lanes only. -/
theorem writeV_congr (w : Wave) (n : Nat) (m : Word) {f g : Nat → Word} (h : ∀ l, l < 32 → bitAt m l = true → f l = g l) :
    w.writeV n m f = w.writeV n m g := by
  unfold Wave.writeV
  split
  · rfl
  · congr 2
    apply List.map_congr_left
    intro l hl
    split
    · exact h l (mem_laneIdx.mp hl) ‹_›
    · rfl

theorem maskOf_congr {f g : Nat → Bool} (h : ∀ l, l < 32 → f l = g l) : maskOf f = maskOf g := by
  unfold maskOf
  congr 1
  apply List.foldr_ext
  intro l hl n
  rw [h l (mem_laneIdx.mp hl)]

/-- The entry of a lane in a table over the lanes. -/
theorem laneTable {α : Type} (f : Nat → α) (x : α) (l : Nat) (h : l < 32) : (laneIdx.map f).getD l x = f l := by
  have : laneIdx = List.range 32 := by decide
  rw [this]
  simp [List.getD, h]

/-- The flags of a table over the lanes are those of the active lanes. -/
theorem flags_laneResults (v : Env) (r : Nat → Nat × Word) :
    flagUnion ((laneResults v r).map Prod.snd) = lanesRaise v r := by
  unfold laneResults lanesRaise lanesOf
  induction laneIdx with
  | nil => rfl
  | cons k t ih =>
    have z : (0 : Word) ||| flagUnion (List.map Prod.snd (List.map (fun l => if bitAt v.e l then r l else (0, 0)) t)) =
        flagUnion (List.map Prod.snd (List.map (fun l => if bitAt v.e l then r l else (0, 0)) t)) := BitVec.zero_or
    simp only [List.map_cons, flagUnion_cons, List.filter_cons]
    by_cases h : bitAt v.e k = true
    · simp only [h, if_true, List.map_cons, flagUnion_cons, ih]
    · simp only [h, if_false, Bool.false_eq_true]
      rw [z, ih]

/-- The end of a member that may raise FPX. -/
theorem issue_finishFp {s : State} {wid : Nat} {w : Wave} {pc : DWord} {iss : Word} {ws : List Word}
    {info : Wave → List Word → OpInfo} {body : Env → State → Res} {fl : Word} {lanes : Word → Word} {put : Wave → Wave}
    (h : Stands s wid w pc iss ws) (p : Passes w (info w ws) ws) (hc : ¬ (18 ≤ (info w ws).cls ∧ (info w ws).cls ≤ 23))
    (hb : body (sees wid w pc iss ws (info w ws)) s = finishFp (sees wid w pc iss ws (info w ws)) s fl lanes put)
    (hl : ∀ u, (put u).lanes = u.lanes) (hg : ∀ u, (put u).gang = u.gang)
    (he : ∀ u, (put u).endReq = u.endReq) (hp : ∀ u, (put u).priv = u.priv) :
    issue s info body =
      if w.fpx fl = 0 then completed s (info w ws) (sees wid w pc iss ws (info w ws)) fun u => put (u.orFlags fl)
      else takeTrap (modWave s wid (·.orFlags fl)) wid
        ⟨cFPX, (w.fpx fl).toNat, pc, pc, BitVec.ofNat 64 (lanes (w.fpx fl)).toNat, false⟩ := by
  rw [issue_of_passes h p, hb]
  unfold finishFp
  dsimp only
  have hv : (sees wid w pc iss ws (info w ws)).w.fpx fl = w.fpx fl := rfl
  rw [hv]
  by_cases hx : w.fpx fl = 0
  · rw [if_neg (by simpa using hx), if_pos hx]
    simp only [ended', completedIn]
    have e : (sees wid w pc iss ws (info w ws)).wid = wid := rfl
    rw [e, modWave_of_get (s := s) _ h.here, modWave_of_get _ (getWave_setWave _ _ _), setWave_setWave]
    exact settle_setWave (f := fun u => put (u.orFlags fl)) h _ _ _ (by simp [hl]) (by simp [hg]) (by simp [he])
      (by simp [hp])
  · rw [if_pos hx, if_neg hx]
    simp only [ended', decide_eq_false hc, Bool.and_false, Bool.false_eq_true, if_false]
    rfl

/-- A member that ends with 32-bit lane results. -/
theorem rounds_finish32 {i : Instr} {info : Wave → List Word → OpInfo} {d : Nat} {r : Env → Nat → Nat × Word}
    (hi : ∀ s, exec i s = .next (issue s info fun v s => finish32 v s d (r v)))
    (hc : ∀ w ws, ¬ (18 ≤ (info w ws).cls ∧ (info w ws).cls ≤ 23)) :
    Rounds i info r fun v q u => u.writeV d v.e fun l => BitVec.ofNat 32 (q l) := by
  intro s wid w pc iss ws h p
  rw [hi]
  congr 1
  rw [issue_finishFp h p (hc _ _) rfl (by intros; simp) (by intros; simp) (by intros; simp) (by intros; simp)]
  rw [flags_laneResults]
  have hv : (sees wid w pc iss ws (info w ws)).w = w := rfl
  dsimp only
  rw [hv]
  split
  · congr 1
    funext u
    apply writeV_congr
    intro l hl hb
    simp only [laneResults]
    rw [laneTable _ _ _ hl, if_pos hb]
  · congr 3
    simp only [raisedIn]
    congr 1
    apply maskOf_congr
    intro l hl
    simp only [laneResults]
    rw [laneTable _ _ _ hl]
    by_cases hb : bitAt (sees wid w pc iss ws (info w ws)).e l = true <;> simp [hb]

end Sys2Proof.Machine
end

