-- ==== Sys2Proof/Laws/Memory.lean ====
section
/-! SUPPORT. The memory: what a byte reads as after a write, and that every operation over memory keeps its canonical form. -/

namespace Sys2Proof.Machine

open Sys2Proof

/-! ### The canonical form -/

/-- The addresses of a memory rise and no listed byte is zero, said without the list's shape. -/
theorem Memory.wf_iff (m : List Host.Cell) :
    Memory.wf m = true ↔ m.Pairwise (fun x y => x.1 < y.1) ∧ ∀ c ∈ m, c.2 ≠ 0 := by
  induction m with
  | nil => simp [Memory.wf]
  | cons p t ih =>
    obtain ⟨k, b⟩ := p
    cases t with
    | nil => simp [Memory.wf]
    | cons q t =>
      obtain ⟨k', b'⟩ := q
      simp only [Memory.wf, Bool.and_eq_true, bne_iff_ne, decide_eq_true_eq, ih]
      simp only [List.pairwise_cons, List.mem_cons, forall_eq_or_imp]
      constructor
      · rintro ⟨⟨hb, hk⟩, ⟨h1, h2⟩, h3, h4⟩
        exact ⟨⟨⟨hk, fun c hc => Nat.lt_trans hk (h1 c hc)⟩, h1, h2⟩, hb, h3, h4⟩
      · rintro ⟨⟨⟨hk, -⟩, h1, h2⟩, hb, h3, h4⟩
        exact ⟨⟨hb, hk⟩, ⟨h1, h2⟩, h3, h4⟩

theorem Memory.wf_tail {p : Host.Cell} {t : List Host.Cell} (h : Memory.wf (p :: t) = true) : Memory.wf t = true := by
  rw [Memory.wf_iff] at h ⊢
  exact ⟨(List.pairwise_cons.mp h.1).2, fun c hc => h.2 c (List.mem_cons_of_mem _ hc)⟩

theorem Memory.wf_filter (p : Host.Cell → Bool) {m : List Host.Cell} (h : Memory.wf m = true) :
    Memory.wf (m.filter p) = true := by
  rw [Memory.wf_iff] at h ⊢
  exact ⟨h.1.filter _, fun c hc => h.2 c (List.mem_filter.mp hc).1⟩

/-! ### Reading a byte -/

theorem byteAt_cons (k a : Nat) (b : BitVec 8) (t : List Host.Cell) :
    byteAt ((k, b) :: t) a = if a = k then b else byteAt t a := rfl

/-- A byte that no cell lists reads zero. -/
theorem byteAt_unlisted {m : List Host.Cell} {a : Nat} (h : ∀ c ∈ m, c.1 ≠ a) : byteAt m a = 0 := by
  induction m with
  | nil => rfl
  | cons p t ih =>
    rw [byteAt_cons, if_neg (Ne.symm (h p (List.mem_cons_self ..))), ih fun c hc => h c (List.mem_cons_of_mem _ hc)]

theorem Memory.wf_head {p : Host.Cell} {t : List Host.Cell} (h : Memory.wf (p :: t) = true) : ∀ c ∈ t, p.1 < c.1 :=
  fun c hc => (List.pairwise_cons.mp ((Memory.wf_iff _).mp h).1).1 c hc

/-! ### Writing a byte -/

theorem dropByte_sub (m : List Host.Cell) (a : Nat) : (dropByte m a).Sublist m := by
  induction m with
  | nil => exact List.Sublist.refl _
  | cons p t ih =>
    simp only [dropByte]
    split
    · exact List.sublist_cons_self ..
    · split
      · exact List.Sublist.refl _
      · exact ih.cons_cons _

theorem wf_dropByte {m : List Host.Cell} (a : Nat) (h : Memory.wf m = true) : Memory.wf (dropByte m a) = true := by
  rw [Memory.wf_iff] at h ⊢
  exact ⟨h.1.sublist (dropByte_sub m a), fun c hc => h.2 c ((dropByte_sub m a).subset hc)⟩

theorem mem_putByte {m : List Host.Cell} {a : Nat} {x : BitVec 8} {c : Host.Cell} (h : c ∈ putByte m a x) :
    c = (a, x) ∨ c ∈ m := by
  induction m with
  | nil => simpa [putByte] using h
  | cons p t ih =>
    simp only [putByte] at h
    split at h
    · simpa using h
    · split at h
      · simp only [List.mem_cons] at h ⊢; tauto
      · simp only [List.mem_cons] at h ⊢
        rcases h with h | h
        · exact .inr (.inl h)
        · exact (ih h).imp_right .inr

theorem wf_putByte {m : List Host.Cell} {a : Nat} {x : BitVec 8} (hx : x ≠ 0) (h : Memory.wf m = true) :
    Memory.wf (putByte m a x) = true := by
  induction m with
  | nil => simpa [putByte, Memory.wf] using hx
  | cons p t ih =>
    obtain ⟨k, b⟩ := p
    have ht := ih (Memory.wf_tail h)
    have hh := Memory.wf_head h
    rw [Memory.wf_iff] at h ht ⊢
    simp only [putByte]
    split
    · refine ⟨List.pairwise_cons.mpr ⟨fun c hc => ?_, h.1⟩, fun c hc => ?_⟩
      · rcases List.mem_cons.mp hc with rfl | hc
        · assumption
        · exact Nat.lt_trans ‹_› (hh c hc)
      · rcases List.mem_cons.mp hc with rfl | hc
        · exact hx
        · exact h.2 c hc
    · split
      · subst_vars
        refine ⟨List.pairwise_cons.mpr ⟨hh, (List.pairwise_cons.mp h.1).2⟩, fun c hc => ?_⟩
        rcases List.mem_cons.mp hc with rfl | hc
        · exact hx
        · exact h.2 c (List.mem_cons_of_mem _ hc)
      · refine ⟨List.pairwise_cons.mpr ⟨fun c hc => ?_, ht.1⟩, fun c hc => ?_⟩
        · rcases mem_putByte hc with rfl | hc
          · simp only; omega
          · exact hh c hc
        · rcases List.mem_cons.mp hc with rfl | hc
          · exact h.2 _ (List.mem_cons_self ..)
          · exact ht.2 c hc

theorem wf_setByte {m : List Host.Cell} (a : Nat) (x : BitVec 8) (h : Memory.wf m = true) :
    Memory.wf (setByte m a x) = true := by
  unfold setByte
  split
  · exact wf_dropByte a h
  · exact wf_putByte ‹_› h

theorem byteAt_putByte (m : List Host.Cell) (a n : Nat) (x : BitVec 8) :
    byteAt (putByte m a x) n = if n = a then x else byteAt m n := by
  induction m with
  | nil => simp [putByte, byteAt]
  | cons p t ih =>
    obtain ⟨k, b⟩ := p
    simp only [putByte]
    split
    · rw [byteAt_cons]
    · split
      · subst_vars; simp only [byteAt_cons]; split <;> rfl
      · simp only [byteAt_cons, ih]
        split
        · subst_vars; rw [if_neg (Ne.symm ‹_›)]
        · rfl

theorem byteAt_dropByte {m : List Host.Cell} (a n : Nat) (h : Memory.wf m = true) :
    byteAt (dropByte m a) n = if n = a then 0 else byteAt m n := by
  induction m with
  | nil => simp [dropByte, byteAt]
  | cons p t ih =>
    obtain ⟨k, b⟩ := p
    have hh := Memory.wf_head h
    simp only [dropByte]
    split
    · subst_vars
      rw [byteAt_cons]
      split
      · subst_vars; exact byteAt_unlisted fun c hc => Nat.ne_of_gt (hh c hc)
      · rfl
    · split
      · split
        · subst_vars
          refine byteAt_unlisted fun c hc => ?_
          rcases List.mem_cons.mp hc with rfl | hc
          · exact Nat.ne_of_gt ‹_›
          · exact Nat.ne_of_gt (Nat.lt_trans ‹_› (hh c hc))
        · rfl
      · rw [byteAt_cons, ih (Memory.wf_tail h), byteAt_cons]
        split
        · subst_vars; rw [if_neg (Ne.symm ‹_›)]
        · rfl

/-- Read after write: the byte written, and every other byte as before. -/
theorem byteAt_setByte {m : List Host.Cell} (a n : Nat) (x : BitVec 8) (h : Memory.wf m = true) :
    byteAt (setByte m a x) n = if n = a then x else byteAt m n := by
  unfold setByte
  split
  · subst_vars; exact byteAt_dropByte a n h
  · exact byteAt_putByte m a n x

/-! ### Writing several bytes -/

theorem wf_setBytes {m : List Host.Cell} (l : List (BitVec 8)) (a : Nat) (h : Memory.wf m = true) :
    Memory.wf (setBytes m a l) = true := by
  induction l generalizing m a with
  | nil => exact h
  | cons x t ih => exact ih (a + 1) (wf_setByte a x h)

/-- Read after a write of bytes: a byte written where it lies among them, as before elsewhere. -/
theorem byteAt_setBytes {m : List Host.Cell} (l : List (BitVec 8)) (a n : Nat) (h : Memory.wf m = true) :
    byteAt (setBytes m a l) n = if a ≤ n ∧ n < a + l.length then l.getD (n - a) 0 else byteAt m n := by
  induction l generalizing m a with
  | nil => simp [setBytes]
  | cons x t ih =>
    rw [setBytes, ih (a + 1) (wf_setByte a x h), byteAt_setByte a n x h]
    simp only [List.length_cons]
    rcases Nat.lt_trichotomy n a with hn | rfl | hn
    · rw [if_neg (by omega), if_neg (by omega), if_neg (by omega)]
    · rw [if_neg (by omega), if_pos rfl, if_pos (by omega), Nat.sub_self]; rfl
    · have e : n - a = (n - (a + 1)) + 1 := by omega
      by_cases h1 : n < a + (t.length + 1)
      · rw [if_pos (by omega), if_pos (by omega), e]; rfl
      · rw [if_neg (by omega), if_neg (by omega), if_neg (by omega)]

/-- The little-endian bytes of a number give it back. -/
theorem leNat_leBytes (n x : Nat) : leNat (leBytes n x) = x % 256 ^ n := by
  induction n generalizing x with
  | zero => simp [leBytes, leNat, Nat.mod_one]
  | succ n ih =>
    have e : 256 ^ (n + 1) = 256 * 256 ^ n := by rw [Nat.pow_succ, Nat.mul_comm]
    rw [leBytes, leNat, ih, BitVec.toNat_ofNat, e, Nat.mod_mul]

theorem length_leBytes (n x : Nat) : (leBytes n x).length = n := by
  induction n generalizing x with
  | zero => rfl
  | succ n ih => rw [leBytes, List.length_cons, ih]

/-! ### Operations of the state over memory -/

theorem wf_foldl {α : Type} (f : List Host.Cell → α → List Host.Cell)
    (hf : ∀ m x, Memory.wf m = true → Memory.wf (f m x) = true) (l : List α) {m : List Host.Cell}
    (h : Memory.wf m = true) : Memory.wf (l.foldl f m) = true := by
  induction l generalizing m with
  | nil => exact h
  | cons x t ih => exact ih (hf m x h)

theorem memoryOk_foldl {α : Type} (f : State → α → State) (hf : ∀ s x, s.memoryOk → (f s x).memoryOk) (l : List α)
    {s : State} (h : s.memoryOk) : (l.foldl f s).memoryOk := by
  induction l generalizing s with
  | nil => exact h
  | cons x t ih => exact ih (hf s x h)

theorem memoryOk_reset : State.reset.memoryOk := rfl

theorem memoryOk_touchLine {s : State} (pa : Nat) (h : s.memoryOk) : (touchLine s pa).memoryOk := by
  unfold touchLine
  split
  · exact h
  · split
    · exact wf_setBytes _ _ h
    · exact h

theorem memoryOk_devSet {s : State} (pa : Nat) (x : BitVec 8) (h : s.memoryOk) : (devSet s pa x).memoryOk := by
  have := memoryOk_touchLine pa h
  unfold devSet
  dsimp only
  split
  · exact this
  · exact wf_setByte _ _ this

theorem memoryOk_devSetBytes {s : State} (l : List (BitVec 8)) (a : Nat) (h : s.memoryOk) :
    (devSetBytes s a l).memoryOk := by
  induction l generalizing s a with
  | nil => exact h
  | cons x t ih => exact ih (a + 1) (memoryOk_devSet a x h)

theorem memoryOk_writeBack {s : State} (line : Nat) (h : s.memoryOk) : (writeBack s line).memoryOk := by
  unfold writeBack
  split
  · exact h
  · refine wf_foldl _ (fun m i hm => ?_) _ h
    split
    · exact wf_setByte _ _ hm
    · exact hm

theorem memoryOk_writeBackAll {s : State} (h : s.memoryOk) : (writeBackAll s).memoryOk :=
  memoryOk_foldl _ (fun _ _ hs => memoryOk_writeBack _ hs) _ h

theorem memoryOk_evictLines {s : State} (h : s.memoryOk) : (evictLines s).memoryOk :=
  memoryOk_foldl _ (fun t p ht => memoryOk_writeBack (s := t) p.1 ht) _ h

theorem memoryOk_discardHostLines {s : State} (h : s.memoryOk) : (discardHostLines s).memoryOk :=
  memoryOk_writeBackAll (s := s) h

theorem memoryOk_copyFrame {s : State} (src dst : Nat) (h : s.memoryOk) : (copyFrame s src dst).memoryOk :=
  wf_foldl _ (fun _ _ hm => wf_setByte _ _ hm) _ (Memory.wf_filter _ h)

theorem memoryOk_zeroFrame {s : State} (f : Nat) (h : s.memoryOk) : (zeroFrame s f).memoryOk :=
  Memory.wf_filter _ h

theorem memoryOk_mergeAt {s : State} (pa : Nat) (h : s.memoryOk) : (mergeAt s pa).1.memoryOk := by
  unfold mergeAt
  split
  · exact h
  · rename_i l _
    suffices ∀ (es : List Nat) (acc : List Host.Cell × List Nat) , Memory.wf acc.1 = true →
        Memory.wf (es.foldl (fun (acc : List Host.Cell × List Nat) e =>
          let w := poolWidth l.op
          let a := pa / 128 * 128 + e * w
          let r := poolMerged l e (leNat (bytesAt s.mem a w))
          (setBytes acc.1 a (leBytes w r.1), if r.2 then acc.2 ++ [a] else acc.2)) acc).1 = true from
      this _ _ h
    intro es
    induction es with
    | nil => exact fun _ h => h
    | cons e t ih => exact fun acc ha => ih _ (wf_setBytes _ _ ha)

theorem memoryOk_putEntry {s : State} (a : Nat) (e : DWord) (h : s.memoryOk) : (putEntry s a e).memoryOk :=
  wf_setBytes _ _ (memoryOk_touchLine a (memoryOk_mergeAt a h))

theorem memoryOk_mergeFrame {s : State} (f : Nat) (h : s.memoryOk) : (mergeFrame s f).memoryOk := by
  refine memoryOk_foldl _ (fun s p hs => ?_) _ h
  split
  · exact memoryOk_mergeAt _ hs
  · exact hs

theorem memoryOk_contribute {s : State} (core op : Nat) (anchor : Int) (pa : Nat) (v : Int) (h : s.memoryOk) :
    (contribute s core op anchor pa v).1.memoryOk := by
  have hm : (mergeAt s pa).1.memoryOk := memoryOk_mergeAt pa h
  unfold contribute
  dsimp only
  repeat' split
  all_goals first | exact h | exact hm

theorem memoryOk_writeFrame {s : State} (f : Nat) (bs : List (BitVec 8)) (h : s.memoryOk) : (writeFrame s f bs).memoryOk :=
  wf_setBytes _ _ (memoryOk_zeroFrame f h)

theorem memoryOk_releaseReset {s : State} (cold : Bool) (h : s.memoryOk) : (releaseReset cold s).memoryOk := by
  cases cold
  · exact h
  · exact Memory.wf_filter _ h

/-! ### Translation and the table entries it reads -/

/-- The addresses of the entries that a walk reads. -/
def walkEntries (s : State) (va : Nat) : Nat → Nat → Nat → List Nat
  | 0, _, _ => []
  | fuel + 1, level, t =>
    let a := t + 8 * vaIndex va level
    a :: walkEntries s va fuel (level + 1) (pFrame (readEntry s a) * 65536)

/-- A walk depends on the entries it reads only. -/
theorem walkFrom_congr {s t : State} (va fuel level tab : Nat)
    (h : ∀ a ∈ walkEntries s va fuel level tab, readEntry t a = readEntry s a) :
    walkFrom t va fuel level tab = walkFrom s va fuel level tab := by
  induction fuel generalizing level tab with
  | zero => rfl
  | succ n ih =>
    have h0 := h _ (List.mem_cons_self ..)
    have hr := ih (level + 1) _ fun a ha => h a (List.mem_cons_of_mem _ ha)
    simp only [walkFrom, h0, hr]

theorem xlat_ok_else {p : Prop} [Decidable p] {f r : Xlat} {pa a : Nat} {e : DWord} (h : (if p then f else r) = .ok pa a e)
    (hf : f ≠ .ok pa a e) : ¬ p ∧ r = .ok pa a e := by
  by_cases hp : p
  · rw [if_pos hp] at h; exact absurd h hf
  · rw [if_neg hp] at h; exact ⟨hp, h⟩

/-- A translation that succeeds, with no bias flip under way, does so in any memory in which the walk ends alike. -/
theorem translate_mem {s : State} {m : List Host.Cell} {root : DWord} {va n : Nat} {k : Acc} {q : Asker} {pa a : Nat}
    {e : DWord} (hf : s.host.flip = none) (hw : walk { s with mem := m } root va = walk s root va) (h : translate s root va n k q = .ok pa a e) :
    translate { s with mem := m } root va n k q = .ok pa a e := by
  have hl : lookup { s with mem := m } root va q.lane = lookup s root va q.lane := by
    unfold lookup; rw [hw]; rfl
  have hs : ∀ f, segOfFrame { s with mem := m } f = segOfFrame s f := fun _ => rfl
  have hn : ∀ t : State, t.host = s.host → walkHeld t root va = false := fun t ht => by simp [walkHeld, ht, hf]
  unfold translate at h ⊢
  rw [hn { s with mem := m } rfl, if_neg Bool.false_ne_true, hl]
  rw [hn s rfl, if_neg Bool.false_ne_true] at h
  cases hc : lookup s root va q.lane with
  | none =>
    rw [hc] at h
    dsimp only at h
    split at h <;> (try split at h) <;> cases h
  | some x =>
    obtain ⟨b, c, d⟩ := x
    rw [hc] at h
    simp only [hs]
    dsimp only at h
    obtain ⟨h1, h⟩ := xlat_ok_else h nofun
    obtain ⟨h2, h⟩ := xlat_ok_else h nofun
    obtain ⟨h3, h⟩ := xlat_ok_else h nofun
    obtain ⟨h4, h⟩ := xlat_ok_else h nofun
    obtain ⟨h5, h⟩ := xlat_ok_else h nofun
    obtain ⟨h6, h⟩ := xlat_ok_else h nofun
    obtain ⟨h7, h⟩ := xlat_ok_else h nofun
    obtain ⟨h8, h⟩ := xlat_ok_else h nofun
    obtain ⟨h9, h⟩ := xlat_ok_else h nofun
    obtain ⟨h10, h⟩ := xlat_ok_else h (by split <;> nofun)
    rw [if_neg h1, if_neg h2, if_neg h3, if_neg h4, if_neg h5, if_neg h6, if_neg h7, if_neg h8, if_neg h9, if_neg h10]
    exact h

/-- Memory places in lines that the device holds whole: neither pooled nor held by the host, nor host memory. -/
def quietLocs (s : State) (ls : List Loc) : Prop :=
  s.pool = [] ∧ s.hostLines = [] ∧ ∀ l ∈ ls, ∃ pa, l = .phys pa ∧ isHostPA pa = false

/-- Preparing quiet places changes nothing. -/
theorem prepareList_quiet {s : State} {ls : List Loc} (h : quietLocs s ls) : prepareList s ls = (s, []) := by
  obtain ⟨hp, hh, hl⟩ := h
  unfold prepareList
  induction ls with
  | nil => rfl
  | cons l t ih =>
    obtain ⟨pa, rfl, hpa⟩ := hl l (List.mem_cons_self ..)
    simp only [List.foldl_cons, mergeAt, hp, touchLine, hpa, hh, fget, Bool.false_eq_true, if_false]
    exact ih fun l hm => hl l (List.mem_cons_of_mem _ hm)

/-- Writing quiet places changes their bytes of memory and nothing else. -/
theorem setLocs_quiet {s : State} {ls : List Loc} {bs : List (BitVec 8)} (h : quietLocs s ls) (hm : s.memoryOk) :
    ∃ m, setLocs s ls bs = { s with mem := m } ∧ Memory.wf m = true ∧
      ∀ a, Loc.phys a ∉ ls → byteAt m a = byteAt s.mem a := by
  induction ls generalizing s bs with
  | nil => exact ⟨s.mem, by simp [setLocs], hm, fun _ _ => rfl⟩
  | cons l t ih =>
    obtain ⟨hp, hh, hl⟩ := h
    obtain ⟨pa, rfl, hpa⟩ := hl l (List.mem_cons_self ..)
    cases bs with
    | nil => exact ⟨s.mem, by simp [setLocs], hm, fun _ _ => rfl⟩
    | cons b bs =>
      have e : setLoc s (.phys pa) b = { s with mem := setByte s.mem pa b } := by
        simp [setLoc, devSet, touchLine, hpa, hh, fget]
      obtain ⟨m, h1, h2, h3⟩ := @ih { s with mem := setByte s.mem pa b } bs
        ⟨hp, hh, fun l hm => hl l (List.mem_cons_of_mem _ hm)⟩ (wf_setByte _ _ hm)
      refine ⟨m, by rw [setLocs, e, h1], h2, fun a ha => ?_⟩
      rw [h3 a fun hc => ha (List.mem_cons_of_mem _ hc), byteAt_setByte _ _ _ hm, if_neg]
      rintro rfl
      exact ha (List.mem_cons_self ..)

/-- An entry reads as before when none of its bytes is written. -/
theorem readEntry_mem {s : State} {m : List Host.Cell} (hp : s.pool = []) {a : Nat}
    (ha : ∀ i < 8, isHostPA (a + i) = false ∧ byteAt m (a + i) = byteAt s.mem (a + i)) :
    readEntry { s with mem := m } a = readEntry s a := by
  unfold readEntry
  congr 2
  refine List.map_congr_left fun x hx => ?_
  have hx : ∃ i < 8, x = a + i := by
    simp only [numsFrom, List.mem_cons, List.not_mem_nil, or_false] at hx
    rcases hx with rfl | rfl | rfl | rfl | rfl | rfl | rfl | rfl
    exacts [⟨0, by omega, rfl⟩, ⟨1, by omega, rfl⟩, ⟨2, by omega, rfl⟩, ⟨3, by omega, rfl⟩, ⟨4, by omega, rfl⟩,
      ⟨5, by omega, rfl⟩, ⟨6, by omega, rfl⟩, ⟨7, by omega, rfl⟩]
  obtain ⟨i, hi, rfl⟩ := hx
  obtain ⟨h1, h2⟩ := ha i hi
  simp [viewByte, devByte, hp, fget, h1, h2]

/-- A load of quiet places reads their bytes. -/
theorem loadVA_quiet {s : State} {root : DWord} {va n : Nat} {p : Place} (h : engReach s root 0 va n .read = .ok p)
    (hq : quietLocs s p.locs) : loadVA s root va n = .ok (p.locs.map (locByte s), useLeaves s root p none) := by
  unfold loadVA
  rw [h]
  dsimp only
  rw [prepareList_quiet hq]

/-- A store to quiet places writes their bytes. -/
theorem storeVA_quiet {s : State} {root : DWord} {gen va : Nat} {bs : List (BitVec 8)} {p : Place}
    (h : engReach s root 0 va bs.length .write = .ok p) (hq : quietLocs s p.locs) :
    storeVA s root gen va bs = .ok (setLocs (useLeaves s root p (some gen)) p.locs bs) := by
  unfold storeVA
  rw [h]
  dsimp only
  rw [prepareList_quiet hq]

/-- Where no checkpoint copy and no bias flip runs, no table is held. -/
theorem tablesHeld_none {s : State} {root : DWord} {va : Nat} (h : holdsAny s = false) : tablesHeld s root va = false := by
  simp [tablesHeld, h]

/-- Where nothing has changed, nothing has been resolved. -/
@[simp] theorem resolution_same (s : State) (root : DWord) (va : Nat) : resolution s s root va = s := by
  unfold resolution
  cases unresolved s root va <;> rfl

/-- A page in HBM is resident as it stands, whatever the space, where nothing holds its tables. -/
theorem residentNow_here {s : State} {root : DWord} {va die : Nat} {a f : Nat} {e : DWord} {big : Bool} (hp : s.pool = [])
    (hh : holdsAny s = false) (hw : walk s root va = .leaf a e f big) (h : !pGranted e && !pMig e && pTier e == 0) :
    residentNow s root va die = some s := by
  simp only [Bool.and_eq_true, Bool.not_eq_true', beq_iff_eq] at h
  have hs : settleWalk s root va = s := by simp [settleWalk, hp]
  unfold residentNow
  simp [hs, hw, h.1.1, h.1.2, h.2, tablesHeld_none hh]

/-- A load from one resident page of a CSA is a load of its bytes. -/
theorem csaLoad_page {s t : State} {root : DWord} {die va n : Nat} {bs : List (BitVec 8)} {strict : Bool}
    (hn : pagePieces va n = [(va, n)]) (hr : residentNow s root va die = some s) (hl : loadVA s root va n = .ok (bs, t)) :
    csaLoad strict s root die va n = .ok (bs, t) := by
  simp [csaLoad, csaPage, hn, hr, hl]

/-- A store to one resident page of a CSA is a store of its bytes. -/
theorem csaStore_page {s t : State} {root : DWord} {gen die va : Nat} {bs : List (BitVec 8)} {strict : Bool}
    (hn : pagePieces va bs.length = [(va, bs.length)]) (hr : residentNow s root va die = some s)
    (hs : storeVA s root gen va bs = .ok t) : csaStore strict s root gen die va bs = .ok t := by
  simp [csaStore, csaPage, hn, hr, hs]

/-- Where no checkpoint runs, none holds a page. -/
theorem ckptHolds_none {s : State} {f : Nat} (h : s.regions.all fun p => p.2.ckRun.isNone) : ckptHolds s f = false := by
  refine List.any_eq_false.mpr fun p hp => ?_
  rw [Option.isNone_iff_eq_none.mp (List.all_eq_true.mp h p hp)]
  exact Bool.false_ne_true

/-- With no line pooled, to read through translations changes no wave and no gang. -/
theorem useLeaves_quiet {s : State} (root : DWord) (p : Place) (hp : s.pool = []) :
    (useLeaves s root p none).waves = s.waves ∧ (useLeaves s root p none).gangs = s.gangs := by
  unfold useLeaves
  generalize p.marks = ms
  induction ms generalizing s with
  | nil => exact ⟨rfl, rfl⟩
  | cons m t ih =>
    have hf : ∀ va e, (fillTlb s root va e).pool = s.pool ∧ (fillTlb s root va e).waves = s.waves ∧
        (fillTlb s root va e).gangs = s.gangs := fun va e => by
      unfold fillTlb noteResident
      split <;> simp [settleWalk, hp]
    obtain ⟨h0, h1, h2⟩ := hf m.2.2 m.2.1
    obtain ⟨h3, h4⟩ := ih (h0.trans hp)
    exact ⟨h3.trans h1, h4.trans h2⟩

end Sys2Proof.Machine
end

