-- ==== Sys2Proof/Laws/Order.lean ====
section
/-! SUPPORT. Sorting: what `sortBy` gives, and that the order of keys is total and transitive; and what a fetch returns. -/

namespace Sys2Proof.Machine

open Sys2Proof

theorem insertBy_perm {α : Type} (le : α → α → Bool) (a : α) (l : List α) : (insertBy le a l).Perm (a :: l) := by
  induction l with
  | nil => exact .refl _
  | cons b t ih =>
    rw [insertBy]
    split
    · exact .refl _
    · exact (ih.cons b).trans (.swap a b t)

/-- Sorting keeps the elements. -/
theorem sortBy_perm {α : Type} (le : α → α → Bool) (l : List α) : (sortBy le l).Perm l := by
  induction l with
  | nil => exact .refl _
  | cons a t ih => exact (insertBy_perm le a _).trans (ih.cons a)

theorem sortBy_insert_pairwise {α : Type} {le : α → α → Bool} (total : ∀ a b, le a b = false → le b a = true)
    (trans : ∀ a b c, le a b = true → le b c = true → le a c = true) (a : α) {l : List α}
    (h : l.Pairwise fun x y => le x y = true) : (insertBy le a l).Pairwise fun x y => le x y = true := by
  induction l with
  | nil => exact List.pairwise_singleton ..
  | cons b t ih =>
    obtain ⟨hb, ht⟩ := List.pairwise_cons.mp h
    rw [insertBy]
    split
    · refine List.pairwise_cons.mpr ⟨fun x hx => ?_, h⟩
      rcases List.mem_cons.mp hx with rfl | hx
      · assumption
      · exact trans a b x ‹_› (hb x hx)
    · rename_i hn
      refine List.pairwise_cons.mpr ⟨fun x hx => ?_, ih ht⟩
      rcases List.mem_cons.mp ((insertBy_perm le a t).subset hx) with rfl | hx
      · exact total _ _ (Bool.eq_false_iff.mpr hn)
      · exact hb x hx

/-- A sorted list is in order, where the order is total and transitive. -/
theorem sortBy_pairwise {α : Type} {le : α → α → Bool} (total : ∀ a b, le a b = false → le b a = true)
    (trans : ∀ a b c, le a b = true → le b c = true → le a c = true) (l : List α) :
    (sortBy le l).Pairwise fun x y => le x y = true := by
  induction l with
  | nil => exact List.Pairwise.nil
  | cons a t ih => exact sortBy_insert_pairwise total trans a ih

theorem lexLe_total (a b : List Int) (h : lexLe a b = false) : lexLe b a = true := by
  induction a generalizing b with
  | nil => cases h
  | cons x a ih =>
    cases b with
    | nil => rfl
    | cons y b =>
      simp only [lexLe, Bool.or_eq_false_iff, decide_eq_false_iff_not, Bool.and_eq_false_iff, Bool.or_eq_true,
        decide_eq_true_eq, Bool.and_eq_true, beq_iff_eq, beq_eq_false_iff_ne] at h ⊢
      rcases h.2 with h2 | h2
      · left; omega
      · by_cases e : y < x
        · exact .inl e
        · exact .inr ⟨by omega, ih b h2⟩

theorem lexLe_trans (a b c : List Int) (h1 : lexLe a b = true) (h2 : lexLe b c = true) : lexLe a c = true := by
  induction a generalizing b c with
  | nil => rfl
  | cons x a ih =>
    cases b with
    | nil => cases h1
    | cons y b =>
      cases c with
      | nil => cases h2
      | cons z c =>
        simp only [lexLe, Bool.or_eq_true, decide_eq_true_eq, Bool.and_eq_true, beq_iff_eq] at h1 h2 ⊢
        rcases h1 with h1 | ⟨h1, h3⟩ <;> rcases h2 with h2 | ⟨h2, h4⟩
        · left; omega
        · left; omega
        · left; omega
        · exact .inr ⟨by omega, ih b c h3 h4⟩

/-! ### What a fetch returns (spec/07 R113) -/

/-- A fetch returns what memory holds, or the word its gang fetched from the same place before, or the word that stood there
when its range was accepted. -/
theorem wordAt_cases (s : State) (gang va pa : Nat) (root : DWord) :
    wordAt s gang va pa root = BitVec.ofNat 32 (leNat ((numsFrom pa 4).map (viewByte s))) ∨
    fget s.fetched (fetchKey gang va) = some (pa, wordAt s gang va pa root) ∨
    acceptedWord s gang va pa root = some (wordAt s gang va pa root) := by
  unfold wordAt
  dsimp only
  split
  · split
    · rename_i h hc
      exact .inr (.inl (h.trans (by rw [hc.1])))
    · exact .inl rfl
  · split
    · split
      · rename_i h _
        exact .inr (.inr h)
      · exact .inl rfl
    · exact .inl rfl

/-- Where neither another word fetched before nor another word at acceptance stands against it, a fetch returns what memory
holds. -/
theorem wordAt_now {s : State} {gang va pa : Nat} {root : DWord}
    (h : ∀ x, fget s.fetched (fetchKey gang va) = some (pa, x) ∨ acceptedWord s gang va pa root = some x →
      x = BitVec.ofNat 32 (leNat ((numsFrom pa 4).map (viewByte s)))) :
    wordAt s gang va pa root = BitVec.ofNat 32 (leNat ((numsFrom pa 4).map (viewByte s))) :=
  (wordAt_cases s gang va pa root).elim id (h _)

end Sys2Proof.Machine
end

