-- ==== Sys2Proof/Laws/PerInstr.lean ====
section
/-! SUPPORT. For every instruction: a well-formed one has a word that decodes to it (spec/07 R98 to R104). -/

namespace Sys2Proof.Laws.Encoding

open Sys2Proof

/-- A well-formed instruction is what its own word decodes to. -/
def Statement (i : Instr) : Prop := i.wf = true → decodeWord (encode i) = i

theorem bitsOf_eq {n lo w : Nat} (x : BitVec n) (h : w / 2 ^ lo % 2 ^ n = x.toNat) : bitsOf n lo w = x := by
  apply BitVec.eq_of_toNat_eq
  simpa [bitsOf] using h

theorem of_row {i : Instr} {w : Nat} (hl : w < 2 ^ 32) (hw : w = encodeNat i) (h : decodeRow w = some i) :
    decodeWord (encode i) = i := by
  have e : (encode i).toNat = w := by
    unfold encode
    rw [BitVec.toNat_ofNat, ← hw]
    exact Nat.mod_eq_of_lt hl
  unfold decodeWord
  rw [e, h]
  rfl

/-! ### A word that no row matches -/

theorem holds_field (lo len v w : Nat) : FixedField.holds ⟨lo, len, v⟩ w = decide (fieldOf w lo len = v) := rfl

theorem class0_row (w : Nat) (i : Instr) (h : decodeClass0 w = some i) (hk : fieldOf w 27 5 = 0) :
    (rows0.any fun r => r.all fun f => f.holds w) = true := by
  unfold decodeClass0 at h
  simp only [rows0, List.any, List.all, holds_field, hk]
  split at h <;> simp_all

theorem class1_row (w : Nat) (i : Instr) (h : decodeClass1 w = some i) (hk : fieldOf w 27 5 = 1) :
    (rows1.any fun r => r.all fun f => f.holds w) = true := by
  unfold decodeClass1 at h
  simp only [rows1, List.any, List.all, holds_field, hk]
  split at h <;> simp_all

theorem class2_row (w : Nat) (i : Instr) (h : decodeClass2 w = some i) (hk : fieldOf w 27 5 = 2) :
    (rows2.any fun r => r.all fun f => f.holds w) = true := by
  unfold decodeClass2 at h
  simp only [rows2, List.any, List.all, holds_field, hk]
  split at h <;> simp_all

theorem class3_row (w : Nat) (i : Instr) (h : decodeClass3 w = some i) (hk : fieldOf w 27 5 = 3) :
    (rows3.any fun r => r.all fun f => f.holds w) = true := by
  unfold decodeClass3 at h
  simp only [rows3, List.any, List.all, holds_field, hk]
  split at h <;> simp_all

theorem class4_row (w : Nat) (i : Instr) (h : decodeClass4 w = some i) (hk : fieldOf w 27 5 = 4) :
    (rows4.any fun r => r.all fun f => f.holds w) = true := by
  unfold decodeClass4 at h
  simp only [rows4, List.any, List.all, holds_field, hk]
  split at h <;> simp_all

theorem class5_row (w : Nat) (i : Instr) (h : decodeClass5 w = some i) (hk : fieldOf w 27 5 = 5) :
    (rows5.any fun r => r.all fun f => f.holds w) = true := by
  unfold decodeClass5 at h
  simp only [rows5, List.any, List.all, holds_field, hk]
  split at h <;> simp_all

theorem class6_row (w : Nat) (i : Instr) (h : decodeClass6 w = some i) (hk : fieldOf w 27 5 = 6) :
    (rows6.any fun r => r.all fun f => f.holds w) = true := by
  unfold decodeClass6 at h
  simp only [rows6, List.any, List.all, holds_field, hk]
  split at h <;> simp_all

theorem class7_row (w : Nat) (i : Instr) (h : decodeClass7 w = some i) (hk : fieldOf w 27 5 = 7) :
    (rows7.any fun r => r.all fun f => f.holds w) = true := by
  unfold decodeClass7 at h
  simp only [rows7, List.any, List.all, holds_field, hk]
  split at h <;> simp_all

theorem class8_row (w : Nat) (i : Instr) (h : decodeClass8 w = some i) (hk : fieldOf w 27 5 = 8) :
    (rows8.any fun r => r.all fun f => f.holds w) = true := by
  unfold decodeClass8 at h
  simp only [rows8, List.any, List.all, holds_field, hk]
  split at h <;> simp_all

theorem class9_row (w : Nat) (i : Instr) (h : decodeClass9 w = some i) (hk : fieldOf w 27 5 = 9) :
    (rows9.any fun r => r.all fun f => f.holds w) = true := by
  unfold decodeClass9 at h
  simp only [rows9, List.any, List.all, holds_field, hk]
  split at h <;> simp_all

theorem class10_row (w : Nat) (i : Instr) (h : decodeClass10 w = some i) (hk : fieldOf w 27 5 = 10) :
    (rows10.any fun r => r.all fun f => f.holds w) = true := by
  unfold decodeClass10 at h
  simp only [rows10, List.any, List.all, holds_field, hk]
  split at h <;> simp_all

theorem class11_row (w : Nat) (i : Instr) (h : decodeClass11 w = some i) (hk : fieldOf w 27 5 = 11) :
    (rows11.any fun r => r.all fun f => f.holds w) = true := by
  unfold decodeClass11 at h
  simp only [rows11, List.any, List.all, holds_field, hk]
  split at h <;> simp_all

theorem class12_row (w : Nat) (i : Instr) (h : decodeClass12 w = some i) (hk : fieldOf w 27 5 = 12) :
    (rows12.any fun r => r.all fun f => f.holds w) = true := by
  unfold decodeClass12 at h
  simp only [rows12, List.any, List.all, holds_field, hk]
  split at h <;> simp_all

theorem class13_row (w : Nat) (i : Instr) (h : decodeClass13 w = some i) (hk : fieldOf w 27 5 = 13) :
    (rows13.any fun r => r.all fun f => f.holds w) = true := by
  unfold decodeClass13 at h
  simp only [rows13, List.any, List.all, holds_field, hk]
  split at h <;> simp_all

theorem class14_row (w : Nat) (i : Instr) (h : decodeClass14 w = some i) (hk : fieldOf w 27 5 = 14) :
    (rows14.any fun r => r.all fun f => f.holds w) = true := by
  unfold decodeClass14 at h
  simp only [rows14, List.any, List.all, holds_field, hk]
  split at h <;> simp_all

theorem class15_row (w : Nat) (i : Instr) (h : decodeClass15 w = some i) (hk : fieldOf w 27 5 = 15) :
    (rows15.any fun r => r.all fun f => f.holds w) = true := by
  unfold decodeClass15 at h
  simp only [rows15, List.any, List.all, holds_field, hk]
  split at h <;> simp_all

theorem class16_row (w : Nat) (i : Instr) (h : decodeClass16 w = some i) (hk : fieldOf w 27 5 = 16) :
    (rows16.any fun r => r.all fun f => f.holds w) = true := by
  unfold decodeClass16 at h
  simp only [rows16, List.any, List.all, holds_field, hk]
  split at h <;> simp_all

theorem class17_row (w : Nat) (i : Instr) (h : decodeClass17 w = some i) (hk : fieldOf w 27 5 = 17) :
    (rows17.any fun r => r.all fun f => f.holds w) = true := by
  unfold decodeClass17 at h
  simp only [rows17, List.any, List.all, holds_field, hk]
  split at h <;> simp_all

theorem class18_row (w : Nat) (i : Instr) (h : decodeClass18 w = some i) (hk : fieldOf w 27 5 = 18) :
    (rows18.any fun r => r.all fun f => f.holds w) = true := by
  unfold decodeClass18 at h
  simp only [rows18, List.any, List.all, holds_field, hk]
  split at h <;> simp_all

theorem class19_row (w : Nat) (i : Instr) (h : decodeClass19 w = some i) (hk : fieldOf w 27 5 = 19) :
    (rows19.any fun r => r.all fun f => f.holds w) = true := by
  unfold decodeClass19 at h
  simp only [rows19, List.any, List.all, holds_field, hk]
  split at h <;> simp_all

theorem class20_row (w : Nat) (i : Instr) (h : decodeClass20 w = some i) (hk : fieldOf w 27 5 = 20) :
    (rows20.any fun r => r.all fun f => f.holds w) = true := by
  unfold decodeClass20 at h
  simp only [rows20, List.any, List.all, holds_field, hk]
  split at h <;> simp_all

theorem class21_row (w : Nat) (i : Instr) (h : decodeClass21 w = some i) (hk : fieldOf w 27 5 = 21) :
    (rows21.any fun r => r.all fun f => f.holds w) = true := by
  unfold decodeClass21 at h
  simp only [rows21, List.any, List.all, holds_field, hk]
  split at h <;> simp_all

theorem class22_row (w : Nat) (i : Instr) (h : decodeClass22 w = some i) (hk : fieldOf w 27 5 = 22) :
    (rows22.any fun r => r.all fun f => f.holds w) = true := by
  unfold decodeClass22 at h
  simp only [rows22, List.any, List.all, holds_field, hk]
  split at h <;> simp_all

theorem class23_row (w : Nat) (i : Instr) (h : decodeClass23 w = some i) (hk : fieldOf w 27 5 = 23) :
    (rows23.any fun r => r.all fun f => f.holds w) = true := by
  unfold decodeClass23 at h
  simp only [rows23, List.any, List.all, holds_field, hk]
  split at h <;> simp_all

theorem class24_row (w : Nat) (i : Instr) (h : decodeClass24 w = some i) (hk : fieldOf w 27 5 = 24) :
    (rows24.any fun r => r.all fun f => f.holds w) = true := by
  unfold decodeClass24 at h
  simp only [rows24, List.any, List.all, holds_field, hk]
  split at h <;> simp_all

theorem class25_row (w : Nat) (i : Instr) (h : decodeClass25 w = some i) (hk : fieldOf w 27 5 = 25) :
    (rows25.any fun r => r.all fun f => f.holds w) = true := by
  unfold decodeClass25 at h
  simp only [rows25, List.any, List.all, holds_field, hk]
  split at h <;> simp_all

theorem class26_row (w : Nat) (i : Instr) (h : decodeClass26 w = some i) (hk : fieldOf w 27 5 = 26) :
    (rows26.any fun r => r.all fun f => f.holds w) = true := by
  unfold decodeClass26 at h
  simp only [rows26, List.any, List.all, holds_field, hk]
  split at h <;> simp_all
  by_cases h1 : fieldOf w 0 1 = 0 ∧ fieldOf w 7 1 = 0 <;> simp_all

theorem class27_row (w : Nat) (i : Instr) (h : decodeClass27 w = some i) (hk : fieldOf w 27 5 = 27) :
    (rows27.any fun r => r.all fun f => f.holds w) = true := by
  unfold decodeClass27 at h
  simp only [rows27, List.any, List.all, holds_field, hk]
  split at h <;> simp_all

theorem class28_row (w : Nat) (i : Instr) (h : decodeClass28 w = some i) (hk : fieldOf w 27 5 = 28) :
    (rows28.any fun r => r.all fun f => f.holds w) = true := by
  unfold decodeClass28 at h
  simp only [rows28, List.any, List.all, holds_field, hk]
  split at h <;> simp_all

theorem class29_row (w : Nat) (i : Instr) (h : decodeClass29 w = some i) (hk : fieldOf w 27 5 = 29) :
    (rows29.any fun r => r.all fun f => f.holds w) = true := by
  unfold decodeClass29 at h
  simp only [rows29, List.any, List.all, holds_field, hk]
  split at h <;> simp_all

theorem class31_row (w : Nat) (i : Instr) (h : decodeClass31 w = some i) (hk : fieldOf w 27 5 = 31) :
    (rows31.any fun r => r.all fun f => f.holds w) = true := by
  unfold decodeClass31 at h
  simp only [rows31, List.any, List.all, holds_field, hk]
  split at h <;> simp_all

theorem decodeRow_0 {w : Nat} (h : fieldOf w 27 5 = 0) : decodeRow w = decodeClass0 w := by
  rw [decodeRow, h]
  rfl

theorem decodeRow_1 {w : Nat} (h : fieldOf w 27 5 = 1) : decodeRow w = decodeClass1 w := by
  rw [decodeRow, h]
  rfl

theorem decodeRow_2 {w : Nat} (h : fieldOf w 27 5 = 2) : decodeRow w = decodeClass2 w := by
  rw [decodeRow, h]
  rfl

theorem decodeRow_3 {w : Nat} (h : fieldOf w 27 5 = 3) : decodeRow w = decodeClass3 w := by
  rw [decodeRow, h]
  rfl

theorem decodeRow_4 {w : Nat} (h : fieldOf w 27 5 = 4) : decodeRow w = decodeClass4 w := by
  rw [decodeRow, h]
  rfl

theorem decodeRow_5 {w : Nat} (h : fieldOf w 27 5 = 5) : decodeRow w = decodeClass5 w := by
  rw [decodeRow, h]
  rfl

theorem decodeRow_6 {w : Nat} (h : fieldOf w 27 5 = 6) : decodeRow w = decodeClass6 w := by
  rw [decodeRow, h]
  rfl

theorem decodeRow_7 {w : Nat} (h : fieldOf w 27 5 = 7) : decodeRow w = decodeClass7 w := by
  rw [decodeRow, h]
  rfl

theorem decodeRow_8 {w : Nat} (h : fieldOf w 27 5 = 8) : decodeRow w = decodeClass8 w := by
  rw [decodeRow, h]
  rfl

theorem decodeRow_9 {w : Nat} (h : fieldOf w 27 5 = 9) : decodeRow w = decodeClass9 w := by
  rw [decodeRow, h]
  rfl

theorem decodeRow_10 {w : Nat} (h : fieldOf w 27 5 = 10) : decodeRow w = decodeClass10 w := by
  rw [decodeRow, h]
  rfl

theorem decodeRow_11 {w : Nat} (h : fieldOf w 27 5 = 11) : decodeRow w = decodeClass11 w := by
  rw [decodeRow, h]
  rfl

theorem decodeRow_12 {w : Nat} (h : fieldOf w 27 5 = 12) : decodeRow w = decodeClass12 w := by
  rw [decodeRow, h]
  rfl

theorem decodeRow_13 {w : Nat} (h : fieldOf w 27 5 = 13) : decodeRow w = decodeClass13 w := by
  rw [decodeRow, h]
  rfl

theorem decodeRow_14 {w : Nat} (h : fieldOf w 27 5 = 14) : decodeRow w = decodeClass14 w := by
  rw [decodeRow, h]
  rfl

theorem decodeRow_15 {w : Nat} (h : fieldOf w 27 5 = 15) : decodeRow w = decodeClass15 w := by
  rw [decodeRow, h]
  rfl

theorem decodeRow_16 {w : Nat} (h : fieldOf w 27 5 = 16) : decodeRow w = decodeClass16 w := by
  rw [decodeRow, h]
  rfl

theorem decodeRow_17 {w : Nat} (h : fieldOf w 27 5 = 17) : decodeRow w = decodeClass17 w := by
  rw [decodeRow, h]
  rfl

theorem decodeRow_18 {w : Nat} (h : fieldOf w 27 5 = 18) : decodeRow w = decodeClass18 w := by
  rw [decodeRow, h]
  rfl

theorem decodeRow_19 {w : Nat} (h : fieldOf w 27 5 = 19) : decodeRow w = decodeClass19 w := by
  rw [decodeRow, h]
  rfl

theorem decodeRow_20 {w : Nat} (h : fieldOf w 27 5 = 20) : decodeRow w = decodeClass20 w := by
  rw [decodeRow, h]
  rfl

theorem decodeRow_21 {w : Nat} (h : fieldOf w 27 5 = 21) : decodeRow w = decodeClass21 w := by
  rw [decodeRow, h]
  rfl

theorem decodeRow_22 {w : Nat} (h : fieldOf w 27 5 = 22) : decodeRow w = decodeClass22 w := by
  rw [decodeRow, h]
  rfl

theorem decodeRow_23 {w : Nat} (h : fieldOf w 27 5 = 23) : decodeRow w = decodeClass23 w := by
  rw [decodeRow, h]
  rfl

theorem decodeRow_24 {w : Nat} (h : fieldOf w 27 5 = 24) : decodeRow w = decodeClass24 w := by
  rw [decodeRow, h]
  rfl

theorem decodeRow_25 {w : Nat} (h : fieldOf w 27 5 = 25) : decodeRow w = decodeClass25 w := by
  rw [decodeRow, h]
  rfl

theorem decodeRow_26 {w : Nat} (h : fieldOf w 27 5 = 26) : decodeRow w = decodeClass26 w := by
  rw [decodeRow, h]
  rfl

theorem decodeRow_27 {w : Nat} (h : fieldOf w 27 5 = 27) : decodeRow w = decodeClass27 w := by
  rw [decodeRow, h]
  rfl

theorem decodeRow_28 {w : Nat} (h : fieldOf w 27 5 = 28) : decodeRow w = decodeClass28 w := by
  rw [decodeRow, h]
  rfl

theorem decodeRow_29 {w : Nat} (h : fieldOf w 27 5 = 29) : decodeRow w = decodeClass29 w := by
  rw [decodeRow, h]
  rfl

theorem decodeRow_31 {w : Nat} (h : fieldOf w 27 5 = 31) : decodeRow w = decodeClass31 w := by
  rw [decodeRow, h]
  rfl

/-! ### The layouts of Table 7.1: class, function code, fixed fields and operands -/

theorem layout0 (m k f : Nat) (a : BitVec 3) (b : BitVec 7) (c : BitVec 7) (d : BitVec 7) (hk : k < 32) (hf : f < 2 ^ 3)
    (hm : m = k * 2 ^ 27 + f * 2 ^ 0) :
    ∃ w : Nat, w = put4 m a.toNat 24 b.toNat 17 c.toNat 10 d.toNat 3 ∧ w < 2 ^ 32 ∧ fieldOf w 27 5 = k ∧ fieldOf w 0 3 = f ∧ bitsOf 3 24 w = a ∧ bitsOf 7 17 w = b ∧ bitsOf 7 10 w = c ∧ bitsOf 7 3 w = d := by
  have ha := a.isLt
  have hb := b.isLt
  have hc := c.isLt
  have hd := d.isLt
  obtain ⟨w, hw⟩ : ∃ w : Nat, w = m + a.toNat * 2 ^ 24 + b.toNat * 2 ^ 17 + c.toNat * 2 ^ 10 + d.toNat * 2 ^ 3 := ⟨_, rfl⟩
  refine ⟨w, hw, by omega, by unfold fieldOf; omega, by unfold fieldOf; omega, bitsOf_eq _ (by omega), bitsOf_eq _ (by omega), bitsOf_eq _ (by omega), bitsOf_eq _ (by omega)⟩

theorem layout1 (m k f : Nat) (a : BitVec 3) (b : BitVec 7) (c : BitVec 7) (hk : k < 32) (hf : f < 2 ^ 3)
    (hm : m = k * 2 ^ 27 + f * 2 ^ 0) :
    ∃ w : Nat, w = put3 m a.toNat 24 b.toNat 17 c.toNat 10 ∧ w < 2 ^ 32 ∧ fieldOf w 27 5 = k ∧ fieldOf w 0 3 = f ∧ fieldOf w 3 7 = 0 ∧ bitsOf 3 24 w = a ∧ bitsOf 7 17 w = b ∧ bitsOf 7 10 w = c := by
  have ha := a.isLt
  have hb := b.isLt
  have hc := c.isLt
  obtain ⟨w, hw⟩ : ∃ w : Nat, w = m + a.toNat * 2 ^ 24 + b.toNat * 2 ^ 17 + c.toNat * 2 ^ 10 := ⟨_, rfl⟩
  refine ⟨w, hw, by omega, by unfold fieldOf; omega, by unfold fieldOf; omega, by unfold fieldOf; omega, bitsOf_eq _ (by omega), bitsOf_eq _ (by omega), bitsOf_eq _ (by omega)⟩

theorem layout2 (m k f : Nat) (a : BitVec 3) (b : BitVec 7) (c : BitVec 7) (d : BitVec 5) (e : BitVec 2) (hk : k < 32) (hf : f < 2 ^ 3)
    (hm : m = k * 2 ^ 27 + f * 2 ^ 7) :
    ∃ w : Nat, w = put5 m a.toNat 24 b.toNat 17 c.toNat 10 d.toNat 2 e.toNat 0 ∧ w < 2 ^ 32 ∧ fieldOf w 27 5 = k ∧ fieldOf w 7 3 = f ∧ bitsOf 3 24 w = a ∧ bitsOf 7 17 w = b ∧ bitsOf 7 10 w = c ∧ bitsOf 5 2 w = d ∧ bitsOf 2 0 w = e := by
  have ha := a.isLt
  have hb := b.isLt
  have hc := c.isLt
  have hd := d.isLt
  have he := e.isLt
  obtain ⟨w, hw⟩ : ∃ w : Nat, w = m + a.toNat * 2 ^ 24 + b.toNat * 2 ^ 17 + c.toNat * 2 ^ 10 + d.toNat * 2 ^ 2 + e.toNat * 2 ^ 0 := ⟨_, rfl⟩
  refine ⟨w, hw, by omega, by unfold fieldOf; omega, by unfold fieldOf; omega, bitsOf_eq _ (by omega), bitsOf_eq _ (by omega), bitsOf_eq _ (by omega), bitsOf_eq _ (by omega), bitsOf_eq _ (by omega)⟩

theorem layout3 (m k f : Nat) (a : BitVec 3) (b : BitVec 7) (c : BitVec 7) (d : BitVec 7) (hk : k < 32) (hf : f < 2 ^ 3)
    (hm : m = k * 2 ^ 27 + f * 2 ^ 7) :
    ∃ w : Nat, w = put4 m a.toNat 24 b.toNat 17 c.toNat 10 d.toNat 0 ∧ w < 2 ^ 32 ∧ fieldOf w 27 5 = k ∧ fieldOf w 7 3 = f ∧ bitsOf 3 24 w = a ∧ bitsOf 7 17 w = b ∧ bitsOf 7 10 w = c ∧ bitsOf 7 0 w = d := by
  have ha := a.isLt
  have hb := b.isLt
  have hc := c.isLt
  have hd := d.isLt
  obtain ⟨w, hw⟩ : ∃ w : Nat, w = m + a.toNat * 2 ^ 24 + b.toNat * 2 ^ 17 + c.toNat * 2 ^ 10 + d.toNat * 2 ^ 0 := ⟨_, rfl⟩
  refine ⟨w, hw, by omega, by unfold fieldOf; omega, by unfold fieldOf; omega, bitsOf_eq _ (by omega), bitsOf_eq _ (by omega), bitsOf_eq _ (by omega), bitsOf_eq _ (by omega)⟩

theorem layout4 (m k f : Nat) (a : BitVec 3) (b : BitVec 7) (c : BitVec 7) (d : BitVec 5) (hk : k < 32) (hf : f < 2 ^ 3)
    (hm : m = k * 2 ^ 27 + f * 2 ^ 7) :
    ∃ w : Nat, w = put4 m a.toNat 24 b.toNat 17 c.toNat 10 d.toNat 0 ∧ w < 2 ^ 32 ∧ fieldOf w 27 5 = k ∧ fieldOf w 7 3 = f ∧ fieldOf w 5 2 = 0 ∧ bitsOf 3 24 w = a ∧ bitsOf 7 17 w = b ∧ bitsOf 7 10 w = c ∧ bitsOf 5 0 w = d := by
  have ha := a.isLt
  have hb := b.isLt
  have hc := c.isLt
  have hd := d.isLt
  obtain ⟨w, hw⟩ : ∃ w : Nat, w = m + a.toNat * 2 ^ 24 + b.toNat * 2 ^ 17 + c.toNat * 2 ^ 10 + d.toNat * 2 ^ 0 := ⟨_, rfl⟩
  refine ⟨w, hw, by omega, by unfold fieldOf; omega, by unfold fieldOf; omega, by unfold fieldOf; omega, bitsOf_eq _ (by omega), bitsOf_eq _ (by omega), bitsOf_eq _ (by omega), bitsOf_eq _ (by omega)⟩

theorem layout5 (m k f : Nat) (a : BitVec 7) (b : BitVec 7) (c : BitVec 7) (hk : k < 32) (hf : f < 2 ^ 6)
    (hm : m = k * 2 ^ 27 + f * 2 ^ 0) :
    ∃ w : Nat, w = put3 m a.toNat 20 b.toNat 13 c.toNat 6 ∧ w < 2 ^ 32 ∧ fieldOf w 27 5 = k ∧ fieldOf w 0 6 = f ∧ bitsOf 7 20 w = a ∧ bitsOf 7 13 w = b ∧ bitsOf 7 6 w = c := by
  have ha := a.isLt
  have hb := b.isLt
  have hc := c.isLt
  obtain ⟨w, hw⟩ : ∃ w : Nat, w = m + a.toNat * 2 ^ 20 + b.toNat * 2 ^ 13 + c.toNat * 2 ^ 6 := ⟨_, rfl⟩
  refine ⟨w, hw, by omega, by unfold fieldOf; omega, by unfold fieldOf; omega, bitsOf_eq _ (by omega), bitsOf_eq _ (by omega), bitsOf_eq _ (by omega)⟩

theorem layout6 (m k f : Nat) (a : BitVec 7) (b : BitVec 7) (hk : k < 32) (hf : f < 2 ^ 6)
    (hm : m = k * 2 ^ 27 + f * 2 ^ 0) :
    ∃ w : Nat, w = put2 m a.toNat 20 b.toNat 13 ∧ w < 2 ^ 32 ∧ fieldOf w 27 5 = k ∧ fieldOf w 0 6 = f ∧ fieldOf w 6 7 = 0 ∧ bitsOf 7 20 w = a ∧ bitsOf 7 13 w = b := by
  have ha := a.isLt
  have hb := b.isLt
  obtain ⟨w, hw⟩ : ∃ w : Nat, w = m + a.toNat * 2 ^ 20 + b.toNat * 2 ^ 13 := ⟨_, rfl⟩
  refine ⟨w, hw, by omega, by unfold fieldOf; omega, by unfold fieldOf; omega, by unfold fieldOf; omega, bitsOf_eq _ (by omega), bitsOf_eq _ (by omega)⟩

theorem layout7 (m k f : Nat) (a : BitVec 7) (b : BitVec 7) (c : BitVec 10) (hk : k < 32) (hf : f < 2 ^ 3)
    (hm : m = k * 2 ^ 27 + f * 2 ^ 10) :
    ∃ w : Nat, w = put3 m a.toNat 20 b.toNat 13 c.toNat 0 ∧ w < 2 ^ 32 ∧ fieldOf w 27 5 = k ∧ fieldOf w 10 3 = f ∧ bitsOf 7 20 w = a ∧ bitsOf 7 13 w = b ∧ bitsOf 10 0 w = c := by
  have ha := a.isLt
  have hb := b.isLt
  have hc := c.isLt
  obtain ⟨w, hw⟩ : ∃ w : Nat, w = m + a.toNat * 2 ^ 20 + b.toNat * 2 ^ 13 + c.toNat * 2 ^ 0 := ⟨_, rfl⟩
  refine ⟨w, hw, by omega, by unfold fieldOf; omega, by unfold fieldOf; omega, bitsOf_eq _ (by omega), bitsOf_eq _ (by omega), bitsOf_eq _ (by omega)⟩

theorem layout8 (m k f : Nat) (a : BitVec 7) (b : BitVec 10) (hk : k < 32) (hf : f < 2 ^ 3)
    (hm : m = k * 2 ^ 27 + f * 2 ^ 10) :
    ∃ w : Nat, w = put2 m a.toNat 20 b.toNat 0 ∧ w < 2 ^ 32 ∧ fieldOf w 27 5 = k ∧ fieldOf w 10 3 = f ∧ fieldOf w 13 7 = 0 ∧ bitsOf 7 20 w = a ∧ bitsOf 10 0 w = b := by
  have ha := a.isLt
  have hb := b.isLt
  obtain ⟨w, hw⟩ : ∃ w : Nat, w = m + a.toNat * 2 ^ 20 + b.toNat * 2 ^ 0 := ⟨_, rfl⟩
  refine ⟨w, hw, by omega, by unfold fieldOf; omega, by unfold fieldOf; omega, by unfold fieldOf; omega, bitsOf_eq _ (by omega), bitsOf_eq _ (by omega)⟩

theorem layout9 (m k f : Nat) (a : BitVec 7) (b : BitVec 7) (hk : k < 32) (hf : f < 2 ^ 6)
    (hm : m = k * 2 ^ 27 + f * 2 ^ 0) :
    ∃ w : Nat, w = put2 m a.toNat 20 b.toNat 6 ∧ w < 2 ^ 32 ∧ fieldOf w 27 5 = k ∧ fieldOf w 0 6 = f ∧ fieldOf w 13 7 = 0 ∧ bitsOf 7 20 w = a ∧ bitsOf 7 6 w = b := by
  have ha := a.isLt
  have hb := b.isLt
  obtain ⟨w, hw⟩ : ∃ w : Nat, w = m + a.toNat * 2 ^ 20 + b.toNat * 2 ^ 6 := ⟨_, rfl⟩
  refine ⟨w, hw, by omega, by unfold fieldOf; omega, by unfold fieldOf; omega, by unfold fieldOf; omega, bitsOf_eq _ (by omega), bitsOf_eq _ (by omega)⟩

theorem layout10 (m k f : Nat) (a : BitVec 7) (hk : k < 32) (hf : f < 2 ^ 6)
    (hm : m = k * 2 ^ 27 + f * 2 ^ 0) :
    ∃ w : Nat, w = put1 m a.toNat 13 ∧ w < 2 ^ 32 ∧ fieldOf w 27 5 = k ∧ fieldOf w 0 6 = f ∧ fieldOf w 6 7 = 0 ∧ fieldOf w 20 7 = 0 ∧ bitsOf 7 13 w = a := by
  have ha := a.isLt
  obtain ⟨w, hw⟩ : ∃ w : Nat, w = m + a.toNat * 2 ^ 13 := ⟨_, rfl⟩
  refine ⟨w, hw, by omega, by unfold fieldOf; omega, by unfold fieldOf; omega, by unfold fieldOf; omega, by unfold fieldOf; omega, bitsOf_eq _ (by omega)⟩

theorem layout11 (m k f : Nat) (a : BitVec 20) (hk : k < 32) (hf : f < 2 ^ 3)
    (hm : m = k * 2 ^ 27 + f * 2 ^ 24) :
    ∃ w : Nat, w = put1 m a.toNat 0 ∧ w < 2 ^ 32 ∧ fieldOf w 27 5 = k ∧ fieldOf w 24 3 = f ∧ fieldOf w 20 4 = 0 ∧ bitsOf 20 0 w = a := by
  have ha := a.isLt
  obtain ⟨w, hw⟩ : ∃ w : Nat, w = m + a.toNat * 2 ^ 0 := ⟨_, rfl⟩
  refine ⟨w, hw, by omega, by unfold fieldOf; omega, by unfold fieldOf; omega, by unfold fieldOf; omega, bitsOf_eq _ (by omega)⟩

theorem layout12 (m k f : Nat) (a : BitVec 4) (b : BitVec 20) (hk : k < 32) (hf : f < 2 ^ 3)
    (hm : m = k * 2 ^ 27 + f * 2 ^ 24) :
    ∃ w : Nat, w = put2 m a.toNat 20 b.toNat 0 ∧ w < 2 ^ 32 ∧ fieldOf w 27 5 = k ∧ fieldOf w 24 3 = f ∧ bitsOf 4 20 w = a ∧ bitsOf 20 0 w = b := by
  have ha := a.isLt
  have hb := b.isLt
  obtain ⟨w, hw⟩ : ∃ w : Nat, w = m + a.toNat * 2 ^ 20 + b.toNat * 2 ^ 0 := ⟨_, rfl⟩
  refine ⟨w, hw, by omega, by unfold fieldOf; omega, by unfold fieldOf; omega, bitsOf_eq _ (by omega), bitsOf_eq _ (by omega)⟩

theorem layout13 (m k f : Nat) (a : BitVec 4) (hk : k < 32) (hf : f < 2 ^ 3)
    (hm : m = k * 2 ^ 27 + f * 2 ^ 24) :
    ∃ w : Nat, w = put1 m a.toNat 20 ∧ w < 2 ^ 32 ∧ fieldOf w 27 5 = k ∧ fieldOf w 24 3 = f ∧ fieldOf w 0 20 = 0 ∧ bitsOf 4 20 w = a := by
  have ha := a.isLt
  obtain ⟨w, hw⟩ : ∃ w : Nat, w = m + a.toNat * 2 ^ 20 := ⟨_, rfl⟩
  refine ⟨w, hw, by omega, by unfold fieldOf; omega, by unfold fieldOf; omega, by unfold fieldOf; omega, bitsOf_eq _ (by omega)⟩

theorem layout14 (m k f : Nat) (a : BitVec 7) (hk : k < 32) (hf : f < 2 ^ 3)
    (hm : m = k * 2 ^ 27 + f * 2 ^ 24) :
    ∃ w : Nat, w = put1 m a.toNat 0 ∧ w < 2 ^ 32 ∧ fieldOf w 27 5 = k ∧ fieldOf w 24 3 = f ∧ fieldOf w 7 17 = 0 ∧ bitsOf 7 0 w = a := by
  have ha := a.isLt
  obtain ⟨w, hw⟩ : ∃ w : Nat, w = m + a.toNat * 2 ^ 0 := ⟨_, rfl⟩
  refine ⟨w, hw, by omega, by unfold fieldOf; omega, by unfold fieldOf; omega, by unfold fieldOf; omega, bitsOf_eq _ (by omega)⟩

theorem layout15 (m k f : Nat) (hk : k < 32) (hf : f < 2 ^ 3)
    (hm : m = k * 2 ^ 27 + f * 2 ^ 24) :
    ∃ w : Nat, w = m ∧ w < 2 ^ 32 ∧ fieldOf w 27 5 = k ∧ fieldOf w 24 3 = f ∧ fieldOf w 0 24 = 0 := by
  obtain ⟨w, hw⟩ : ∃ w : Nat, w = m := ⟨_, rfl⟩
  refine ⟨w, hw, by omega, by unfold fieldOf; omega, by unfold fieldOf; omega, by unfold fieldOf; omega⟩

theorem layout16 (m k f : Nat) (a : BitVec 16) (hk : k < 32) (hf : f < 2 ^ 3)
    (hm : m = k * 2 ^ 27 + f * 2 ^ 24) :
    ∃ w : Nat, w = put1 m a.toNat 0 ∧ w < 2 ^ 32 ∧ fieldOf w 27 5 = k ∧ fieldOf w 24 3 = f ∧ fieldOf w 16 8 = 0 ∧ bitsOf 16 0 w = a := by
  have ha := a.isLt
  obtain ⟨w, hw⟩ : ∃ w : Nat, w = m + a.toNat * 2 ^ 0 := ⟨_, rfl⟩
  refine ⟨w, hw, by omega, by unfold fieldOf; omega, by unfold fieldOf; omega, by unfold fieldOf; omega, bitsOf_eq _ (by omega)⟩

theorem layout17 (m k f : Nat) (a : BitVec 3) (b : BitVec 7) (c : BitVec 7) (d : BitVec 5) (hk : k < 32) (hf : f < 2 ^ 5)
    (hm : m = k * 2 ^ 27 + f * 2 ^ 0) :
    ∃ w : Nat, w = put4 m a.toNat 24 b.toNat 17 c.toNat 10 d.toNat 5 ∧ w < 2 ^ 32 ∧ fieldOf w 27 5 = k ∧ fieldOf w 0 5 = f ∧ bitsOf 3 24 w = a ∧ bitsOf 7 17 w = b ∧ bitsOf 7 10 w = c ∧ bitsOf 5 5 w = d := by
  have ha := a.isLt
  have hb := b.isLt
  have hc := c.isLt
  have hd := d.isLt
  obtain ⟨w, hw⟩ : ∃ w : Nat, w = m + a.toNat * 2 ^ 24 + b.toNat * 2 ^ 17 + c.toNat * 2 ^ 10 + d.toNat * 2 ^ 5 := ⟨_, rfl⟩
  refine ⟨w, hw, by omega, by unfold fieldOf; omega, by unfold fieldOf; omega, bitsOf_eq _ (by omega), bitsOf_eq _ (by omega), bitsOf_eq _ (by omega), bitsOf_eq _ (by omega)⟩

theorem layout18 (m k f : Nat) (a : BitVec 7) (b : BitVec 5) (c : BitVec 12) (hk : k < 32) (hf : f < 2 ^ 3)
    (hm : m = k * 2 ^ 27 + f * 2 ^ 12) :
    ∃ w : Nat, w = put3 m a.toNat 20 b.toNat 15 c.toNat 0 ∧ w < 2 ^ 32 ∧ fieldOf w 27 5 = k ∧ fieldOf w 12 3 = f ∧ bitsOf 7 20 w = a ∧ bitsOf 5 15 w = b ∧ bitsOf 12 0 w = c := by
  have ha := a.isLt
  have hb := b.isLt
  have hc := c.isLt
  obtain ⟨w, hw⟩ : ∃ w : Nat, w = m + a.toNat * 2 ^ 20 + b.toNat * 2 ^ 15 + c.toNat * 2 ^ 0 := ⟨_, rfl⟩
  refine ⟨w, hw, by omega, by unfold fieldOf; omega, by unfold fieldOf; omega, bitsOf_eq _ (by omega), bitsOf_eq _ (by omega), bitsOf_eq _ (by omega)⟩

theorem layout19 (m k f : Nat) (a : BitVec 5) (b : BitVec 12) (hk : k < 32) (hf : f < 2 ^ 3)
    (hm : m = k * 2 ^ 27 + f * 2 ^ 12) :
    ∃ w : Nat, w = put2 m a.toNat 15 b.toNat 0 ∧ w < 2 ^ 32 ∧ fieldOf w 27 5 = k ∧ fieldOf w 12 3 = f ∧ fieldOf w 20 7 = 0 ∧ bitsOf 5 15 w = a ∧ bitsOf 12 0 w = b := by
  have ha := a.isLt
  have hb := b.isLt
  obtain ⟨w, hw⟩ : ∃ w : Nat, w = m + a.toNat * 2 ^ 15 + b.toNat * 2 ^ 0 := ⟨_, rfl⟩
  refine ⟨w, hw, by omega, by unfold fieldOf; omega, by unfold fieldOf; omega, by unfold fieldOf; omega, bitsOf_eq _ (by omega), bitsOf_eq _ (by omega)⟩

theorem layout20 (m k f : Nat) (a : BitVec 3) (b : BitVec 5) (c : BitVec 5) (d : BitVec 6) (e : BitVec 5) (hk : k < 32) (hf : f < 2 ^ 3)
    (hm : m = k * 2 ^ 27 + f * 2 ^ 24) :
    ∃ w : Nat, w = put5 m a.toNat 21 b.toNat 16 c.toNat 11 d.toNat 5 e.toNat 0 ∧ w < 2 ^ 32 ∧ fieldOf w 27 5 = k ∧ fieldOf w 24 3 = f ∧ bitsOf 3 21 w = a ∧ bitsOf 5 16 w = b ∧ bitsOf 5 11 w = c ∧ bitsOf 6 5 w = d ∧ bitsOf 5 0 w = e := by
  have ha := a.isLt
  have hb := b.isLt
  have hc := c.isLt
  have hd := d.isLt
  have he := e.isLt
  obtain ⟨w, hw⟩ : ∃ w : Nat, w = m + a.toNat * 2 ^ 21 + b.toNat * 2 ^ 16 + c.toNat * 2 ^ 11 + d.toNat * 2 ^ 5 + e.toNat * 2 ^ 0 := ⟨_, rfl⟩
  refine ⟨w, hw, by omega, by unfold fieldOf; omega, by unfold fieldOf; omega, bitsOf_eq _ (by omega), bitsOf_eq _ (by omega), bitsOf_eq _ (by omega), bitsOf_eq _ (by omega), bitsOf_eq _ (by omega)⟩

theorem layout21 (m k f : Nat) (a : BitVec 3) (b : BitVec 5) (c : BitVec 6) (d : BitVec 5) (hk : k < 32) (hf : f < 2 ^ 3)
    (hm : m = k * 2 ^ 27 + f * 2 ^ 24) :
    ∃ w : Nat, w = put4 m a.toNat 21 b.toNat 11 c.toNat 5 d.toNat 0 ∧ w < 2 ^ 32 ∧ fieldOf w 27 5 = k ∧ fieldOf w 24 3 = f ∧ fieldOf w 16 5 = 0 ∧ bitsOf 3 21 w = a ∧ bitsOf 5 11 w = b ∧ bitsOf 6 5 w = c ∧ bitsOf 5 0 w = d := by
  have ha := a.isLt
  have hb := b.isLt
  have hc := c.isLt
  have hd := d.isLt
  obtain ⟨w, hw⟩ : ∃ w : Nat, w = m + a.toNat * 2 ^ 21 + b.toNat * 2 ^ 11 + c.toNat * 2 ^ 5 + d.toNat * 2 ^ 0 := ⟨_, rfl⟩
  refine ⟨w, hw, by omega, by unfold fieldOf; omega, by unfold fieldOf; omega, by unfold fieldOf; omega, bitsOf_eq _ (by omega), bitsOf_eq _ (by omega), bitsOf_eq _ (by omega), bitsOf_eq _ (by omega)⟩

theorem layout22 (m k f : Nat) (a : BitVec 4) (b : BitVec 5) (c : BitVec 5) (d : BitVec 5) (e : BitVec 5) (hk : k < 32) (hf : f < 2 ^ 3)
    (hm : m = k * 2 ^ 27 + f * 2 ^ 24) :
    ∃ w : Nat, w = put5 m a.toNat 20 b.toNat 15 c.toNat 10 d.toNat 5 e.toNat 0 ∧ w < 2 ^ 32 ∧ fieldOf w 27 5 = k ∧ fieldOf w 24 3 = f ∧ bitsOf 4 20 w = a ∧ bitsOf 5 15 w = b ∧ bitsOf 5 10 w = c ∧ bitsOf 5 5 w = d ∧ bitsOf 5 0 w = e := by
  have ha := a.isLt
  have hb := b.isLt
  have hc := c.isLt
  have hd := d.isLt
  have he := e.isLt
  obtain ⟨w, hw⟩ : ∃ w : Nat, w = m + a.toNat * 2 ^ 20 + b.toNat * 2 ^ 15 + c.toNat * 2 ^ 10 + d.toNat * 2 ^ 5 + e.toNat * 2 ^ 0 := ⟨_, rfl⟩
  refine ⟨w, hw, by omega, by unfold fieldOf; omega, by unfold fieldOf; omega, bitsOf_eq _ (by omega), bitsOf_eq _ (by omega), bitsOf_eq _ (by omega), bitsOf_eq _ (by omega), bitsOf_eq _ (by omega)⟩

theorem layout23 (m k f : Nat) (a : BitVec 4) (b : BitVec 5) (c : BitVec 5) (d : BitVec 5) (hk : k < 32) (hf : f < 2 ^ 3)
    (hm : m = k * 2 ^ 27 + f * 2 ^ 24) :
    ∃ w : Nat, w = put4 m a.toNat 20 b.toNat 15 c.toNat 5 d.toNat 0 ∧ w < 2 ^ 32 ∧ fieldOf w 27 5 = k ∧ fieldOf w 24 3 = f ∧ fieldOf w 10 5 = 0 ∧ bitsOf 4 20 w = a ∧ bitsOf 5 15 w = b ∧ bitsOf 5 5 w = c ∧ bitsOf 5 0 w = d := by
  have ha := a.isLt
  have hb := b.isLt
  have hc := c.isLt
  have hd := d.isLt
  obtain ⟨w, hw⟩ : ∃ w : Nat, w = m + a.toNat * 2 ^ 20 + b.toNat * 2 ^ 15 + c.toNat * 2 ^ 5 + d.toNat * 2 ^ 0 := ⟨_, rfl⟩
  refine ⟨w, hw, by omega, by unfold fieldOf; omega, by unfold fieldOf; omega, by unfold fieldOf; omega, bitsOf_eq _ (by omega), bitsOf_eq _ (by omega), bitsOf_eq _ (by omega), bitsOf_eq _ (by omega)⟩

theorem layout24 (m k f : Nat) (a : BitVec 4) (b : BitVec 5) (hk : k < 32) (hf : f < 2 ^ 3)
    (hm : m = k * 2 ^ 27 + f * 2 ^ 24) :
    ∃ w : Nat, w = put2 m a.toNat 20 b.toNat 15 ∧ w < 2 ^ 32 ∧ fieldOf w 27 5 = k ∧ fieldOf w 24 3 = f ∧ fieldOf w 0 15 = 0 ∧ bitsOf 4 20 w = a ∧ bitsOf 5 15 w = b := by
  have ha := a.isLt
  have hb := b.isLt
  obtain ⟨w, hw⟩ : ∃ w : Nat, w = m + a.toNat * 2 ^ 20 + b.toNat * 2 ^ 15 := ⟨_, rfl⟩
  refine ⟨w, hw, by omega, by unfold fieldOf; omega, by unfold fieldOf; omega, by unfold fieldOf; omega, bitsOf_eq _ (by omega), bitsOf_eq _ (by omega)⟩

theorem layout25 (m k f : Nat) (a : BitVec 4) (b : BitVec 5) (hk : k < 32) (hf : f < 2 ^ 3)
    (hm : m = k * 2 ^ 27 + f * 2 ^ 24) :
    ∃ w : Nat, w = put2 m a.toNat 20 b.toNat 5 ∧ w < 2 ^ 32 ∧ fieldOf w 27 5 = k ∧ fieldOf w 24 3 = f ∧ fieldOf w 0 5 = 0 ∧ fieldOf w 10 10 = 0 ∧ bitsOf 4 20 w = a ∧ bitsOf 5 5 w = b := by
  have ha := a.isLt
  have hb := b.isLt
  obtain ⟨w, hw⟩ : ∃ w : Nat, w = m + a.toNat * 2 ^ 20 + b.toNat * 2 ^ 5 := ⟨_, rfl⟩
  refine ⟨w, hw, by omega, by unfold fieldOf; omega, by unfold fieldOf; omega, by unfold fieldOf; omega, by unfold fieldOf; omega, bitsOf_eq _ (by omega), bitsOf_eq _ (by omega)⟩

theorem layout26 (m k f : Nat) (a : BitVec 7) (b : BitVec 7) (hk : k < 32) (hf : f < 2 ^ 5)
    (hm : m = k * 2 ^ 27 + f * 2 ^ 22) :
    ∃ w : Nat, w = put2 m a.toNat 8 b.toNat 1 ∧ w < 2 ^ 32 ∧ fieldOf w 27 5 = k ∧ fieldOf w 22 5 = f ∧ fieldOf w 0 1 = 0 ∧ fieldOf w 15 7 = 0 ∧ bitsOf 7 8 w = a ∧ bitsOf 7 1 w = b := by
  have ha := a.isLt
  have hb := b.isLt
  obtain ⟨w, hw⟩ : ∃ w : Nat, w = m + a.toNat * 2 ^ 8 + b.toNat * 2 ^ 1 := ⟨_, rfl⟩
  refine ⟨w, hw, by omega, by unfold fieldOf; omega, by unfold fieldOf; omega, by unfold fieldOf; omega, by unfold fieldOf; omega, bitsOf_eq _ (by omega), bitsOf_eq _ (by omega)⟩

theorem layout27 (m k f : Nat) (a : BitVec 7) (b : BitVec 7) (c : BitVec 7) (hk : k < 32) (hf : f < 2 ^ 5)
    (hm : m = k * 2 ^ 27 + f * 2 ^ 22) :
    ∃ w : Nat, w = put3 m a.toNat 15 b.toNat 8 c.toNat 1 ∧ w < 2 ^ 32 ∧ fieldOf w 27 5 = k ∧ fieldOf w 22 5 = f ∧ fieldOf w 0 1 = 0 ∧ bitsOf 7 15 w = a ∧ bitsOf 7 8 w = b ∧ bitsOf 7 1 w = c := by
  have ha := a.isLt
  have hb := b.isLt
  have hc := c.isLt
  obtain ⟨w, hw⟩ : ∃ w : Nat, w = m + a.toNat * 2 ^ 15 + b.toNat * 2 ^ 8 + c.toNat * 2 ^ 1 := ⟨_, rfl⟩
  refine ⟨w, hw, by omega, by unfold fieldOf; omega, by unfold fieldOf; omega, by unfold fieldOf; omega, bitsOf_eq _ (by omega), bitsOf_eq _ (by omega), bitsOf_eq _ (by omega)⟩

theorem layout28 (m k f : Nat) (a : BitVec 7) (b : BitVec 7) (hk : k < 32) (hf : f < 2 ^ 5)
    (hm : m = k * 2 ^ 27 + f * 2 ^ 22) :
    ∃ w : Nat, w = put2 m a.toNat 15 b.toNat 8 ∧ w < 2 ^ 32 ∧ fieldOf w 27 5 = k ∧ fieldOf w 22 5 = f ∧ fieldOf w 0 8 = 0 ∧ bitsOf 7 15 w = a ∧ bitsOf 7 8 w = b := by
  have ha := a.isLt
  have hb := b.isLt
  obtain ⟨w, hw⟩ : ∃ w : Nat, w = m + a.toNat * 2 ^ 15 + b.toNat * 2 ^ 8 := ⟨_, rfl⟩
  refine ⟨w, hw, by omega, by unfold fieldOf; omega, by unfold fieldOf; omega, by unfold fieldOf; omega, bitsOf_eq _ (by omega), bitsOf_eq _ (by omega)⟩

theorem layout29 (m k f : Nat) (a : BitVec 7) (b : BitVec 7) (c : BitVec 6) (hk : k < 32) (hf : f < 2 ^ 5)
    (hm : m = k * 2 ^ 27 + f * 2 ^ 22) :
    ∃ w : Nat, w = put3 m a.toNat 15 b.toNat 8 c.toNat 1 ∧ w < 2 ^ 32 ∧ fieldOf w 27 5 = k ∧ fieldOf w 22 5 = f ∧ fieldOf w 0 1 = 0 ∧ fieldOf w 7 1 = 0 ∧ bitsOf 7 15 w = a ∧ bitsOf 7 8 w = b ∧ bitsOf 6 1 w = c := by
  have ha := a.isLt
  have hb := b.isLt
  have hc := c.isLt
  obtain ⟨w, hw⟩ : ∃ w : Nat, w = m + a.toNat * 2 ^ 15 + b.toNat * 2 ^ 8 + c.toNat * 2 ^ 1 := ⟨_, rfl⟩
  refine ⟨w, hw, by omega, by unfold fieldOf; omega, by unfold fieldOf; omega, by unfold fieldOf; omega, by unfold fieldOf; omega, bitsOf_eq _ (by omega), bitsOf_eq _ (by omega), bitsOf_eq _ (by omega)⟩

theorem layout30 (m k f : Nat) (a : BitVec 7) (b : BitVec 7) (c : BitVec 6) (hk : k < 32) (hf : f < 2 ^ 5)
    (hm : m = k * 2 ^ 27 + f * 2 ^ 22 + 1 * 2 ^ 7) :
    ∃ w : Nat, w = put3 m a.toNat 15 b.toNat 8 c.toNat 1 ∧ w < 2 ^ 32 ∧ fieldOf w 27 5 = k ∧ fieldOf w 22 5 = f ∧ fieldOf w 0 1 = 0 ∧ fieldOf w 7 1 = 1 ∧ bitsOf 7 15 w = a ∧ bitsOf 7 8 w = b ∧ bitsOf 6 1 w = c := by
  have ha := a.isLt
  have hb := b.isLt
  have hc := c.isLt
  obtain ⟨w, hw⟩ : ∃ w : Nat, w = m + a.toNat * 2 ^ 15 + b.toNat * 2 ^ 8 + c.toNat * 2 ^ 1 := ⟨_, rfl⟩
  refine ⟨w, hw, by omega, by unfold fieldOf; omega, by unfold fieldOf; omega, by unfold fieldOf; omega, by unfold fieldOf; omega, bitsOf_eq _ (by omega), bitsOf_eq _ (by omega), bitsOf_eq _ (by omega)⟩

theorem layout31 (m k f : Nat) (a : BitVec 5) (b : BitVec 5) (c : BitVec 5) (d : BitVec 5) (hk : k < 32) (hf : f < 2 ^ 5)
    (hm : m = k * 2 ^ 27 + f * 2 ^ 22) :
    ∃ w : Nat, w = put4 m a.toNat 17 b.toNat 12 c.toNat 7 d.toNat 2 ∧ w < 2 ^ 32 ∧ fieldOf w 27 5 = k ∧ fieldOf w 22 5 = f ∧ fieldOf w 0 2 = 0 ∧ bitsOf 5 17 w = a ∧ bitsOf 5 12 w = b ∧ bitsOf 5 7 w = c ∧ bitsOf 5 2 w = d := by
  have ha := a.isLt
  have hb := b.isLt
  have hc := c.isLt
  have hd := d.isLt
  obtain ⟨w, hw⟩ : ∃ w : Nat, w = m + a.toNat * 2 ^ 17 + b.toNat * 2 ^ 12 + c.toNat * 2 ^ 7 + d.toNat * 2 ^ 2 := ⟨_, rfl⟩
  refine ⟨w, hw, by omega, by unfold fieldOf; omega, by unfold fieldOf; omega, by unfold fieldOf; omega, bitsOf_eq _ (by omega), bitsOf_eq _ (by omega), bitsOf_eq _ (by omega), bitsOf_eq _ (by omega)⟩

theorem layout32 (m k f : Nat) (hk : k < 32) (hf : f < 2 ^ 5)
    (hm : m = k * 2 ^ 27 + f * 2 ^ 22) :
    ∃ w : Nat, w = m ∧ w < 2 ^ 32 ∧ fieldOf w 27 5 = k ∧ fieldOf w 22 5 = f ∧ fieldOf w 0 22 = 0 := by
  obtain ⟨w, hw⟩ : ∃ w : Nat, w = m := ⟨_, rfl⟩
  refine ⟨w, hw, by omega, by unfold fieldOf; omega, by unfold fieldOf; omega, by unfold fieldOf; omega⟩

theorem layout33 (m k f : Nat) (a : BitVec 7) (hk : k < 32) (hf : f < 2 ^ 5)
    (hm : m = k * 2 ^ 27 + f * 2 ^ 22) :
    ∃ w : Nat, w = put1 m a.toNat 15 ∧ w < 2 ^ 32 ∧ fieldOf w 27 5 = k ∧ fieldOf w 22 5 = f ∧ fieldOf w 0 15 = 0 ∧ bitsOf 7 15 w = a := by
  have ha := a.isLt
  obtain ⟨w, hw⟩ : ∃ w : Nat, w = m + a.toNat * 2 ^ 15 := ⟨_, rfl⟩
  refine ⟨w, hw, by omega, by unfold fieldOf; omega, by unfold fieldOf; omega, by unfold fieldOf; omega, bitsOf_eq _ (by omega)⟩

theorem layout34 (m k f : Nat) (a : BitVec 24) (hk : k < 32) (hf : f < 2 ^ 3)
    (hm : m = k * 2 ^ 27 + f * 2 ^ 24) :
    ∃ w : Nat, w = put1 m a.toNat 0 ∧ w < 2 ^ 32 ∧ fieldOf w 27 5 = k ∧ fieldOf w 24 3 = f ∧ bitsOf 24 0 w = a := by
  have ha := a.isLt
  obtain ⟨w, hw⟩ : ∃ w : Nat, w = m + a.toNat * 2 ^ 0 := ⟨_, rfl⟩
  refine ⟨w, hw, by omega, by unfold fieldOf; omega, by unfold fieldOf; omega, bitsOf_eq _ (by omega)⟩

theorem layout35 (m k f : Nat) (a : BitVec 18) (hk : k < 32) (hf : f < 2 ^ 3)
    (hm : m = k * 2 ^ 27 + f * 2 ^ 24) :
    ∃ w : Nat, w = put1 m a.toNat 6 ∧ w < 2 ^ 32 ∧ fieldOf w 27 5 = k ∧ fieldOf w 24 3 = f ∧ fieldOf w 0 6 = 0 ∧ bitsOf 18 6 w = a := by
  have ha := a.isLt
  obtain ⟨w, hw⟩ : ∃ w : Nat, w = m + a.toNat * 2 ^ 6 := ⟨_, rfl⟩
  refine ⟨w, hw, by omega, by unfold fieldOf; omega, by unfold fieldOf; omega, by unfold fieldOf; omega, bitsOf_eq _ (by omega)⟩

theorem layout36 (m k f : Nat) (a : BitVec 1) (b : BitVec 4) (hk : k < 32) (hf : f < 2 ^ 3)
    (hm : m = k * 2 ^ 27 + f * 2 ^ 24) :
    ∃ w : Nat, w = put2 m a.toNat 4 b.toNat 0 ∧ w < 2 ^ 32 ∧ fieldOf w 27 5 = k ∧ fieldOf w 24 3 = f ∧ fieldOf w 5 19 = 0 ∧ bitsOf 1 4 w = a ∧ bitsOf 4 0 w = b := by
  have ha := a.isLt
  have hb := b.isLt
  obtain ⟨w, hw⟩ : ∃ w : Nat, w = m + a.toNat * 2 ^ 4 + b.toNat * 2 ^ 0 := ⟨_, rfl⟩
  refine ⟨w, hw, by omega, by unfold fieldOf; omega, by unfold fieldOf; omega, by unfold fieldOf; omega, bitsOf_eq _ (by omega), bitsOf_eq _ (by omega)⟩

/-! ### The instructions -/

theorem vaddI32 (g : BitVec 3) (d : BitVec 7) (a : BitVec 7) (b : BitVec 7) : Statement (.vaddI32 g d a b) := by
  intro _
  obtain ⟨w, hw, hl, k0, k1, b0, b1, b2, b3⟩ := layout0 0x0 0 0 g d a b (by decide) (by decide) rfl
  refine of_row hl hw ?_
  rw [decodeRow_0 k0, decodeClass0, k1]
  refine congrArg some ?_
  rw [b0, b1, b2, b3]

theorem vsubI32 (g : BitVec 3) (d : BitVec 7) (a : BitVec 7) (b : BitVec 7) : Statement (.vsubI32 g d a b) := by
  intro _
  obtain ⟨w, hw, hl, k0, k1, b0, b1, b2, b3⟩ := layout0 0x1 0 1 g d a b (by decide) (by decide) rfl
  refine of_row hl hw ?_
  rw [decodeRow_0 k0, decodeClass0, k1]
  refine congrArg some ?_
  rw [b0, b1, b2, b3]

theorem vmulloI32 (g : BitVec 3) (d : BitVec 7) (a : BitVec 7) (b : BitVec 7) : Statement (.vmulloI32 g d a b) := by
  intro _
  obtain ⟨w, hw, hl, k0, k1, b0, b1, b2, b3⟩ := layout0 0x2 0 2 g d a b (by decide) (by decide) rfl
  refine of_row hl hw ?_
  rw [decodeRow_0 k0, decodeClass0, k1]
  refine congrArg some ?_
  rw [b0, b1, b2, b3]

theorem vmulhiI32 (g : BitVec 3) (d : BitVec 7) (a : BitVec 7) (b : BitVec 7) : Statement (.vmulhiI32 g d a b) := by
  intro _
  obtain ⟨w, hw, hl, k0, k1, b0, b1, b2, b3⟩ := layout0 0x3 0 3 g d a b (by decide) (by decide) rfl
  refine of_row hl hw ?_
  rw [decodeRow_0 k0, decodeClass0, k1]
  refine congrArg some ?_
  rw [b0, b1, b2, b3]

theorem vmulhiN32 (g : BitVec 3) (d : BitVec 7) (a : BitVec 7) (b : BitVec 7) : Statement (.vmulhiN32 g d a b) := by
  intro _
  obtain ⟨w, hw, hl, k0, k1, b0, b1, b2, b3⟩ := layout0 0x4 0 4 g d a b (by decide) (by decide) rfl
  refine of_row hl hw ?_
  rw [decodeRow_0 k0, decodeClass0, k1]
  refine congrArg some ?_
  rw [b0, b1, b2, b3]

theorem vmadI32 (g : BitVec 3) (d : BitVec 7) (a : BitVec 7) (b : BitVec 7) : Statement (.vmadI32 g d a b) := by
  intro _
  obtain ⟨w, hw, hl, k0, k1, b0, b1, b2, b3⟩ := layout0 0x5 0 5 g d a b (by decide) (by decide) rfl
  refine of_row hl hw ?_
  rw [decodeRow_0 k0, decodeClass0, k1]
  refine congrArg some ?_
  rw [b0, b1, b2, b3]

theorem vminI32 (g : BitVec 3) (d : BitVec 7) (a : BitVec 7) (b : BitVec 7) : Statement (.vminI32 g d a b) := by
  intro _
  obtain ⟨w, hw, hl, k0, k1, b0, b1, b2, b3⟩ := layout0 0x6 0 6 g d a b (by decide) (by decide) rfl
  refine of_row hl hw ?_
  rw [decodeRow_0 k0, decodeClass0, k1]
  refine congrArg some ?_
  rw [b0, b1, b2, b3]

theorem vminN32 (g : BitVec 3) (d : BitVec 7) (a : BitVec 7) (b : BitVec 7) : Statement (.vminN32 g d a b) := by
  intro _
  obtain ⟨w, hw, hl, k0, k1, b0, b1, b2, b3⟩ := layout0 0x7 0 7 g d a b (by decide) (by decide) rfl
  refine of_row hl hw ?_
  rw [decodeRow_0 k0, decodeClass0, k1]
  refine congrArg some ?_
  rw [b0, b1, b2, b3]

theorem vmaxI32 (g : BitVec 3) (d : BitVec 7) (a : BitVec 7) (b : BitVec 7) : Statement (.vmaxI32 g d a b) := by
  intro _
  obtain ⟨w, hw, hl, k0, k1, b0, b1, b2, b3⟩ := layout0 0x8000000 1 0 g d a b (by decide) (by decide) rfl
  refine of_row hl hw ?_
  rw [decodeRow_1 k0, decodeClass1, k1]
  refine congrArg some ?_
  rw [b0, b1, b2, b3]

theorem vmaxN32 (g : BitVec 3) (d : BitVec 7) (a : BitVec 7) (b : BitVec 7) : Statement (.vmaxN32 g d a b) := by
  intro _
  obtain ⟨w, hw, hl, k0, k1, b0, b1, b2, b3⟩ := layout0 0x8000001 1 1 g d a b (by decide) (by decide) rfl
  refine of_row hl hw ?_
  rw [decodeRow_1 k0, decodeClass1, k1]
  refine congrArg some ?_
  rw [b0, b1, b2, b3]

theorem vabsdI32 (g : BitVec 3) (d : BitVec 7) (a : BitVec 7) (b : BitVec 7) : Statement (.vabsdI32 g d a b) := by
  intro _
  obtain ⟨w, hw, hl, k0, k1, b0, b1, b2, b3⟩ := layout0 0x8000002 1 2 g d a b (by decide) (by decide) rfl
  refine of_row hl hw ?_
  rw [decodeRow_1 k0, decodeClass1, k1]
  refine congrArg some ?_
  rw [b0, b1, b2, b3]

theorem vabsdN32 (g : BitVec 3) (d : BitVec 7) (a : BitVec 7) (b : BitVec 7) : Statement (.vabsdN32 g d a b) := by
  intro _
  obtain ⟨w, hw, hl, k0, k1, b0, b1, b2, b3⟩ := layout0 0x8000003 1 3 g d a b (by decide) (by decide) rfl
  refine of_row hl hw ?_
  rw [decodeRow_1 k0, decodeClass1, k1]
  refine congrArg some ?_
  rw [b0, b1, b2, b3]

theorem vaddsI32 (g : BitVec 3) (d : BitVec 7) (a : BitVec 7) (b : BitVec 7) : Statement (.vaddsI32 g d a b) := by
  intro _
  obtain ⟨w, hw, hl, k0, k1, b0, b1, b2, b3⟩ := layout0 0x8000004 1 4 g d a b (by decide) (by decide) rfl
  refine of_row hl hw ?_
  rw [decodeRow_1 k0, decodeClass1, k1]
  refine congrArg some ?_
  rw [b0, b1, b2, b3]

theorem vsubsI32 (g : BitVec 3) (d : BitVec 7) (a : BitVec 7) (b : BitVec 7) : Statement (.vsubsI32 g d a b) := by
  intro _
  obtain ⟨w, hw, hl, k0, k1, b0, b1, b2, b3⟩ := layout0 0x8000005 1 5 g d a b (by decide) (by decide) rfl
  refine of_row hl hw ?_
  rw [decodeRow_1 k0, decodeClass1, k1]
  refine congrArg some ?_
  rw [b0, b1, b2, b3]

theorem vaddsN32 (g : BitVec 3) (d : BitVec 7) (a : BitVec 7) (b : BitVec 7) : Statement (.vaddsN32 g d a b) := by
  intro _
  obtain ⟨w, hw, hl, k0, k1, b0, b1, b2, b3⟩ := layout0 0x8000006 1 6 g d a b (by decide) (by decide) rfl
  refine of_row hl hw ?_
  rw [decodeRow_1 k0, decodeClass1, k1]
  refine congrArg some ?_
  rw [b0, b1, b2, b3]

theorem vsubsN32 (g : BitVec 3) (d : BitVec 7) (a : BitVec 7) (b : BitVec 7) : Statement (.vsubsN32 g d a b) := by
  intro _
  obtain ⟨w, hw, hl, k0, k1, b0, b1, b2, b3⟩ := layout0 0x8000007 1 7 g d a b (by decide) (by decide) rfl
  refine of_row hl hw ?_
  rw [decodeRow_1 k0, decodeClass1, k1]
  refine congrArg some ?_
  rw [b0, b1, b2, b3]

theorem vand (g : BitVec 3) (d : BitVec 7) (a : BitVec 7) (b : BitVec 7) : Statement (.vand g d a b) := by
  intro _
  obtain ⟨w, hw, hl, k0, k1, b0, b1, b2, b3⟩ := layout0 0x10000000 2 0 g d a b (by decide) (by decide) rfl
  refine of_row hl hw ?_
  rw [decodeRow_2 k0, decodeClass2, k1]
  refine congrArg some ?_
  rw [b0, b1, b2, b3]

theorem vor (g : BitVec 3) (d : BitVec 7) (a : BitVec 7) (b : BitVec 7) : Statement (.vor g d a b) := by
  intro _
  obtain ⟨w, hw, hl, k0, k1, b0, b1, b2, b3⟩ := layout0 0x10000001 2 1 g d a b (by decide) (by decide) rfl
  refine of_row hl hw ?_
  rw [decodeRow_2 k0, decodeClass2, k1]
  refine congrArg some ?_
  rw [b0, b1, b2, b3]

theorem vxor (g : BitVec 3) (d : BitVec 7) (a : BitVec 7) (b : BitVec 7) : Statement (.vxor g d a b) := by
  intro _
  obtain ⟨w, hw, hl, k0, k1, b0, b1, b2, b3⟩ := layout0 0x10000002 2 2 g d a b (by decide) (by decide) rfl
  refine of_row hl hw ?_
  rw [decodeRow_2 k0, decodeClass2, k1]
  refine congrArg some ?_
  rw [b0, b1, b2, b3]

theorem vandn (g : BitVec 3) (d : BitVec 7) (a : BitVec 7) (b : BitVec 7) : Statement (.vandn g d a b) := by
  intro _
  obtain ⟨w, hw, hl, k0, k1, b0, b1, b2, b3⟩ := layout0 0x10000003 2 3 g d a b (by decide) (by decide) rfl
  refine of_row hl hw ?_
  rw [decodeRow_2 k0, decodeClass2, k1]
  refine congrArg some ?_
  rw [b0, b1, b2, b3]

theorem vshl (g : BitVec 3) (d : BitVec 7) (a : BitVec 7) (b : BitVec 7) : Statement (.vshl g d a b) := by
  intro _
  obtain ⟨w, hw, hl, k0, k1, b0, b1, b2, b3⟩ := layout0 0x10000004 2 4 g d a b (by decide) (by decide) rfl
  refine of_row hl hw ?_
  rw [decodeRow_2 k0, decodeClass2, k1]
  refine congrArg some ?_
  rw [b0, b1, b2, b3]

theorem vshrN32 (g : BitVec 3) (d : BitVec 7) (a : BitVec 7) (b : BitVec 7) : Statement (.vshrN32 g d a b) := by
  intro _
  obtain ⟨w, hw, hl, k0, k1, b0, b1, b2, b3⟩ := layout0 0x10000005 2 5 g d a b (by decide) (by decide) rfl
  refine of_row hl hw ?_
  rw [decodeRow_2 k0, decodeClass2, k1]
  refine congrArg some ?_
  rw [b0, b1, b2, b3]

theorem vshrI32 (g : BitVec 3) (d : BitVec 7) (a : BitVec 7) (b : BitVec 7) : Statement (.vshrI32 g d a b) := by
  intro _
  obtain ⟨w, hw, hl, k0, k1, b0, b1, b2, b3⟩ := layout0 0x10000006 2 6 g d a b (by decide) (by decide) rfl
  refine of_row hl hw ?_
  rw [decodeRow_2 k0, decodeClass2, k1]
  refine congrArg some ?_
  rw [b0, b1, b2, b3]

theorem vrotl (g : BitVec 3) (d : BitVec 7) (a : BitVec 7) (b : BitVec 7) : Statement (.vrotl g d a b) := by
  intro _
  obtain ⟨w, hw, hl, k0, k1, b0, b1, b2, b3⟩ := layout0 0x10000007 2 7 g d a b (by decide) (by decide) rfl
  refine of_row hl hw ?_
  rw [decodeRow_2 k0, decodeClass2, k1]
  refine congrArg some ?_
  rw [b0, b1, b2, b3]

theorem vpopc (g : BitVec 3) (d : BitVec 7) (a : BitVec 7) : Statement (.vpopc g d a) := by
  intro _
  obtain ⟨w, hw, hl, k0, k1, c0, b0, b1, b2⟩ := layout1 0x18000000 3 0 g d a (by decide) (by decide) rfl
  refine of_row hl hw ?_
  rw [decodeRow_3 k0, decodeClass3, k1]
  refine (if_pos c0).trans ?_
  refine congrArg some ?_
  rw [b0, b1, b2]

theorem vclz (g : BitVec 3) (d : BitVec 7) (a : BitVec 7) : Statement (.vclz g d a) := by
  intro _
  obtain ⟨w, hw, hl, k0, k1, c0, b0, b1, b2⟩ := layout1 0x18000001 3 1 g d a (by decide) (by decide) rfl
  refine of_row hl hw ?_
  rw [decodeRow_3 k0, decodeClass3, k1]
  refine (if_pos c0).trans ?_
  refine congrArg some ?_
  rw [b0, b1, b2]

theorem vbrev (g : BitVec 3) (d : BitVec 7) (a : BitVec 7) : Statement (.vbrev g d a) := by
  intro _
  obtain ⟨w, hw, hl, k0, k1, c0, b0, b1, b2⟩ := layout1 0x18000002 3 2 g d a (by decide) (by decide) rfl
  refine of_row hl hw ?_
  rw [decodeRow_3 k0, decodeClass3, k1]
  refine (if_pos c0).trans ?_
  refine congrArg some ?_
  rw [b0, b1, b2]

theorem vbfeN32 (g : BitVec 3) (d : BitVec 7) (a : BitVec 7) (b : BitVec 7) : Statement (.vbfeN32 g d a b) := by
  intro _
  obtain ⟨w, hw, hl, k0, k1, b0, b1, b2, b3⟩ := layout0 0x18000003 3 3 g d a b (by decide) (by decide) rfl
  refine of_row hl hw ?_
  rw [decodeRow_3 k0, decodeClass3, k1]
  refine congrArg some ?_
  rw [b0, b1, b2, b3]

theorem vbfeI32 (g : BitVec 3) (d : BitVec 7) (a : BitVec 7) (b : BitVec 7) : Statement (.vbfeI32 g d a b) := by
  intro _
  obtain ⟨w, hw, hl, k0, k1, b0, b1, b2, b3⟩ := layout0 0x18000004 3 4 g d a b (by decide) (by decide) rfl
  refine of_row hl hw ?_
  rw [decodeRow_3 k0, decodeClass3, k1]
  refine congrArg some ?_
  rw [b0, b1, b2, b3]

theorem vbfi (g : BitVec 3) (d : BitVec 7) (a : BitVec 7) (b : BitVec 7) : Statement (.vbfi g d a b) := by
  intro _
  obtain ⟨w, hw, hl, k0, k1, b0, b1, b2, b3⟩ := layout0 0x18000005 3 5 g d a b (by decide) (by decide) rfl
  refine of_row hl hw ?_
  rw [decodeRow_3 k0, decodeClass3, k1]
  refine congrArg some ?_
  rw [b0, b1, b2, b3]

theorem vsel (g : BitVec 3) (d : BitVec 7) (a : BitVec 7) (b : BitVec 7) : Statement (.vsel g d a b) := by
  intro _
  obtain ⟨w, hw, hl, k0, k1, b0, b1, b2, b3⟩ := layout0 0x18000006 3 6 g d a b (by decide) (by decide) rfl
  refine of_row hl hw ?_
  rw [decodeRow_3 k0, decodeClass3, k1]
  refine congrArg some ?_
  rw [b0, b1, b2, b3]

theorem vmov (g : BitVec 3) (d : BitVec 7) (a : BitVec 7) : Statement (.vmov g d a) := by
  intro _
  obtain ⟨w, hw, hl, k0, k1, c0, b0, b1, b2⟩ := layout1 0x18000007 3 7 g d a (by decide) (by decide) rfl
  refine of_row hl hw ?_
  rw [decodeRow_3 k0, decodeClass3, k1]
  refine (if_pos c0).trans ?_
  refine congrArg some ?_
  rw [b0, b1, b2]

theorem vfaddF32 (g : BitVec 3) (d : BitVec 7) (a : BitVec 7) (b : BitVec 7) : Statement (.vfaddF32 g d a b) := by
  intro _
  obtain ⟨w, hw, hl, k0, k1, b0, b1, b2, b3⟩ := layout0 0x20000000 4 0 g d a b (by decide) (by decide) rfl
  refine of_row hl hw ?_
  rw [decodeRow_4 k0, decodeClass4, k1]
  refine congrArg some ?_
  rw [b0, b1, b2, b3]

theorem vfsubF32 (g : BitVec 3) (d : BitVec 7) (a : BitVec 7) (b : BitVec 7) : Statement (.vfsubF32 g d a b) := by
  intro _
  obtain ⟨w, hw, hl, k0, k1, b0, b1, b2, b3⟩ := layout0 0x20000001 4 1 g d a b (by decide) (by decide) rfl
  refine of_row hl hw ?_
  rw [decodeRow_4 k0, decodeClass4, k1]
  refine congrArg some ?_
  rw [b0, b1, b2, b3]

theorem vfmulF32 (g : BitVec 3) (d : BitVec 7) (a : BitVec 7) (b : BitVec 7) : Statement (.vfmulF32 g d a b) := by
  intro _
  obtain ⟨w, hw, hl, k0, k1, b0, b1, b2, b3⟩ := layout0 0x20000002 4 2 g d a b (by decide) (by decide) rfl
  refine of_row hl hw ?_
  rw [decodeRow_4 k0, decodeClass4, k1]
  refine congrArg some ?_
  rw [b0, b1, b2, b3]

theorem vfmaF32 (g : BitVec 3) (d : BitVec 7) (a : BitVec 7) (b : BitVec 7) : Statement (.vfmaF32 g d a b) := by
  intro _
  obtain ⟨w, hw, hl, k0, k1, b0, b1, b2, b3⟩ := layout0 0x20000003 4 3 g d a b (by decide) (by decide) rfl
  refine of_row hl hw ?_
  rw [decodeRow_4 k0, decodeClass4, k1]
  refine congrArg some ?_
  rw [b0, b1, b2, b3]

theorem vfminF32 (g : BitVec 3) (d : BitVec 7) (a : BitVec 7) (b : BitVec 7) : Statement (.vfminF32 g d a b) := by
  intro _
  obtain ⟨w, hw, hl, k0, k1, b0, b1, b2, b3⟩ := layout0 0x20000004 4 4 g d a b (by decide) (by decide) rfl
  refine of_row hl hw ?_
  rw [decodeRow_4 k0, decodeClass4, k1]
  refine congrArg some ?_
  rw [b0, b1, b2, b3]

theorem vfmaxF32 (g : BitVec 3) (d : BitVec 7) (a : BitVec 7) (b : BitVec 7) : Statement (.vfmaxF32 g d a b) := by
  intro _
  obtain ⟨w, hw, hl, k0, k1, b0, b1, b2, b3⟩ := layout0 0x20000005 4 5 g d a b (by decide) (by decide) rfl
  refine of_row hl hw ?_
  rw [decodeRow_4 k0, decodeClass4, k1]
  refine congrArg some ?_
  rw [b0, b1, b2, b3]

theorem vfsgnF32 (g : BitVec 3) (d : BitVec 7) (a : BitVec 7) (b : BitVec 7) : Statement (.vfsgnF32 g d a b) := by
  intro _
  obtain ⟨w, hw, hl, k0, k1, b0, b1, b2, b3⟩ := layout0 0x20000006 4 6 g d a b (by decide) (by decide) rfl
  refine of_row hl hw ?_
  rw [decodeRow_4 k0, decodeClass4, k1]
  refine congrArg some ?_
  rw [b0, b1, b2, b3]

theorem vfscaleF32 (g : BitVec 3) (d : BitVec 7) (a : BitVec 7) (b : BitVec 7) : Statement (.vfscaleF32 g d a b) := by
  intro _
  obtain ⟨w, hw, hl, k0, k1, b0, b1, b2, b3⟩ := layout0 0x20000007 4 7 g d a b (by decide) (by decide) rfl
  refine of_row hl hw ?_
  rw [decodeRow_4 k0, decodeClass4, k1]
  refine congrArg some ?_
  rw [b0, b1, b2, b3]

theorem vhaddF16x2 (g : BitVec 3) (d : BitVec 7) (a : BitVec 7) (b : BitVec 7) : Statement (.vhaddF16x2 g d a b) := by
  intro _
  obtain ⟨w, hw, hl, k0, k1, b0, b1, b2, b3⟩ := layout0 0x28000000 5 0 g d a b (by decide) (by decide) rfl
  refine of_row hl hw ?_
  rw [decodeRow_5 k0, decodeClass5, k1]
  refine congrArg some ?_
  rw [b0, b1, b2, b3]

theorem vhmulF16x2 (g : BitVec 3) (d : BitVec 7) (a : BitVec 7) (b : BitVec 7) : Statement (.vhmulF16x2 g d a b) := by
  intro _
  obtain ⟨w, hw, hl, k0, k1, b0, b1, b2, b3⟩ := layout0 0x28000001 5 1 g d a b (by decide) (by decide) rfl
  refine of_row hl hw ?_
  rw [decodeRow_5 k0, decodeClass5, k1]
  refine congrArg some ?_
  rw [b0, b1, b2, b3]

theorem vhfmaF16x2 (g : BitVec 3) (d : BitVec 7) (a : BitVec 7) (b : BitVec 7) : Statement (.vhfmaF16x2 g d a b) := by
  intro _
  obtain ⟨w, hw, hl, k0, k1, b0, b1, b2, b3⟩ := layout0 0x28000002 5 2 g d a b (by decide) (by decide) rfl
  refine of_row hl hw ?_
  rw [decodeRow_5 k0, decodeClass5, k1]
  refine congrArg some ?_
  rw [b0, b1, b2, b3]

theorem vhaddBf16x2 (g : BitVec 3) (d : BitVec 7) (a : BitVec 7) (b : BitVec 7) : Statement (.vhaddBf16x2 g d a b) := by
  intro _
  obtain ⟨w, hw, hl, k0, k1, b0, b1, b2, b3⟩ := layout0 0x28000003 5 3 g d a b (by decide) (by decide) rfl
  refine of_row hl hw ?_
  rw [decodeRow_5 k0, decodeClass5, k1]
  refine congrArg some ?_
  rw [b0, b1, b2, b3]

theorem vhmulBf16x2 (g : BitVec 3) (d : BitVec 7) (a : BitVec 7) (b : BitVec 7) : Statement (.vhmulBf16x2 g d a b) := by
  intro _
  obtain ⟨w, hw, hl, k0, k1, b0, b1, b2, b3⟩ := layout0 0x28000004 5 4 g d a b (by decide) (by decide) rfl
  refine of_row hl hw ?_
  rw [decodeRow_5 k0, decodeClass5, k1]
  refine congrArg some ?_
  rw [b0, b1, b2, b3]

theorem vhfmaBf16x2 (g : BitVec 3) (d : BitVec 7) (a : BitVec 7) (b : BitVec 7) : Statement (.vhfmaBf16x2 g d a b) := by
  intro _
  obtain ⟨w, hw, hl, k0, k1, b0, b1, b2, b3⟩ := layout0 0x28000005 5 5 g d a b (by decide) (by decide) rfl
  refine of_row hl hw ?_
  rw [decodeRow_5 k0, decodeClass5, k1]
  refine congrArg some ?_
  rw [b0, b1, b2, b3]

theorem vhminF16x2 (g : BitVec 3) (d : BitVec 7) (a : BitVec 7) (b : BitVec 7) : Statement (.vhminF16x2 g d a b) := by
  intro _
  obtain ⟨w, hw, hl, k0, k1, b0, b1, b2, b3⟩ := layout0 0x28000006 5 6 g d a b (by decide) (by decide) rfl
  refine of_row hl hw ?_
  rw [decodeRow_5 k0, decodeClass5, k1]
  refine congrArg some ?_
  rw [b0, b1, b2, b3]

theorem vhmaxF16x2 (g : BitVec 3) (d : BitVec 7) (a : BitVec 7) (b : BitVec 7) : Statement (.vhmaxF16x2 g d a b) := by
  intro _
  obtain ⟨w, hw, hl, k0, k1, b0, b1, b2, b3⟩ := layout0 0x28000007 5 7 g d a b (by decide) (by decide) rfl
  refine of_row hl hw ?_
  rw [decodeRow_5 k0, decodeClass5, k1]
  refine congrArg some ?_
  rw [b0, b1, b2, b3]

theorem vdaddF64 (g : BitVec 3) (d : BitVec 7) (a : BitVec 7) (b : BitVec 7) : Statement (.vdaddF64 g d a b) := by
  intro _
  obtain ⟨w, hw, hl, k0, k1, b0, b1, b2, b3⟩ := layout0 0x30000000 6 0 g d a b (by decide) (by decide) rfl
  refine of_row hl hw ?_
  rw [decodeRow_6 k0, decodeClass6, k1]
  refine congrArg some ?_
  rw [b0, b1, b2, b3]

theorem vdsubF64 (g : BitVec 3) (d : BitVec 7) (a : BitVec 7) (b : BitVec 7) : Statement (.vdsubF64 g d a b) := by
  intro _
  obtain ⟨w, hw, hl, k0, k1, b0, b1, b2, b3⟩ := layout0 0x30000001 6 1 g d a b (by decide) (by decide) rfl
  refine of_row hl hw ?_
  rw [decodeRow_6 k0, decodeClass6, k1]
  refine congrArg some ?_
  rw [b0, b1, b2, b3]

theorem vdmulF64 (g : BitVec 3) (d : BitVec 7) (a : BitVec 7) (b : BitVec 7) : Statement (.vdmulF64 g d a b) := by
  intro _
  obtain ⟨w, hw, hl, k0, k1, b0, b1, b2, b3⟩ := layout0 0x30000002 6 2 g d a b (by decide) (by decide) rfl
  refine of_row hl hw ?_
  rw [decodeRow_6 k0, decodeClass6, k1]
  refine congrArg some ?_
  rw [b0, b1, b2, b3]

theorem vdfmaF64 (g : BitVec 3) (d : BitVec 7) (a : BitVec 7) (b : BitVec 7) : Statement (.vdfmaF64 g d a b) := by
  intro _
  obtain ⟨w, hw, hl, k0, k1, b0, b1, b2, b3⟩ := layout0 0x30000003 6 3 g d a b (by decide) (by decide) rfl
  refine of_row hl hw ?_
  rw [decodeRow_6 k0, decodeClass6, k1]
  refine congrArg some ?_
  rw [b0, b1, b2, b3]

theorem vdminF64 (g : BitVec 3) (d : BitVec 7) (a : BitVec 7) (b : BitVec 7) : Statement (.vdminF64 g d a b) := by
  intro _
  obtain ⟨w, hw, hl, k0, k1, b0, b1, b2, b3⟩ := layout0 0x30000004 6 4 g d a b (by decide) (by decide) rfl
  refine of_row hl hw ?_
  rw [decodeRow_6 k0, decodeClass6, k1]
  refine congrArg some ?_
  rw [b0, b1, b2, b3]

theorem vdmaxF64 (g : BitVec 3) (d : BitVec 7) (a : BitVec 7) (b : BitVec 7) : Statement (.vdmaxF64 g d a b) := by
  intro _
  obtain ⟨w, hw, hl, k0, k1, b0, b1, b2, b3⟩ := layout0 0x30000005 6 5 g d a b (by decide) (by decide) rfl
  refine of_row hl hw ?_
  rw [decodeRow_6 k0, decodeClass6, k1]
  refine congrArg some ?_
  rw [b0, b1, b2, b3]

theorem vdsqrtF64 (g : BitVec 3) (d : BitVec 7) (a : BitVec 7) : Statement (.vdsqrtF64 g d a) := by
  intro _
  obtain ⟨w, hw, hl, k0, k1, c0, b0, b1, b2⟩ := layout1 0x30000006 6 6 g d a (by decide) (by decide) rfl
  refine of_row hl hw ?_
  rw [decodeRow_6 k0, decodeClass6, k1]
  refine (if_pos c0).trans ?_
  refine congrArg some ?_
  rw [b0, b1, b2]

theorem vddivF64 (g : BitVec 3) (d : BitVec 7) (a : BitVec 7) (b : BitVec 7) : Statement (.vddivF64 g d a b) := by
  intro _
  obtain ⟨w, hw, hl, k0, k1, b0, b1, b2, b3⟩ := layout0 0x30000007 6 7 g d a b (by decide) (by decide) rfl
  refine of_row hl hw ?_
  rw [decodeRow_6 k0, decodeClass6, k1]
  refine congrArg some ?_
  rw [b0, b1, b2, b3]

theorem vrcpF32 (g : BitVec 3) (d : BitVec 7) (a : BitVec 7) : Statement (.vrcpF32 g d a) := by
  intro _
  obtain ⟨w, hw, hl, k0, k1, c0, b0, b1, b2⟩ := layout1 0x38000000 7 0 g d a (by decide) (by decide) rfl
  refine of_row hl hw ?_
  rw [decodeRow_7 k0, decodeClass7, k1]
  refine (if_pos c0).trans ?_
  refine congrArg some ?_
  rw [b0, b1, b2]

theorem vrsqF32 (g : BitVec 3) (d : BitVec 7) (a : BitVec 7) : Statement (.vrsqF32 g d a) := by
  intro _
  obtain ⟨w, hw, hl, k0, k1, c0, b0, b1, b2⟩ := layout1 0x38000001 7 1 g d a (by decide) (by decide) rfl
  refine of_row hl hw ?_
  rw [decodeRow_7 k0, decodeClass7, k1]
  refine (if_pos c0).trans ?_
  refine congrArg some ?_
  rw [b0, b1, b2]

theorem vsqrtF32 (g : BitVec 3) (d : BitVec 7) (a : BitVec 7) : Statement (.vsqrtF32 g d a) := by
  intro _
  obtain ⟨w, hw, hl, k0, k1, c0, b0, b1, b2⟩ := layout1 0x38000002 7 2 g d a (by decide) (by decide) rfl
  refine of_row hl hw ?_
  rw [decodeRow_7 k0, decodeClass7, k1]
  refine (if_pos c0).trans ?_
  refine congrArg some ?_
  rw [b0, b1, b2]

theorem vexp2F32 (g : BitVec 3) (d : BitVec 7) (a : BitVec 7) : Statement (.vexp2F32 g d a) := by
  intro _
  obtain ⟨w, hw, hl, k0, k1, c0, b0, b1, b2⟩ := layout1 0x38000003 7 3 g d a (by decide) (by decide) rfl
  refine of_row hl hw ?_
  rw [decodeRow_7 k0, decodeClass7, k1]
  refine (if_pos c0).trans ?_
  refine congrArg some ?_
  rw [b0, b1, b2]

theorem vlog2F32 (g : BitVec 3) (d : BitVec 7) (a : BitVec 7) : Statement (.vlog2F32 g d a) := by
  intro _
  obtain ⟨w, hw, hl, k0, k1, c0, b0, b1, b2⟩ := layout1 0x38000004 7 4 g d a (by decide) (by decide) rfl
  refine of_row hl hw ?_
  rw [decodeRow_7 k0, decodeClass7, k1]
  refine (if_pos c0).trans ?_
  refine congrArg some ?_
  rw [b0, b1, b2]

theorem vsinpiF32 (g : BitVec 3) (d : BitVec 7) (a : BitVec 7) : Statement (.vsinpiF32 g d a) := by
  intro _
  obtain ⟨w, hw, hl, k0, k1, c0, b0, b1, b2⟩ := layout1 0x38000005 7 5 g d a (by decide) (by decide) rfl
  refine of_row hl hw ?_
  rw [decodeRow_7 k0, decodeClass7, k1]
  refine (if_pos c0).trans ?_
  refine congrArg some ?_
  rw [b0, b1, b2]

theorem vcospiF32 (g : BitVec 3) (d : BitVec 7) (a : BitVec 7) : Statement (.vcospiF32 g d a) := by
  intro _
  obtain ⟨w, hw, hl, k0, k1, c0, b0, b1, b2⟩ := layout1 0x38000006 7 6 g d a (by decide) (by decide) rfl
  refine of_row hl hw ?_
  rw [decodeRow_7 k0, decodeClass7, k1]
  refine (if_pos c0).trans ?_
  refine congrArg some ?_
  rw [b0, b1, b2]

theorem vdivF32 (g : BitVec 3) (d : BitVec 7) (a : BitVec 7) (b : BitVec 7) : Statement (.vdivF32 g d a b) := by
  intro _
  obtain ⟨w, hw, hl, k0, k1, b0, b1, b2, b3⟩ := layout0 0x38000007 7 7 g d a b (by decide) (by decide) rfl
  refine of_row hl hw ?_
  rw [decodeRow_7 k0, decodeClass7, k1]
  refine congrArg some ?_
  rw [b0, b1, b2, b3]

theorem vcmpEqI32 (g : BitVec 3) (d : BitVec 7) (a : BitVec 7) (b : BitVec 7) : Statement (.vcmpEqI32 g d a b) := by
  intro _
  obtain ⟨w, hw, hl, k0, k1, b0, b1, b2, b3⟩ := layout0 0x40000000 8 0 g d a b (by decide) (by decide) rfl
  refine of_row hl hw ?_
  rw [decodeRow_8 k0, decodeClass8, k1]
  refine congrArg some ?_
  rw [b0, b1, b2, b3]

theorem vcmpLtI32 (g : BitVec 3) (d : BitVec 7) (a : BitVec 7) (b : BitVec 7) : Statement (.vcmpLtI32 g d a b) := by
  intro _
  obtain ⟨w, hw, hl, k0, k1, b0, b1, b2, b3⟩ := layout0 0x40000001 8 1 g d a b (by decide) (by decide) rfl
  refine of_row hl hw ?_
  rw [decodeRow_8 k0, decodeClass8, k1]
  refine congrArg some ?_
  rw [b0, b1, b2, b3]

theorem vcmpLtN32 (g : BitVec 3) (d : BitVec 7) (a : BitVec 7) (b : BitVec 7) : Statement (.vcmpLtN32 g d a b) := by
  intro _
  obtain ⟨w, hw, hl, k0, k1, b0, b1, b2, b3⟩ := layout0 0x40000002 8 2 g d a b (by decide) (by decide) rfl
  refine of_row hl hw ?_
  rw [decodeRow_8 k0, decodeClass8, k1]
  refine congrArg some ?_
  rw [b0, b1, b2, b3]

theorem vcmpLeI32 (g : BitVec 3) (d : BitVec 7) (a : BitVec 7) (b : BitVec 7) : Statement (.vcmpLeI32 g d a b) := by
  intro _
  obtain ⟨w, hw, hl, k0, k1, b0, b1, b2, b3⟩ := layout0 0x40000003 8 3 g d a b (by decide) (by decide) rfl
  refine of_row hl hw ?_
  rw [decodeRow_8 k0, decodeClass8, k1]
  refine congrArg some ?_
  rw [b0, b1, b2, b3]

theorem vcmpEqF32 (g : BitVec 3) (d : BitVec 7) (a : BitVec 7) (b : BitVec 7) : Statement (.vcmpEqF32 g d a b) := by
  intro _
  obtain ⟨w, hw, hl, k0, k1, b0, b1, b2, b3⟩ := layout0 0x40000004 8 4 g d a b (by decide) (by decide) rfl
  refine of_row hl hw ?_
  rw [decodeRow_8 k0, decodeClass8, k1]
  refine congrArg some ?_
  rw [b0, b1, b2, b3]

theorem vcmpLtF32 (g : BitVec 3) (d : BitVec 7) (a : BitVec 7) (b : BitVec 7) : Statement (.vcmpLtF32 g d a b) := by
  intro _
  obtain ⟨w, hw, hl, k0, k1, b0, b1, b2, b3⟩ := layout0 0x40000005 8 5 g d a b (by decide) (by decide) rfl
  refine of_row hl hw ?_
  rw [decodeRow_8 k0, decodeClass8, k1]
  refine congrArg some ?_
  rw [b0, b1, b2, b3]

theorem vcmpLeF32 (g : BitVec 3) (d : BitVec 7) (a : BitVec 7) (b : BitVec 7) : Statement (.vcmpLeF32 g d a b) := by
  intro _
  obtain ⟨w, hw, hl, k0, k1, b0, b1, b2, b3⟩ := layout0 0x40000006 8 6 g d a b (by decide) (by decide) rfl
  refine of_row hl hw ?_
  rw [decodeRow_8 k0, decodeClass8, k1]
  refine congrArg some ?_
  rw [b0, b1, b2, b3]

theorem vcmpUnF32 (g : BitVec 3) (d : BitVec 7) (a : BitVec 7) (b : BitVec 7) : Statement (.vcmpUnF32 g d a b) := by
  intro _
  obtain ⟨w, hw, hl, k0, k1, b0, b1, b2, b3⟩ := layout0 0x40000007 8 7 g d a b (by decide) (by decide) rfl
  refine of_row hl hw ?_
  rw [decodeRow_8 k0, decodeClass8, k1]
  refine congrArg some ?_
  rw [b0, b1, b2, b3]

theorem vcvtn (g : BitVec 3) (d : BitVec 7) (a : BitVec 7) (fmt : BitVec 5) (slot : BitVec 2) : Statement (.vcvtn g d a fmt slot) := by
  intro _
  obtain ⟨w, hw, hl, k0, k1, b0, b1, b2, b3, b4⟩ := layout2 0x48000000 9 0 g d a fmt slot (by decide) (by decide) rfl
  refine of_row hl hw ?_
  rw [decodeRow_9 k0, decodeClass9, k1]
  refine congrArg some ?_
  rw [b0, b1, b2, b3, b4]

theorem vcvtw (g : BitVec 3) (d : BitVec 7) (a : BitVec 7) (fmt : BitVec 5) (slot : BitVec 2) : Statement (.vcvtw g d a fmt slot) := by
  intro _
  obtain ⟨w, hw, hl, k0, k1, b0, b1, b2, b3, b4⟩ := layout2 0x48000080 9 1 g d a fmt slot (by decide) (by decide) rfl
  refine of_row hl hw ?_
  rw [decodeRow_9 k0, decodeClass9, k1]
  refine congrArg some ?_
  rw [b0, b1, b2, b3, b4]

theorem vcvti2f (g : BitVec 3) (d : BitVec 7) (a : BitVec 7) (fmt : BitVec 5) (slot : BitVec 2) : Statement (.vcvti2f g d a fmt slot) := by
  intro _
  obtain ⟨w, hw, hl, k0, k1, b0, b1, b2, b3, b4⟩ := layout2 0x48000100 9 2 g d a fmt slot (by decide) (by decide) rfl
  refine of_row hl hw ?_
  rw [decodeRow_9 k0, decodeClass9, k1]
  refine congrArg some ?_
  rw [b0, b1, b2, b3, b4]

theorem vcvtf2i (g : BitVec 3) (d : BitVec 7) (a : BitVec 7) (fmt : BitVec 5) (slot : BitVec 2) : Statement (.vcvtf2i g d a fmt slot) := by
  intro _
  obtain ⟨w, hw, hl, k0, k1, b0, b1, b2, b3, b4⟩ := layout2 0x48000180 9 3 g d a fmt slot (by decide) (by decide) rfl
  refine of_row hl hw ?_
  rw [decodeRow_9 k0, decodeClass9, k1]
  refine congrArg some ?_
  rw [b0, b1, b2, b3, b4]

theorem vcvtd2f (g : BitVec 3) (d : BitVec 7) (a : BitVec 7) (fmt : BitVec 5) (slot : BitVec 2) : Statement (.vcvtd2f g d a fmt slot) := by
  intro _
  obtain ⟨w, hw, hl, k0, k1, b0, b1, b2, b3, b4⟩ := layout2 0x48000200 9 4 g d a fmt slot (by decide) (by decide) rfl
  refine of_row hl hw ?_
  rw [decodeRow_9 k0, decodeClass9, k1]
  refine congrArg some ?_
  rw [b0, b1, b2, b3, b4]

theorem vcvtf2d (g : BitVec 3) (d : BitVec 7) (a : BitVec 7) (fmt : BitVec 5) (slot : BitVec 2) : Statement (.vcvtf2d g d a fmt slot) := by
  intro _
  obtain ⟨w, hw, hl, k0, k1, b0, b1, b2, b3, b4⟩ := layout2 0x48000280 9 5 g d a fmt slot (by decide) (by decide) rfl
  refine of_row hl hw ?_
  rw [decodeRow_9 k0, decodeClass9, k1]
  refine congrArg some ?_
  rw [b0, b1, b2, b3, b4]

theorem vsrnd (g : BitVec 3) (d : BitVec 7) (a : BitVec 7) (fmt : BitVec 5) (slot : BitVec 2) : Statement (.vsrnd g d a fmt slot) := by
  intro _
  obtain ⟨w, hw, hl, k0, k1, b0, b1, b2, b3, b4⟩ := layout2 0x48000300 9 6 g d a fmt slot (by decide) (by decide) rfl
  refine of_row hl hw ?_
  rw [decodeRow_9 k0, decodeClass9, k1]
  refine congrArg some ?_
  rw [b0, b1, b2, b3, b4]

theorem vmxs (g : BitVec 3) (d : BitVec 7) (a : BitVec 7) (fmt : BitVec 5) (slot : BitVec 2) : Statement (.vmxs g d a fmt slot) := by
  intro _
  obtain ⟨w, hw, hl, k0, k1, b0, b1, b2, b3, b4⟩ := layout2 0x48000380 9 7 g d a fmt slot (by decide) (by decide) rfl
  refine of_row hl hw ?_
  rw [decodeRow_9 k0, decodeClass9, k1]
  refine congrArg some ?_
  rw [b0, b1, b2, b3, b4]

theorem vaddi (g : BitVec 3) (d : BitVec 7) (a : BitVec 7) (imm : BitVec 7) : Statement (.vaddi g d a imm) := by
  intro _
  obtain ⟨w, hw, hl, k0, k1, b0, b1, b2, b3⟩ := layout3 0x50000000 10 0 g d a imm (by decide) (by decide) rfl
  refine of_row hl hw ?_
  rw [decodeRow_10 k0, decodeClass10, k1]
  refine congrArg some ?_
  rw [b0, b1, b2, b3]

theorem vmuli (g : BitVec 3) (d : BitVec 7) (a : BitVec 7) (imm : BitVec 7) : Statement (.vmuli g d a imm) := by
  intro _
  obtain ⟨w, hw, hl, k0, k1, b0, b1, b2, b3⟩ := layout3 0x50000080 10 1 g d a imm (by decide) (by decide) rfl
  refine of_row hl hw ?_
  rw [decodeRow_10 k0, decodeClass10, k1]
  refine congrArg some ?_
  rw [b0, b1, b2, b3]

theorem vandi (g : BitVec 3) (d : BitVec 7) (a : BitVec 7) (imm : BitVec 7) : Statement (.vandi g d a imm) := by
  intro _
  obtain ⟨w, hw, hl, k0, k1, b0, b1, b2, b3⟩ := layout3 0x50000100 10 2 g d a imm (by decide) (by decide) rfl
  refine of_row hl hw ?_
  rw [decodeRow_10 k0, decodeClass10, k1]
  refine congrArg some ?_
  rw [b0, b1, b2, b3]

theorem vori (g : BitVec 3) (d : BitVec 7) (a : BitVec 7) (imm : BitVec 7) : Statement (.vori g d a imm) := by
  intro _
  obtain ⟨w, hw, hl, k0, k1, b0, b1, b2, b3⟩ := layout3 0x50000180 10 3 g d a imm (by decide) (by decide) rfl
  refine of_row hl hw ?_
  rw [decodeRow_10 k0, decodeClass10, k1]
  refine congrArg some ?_
  rw [b0, b1, b2, b3]

theorem vxori (g : BitVec 3) (d : BitVec 7) (a : BitVec 7) (imm : BitVec 7) : Statement (.vxori g d a imm) := by
  intro _
  obtain ⟨w, hw, hl, k0, k1, b0, b1, b2, b3⟩ := layout3 0x50000200 10 4 g d a imm (by decide) (by decide) rfl
  refine of_row hl hw ?_
  rw [decodeRow_10 k0, decodeClass10, k1]
  refine congrArg some ?_
  rw [b0, b1, b2, b3]

theorem vshli (g : BitVec 3) (d : BitVec 7) (a : BitVec 7) (imm : BitVec 5) : Statement (.vshli g d a imm) := by
  intro _
  obtain ⟨w, hw, hl, k0, k1, c0, b0, b1, b2, b3⟩ := layout4 0x50000280 10 5 g d a imm (by decide) (by decide) rfl
  refine of_row hl hw ?_
  rw [decodeRow_10 k0, decodeClass10, k1]
  refine (if_pos c0).trans ?_
  refine congrArg some ?_
  rw [b0, b1, b2, b3]

theorem vshriN32 (g : BitVec 3) (d : BitVec 7) (a : BitVec 7) (imm : BitVec 5) : Statement (.vshriN32 g d a imm) := by
  intro _
  obtain ⟨w, hw, hl, k0, k1, c0, b0, b1, b2, b3⟩ := layout4 0x50000300 10 6 g d a imm (by decide) (by decide) rfl
  refine of_row hl hw ?_
  rw [decodeRow_10 k0, decodeClass10, k1]
  refine (if_pos c0).trans ?_
  refine congrArg some ?_
  rw [b0, b1, b2, b3]

theorem vshriI32 (g : BitVec 3) (d : BitVec 7) (a : BitVec 7) (imm : BitVec 5) : Statement (.vshriI32 g d a imm) := by
  intro _
  obtain ⟨w, hw, hl, k0, k1, c0, b0, b1, b2, b3⟩ := layout4 0x50000380 10 7 g d a imm (by decide) (by decide) rfl
  refine of_row hl hw ?_
  rw [decodeRow_10 k0, decodeClass10, k1]
  refine (if_pos c0).trans ?_
  refine congrArg some ?_
  rw [b0, b1, b2, b3]

theorem vshf (g : BitVec 3) (d : BitVec 7) (a : BitVec 7) (b : BitVec 7) : Statement (.vshf g d a b) := by
  intro _
  obtain ⟨w, hw, hl, k0, k1, b0, b1, b2, b3⟩ := layout0 0x58000000 11 0 g d a b (by decide) (by decide) rfl
  refine of_row hl hw ?_
  rw [decodeRow_11 k0, decodeClass11, k1]
  refine congrArg some ?_
  rw [b0, b1, b2, b3]

theorem vshfx (g : BitVec 3) (d : BitVec 7) (a : BitVec 7) (b : BitVec 7) : Statement (.vshfx g d a b) := by
  intro _
  obtain ⟨w, hw, hl, k0, k1, b0, b1, b2, b3⟩ := layout0 0x58000001 11 1 g d a b (by decide) (by decide) rfl
  refine of_row hl hw ?_
  rw [decodeRow_11 k0, decodeClass11, k1]
  refine congrArg some ?_
  rw [b0, b1, b2, b3]

theorem vshfup (g : BitVec 3) (d : BitVec 7) (a : BitVec 7) (b : BitVec 7) : Statement (.vshfup g d a b) := by
  intro _
  obtain ⟨w, hw, hl, k0, k1, b0, b1, b2, b3⟩ := layout0 0x58000002 11 2 g d a b (by decide) (by decide) rfl
  refine of_row hl hw ?_
  rw [decodeRow_11 k0, decodeClass11, k1]
  refine congrArg some ?_
  rw [b0, b1, b2, b3]

theorem vshfdn (g : BitVec 3) (d : BitVec 7) (a : BitVec 7) (b : BitVec 7) : Statement (.vshfdn g d a b) := by
  intro _
  obtain ⟨w, hw, hl, k0, k1, b0, b1, b2, b3⟩ := layout0 0x58000003 11 3 g d a b (by decide) (by decide) rfl
  refine of_row hl hw ?_
  rw [decodeRow_11 k0, decodeClass11, k1]
  refine congrArg some ?_
  rw [b0, b1, b2, b3]

theorem vredsumI32 (g : BitVec 3) (d : BitVec 7) (a : BitVec 7) : Statement (.vredsumI32 g d a) := by
  intro _
  obtain ⟨w, hw, hl, k0, k1, c0, b0, b1, b2⟩ := layout1 0x58000004 11 4 g d a (by decide) (by decide) rfl
  refine of_row hl hw ?_
  rw [decodeRow_11 k0, decodeClass11, k1]
  refine (if_pos c0).trans ?_
  refine congrArg some ?_
  rw [b0, b1, b2]

theorem vredmaxF32 (g : BitVec 3) (d : BitVec 7) (a : BitVec 7) : Statement (.vredmaxF32 g d a) := by
  intro _
  obtain ⟨w, hw, hl, k0, k1, c0, b0, b1, b2⟩ := layout1 0x58000005 11 5 g d a (by decide) (by decide) rfl
  refine of_row hl hw ?_
  rw [decodeRow_11 k0, decodeClass11, k1]
  refine (if_pos c0).trans ?_
  refine congrArg some ?_
  rw [b0, b1, b2]

theorem vscanI32 (g : BitVec 3) (d : BitVec 7) (a : BitVec 7) : Statement (.vscanI32 g d a) := by
  intro _
  obtain ⟨w, hw, hl, k0, k1, c0, b0, b1, b2⟩ := layout1 0x58000006 11 6 g d a (by decide) (by decide) rfl
  refine of_row hl hw ?_
  rw [decodeRow_11 k0, decodeClass11, k1]
  refine (if_pos c0).trans ?_
  refine congrArg some ?_
  rw [b0, b1, b2]

theorem vredsumF32 (g : BitVec 3) (d : BitVec 7) (a : BitVec 7) : Statement (.vredsumF32 g d a) := by
  intro _
  obtain ⟨w, hw, hl, k0, k1, c0, b0, b1, b2⟩ := layout1 0x58000007 11 7 g d a (by decide) (by decide) rfl
  refine of_row hl hw ?_
  rw [decodeRow_11 k0, decodeClass11, k1]
  refine (if_pos c0).trans ?_
  refine congrArg some ?_
  rw [b0, b1, b2]

theorem vdot4I8 (g : BitVec 3) (d : BitVec 7) (a : BitVec 7) (b : BitVec 7) : Statement (.vdot4I8 g d a b) := by
  intro _
  obtain ⟨w, hw, hl, k0, k1, b0, b1, b2, b3⟩ := layout0 0x60000000 12 0 g d a b (by decide) (by decide) rfl
  refine of_row hl hw ?_
  rw [decodeRow_12 k0, decodeClass12, k1]
  refine congrArg some ?_
  rw [b0, b1, b2, b3]

theorem vdot4N8 (g : BitVec 3) (d : BitVec 7) (a : BitVec 7) (b : BitVec 7) : Statement (.vdot4N8 g d a b) := by
  intro _
  obtain ⟨w, hw, hl, k0, k1, b0, b1, b2, b3⟩ := layout0 0x60000001 12 1 g d a b (by decide) (by decide) rfl
  refine of_row hl hw ?_
  rw [decodeRow_12 k0, decodeClass12, k1]
  refine congrArg some ?_
  rw [b0, b1, b2, b3]

theorem vdot4In8 (g : BitVec 3) (d : BitVec 7) (a : BitVec 7) (b : BitVec 7) : Statement (.vdot4In8 g d a b) := by
  intro _
  obtain ⟨w, hw, hl, k0, k1, b0, b1, b2, b3⟩ := layout0 0x60000002 12 2 g d a b (by decide) (by decide) rfl
  refine of_row hl hw ?_
  rw [decodeRow_12 k0, decodeClass12, k1]
  refine congrArg some ?_
  rw [b0, b1, b2, b3]

theorem vdot8I4 (g : BitVec 3) (d : BitVec 7) (a : BitVec 7) (b : BitVec 7) : Statement (.vdot8I4 g d a b) := by
  intro _
  obtain ⟨w, hw, hl, k0, k1, b0, b1, b2, b3⟩ := layout0 0x60000003 12 3 g d a b (by decide) (by decide) rfl
  refine of_row hl hw ?_
  rw [decodeRow_12 k0, decodeClass12, k1]
  refine congrArg some ?_
  rw [b0, b1, b2, b3]

theorem vdot8N4 (g : BitVec 3) (d : BitVec 7) (a : BitVec 7) (b : BitVec 7) : Statement (.vdot8N4 g d a b) := by
  intro _
  obtain ⟨w, hw, hl, k0, k1, b0, b1, b2, b3⟩ := layout0 0x60000004 12 4 g d a b (by decide) (by decide) rfl
  refine of_row hl hw ?_
  rw [decodeRow_12 k0, decodeClass12, k1]
  refine congrArg some ?_
  rw [b0, b1, b2, b3]

theorem vdot2Bf16 (g : BitVec 3) (d : BitVec 7) (a : BitVec 7) (b : BitVec 7) : Statement (.vdot2Bf16 g d a b) := by
  intro _
  obtain ⟨w, hw, hl, k0, k1, b0, b1, b2, b3⟩ := layout0 0x60000005 12 5 g d a b (by decide) (by decide) rfl
  refine of_row hl hw ?_
  rw [decodeRow_12 k0, decodeClass12, k1]
  refine congrArg some ?_
  rw [b0, b1, b2, b3]

theorem vdot4E4m3 (g : BitVec 3) (d : BitVec 7) (a : BitVec 7) (b : BitVec 7) : Statement (.vdot4E4m3 g d a b) := by
  intro _
  obtain ⟨w, hw, hl, k0, k1, b0, b1, b2, b3⟩ := layout0 0x60000006 12 6 g d a b (by decide) (by decide) rfl
  refine of_row hl hw ?_
  rw [decodeRow_12 k0, decodeClass12, k1]
  refine congrArg some ?_
  rw [b0, b1, b2, b3]

theorem vdot8E2m1 (g : BitVec 3) (d : BitVec 7) (a : BitVec 7) (b : BitVec 7) : Statement (.vdot8E2m1 g d a b) := by
  intro _
  obtain ⟨w, hw, hl, k0, k1, b0, b1, b2, b3⟩ := layout0 0x60000007 12 7 g d a b (by decide) (by decide) rfl
  refine of_row hl hw ?_
  rw [decodeRow_12 k0, decodeClass12, k1]
  refine congrArg some ?_
  rw [b0, b1, b2, b3]

theorem sadd (d : BitVec 7) (a : BitVec 7) (b : BitVec 7) : Statement (.sadd d a b) := by
  intro _
  obtain ⟨w, hw, hl, k0, k1, b0, b1, b2⟩ := layout5 0x68000000 13 0 d a b (by decide) (by decide) rfl
  refine of_row hl hw ?_
  rw [decodeRow_13 k0, decodeClass13, k1]
  refine congrArg some ?_
  rw [b0, b1, b2]

theorem ssub (d : BitVec 7) (a : BitVec 7) (b : BitVec 7) : Statement (.ssub d a b) := by
  intro _
  obtain ⟨w, hw, hl, k0, k1, b0, b1, b2⟩ := layout5 0x68000001 13 1 d a b (by decide) (by decide) rfl
  refine of_row hl hw ?_
  rw [decodeRow_13 k0, decodeClass13, k1]
  refine congrArg some ?_
  rw [b0, b1, b2]

theorem smullo (d : BitVec 7) (a : BitVec 7) (b : BitVec 7) : Statement (.smullo d a b) := by
  intro _
  obtain ⟨w, hw, hl, k0, k1, b0, b1, b2⟩ := layout5 0x68000002 13 2 d a b (by decide) (by decide) rfl
  refine of_row hl hw ?_
  rw [decodeRow_13 k0, decodeClass13, k1]
  refine congrArg some ?_
  rw [b0, b1, b2]

theorem smulhiI32 (d : BitVec 7) (a : BitVec 7) (b : BitVec 7) : Statement (.smulhiI32 d a b) := by
  intro _
  obtain ⟨w, hw, hl, k0, k1, b0, b1, b2⟩ := layout5 0x68000003 13 3 d a b (by decide) (by decide) rfl
  refine of_row hl hw ?_
  rw [decodeRow_13 k0, decodeClass13, k1]
  refine congrArg some ?_
  rw [b0, b1, b2]

theorem smulhiN32 (d : BitVec 7) (a : BitVec 7) (b : BitVec 7) : Statement (.smulhiN32 d a b) := by
  intro _
  obtain ⟨w, hw, hl, k0, k1, b0, b1, b2⟩ := layout5 0x68000004 13 4 d a b (by decide) (by decide) rfl
  refine of_row hl hw ?_
  rw [decodeRow_13 k0, decodeClass13, k1]
  refine congrArg some ?_
  rw [b0, b1, b2]

theorem sdivI32 (d : BitVec 7) (a : BitVec 7) (b : BitVec 7) : Statement (.sdivI32 d a b) := by
  intro _
  obtain ⟨w, hw, hl, k0, k1, b0, b1, b2⟩ := layout5 0x68000005 13 5 d a b (by decide) (by decide) rfl
  refine of_row hl hw ?_
  rw [decodeRow_13 k0, decodeClass13, k1]
  refine congrArg some ?_
  rw [b0, b1, b2]

theorem sdivN32 (d : BitVec 7) (a : BitVec 7) (b : BitVec 7) : Statement (.sdivN32 d a b) := by
  intro _
  obtain ⟨w, hw, hl, k0, k1, b0, b1, b2⟩ := layout5 0x68000006 13 6 d a b (by decide) (by decide) rfl
  refine of_row hl hw ?_
  rw [decodeRow_13 k0, decodeClass13, k1]
  refine congrArg some ?_
  rw [b0, b1, b2]

theorem sremI32 (d : BitVec 7) (a : BitVec 7) (b : BitVec 7) : Statement (.sremI32 d a b) := by
  intro _
  obtain ⟨w, hw, hl, k0, k1, b0, b1, b2⟩ := layout5 0x68000007 13 7 d a b (by decide) (by decide) rfl
  refine of_row hl hw ?_
  rw [decodeRow_13 k0, decodeClass13, k1]
  refine congrArg some ?_
  rw [b0, b1, b2]

theorem sremN32 (d : BitVec 7) (a : BitVec 7) (b : BitVec 7) : Statement (.sremN32 d a b) := by
  intro _
  obtain ⟨w, hw, hl, k0, k1, b0, b1, b2⟩ := layout5 0x68000008 13 8 d a b (by decide) (by decide) rfl
  refine of_row hl hw ?_
  rw [decodeRow_13 k0, decodeClass13, k1]
  refine congrArg some ?_
  rw [b0, b1, b2]

theorem sminI32 (d : BitVec 7) (a : BitVec 7) (b : BitVec 7) : Statement (.sminI32 d a b) := by
  intro _
  obtain ⟨w, hw, hl, k0, k1, b0, b1, b2⟩ := layout5 0x68000009 13 9 d a b (by decide) (by decide) rfl
  refine of_row hl hw ?_
  rw [decodeRow_13 k0, decodeClass13, k1]
  refine congrArg some ?_
  rw [b0, b1, b2]

theorem sminN32 (d : BitVec 7) (a : BitVec 7) (b : BitVec 7) : Statement (.sminN32 d a b) := by
  intro _
  obtain ⟨w, hw, hl, k0, k1, b0, b1, b2⟩ := layout5 0x6800000A 13 10 d a b (by decide) (by decide) rfl
  refine of_row hl hw ?_
  rw [decodeRow_13 k0, decodeClass13, k1]
  refine congrArg some ?_
  rw [b0, b1, b2]

theorem smaxI32 (d : BitVec 7) (a : BitVec 7) (b : BitVec 7) : Statement (.smaxI32 d a b) := by
  intro _
  obtain ⟨w, hw, hl, k0, k1, b0, b1, b2⟩ := layout5 0x6800000B 13 11 d a b (by decide) (by decide) rfl
  refine of_row hl hw ?_
  rw [decodeRow_13 k0, decodeClass13, k1]
  refine congrArg some ?_
  rw [b0, b1, b2]

theorem smaxN32 (d : BitVec 7) (a : BitVec 7) (b : BitVec 7) : Statement (.smaxN32 d a b) := by
  intro _
  obtain ⟨w, hw, hl, k0, k1, b0, b1, b2⟩ := layout5 0x6800000C 13 12 d a b (by decide) (by decide) rfl
  refine of_row hl hw ?_
  rw [decodeRow_13 k0, decodeClass13, k1]
  refine congrArg some ?_
  rw [b0, b1, b2]

theorem sand (d : BitVec 7) (a : BitVec 7) (b : BitVec 7) : Statement (.sand d a b) := by
  intro _
  obtain ⟨w, hw, hl, k0, k1, b0, b1, b2⟩ := layout5 0x6800000D 13 13 d a b (by decide) (by decide) rfl
  refine of_row hl hw ?_
  rw [decodeRow_13 k0, decodeClass13, k1]
  refine congrArg some ?_
  rw [b0, b1, b2]

theorem sor (d : BitVec 7) (a : BitVec 7) (b : BitVec 7) : Statement (.sor d a b) := by
  intro _
  obtain ⟨w, hw, hl, k0, k1, b0, b1, b2⟩ := layout5 0x6800000E 13 14 d a b (by decide) (by decide) rfl
  refine of_row hl hw ?_
  rw [decodeRow_13 k0, decodeClass13, k1]
  refine congrArg some ?_
  rw [b0, b1, b2]

theorem sxor (d : BitVec 7) (a : BitVec 7) (b : BitVec 7) : Statement (.sxor d a b) := by
  intro _
  obtain ⟨w, hw, hl, k0, k1, b0, b1, b2⟩ := layout5 0x6800000F 13 15 d a b (by decide) (by decide) rfl
  refine of_row hl hw ?_
  rw [decodeRow_13 k0, decodeClass13, k1]
  refine congrArg some ?_
  rw [b0, b1, b2]

theorem sshl (d : BitVec 7) (a : BitVec 7) (b : BitVec 7) : Statement (.sshl d a b) := by
  intro _
  obtain ⟨w, hw, hl, k0, k1, b0, b1, b2⟩ := layout5 0x68000010 13 16 d a b (by decide) (by decide) rfl
  refine of_row hl hw ?_
  rw [decodeRow_13 k0, decodeClass13, k1]
  refine congrArg some ?_
  rw [b0, b1, b2]

theorem sshrN32 (d : BitVec 7) (a : BitVec 7) (b : BitVec 7) : Statement (.sshrN32 d a b) := by
  intro _
  obtain ⟨w, hw, hl, k0, k1, b0, b1, b2⟩ := layout5 0x68000011 13 17 d a b (by decide) (by decide) rfl
  refine of_row hl hw ?_
  rw [decodeRow_13 k0, decodeClass13, k1]
  refine congrArg some ?_
  rw [b0, b1, b2]

theorem sshrI32 (d : BitVec 7) (a : BitVec 7) (b : BitVec 7) : Statement (.sshrI32 d a b) := by
  intro _
  obtain ⟨w, hw, hl, k0, k1, b0, b1, b2⟩ := layout5 0x68000012 13 18 d a b (by decide) (by decide) rfl
  refine of_row hl hw ?_
  rw [decodeRow_13 k0, decodeClass13, k1]
  refine congrArg some ?_
  rw [b0, b1, b2]

theorem saddI64 (d : BitVec 7) (a : BitVec 7) (b : BitVec 7) : Statement (.saddI64 d a b) := by
  intro _
  obtain ⟨w, hw, hl, k0, k1, b0, b1, b2⟩ := layout5 0x68000013 13 19 d a b (by decide) (by decide) rfl
  refine of_row hl hw ?_
  rw [decodeRow_13 k0, decodeClass13, k1]
  refine congrArg some ?_
  rw [b0, b1, b2]

theorem ssubI64 (d : BitVec 7) (a : BitVec 7) (b : BitVec 7) : Statement (.ssubI64 d a b) := by
  intro _
  obtain ⟨w, hw, hl, k0, k1, b0, b1, b2⟩ := layout5 0x68000014 13 20 d a b (by decide) (by decide) rfl
  refine of_row hl hw ?_
  rw [decodeRow_13 k0, decodeClass13, k1]
  refine congrArg some ?_
  rw [b0, b1, b2]

theorem smulI64 (d : BitVec 7) (a : BitVec 7) (b : BitVec 7) : Statement (.smulI64 d a b) := by
  intro _
  obtain ⟨w, hw, hl, k0, k1, b0, b1, b2⟩ := layout5 0x68000015 13 21 d a b (by decide) (by decide) rfl
  refine of_row hl hw ?_
  rw [decodeRow_13 k0, decodeClass13, k1]
  refine congrArg some ?_
  rw [b0, b1, b2]

theorem sshlB64 (d : BitVec 7) (a : BitVec 7) (b : BitVec 7) : Statement (.sshlB64 d a b) := by
  intro _
  obtain ⟨w, hw, hl, k0, k1, b0, b1, b2⟩ := layout5 0x68000016 13 22 d a b (by decide) (by decide) rfl
  refine of_row hl hw ?_
  rw [decodeRow_13 k0, decodeClass13, k1]
  refine congrArg some ?_
  rw [b0, b1, b2]

theorem sshrN64 (d : BitVec 7) (a : BitVec 7) (b : BitVec 7) : Statement (.sshrN64 d a b) := by
  intro _
  obtain ⟨w, hw, hl, k0, k1, b0, b1, b2⟩ := layout5 0x68000017 13 23 d a b (by decide) (by decide) rfl
  refine of_row hl hw ?_
  rw [decodeRow_13 k0, decodeClass13, k1]
  refine congrArg some ?_
  rw [b0, b1, b2]

theorem scmpEq (d : BitVec 7) (a : BitVec 7) (b : BitVec 7) : Statement (.scmpEq d a b) := by
  intro _
  obtain ⟨w, hw, hl, k0, k1, b0, b1, b2⟩ := layout5 0x68000018 13 24 d a b (by decide) (by decide) rfl
  refine of_row hl hw ?_
  rw [decodeRow_13 k0, decodeClass13, k1]
  refine congrArg some ?_
  rw [b0, b1, b2]

theorem scmpLtI32 (d : BitVec 7) (a : BitVec 7) (b : BitVec 7) : Statement (.scmpLtI32 d a b) := by
  intro _
  obtain ⟨w, hw, hl, k0, k1, b0, b1, b2⟩ := layout5 0x68000019 13 25 d a b (by decide) (by decide) rfl
  refine of_row hl hw ?_
  rw [decodeRow_13 k0, decodeClass13, k1]
  refine congrArg some ?_
  rw [b0, b1, b2]

theorem scmpLtN32 (d : BitVec 7) (a : BitVec 7) (b : BitVec 7) : Statement (.scmpLtN32 d a b) := by
  intro _
  obtain ⟨w, hw, hl, k0, k1, b0, b1, b2⟩ := layout5 0x6800001A 13 26 d a b (by decide) (by decide) rfl
  refine of_row hl hw ?_
  rw [decodeRow_13 k0, decodeClass13, k1]
  refine congrArg some ?_
  rw [b0, b1, b2]

theorem sfaddF32 (d : BitVec 7) (a : BitVec 7) (b : BitVec 7) : Statement (.sfaddF32 d a b) := by
  intro _
  obtain ⟨w, hw, hl, k0, k1, b0, b1, b2⟩ := layout5 0x6800001B 13 27 d a b (by decide) (by decide) rfl
  refine of_row hl hw ?_
  rw [decodeRow_13 k0, decodeClass13, k1]
  refine congrArg some ?_
  rw [b0, b1, b2]

theorem sfmulF32 (d : BitVec 7) (a : BitVec 7) (b : BitVec 7) : Statement (.sfmulF32 d a b) := by
  intro _
  obtain ⟨w, hw, hl, k0, k1, b0, b1, b2⟩ := layout5 0x6800001C 13 28 d a b (by decide) (by decide) rfl
  refine of_row hl hw ?_
  rw [decodeRow_13 k0, decodeClass13, k1]
  refine congrArg some ?_
  rw [b0, b1, b2]

theorem sfmaF32 (d : BitVec 7) (a : BitVec 7) (b : BitVec 7) : Statement (.sfmaF32 d a b) := by
  intro _
  obtain ⟨w, hw, hl, k0, k1, b0, b1, b2⟩ := layout5 0x6800001D 13 29 d a b (by decide) (by decide) rfl
  refine of_row hl hw ?_
  rw [decodeRow_13 k0, decodeClass13, k1]
  refine congrArg some ?_
  rw [b0, b1, b2]

theorem scvtf2i (d : BitVec 7) (a : BitVec 7) : Statement (.scvtf2i d a) := by
  intro _
  obtain ⟨w, hw, hl, k0, k1, c0, b0, b1⟩ := layout6 0x6800001E 13 30 d a (by decide) (by decide) rfl
  refine of_row hl hw ?_
  rw [decodeRow_13 k0, decodeClass13, k1]
  refine (if_pos c0).trans ?_
  refine congrArg some ?_
  rw [b0, b1]

theorem scvti2f (d : BitVec 7) (a : BitVec 7) : Statement (.scvti2f d a) := by
  intro _
  obtain ⟨w, hw, hl, k0, k1, c0, b0, b1⟩ := layout6 0x6800001F 13 31 d a (by decide) (by decide) rfl
  refine of_row hl hw ?_
  rw [decodeRow_13 k0, decodeClass13, k1]
  refine (if_pos c0).trans ?_
  refine congrArg some ?_
  rw [b0, b1]

theorem saddi (d : BitVec 7) (a : BitVec 7) (imm : BitVec 10) : Statement (.saddi d a imm) := by
  intro _
  obtain ⟨w, hw, hl, k0, k1, b0, b1, b2⟩ := layout7 0x70000000 14 0 d a imm (by decide) (by decide) rfl
  refine of_row hl hw ?_
  rw [decodeRow_14 k0, decodeClass14, k1]
  refine congrArg some ?_
  rw [b0, b1, b2]

theorem sandi (d : BitVec 7) (a : BitVec 7) (imm : BitVec 10) : Statement (.sandi d a imm) := by
  intro _
  obtain ⟨w, hw, hl, k0, k1, b0, b1, b2⟩ := layout7 0x70000400 14 1 d a imm (by decide) (by decide) rfl
  refine of_row hl hw ?_
  rw [decodeRow_14 k0, decodeClass14, k1]
  refine congrArg some ?_
  rw [b0, b1, b2]

theorem sori (d : BitVec 7) (a : BitVec 7) (imm : BitVec 10) : Statement (.sori d a imm) := by
  intro _
  obtain ⟨w, hw, hl, k0, k1, b0, b1, b2⟩ := layout7 0x70000800 14 2 d a imm (by decide) (by decide) rfl
  refine of_row hl hw ?_
  rw [decodeRow_14 k0, decodeClass14, k1]
  refine congrArg some ?_
  rw [b0, b1, b2]

theorem sxori (d : BitVec 7) (a : BitVec 7) (imm : BitVec 10) : Statement (.sxori d a imm) := by
  intro _
  obtain ⟨w, hw, hl, k0, k1, b0, b1, b2⟩ := layout7 0x70000C00 14 3 d a imm (by decide) (by decide) rfl
  refine of_row hl hw ?_
  rw [decodeRow_14 k0, decodeClass14, k1]
  refine congrArg some ?_
  rw [b0, b1, b2]

theorem sshli (d : BitVec 7) (a : BitVec 7) (imm : BitVec 10) : Statement (.sshli d a imm) := by
  intro _
  obtain ⟨w, hw, hl, k0, k1, b0, b1, b2⟩ := layout7 0x70001000 14 4 d a imm (by decide) (by decide) rfl
  refine of_row hl hw ?_
  rw [decodeRow_14 k0, decodeClass14, k1]
  refine congrArg some ?_
  rw [b0, b1, b2]

theorem sshri (d : BitVec 7) (a : BitVec 7) (imm : BitVec 10) : Statement (.sshri d a imm) := by
  intro _
  obtain ⟨w, hw, hl, k0, k1, b0, b1, b2⟩ := layout7 0x70001400 14 5 d a imm (by decide) (by decide) rfl
  refine of_row hl hw ?_
  rw [decodeRow_14 k0, decodeClass14, k1]
  refine congrArg some ?_
  rw [b0, b1, b2]

theorem slui (d : BitVec 7) (a : BitVec 7) (imm : BitVec 10) : Statement (.slui d a imm) := by
  intro _
  obtain ⟨w, hw, hl, k0, k1, b0, b1, b2⟩ := layout7 0x70001800 14 6 d a imm (by decide) (by decide) rfl
  refine of_row hl hw ?_
  rw [decodeRow_14 k0, decodeClass14, k1]
  refine congrArg some ?_
  rw [b0, b1, b2]

theorem smovi (d : BitVec 7) (imm : BitVec 10) : Statement (.smovi d imm) := by
  intro _
  obtain ⟨w, hw, hl, k0, k1, c0, b0, b1⟩ := layout8 0x70001C00 14 7 d imm (by decide) (by decide) rfl
  refine of_row hl hw ?_
  rw [decodeRow_14 k0, decodeClass14, k1]
  refine (if_pos c0).trans ?_
  refine congrArg some ?_
  rw [b0, b1]

theorem vbcast (d : BitVec 7) (a : BitVec 7) : Statement (.vbcast d a) := by
  intro _
  obtain ⟨w, hw, hl, k0, k1, c0, b0, b1⟩ := layout6 0x78000000 15 0 d a (by decide) (by decide) rfl
  refine of_row hl hw ?_
  rw [decodeRow_15 k0, decodeClass15, k1]
  refine (if_pos c0).trans ?_
  refine congrArg some ?_
  rw [b0, b1]

theorem vrdlane (d : BitVec 7) (a : BitVec 7) (b : BitVec 7) : Statement (.vrdlane d a b) := by
  intro _
  obtain ⟨w, hw, hl, k0, k1, b0, b1, b2⟩ := layout5 0x78000001 15 1 d a b (by decide) (by decide) rfl
  refine of_row hl hw ?_
  rw [decodeRow_15 k0, decodeClass15, k1]
  refine congrArg some ?_
  rw [b0, b1, b2]

theorem vwrlane (d : BitVec 7) (a : BitVec 7) (b : BitVec 7) : Statement (.vwrlane d a b) := by
  intro _
  obtain ⟨w, hw, hl, k0, k1, b0, b1, b2⟩ := layout5 0x78000002 15 2 d a b (by decide) (by decide) rfl
  refine of_row hl hw ?_
  rw [decodeRow_15 k0, decodeClass15, k1]
  refine congrArg some ?_
  rw [b0, b1, b2]

theorem vlpc (d : BitVec 7) (b : BitVec 7) : Statement (.vlpc d b) := by
  intro _
  obtain ⟨w, hw, hl, k0, k1, c0, b0, b1⟩ := layout9 0x78000003 15 3 d b (by decide) (by decide) rfl
  refine of_row hl hw ?_
  rw [decodeRow_15 k0, decodeClass15, k1]
  refine (if_pos c0).trans ?_
  refine congrArg some ?_
  rw [b0, b1]

theorem srsr (d : BitVec 7) (a : BitVec 7) : Statement (.srsr d a) := by
  intro _
  obtain ⟨w, hw, hl, k0, k1, c0, b0, b1⟩ := layout6 0x78000004 15 4 d a (by decide) (by decide) rfl
  refine of_row hl hw ?_
  rw [decodeRow_15 k0, decodeClass15, k1]
  refine (if_pos c0).trans ?_
  refine congrArg some ?_
  rw [b0, b1]

theorem swsr (d : BitVec 7) (a : BitVec 7) : Statement (.swsr d a) := by
  intro _
  obtain ⟨w, hw, hl, k0, k1, c0, b0, b1⟩ := layout6 0x78000005 15 5 d a (by decide) (by decide) rfl
  refine of_row hl hw ?_
  rw [decodeRow_15 k0, decodeClass15, k1]
  refine (if_pos c0).trans ?_
  refine congrArg some ?_
  rw [b0, b1]

theorem p2s (d : BitVec 7) (a : BitVec 7) : Statement (.p2s d a) := by
  intro _
  obtain ⟨w, hw, hl, k0, k1, c0, b0, b1⟩ := layout6 0x78000006 15 6 d a (by decide) (by decide) rfl
  refine of_row hl hw ?_
  rw [decodeRow_15 k0, decodeClass15, k1]
  refine (if_pos c0).trans ?_
  refine congrArg some ?_
  rw [b0, b1]

theorem s2p (d : BitVec 7) (a : BitVec 7) : Statement (.s2p d a) := by
  intro _
  obtain ⟨w, hw, hl, k0, k1, c0, b0, b1⟩ := layout6 0x78000007 15 7 d a (by decide) (by decide) rfl
  refine of_row hl hw ?_
  rw [decodeRow_15 k0, decodeClass15, k1]
  refine (if_pos c0).trans ?_
  refine congrArg some ?_
  rw [b0, b1]

theorem pand (d : BitVec 7) (a : BitVec 7) (b : BitVec 7) : Statement (.pand d a b) := by
  intro _
  obtain ⟨w, hw, hl, k0, k1, b0, b1, b2⟩ := layout5 0x78000008 15 8 d a b (by decide) (by decide) rfl
  refine of_row hl hw ?_
  rw [decodeRow_15 k0, decodeClass15, k1]
  refine congrArg some ?_
  rw [b0, b1, b2]

theorem por (d : BitVec 7) (a : BitVec 7) (b : BitVec 7) : Statement (.por d a b) := by
  intro _
  obtain ⟨w, hw, hl, k0, k1, b0, b1, b2⟩ := layout5 0x78000009 15 9 d a b (by decide) (by decide) rfl
  refine of_row hl hw ?_
  rw [decodeRow_15 k0, decodeClass15, k1]
  refine congrArg some ?_
  rw [b0, b1, b2]

theorem pxor (d : BitVec 7) (a : BitVec 7) (b : BitVec 7) : Statement (.pxor d a b) := by
  intro _
  obtain ⟨w, hw, hl, k0, k1, b0, b1, b2⟩ := layout5 0x7800000A 15 10 d a b (by decide) (by decide) rfl
  refine of_row hl hw ?_
  rw [decodeRow_15 k0, decodeClass15, k1]
  refine congrArg some ?_
  rw [b0, b1, b2]

theorem pnot (d : BitVec 7) (a : BitVec 7) : Statement (.pnot d a) := by
  intro _
  obtain ⟨w, hw, hl, k0, k1, c0, b0, b1⟩ := layout6 0x7800000B 15 11 d a (by decide) (by decide) rfl
  refine of_row hl hw ?_
  rw [decodeRow_15 k0, decodeClass15, k1]
  refine (if_pos c0).trans ?_
  refine congrArg some ?_
  rw [b0, b1]

theorem ptag (a : BitVec 7) : Statement (.ptag a) := by
  intro _
  obtain ⟨w, hw, hl, k0, k1, c0, c1, b0⟩ := layout10 0x7800000C 15 12 a (by decide) (by decide) rfl
  refine of_row hl hw ?_
  rw [decodeRow_15 k0, decodeClass15, k1]
  refine (if_pos ⟨c0, c1⟩).trans ?_
  refine congrArg some ?_
  rw [b0]

theorem pcount (d : BitVec 7) (a : BitVec 7) : Statement (.pcount d a) := by
  intro _
  obtain ⟨w, hw, hl, k0, k1, c0, b0, b1⟩ := layout6 0x7800000D 15 13 d a (by decide) (by decide) rfl
  refine of_row hl hw ?_
  rw [decodeRow_15 k0, decodeClass15, k1]
  refine (if_pos c0).trans ?_
  refine congrArg some ?_
  rw [b0, b1]

theorem twr (d : BitVec 7) (a : BitVec 7) (b : BitVec 7) : Statement (.twr d a b) := by
  intro _
  obtain ⟨w, hw, hl, k0, k1, b0, b1, b2⟩ := layout5 0x7800000E 15 14 d a b (by decide) (by decide) rfl
  refine of_row hl hw ?_
  rw [decodeRow_15 k0, decodeClass15, k1]
  refine congrArg some ?_
  rw [b0, b1, b2]

theorem trd (d : BitVec 7) (a : BitVec 7) (b : BitVec 7) : Statement (.trd d a b) := by
  intro _
  obtain ⟨w, hw, hl, k0, k1, b0, b1, b2⟩ := layout5 0x7800000F 15 15 d a b (by decide) (by decide) rfl
  refine of_row hl hw ?_
  rw [decodeRow_15 k0, decodeClass15, k1]
  refine congrArg some ?_
  rw [b0, b1, b2]

theorem br (off : BitVec 20) : Statement (.br off) := by
  intro _
  obtain ⟨w, hw, hl, k0, k1, c0, b0⟩ := layout11 0x80000000 16 0 off (by decide) (by decide) rfl
  refine of_row hl hw ?_
  rw [decodeRow_16 k0, decodeClass16, k1]
  refine (if_pos c0).trans ?_
  refine congrArg some ?_
  rw [b0]

theorem brp (c : BitVec 4) (off : BitVec 20) : Statement (.brp c off) := by
  intro _
  obtain ⟨w, hw, hl, k0, k1, b0, b1⟩ := layout12 0x81000000 16 1 c off (by decide) (by decide) rfl
  refine of_row hl hw ?_
  rw [decodeRow_16 k0, decodeClass16, k1]
  refine congrArg some ?_
  rw [b0, b1]

theorem brnp (c : BitVec 4) (off : BitVec 20) : Statement (.brnp c off) := by
  intro _
  obtain ⟨w, hw, hl, k0, k1, b0, b1⟩ := layout12 0x82000000 16 2 c off (by decide) (by decide) rfl
  refine of_row hl hw ?_
  rw [decodeRow_16 k0, decodeClass16, k1]
  refine congrArg some ?_
  rw [b0, b1]

theorem brz (c : BitVec 4) (off : BitVec 20) : Statement (.brz c off) := by
  intro _
  obtain ⟨w, hw, hl, k0, k1, b0, b1⟩ := layout12 0x83000000 16 3 c off (by decide) (by decide) rfl
  refine of_row hl hw ?_
  rw [decodeRow_16 k0, decodeClass16, k1]
  refine congrArg some ?_
  rw [b0, b1]

theorem brnz (c : BitVec 4) (off : BitVec 20) : Statement (.brnz c off) := by
  intro _
  obtain ⟨w, hw, hl, k0, k1, b0, b1⟩ := layout12 0x84000000 16 4 c off (by decide) (by decide) rfl
  refine of_row hl hw ?_
  rw [decodeRow_16 k0, decodeClass16, k1]
  refine congrArg some ?_
  rw [b0, b1]

theorem call (off : BitVec 20) : Statement (.call off) := by
  intro _
  obtain ⟨w, hw, hl, k0, k1, c0, b0⟩ := layout11 0x85000000 16 5 off (by decide) (by decide) rfl
  refine of_row hl hw ?_
  rw [decodeRow_16 k0, decodeClass16, k1]
  refine (if_pos c0).trans ?_
  refine congrArg some ?_
  rw [b0]

theorem jmpi (c : BitVec 4) : Statement (.jmpi c) := by
  intro _
  obtain ⟨w, hw, hl, k0, k1, c0, b0⟩ := layout13 0x86000000 16 6 c (by decide) (by decide) rfl
  refine of_row hl hw ?_
  rw [decodeRow_16 k0, decodeClass16, k1]
  refine (if_pos c0).trans ?_
  refine congrArg some ?_
  rw [b0]

theorem jmpv (v : BitVec 7) : Statement (.jmpv v) := by
  intro _
  obtain ⟨w, hw, hl, k0, k1, c0, b0⟩ := layout14 0x87000000 16 7 v (by decide) (by decide) rfl
  refine of_row hl hw ?_
  rw [decodeRow_16 k0, decodeClass16, k1]
  refine (if_pos c0).trans ?_
  refine congrArg some ?_
  rw [b0]

theorem ret : Statement (.ret) := by
  intro _
  obtain ⟨w, hw, hl, k0, k1, c0⟩ := layout15 0x88000000 17 0 (by decide) (by decide) rfl
  refine of_row hl hw ?_
  rw [decodeRow_17 k0, decodeClass17, k1]
  refine (if_pos c0).trans ?_
  rfl

theorem exit : Statement (.exit) := by
  intro _
  obtain ⟨w, hw, hl, k0, k1, c0⟩ := layout15 0x89000000 17 1 (by decide) (by decide) rfl
  refine of_row hl hw ?_
  rw [decodeRow_17 k0, decodeClass17, k1]
  refine (if_pos c0).trans ?_
  rfl

theorem nop : Statement (.nop) := by
  intro _
  obtain ⟨w, hw, hl, k0, k1, c0⟩ := layout15 0x8A000000 17 2 (by decide) (by decide) rfl
  refine of_row hl hw ?_
  rw [decodeRow_17 k0, decodeClass17, k1]
  refine (if_pos c0).trans ?_
  rfl

theorem yield : Statement (.yield) := by
  intro _
  obtain ⟨w, hw, hl, k0, k1, c0⟩ := layout15 0x8B000000 17 3 (by decide) (by decide) rfl
  refine of_row hl hw ?_
  rw [decodeRow_17 k0, decodeClass17, k1]
  refine (if_pos c0).trans ?_
  rfl

theorem trap (imm : BitVec 16) : Statement (.trap imm) := by
  intro _
  obtain ⟨w, hw, hl, k0, k1, c0, b0⟩ := layout16 0x8C000000 17 4 imm (by decide) (by decide) rfl
  refine of_row hl hw ?_
  rw [decodeRow_17 k0, decodeClass17, k1]
  refine (if_pos c0).trans ?_
  refine congrArg some ?_
  rw [b0]

theorem brk (imm : BitVec 16) : Statement (.brk imm) := by
  intro _
  obtain ⟨w, hw, hl, k0, k1, c0, b0⟩ := layout16 0x8D000000 17 5 imm (by decide) (by decide) rfl
  refine of_row hl hw ?_
  rw [decodeRow_17 k0, decodeClass17, k1]
  refine (if_pos c0).trans ?_
  refine congrArg some ?_
  rw [b0]

theorem ereturn : Statement (.ereturn) := by
  intro _
  obtain ⟨w, hw, hl, k0, k1, c0⟩ := layout15 0x8E000000 17 6 (by decide) (by decide) rfl
  refine of_row hl hw ?_
  rw [decodeRow_17 k0, decodeClass17, k1]
  refine (if_pos c0).trans ?_
  rfl

theorem ldN8 (g : BitVec 3) (vt : BitVec 7) (vo : BitVec 7) (sp : BitVec 5) : Statement (.ldN8 g vt vo sp) := by
  intro _
  obtain ⟨w, hw, hl, k0, k1, b0, b1, b2, b3⟩ := layout17 0x90000000 18 0 g vt vo sp (by decide) (by decide) rfl
  refine of_row hl hw ?_
  rw [decodeRow_18 k0, decodeClass18, k1]
  refine congrArg some ?_
  rw [b0, b1, b2, b3]

theorem ldI8 (g : BitVec 3) (vt : BitVec 7) (vo : BitVec 7) (sp : BitVec 5) : Statement (.ldI8 g vt vo sp) := by
  intro _
  obtain ⟨w, hw, hl, k0, k1, b0, b1, b2, b3⟩ := layout17 0x90000001 18 1 g vt vo sp (by decide) (by decide) rfl
  refine of_row hl hw ?_
  rw [decodeRow_18 k0, decodeClass18, k1]
  refine congrArg some ?_
  rw [b0, b1, b2, b3]

theorem ldN16 (g : BitVec 3) (vt : BitVec 7) (vo : BitVec 7) (sp : BitVec 5) : Statement (.ldN16 g vt vo sp) := by
  intro _
  obtain ⟨w, hw, hl, k0, k1, b0, b1, b2, b3⟩ := layout17 0x90000002 18 2 g vt vo sp (by decide) (by decide) rfl
  refine of_row hl hw ?_
  rw [decodeRow_18 k0, decodeClass18, k1]
  refine congrArg some ?_
  rw [b0, b1, b2, b3]

theorem ldI16 (g : BitVec 3) (vt : BitVec 7) (vo : BitVec 7) (sp : BitVec 5) : Statement (.ldI16 g vt vo sp) := by
  intro _
  obtain ⟨w, hw, hl, k0, k1, b0, b1, b2, b3⟩ := layout17 0x90000003 18 3 g vt vo sp (by decide) (by decide) rfl
  refine of_row hl hw ?_
  rw [decodeRow_18 k0, decodeClass18, k1]
  refine congrArg some ?_
  rw [b0, b1, b2, b3]

theorem ldB32 (g : BitVec 3) (vt : BitVec 7) (vo : BitVec 7) (sp : BitVec 5) : Statement (.ldB32 g vt vo sp) := by
  intro _
  obtain ⟨w, hw, hl, k0, k1, b0, b1, b2, b3⟩ := layout17 0x90000004 18 4 g vt vo sp (by decide) (by decide) rfl
  refine of_row hl hw ?_
  rw [decodeRow_18 k0, decodeClass18, k1]
  refine congrArg some ?_
  rw [b0, b1, b2, b3]

theorem ldB64 (g : BitVec 3) (vt : BitVec 7) (vo : BitVec 7) (sp : BitVec 5) : Statement (.ldB64 g vt vo sp) := by
  intro _
  obtain ⟨w, hw, hl, k0, k1, b0, b1, b2, b3⟩ := layout17 0x90000005 18 5 g vt vo sp (by decide) (by decide) rfl
  refine of_row hl hw ?_
  rw [decodeRow_18 k0, decodeClass18, k1]
  refine congrArg some ?_
  rw [b0, b1, b2, b3]

theorem ldB128 (g : BitVec 3) (vt : BitVec 7) (vo : BitVec 7) (sp : BitVec 5) : Statement (.ldB128 g vt vo sp) := by
  intro _
  obtain ⟨w, hw, hl, k0, k1, b0, b1, b2, b3⟩ := layout17 0x90000006 18 6 g vt vo sp (by decide) (by decide) rfl
  refine of_row hl hw ?_
  rw [decodeRow_18 k0, decodeClass18, k1]
  refine congrArg some ?_
  rw [b0, b1, b2, b3]

theorem stB8 (g : BitVec 3) (vt : BitVec 7) (vo : BitVec 7) (sp : BitVec 5) : Statement (.stB8 g vt vo sp) := by
  intro _
  obtain ⟨w, hw, hl, k0, k1, b0, b1, b2, b3⟩ := layout17 0x98000000 19 0 g vt vo sp (by decide) (by decide) rfl
  refine of_row hl hw ?_
  rw [decodeRow_19 k0, decodeClass19, k1]
  refine congrArg some ?_
  rw [b0, b1, b2, b3]

theorem stB16 (g : BitVec 3) (vt : BitVec 7) (vo : BitVec 7) (sp : BitVec 5) : Statement (.stB16 g vt vo sp) := by
  intro _
  obtain ⟨w, hw, hl, k0, k1, b0, b1, b2, b3⟩ := layout17 0x98000001 19 1 g vt vo sp (by decide) (by decide) rfl
  refine of_row hl hw ?_
  rw [decodeRow_19 k0, decodeClass19, k1]
  refine congrArg some ?_
  rw [b0, b1, b2, b3]

theorem stB32 (g : BitVec 3) (vt : BitVec 7) (vo : BitVec 7) (sp : BitVec 5) : Statement (.stB32 g vt vo sp) := by
  intro _
  obtain ⟨w, hw, hl, k0, k1, b0, b1, b2, b3⟩ := layout17 0x98000002 19 2 g vt vo sp (by decide) (by decide) rfl
  refine of_row hl hw ?_
  rw [decodeRow_19 k0, decodeClass19, k1]
  refine congrArg some ?_
  rw [b0, b1, b2, b3]

theorem stB64 (g : BitVec 3) (vt : BitVec 7) (vo : BitVec 7) (sp : BitVec 5) : Statement (.stB64 g vt vo sp) := by
  intro _
  obtain ⟨w, hw, hl, k0, k1, b0, b1, b2, b3⟩ := layout17 0x98000003 19 3 g vt vo sp (by decide) (by decide) rfl
  refine of_row hl hw ?_
  rw [decodeRow_19 k0, decodeClass19, k1]
  refine congrArg some ?_
  rw [b0, b1, b2, b3]

theorem stB128 (g : BitVec 3) (vt : BitVec 7) (vo : BitVec 7) (sp : BitVec 5) : Statement (.stB128 g vt vo sp) := by
  intro _
  obtain ⟨w, hw, hl, k0, k1, b0, b1, b2, b3⟩ := layout17 0x98000004 19 4 g vt vo sp (by decide) (by decide) rfl
  refine of_row hl hw ?_
  rw [decodeRow_19 k0, decodeClass19, k1]
  refine congrArg some ?_
  rw [b0, b1, b2, b3]

theorem aaddI32 (g : BitVec 3) (vt : BitVec 7) (vo : BitVec 7) (sp : BitVec 5) : Statement (.aaddI32 g vt vo sp) := by
  intro _
  obtain ⟨w, hw, hl, k0, k1, b0, b1, b2, b3⟩ := layout17 0xA0000000 20 0 g vt vo sp (by decide) (by decide) rfl
  refine of_row hl hw ?_
  rw [decodeRow_20 k0, decodeClass20, k1]
  refine congrArg some ?_
  rw [b0, b1, b2, b3]

theorem aaddI64 (g : BitVec 3) (vt : BitVec 7) (vo : BitVec 7) (sp : BitVec 5) : Statement (.aaddI64 g vt vo sp) := by
  intro _
  obtain ⟨w, hw, hl, k0, k1, b0, b1, b2, b3⟩ := layout17 0xA0000001 20 1 g vt vo sp (by decide) (by decide) rfl
  refine of_row hl hw ?_
  rw [decodeRow_20 k0, decodeClass20, k1]
  refine congrArg some ?_
  rw [b0, b1, b2, b3]

theorem aaddF32 (g : BitVec 3) (vt : BitVec 7) (vo : BitVec 7) (sp : BitVec 5) : Statement (.aaddF32 g vt vo sp) := by
  intro _
  obtain ⟨w, hw, hl, k0, k1, b0, b1, b2, b3⟩ := layout17 0xA0000002 20 2 g vt vo sp (by decide) (by decide) rfl
  refine of_row hl hw ?_
  rw [decodeRow_20 k0, decodeClass20, k1]
  refine congrArg some ?_
  rw [b0, b1, b2, b3]

theorem aminI32 (g : BitVec 3) (vt : BitVec 7) (vo : BitVec 7) (sp : BitVec 5) : Statement (.aminI32 g vt vo sp) := by
  intro _
  obtain ⟨w, hw, hl, k0, k1, b0, b1, b2, b3⟩ := layout17 0xA0000003 20 3 g vt vo sp (by decide) (by decide) rfl
  refine of_row hl hw ?_
  rw [decodeRow_20 k0, decodeClass20, k1]
  refine congrArg some ?_
  rw [b0, b1, b2, b3]

theorem amaxI32 (g : BitVec 3) (vt : BitVec 7) (vo : BitVec 7) (sp : BitVec 5) : Statement (.amaxI32 g vt vo sp) := by
  intro _
  obtain ⟨w, hw, hl, k0, k1, b0, b1, b2, b3⟩ := layout17 0xA0000004 20 4 g vt vo sp (by decide) (by decide) rfl
  refine of_row hl hw ?_
  rw [decodeRow_20 k0, decodeClass20, k1]
  refine congrArg some ?_
  rw [b0, b1, b2, b3]

theorem aminN32 (g : BitVec 3) (vt : BitVec 7) (vo : BitVec 7) (sp : BitVec 5) : Statement (.aminN32 g vt vo sp) := by
  intro _
  obtain ⟨w, hw, hl, k0, k1, b0, b1, b2, b3⟩ := layout17 0xA0000005 20 5 g vt vo sp (by decide) (by decide) rfl
  refine of_row hl hw ?_
  rw [decodeRow_20 k0, decodeClass20, k1]
  refine congrArg some ?_
  rw [b0, b1, b2, b3]

theorem amaxN32 (g : BitVec 3) (vt : BitVec 7) (vo : BitVec 7) (sp : BitVec 5) : Statement (.amaxN32 g vt vo sp) := by
  intro _
  obtain ⟨w, hw, hl, k0, k1, b0, b1, b2, b3⟩ := layout17 0xA0000006 20 6 g vt vo sp (by decide) (by decide) rfl
  refine of_row hl hw ?_
  rw [decodeRow_20 k0, decodeClass20, k1]
  refine congrArg some ?_
  rw [b0, b1, b2, b3]

theorem aminF32 (g : BitVec 3) (vt : BitVec 7) (vo : BitVec 7) (sp : BitVec 5) : Statement (.aminF32 g vt vo sp) := by
  intro _
  obtain ⟨w, hw, hl, k0, k1, b0, b1, b2, b3⟩ := layout17 0xA0000007 20 7 g vt vo sp (by decide) (by decide) rfl
  refine of_row hl hw ?_
  rw [decodeRow_20 k0, decodeClass20, k1]
  refine congrArg some ?_
  rw [b0, b1, b2, b3]

theorem amaxF32 (g : BitVec 3) (vt : BitVec 7) (vo : BitVec 7) (sp : BitVec 5) : Statement (.amaxF32 g vt vo sp) := by
  intro _
  obtain ⟨w, hw, hl, k0, k1, b0, b1, b2, b3⟩ := layout17 0xA0000008 20 8 g vt vo sp (by decide) (by decide) rfl
  refine of_row hl hw ?_
  rw [decodeRow_20 k0, decodeClass20, k1]
  refine congrArg some ?_
  rw [b0, b1, b2, b3]

theorem aand (g : BitVec 3) (vt : BitVec 7) (vo : BitVec 7) (sp : BitVec 5) : Statement (.aand g vt vo sp) := by
  intro _
  obtain ⟨w, hw, hl, k0, k1, b0, b1, b2, b3⟩ := layout17 0xA0000009 20 9 g vt vo sp (by decide) (by decide) rfl
  refine of_row hl hw ?_
  rw [decodeRow_20 k0, decodeClass20, k1]
  refine congrArg some ?_
  rw [b0, b1, b2, b3]

theorem aor (g : BitVec 3) (vt : BitVec 7) (vo : BitVec 7) (sp : BitVec 5) : Statement (.aor g vt vo sp) := by
  intro _
  obtain ⟨w, hw, hl, k0, k1, b0, b1, b2, b3⟩ := layout17 0xA000000A 20 10 g vt vo sp (by decide) (by decide) rfl
  refine of_row hl hw ?_
  rw [decodeRow_20 k0, decodeClass20, k1]
  refine congrArg some ?_
  rw [b0, b1, b2, b3]

theorem axor (g : BitVec 3) (vt : BitVec 7) (vo : BitVec 7) (sp : BitVec 5) : Statement (.axor g vt vo sp) := by
  intro _
  obtain ⟨w, hw, hl, k0, k1, b0, b1, b2, b3⟩ := layout17 0xA000000B 20 11 g vt vo sp (by decide) (by decide) rfl
  refine of_row hl hw ?_
  rw [decodeRow_20 k0, decodeClass20, k1]
  refine congrArg some ?_
  rw [b0, b1, b2, b3]

theorem axchgB32 (g : BitVec 3) (vt : BitVec 7) (vo : BitVec 7) (sp : BitVec 5) : Statement (.axchgB32 g vt vo sp) := by
  intro _
  obtain ⟨w, hw, hl, k0, k1, b0, b1, b2, b3⟩ := layout17 0xA000000C 20 12 g vt vo sp (by decide) (by decide) rfl
  refine of_row hl hw ?_
  rw [decodeRow_20 k0, decodeClass20, k1]
  refine congrArg some ?_
  rw [b0, b1, b2, b3]

theorem axchgB64 (g : BitVec 3) (vt : BitVec 7) (vo : BitVec 7) (sp : BitVec 5) : Statement (.axchgB64 g vt vo sp) := by
  intro _
  obtain ⟨w, hw, hl, k0, k1, b0, b1, b2, b3⟩ := layout17 0xA000000D 20 13 g vt vo sp (by decide) (by decide) rfl
  refine of_row hl hw ?_
  rw [decodeRow_20 k0, decodeClass20, k1]
  refine congrArg some ?_
  rw [b0, b1, b2, b3]

theorem acasB32 (g : BitVec 3) (vt : BitVec 7) (vo : BitVec 7) (sp : BitVec 5) : Statement (.acasB32 g vt vo sp) := by
  intro _
  obtain ⟨w, hw, hl, k0, k1, b0, b1, b2, b3⟩ := layout17 0xA000000E 20 14 g vt vo sp (by decide) (by decide) rfl
  refine of_row hl hw ?_
  rw [decodeRow_20 k0, decodeClass20, k1]
  refine congrArg some ?_
  rw [b0, b1, b2, b3]

theorem acasB64 (g : BitVec 3) (vt : BitVec 7) (vo : BitVec 7) (sp : BitVec 5) : Statement (.acasB64 g vt vo sp) := by
  intro _
  obtain ⟨w, hw, hl, k0, k1, b0, b1, b2, b3⟩ := layout17 0xA000000F 20 15 g vt vo sp (by decide) (by decide) rfl
  refine of_row hl hw ?_
  rw [decodeRow_20 k0, decodeClass20, k1]
  refine congrArg some ?_
  rw [b0, b1, b2, b3]

theorem vpoolB32 (g : BitVec 3) (vt : BitVec 7) (vo : BitVec 7) (sp : BitVec 5) : Statement (.vpoolB32 g vt vo sp) := by
  intro _
  obtain ⟨w, hw, hl, k0, k1, b0, b1, b2, b3⟩ := layout17 0xA8000000 21 0 g vt vo sp (by decide) (by decide) rfl
  refine of_row hl hw ?_
  rw [decodeRow_21 k0, decodeClass21, k1]
  refine congrArg some ?_
  rw [b0, b1, b2, b3]

theorem vpoolB64 (g : BitVec 3) (vt : BitVec 7) (vo : BitVec 7) (sp : BitVec 5) : Statement (.vpoolB64 g vt vo sp) := by
  intro _
  obtain ⟨w, hw, hl, k0, k1, b0, b1, b2, b3⟩ := layout17 0xA8000001 21 1 g vt vo sp (by decide) (by decide) rfl
  refine of_row hl hw ?_
  rw [decodeRow_21 k0, decodeClass21, k1]
  refine congrArg some ?_
  rw [b0, b1, b2, b3]

theorem sldB32 (d : BitVec 7) (sp : BitVec 5) (off : BitVec 12) : Statement (.sldB32 d sp off) := by
  intro _
  obtain ⟨w, hw, hl, k0, k1, b0, b1, b2⟩ := layout18 0xB0000000 22 0 d sp off (by decide) (by decide) rfl
  refine of_row hl hw ?_
  rw [decodeRow_22 k0, decodeClass22, k1]
  refine congrArg some ?_
  rw [b0, b1, b2]

theorem sldB64 (d : BitVec 7) (sp : BitVec 5) (off : BitVec 12) : Statement (.sldB64 d sp off) := by
  intro _
  obtain ⟨w, hw, hl, k0, k1, b0, b1, b2⟩ := layout18 0xB0001000 22 1 d sp off (by decide) (by decide) rfl
  refine of_row hl hw ?_
  rw [decodeRow_22 k0, decodeClass22, k1]
  refine congrArg some ?_
  rw [b0, b1, b2]

theorem sstB32 (d : BitVec 7) (sp : BitVec 5) (off : BitVec 12) : Statement (.sstB32 d sp off) := by
  intro _
  obtain ⟨w, hw, hl, k0, k1, b0, b1, b2⟩ := layout18 0xB0002000 22 2 d sp off (by decide) (by decide) rfl
  refine of_row hl hw ?_
  rw [decodeRow_22 k0, decodeClass22, k1]
  refine congrArg some ?_
  rw [b0, b1, b2]

theorem sstB64 (d : BitVec 7) (sp : BitVec 5) (off : BitVec 12) : Statement (.sstB64 d sp off) := by
  intro _
  obtain ⟨w, hw, hl, k0, k1, b0, b1, b2⟩ := layout18 0xB0003000 22 3 d sp off (by decide) (by decide) rfl
  refine of_row hl hw ?_
  rw [decodeRow_22 k0, decodeClass22, k1]
  refine congrArg some ?_
  rw [b0, b1, b2]

theorem saaddB64 (d : BitVec 7) (sp : BitVec 5) (off : BitVec 12) : Statement (.saaddB64 d sp off) := by
  intro _
  obtain ⟨w, hw, hl, k0, k1, b0, b1, b2⟩ := layout18 0xB0004000 22 4 d sp off (by decide) (by decide) rfl
  refine of_row hl hw ?_
  rw [decodeRow_22 k0, decodeClass22, k1]
  refine congrArg some ?_
  rw [b0, b1, b2]

theorem scasB64 (d : BitVec 7) (sp : BitVec 5) (off : BitVec 12) : Statement (.scasB64 d sp off) := by
  intro _
  obtain ⟨w, hw, hl, k0, k1, b0, b1, b2⟩ := layout18 0xB0005000 22 5 d sp off (by decide) (by decide) rfl
  refine of_row hl hw ?_
  rw [decodeRow_22 k0, decodeClass22, k1]
  refine congrArg some ?_
  rw [b0, b1, b2]

theorem sprefetch (sp : BitVec 5) (off : BitVec 12) : Statement (.sprefetch sp off) := by
  intro _
  obtain ⟨w, hw, hl, k0, k1, c0, b0, b1⟩ := layout19 0xB0006000 22 6 sp off (by decide) (by decide) rfl
  refine of_row hl hw ?_
  rw [decodeRow_22 k0, decodeClass22, k1]
  refine (if_pos c0).trans ?_
  refine congrArg some ?_
  rw [b0, b1]

theorem slduB32 (d : BitVec 7) (sp : BitVec 5) (off : BitVec 12) : Statement (.slduB32 d sp off) := by
  intro _
  obtain ⟨w, hw, hl, k0, k1, b0, b1, b2⟩ := layout18 0xB0007000 22 7 d sp off (by decide) (by decide) rfl
  refine of_row hl hw ?_
  rw [decodeRow_22 k0, decodeClass22, k1]
  refine congrArg some ?_
  rw [b0, b1, b2]

theorem aappB32 (g : BitVec 3) (vt : BitVec 7) (vo : BitVec 7) (sp : BitVec 5) : Statement (.aappB32 g vt vo sp) := by
  intro _
  obtain ⟨w, hw, hl, k0, k1, b0, b1, b2, b3⟩ := layout17 0xB8000000 23 0 g vt vo sp (by decide) (by decide) rfl
  refine of_row hl hw ?_
  rw [decodeRow_23 k0, decodeClass23, k1]
  refine congrArg some ?_
  rw [b0, b1, b2, b3]

theorem aappB128 (g : BitVec 3) (vt : BitVec 7) (vo : BitVec 7) (sp : BitVec 5) : Statement (.aappB128 g vt vo sp) := by
  intro _
  obtain ⟨w, hw, hl, k0, k1, b0, b1, b2, b3⟩ := layout17 0xB8000001 23 1 g vt vo sp (by decide) (by decide) rfl
  refine of_row hl hw ?_
  rw [decodeRow_23 k0, decodeClass23, k1]
  refine congrArg some ?_
  rw [b0, b1, b2, b3]

theorem aappl (g : BitVec 3) (vt : BitVec 7) (vo : BitVec 7) (sp : BitVec 5) : Statement (.aappl g vt vo sp) := by
  intro _
  obtain ⟨w, hw, hl, k0, k1, b0, b1, b2, b3⟩ := layout17 0xB8000002 23 2 g vt vo sp (by decide) (by decide) rfl
  refine of_row hl hw ?_
  rw [decodeRow_23 k0, decodeClass23, k1]
  refine congrArg some ?_
  rw [b0, b1, b2, b3]

theorem ccopy (ctx : BitVec 3) (td : BitVec 5) (ts : BitVec 5) (sl : BitVec 6) (sb : BitVec 5) : Statement (.ccopy ctx td ts sl sb) := by
  intro _
  obtain ⟨w, hw, hl, k0, k1, b0, b1, b2, b3, b4⟩ := layout20 0xC0000000 24 0 ctx td ts sl sb (by decide) (by decide) rfl
  refine of_row hl hw ?_
  rw [decodeRow_24 k0, decodeClass24, k1]
  refine congrArg some ?_
  rw [b0, b1, b2, b3, b4]

theorem cblock (ctx : BitVec 3) (td : BitVec 5) (ts : BitVec 5) (sl : BitVec 6) (sb : BitVec 5) : Statement (.cblock ctx td ts sl sb) := by
  intro _
  obtain ⟨w, hw, hl, k0, k1, b0, b1, b2, b3, b4⟩ := layout20 0xC1000000 24 1 ctx td ts sl sb (by decide) (by decide) rfl
  refine of_row hl hw ?_
  rw [decodeRow_24 k0, decodeClass24, k1]
  refine congrArg some ?_
  rw [b0, b1, b2, b3, b4]

theorem cfill (ctx : BitVec 3) (td : BitVec 5) (ts : BitVec 5) (sl : BitVec 6) (sb : BitVec 5) : Statement (.cfill ctx td ts sl sb) := by
  intro _
  obtain ⟨w, hw, hl, k0, k1, b0, b1, b2, b3, b4⟩ := layout20 0xC2000000 24 2 ctx td ts sl sb (by decide) (by decide) rfl
  refine of_row hl hw ?_
  rw [decodeRow_24 k0, decodeClass24, k1]
  refine congrArg some ?_
  rw [b0, b1, b2, b3, b4]

theorem cgather (ctx : BitVec 3) (td : BitVec 5) (ts : BitVec 5) (sl : BitVec 6) (sb : BitVec 5) : Statement (.cgather ctx td ts sl sb) := by
  intro _
  obtain ⟨w, hw, hl, k0, k1, b0, b1, b2, b3, b4⟩ := layout20 0xC3000000 24 3 ctx td ts sl sb (by decide) (by decide) rfl
  refine of_row hl hw ?_
  rw [decodeRow_24 k0, decodeClass24, k1]
  refine congrArg some ?_
  rw [b0, b1, b2, b3, b4]

theorem cprefetch (ctx : BitVec 3) (ts : BitVec 5) (sl : BitVec 6) (sb : BitVec 5) : Statement (.cprefetch ctx ts sl sb) := by
  intro _
  obtain ⟨w, hw, hl, k0, k1, c0, b0, b1, b2, b3⟩ := layout21 0xC4000000 24 4 ctx ts sl sb (by decide) (by decide) rfl
  refine of_row hl hw ?_
  rw [decodeRow_24 k0, decodeClass24, k1]
  refine (if_pos c0).trans ?_
  refine congrArg some ?_
  rw [b0, b1, b2, b3]

theorem cpromote (ctx : BitVec 3) (ts : BitVec 5) (sl : BitVec 6) (sb : BitVec 5) : Statement (.cpromote ctx ts sl sb) := by
  intro _
  obtain ⟨w, hw, hl, k0, k1, c0, b0, b1, b2, b3⟩ := layout21 0xC5000000 24 5 ctx ts sl sb (by decide) (by decide) rfl
  refine of_row hl hw ?_
  rw [decodeRow_24 k0, decodeClass24, k1]
  refine (if_pos c0).trans ?_
  refine congrArg some ?_
  rw [b0, b1, b2, b3]

theorem mloop (acc : BitVec 4) (ta : BitVec 5) (tb : BitVec 5) (sk : BitVec 5) (vf : BitVec 5) : Statement (.mloop acc ta tb sk vf) := by
  intro _
  obtain ⟨w, hw, hl, k0, k1, b0, b1, b2, b3, b4⟩ := layout22 0xC8000000 25 0 acc ta tb sk vf (by decide) (by decide) rfl
  refine of_row hl hw ?_
  rw [decodeRow_25 k0, decodeClass25, k1]
  refine congrArg some ?_
  rw [b0, b1, b2, b3, b4]

theorem mloopG (acc : BitVec 4) (ta : BitVec 5) (tb : BitVec 5) (sk : BitVec 5) (vf : BitVec 5) : Statement (.mloopG acc ta tb sk vf) := by
  intro _
  obtain ⟨w, hw, hl, k0, k1, b0, b1, b2, b3, b4⟩ := layout22 0xC9000000 25 1 acc ta tb sk vf (by decide) (by decide) rfl
  refine of_row hl hw ?_
  rw [decodeRow_25 k0, decodeClass25, k1]
  refine congrArg some ?_
  rw [b0, b1, b2, b3, b4]

theorem mloopCx (acc : BitVec 4) (ta : BitVec 5) (tb : BitVec 5) (sk : BitVec 5) (vf : BitVec 5) : Statement (.mloopCx acc ta tb sk vf) := by
  intro _
  obtain ⟨w, hw, hl, k0, k1, b0, b1, b2, b3, b4⟩ := layout22 0xCA000000 25 2 acc ta tb sk vf (by decide) (by decide) rfl
  refine of_row hl hw ?_
  rw [decodeRow_25 k0, decodeClass25, k1]
  refine congrArg some ?_
  rw [b0, b1, b2, b3, b4]

theorem mdrain (acc : BitVec 4) (ta : BitVec 5) (sk : BitVec 5) (vf : BitVec 5) : Statement (.mdrain acc ta sk vf) := by
  intro _
  obtain ⟨w, hw, hl, k0, k1, c0, b0, b1, b2, b3⟩ := layout23 0xCB000000 25 3 acc ta sk vf (by decide) (by decide) rfl
  refine of_row hl hw ?_
  rw [decodeRow_25 k0, decodeClass25, k1]
  refine (if_pos c0).trans ?_
  refine congrArg some ?_
  rw [b0, b1, b2, b3]

theorem mdrainMx (acc : BitVec 4) (ta : BitVec 5) (tb : BitVec 5) (sk : BitVec 5) (vf : BitVec 5) : Statement (.mdrainMx acc ta tb sk vf) := by
  intro _
  obtain ⟨w, hw, hl, k0, k1, b0, b1, b2, b3, b4⟩ := layout22 0xCC000000 25 4 acc ta tb sk vf (by decide) (by decide) rfl
  refine of_row hl hw ?_
  rw [decodeRow_25 k0, decodeClass25, k1]
  refine congrArg some ?_
  rw [b0, b1, b2, b3, b4]

theorem mzero (acc : BitVec 4) : Statement (.mzero acc) := by
  intro _
  obtain ⟨w, hw, hl, k0, k1, c0, b0⟩ := layout13 0xCD000000 25 5 acc (by decide) (by decide) rfl
  refine of_row hl hw ?_
  rw [decodeRow_25 k0, decodeClass25, k1]
  refine (if_pos c0).trans ?_
  refine congrArg some ?_
  rw [b0]

theorem mload (acc : BitVec 4) (ta : BitVec 5) : Statement (.mload acc ta) := by
  intro _
  obtain ⟨w, hw, hl, k0, k1, c0, b0, b1⟩ := layout24 0xCE000000 25 6 acc ta (by decide) (by decide) rfl
  refine of_row hl hw ?_
  rw [decodeRow_25 k0, decodeClass25, k1]
  refine (if_pos c0).trans ?_
  refine congrArg some ?_
  rw [b0, b1]

theorem mprog (acc : BitVec 4) (sk : BitVec 5) : Statement (.mprog acc sk) := by
  intro _
  obtain ⟨w, hw, hl, k0, k1, c0, c1, b0, b1⟩ := layout25 0xCF000000 25 7 acc sk (by decide) (by decide) rfl
  refine of_row hl hw ?_
  rw [decodeRow_25 k0, decodeClass25, k1]
  refine (if_pos ⟨c0, c1⟩).trans ?_
  refine congrArg some ?_
  rw [b0, b1]

theorem barinit (a : BitVec 7) (b : BitVec 7) : Statement (.barinit a b) := by
  intro _
  obtain ⟨w, hw, hl, k0, k1, c0, c1, b0, b1⟩ := layout26 0xD0000000 26 0 a b (by decide) (by decide) rfl
  refine of_row hl hw ?_
  rw [decodeRow_26 k0, decodeClass26, k1]
  refine (if_pos ⟨c0, c1⟩).trans ?_
  refine congrArg some ?_
  rw [b0, b1]

theorem bararrive (d : BitVec 7) (a : BitVec 7) (b : BitVec 7) : Statement (.bararrive d a b) := by
  intro _
  obtain ⟨w, hw, hl, k0, k1, c0, b0, b1, b2⟩ := layout27 0xD0400000 26 1 d a b (by decide) (by decide) rfl
  refine of_row hl hw ?_
  rw [decodeRow_26 k0, decodeClass26, k1]
  refine (if_pos c0).trans ?_
  refine congrArg some ?_
  rw [b0, b1, b2]

theorem barexpect (d : BitVec 7) (a : BitVec 7) (b : BitVec 7) : Statement (.barexpect d a b) := by
  intro _
  obtain ⟨w, hw, hl, k0, k1, c0, b0, b1, b2⟩ := layout27 0xD0800000 26 2 d a b (by decide) (by decide) rfl
  refine of_row hl hw ?_
  rw [decodeRow_26 k0, decodeClass26, k1]
  refine (if_pos c0).trans ?_
  refine congrArg some ?_
  rw [b0, b1, b2]

theorem barquery (d : BitVec 7) (a : BitVec 7) : Statement (.barquery d a) := by
  intro _
  obtain ⟨w, hw, hl, k0, k1, c0, b0, b1⟩ := layout28 0xD0C00000 26 3 d a (by decide) (by decide) rfl
  refine of_row hl hw ?_
  rw [decodeRow_26 k0, decodeClass26, k1]
  refine (if_pos c0).trans ?_
  refine congrArg some ?_
  rw [b0, b1]

theorem tlread (d : BitVec 7) (a : BitVec 7) : Statement (.tlread d a) := by
  intro _
  obtain ⟨w, hw, hl, k0, k1, c0, b0, b1⟩ := layout28 0xD1000000 26 4 d a (by decide) (by decide) rfl
  refine of_row hl hw ?_
  rw [decodeRow_26 k0, decodeClass26, k1]
  refine (if_pos c0).trans ?_
  refine congrArg some ?_
  rw [b0, b1]

theorem wait (d : BitVec 7) (a : BitVec 7) (tmo : BitVec 6) : Statement (.wait d a tmo) := by
  intro _
  obtain ⟨w, hw, hl, k0, k1, c0, c1, b0, b1, b2⟩ := layout29 0xD1400000 26 5 d a tmo (by decide) (by decide) rfl
  refine of_row hl hw ?_
  rw [decodeRow_26 k0, decodeClass26, k1]
  refine (if_pos ⟨c0, c1⟩).trans ?_
  refine congrArg some ?_
  rw [b0, b1, b2]

theorem waitInline (d : BitVec 7) (a : BitVec 7) (tmo : BitVec 6) : Statement (.waitInline d a tmo) := by
  intro _
  obtain ⟨w, hw, hl, k0, k1, c0, c1, b0, b1, b2⟩ := layout30 0xD1400080 26 5 d a tmo (by decide) (by decide) rfl
  refine of_row hl hw ?_
  rw [decodeRow_26 k0, decodeClass26, k1]
  refine (if_neg (by rw [c1]; omega)).trans ?_
  refine (if_pos ⟨c0, c1⟩).trans ?_
  refine congrArg some ?_
  rw [b0, b1, b2]

theorem settle (nl : BitVec 5) (ns : BitVec 5) (nc : BitVec 5) (nm : BitVec 5) : Statement (.settle nl ns nc nm) := by
  intro _
  obtain ⟨w, hw, hl, k0, k1, c0, b0, b1, b2, b3⟩ := layout31 0xD1800000 26 6 nl ns nc nm (by decide) (by decide) rfl
  refine of_row hl hw ?_
  rw [decodeRow_26 k0, decodeClass26, k1]
  refine (if_pos c0).trans ?_
  refine congrArg some ?_
  rw [b0, b1, b2, b3]

theorem fenceSys : Statement (.fenceSys) := by
  intro _
  obtain ⟨w, hw, hl, k0, k1, c0⟩ := layout32 0xD1C00000 26 7 (by decide) (by decide) rfl
  refine of_row hl hw ?_
  rw [decodeRow_26 k0, decodeClass26, k1]
  refine (if_pos c0).trans ?_
  rfl

theorem flush (d : BitVec 7) (a : BitVec 7) (b : BitVec 7) : Statement (.flush d a b) := by
  intro _
  obtain ⟨w, hw, hl, k0, k1, c0, b0, b1, b2⟩ := layout27 0xD2000000 26 8 d a b (by decide) (by decide) rfl
  refine of_row hl hw ?_
  rw [decodeRow_26 k0, decodeClass26, k1]
  refine (if_pos c0).trans ?_
  refine congrArg some ?_
  rw [b0, b1, b2]

theorem inval (d : BitVec 7) (a : BitVec 7) (b : BitVec 7) : Statement (.inval d a b) := by
  intro _
  obtain ⟨w, hw, hl, k0, k1, c0, b0, b1, b2⟩ := layout27 0xD2400000 26 9 d a b (by decide) (by decide) rfl
  refine of_row hl hw ?_
  rw [decodeRow_26 k0, decodeClass26, k1]
  refine (if_pos c0).trans ?_
  refine congrArg some ?_
  rw [b0, b1, b2]

theorem clock (d : BitVec 7) : Statement (.clock d) := by
  intro _
  obtain ⟨w, hw, hl, k0, k1, c0, b0⟩ := layout33 0xD2800000 26 10 d (by decide) (by decide) rfl
  refine of_row hl hw ?_
  rw [decodeRow_26 k0, decodeClass26, k1]
  refine (if_pos c0).trans ?_
  refine congrArg some ?_
  rw [b0]

theorem wspawn (d : BitVec 7) (a : BitVec 7) (b : BitVec 7) : Statement (.wspawn d a b) := by
  intro _
  obtain ⟨w, hw, hl, k0, k1, c0, b0, b1, b2⟩ := layout27 0xD8000000 27 0 d a b (by decide) (by decide) rfl
  refine of_row hl hw ?_
  rw [decodeRow_27 k0, decodeClass27, k1]
  refine (if_pos c0).trans ?_
  refine congrArg some ?_
  rw [b0, b1, b2]

theorem wexit (d : BitVec 7) (a : BitVec 7) : Statement (.wexit d a) := by
  intro _
  obtain ⟨w, hw, hl, k0, k1, c0, b0, b1⟩ := layout28 0xD8400000 27 1 d a (by decide) (by decide) rfl
  refine of_row hl hw ?_
  rw [decodeRow_27 k0, decodeClass27, k1]
  refine (if_pos c0).trans ?_
  refine congrArg some ?_
  rw [b0, b1]

theorem rspawn (d : BitVec 7) (a : BitVec 7) (b : BitVec 7) : Statement (.rspawn d a b) := by
  intro _
  obtain ⟨w, hw, hl, k0, k1, c0, b0, b1, b2⟩ := layout27 0xD8800000 27 2 d a b (by decide) (by decide) rfl
  refine of_row hl hw ?_
  rw [decodeRow_27 k0, decodeClass27, k1]
  refine (if_pos c0).trans ?_
  refine congrArg some ?_
  rw [b0, b1, b2]

theorem odup (d : BitVec 7) (a : BitVec 7) (b : BitVec 7) : Statement (.odup d a b) := by
  intro _
  obtain ⟨w, hw, hl, k0, k1, c0, b0, b1, b2⟩ := layout27 0xD8C00000 27 3 d a b (by decide) (by decide) rfl
  refine of_row hl hw ?_
  rw [decodeRow_27 k0, decodeClass27, k1]
  refine (if_pos c0).trans ?_
  refine congrArg some ?_
  rw [b0, b1, b2]

theorem oclose (d : BitVec 7) (a : BitVec 7) : Statement (.oclose d a) := by
  intro _
  obtain ⟨w, hw, hl, k0, k1, c0, b0, b1⟩ := layout28 0xD9000000 27 4 d a (by decide) (by decide) rfl
  refine of_row hl hw ?_
  rw [decodeRow_27 k0, decodeClass27, k1]
  refine (if_pos c0).trans ?_
  refine congrArg some ?_
  rw [b0, b1]

theorem oinfo (d : BitVec 7) (a : BitVec 7) (b : BitVec 7) : Statement (.oinfo d a b) := by
  intro _
  obtain ⟨w, hw, hl, k0, k1, c0, b0, b1, b2⟩ := layout27 0xD9400000 27 5 d a b (by decide) (by decide) rfl
  refine of_row hl hw ?_
  rw [decodeRow_27 k0, decodeClass27, k1]
  refine (if_pos c0).trans ?_
  refine congrArg some ?_
  rw [b0, b1, b2]

theorem wsnew (d : BitVec 7) : Statement (.wsnew d) := by
  intro _
  obtain ⟨w, hw, hl, k0, k1, c0, b0⟩ := layout33 0xD9800000 27 6 d (by decide) (by decide) rfl
  refine of_row hl hw ?_
  rw [decodeRow_27 k0, decodeClass27, k1]
  refine (if_pos c0).trans ?_
  refine congrArg some ?_
  rw [b0]

theorem wsadd (d : BitVec 7) (a : BitVec 7) (b : BitVec 7) : Statement (.wsadd d a b) := by
  intro _
  obtain ⟨w, hw, hl, k0, k1, c0, b0, b1, b2⟩ := layout27 0xD9C00000 27 7 d a b (by decide) (by decide) rfl
  refine of_row hl hw ?_
  rw [decodeRow_27 k0, decodeClass27, k1]
  refine (if_pos c0).trans ?_
  refine congrArg some ?_
  rw [b0, b1, b2]

theorem wsdel (d : BitVec 7) (a : BitVec 7) (b : BitVec 7) : Statement (.wsdel d a b) := by
  intro _
  obtain ⟨w, hw, hl, k0, k1, c0, b0, b1, b2⟩ := layout27 0xDA000000 27 8 d a b (by decide) (by decide) rfl
  refine of_row hl hw ?_
  rw [decodeRow_27 k0, decodeClass27, k1]
  refine (if_pos c0).trans ?_
  refine congrArg some ?_
  rw [b0, b1, b2]

theorem tnew (d : BitVec 7) : Statement (.tnew d) := by
  intro _
  obtain ⟨w, hw, hl, k0, k1, c0, b0⟩ := layout33 0xDA400000 27 9 d (by decide) (by decide) rfl
  refine of_row hl hw ?_
  rw [decodeRow_27 k0, decodeClass27, k1]
  refine (if_pos c0).trans ?_
  refine congrArg some ?_
  rw [b0]

theorem tarm (d : BitVec 7) (a : BitVec 7) (b : BitVec 7) : Statement (.tarm d a b) := by
  intro _
  obtain ⟨w, hw, hl, k0, k1, c0, b0, b1, b2⟩ := layout27 0xDA800000 27 10 d a b (by decide) (by decide) rfl
  refine of_row hl hw ?_
  rw [decodeRow_27 k0, decodeClass27, k1]
  refine (if_pos c0).trans ?_
  refine congrArg some ?_
  rw [b0, b1, b2]

theorem tcancel (d : BitVec 7) (a : BitVec 7) : Statement (.tcancel d a) := by
  intro _
  obtain ⟨w, hw, hl, k0, k1, c0, b0, b1⟩ := layout28 0xDAC00000 27 11 d a (by decide) (by decide) rfl
  refine of_row hl hw ?_
  rw [decodeRow_27 k0, decodeClass27, k1]
  refine (if_pos c0).trans ?_
  refine congrArg some ?_
  rw [b0, b1]

theorem pnew (d : BitVec 7) (a : BitVec 7) : Statement (.pnew d a) := by
  intro _
  obtain ⟨w, hw, hl, k0, k1, c0, b0, b1⟩ := layout28 0xDB000000 27 12 d a (by decide) (by decide) rfl
  refine of_row hl hw ?_
  rw [decodeRow_27 k0, decodeClass27, k1]
  refine (if_pos c0).trans ?_
  refine congrArg some ?_
  rw [b0, b1]

theorem psend (d : BitVec 7) (a : BitVec 7) (b : BitVec 7) : Statement (.psend d a b) := by
  intro _
  obtain ⟨w, hw, hl, k0, k1, c0, b0, b1, b2⟩ := layout27 0xDB400000 27 13 d a b (by decide) (by decide) rfl
  refine of_row hl hw ?_
  rw [decodeRow_27 k0, decodeClass27, k1]
  refine (if_pos c0).trans ?_
  refine congrArg some ?_
  rw [b0, b1, b2]

theorem pgrant (d : BitVec 7) (a : BitVec 7) (b : BitVec 7) : Statement (.pgrant d a b) := by
  intro _
  obtain ⟨w, hw, hl, k0, k1, c0, b0, b1, b2⟩ := layout27 0xDB800000 27 14 d a b (by decide) (by decide) rfl
  refine of_row hl hw ?_
  rw [decodeRow_27 k0, decodeClass27, k1]
  refine (if_pos c0).trans ?_
  refine congrArg some ?_
  rw [b0, b1, b2]

theorem precv (d : BitVec 7) (a : BitVec 7) (b : BitVec 6) : Statement (.precv d a b) := by
  intro _
  obtain ⟨w, hw, hl, k0, k1, c0, c1, b0, b1, b2⟩ := layout29 0xDBC00000 27 15 d a b (by decide) (by decide) rfl
  refine of_row hl hw ?_
  rw [decodeRow_27 k0, decodeClass27, k1]
  refine (if_pos ⟨c0, c1⟩).trans ?_
  refine congrArg some ?_
  rw [b0, b1, b2]

theorem pslot (d : BitVec 7) (a : BitVec 7) (b : BitVec 6) : Statement (.pslot d a b) := by
  intro _
  obtain ⟨w, hw, hl, k0, k1, c0, c1, b0, b1, b2⟩ := layout29 0xDC000000 27 16 d a b (by decide) (by decide) rfl
  refine of_row hl hw ?_
  rw [decodeRow_27 k0, decodeClass27, k1]
  refine (if_pos ⟨c0, c1⟩).trans ?_
  refine congrArg some ?_
  rw [b0, b1, b2]

theorem pname (d : BitVec 7) (a : BitVec 7) : Statement (.pname d a) := by
  intro _
  obtain ⟨w, hw, hl, k0, k1, c0, b0, b1⟩ := layout28 0xDC400000 27 17 d a (by decide) (by decide) rfl
  refine of_row hl hw ?_
  rw [decodeRow_27 k0, decodeClass27, k1]
  refine (if_pos c0).trans ?_
  refine congrArg some ?_
  rw [b0, b1]

theorem preg (d : BitVec 7) (a : BitVec 7) (b : BitVec 7) : Statement (.preg d a b) := by
  intro _
  obtain ⟨w, hw, hl, k0, k1, c0, b0, b1, b2⟩ := layout27 0xDC800000 27 18 d a b (by decide) (by decide) rfl
  refine of_row hl hw ?_
  rw [decodeRow_27 k0, decodeClass27, k1]
  refine (if_pos c0).trans ?_
  refine congrArg some ?_
  rw [b0, b1, b2]

theorem anew (d : BitVec 7) (a : BitVec 7) (b : BitVec 7) : Statement (.anew d a b) := by
  intro _
  obtain ⟨w, hw, hl, k0, k1, c0, b0, b1, b2⟩ := layout27 0xDCC00000 27 19 d a b (by decide) (by decide) rfl
  refine of_row hl hw ?_
  rw [decodeRow_27 k0, decodeClass27, k1]
  refine (if_pos c0).trans ?_
  refine congrArg some ?_
  rw [b0, b1, b2]

theorem aseal (d : BitVec 7) (a : BitVec 7) : Statement (.aseal d a) := by
  intro _
  obtain ⟨w, hw, hl, k0, k1, c0, b0, b1⟩ := layout28 0xDD000000 27 20 d a (by decide) (by decide) rfl
  refine of_row hl hw ?_
  rw [decodeRow_27 k0, decodeClass27, k1]
  refine (if_pos c0).trans ?_
  refine congrArg some ?_
  rw [b0, b1]

theorem afree (d : BitVec 7) (a : BitVec 7) : Statement (.afree d a) := by
  intro _
  obtain ⟨w, hw, hl, k0, k1, c0, b0, b1⟩ := layout28 0xDD400000 27 21 d a (by decide) (by decide) rfl
  refine of_row hl hw ?_
  rw [decodeRow_27 k0, decodeClass27, k1]
  refine (if_pos c0).trans ?_
  refine congrArg some ?_
  rw [b0, b1]

theorem atail (d : BitVec 7) (a : BitVec 7) (b : BitVec 7) : Statement (.atail d a b) := by
  intro _
  obtain ⟨w, hw, hl, k0, k1, c0, b0, b1, b2⟩ := layout27 0xDD800000 27 22 d a b (by decide) (by decide) rfl
  refine of_row hl hw ?_
  rw [decodeRow_27 k0, decodeClass27, k1]
  refine (if_pos c0).trans ?_
  refine congrArg some ?_
  rw [b0, b1, b2]

theorem rgnew (d : BitVec 7) (a : BitVec 7) (b : BitVec 7) : Statement (.rgnew d a b) := by
  intro _
  obtain ⟨w, hw, hl, k0, k1, c0, b0, b1, b2⟩ := layout27 0xDDC00000 27 23 d a b (by decide) (by decide) rfl
  refine of_row hl hw ?_
  rw [decodeRow_27 k0, decodeClass27, k1]
  refine (if_pos c0).trans ?_
  refine congrArg some ?_
  rw [b0, b1, b2]

theorem rgset (d : BitVec 7) (a : BitVec 7) (b : BitVec 7) : Statement (.rgset d a b) := by
  intro _
  obtain ⟨w, hw, hl, k0, k1, c0, b0, b1, b2⟩ := layout27 0xDE000000 27 24 d a b (by decide) (by decide) rfl
  refine of_row hl hw ?_
  rw [decodeRow_27 k0, decodeClass27, k1]
  refine (if_pos c0).trans ?_
  refine congrArg some ?_
  rw [b0, b1, b2]

theorem wread (d : BitVec 7) (a : BitVec 7) (b : BitVec 7) : Statement (.wread d a b) := by
  intro _
  obtain ⟨w, hw, hl, k0, k1, c0, b0, b1, b2⟩ := layout27 0xE0000000 28 0 d a b (by decide) (by decide) rfl
  refine of_row hl hw ?_
  rw [decodeRow_28 k0, decodeClass28, k1]
  refine (if_pos c0).trans ?_
  refine congrArg some ?_
  rw [b0, b1, b2]

theorem wwrite (d : BitVec 7) (a : BitVec 7) (b : BitVec 7) : Statement (.wwrite d a b) := by
  intro _
  obtain ⟨w, hw, hl, k0, k1, c0, b0, b1, b2⟩ := layout27 0xE0400000 28 1 d a b (by decide) (by decide) rfl
  refine of_row hl hw ?_
  rw [decodeRow_28 k0, decodeClass28, k1]
  refine (if_pos c0).trans ?_
  refine congrArg some ?_
  rw [b0, b1, b2]

theorem wresume (d : BitVec 7) (a : BitVec 7) : Statement (.wresume d a) := by
  intro _
  obtain ⟨w, hw, hl, k0, k1, c0, b0, b1⟩ := layout28 0xE0800000 28 2 d a (by decide) (by decide) rfl
  refine of_row hl hw ?_
  rw [decodeRow_28 k0, decodeClass28, k1]
  refine (if_pos c0).trans ?_
  refine congrArg some ?_
  rw [b0, b1]

theorem gsaved (d : BitVec 7) : Statement (.gsaved d) := by
  intro _
  obtain ⟨w, hw, hl, k0, k1, c0, b0⟩ := layout33 0xE0C00000 28 3 d (by decide) (by decide) rfl
  refine of_row hl hw ?_
  rw [decodeRow_28 k0, decodeClass28, k1]
  refine (if_pos c0).trans ?_
  refine congrArg some ?_
  rw [b0]

theorem rdlog (d : BitVec 7) (a : BitVec 7) (b : BitVec 7) : Statement (.rdlog d a b) := by
  intro _
  obtain ⟨w, hw, hl, k0, k1, c0, b0, b1, b2⟩ := layout27 0xE1000000 28 4 d a b (by decide) (by decide) rfl
  refine of_row hl hw ?_
  rw [decodeRow_28 k0, decodeClass28, k1]
  refine (if_pos c0).trans ?_
  refine congrArg some ?_
  rw [b0, b1, b2]

theorem csaveq (d : BitVec 7) (a : BitVec 7) : Statement (.csaveq d a) := by
  intro _
  obtain ⟨w, hw, hl, k0, k1, c0, b0, b1⟩ := layout28 0xE1400000 28 5 d a (by decide) (by decide) rfl
  refine of_row hl hw ?_
  rw [decodeRow_28 k0, decodeClass28, k1]
  refine (if_pos c0).trans ?_
  refine congrArg some ?_
  rw [b0, b1]

theorem creplay (d : BitVec 7) (a : BitVec 7) : Statement (.creplay d a) := by
  intro _
  obtain ⟨w, hw, hl, k0, k1, c0, b0, b1⟩ := layout28 0xE1800000 28 6 d a (by decide) (by decide) rfl
  refine of_row hl hw ?_
  rw [decodeRow_28 k0, decodeClass28, k1]
  refine (if_pos c0).trans ?_
  refine congrArg some ?_
  rw [b0, b1]

theorem tlbinv (d : BitVec 7) (a : BitVec 7) (b : BitVec 7) : Statement (.tlbinv d a b) := by
  intro _
  obtain ⟨w, hw, hl, k0, k1, c0, b0, b1, b2⟩ := layout27 0xE1C00000 28 7 d a b (by decide) (by decide) rfl
  refine of_row hl hw ?_
  rw [decodeRow_28 k0, decodeClass28, k1]
  refine (if_pos c0).trans ?_
  refine congrArg some ?_
  rw [b0, b1, b2]

theorem ckmark (d : BitVec 7) (a : BitVec 7) : Statement (.ckmark d a) := by
  intro _
  obtain ⟨w, hw, hl, k0, k1, c0, b0, b1⟩ := layout28 0xE2000000 28 8 d a (by decide) (by decide) rfl
  refine of_row hl hw ?_
  rw [decodeRow_28 k0, decodeClass28, k1]
  refine (if_pos c0).trans ?_
  refine congrArg some ?_
  rw [b0, b1]

theorem vfrint (g : BitVec 3) (d : BitVec 7) (a : BitVec 7) : Statement (.vfrint g d a) := by
  intro _
  obtain ⟨w, hw, hl, k0, k1, c0, b0, b1, b2⟩ := layout1 0xE8000000 29 0 g d a (by decide) (by decide) rfl
  refine of_row hl hw ?_
  rw [decodeRow_29 k0, decodeClass29, k1]
  refine (if_pos c0).trans ?_
  refine congrArg some ?_
  rw [b0, b1, b2]

theorem vffloor (g : BitVec 3) (d : BitVec 7) (a : BitVec 7) : Statement (.vffloor g d a) := by
  intro _
  obtain ⟨w, hw, hl, k0, k1, c0, b0, b1, b2⟩ := layout1 0xE8000001 29 1 g d a (by decide) (by decide) rfl
  refine of_row hl hw ?_
  rw [decodeRow_29 k0, decodeClass29, k1]
  refine (if_pos c0).trans ?_
  refine congrArg some ?_
  rw [b0, b1, b2]

theorem vfceil (g : BitVec 3) (d : BitVec 7) (a : BitVec 7) : Statement (.vfceil g d a) := by
  intro _
  obtain ⟨w, hw, hl, k0, k1, c0, b0, b1, b2⟩ := layout1 0xE8000002 29 2 g d a (by decide) (by decide) rfl
  refine of_row hl hw ?_
  rw [decodeRow_29 k0, decodeClass29, k1]
  refine (if_pos c0).trans ?_
  refine congrArg some ?_
  rw [b0, b1, b2]

theorem vftrunc (g : BitVec 3) (d : BitVec 7) (a : BitVec 7) : Statement (.vftrunc g d a) := by
  intro _
  obtain ⟨w, hw, hl, k0, k1, c0, b0, b1, b2⟩ := layout1 0xE8000003 29 3 g d a (by decide) (by decide) rfl
  refine of_row hl hw ?_
  rw [decodeRow_29 k0, decodeClass29, k1]
  refine (if_pos c0).trans ?_
  refine congrArg some ?_
  rw [b0, b1, b2]

theorem vfclass (g : BitVec 3) (d : BitVec 7) (a : BitVec 7) : Statement (.vfclass g d a) := by
  intro _
  obtain ⟨w, hw, hl, k0, k1, c0, b0, b1, b2⟩ := layout1 0xE8000004 29 4 g d a (by decide) (by decide) rfl
  refine of_row hl hw ?_
  rw [decodeRow_29 k0, decodeClass29, k1]
  refine (if_pos c0).trans ?_
  refine congrArg some ?_
  rw [b0, b1, b2]

theorem vfexp (g : BitVec 3) (d : BitVec 7) (a : BitVec 7) : Statement (.vfexp g d a) := by
  intro _
  obtain ⟨w, hw, hl, k0, k1, c0, b0, b1, b2⟩ := layout1 0xE8000005 29 5 g d a (by decide) (by decide) rfl
  refine of_row hl hw ?_
  rw [decodeRow_29 k0, decodeClass29, k1]
  refine (if_pos c0).trans ?_
  refine congrArg some ?_
  rw [b0, b1, b2]

theorem vfmant (g : BitVec 3) (d : BitVec 7) (a : BitVec 7) : Statement (.vfmant g d a) := by
  intro _
  obtain ⟨w, hw, hl, k0, k1, c0, b0, b1, b2⟩ := layout1 0xE8000006 29 6 g d a (by decide) (by decide) rfl
  refine of_row hl hw ?_
  rw [decodeRow_29 k0, decodeClass29, k1]
  refine (if_pos c0).trans ?_
  refine congrArg some ?_
  rw [b0, b1, b2]

theorem vfmed3 (g : BitVec 3) (d : BitVec 7) (a : BitVec 7) (b : BitVec 7) : Statement (.vfmed3 g d a b) := by
  intro _
  obtain ⟨w, hw, hl, k0, k1, b0, b1, b2, b3⟩ := layout0 0xE8000007 29 7 g d a b (by decide) (by decide) rfl
  refine of_row hl hw ?_
  rw [decodeRow_29 k0, decodeClass29, k1]
  refine congrArg some ?_
  rw [b0, b1, b2, b3]

theorem ximm (p : BitVec 24) : Statement (.ximm p) := by
  intro _
  obtain ⟨w, hw, hl, k0, k1, b0⟩ := layout34 0xF8000000 31 0 p (by decide) (by decide) rfl
  refine of_row hl hw ?_
  rw [decodeRow_31 k0, decodeClass31, k1]
  refine congrArg some ?_
  rw [b0]

theorem xop (p : BitVec 18) : Statement (.xop p) := by
  intro _
  obtain ⟨w, hw, hl, k0, k1, c0, b0⟩ := layout35 0xF9000000 31 1 p (by decide) (by decide) rfl
  refine of_row hl hw ?_
  rw [decodeRow_31 k0, decodeClass31, k1]
  refine (if_pos c0).trans ?_
  refine congrArg some ?_
  rw [b0]

theorem hint (p : BitVec 24) : Statement (.hint p) := by
  intro _
  obtain ⟨w, hw, hl, k0, k1, b0⟩ := layout34 0xFA000000 31 2 p (by decide) (by decide) rfl
  refine of_row hl hw ?_
  rw [decodeRow_31 k0, decodeClass31, k1]
  refine congrArg some ?_
  rw [b0]

theorem guard (neg : BitVec 1) (pg : BitVec 4) : Statement (.guard neg pg) := by
  intro _
  obtain ⟨w, hw, hl, k0, k1, c0, b0, b1⟩ := layout36 0xFB000000 31 3 neg pg (by decide) (by decide) rfl
  refine of_row hl hw ?_
  rw [decodeRow_31 k0, decodeClass31, k1]
  refine (if_pos c0).trans ?_
  refine congrArg some ?_
  rw [b0, b1]

theorem trapEntry (w : Nat) : Statement (.trapEntry w) := fun h => Bool.noConfusion (show false = true from h)

theorem deferredPreciseTrap (w : Nat) : Statement (.deferredPreciseTrap w) := fun h => Bool.noConfusion (show false = true from h)

theorem pageFill (rg : Nat) (va : Nat) (die : Nat) : Statement (.pageFill rg va die) := fun h => Bool.noConfusion (show false = true from h)

theorem migrationDone (rg : Nat) (va : Nat) (die : Nat) : Statement (.migrationDone rg va die) := fun h => Bool.noConfusion (show false = true from h)

theorem engineChunkLand (gang : Nat) (ctx : Nat) (num : Nat) (chunk : Nat) : Statement (.engineChunkLand gang ctx num chunk) := fun h => Bool.noConfusion (show false = true from h)

theorem matrixRowDone (gang : Nat) (ctx : Nat) : Statement (.matrixRowDone gang ctx) := fun h => Bool.noConfusion (show false = true from h)

theorem mprogArrive (gang : Nat) (ctx : Nat) : Statement (.mprogArrive gang ctx) := fun h => Bool.noConfusion (show false = true from h)

theorem engineFault (gang : Nat) (ctx : Nat) (num : Nat) : Statement (.engineFault gang ctx num) := fun h => Bool.noConfusion (show false = true from h)

theorem waitWake (w : Nat) (grp : Nat) : Statement (.waitWake w grp) := fun h => Bool.noConfusion (show false = true from h)

theorem waitTimeout (w : Nat) (grp : Nat) : Statement (.waitTimeout w grp) := fun h => Bool.noConfusion (show false = true from h)

theorem timerExpire (timer : Nat) : Statement (.timerExpire timer) := fun h => Bool.noConfusion (show false = true from h)

theorem placement (cluster : Nat) : Statement (.placement cluster) := fun h => Bool.noConfusion (show false = true from h)

theorem cohortStart (cohort : Nat) : Statement (.cohortStart cohort) := fun h => Bool.noConfusion (show false = true from h)

theorem unitAged (saved : Bool) (unit : Nat) : Statement (.unitAged saved unit) := fun h => Bool.noConfusion (show false = true from h)

theorem quantumExpiry (gang : Nat) : Statement (.quantumExpiry gang) := fun h => Bool.noConfusion (show false = true from h)

theorem saveDrainOverrun (cohort : Nat) : Statement (.saveDrainOverrun cohort) := fun h => Bool.noConfusion (show false = true from h)

theorem deadlockDetect (rg : Nat) : Statement (.deadlockDetect rg) := fun h => Bool.noConfusion (show false = true from h)

theorem progressStall (rg : Nat) : Statement (.progressStall rg) := fun h => Bool.noConfusion (show false = true from h)

theorem memerr (rg : Nat) : Statement (.memerr rg) := fun h => Bool.noConfusion (show false = true from h)

theorem discardRelease (rg : Nat) : Statement (.discardRelease rg) := fun h => Bool.noConfusion (show false = true from h)

theorem commitTailAdvance (seg : Nat) (blk : Nat) : Statement (.commitTailAdvance seg blk) := fun h => Bool.noConfusion (show false = true from h)

theorem asealDone (seg : Nat) : Statement (.asealDone seg) := fun h => Bool.noConfusion (show false = true from h)

theorem afreeDone (seg : Nat) : Statement (.afreeDone seg) := fun h => Bool.noConfusion (show false = true from h)

theorem replicaCreate (seg : Nat) (page : Nat) (die : Nat) : Statement (.replicaCreate seg page die) := fun h => Bool.noConfusion (show false = true from h)

theorem remoteSendRequest (link : Nat) (src : Nat) (wave : Nat) (tag : Nat) (incarn : Nat) (port : Nat) (origin : Nat) (header : Nat) (eight : Bool) (words : List Nat) : Statement (.remoteSendRequest link src wave tag incarn port origin header eight words) := fun h => Bool.noConfusion (show false = true from h)

theorem sendReply (link : Nat) (incarn : Nat) (send : Nat) (status : Nat) : Statement (.sendReply link incarn send status) := fun h => Bool.noConfusion (show false = true from h)

theorem grantReservation (link : Nat) (src : Nat) (wave : Nat) (tag : Nat) (incarn : Nat) (port : Nat) (origin : Nat) (header : Nat) (eight : Bool) (words : List Nat) (gword : Nat) : Statement (.grantReservation link src wave tag incarn port origin header eight words gword) := fun h => Bool.noConfusion (show false = true from h)

theorem grantPointReply (link : Nat) (incarn : Nat) (send : Nat) (status : Nat) : Statement (.grantPointReply link incarn send status) := fun h => Bool.noConfusion (show false = true from h)

theorem grantPageCopy (link : Nat) (incarn : Nat) (resv : Nat) (pages : List (List (BitVec 8))) : Statement (.grantPageCopy link incarn resv pages) := fun h => Bool.noConfusion (show false = true from h)

theorem grantAck (link : Nat) (incarn : Nat) (send : Nat) : Statement (.grantAck link incarn send) := fun h => Bool.noConfusion (show false = true from h)

theorem peerDead (module : Nat) (announced : Bool) : Statement (.peerDead module announced) := fun h => Bool.noConfusion (show false = true from h)

theorem flitReceive (port : Nat) (flit : List (BitVec 8)) (crcOk : Bool) : Statement (.flitReceive port flit crcOk) := fun h => Bool.noConfusion (show false = true from h)

theorem nakReceive (port : Nat) (seq : Nat) : Statement (.nakReceive port seq) := fun h => Bool.noConfusion (show false = true from h)

theorem linkRetrainDone (port : Nat) (ok : Bool) : Statement (.linkRetrainDone port ok) := fun h => Bool.noConfusion (show false = true from h)

theorem checkpointPageCopy (rg : Nat) (page : Nat) : Statement (.checkpointPageCopy rg page) := fun h => Bool.noConfusion (show false = true from h)

theorem checkpointImageDone (rg : Nat) : Statement (.checkpointImageDone rg) := fun h => Bool.noConfusion (show false = true from h)

theorem refreshInterval (ch : Nat) : Statement (.refreshInterval ch) := fun h => Bool.noConfusion (show false = true from h)

theorem refresh (ch : Nat) (waiting : Bool) : Statement (.refresh ch waiting) := fun h => Bool.noConfusion (show false = true from h)

theorem flushDone (job : Nat) : Statement (.flushDone job) := fun h => Bool.noConfusion (show false = true from h)

theorem energyWindowStart : Statement (.energyWindowStart) := fun h => Bool.noConfusion (show false = true from h)

theorem energyMeterRead (core : Nat) (energy : Nat) (traffic : List (Nat × Nat × Nat)) : Statement (.energyMeterRead core energy traffic) := fun h => Bool.noConfusion (show false = true from h)

theorem thermalCapUpdate (tjmax : Nat) (tin : Nat) (flow : Nat) : Statement (.thermalCapUpdate tjmax tin flow) := fun h => Bool.noConfusion (show false = true from h)

theorem thermalTrip : Statement (.thermalTrip) := fun h => Bool.noConfusion (show false = true from h)

theorem coolantTimeout : Statement (.coolantTimeout) := fun h => Bool.noConfusion (show false = true from h)

theorem diePowerOff : Statement (.diePowerOff) := fun h => Bool.noConfusion (show false = true from h)

theorem coldReset : Statement (.coldReset) := fun h => Bool.noConfusion (show false = true from h)

theorem warmBoot : Statement (.warmBoot) := fun h => Bool.noConfusion (show false = true from h)

theorem clusterStart (cluster : Nat) : Statement (.clusterStart cluster) := fun h => Bool.noConfusion (show false = true from h)

theorem jasperHeartbeatTimeout : Statement (.jasperHeartbeatTimeout) := fun h => Bool.noConfusion (show false = true from h)

theorem jasperException : Statement (.jasperException) := fun h => Bool.noConfusion (show false = true from h)

theorem firmwareRestartDone : Statement (.firmwareRestartDone) := fun h => Bool.noConfusion (show false = true from h)

theorem doorbellWrite (q : Nat) (size : Nat) (val : Nat) : Statement (.doorbellWrite q size val) := fun h => Bool.noConfusion (show false = true from h)

theorem queueEnable (q : Nat) : Statement (.queueEnable q) := fun h => Bool.noConfusion (show false = true from h)

theorem queueDisable (q : Nat) : Statement (.queueDisable q) := fun h => Bool.noConfusion (show false = true from h)

theorem schedParamWrite (quantum : Bool) (val : Nat) : Statement (.schedParamWrite quantum val) := fun h => Bool.noConfusion (show false = true from h)

theorem capWrite (val : Nat) : Statement (.capWrite val) := fun h => Bool.noConfusion (show false = true from h)

theorem registerWrite (fn : Nat) (off : Nat) (size : Nat) (val : Nat) : Statement (.registerWrite fn off size val) := fun h => Bool.noConfusion (show false = true from h)

theorem pktNop (q : Nat) : Statement (.pktNop q) := fun h => Bool.noConfusion (show false = true from h)

theorem launch (q : Nat) : Statement (.launch q) := fun h => Bool.noConfusion (show false = true from h)

theorem signal (q : Nat) : Statement (.signal q) := fun h => Bool.noConfusion (show false = true from h)

theorem waitsig (q : Nat) : Statement (.waitsig q) := fun h => Bool.noConfusion (show false = true from h)

theorem waitsigSatisfied (pkt : Nat) : Statement (.waitsigSatisfied pkt) := fun h => Bool.noConfusion (show false = true from h)

theorem copy (q : Nat) : Statement (.copy q) := fun h => Bool.noConfusion (show false = true from h)

theorem packetCopyDone (pkt : Nat) : Statement (.packetCopyDone pkt) := fun h => Bool.noConfusion (show false = true from h)

theorem regionCreate (q : Nat) : Statement (.regionCreate q) := fun h => Bool.noConfusion (show false = true from h)

theorem regionSet (q : Nat) : Statement (.regionSet q) := fun h => Bool.noConfusion (show false = true from h)

theorem regionDiscard (q : Nat) : Statement (.regionDiscard q) := fun h => Bool.noConfusion (show false = true from h)

theorem ckpt (q : Nat) : Statement (.ckpt q) := fun h => Bool.noConfusion (show false = true from h)

theorem restore (q : Nat) : Statement (.restore q) := fun h => Bool.noConfusion (show false = true from h)

theorem biasFlipDevice (gran : Nat) : Statement (.biasFlipDevice gran) := fun h => Bool.noConfusion (show false = true from h)

theorem biasFlipHost (gran : Nat) : Statement (.biasFlipHost gran) := fun h => Bool.noConfusion (show false = true from h)

theorem biasSnoopResponse (line : Nat) (modified : Bool) (data : List (BitVec 8)) : Statement (.biasSnoopResponse line modified data) := fun h => Bool.noConfusion (show false = true from h)

theorem biasSnoopTimeout (line : Nat) : Statement (.biasSnoopTimeout line) := fun h => Bool.noConfusion (show false = true from h)

theorem biasFlipHostDone : Statement (.biasFlipHostDone) := fun h => Bool.noConfusion (show false = true from h)

theorem migToHost (rindex : Nat) (va : Nat) (frame : Nat) : Statement (.migToHost rindex va frame) := fun h => Bool.noConfusion (show false = true from h)

theorem migToDevice (rindex : Nat) (va : Nat) : Statement (.migToDevice rindex va) := fun h => Bool.noConfusion (show false = true from h)

theorem migPinRelease (rindex : Nat) (va : Nat) : Statement (.migPinRelease rindex va) := fun h => Bool.noConfusion (show false = true from h)

theorem domain (m : Nat) (d : Nat) : Statement (.domain m d) := fun h => Bool.noConfusion (show false = true from h)

theorem restart : Statement (.restart) := fun h => Bool.noConfusion (show false = true from h)

theorem stage (image : Nat) (version : Nat) (sigOk : Bool) (digest : Nat) : Statement (.stage image version sigOk digest) := fun h => Bool.noConfusion (show false = true from h)

theorem commit (image : Nat) (version : Nat) : Statement (.commit image version) := fun h => Bool.noConfusion (show false = true from h)

theorem getVersion : Statement (.getVersion) := fun h => Bool.noConfusion (show false = true from h)

theorem getCapabilities : Statement (.getCapabilities) := fun h => Bool.noConfusion (show false = true from h)

theorem negotiateAlgorithms : Statement (.negotiateAlgorithms) := fun h => Bool.noConfusion (show false = true from h)

theorem getDigests : Statement (.getDigests) := fun h => Bool.noConfusion (show false = true from h)

theorem getCertificate (slot : Nat) : Statement (.getCertificate slot) := fun h => Bool.noConfusion (show false = true from h)

theorem challenge (slot : Nat) (nonce : Nat) : Statement (.challenge slot nonce) := fun h => Bool.noConfusion (show false = true from h)

theorem getMeasurements (index : Nat) : Statement (.getMeasurements index) := fun h => Bool.noConfusion (show false = true from h)

theorem unsupportedRequest : Statement (.unsupportedRequest) := fun h => Bool.noConfusion (show false = true from h)

theorem hostWindowAccess (write : Bool) (pa : Nat) (size : Nat) (val : Nat) : Statement (.hostWindowAccess write pa size val) := fun h => Bool.noConfusion (show false = true from h)

theorem rows_all {l : List (List FixedField)} {p : List FixedField → Bool} (h : l.any p = true)
    (hs : ∀ r, r ∈ l → r ∈ opcodeRows) : opcodeRows.any p = true :=
  have ⟨r, hr, hp⟩ := List.any_eq_true.mp h
  List.any_eq_true.mpr ⟨r, hs r hr, hp⟩

theorem decodeRow_row (w : Nat) (i : Instr) (h : decodeRow w = some i) : matchesRow w = true := by
  unfold decodeRow at h
  split at h
  · exact rows_all (class0_row w i h ‹_›) fun _ h => List.mem_append_left _ (List.mem_append_left _ (List.mem_append_left _ (List.mem_append_left _ (List.mem_append_left _ (List.mem_append_left _ (List.mem_append_left _ (List.mem_append_left _ (List.mem_append_left _ (List.mem_append_left _ (List.mem_append_left _ (List.mem_append_left _ (List.mem_append_left _ (List.mem_append_left _ (List.mem_append_left _ (List.mem_append_left _ (List.mem_append_left _ (List.mem_append_left _ (List.mem_append_left _ (List.mem_append_left _ (List.mem_append_left _ (List.mem_append_left _ (List.mem_append_left _ (List.mem_append_left _ (List.mem_append_left _ (List.mem_append_left _ (List.mem_append_left _ (List.mem_append_left _ (List.mem_append_left _ (List.mem_append_left _ h)))))))))))))))))))))))))))))
  · exact rows_all (class1_row w i h ‹_›) fun _ h => List.mem_append_left _ (List.mem_append_left _ (List.mem_append_left _ (List.mem_append_left _ (List.mem_append_left _ (List.mem_append_left _ (List.mem_append_left _ (List.mem_append_left _ (List.mem_append_left _ (List.mem_append_left _ (List.mem_append_left _ (List.mem_append_left _ (List.mem_append_left _ (List.mem_append_left _ (List.mem_append_left _ (List.mem_append_left _ (List.mem_append_left _ (List.mem_append_left _ (List.mem_append_left _ (List.mem_append_left _ (List.mem_append_left _ (List.mem_append_left _ (List.mem_append_left _ (List.mem_append_left _ (List.mem_append_left _ (List.mem_append_left _ (List.mem_append_left _ (List.mem_append_left _ (List.mem_append_left _ (List.mem_append_right _ h)))))))))))))))))))))))))))))
  · exact rows_all (class2_row w i h ‹_›) fun _ h => List.mem_append_left _ (List.mem_append_left _ (List.mem_append_left _ (List.mem_append_left _ (List.mem_append_left _ (List.mem_append_left _ (List.mem_append_left _ (List.mem_append_left _ (List.mem_append_left _ (List.mem_append_left _ (List.mem_append_left _ (List.mem_append_left _ (List.mem_append_left _ (List.mem_append_left _ (List.mem_append_left _ (List.mem_append_left _ (List.mem_append_left _ (List.mem_append_left _ (List.mem_append_left _ (List.mem_append_left _ (List.mem_append_left _ (List.mem_append_left _ (List.mem_append_left _ (List.mem_append_left _ (List.mem_append_left _ (List.mem_append_left _ (List.mem_append_left _ (List.mem_append_left _ (List.mem_append_right _ h))))))))))))))))))))))))))))
  · exact rows_all (class3_row w i h ‹_›) fun _ h => List.mem_append_left _ (List.mem_append_left _ (List.mem_append_left _ (List.mem_append_left _ (List.mem_append_left _ (List.mem_append_left _ (List.mem_append_left _ (List.mem_append_left _ (List.mem_append_left _ (List.mem_append_left _ (List.mem_append_left _ (List.mem_append_left _ (List.mem_append_left _ (List.mem_append_left _ (List.mem_append_left _ (List.mem_append_left _ (List.mem_append_left _ (List.mem_append_left _ (List.mem_append_left _ (List.mem_append_left _ (List.mem_append_left _ (List.mem_append_left _ (List.mem_append_left _ (List.mem_append_left _ (List.mem_append_left _ (List.mem_append_left _ (List.mem_append_left _ (List.mem_append_right _ h)))))))))))))))))))))))))))
  · exact rows_all (class4_row w i h ‹_›) fun _ h => List.mem_append_left _ (List.mem_append_left _ (List.mem_append_left _ (List.mem_append_left _ (List.mem_append_left _ (List.mem_append_left _ (List.mem_append_left _ (List.mem_append_left _ (List.mem_append_left _ (List.mem_append_left _ (List.mem_append_left _ (List.mem_append_left _ (List.mem_append_left _ (List.mem_append_left _ (List.mem_append_left _ (List.mem_append_left _ (List.mem_append_left _ (List.mem_append_left _ (List.mem_append_left _ (List.mem_append_left _ (List.mem_append_left _ (List.mem_append_left _ (List.mem_append_left _ (List.mem_append_left _ (List.mem_append_left _ (List.mem_append_left _ (List.mem_append_right _ h))))))))))))))))))))))))))
  · exact rows_all (class5_row w i h ‹_›) fun _ h => List.mem_append_left _ (List.mem_append_left _ (List.mem_append_left _ (List.mem_append_left _ (List.mem_append_left _ (List.mem_append_left _ (List.mem_append_left _ (List.mem_append_left _ (List.mem_append_left _ (List.mem_append_left _ (List.mem_append_left _ (List.mem_append_left _ (List.mem_append_left _ (List.mem_append_left _ (List.mem_append_left _ (List.mem_append_left _ (List.mem_append_left _ (List.mem_append_left _ (List.mem_append_left _ (List.mem_append_left _ (List.mem_append_left _ (List.mem_append_left _ (List.mem_append_left _ (List.mem_append_left _ (List.mem_append_left _ (List.mem_append_right _ h)))))))))))))))))))))))))
  · exact rows_all (class6_row w i h ‹_›) fun _ h => List.mem_append_left _ (List.mem_append_left _ (List.mem_append_left _ (List.mem_append_left _ (List.mem_append_left _ (List.mem_append_left _ (List.mem_append_left _ (List.mem_append_left _ (List.mem_append_left _ (List.mem_append_left _ (List.mem_append_left _ (List.mem_append_left _ (List.mem_append_left _ (List.mem_append_left _ (List.mem_append_left _ (List.mem_append_left _ (List.mem_append_left _ (List.mem_append_left _ (List.mem_append_left _ (List.mem_append_left _ (List.mem_append_left _ (List.mem_append_left _ (List.mem_append_left _ (List.mem_append_left _ (List.mem_append_right _ h))))))))))))))))))))))))
  · exact rows_all (class7_row w i h ‹_›) fun _ h => List.mem_append_left _ (List.mem_append_left _ (List.mem_append_left _ (List.mem_append_left _ (List.mem_append_left _ (List.mem_append_left _ (List.mem_append_left _ (List.mem_append_left _ (List.mem_append_left _ (List.mem_append_left _ (List.mem_append_left _ (List.mem_append_left _ (List.mem_append_left _ (List.mem_append_left _ (List.mem_append_left _ (List.mem_append_left _ (List.mem_append_left _ (List.mem_append_left _ (List.mem_append_left _ (List.mem_append_left _ (List.mem_append_left _ (List.mem_append_left _ (List.mem_append_left _ (List.mem_append_right _ h)))))))))))))))))))))))
  · exact rows_all (class8_row w i h ‹_›) fun _ h => List.mem_append_left _ (List.mem_append_left _ (List.mem_append_left _ (List.mem_append_left _ (List.mem_append_left _ (List.mem_append_left _ (List.mem_append_left _ (List.mem_append_left _ (List.mem_append_left _ (List.mem_append_left _ (List.mem_append_left _ (List.mem_append_left _ (List.mem_append_left _ (List.mem_append_left _ (List.mem_append_left _ (List.mem_append_left _ (List.mem_append_left _ (List.mem_append_left _ (List.mem_append_left _ (List.mem_append_left _ (List.mem_append_left _ (List.mem_append_left _ (List.mem_append_right _ h))))))))))))))))))))))
  · exact rows_all (class9_row w i h ‹_›) fun _ h => List.mem_append_left _ (List.mem_append_left _ (List.mem_append_left _ (List.mem_append_left _ (List.mem_append_left _ (List.mem_append_left _ (List.mem_append_left _ (List.mem_append_left _ (List.mem_append_left _ (List.mem_append_left _ (List.mem_append_left _ (List.mem_append_left _ (List.mem_append_left _ (List.mem_append_left _ (List.mem_append_left _ (List.mem_append_left _ (List.mem_append_left _ (List.mem_append_left _ (List.mem_append_left _ (List.mem_append_left _ (List.mem_append_left _ (List.mem_append_right _ h)))))))))))))))))))))
  · exact rows_all (class10_row w i h ‹_›) fun _ h => List.mem_append_left _ (List.mem_append_left _ (List.mem_append_left _ (List.mem_append_left _ (List.mem_append_left _ (List.mem_append_left _ (List.mem_append_left _ (List.mem_append_left _ (List.mem_append_left _ (List.mem_append_left _ (List.mem_append_left _ (List.mem_append_left _ (List.mem_append_left _ (List.mem_append_left _ (List.mem_append_left _ (List.mem_append_left _ (List.mem_append_left _ (List.mem_append_left _ (List.mem_append_left _ (List.mem_append_left _ (List.mem_append_right _ h))))))))))))))))))))
  · exact rows_all (class11_row w i h ‹_›) fun _ h => List.mem_append_left _ (List.mem_append_left _ (List.mem_append_left _ (List.mem_append_left _ (List.mem_append_left _ (List.mem_append_left _ (List.mem_append_left _ (List.mem_append_left _ (List.mem_append_left _ (List.mem_append_left _ (List.mem_append_left _ (List.mem_append_left _ (List.mem_append_left _ (List.mem_append_left _ (List.mem_append_left _ (List.mem_append_left _ (List.mem_append_left _ (List.mem_append_left _ (List.mem_append_left _ (List.mem_append_right _ h)))))))))))))))))))
  · exact rows_all (class12_row w i h ‹_›) fun _ h => List.mem_append_left _ (List.mem_append_left _ (List.mem_append_left _ (List.mem_append_left _ (List.mem_append_left _ (List.mem_append_left _ (List.mem_append_left _ (List.mem_append_left _ (List.mem_append_left _ (List.mem_append_left _ (List.mem_append_left _ (List.mem_append_left _ (List.mem_append_left _ (List.mem_append_left _ (List.mem_append_left _ (List.mem_append_left _ (List.mem_append_left _ (List.mem_append_left _ (List.mem_append_right _ h))))))))))))))))))
  · exact rows_all (class13_row w i h ‹_›) fun _ h => List.mem_append_left _ (List.mem_append_left _ (List.mem_append_left _ (List.mem_append_left _ (List.mem_append_left _ (List.mem_append_left _ (List.mem_append_left _ (List.mem_append_left _ (List.mem_append_left _ (List.mem_append_left _ (List.mem_append_left _ (List.mem_append_left _ (List.mem_append_left _ (List.mem_append_left _ (List.mem_append_left _ (List.mem_append_left _ (List.mem_append_left _ (List.mem_append_right _ h)))))))))))))))))
  · exact rows_all (class14_row w i h ‹_›) fun _ h => List.mem_append_left _ (List.mem_append_left _ (List.mem_append_left _ (List.mem_append_left _ (List.mem_append_left _ (List.mem_append_left _ (List.mem_append_left _ (List.mem_append_left _ (List.mem_append_left _ (List.mem_append_left _ (List.mem_append_left _ (List.mem_append_left _ (List.mem_append_left _ (List.mem_append_left _ (List.mem_append_left _ (List.mem_append_left _ (List.mem_append_right _ h))))))))))))))))
  · exact rows_all (class15_row w i h ‹_›) fun _ h => List.mem_append_left _ (List.mem_append_left _ (List.mem_append_left _ (List.mem_append_left _ (List.mem_append_left _ (List.mem_append_left _ (List.mem_append_left _ (List.mem_append_left _ (List.mem_append_left _ (List.mem_append_left _ (List.mem_append_left _ (List.mem_append_left _ (List.mem_append_left _ (List.mem_append_left _ (List.mem_append_left _ (List.mem_append_right _ h)))))))))))))))
  · exact rows_all (class16_row w i h ‹_›) fun _ h => List.mem_append_left _ (List.mem_append_left _ (List.mem_append_left _ (List.mem_append_left _ (List.mem_append_left _ (List.mem_append_left _ (List.mem_append_left _ (List.mem_append_left _ (List.mem_append_left _ (List.mem_append_left _ (List.mem_append_left _ (List.mem_append_left _ (List.mem_append_left _ (List.mem_append_left _ (List.mem_append_right _ h))))))))))))))
  · exact rows_all (class17_row w i h ‹_›) fun _ h => List.mem_append_left _ (List.mem_append_left _ (List.mem_append_left _ (List.mem_append_left _ (List.mem_append_left _ (List.mem_append_left _ (List.mem_append_left _ (List.mem_append_left _ (List.mem_append_left _ (List.mem_append_left _ (List.mem_append_left _ (List.mem_append_left _ (List.mem_append_left _ (List.mem_append_right _ h)))))))))))))
  · exact rows_all (class18_row w i h ‹_›) fun _ h => List.mem_append_left _ (List.mem_append_left _ (List.mem_append_left _ (List.mem_append_left _ (List.mem_append_left _ (List.mem_append_left _ (List.mem_append_left _ (List.mem_append_left _ (List.mem_append_left _ (List.mem_append_left _ (List.mem_append_left _ (List.mem_append_left _ (List.mem_append_right _ h))))))))))))
  · exact rows_all (class19_row w i h ‹_›) fun _ h => List.mem_append_left _ (List.mem_append_left _ (List.mem_append_left _ (List.mem_append_left _ (List.mem_append_left _ (List.mem_append_left _ (List.mem_append_left _ (List.mem_append_left _ (List.mem_append_left _ (List.mem_append_left _ (List.mem_append_left _ (List.mem_append_right _ h)))))))))))
  · exact rows_all (class20_row w i h ‹_›) fun _ h => List.mem_append_left _ (List.mem_append_left _ (List.mem_append_left _ (List.mem_append_left _ (List.mem_append_left _ (List.mem_append_left _ (List.mem_append_left _ (List.mem_append_left _ (List.mem_append_left _ (List.mem_append_left _ (List.mem_append_right _ h))))))))))
  · exact rows_all (class21_row w i h ‹_›) fun _ h => List.mem_append_left _ (List.mem_append_left _ (List.mem_append_left _ (List.mem_append_left _ (List.mem_append_left _ (List.mem_append_left _ (List.mem_append_left _ (List.mem_append_left _ (List.mem_append_left _ (List.mem_append_right _ h)))))))))
  · exact rows_all (class22_row w i h ‹_›) fun _ h => List.mem_append_left _ (List.mem_append_left _ (List.mem_append_left _ (List.mem_append_left _ (List.mem_append_left _ (List.mem_append_left _ (List.mem_append_left _ (List.mem_append_left _ (List.mem_append_right _ h))))))))
  · exact rows_all (class23_row w i h ‹_›) fun _ h => List.mem_append_left _ (List.mem_append_left _ (List.mem_append_left _ (List.mem_append_left _ (List.mem_append_left _ (List.mem_append_left _ (List.mem_append_left _ (List.mem_append_right _ h)))))))
  · exact rows_all (class24_row w i h ‹_›) fun _ h => List.mem_append_left _ (List.mem_append_left _ (List.mem_append_left _ (List.mem_append_left _ (List.mem_append_left _ (List.mem_append_left _ (List.mem_append_right _ h))))))
  · exact rows_all (class25_row w i h ‹_›) fun _ h => List.mem_append_left _ (List.mem_append_left _ (List.mem_append_left _ (List.mem_append_left _ (List.mem_append_left _ (List.mem_append_right _ h)))))
  · exact rows_all (class26_row w i h ‹_›) fun _ h => List.mem_append_left _ (List.mem_append_left _ (List.mem_append_left _ (List.mem_append_left _ (List.mem_append_right _ h))))
  · exact rows_all (class27_row w i h ‹_›) fun _ h => List.mem_append_left _ (List.mem_append_left _ (List.mem_append_left _ (List.mem_append_right _ h)))
  · exact rows_all (class28_row w i h ‹_›) fun _ h => List.mem_append_left _ (List.mem_append_left _ (List.mem_append_right _ h))
  · exact rows_all (class29_row w i h ‹_›) fun _ h => List.mem_append_left _ (List.mem_append_right _ h)
  · exact rows_all (class31_row w i h ‹_›) fun _ h => List.mem_append_right _ h
  · cases h

theorem illegalEncoding (w : BitVec 32) : Statement (.illegalEncoding w) := by
  intro h
  have e : encode (.illegalEncoding w) = w := by
    show BitVec.ofNat 32 w.toNat = w
    simp
  have n : decodeRow w.toNat = none := by
    cases hd : decodeRow w.toNat with
    | none => rfl
    | some i =>
      have := decodeRow_row _ _ hd
      simp [Instr.wf, this] at h
  rw [e]
  unfold decodeWord
  rw [n]
  rfl

theorem badpkt (q : Nat) : Statement (.badpkt q) := fun h => Bool.noConfusion (show false = true from h)

theorem restoreDone (pkt : Nat) : Statement (.restoreDone pkt) := fun h => Bool.noConfusion (show false = true from h)

theorem unknownMailboxCommand (code : Nat) : Statement (.unknownMailboxCommand code) := fun h => Bool.noConfusion (show false = true from h)

end Sys2Proof.Laws.Encoding
end

