-- ==== Sys2Proof/Laws/Shapes.lean ====
section
/-! SUPPORT. What the shared forms of an instruction do, said once: each turns the body of a meaning into the shape in which
claims are stated. -/

namespace Sys2Proof.Machine

open Sys2Proof

/-! ### Trap entry -/

/-- A trap of a wave in U mode whose region has a vector enters (spec/23 R371). -/
theorem takeTrap_enter {s : State} {wid : Nat} {w : Wave} (t : TrapRegs) (h : getWave s wid = some w) (hu : w.priv = .u)
    (hv : effTrapvec s (waveRegion s w) ≠ 0) :
    takeTrap s wid t = setWave s wid (w.enterTrap (effTrapvec s (waveRegion s w)) t) := by
  simp only [takeTrap, h, hu]
  rw [if_neg (by simpa using hv)]

/-- A trap without a vector is unrecoverable (spec/23 R375). -/
theorem takeTrap_discard {s : State} {wid : Nat} {w : Wave} (t : TrapRegs) (h : getWave s wid = some w)
    (hv : effTrapvec s (waveRegion s w) = 0) :
    takeTrap s wid t = discardOf s (waveRegion s w) := by
  simp [takeTrap, h, hv]

/-! ### Members that write registers -/

theorem writes_of_finishInt {i : Instr} {info : Wave → List Word → OpInfo} {put : Env → Wave → Wave}
    (he : ∀ s, exec i s = .next (issue s info fun v s => finishInt v s 0 (put v)))
    (hl : ∀ v u, (put v u).lanes = u.lanes) (hg : ∀ v u, (put v u).gang = u.gang)
    (hq : ∀ v u, (put v u).endReq = u.endReq) (hp : ∀ v u, (put v u).priv = u.priv) : Writes i info put := by
  intro s wid w pc iss ws h p
  rw [he]
  refine congrArg _ ((issue_finishInt (fl := fun _ => 0) (put := put) h p hl hg hq hp).trans ?_)
  simp only [Wave.orFlags_zero]
  rfl

theorem writes_scalar32 {d a b : BitVec 7} {i : Instr} {f f' : Word → Word → Word}
    (he : ∀ s, exec i s = .next (scalar32 d a b f s)) (hf : ∀ x y, f x y = f' x y) :
    Writes i (fun _ _ => scalarInfo d a b 1 1 1) fun v u =>
        u.writeS d.toNat (f' (v.w.readS a.toNat) (v.w.readS b.toNat)) := by
  obtain rfl : f = f' := funext fun x => funext fun y => hf x y
  exact writes_of_finishInt he (by intros; simp) (by intros; simp) (by intros; simp) (by intros; simp)

theorem writes_scalar64 {d a b : BitVec 7} {i : Instr} {f f' : DWord → DWord → DWord}
    (he : ∀ s, exec i s = .next (scalar64 d a b f s)) (hf : ∀ x y, f x y = f' x y) :
    Writes i (fun _ _ => scalarInfo d a b 2 2 2) fun v u =>
        u.writeS64 d.toNat (f' (v.w.readS64 a.toNat) (v.w.readS64 b.toNat)) := by
  obtain rfl : f = f' := funext fun x => funext fun y => hf x y
  exact writes_of_finishInt he (by intros; simp) (by intros; simp) (by intros; simp) (by intros; simp)

theorem writes_shift64 {d a b : BitVec 7} {i : Instr} {f f' : DWord → Nat → DWord}
    (he : ∀ s, exec i s = .next (scalarShift64 d a b f s)) (hf : ∀ x k, f x k = f' x k) :
    Writes i (fun _ _ => scalarInfo d a b 2 2 1) fun v u =>
        u.writeS64 d.toNat (f' (v.w.readS64 a.toNat) ((v.w.readS b.toNat).extractLsb' 0 6).toNat) := by
  obtain rfl : f = f' := funext fun x => funext fun y => hf x y
  have q : ∀ y : Word, (y.extractLsb' 0 6).toNat = y.toNat % 64 := fun y => by simp
  simp only [q]
  exact writes_of_finishInt he (by intros; simp) (by intros; simp) (by intros; simp) (by intros; simp)

/-! ### Vector members on integers -/

theorem writes_intBin {g : BitVec 3} {d a b : BitVec 7} {cls : Nat} {i : Instr} {f : Word → Word → Word × Word}
    {f' : Word → Word → Word}
    (hi : ∀ s, exec i s = .next (intBin cls g d a b f s)) (hf : ∀ x y, f x y = noFlag (f' x y)) :
    Writes i (fun _ ws => vrInfo cls g d a b 1 1 1 0 0 false ws) fun v u =>
      u.writeV d.toNat v.e fun l => f' (v.w.vlane a.toNat l) (v.w.vlane b.toNat l) := by
  intro s wid w pc iss ws h p
  rw [hi]
  refine congrArg _ ((issue_finishInt (fl := fun v => flagUnion ((lanesOf v.e).map fun l =>
    (f (v.w.vlane a.toNat l) (v.w.vlane b.toNat l)).2)) (put := fun v w => w.writeV d.toNat v.e fun l =>
      (f (v.w.vlane a.toNat l) (v.w.vlane b.toNat l)).1) h p (by intros; simp) (by intros; simp)
    (by intros; simp) (by intros; simp)).trans ?_)
  simp only [hf, noFlag, flagUnion_map_zero, Wave.orFlags_zero]
  rfl

theorem writes_clamp {g : BitVec 3} {d a b : BitVec 7} {i : Instr} {lo hi : Int} {f' : Word → Word → Int}
    (he : ∀ s, exec i s = .next (intBin 1 g d a b (fun x y => clampTo lo hi (f' x y)) s)) (hl : lo ≤ hi) :
    Writes i (fun _ ws => vrInfo 1 g d a b 1 1 1 0 0 false ws) fun v u =>
        let x := fun l => f' (v.w.vlane a.toNat l) (v.w.vlane b.toNat l)
        (u.orFlags (if (lanesOf v.e).any fun l => decide (x l < lo ∨ hi < x l) then 0x20 else 0)).writeV d.toNat v.e
          fun l => BitVec.ofInt 32 (max lo (min hi (x l))) := by
  intro s wid w pc iss ws h p
  rw [he]
  refine congrArg _ ((issue_finishInt (fl := fun v => flagUnion ((lanesOf v.e).map fun l =>
    (clampTo lo hi (f' (v.w.vlane a.toNat l) (v.w.vlane b.toNat l))).2)) (put := fun v w => w.writeV d.toNat v.e fun l =>
      (clampTo lo hi (f' (v.w.vlane a.toNat l) (v.w.vlane b.toNat l))).1) h p (by intros; simp) (by intros; simp)
    (by intros; simp) (by intros; simp)).trans ?_)
  simp only [clampTo_eq _ _ _ hl, flagUnion_map_if]
  rfl

/-! ### Scalar floating-point members -/

theorem roundsOnce_finish {i : Instr} {info : Wave → List Word → OpInfo} {d : Nat} {r : Env → Nat × Word}
    (hi : ∀ s, exec i s = .next (issue s info fun v s => finishScalarFp v s d (r v)))
    (hc : ∀ w ws, ¬ (18 ≤ (info w ws).cls ∧ (info w ws).cls ≤ 23)) :
    RoundsOnce i info r (fun _ => 0) fun _ q u => u.writeS d (BitVec.ofNat 32 q) := by
  intro s wid w pc iss ws h p
  rw [hi]
  refine congrArg _ ?_
  rw [issue_finishFp h p (hc _ _) rfl (by intros; simp) (by intros; simp) (by intros; simp) (by intros; simp)]
  rfl

end Sys2Proof.Machine
end

