-- ==== Sys2Proof/Tests/Slice0.lean ====
section
/-! SUPPORT. Tests: words of the spec's tables and what they decode to, ill-formed terms, results worked out by hand or in
the spec's examples, and for each statement a state and operands that meet its hypotheses. -/

set_option Elab.async false

namespace Sys2Proof.Tests

open Sys2Proof Sys2Proof.Machine

/-! ### A small state: one GENERAL wave at a word, in a module loaded with a program -/

/-- A module loaded with one wave, which is the current one; nothing is in its registers but lane numbers in V0. -/
def base : State := { loadWord State.reset 0 with cur := some 4 }

/-- The wave of `base`. -/
def wave0 : Wave := loadedWave 0

/-- `base` with its wave changed. -/
def changed (f : Wave → Wave) : State := setWave base 4 (f wave0)

/-- Something of the next state and of the wave in it. -/
def after {α : Type} (o : Host.Outcome State Fault Refusal) (f : State → Wave → α) : Option α :=
  match o with
  | .next t => (getWave t 4).map (f t)
  | _ => none

/-- Gives every lane of a vector register a value. -/
def vv (n : Nat) (f : Nat → Word) (w : Wave) : Wave := w.writeV n 0xFFFFFFFF f

/-- Gives scalar registers their values, from one up. -/
def ss (n : Nat) (l : List Word) (w : Wave) : Wave := (l.zip (numsFrom n l.length)).foldl (fun w p => w.writeS p.2 p.1) w

/-- What `Passes` asks, as a test. -/
def passes (w : Wave) (i : OpInfo) (ws : List Word) : Bool :=
  !w.reserved (i.rs ++ i.ws) && !(w.priv == .u && !w.log.isEmpty && decide (24 ≤ i.cls ∧ i.cls ≤ 28)) &&
    (issueCheck w i ws (samples w ws)).isNone

theorem passes_of {w : Wave} {i : OpInfo} {ws : List Word} (h : passes w i ws = true) : Passes w i ws := by
  simp only [passes, Bool.and_eq_true, Bool.not_eq_true', Option.isNone_iff_eq_none] at h
  exact ⟨h.1.1, h.1.2, h.2⟩

/-- What `Stands` asks at the program's first word, with every lane issuing and these prefix words before it. -/
def stands (s : State) (w : Wave) (ws : List Word) : Bool :=
  s.cur == some 4 && getWave s 4 == some w && w.front == some (0x10000, 0xFFFFFFFF, ws) && mayIssue s 4 w && !w.endReq &&
    !laneIdx.all fun l => w.lane l == .exited

theorem stands_of {s : State} {w : Wave} {ws : List Word} (h : stands s w ws = true) :
    Stands s 4 w 0x10000 0xFFFFFFFF ws := by
  simp only [stands, Bool.and_eq_true, Bool.not_eq_true', beq_iff_eq] at h
  exact ⟨h.1.1.1.1.1, h.1.1.1.1.2, h.1.1.1.2, h.1.1.2, h.1.2, h.2⟩

/-- The wave of `base` after prefix words. -/
def after' (ws : List Word) (w : Wave) : Wave := if ws = [] then w else { w with chain := some ⟨0x10000, 0xFFFFFFFF, ws⟩ }

/-- A wave stands at a word after these prefix words, and the word passes its checks. -/
def ready (w : Wave) (ws : List Word) (i : OpInfo) : Bool :=
  let u := after' ws w
  stands (setWave base 4 u) u ws && passes u i ws

/-- `ready` is what the statements about one word ask. -/
theorem ready_of {w : Wave} {ws : List Word} {i : OpInfo} (h : ready w ws i = true) :
    ∃ s u, u = after' ws w ∧ Stands s 4 u 0x10000 0xFFFFFFFF ws ∧ Passes u i ws := by
  simp only [ready, Bool.and_eq_true] at h
  exact ⟨_, _, rfl, stands_of h.1, passes_of h.2⟩

/-! ### Words and what they decode to (Tables 7.10, 8.1, 9.9, 11.13, 13.19) -/

theorem test_decode_vector : [0x000A0410, 0x2310183A, 0x4002081D, 0x50040801, 0x48121016, 0x48140FBC, 0x580A0411, 0x60101838,
    0xE8060417, 0x20080413].map decodeWord =
  [.vaddI32 0 5 1 2, .vfmulF32 3 8 6 7, .vcmpLtF32 0 1 2 3, .vaddi 0 2 2 1, .vcvtn 0 9 4 5 2, .vmxs 0 10 3 15 0,
    .vshfx 0 5 1 2, .vdot4I8 0 8 6 7, .vfmed3 0 3 1 2, .vfmaF32 0 4 1 2] := by decide +kernel

theorem test_decode_scalar : [0x68A04100, 0x70C18001, 0x6830401F, 0x78408004, 0x7800C00C, 0x71401C56, 0x71405002,
    0x69410513].map decodeWord =
  [.sadd 10 2 4, .saddi 12 12 1, .scvti2f 3 2, .srsr 4 4, .ptag 6, .smovi 20 0x056, .sshli 20 2 2,
    .saddI64 20 8 20] := by decide +kernel

theorem test_decode_flow : [0x81100005, 0x800FFFFD, 0x8500000D, 0x84CFFFFD, 0x86300000, 0x8700000A, 0x88000000, 0x89000000,
    0x8A000000, 0x8B000000, 0x8C000021, 0x8D000003, 0x8E000000].map decodeWord =
  [.brp 1 5, .br 0xFFFFD, .call 13, .brnz 12 0xFFFFD, .jmpi 3, .jmpv 10, .ret, .exit, .nop, .yield, .trap 0x21, .brk 3,
    .ereturn] := by decide +kernel

theorem test_decode_memory : [0x900C1484, 0x90080885, 0x900E0C43, 0x980C1482, 0x98060880, 0xA00C04AE, 0xA8100CC0, 0xB1421010,
    0xB0322008, 0xB1025000, 0xB81210E0, 0xB82010E2].map decodeWord =
  [.ldB32 0 6 5 4, .ldB64 0 4 2 4, .ldI16 0 7 3 2, .stB32 0 6 5 4, .stB8 0 3 2 4, .acasB32 0 6 1 5, .vpoolB32 0 8 3 6,
    .sldB64 20 4 0x10, .sstB32 3 4 8, .scasB64 16 4 0, .aappB32 0 9 4 7, .aappl 0 16 4 7] := by decide +kernel

theorem test_decode_engine : [0xC0221885, 0xC10428C7, 0xC8400462, 0xCC431C02, 0xC5201235, 0xC9000581].map decodeWord =
  [.ccopy 1 2 3 4 5, .cblock 0 4 5 6 7, .mloop 4 0 1 3 2, .mdrainMx 4 6 7 0 2, .cpromote 1 2 17 21,
    .mloopG 0 0 1 12 1] := by decide +kernel

theorem test_decode_sync : [0xD0000710, 0xD0428700, 0xD14A1000, 0xD14A18BC, 0xD181FFFC, 0xD14F1880, 0xD1501880].map decodeWord =
  [.barinit 7 8, .bararrive 5 7 0, .wait 20 16 0, .waitInline 20 24 30, .settle 0 31 31 31, .waitInline 30 24 0,
    .waitInline 32 24 0] := by decide +kernel

theorem test_decode_object : [0xDB543006, 0xDB543086, 0xDB943006, 0xDBD43006, 0xE1461400, 0xE0C00000].map decodeWord =
  [.psend 40 48 3, .psend 40 48 0x43, .pgrant 40 48 3, .precv 40 48 3, .csaveq 12 20, .gsaved 0] := by decide +kernel

theorem test_decode_prefixes : [0xF9130240, 0xFB000019, 0xFA800000, 0xF800048D].map decodeWord =
  [.xop 0x4C09, .guard 1 9, .hint 0x800000, .ximm 0x48D] := by decide +kernel

theorem test_decode_rejects : [0x8F000000, 0xF0000000, 0xFFFFFFFF, 0x8A000001].map decodeWord =
  [.illegalEncoding 0x8F000000, .illegalEncoding 0xF0000000, .illegalEncoding 0xFFFFFFFF, .illegalEncoding 0x8A000001] := by
  decide +kernel

theorem test_decode_bytes : decode [0x40, 0x02, 0x13, 0xF9, 0x19] = .ok (.xop 0x4C09, [0x19]) := by decide +kernel

theorem test_decode_short : decode [0x40, 0x02, 0x13] = .error .tooShort := by decide +kernel

theorem test_encode : [Instr.vaddI32 0 5 1 2, .brnz 12 0xFFFFD, .waitInline 20 24 30, .guard 1 9].map encode =
  [0x000A0410, 0x84CFFFFD, 0xD14A18BC, 0xFB000019] := by decide +kernel

/-! ### Ill-formed terms -/

theorem test_ill_formed_event : (Instr.coldReset).wf = false := by decide +kernel

theorem test_ill_formed_word : (Instr.illegalEncoding 0x000A0410).wf = false := by decide +kernel

theorem test_well_formed : (Instr.illegalEncoding 0x8F000000).wf = true ∧ (Instr.vaddI32 7 127 127 127).wf = true := by
  decide +kernel

/-! ### Vector members (spec/09) -/

/-- What lane `l` of vector register `n` holds after an instruction. -/
def lane (o : Host.Outcome State Fault Refusal) (n l : Nat) : Option Word := after o fun _ w => w.vlane n l

/-- V1 and V2 with these values in every lane, V5 all ones. -/
def two (x y : Word) : State := changed fun w => vv 5 (fun _ => 0xFFFFFFFF) (vv 2 (fun _ => y) (vv 1 (fun _ => x) w))

theorem test_vadd_wraps : lane (exec (.vaddI32 0 5 1 2) (two 3 0xFFFFFFFF)) 5 31 = some 2 := by decide +kernel
theorem test_vsub_order : lane (exec (.vsubI32 0 5 1 2) (two 3 5)) 5 0 = some 0xFFFFFFFE := by decide +kernel
theorem test_vmullo : lane (exec (.vmulloI32 0 5 1 2) (two 0x10001 0x10001)) 5 0 = some 0x20001 := by decide +kernel
theorem test_vmulhi_signed : lane (exec (.vmulhiI32 0 5 1 2) (two 0xFFFFFFFF 2)) 5 0 = some 0xFFFFFFFF := by decide +kernel
theorem test_vmulhi_unsigned : lane (exec (.vmulhiN32 0 5 1 2) (two 0xFFFFFFFF 2)) 5 0 = some 1 := by decide +kernel
theorem test_vmad_reads_vd : lane (exec (.vmadI32 0 5 1 2) (two 3 4)) 5 0 = some 11 := by decide +kernel
theorem test_vmin_signed : lane (exec (.vminI32 0 5 1 2) (two 0xFFFFFFFF 2)) 5 0 = some 0xFFFFFFFF := by decide +kernel
theorem test_vmin_unsigned : lane (exec (.vminN32 0 5 1 2) (two 0xFFFFFFFF 2)) 5 0 = some 2 := by decide +kernel
theorem test_vmax_signed : lane (exec (.vmaxI32 0 5 1 2) (two 0xFFFFFFFF 2)) 5 0 = some 2 := by decide +kernel
theorem test_vmax_unsigned : lane (exec (.vmaxN32 0 5 1 2) (two 0xFFFFFFFF 2)) 5 0 = some 0xFFFFFFFF := by decide +kernel
theorem test_vabsd_signed : lane (exec (.vabsdI32 0 5 1 2) (two 0x80000000 0x7FFFFFFF)) 5 0 = some 0xFFFFFFFF := by
  decide +kernel
theorem test_vabsd_unsigned : lane (exec (.vabsdN32 0 5 1 2) (two 1 3)) 5 0 = some 2 := by decide +kernel
theorem test_vadds_clamps : after (exec (.vaddsI32 0 5 1 2) (two 0x7FFFFFFF 1)) (fun _ w => (w.vlane 5 0, w.flags)) =
    some (0x7FFFFFFF, 0x20) := by decide +kernel
theorem test_vsubs_clamps : after (exec (.vsubsI32 0 5 1 2) (two 0x80000000 1)) (fun _ w => (w.vlane 5 0, w.flags)) =
    some (0x80000000, 0x20) := by decide +kernel
theorem test_vadds_unsigned : after (exec (.vaddsN32 0 5 1 2) (two 0xFFFFFFFE 1)) (fun _ w => (w.vlane 5 0, w.flags)) =
    some (0xFFFFFFFF, 0) := by decide +kernel
theorem test_vsubs_unsigned : after (exec (.vsubsN32 0 5 1 2) (two 1 2)) (fun _ w => (w.vlane 5 0, w.flags)) =
    some (0, 0x20) := by decide +kernel
theorem test_vand_or_xor_andn : [Instr.vand 0 5 1 2, .vor 0 5 1 2, .vxor 0 5 1 2, .vandn 0 5 1 2].map
    (fun i => lane (exec i (two 0xC 0xA)) 5 0) = [some 8, some 0xE, some 6, some 4] := by decide +kernel
theorem test_shifts_count_mod_32 : [Instr.vshl 0 5 1 2, .vshrN32 0 5 1 2, .vshrI32 0 5 1 2, .vrotl 0 5 1 2].map
    (fun i => lane (exec i (two 0x80000001 33)) 5 0) = [some 2, some 0x40000000, some 0xC0000000, some 3] := by
  decide +kernel
theorem test_bit_counts : [Instr.vpopc 0 5 1, .vclz 0 5 1, .vbrev 0 5 1].map (fun i => lane (exec i (two 0x00F00001 0)) 5 0) =
    [some 5, some 8, some 0x80000F00] := by decide +kernel
theorem test_vclz_zero : lane (exec (.vclz 0 5 1) (two 0 0)) 5 0 = some 32 := by decide +kernel
theorem test_vbfe_at_the_top : [Instr.vbfeN32 0 5 1 2, .vbfeI32 0 5 1 2].map
    (fun i => lane (exec i (two 0x80000000 0x081C)) 5 0) = [some 8, some 0xFFFFFFF8] := by decide +kernel
theorem test_vbfi : lane (exec (.vbfi 0 5 1 2) (two 0 0x0804)) 5 0 = some 0xFFFFF00F := by decide +kernel
theorem test_vsel : after (exec (.vsel 1 5 1 2) (changed fun w => (vv 2 (fun _ => 7) (vv 1 (fun _ => 9) w)).writeP 1 2))
    (fun _ w => (w.vlane 5 0, w.vlane 5 1)) = some (7, 9) := by decide +kernel
theorem test_vmov_guarded : after (exec (.vmov 1 5 1) (setWave (two 9 0) 4 ((vv 5 (fun _ => 3) (vv 1 (fun _ => 9) wave0)).writeP 1 2)))
    (fun _ w => (w.vlane 5 0, w.vlane 5 1)) = some (3, 9) := by decide +kernel

theorem test_vaddi_negative : lane (exec (.vaddi 0 5 1 0x7F) (two 3 0)) 5 0 = some 2 := by decide +kernel
theorem test_vmuli : lane (exec (.vmuli 0 5 1 3) (two 5 0)) 5 0 = some 15 := by decide +kernel
theorem test_vandi_ximm : lane (exec (.vandi 0 5 1 0x70) (setWave base 4 (after' [0xF8000001] (vv 1 (fun _ => 0xFFF) wave0)))) 5 0 =
    some 0xF0 := by decide +kernel
theorem test_vori_vxori : [Instr.vori 0 5 1 1, .vxori 0 5 1 0x7F].map (fun i => lane (exec i (two 6 0)) 5 0) =
    [some 7, some 0xFFFFFFF9] := by decide +kernel
theorem test_shift_immediates : [Instr.vshli 0 5 1 31, .vshriN32 0 5 1 31, .vshriI32 0 5 1 31].map
    (fun i => lane (exec i (two 0x80000001 0)) 5 0) = [some 0x80000000, some 1, some 0xFFFFFFFF] := by decide +kernel

theorem test_vcmp : [Instr.vcmpEqI32 0 1 1 2, .vcmpLtI32 0 1 1 2, .vcmpLtN32 0 1 1 2, .vcmpLeI32 0 1 1 2].map
    (fun i => after (exec i (two 0xFFFFFFFF 1)) fun _ w => w.readP 1) = [some 0, some 0xFFFFFFFF, some 0, some 0xFFFFFFFF] := by
  decide +kernel
theorem test_vshf : lane (exec (.vshf 0 5 0 2) (two 0 35)) 5 9 = some 3 := by decide +kernel
theorem test_vshfx : lane (exec (.vshfx 0 5 0 2) (two 0 1)) 5 9 = some 8 := by decide +kernel
theorem test_vshfup_out_of_range : [0, 1].map (fun l => lane (exec (.vshfup 0 5 0 2) (two 0 1)) 5 l) = [some 0, some 0] := by
  decide +kernel
theorem test_vshfdn_out_of_range : [30, 31].map (fun l => lane (exec (.vshfdn 0 5 0 2) (two 0 1)) 5 l) = [some 31, some 31] := by
  decide +kernel
theorem test_vredsum_i32 : lane (exec (.vredsumI32 0 5 0) base) 5 7 = some 496 := by decide +kernel
/-- Table 10.3. -/
theorem test_vscan : [0, 1, 2, 5, 7].map (fun l => lane (exec (.vscanI32 1 11 12)
    (changed fun w => (vv 11 (fun _ => 0) (vv 12 (fun _ => 1) w)).writeP 1 0xA6)) 11 l) =
    [some 0, some 1, some 2, some 3, some 4] := by decide +kernel

/-- Table 10.1: V6, V7 and V8 of lane 0, and of lane 1 in lane 1. -/
def dotState : State :=
  let u := vv 8 (fun l => if l = 0 then 1000 else 0x7FFFFFF0) (vv 7 (fun l => if l = 0 then 0x02FF0604 else 0x7F7F7F7F)
    (vv 6 (fun l => if l = 0 then 0x7F05FE03 else 0x7F7F7F7F) wave0))
  setWave base 4 (after' [0xF9000400] u)

theorem test_vdot4_sat : after (exec (.vdot4I8 0 8 6 7) dotState) (fun _ w => (w.vlane 8 0, w.vlane 8 1, w.flags)) =
    some (0x4E1, 0x7FFFFFFF, 0x20) := by decide +kernel
theorem test_vdot_signs : [Instr.vdot4N8 0 5 1 2, .vdot4In8 0 5 1 2].map
    (fun i => lane (exec i (two 0x000000FF 0x000000FF)) 5 0) = [some 0xFE00, some 0xFFFFFF00] := by decide +kernel
theorem test_vdot8 : [Instr.vdot8I4 0 5 1 2, .vdot8N4 0 5 1 2].map
    (fun i => lane (exec i (two 0xF000000F 0xF000000F)) 5 0) = [some 1, some 0x1C1] := by decide +kernel

/-! ### Floating point (spec/05, spec/06, spec/09, spec/10) -/

theorem test_vfadd_rounds : after (exec (.vfaddF32 0 5 1 2) (two 0x4B800000 0x3F800000)) (fun _ w => (w.vlane 5 0, w.flags)) =
    some (0x4B800000, 1) := by decide +kernel
theorem test_vfsub : lane (exec (.vfsubF32 0 5 1 2) (two 0x3F800000 0x40000000)) 5 0 = some 0xBF800000 := by decide +kernel
/-- Table 10.1: 1249 × 0.5. -/
theorem test_vfmul : lane (exec (.vfmulF32 0 5 1 2) (two 0x449C2000 0x3F000000)) 5 0 = some 0x441C2000 := by decide +kernel
theorem test_vfma_exact : lane (exec (.vfmaF32 0 5 1 2) (setWave base 4 (vv 5 (fun _ => 0xBF800000) (vv 2 (fun _ => 0x3F800001)
    (vv 1 (fun _ => 0x3F7FFFFF) wave0))))) 5 0 = some 0x337FFFFE := by decide +kernel
theorem test_vfmin_of_nan : lane (exec (.vfminF32 0 5 1 2) (two 0x7FC00000 0x3F800000)) 5 0 = some 0x3F800000 := by
  decide +kernel
theorem test_vfmax_zeros : lane (exec (.vfmaxF32 0 5 1 2) (two 0x80000000 0)) 5 0 = some 0 := by decide +kernel
theorem test_vfsgn : lane (exec (.vfsgnF32 0 5 1 2) (two 0x3F800000 0x80000000)) 5 0 = some 0xBF800000 := by decide +kernel
/-- Table 10.2: 288 × 2^−1, −1 × 2^−1 and 2^−9 × 2^−1. -/
theorem test_vfscale : [0x43900000, 0xBF800000, 0x3B000000].map (fun x => lane (exec (.vfscaleF32 0 5 1 2) (two x 0xFFFFFFFF)) 5 0) =
    [some 0x43100000, some 0xBF000000, some 0x3A800000] := by decide +kernel
theorem test_vrcp_zero : after (exec (.vrcpF32 0 5 1) (two 0 0)) (fun _ w => (w.vlane 5 0, w.flags)) =
    some (0x7F800000, 8) := by decide +kernel
theorem test_roots : [Instr.vrsqF32 0 5 1, .vsqrtF32 0 5 1].map (fun i => lane (exec i (two 0x40800000 0)) 5 0) =
    [some 0x3F000000, some 0x40000000] := by decide +kernel
theorem test_exp_log : [Instr.vexp2F32 0 5 1, .vlog2F32 0 5 1].map (fun i => lane (exec i (two 0x40000000 0)) 5 0) =
    [some 0x40800000, some 0x3F800000] := by decide +kernel
theorem test_sinpi_cospi : [Instr.vsinpiF32 0 5 1, .vcospiF32 0 5 1].map (fun i => lane (exec i (two 0x3F000000 0)) 5 0) =
    [some 0x3F800000, some 0] := by decide +kernel
theorem test_vdiv_third : after (exec (.vdivF32 0 5 1 2) (two 0x3F800000 0x40400000)) (fun _ w => (w.vlane 5 0, w.flags)) =
    some (0x3EAAAAAB, 1) := by decide +kernel
theorem test_packed_f16 : [Instr.vhaddF16x2 0 5 1 2, .vhmulF16x2 0 5 1 2, .vhminF16x2 0 5 1 2, .vhmaxF16x2 0 5 1 2].map
    (fun i => lane (exec i (two 0x40003C00 0x40004200)) 5 0) =
    [some 0x44004400, some 0x44004200, some 0x40003C00, some 0x40004200] := by decide +kernel
theorem test_packed_bf16 : [Instr.vhaddBf16x2 0 5 1 2, .vhmulBf16x2 0 5 1 2].map
    (fun i => lane (exec i (two 0x40003F80 0x40004040)) 5 0) = [some 0x40804080, some 0x40804040] := by decide +kernel
theorem test_packed_fma : [Instr.vhfmaF16x2 0 5 1 2, .vhfmaBf16x2 0 5 1 2].map (fun i => lane (exec i
    (setWave base 4 (vv 5 (fun _ => 0x3C003C00) (vv 2 (fun _ => 0) (vv 1 (fun _ => 0x3C003C00) wave0))))) 5 0) =
    [some 0x3C003C00, some 0x3C003C00] := by decide +kernel

/-- V2:V3 and V4:V5 hold FP64 values. -/
def pairs (x y : Word) : State := changed fun w => vv 5 (fun _ => y) (vv 4 (fun _ => 0) (vv 3 (fun _ => x) (vv 2 (fun _ => 0) w)))

theorem test_fp64 : [Instr.vdaddF64 0 6 2 4, .vdsubF64 0 6 2 4, .vdmulF64 0 6 2 4, .vdminF64 0 6 2 4, .vdmaxF64 0 6 2 4, .vddivF64 0 6 2 4].map
    (fun i => lane (exec i (pairs 0x40100000 0x40000000)) 7 0) = [some 0x40180000, some 0x40000000, some 0x40200000,
    some 0x40000000, some 0x40100000, some 0x40000000] := by decide +kernel
theorem test_fp64_root_fma : [Instr.vdsqrtF64 0 6 2, .vdfmaF64 0 6 2 4].map
    (fun i => lane (exec i (pairs 0x40100000 0x40000000)) 7 0) = [some 0x40000000, some 0x40200000] := by decide +kernel
theorem test_integral : [Instr.vfrint 0 5 1, .vffloor 0 5 1, .vfceil 0 5 1, .vftrunc 0 5 1].map
    (fun i => lane (exec i (two 0xC0200000 0)) 5 0) = [some 0xC0000000, some 0xC0400000, some 0xC0000000, some 0xC0000000] := by
  decide +kernel
theorem test_class_exp_mant : [Instr.vfclass 0 5 1, .vfexp 0 5 1, .vfmant 0 5 1].map
    (fun i => lane (exec i (two 0x41200000 0)) 5 0) = [some 0x40, some 3, some 0x3FA00000] := by decide +kernel
theorem test_vfexp_zero : after (exec (.vfexp 0 5 1) (two 0 0)) (fun _ w => (w.vlane 5 0, w.flags)) = some (0x80000000, 8) := by
  decide +kernel
theorem test_vfmed3 : lane (exec (.vfmed3 0 5 1 2) (setWave base 4 (vv 5 (fun _ => 0x40000000) (vv 2 (fun _ => 0x3F800000)
    (vv 1 (fun _ => 0x40400000) wave0))))) 5 0 = some 0x40000000 := by decide +kernel
theorem test_vcmp_f32 : [Instr.vcmpEqF32 0 1 1 2, .vcmpLtF32 0 1 1 2, .vcmpLeF32 0 1 1 2, .vcmpUnF32 0 1 1 2].map
    (fun i => after (exec i (two 0x7FC00000 0x3F800000)) fun _ w => (w.readP 1, w.flags)) =
    [some (0, 0), some (0, 16), some (0, 16), some (0xFFFFFFFF, 0)] := by decide +kernel
theorem test_vredmax : lane (exec (.vredmaxF32 0 5 1) (changed (vv 1 fun l => if l = 3 then 0x40400000 else 0xBF800000))) 5 9 =
    some 0x40400000 := by decide +kernel
/-- Table 10.4. -/
theorem test_vredsum_tree : after (exec (.vredsumF32 0 5 1) (changed (vv 1 fun l => if l = 0 then 0x4B800000 else 0x3F800000)))
    (fun _ w => (w.vlane 5 0, w.flags)) = some (0x4B80000F, 1) := by decide +kernel
theorem test_vredsum_guarded : after (exec (.vredsumF32 1 5 1) (changed fun w => (vv 1 (fun l => if l = 0 then 0x4B800000 else
    0x3F800000) w).writeP 1 0xFFFFFFFD)) (fun _ w => (w.vlane 5 0, w.flags)) = some (0x4B80000F, 0) := by decide +kernel
theorem test_vdot2 : lane (exec (.vdot2Bf16 0 5 1 2) (setWave base 4 (vv 5 (fun _ => 0x3F800000) (vv 2 (fun _ => 0x3F803F80)
    (vv 1 (fun _ => 0x3F803F80) wave0))))) 5 0 = some 0x40400000 := by decide +kernel
/-- E4M3 0x38 is 1.0 and 0x40 is 2.0; E2M1 2 is 1.0 and 4 is 2.0 (R75). -/
theorem test_vdot_small : [lane (exec (.vdot4E4m3 0 5 1 2) (setWave base 4 (vv 5 (fun _ => 0x3F800000) (vv 2 (fun _ => 0x00003840)
    (vv 1 (fun _ => 0x00003838) wave0))))) 5 0, lane (exec (.vdot8E2m1 0 5 1 2) (setWave base 4 (vv 5 (fun _ => 0)
    (vv 2 (fun _ => 0x20000004) (vv 1 (fun _ => 0x20000004) wave0))))) 5 0] = [some 0x40800000, some 0x40A00000] := by
  decide +kernel
/-- Table 6.1: 300, 460, 500 to E4M3 and 2.5, 7 to E2M1. -/
theorem test_vcvtn_e4m3 : [0x43960000, 0x43E60000, 0x43FA0000].map (fun x => after (exec (.vcvtn 0 5 1 5 0) (two x 0))
    fun _ w => (w.vlane 5 0, w.flags)) = [some (0xFFFFFF79, 1), some (0xFFFFFF7E, 1), some (0xFFFFFF7F, 5)] := by
  decide +kernel
/-- Table 10.2. -/
theorem test_vcvtw_e4m3 : [0x79, 0xB8, 0x01, 0x7F].map (fun x => lane (exec (.vcvtw 0 5 1 5 0) (two x 0)) 5 0) =
    [some 0x43900000, some 0xBF800000, some 0x3B000000, some 0x7FC00000] := by decide +kernel
/-- Table 10.1: 2^31 − 1 has no FP32 encoding. -/
theorem test_vcvti2f : after (exec (.vcvti2f 0 5 1 1 0) (two 0x7FFFFFFF 0)) (fun _ w => (w.vlane 5 0, w.flags)) =
    some (0x4F000000, 1) := by decide +kernel
theorem test_vcvtf2i_saturates : after (exec (.vcvtf2i 0 5 1 1 0) (two 0x4F000000 0)) (fun _ w => w.vlane 5 0) =
    some 0x7FFFFFFF := by decide +kernel
theorem test_vcvt_double : [Instr.vcvtf2d 0 6 1 1 0].map (fun i => lane (exec i (two 0x40400000 0)) 7 0) = [some 0x40080000] := by
  decide +kernel
theorem test_vcvtd2f : lane (exec (.vcvtd2f 0 6 2 1 0) (pairs 0x40080000 0)) 6 0 = some 0x40400000 := by decide +kernel
theorem test_vsrnd_bf16 : lane (exec (.vsrnd 0 5 1 3 0) (two 0x3F808001 0)) 5 0 = some 0x3F810000 := by decide +kernel
/-- R90: amax 10 and E4M3's emax 8 give 3 − 8 + 127. -/
theorem test_vmxs : lane (exec (.vmxs 0 5 1 15 0) (two 0x41200000 0)) 5 0 = some 0xFFFFFF7A := by decide +kernel

/-! ### Scalars, predicates and special registers (spec/05, spec/09) -/

/-- What a scalar register holds after an instruction. -/
def sreg (o : Host.Outcome State Fault Refusal) (n : Nat) : Option Word := after o fun _ w => w.readS n

/-- S2 and S4 with these values, S3 and S5 with others. -/
def regs (x x' y y' : Word) : State := changed (ss 2 [x, x', y, y'])

theorem test_scalar_arithmetic : [Instr.sadd 6 2 4, .ssub 6 2 4, .smullo 6 2 4, .smulhiI32 6 2 4, .smulhiN32 6 2 4].map
    (fun i => sreg (exec i (regs 0xFFFFFFFF 0 2 0)) 6) = [some 1, some 0xFFFFFFFD, some 0xFFFFFFFE, some 0xFFFFFFFF, some 1] := by
  decide +kernel
theorem test_division : [Instr.sdivI32 6 2 4, .sdivN32 6 2 4, .sremI32 6 2 4, .sremN32 6 2 4].map
    (fun i => sreg (exec i (regs 0xFFFFFFF9 0 2 0)) 6) = [some 0xFFFFFFFD, some 0x7FFFFFFC, some 0xFFFFFFFF, some 1] := by
  decide +kernel
/-- R158: division by zero, and of the least number by −1. -/
theorem test_division_corners : [(Instr.sdivI32 6 2 4, (5 : Word), (0 : Word)), (.sdivN32 6 2 4, 5, 0), (.sremI32 6 2 4, 5, 0),
    (.sremN32 6 2 4, 5, 0), (.sdivI32 6 2 4, 0x80000000, 0xFFFFFFFF), (.sremI32 6 2 4, 0x80000000, 0xFFFFFFFF)].map
    (fun p => sreg (exec p.1 (regs p.2.1 0 p.2.2 0)) 6) =
    [some 0xFFFFFFFF, some 0xFFFFFFFF, some 5, some 5, some 0x80000000, some 0] := by decide +kernel
theorem test_scalar_min_max : [Instr.sminI32 6 2 4, .sminN32 6 2 4, .smaxI32 6 2 4, .smaxN32 6 2 4].map
    (fun i => sreg (exec i (regs 0xFFFFFFFF 0 2 0)) 6) = [some 0xFFFFFFFF, some 2, some 2, some 0xFFFFFFFF] := by decide +kernel
theorem test_scalar_logic : [Instr.sand 6 2 4, .sor 6 2 4, .sxor 6 2 4, .sshl 6 2 4, .sshrN32 6 2 4, .sshrI32 6 2 4].map
    (fun i => sreg (exec i (regs 0x80000003 0 33 0)) 6) =
    [some 1, some 0x80000023, some 0x80000022, some 6, some 0x40000001, some 0xC0000001] := by decide +kernel
theorem test_scalar_pairs : [Instr.saddI64 6 2 4, .ssubI64 6 2 4, .smulI64 6 2 4].map
    (fun i => sreg (exec i (regs 0xFFFFFFFF 0 1 0)) 7) = [some 1, some 0, some 0] := by decide +kernel
theorem test_scalar_shift_pairs : [Instr.sshlB64 6 2 4, .sshrN64 6 2 4].map
    (fun i => (sreg (exec i (regs 1 0x80000000 33 0)) 6, sreg (exec i (regs 1 0x80000000 33 0)) 7)) =
    [(some 0, some 2), (some 0x40000000, some 0)] := by decide +kernel
theorem test_scalar_compares : [Instr.scmpEq 6 2 4, .scmpLtI32 6 2 4, .scmpLtN32 6 2 4].map
    (fun i => sreg (exec i (regs 0xFFFFFFFF 0 2 0)) 6) = [some 0, some 1, some 0] := by decide +kernel
theorem test_s0_discards : sreg (exec (.sadd 0 2 4) (regs 3 0 2 0)) 0 = some 0 := by decide +kernel
theorem test_scalar_float : [Instr.sfaddF32 6 2 4, .sfmulF32 6 2 4].map
    (fun i => sreg (exec i (regs 0x40400000 0 0x40000000 0)) 6) = [some 0x40A00000, some 0x40C00000] := by decide +kernel
theorem test_sfma : sreg (exec (.sfmaF32 5 2 4) (regs 0x40400000 0 0x40000000 0x3F800000)) 5 = some 0x40E00000 := by
  decide +kernel
theorem test_scalar_convert : [Instr.scvtf2i 6 2, .scvti2f 6 4].map
    (fun i => sreg (exec i (regs 0xC0400000 0 0xFFFFFFFE 0)) 6) = [some 0xFFFFFFFD, some 0xC0000000] := by decide +kernel
theorem test_scalar_immediates : [Instr.saddi 6 2 0x3FF, .sandi 6 2 0x0F0, .sori 6 2 1, .sxori 6 2 0x3FF, .sshli 6 2 4, .sshri 6 2 4,
    .slui 6 2 0x3F, .smovi 6 0x200].map (fun i => sreg (exec i (regs 0x1234 0 0 0)) 6) =
    [some 0x1233, some 0x30, some 0x1235, some 0xFFFFEDCB, some 0x12340, some 0x123, some 0x3F1234, some 0xFFFFFE00] := by
  decide +kernel
/-- Table 8.1: `smovi s20, 0x123456`. -/
theorem test_smovi_ximm : sreg (exec (.smovi 20 0x056) (setWave base 4 (after' [0xF800048D] wave0))) 20 = some 0x123456 := by
  decide +kernel

theorem test_lane_moves : [after (exec (.vbcast 5 2) (regs 7 0 0 0)) fun _ w => w.vlane 5 31,
    after (exec (.vrdlane 6 0 2) (regs 35 0 0 0)) fun _ w => w.readS 6,
    after (exec (.vwrlane 0 2 4) (regs 7 0 9 0)) fun _ w => w.vlane 0 9] = [some 7, some 3, some 7] := by decide +kernel
theorem test_vlpc : sreg (exec (.vlpc 6 2) (regs 3 0 0 0)) 6 = some 0x10000 := by decide +kernel
theorem test_predicates : [Instr.pand 3 1 2, .por 3 1 2, .pxor 3 1 2, .pnot 3 1].map
    (fun i => after (exec i (changed fun w => (w.writeP 1 0xC).writeP 2 0xA)) fun _ w => w.readP 3) =
    [some 8, some 0xE, some 6, some 0xFFFFFFF3] := by decide +kernel
theorem test_predicate_moves : [sreg (exec (.p2s 6 1) (changed fun w => w.writeP 1 0xF0)) 6,
    after (exec (.s2p 1 2) (regs 0xA5 0 0 0)) fun _ w => w.readP 1, sreg (exec (.pcount 6 1) (changed fun w => w.writeP 1 0xA6)) 6] =
    [some 0xF0, some 0xA5, some 4] := by decide +kernel
theorem test_p0_discards : after (exec (.s2p 0 2) (regs 0xA5 0 0 0)) (fun _ w => w.readP 0) = some 0xFFFFFFFF := by
  decide +kernel
theorem test_ptag : [after (exec (.ptag 2) (regs 0x1231 0 0 0)) fun _ w => w.ptag,
    after (exec (.ptag 2) (regs 0x12F 0 0 0)) fun _ w => w.tcause] = [some 0x231, some 0x0E] := by decide +kernel
theorem test_t_halves : after (exec (.twr 3 2 1) (regs 5 6 0 0)) (fun _ w => w.readT 3) = some (0x00000006000000050000000000000000) := by
  decide +kernel
theorem test_trd : sreg (exec (.trd 6 3 0) (changed fun w => w.writeT 3 0x11223344)) 6 = some 0x11223344 := by decide +kernel
theorem test_srsr_time : sreg (exec (.srsr 6 4) { base with time := 12000000, waves := [(4, wave0)] }) 6 = some 1000000 := by
  decide +kernel
theorem test_srsr_pair : [6, 7].map (fun n => sreg (exec (.srsr 6 5) (changed fun w => { w with iseq := 0x500000002 })) n) =
    [some 2, some 5] := by decide +kernel
theorem test_swsr_mode : after (exec (.swsr 0 2) (regs 3 0 0 0)) (fun _ w => w.mode) = some 3 := by decide +kernel
theorem test_swsr_seed : after (exec (.swsr 2 2) (regs 3 4 0 0)) (fun _ w => w.seed) = some 0x400000003 := by decide +kernel
theorem test_swsr_privileged : after (exec (.swsr 8 2) (regs 3 0 0 0)) (fun _ w => w.tcause) = some 2 := by decide +kernel

/-! ### Control flow and traps (spec/11, spec/23) -/

theorem test_br_back : after (exec (.br 0xFFFFD) base) (fun _ w => w.pc 0) = some 0xFFF4 := by decide +kernel
theorem test_brp_splits : after (exec (.brp 1 5) (changed fun w => w.writeP 1 1)) (fun _ w => (w.pc 0, w.pc 1)) =
    some (0x10014, 0x10004) := by decide +kernel
theorem test_brnp : after (exec (.brnp 1 5) (changed fun w => w.writeP 1 1)) (fun _ w => (w.pc 0, w.pc 1)) =
    some (0x10004, 0x10014) := by decide +kernel
theorem test_brz_brnz : [Instr.brz 2 5, .brnz 2 5].map (fun i => after (exec i (regs 0 0 0 0)) fun _ w => w.pc 9) =
    [some 0x10014, some 0x10004] := by decide +kernel
theorem test_call_links : after (exec (.call 13) base) (fun _ w => (w.pc 0, w.vlane 127 0)) = some (0x10034, 0x10004) := by
  decide +kernel
theorem test_ret : after (exec .ret (changed (vv 127 fun _ => 0x20000))) (fun _ w => w.pc 3) = some 0x20000 := by decide +kernel
theorem test_jmpi : after (exec (.jmpi 1) (regs 0x20000 1 0 0)) (fun _ w => w.pc 3) = some 0x100020000 := by decide +kernel
theorem test_jmpv_misaligned : after (exec (.jmpv 2) (changed (vv 2 fun l => if l = 7 then 2 else 0x20000)))
    (fun _ w => (w.tcause, w.taddr, w.priv)) = some (0x70C, 2, .s) := by decide +kernel
theorem test_jmpv : after (exec (.jmpv 2) (changed (vv 2 fun l => BitVec.ofNat 32 (4 * l)))) (fun _ w => w.pc 3) = some 12 := by
  decide +kernel
theorem test_exit : after (exec .exit base) (fun _ w => w.lane 5) = some .exited := by decide +kernel
theorem test_nop_yield : [Instr.nop, .yield].map (fun i => after (exec i base) fun _ w => w.pc 0) =
    [some 0x10004, some 0x10004] := by decide +kernel
theorem test_trap_advances : after (exec (.trap 0x21) base) (fun _ w => (w.tcause, w.taddr, w.tpc, w.tresume)) =
    some (0x18, 0x21, 0x10000, 0x10004) := by decide +kernel
theorem test_brk_stays : after (exec (.brk 3) base) (fun _ w => (w.tcause, w.tresume, w.pc 0)) =
    some (0x12, 0x10000, 0x10100) := by decide +kernel
theorem test_ereturn_privileged : after (exec .ereturn base) (fun _ w => (w.tcause, w.priv)) = some (2, .s) := by decide +kernel
theorem test_illegal : after (exec (.illegalEncoding 0x8F000000) base) (fun _ w => (w.tcause, w.tpc)) = some (1, 0x10000) := by
  decide +kernel
theorem test_prefix_joins : after (exec (.ximm 0x48D) base) (fun _ w => w.chain) = some (some ⟨0x10000, 0xFFFFFFFF, [0xF800048D]⟩) := by
  decide +kernel
theorem test_prefix_twice : after (exec (.ximm 0x48D) (setWave base 4 (after' [0xF8000001] wave0))) (fun _ w => w.tcause) = some 1 := by
  decide +kernel
theorem test_prefix_words : [Instr.xop 0x4C09, .hint 0x800000, .guard 1 9].map (fun i => after (exec i base) fun _ w =>
    w.chain.map Chain.words) = [some (some [0xF9130240]), some (some [0xFA800000]), some (some [0xFB000019])] := by decide +kernel

/-! ### Memory (spec/11, spec/15) -/

/-- `base` with data: PA 0x50040400 + i holds i + 1 for 64 bytes, mapped at VA 0x10400. A second page at VA 0x20000 is an
open amber segment of one page, object 9; VA 0x30000 is mapped to a page of the deep tier. -/
def memState (f : Wave → Wave) : State :=
  { base with
    mem := setBytes (setBytes (setBytes base.mem 0x50030010 (leBytes 8 (hbmLeaf 0x6000 true true false).toNat)) 0x50030018
      (leBytes 8 (pField (hbmLeaf 0x1000005 true false false) 8 2 1).toNat)) 0x50040400
      ((List.range 64).map fun i => BitVec.ofNat 8 (i + 1))
    segments := [(9, ⟨1, 0x50000000, [0x6000], 0x20000, 1, 0x100, 0x100, 0, 0, false, [], [], [], 1, 0, false⟩)]
    waves := [(4, f wave0)] }

/-- S8:S9 is 0x10400, S14:S15 is 0x20000, S16:S17 is 0x30000; V2 is 16 times the lane; P1 has lanes 0 and 1. -/
def aimed (w : Wave) : Wave :=
  (vv 2 (fun l => BitVec.ofNat 32 (16 * l)) (ss 16 [0x30000] (ss 14 [0x20000] (ss 8 [0x10400] w)))).writeP 1 3

/-- The bytes of memory from an address up, as a number. -/
def word (o : Host.Outcome State Fault Refusal) (pa n : Nat) : Option Nat :=
  after o fun t _ => leNat ((numsFrom pa n).map (viewByte t))

theorem test_loads : [Instr.ldN8 1 4 2 4, .ldI8 1 4 2 4, .ldN16 1 4 2 4, .ldI16 1 4 2 4, .ldB32 1 4 2 4].map
    (fun i => lane (exec i (memState aimed)) 4 1) = [some 0x11, some 0x11, some 0x1211, some 0x1211, some 0x14131211] := by
  decide +kernel
theorem test_load_sign : [Instr.ldI8 1 4 2 4, .ldI16 1 4 2 4].map (fun i => lane (exec i
    { memState aimed with mem := setBytes (memState aimed).mem 0x50040400 [0x80, 0xFF] }) 4 0) =
    [some 0xFFFFFF80, some 0xFFFFFF80] := by decide +kernel
theorem test_wide_loads : [Instr.ldB64 1 4 2 4, .ldB128 1 4 2 4].map (fun i =>
    (lane (exec i (memState aimed)) 5 1, lane (exec i (memState aimed)) 7 1)) =
    [(some 0x18171615, some 0), (some 0x18171615, some 0x201F1E1D)] := by decide +kernel
theorem test_stores : [Instr.stB8 1 0 2 4, .stB16 1 0 2 4, .stB32 1 0 2 4].map
    (fun i => word (exec i (memState aimed)) 0x50040410 4) = [some 0x14131201, some 0x14130001, some 1] := by decide +kernel
theorem test_wide_stores : [Instr.stB64 1 4 2 4, .stB128 1 4 2 4].map (fun i => word (exec i (memState fun w =>
    vv 7 (fun _ => 4) (vv 6 (fun _ => 3) (vv 5 (fun _ => 2) (vv 4 (fun _ => 1) (aimed w)))))) 0x50040400 16) =
    [some 0x100F0E0D0C0B0A090000000200000001, some 0x00000004000000030000000200000001] := by decide +kernel
/-- Lanes that name one word apply in ascending order (R185): each lane finds the sum so far. -/
theorem test_aadd_in_order : after (exec (.aaddI32 1 4 3 4) (memState fun w => vv 4 (fun _ => 1) (vv 3 (fun _ => 0) (aimed w))))
    (fun t w => (w.vlane 4 1, leNat ((numsFrom 0x50040400 4).map (viewByte t)))) = some (0x04030202, 0x04030203) := by
  decide +kernel
theorem test_atomics : [Instr.aminI32 1 4 2 4, .amaxI32 1 4 2 4, .aminN32 1 4 2 4, .amaxN32 1 4 2 4, .aand 1 4 2 4, .aor 1 4 2 4,
    .axor 1 4 2 4, .axchgB32 1 4 2 4].map (fun i => word (exec i (memState fun w => vv 4 (fun _ => 0xFFFFFF00) (aimed w))) 0x50040400 4) =
    [some 0xFFFFFF00, some 0x04030201, some 0x04030201, some 0xFFFFFF00, some 0x04030200, some 0xFFFFFF01, some 0xFBFCFD01,
      some 0xFFFFFF00] := by decide +kernel
theorem test_atomics_64 : [Instr.aaddI64 1 4 2 4, .axchgB64 1 4 2 4].map (fun i => word (exec i (memState fun w =>
    vv 5 (fun _ => 0) (vv 4 (fun _ => 1) (aimed w)))) 0x50040400 8) = [some 0x0807060504030202, some 1] := by decide +kernel
theorem test_atomic_floats : [Instr.aaddF32 1 4 2 4, .aminF32 1 4 2 4, .amaxF32 1 4 2 4].map (fun i => word (exec i
    { memState (fun w => vv 4 (fun _ => 0x3F800000) (aimed w)) with
      mem := setBytes (memState aimed).mem 0x50040400 (leBytes 4 0x40000000) }) 0x50040400 4) =
    [some 0x40400000, some 0x3F800000, some 0x40000000] := by decide +kernel
theorem test_cas : [Instr.acasB32 1 4 2 4].map (fun i => word (exec i (memState fun w =>
    vv 5 (fun _ => 9) (vv 4 (fun _ => 0x04030201) (aimed w)))) 0x50040400 8) = [some 0x0807060500000009] := by decide +kernel
theorem test_cas_64 : word (exec (.acasB64 1 4 2 4) (memState fun w => vv 7 (fun _ => 0) (vv 6 (fun _ => 9)
    (vv 5 (fun _ => 0x08070605) (vv 4 (fun _ => 0x04030201) (aimed w)))))) 0x50040400 8 = some 9 := by decide +kernel
theorem test_scalar_loads : [Instr.sldB32 20 4 4, .sldB64 20 4 8, .slduB32 20 4 0].map (fun i =>
    (sreg (exec i (memState aimed)) 20, sreg (exec i (memState aimed)) 21)) =
    [(some 0x08070605, some 0), (some 0x0C0B0A09, some 0x100F0E0D), (some 0x04030201, some 0)] := by decide +kernel
theorem test_scalar_stores : [Instr.sstB32 20 4 0, .sstB64 20 4 0].map (fun i => word (exec i (memState fun w =>
    ss 20 [1, 2] (aimed w))) 0x50040400 8) = [some 0x0807060500000001, some 0x0000000200000001] := by decide +kernel
theorem test_scalar_atomics : [Instr.saaddB64 20 4 0, .scasB64 20 4 0].map (fun i => (word (exec i (memState fun w =>
    ss 20 [0x04030201, 0x08070605, 7, 0] (aimed w))) 0x50040400 8, sreg (exec i (memState fun w =>
    ss 20 [0x04030201, 0x08070605, 7, 0] (aimed w))) 21)) =
    [(some 0x100E0C0A08060402, some 0x08070605), (some 7, some 0x08070605)] := by decide +kernel
theorem test_sprefetch : after (exec (.sprefetch 4 0) (memState aimed)) (fun _ w => w.pc 0) = some 0x10004 := by decide +kernel
/-- Contributions to one element add up, and a read sees the merged value (R292, R302). -/
theorem test_vpool : [Instr.vpoolB32 1 4 3 4, .vpoolB64 1 4 3 4].map (fun i => (word (exec i (memState fun w =>
    { vv 5 (fun _ => 0) (vv 4 (fun _ => 2) (vv 3 (fun _ => 0) (aimed w))) with
      ptag := if i = .vpoolB32 1 4 3 4 then 1 else 2 })) 0x50040408 4)) = [some 0x0C0B0A09, some 0x0C0B0A09] := by decide +kernel
theorem test_vpool_sum : word (exec (.vpoolB32 1 4 3 4) (memState fun w =>
    { vv 4 (fun _ => 2) (vv 3 (fun _ => 0) (aimed w)) with ptag := 1 })) 0x50040400 4 = some 0x04030205 := by decide +kernel
/-- Table 12.6: the reserve tail is 0x100, and two lanes of 4 bytes reserve 8. -/
theorem test_append : after (exec (.aappB32 1 9 4 7) (memState aimed)) (fun t w =>
    ((fget t.segments 9).map Segment.reserve, w.vlane 4 0, w.vlane 4 1)) = some (some 0x108, 0x100, 0x104) := by decide +kernel
theorem test_append_wide : after (exec (.aappB128 1 16 4 7) (memState aimed)) (fun t _ =>
    (fget t.segments 9).map Segment.reserve) = some (some 0x120) := by decide +kernel
/-- Table 12.6. -/
theorem test_append_lengths : after (exec (.aappl 1 16 4 7) (memState fun w =>
    (vv 4 (fun l => [12, 0, 64, 4].getD l 0) (aimed w)).writeP 1 0xF)) (fun t w =>
    ((fget t.segments 9).map Segment.reserve, [0, 1, 2, 3].map fun l => w.vlane 4 l)) =
    some (some 0x150, [0x100, 0x10C, 0x10C, 0x14C]) := by decide +kernel
/-- Table 12.3: a load of a page in the deep tier enters the log and the wave goes on. -/
theorem test_fault_enters_the_log : after (exec (.ldB32 1 6 2 8) (memState aimed)) (fun _ w =>
    (w.log.length, w.log.map LogEntry.cause, w.pc 0)) = some (1, [0], 0x10004) := by decide +kernel
theorem test_misaligned_load : after (exec (.ldB32 1 6 0 4) (memState aimed)) (fun _ w => (w.tcause, w.taddr)) =
    some (0x010C, 0x10401) := by decide +kernel
/-- R84, R86: with E2M1, 1.25 between its neighbours 1 and 1.5 (a tie), 1.375, 0.25 below the least normal number, 1.5, and
twice the greatest, 6. -/
theorem witness_rounding :
    let val := fun c => (decodeFloat e2m1 c).rat
    let x := fun (m : Nat) (e : Int) => (XVal.fin false m e false).rat
    (∀ c, c < 16 → (decodeFloat e2m1 c).isNan = false ∧ (decodeFloat e2m1 c).isInf = false) ∧
    (val 2 < x 5 (-2) ∧ x 5 (-2) < val 3 ∧ val 3 - x 5 (-2) = x 5 (-2) - val 2 ∧ ∀ c, c < 16 → val c ≤ val 2 ∨ val 3 ≤ val c) ∧
    (val 2 < x 11 (-3) ∧ x 11 (-3) < val 3 ∧ val 3 - x 11 (-3) < x 11 (-3) - val 2) ∧
    (val 0 < x 1 (-3) ∧ x 1 (-3) < val 1 ∧ |x 1 (-3)| < (2 : ℚ) ^ e2m1.emin) ∧ val 3 = x 3 (-1) ∧ 2 * val e2m1.maxMag ≤ |x 12 0| := by
  decide +kernel

/-- R169: a store replaces no byte beside its own. -/
theorem test_store_frame : word (exec (.stB8 1 0 2 4) (memState aimed)) 0x50040401 1 = some 2 := by decide +kernel

/-! ### States that meet the hypotheses of the statements about vector, scalar and flow words -/

theorem witness_vector_integer : ([vrInfo 0 0 5 1 2 1 1 1 0 0 false [], vrInfo 0 0 5 1 2 1 1 1 1 xThird false [],
    vrInfo 1 7 127 127 127 1 1 1 0 0 false [], vrInfo 2 0 5 1 2 1 1 1 0 0 false [], vrInfo 3 0 5 1 0 1 1 0 0 0 false [],
    vrInfo 3 0 5 1 2 1 1 1 1 xThird false [], vrInfo 3 1 5 1 2 1 1 1 0 0 false [], vrInfo 11 0 5 1 2 1 1 1 0 0 false [],
    vrInfo 11 0 5 1 0 1 1 0 0 0 false [], vrInfo 12 0 5 1 2 1 1 1 1 (xThird + xSat) false [],
    { vrInfo 8 0 15 1 2 0 1 1 0 0 false [] with bad := decide (15 < 15) },
    { vrInfo 10 0 5 1 0 1 1 0 0 0 false [] with ximm := true, bad := (prefixOf [] 0).any (· != 0) }].all (ready wave0 [])) = true := by
  decide +kernel

/-- The same after prefix words: a composite immediate, a third source, SAT, and a guard. -/
theorem witness_vector_prefixed : [([0xF8000001], { vrInfo 10 0 5 1 0 1 1 0 0 0 false [0xF8000001] with ximm := true }),
    ([0xF9130000], vrInfo 0 0 5 1 2 1 1 1 1 xThird false [0xF9130000]),
    ([0xF9000400], vrInfo 12 0 5 1 2 1 1 1 1 (xThird + xSat) false [0xF9000400]),
    ([0xFB000019], vrInfo 1 0 5 1 2 1 1 1 0 0 false [0xFB000019])].all (fun p => ready wave0 p.1 p.2) = true := by decide +kernel

theorem witness_vector_float : [vrInfo 4 0 5 1 2 1 1 1 0 (namesA + namesB + namesR) true [],
    vrInfo 4 0 5 1 2 1 1 1 1 (namesA + namesB + namesC + namesR) true [], vrInfo 4 0 5 1 2 1 1 1 0 (namesA + namesB) false [],
    vrInfo 4 0 5 1 2 1 1 1 0 (namesA + namesR) true [], vrInfo 7 0 5 1 0 1 1 0 0 (namesA + namesR) true [],
    vrInfo 7 0 5 1 2 1 1 1 0 (namesA + namesB + namesR) true [], vrInfo 5 0 5 1 2 1 1 1 0 (namesA + namesB + namesR) true [],
    vrInfo 5 0 5 1 2 1 1 1 1 (namesA + namesB + namesR + namesC) true [], vrInfo 5 0 5 1 2 1 1 1 0 (namesA + namesB) false [],
    vrInfo 6 0 6 2 4 2 2 2 0 (namesA + namesR + namesB) true [], vrInfo 6 0 6 2 4 2 2 2 2 (namesA + namesR + namesB + namesC) true [],
    vrInfo 6 0 6 2 4 2 2 2 0 (namesA + namesB) false [], vrInfo 6 0 6 2 0 2 2 0 0 (namesA + namesR) true [],
    vrInfo 29 0 5 1 0 1 1 0 0 (namesA + namesR) true [], vrInfo 29 0 5 1 0 1 1 0 0 namesA false [],
    vrInfo 29 0 5 1 2 1 1 1 1 (namesA + namesB + namesC) false [],
    { vrInfo 8 0 1 1 2 0 1 1 0 (namesA + namesB) false [] with bad := decide (15 < 1) },
    vrInfo 11 0 5 1 0 1 1 0 0 namesA false [], vrInfo 11 0 5 1 0 1 1 0 0 (namesA + namesR) true [],
    vrInfo 12 0 5 1 2 1 1 1 1 (namesC + namesR) true []].all (ready wave0 []) = true := by decide +kernel

/-- For each conversion a format and a slot that pass: 8-bit and 4-bit elements, integers, and the block scale. -/
theorem witness_conversions : [cvtInfo 0 5 1 1 1 (namesR + namesA) true (slotOk false 5 3) (decide (2 ≤ 5 ∧ 5 ≤ 9)) [],
    cvtInfo 0 5 2 1 2 (namesR + namesA) true (slotOk false 9 0) (decide (2 ≤ 9 ∧ 9 ≤ 9)) [],
    cvtInfo 0 5 1 1 1 namesA false (slotOk false 5 3) (decide (2 ≤ 5 ∧ 5 ≤ 9)) [],
    cvtInfo 0 6 1 2 1 0 false (slotOk false 9 0) (decide (2 ≤ 9 ∧ 9 ≤ 9)) [],
    cvtInfo 0 5 1 1 1 namesR true (slotOk true 1 0) (intRange 1 0).isSome [],
    cvtInfo 0 5 1 1 1 namesA true (slotOk true 1 0) (intRange 1 0).isSome [],
    cvtInfo 0 5 2 1 2 (namesR + namesA) true (slotOk false 1 0) (decide (1 ≤ 1 ∧ 1 ≤ 4)) [],
    cvtInfo 0 6 1 2 1 namesA false (slotOk false 1 0) (decide (1 ≤ 1 ∧ 1 ≤ 8)) [],
    cvtInfo 0 5 1 1 1 (namesR + namesA) true ((0 : BitVec 2) == 0) (decide (2 ≤ 3 ∧ 3 ≤ 9)) [],
    cvtInfo 0 5 1 1 1 namesA false (slotOk false 15 0) (decide (15 ≤ 15 ∧ 15 ≤ 20)) []].all (ready wave0 []) = true := by
  decide +kernel

theorem witness_scalar : [scalarInfo 127 127 127 1 1 1, scalarInfo 6 2 4 2 2 2, scalarInfo 6 2 4 2 2 1,
    { scalarInfo 6 2 4 1 1 1 with rounds := true }, { srInfo 13 [.s 2 1] [.s 6 1] [.s 2 1] [] false with rounds := true },
    { srInfo 14 [.s 2 1] [.s 6 1] [.s 2 1] [] false with ximm := true },
    { srInfo 14 [.s 2 1] [.s 6 1] [.s 2 1] [] false with ximm := true, bad := decide (31 < (31 : Word).toNat) },
    { srInfo 14 [] [.s 6 1] [] [] false with ximm := true }, srInfo 15 [.s 2 1] [.v 5 1] [.s 2 1] [] false,
    srInfo 15 [.v 0 1, .s 2 1] [.s 6 1] [.v 0 1] [.s 2 1] false, srInfo 15 [.s 2 1, .s 4 1] [.v 0 1] [.s 2 1] [.s 4 1] false,
    srInfo 15 [.s 2 1] [.s 6 2] [] [.s 2 1] false, srInfo 15 [] [.s 6 1] [] [] (decide (15 < 15)),
    srInfo 15 [.s 2 1] [] [.s 2 1] [] (decide (15 < 15)), srInfo 15 [] [] [] [] false,
    srInfo 15 [.s 2 2] [] [.s 2 2] [] (decide (31 < 31) || decide (wave0.tn ≤ 31) || decide (1 < 1)),
    srInfo 15 [] [.s 6 2] [] [] (decide (31 < 31) || decide (wave0.tn ≤ 31) || decide (1 < 1))].all (ready wave0 []) = true := by
  decide +kernel

/-- Every special register that srsr names in Table 5.6 is read where its mode is met, and every writable one is written. -/
theorem witness_special_registers :
    ([0, 1, 2, 3, 4, 5, 6, 7, 24, 31].all fun n =>
      ready wave0 [] { srInfo 15 [] [.s 6 (max 1 (srWidth n))] [] [] (srWidth n == 0) with priv := srReadPriv n }) = true ∧
    ([8, 9, 10, 11, 12, 16, 17, 18, 19].all fun n =>
      ready { wave0 with priv := .s } [] { srInfo 15 [] [.s 6 (max 1 (srWidth n))] [] [] (srWidth n == 0) with priv := srReadPriv n }) = true ∧
    ([0, 1, 2, 5, 7, 8, 9, 10, 11, 16, 17, 18, 19, 24, 31].all fun k =>
      let r : RegRun := .s 2 (max 1 (srWidth k))
      let w := { wave0 with priv := .s }
      ready w [] { srInfo 15 [r] [] [r] [] (!srWritable k || srReservedBits k (swsrValue w k 2)) with priv := srWritePriv k }) = true := by
  decide +kernel

theorem witness_flow : [{ cls := 16, ximm := true }, { cls := 16, rs := [.s 12 1], ximm := true },
    { cls := 16, ws := [.v 127 1], ximm := true }, { cls := 16, rs := [.s 30 2] }, { cls := 16, rs := [.v 10 2], bad := 10 % 2 == 1 },
    { cls := 17, rs := [.v 127 1] }, { cls := 17 }].all (ready wave0 []) = true := by decide +kernel

/-- A jump with an aligned target, and one whose lane 7 is the lowest misaligned one. -/
theorem witness_jump_targets : ((lanesOf 0xFFFFFFFF).find? fun l => ((fun _ => 0x20000 : Nat → DWord) l).extractLsb' 0 2 != 0) = none ∧
    ((lanesOf 0xFFFFFFFF).find? fun l => (BitVec.ofNat 64 (if 7 ≤ l then 2 else 0)).extractLsb' 0 2 != 0) = some 7 := by
  decide +kernel

theorem witness_exit : wave0.log = [] ∧ wave0.priv = .u := by decide +kernel

theorem witness_trap_and_brk : Stands base 4 wave0 0x10000 0xFFFFFFFF [] ∧ Passes wave0 { cls := 17 } [] ∧ wave0.priv = .u ∧
    wave0.log = [] ∧ effTrapvec base (waveRegion base wave0) ≠ 0 :=
  ⟨stands_of (by decide +kernel), passes_of (by decide +kernel), by decide +kernel, by decide +kernel, by decide +kernel⟩

/-- After two prefix words a third of another kind may join; a fourth, and one of a kind that is there, may not. -/
theorem witness_prefixes : (ready wave0 [0xF8000001, 0xF9000400] { cls := 31, ximm := true, xop := some 0xFFFFFF, guard := true
                                                                   bad := (prefixOf [0xF8000001, 0xF9000400] 2).isSome || decide (3 ≤ 2) }) = true ∧
    passes (after' [0xF8000001] wave0) { cls := 31, ximm := true, xop := some 0xFFFFFF, guard := true
                                         bad := (prefixOf [0xF8000001] 0).isSome || decide (3 ≤ 1) } [0xF8000001] = false := by
  decide +kernel

/-- One wave for each of the first checks: a register that is not held, a privileged word, the role, a dead register and
the rounding mode. -/
theorem witness_issue_checks :
    (let w := { wave0 with vn := 4 }
     stands (setWave base 4 w) w [] && !w.holdsV 5 && (issueCheck w (vrInfo 0 0 5 1 2 1 1 1 0 0 false []) [] 0 == some (1, 0))) = true ∧
    (let w := { wave0 with role := 1 }
     stands (setWave base 4 w) w [] && w.holdsV 5) = true ∧
    (let w := { wave0 with mode := 0x10, deadV := 2 }
     stands (setWave base 4 w) w [] && w.mode.getLsbD 4 && w.deadV.getLsbD 1) = true ∧
    (let w := { wave0 with mode := 6 }
     stands (setWave base 4 w) w [] && !w.mode.getLsbD 4 && decide (5 < w.sampledRm none) && w.log.isEmpty && w.dues.isEmpty) = true ∧
    stands base wave0 [] = true ∧ wave0.priv = .u := by decide +kernel

/-! ### States that meet the hypotheses of the statements about memory -/

/-- What a vector memory word sees in `memState`, with lanes 0 and 1 active. -/
def mvSees (cls : Nat) (op : MemOp) (vt vo : BitVec 7) (sp : BitVec 5) (f : Wave → Wave) : Env :=
  sees 4 (f (aimed wave0)) 0x10000 0xFFFFFFFF [] (mvInfo cls op 1 vt vo sp (f (aimed wave0)) [])

/-- The places the lanes reach, where all of them are reached. -/
def placesOf (s : State) (v : Env) (e : LogEntry) (op : MemOp) : List (Nat × Place) :=
  match reachAll s v.w (rootOf s v.w) e op with
  | .ok ps => ps
  | _ => []

/-- What `Stands`, `Passes` and `reaches` ask of a vector memory word, as a test. -/
def mvReady (cls code : Nat) (op : MemOp) (vt vo : BitVec 7) (sp : BitVec 5) (f : Wave → Wave) : Bool :=
  let s := memState fun w => f (aimed w)
  let w := f (aimed wave0)
  let v := mvSees cls op vt vo sp f
  let e := v.mvEntry cls code op 1 vt vo sp
  stands s w [] && passes w (mvInfo cls op 1 vt vo sp w []) [] && v.e != 0 && v.w.log.isEmpty &&
    decide (storeCount s v.wid v.w < 31) && memCheck s v.w e op vt.toNat == none &&
    reachAll s v.w (rootOf s v.w) e op == .ok (placesOf s v e op)

/-- Every line of the places is plain: neither pooled nor held by the host, nor host memory. -/
def allPlain (s : State) (ps : List (Nat × Place)) : Bool :=
  ps.all fun p => p.2.locs.all fun l => match l with
    | .phys pa => (fget s.pool (pa / 128)).isNone && (fget s.hostLines (pa / 128)).isNone && !isHostPA pa
    | .spad _ _ => true

/-- For each row of the MV words a wave whose two lanes are reached: loads, stores and atomics at S8, contributions with an
operator of their width, and appends to the segment at S14. -/
theorem witness_vector_memory : (vectorMemory.all fun r =>
    let tag : Word := if r.2.1 = 21 ∧ r.2.2.1 = 1 then 2 else 1
    mvReady r.2.1 r.2.2.1 r.2.2.2 4 (if r.2.1 = 23 then 8 else 2) (if r.2.1 = 23 then 7 else 4) fun w => { w with ptag := tag }) = true := by
  decide +kernel

/-- The places of the loads and stores lie in plain lines, and in no table entry they came through. -/
theorem witness_plain_places : ([(18, 0, MemOp.load 1 false), (18, 6, .load 16 false), (19, 2, .store 4), (19, 4, .store 16),
      (20, 0, .atom (.add 4)), (20, 2, .atom .fadd), (20, 15, .atom (.cas 8))].all fun r =>
    let s := memState aimed
    let v := mvSees r.1 r.2.2 4 2 4 id
    let ps := placesOf s v (v.mvEntry r.1 r.2.1 r.2.2 1 4 2 4) r.2.2
    allPlain s ps && ps.length == 2 && (ps.all fun p => decide p.2.locs.Nodup) && ps.all fun p => p.2.locs.all fun l => match l with
      | .phys a => ps.all fun q => q.2.marks.all fun m => decide (a < m.1 ∨ m.1 + 8 ≤ a)
      | .spad _ _ => true) = true := by decide +kernel

/-- A wave whose operand log holds an aadd.f32, and one whose gang's engines have posted flags in this cycle. -/
theorem witness_owed_flags : (let v := mvSees 20 (.atom .fadd) 4 2 4 id
    let e := v.mvEntry 20 2 (.atom .fadd) 1 4 2 4
    let w := { wave0 with log := [e] }
    e.word.extractLsb' 27 5 == 20 && e.word.extractLsb' 0 5 == 2 &&
      ready w [] { srInfo 15 [] [.s 6 1] [] [] (srWidth 1 == 0) with priv := srReadPriv 1 } &&
      ready w [] { srInfo 15 [.s 2 1] [] [.s 2 1] [] (!srWritable 1 || srReservedBits 1 (swsrValue w 1 2)) with priv := srWritePriv 1 } &&
      ready wave0 [] { srInfo 15 [.s 2 1] [] [.s 2 1] [] (!srWritable 7 || srReservedBits 7 (swsrValue wave0 7 2)) with priv := srWritePriv 7 }) =
    true := by decide +kernel

/-- A wave in S mode, one of a region with no trap vector, and one whose log holds an entry. -/
theorem witness_unrecoverable_traps : (let e := (mvSees 18 (.load 4 false) 6 2 8 id).mvEntry 18 4 (.load 4 false) 1 6 2 8
    ready { wave0 with priv := .s } [] { cls := 17 } && ready { wave0 with log := [e] } [] { cls := 17 } &&
    (let s := modRegion base 1 fun g => { g with trapvec := 0 }
     stands s wave0 [] && passes wave0 { cls := 17 } [] && effTrapvec s (waveRegion s wave0) == 0 && within s 1 (faultDomain s 1)) &&
    (fget base.regions 1).isSome) = true := by decide +kernel

/-- `memState` with the page at VA 0x10000 marked written in this generation, and this line pooled. -/
def poolState (pool : FMap PoolLine) (f : Wave → Wave) : State :=
  let s := memState f
  { s with
    mem := setBytes s.mem 0x50030008 (leBytes 8 (pSet (pField (hbmLeaf 0x5004 true false true) 18 4 (regionGen s 1 % 16)) 16 true).toNat)
    pool := pool }

/-- Two lanes that contribute to a line that is not pooled and to one pooled under their tag, and one lane whose line is
pooled under another. -/
theorem witness_pools : ([([], 3), ([(0x50040400 / 128, ⟨1, 0, [(0, 5)]⟩)], 3), ([(0x50040400 / 128, ⟨3, 0, [(0, 5)]⟩)], 1)].all fun q =>
    let f := fun (w : Wave) => { (aimed w).writeP 1 q.2 with ptag := 1 }
    let s := poolState q.1 f
    let w := f wave0
    let v := sees 4 w 0x10000 0xFFFFFFFF [] (mvInfo 21 (.pool 4) 1 4 2 4 w [])
    let e := v.mvEntry 21 0 (.pool 4) 1 4 2 4
    let ps := placesOf s v e (.pool 4)
    let mine := fun (line : Nat) => ps.filter fun p => (p.2.phys).getD 0 / 128 == line
    stands s w [] && passes w (mvInfo 21 (.pool 4) 1 4 2 4 w []) [] && v.e != 0 && memCheck s w e (.pool 4) 4 == none &&
      reachAll s w (rootOf s w) e (.pool 4) == .ok ps && ps.length == (if q.2 = 1 then 1 else 2) &&
      ps.all fun p => p.2.marks.all fun m => pDirty m.2.1 && pDgen m.2.1 == regionGen s 1 % 16 &&
        (walkReads s m.2.2 4 0 (rootOf s w).toNat).all fun a => (fget s.pool (a / 128)).isNone && (mine (a / 128)).isEmpty) = true := by
  decide +kernel

/-- An append's segment, for each kind. -/
theorem witness_append_targets : ([(0, MemOp.append 4, 8), (1, .append 16, 32), (2, .appendLen, 32)].all fun r =>
    let v := mvSees 23 r.2.1 8 4 7 fun w => vv 4 (fun _ => 16) w
    let e := v.mvEntry 23 r.1 r.2.1 1 8 4 7
    match appendTarget (memState aimed) 0x50000000 (e.base + e.disp).toNat r.2.2 (lowLane v.e) with
    | .ok (k, seg) => k == 9 && seg.reserve == 0x100
    | _ => false) = true := by decide +kernel

/-- A load with an active lane, and one with none. -/
theorem witness_no_active_lane : (mvSees 18 (.load 4 false) 4 2 4 fun w => w.writeP 1 0).e = 0 ∧
    (ready ((aimed wave0).writeP 1 0) [] (mvInfo 18 (.load 4 false) 1 4 2 4 ((aimed wave0).writeP 1 0) [])) = true := by decide +kernel

/-- One failing check of each order of Table 11.4: the tag, the alignment, the aperture and the pool's range. -/
theorem witness_memory_checks : (let s := memState aimed
    let fails := fun (cls code : Nat) (op : MemOp) (vt vo : BitVec 7) (sp : BitVec 5) (f : Wave → Wave) =>
      let v := mvSees cls op vt vo sp f
      memCheck s v.w (v.mvEntry cls code op 1 vt vo sp) op vt.toNat
    fails 21 0 (.pool 4) 4 2 4 id = some (cBADTAG, 0) ∧ fails 18 4 (.load 4 false) 4 0 4 id = some (cALIGN, 1) ∧
    fails 21 0 (.pool 4) 4 2 4 (fun w => { ss 8 [0, 0xFFFF8000] w with ptag := 1 }) = some (cAPERTURE, 0) ∧
    fails 23 2 .appendLen 4 2 7 (fun w => vv 2 (fun l => if l = 0 then 65 else 4) w) = some (cALIGN, 0) ∧
    fails 23 2 .appendLen 120 2 7 (fun w => vv 2 (fun l => if l = 1 then 64 else 4) w) = some (cILLEGAL, 1) ∧
    fails 21 0 (.pool 4) 4 2 4 (fun w => { vv 4 (fun _ => 0x7F000000) w with ptag := 0xD }) = some (cPOOLOVF, 0) ∧
    fails 18 4 (.load 4 false) 4 3 4 (fun w => vv 3 (fun l => if l = 1 then 0x4000 else 0x3FFC) (ss 8 [0, 0xFFFF9000] w)) = some (cAPERTURE, 1) ∧
    fails 18 4 (.load 4 false) 4 2 4 id = none ∧
    passes (aimed wave0) (mvInfo 18 (.load 4 false) 1 4 0 4 (aimed wave0) []) [] = true) := by decide +kernel

/-- A scalar load that is misaligned. -/
theorem witness_scalar_check : (let w := aimed wave0
    let v := sees 4 w 0x10000 0xFFFFFFFF [] (msInfo (.sload 4) 20 4 w [])
    ready w [] (msInfo (.sload 4) 20 4 w []) = true ∧
    memCheck (memState aimed) w (v.msEntry 0 (.sload 4) 20 4 2) (.sload 4) 20 = some (cALIGN, 0) ∧
    memCheck (memState aimed) (ss 8 [0, 0xFFFF9000] w) ((sees 4 (ss 8 [0, 0xFFFF9000] w) 0x10000 0xFFFFFFFF []
      (msInfo (.sload 4) 20 4 w [])).msEntry 0 (.sload 4) 20 4 0) (.sload 4) 20 = some (cAPERTURE, 0)) := by decide +kernel

/-- A load of a page in the deep tier can be resolved; a load of a VA with no mapping cannot; and a wave whose log holds
an entry. -/
theorem witness_log_entries : (let s := memState aimed
    let v := mvSees 18 (.load 4 false) 6 2 8 id
    let u := mvSees 18 (.load 4 false) 6 2 10 id
    reachAll s v.w (rootOf s v.w) (v.mvEntry 18 4 (.load 4 false) 1 6 2 8) (.load 4 false) = .resolvable 0 0x30000 ∧
    reachAll s u.w (rootOf s u.w) (u.mvEntry 18 4 (.load 4 false) 1 6 2 10) (.load 4 false) = .fail cPAGE 0 0 ∧
    passes { aimed wave0 with log := [v.mvEntry 18 4 (.load 4 false) 1 6 2 8] }
      (mvInfo 19 (.store 4) 1 9 3 4 (aimed wave0) []) [] = true) := by decide +kernel

/-- Every scalar memory word reaches its place, whose bytes are as many as it accesses, all different and plain. -/
theorem witness_scalar_memory : (scalarMemory.all fun r =>
    let s := memState aimed
    let w := aimed wave0
    let v := sees 4 w 0x10000 0xFFFFFFFF [] (msInfo r.2.2 20 4 w [])
    let e := v.msEntry r.2.1 r.2.2 20 4 8
    let ps := placesOf s v e r.2.2
    ready w [] (msInfo r.2.2 20 4 w []) && memCheck s w e r.2.2 20 == none &&
      reachAll s w (rootOf s w) e r.2.2 == .ok ps && allPlain s ps && decide (storeCount s 4 w < 31) &&
      ps.all fun p => p.1 == 0 && p.2.locs.length == r.2.2.bytes && decide p.2.locs.Nodup && p.2.locs.all fun l => match l with
        | .phys a => p.2.marks.all fun m => decide (a < m.1 ∨ m.1 + 8 ≤ a)
        | .spad _ _ => true) = true := by decide +kernel

/-- The scalar atomics with the data registers that scas.b64 needs, at register 124 at most. -/
theorem witness_scalar_atomic_registers : ready (aimed wave0) [] (msInfo (.satom (.cas 8)) 124 4 (aimed wave0) []) = true ∧
    ready (aimed wave0) [] (msInfo (.satom (.add 8)) 126 4 (aimed wave0) []) = true := by decide +kernel

/-! ### Engines, barriers and waits (spec/13) -/

/-- What the wave's gang holds after an instruction. -/
def gangOf {α : Type} (o : Host.Outcome State Fault Refusal) (f : Gang → α) : Option α :=
  (after o fun t w => (fget t.gangs w.gang).map f).bind id

/-- `base` with three granules of accumulators, so six tiles, and this change of the wave. -/
def engState (f : Wave → Wave) : State := modGang (changed f) 3 fun g => { g with accg := 3 }

/-- Every lane of V2 holds the format word BF16 × BF16, ACC.F32, FP32 (Table 14.1); S4 is a shape and S8 a count. -/
def formatted (w : Wave) : Wave := vv 2 (fun _ => 0x463) (ss 8 [1] (ss 4 [0x3F0040] w))

theorem test_copies_join : [Instr.ccopy 1 2 3 4 0, .cblock 1 2 3 4 0, .cfill 1 2 3 4 0, .cgather 1 2 3 4 0, .cprefetch 1 3 4 0,
    .cpromote 1 3 4 0].map (fun i => gangOf (exec i (engState formatted)) fun g => (g.ctxs[1]?).map fun c =>
    (c.subm, c.ops.map EngOp.fn, c.ops.map EngOp.shape)) =
    [0, 1, 2, 3, 4, 5].map fun n => some (some (1, [n], [0x3F0040])) := by decide +kernel
/-- R204: T3 with ADV and a KINC of 64 moves on by 64. -/
theorem test_copy_advances : after (exec (.ccopy 1 2 3 4 0) (engState fun w => (formatted w).writeT 3
    (BitVec.ofNat 128 (0x1000 + 2 ^ 64 * 256 + 2 ^ 96 * 64 + 2 ^ 120)))) (fun _ w => (w.readT 3).toNat % 2 ^ 64) = some 0x1040 := by
  decide +kernel
theorem test_matrix_joins : [Instr.mloop 4 0 1 8 2, .mloopG 4 0 1 8 2, .mdrain 4 0 0 2, .mzero 4, .mload 4 0].map (fun i =>
    gangOf (exec i (engState formatted)) fun g => (g.ctxs[5]?).map fun c => (c.subm, c.ops.map EngOp.fn)) =
    [0, 1, 3, 5, 6].map fun n => some (some (1, [n])) := by decide +kernel
theorem test_mprog_joins : gangOf (exec (.mprog 4 4) (engState fun w => ss 4 [0x20] w)) (fun g => (g.ctxs[5]?).map fun c =>
    (c.subm, c.ops.map EngOp.bar)) = some (some (1, [some 0x20])) := by decide +kernel
theorem test_mdrain_mx_joins : gangOf (exec (.mdrainMx 4 0 1 4 2) (engState fun w => vv 2 (fun _ => 0x23C63) w))
    (fun g => (g.ctxs[5]?).map fun c => (c.subm, c.ops.map EngOp.sat)) = some (some (1, [1])) := by decide +kernel
/-- Elements of CBF16 (Table 5.12). -/
theorem test_mloop_cx_joins : gangOf (exec (.mloopCx 4 0 1 4 2) (engState fun w => vv 2 (fun _ => 21 + 32 * 21 + 1024 * 1) (ss 4 [1] w)))
    (fun g => (g.ctxs[5]?).map fun c => c.subm) = gangOf (exec (.mzero 4) (engState formatted)) (fun g => (g.ctxs[5]?).map fun c => c.subm) := by
  decide +kernel
/-- Table 6.6: lane 7 alone differs. -/
theorem test_format_vote : after (exec (.mdrain 4 0 4 2) (engState fun w => vv 2 (fun l => if l = 7 then 0x3C63 else 0x23C63) w))
    (fun _ w => (w.tcause.toNat % 256, w.taddr)) = some (cFMTDIV, 0x80) := by decide +kernel

/-- S7 is barrier offset 0x20, whose phase is 4, with one of two arrivals and no bytes expected; S8:S9 is 2 and 0. -/
def barState : State := writeBarrier (changed (ss 7 [0x20, 2, 0])) (3, 0x20) ⟨4, 0, 0, 2, 1⟩

theorem test_bararrive_completes : after (exec (.bararrive 5 7 0) barState) (fun t w => (w.readS 5, readBarrier t (3, 0x20))) =
    some (4, ⟨5, 0, 0, 2, 0⟩) := by decide +kernel
theorem test_barexpect : after (exec (.barexpect 5 7 8) barState) (fun t w => (w.readS 5, readBarrier t (3, 0x20))) =
    some (4, ⟨4, 0, 2, 2, 1⟩) := by decide +kernel
theorem test_barinit : after (exec (.barinit 7 8) barState) (fun t _ => readBarrier t (3, 0x20)) = some ⟨0, 0, 0, 2, 0⟩ := by
  decide +kernel
theorem test_barquery : after (exec (.barquery 12 7) barState) (fun _ w => (w.readS 12, w.readS 13)) = some (4, 0x20001) := by
  decide +kernel
theorem test_barquery_traps : [(0x2000000 : Word), 0x24, 0x8000].map (fun b => after (exec (.barquery 12 7) (changed (ss 7 [b])))
    fun _ w => (w.tcause.toNat, w.taddr)) = [some (0x400D, 0x2000000), some (0x400C, 0x24), some (0x400D, 0x8000)] := by decide +kernel
theorem test_tlread : (sreg (exec (.tlread 12 4) (modGang (changed (ss 4 [9])) 3 fun g =>
    { g with ctxs := g.ctxs.modify 1 fun c => { c with tl := 5, subm := 7 } })) 12) = some 7 := by decide +kernel
theorem test_settle_holds : after (exec (.settle 0 31 31 0) (modGang base 3 fun g => { g with ctxs := g.ctxs.modify 5 fun c =>
    { c with subm := 1, ops := [blankOp (sees 4 wave0 0 0 [] { cls := 25 }) 25 5] } })) (fun _ w => w.pc 0) = some 0x10000 := by
  decide +kernel
theorem test_settle_passes : after (exec (.settle 0 0 0 0) base) (fun _ w => w.pc 0) = some 0x10004 := by decide +kernel
theorem test_clock : after (exec (.clock 12) base) (fun _ w => w.pc 0) = some 0x10004 := by decide +kernel
theorem test_flush_is_due : after (exec (.flush 5 8 10) base) (fun t w => (t.flushes.length, w.dues.map StatusDue.sd)) =
    some (1, [5]) := by decide +kernel
theorem test_inval_is_accepted : after (exec (.inval 0 8 10) base) (fun t w => (t.flushes.map fun p => p.2.discard, w.dues)) =
    some ([true], []) := by decide +kernel
theorem test_fence : after (exec .fenceSys base) (fun _ w => w.pc 0) = some 0x10004 := by decide +kernel

/-- S24 up is a member: a barrier in phase 4 and a phase operand. -/
def barMember (n : Word) (w : Wave) : Wave := ss 24 [3, 0, 0x20, 0, n, 0] w

theorem test_wait_returns : after (exec (.waitInline 20 24 0) (setWave barState 4 (barMember 3 wave0))) (fun _ w =>
    (w.readS 20, w.readS 21, w.lane 0)) = some (0, 0, .live) := by decide +kernel
theorem test_wait_parks : after (exec (.waitInline 20 24 0) (setWave barState 4 (barMember 4 wave0))) (fun _ w =>
    (w.lane 0, w.groups.length)) = some (.parked, 1) := by decide +kernel
theorem test_wait_stale : after (exec (.wait 20 16 0) base) (fun _ w => w.readS 20) = some 2 := by decide +kernel

/-! ### Objects (spec/13, spec/17, spec/19) -/

/-- `memState` with a wait set, a timer, a port of 16 blocks and the segment 9 under handles at table indexes 5 to 8, and in
its page a port descriptor at VA 0x10440 and a launch descriptor at 0x10500 of a range of two instances whose template, of one wave, is at 0x10540. -/
def objState (f : Wave → Wave) : State :=
  let s := memState f
  { s with
    mem := [(0x440, 16), (0x508, 2), (0x510, 1), (0x518, 0x40), (0x519, 5), (0x51A, 1), (0x540, 1), (0x549, 4), (0x54A, 1), (0x552, 1),
      (0x55A, 7), (0x590, 1)].foldl (fun m p => setByte m (0x50040000 + p.1) (BitVec.ofNat 8 p.2)) s.mem
    entries := s.entries ++ [(5, ⟨6, 20, 11, 1, 0, 0⟩), (6, ⟨7, 21, 11, 1, 0, 0⟩), (7, ⟨5, 22, 31, 1, 0, 0⟩), (8, ⟨8, 9, 27, 1, 0, 0⟩)]
    serial := 30
    waitsets := [(20, [(0, ⟨2, 0, 0, 0, 0⟩)])]
    timers := [(21, ⟨true, 7⟩)]
    ports := [(22, ⟨16, 0, [⟨1, 2, false, [3, 4, 5, 6], 0, 0⟩], 1, 0, 0, 0, 0, 0, [], 0, 0, 0, false⟩)] }

/-- A handle of an entry of `objState`, at home on die 0 and of generation 0. -/
def handle (i type rights : Nat) : List Word := [BitVec.ofNat 32 i, BitVec.ofNat 32 (type * 2 ^ 8 + rights * 2 ^ 16)]

/-- S8 to S19 hold the handles of the wait set, the timer, the port, the segment, the wave and the region; S20:S21,
S22:S23 and S24:S25 the addresses of the descriptors. -/
def handles (w : Wave) : Wave :=
  ss 8 (handle 5 6 11 ++ handle 6 7 11 ++ handle 7 5 31 ++ handle 8 8 27 ++ handle 4 2 25 ++ handle 1 1 25 ++
    [0x10440, 0, 0x10480, 0, 0x10500, 0]) w

/-- The status and the value that an object instruction reports in Sd and Sd+2. -/
def report (o : Host.Outcome State Fault Refusal) : Option (Word × Word) := after o fun _ w => (w.readS 40, w.readS 42)

/-- `objState` with slot 3 holding the port. -/
def slotState (f : Wave → Wave) : State := modGang (objState fun w => f (handles w)) 3 fun g => { g with slots := [(3, 0x1F050000000007)] }

theorem test_odup : report (exec (.odup 40 8 28) (objState fun w => ss 28 [2] (handles w))) = some (0, 2) := by decide +kernel
theorem test_oclose : after (exec (.oclose 40 8) (objState handles)) (fun t w => (w.readS 40, (fget t.entries 5).isNone)) =
    some (0, true) := by decide +kernel
theorem test_oinfo_port_capacity : report (exec (.oinfo 40 12 28) (objState fun w => ss 28 [1] (handles w))) = some (0, 16) := by decide +kernel
theorem test_wsnew : report (exec (.wsnew 40) (objState handles)) = some (0, 2) := by decide +kernel
theorem test_tnew : after (exec (.tnew 40) (objState handles)) (fun t w => (w.readS 40, t.timers.length)) = some (0, 2) := by
  decide +kernel
theorem test_wsadd : after (exec (.wsadd 40 8 28) (objState fun w => ss 28 [4, 0, 0, 0, 5, 0] (handles w))) (fun t w =>
    (w.readS 40, w.readS 42, (fgetD t.waitsets 20 []).length)) = some (0, 1, 2) := by decide +kernel
theorem test_wsdel : after (exec (.wsdel 40 8 28) (objState handles)) (fun t w => (w.readS 40, fgetD t.waitsets 20 [])) =
    some (0, []) := by decide +kernel
theorem test_tarm : after (exec (.tarm 40 10 20) (objState handles)) (fun t w => (w.readS 40, fget t.timers 21)) =
    some (0, some ⟨true, 0x10440⟩) := by decide +kernel
theorem test_tcancel : after (exec (.tcancel 40 10) (objState handles)) (fun t w => (w.readS 40, fget t.timers 21)) =
    some (0, some ⟨false, 7⟩) := by decide +kernel
theorem test_handle_of_the_wrong_type : report (exec (.tcancel 40 8) (objState handles)) = some (12, 0) := by decide +kernel
theorem test_stale_handle_raises_obj : after (exec (.tcancel 0 20) (objState handles)) (fun _ w => (w.tcause, w.priv)) =
    some (0x219, .s) := by decide +kernel
theorem test_wspawn : after (exec (.wspawn 40 22 24) (modGang (objState handles) 3 fun g => { g with regg := 8 })) (fun t w => (w.readS 40,
    (getWave t 30).map fun u => (u.idx, u.readS 1, u.readS 8, u.pc 0))) = some (0, some (1, 1, 0x10500, 0x10480)) := by decide +kernel
theorem test_wexit_of_itself : after (exec (.wexit 40 16) (changed handles)) (fun _ w => (w.readS 40, w.ended)) =
    some (0, true) := by decide +kernel
theorem test_rspawn : after (exec (.rspawn 40 24 0) (objState handles)) (fun t w => (w.readS 40,
    t.ranges.map fun p => (p.2.lo0, p.2.hi0, p.2.grain))) = some (0, [(0, 2, 1)]) := by decide +kernel
theorem test_psend : after (exec (.psend 40 48 3) (slotState fun w => ss 48 [9, 0, 0, 0, 0, 0, 0, 0, 7] w)) (fun t w =>
    (w.readS 40, (fget t.ports 22).map fun p => (p.queue.map Msg.header, (p.queue.map Msg.words).getLast?))) =
    some (0, some ([1, 9], some [7, 0, 0, 0])) := by decide +kernel
theorem test_psend_empty_slot : report (exec (.psend 40 48 4) (slotState id)) = some (12, 0) := by decide +kernel
theorem test_precv : after (exec (.precv 40 48 3) (slotState id)) (fun t w =>
    (w.readS 40, w.readS 48, w.readS 56, (fget t.ports 22).map fun p => p.queue)) = some (0, 1, 3, some []) := by decide +kernel
theorem test_pgrant_bad_page : report (exec (.pgrant 40 48 3) (slotState fun w => ss 48 [9, 0, 0x10001, 0, 1] w)) = some (12, 0) := by
  decide +kernel
theorem test_pslot : gangOf (exec (.pslot 40 12 5) (objState handles)) (fun g => fget g.slots 5) =
    some (some 0x1F050000000007) := by decide +kernel
theorem test_pnew : after (exec (.pnew 40 20) (objState handles)) (fun t w => (w.readS 40, (fget t.ports 30).map Port.cap)) =
    some (0, some 16) := by decide +kernel
theorem test_preg_pname : after (exec (.preg 40 12 20) (objState handles)) (fun t w => (w.readS 40,
    (fget t.names 0x10440).map Binding.port, report (exec (.pname 44 20) t))) = some (0, some 22, some (0, 0)) := by decide +kernel
theorem test_anew : after (exec (.anew 40 26 30) (objState fun w => ss 26 [0x40000, 0, 0, 0, 2] (handles w))) (fun t w =>
    (w.readS 40, (fget t.segments 30).map fun g => (g.pages, g.reserve))) = some (0, some (2, 0)) := by decide +kernel
theorem test_aseal : after (exec (.aseal 40 14) (objState handles)) (fun t w =>
    (w.readS 40, (fget t.segments 9).map fun g => (g.status, g.frozenAt))) = some (0, some (1, 0x100)) := by decide +kernel
theorem test_afree : after (exec (.afree 40 14) (objState handles)) (fun t w =>
    (w.readS 40, (fget t.segments 9).map Segment.status)) = some (0, some 2) := by decide +kernel
theorem test_atail : report (exec (.atail 40 14 28) (objState handles)) = some (0, 0x100) := by decide +kernel

/-! ### States that meet the hypotheses of the statements about engines and synchronisation -/

/-- Copies with no barrier and with barrier 0x20 in S7: every function, with aligned operands and room in the context. -/
theorem witness_copies : ([0, 1, 2, 3, 4, 5].all fun fn => [(0 : BitVec 5), 7].all fun sb =>
    let f := fun w => ss 7 [0x20] (formatted w)
    let s := engState f
    let w := f wave0
    stands s w [] && passes w (copyInfo fn 1 2 3 4 sb w []) [] && (barTrap s w.gang (w.readS sb.toNat)).isNone &&
      ((fget s.gangs w.gang).bind fun g => g.ctxs[1]?).any fun c => decide (c.ops.length < 4) &&
        decide (tBase (w.readT 2) % 4 = 0 ∧ tStride (w.readT 3) % 4 = 0 ∧ tBase (w.readT 2) < 0xFFFF900000000000 ∧
          (w.readS 4).toNat % 4 = 0 ∧ (w.readS64 6).toNat % 4 = 0)) = true := by decide +kernel

/-- What the statement about matrix operations asks, with accumulator 4, T0 and T1. -/
def matrixReady (m : MForm) (sk vf : BitVec 5) (f : Wave → Wave) : Bool :=
  let s := engState f
  let w := f wave0
  let vote := formatVote w 0xFFFFFFFF vf.toNat
  let x := if m.hasFmt then vote.1.toNat else 0
  let scales := if m.loop then scaleReg (fwA x) 0 ++ scaleReg (fwB x) 1 else []
  let even := fun (r : BitVec 128) => decide (tBase r % 4 = 0 ∧ tStride r % 4 = 0 ∧ tKinc r % 4 = 0 ∧ tBase r < 0xFFFF900000000000)
  stands s w [] && passes w (matrixInfo s m 4 0 1 sk vf w []) [] &&
    (((fget s.gangs w.gang).bind fun g => g.ctxs[5]?).any fun c => decide (c.ops.length < 4)) &&
    (!m.hasFmt || (vote.2 == 0 && formatFieldsOk x && (if m.loop then loopFormatOk (m.fn == 2) x else drainFormatOk (m.fn == 4) x) &&
      (!needsPair m.fn x || decide (5 < accTiles s w)))) &&
    (scales.all fun n => decide (n < w.tn ∧ n ≤ 31) && even (w.readT n)) && decide (samples w [] ≤ 5) && even (w.readT 0) && even (w.readT 1) &&
    decide ((w.readS64 (sk.toNat + 2)).toNat % 4 = 0) && (!(m.fn == 7 && sk != 0) || (barTrap s w.gang (w.readS sk.toNat)).isNone)

theorem witness_matrix : (matrixReady ⟨0, true, true, true, true⟩ 8 2 formatted && matrixReady ⟨1, true, true, true, true⟩ 8 2 formatted &&
    matrixReady ⟨2, true, true, true, true⟩ 4 2 (fun w => vv 2 (fun _ => 21 + 32 * 21 + 1024 * 1) (ss 4 [1] w)) &&
    matrixReady ⟨3, true, false, true, false⟩ 0 2 formatted &&
    matrixReady ⟨4, true, true, true, false⟩ 4 2 (fun w => vv 2 (fun _ => 0x23C63) w) &&
    matrixReady ⟨5, false, false, false, false⟩ 0 0 formatted && matrixReady ⟨6, true, false, false, false⟩ 0 0 formatted &&
    matrixReady ⟨7, false, false, false, false⟩ 4 0 (fun w => ss 4 [0x20] w) &&
    matrixReady ⟨7, false, false, false, false⟩ 0 0 id) = true := by decide +kernel

/-- A loop whose operands are block-scaled, so that both scale registers are named. -/
theorem witness_scaled_matrix : matrixReady ⟨0, true, true, true, true⟩ 8 2 (fun w => vv 2 (fun _ => 15 + 32 * 15 + 1024 * 3) (ss 8 [1] w)) =
    true := by decide +kernel

theorem witness_barriers : (
    let one := fun (n : Nat) => RegRun.s n 1
    let w := ss 7 [0x20, 2, 0] wave0
    [exInfo 26 [one 7, .s 8 2] [] [one 7] [.s 8 2] false, exInfo 26 [one 7] [one 5] [one 7] [] false,
      exInfo 26 [one 7, one 8] [one 5] [one 7] [one 8] false, exInfo 26 [one 7] [.s 12 4] [one 7] [] (decide (12 % 4 ≠ 0))].all
      (fun i => stands barState w [] && passes w i []) && (barTrap barState w.gang (w.readS 7)).isNone &&
      barPlace barState w.gang (w.readS 7) == some (3, 0x20)) = true := by decide +kernel

/-- Bit 25, a low bit, and an offset past the windows; and the least offset of each kind. -/
theorem witness_barrier_traps : ([0x2000000, 0x21, 0x8000, 0x1400000].all fun b =>
    let w := ss 7 [b] wave0
    let one := fun (n : Nat) => RegRun.s n 1
    ([exInfo 26 [.s 7 1] [.s 12 4] [.s 7 1] [] (decide (12 % 4 ≠ 0)), exInfo 26 [one 7, .s 8 2] [] [one 7] [.s 8 2] false,
      exInfo 26 [one 7] [one 5] [one 7] [] false, exInfo 26 [one 7, one 8] [one 5] [one 7] [one 8] false].all fun i => ready w [] i) &&
      (barTrap base w.gang b).isSome) = true := by decide +kernel

theorem witness_timelines :
    ([(0 : Word), 7, 8, 15].all fun n => let w := ss 4 [n] wave0
      ready w [] (exInfo 26 [.s 4 1] [.s 12 2] [.s 4 1] [] (decide (15 < (w.readS 4).toNat)))) = true ∧
    (let w := ss 8 [0x10400, 0, 0x80] wave0
     ready w [] (exInfo 26 [.s 8 2, .s 10 1] [.s 5 1] [.s 8 2] [.s 10 1] false) &&
       decide ((w.readS64 8).toNat % 128 = 0 ∧ (w.readS 10).toNat % 128 = 0)) = true ∧
    (ready wave0 [] (exInfo 26 [] [] [] [] false) && ready wave0 [] (exInfo 26 [] [.s 12 2] [] [] false)) = true ∧
    (loadCount wave0 ≤ 0 ∧ storeCount base 4 wave0 ≤ 0 ∧ engineCount base 4 wave0 24 ≤ 0 ∧ engineCount base 4 wave0 25 ≤ 0) ∧
    (let s := modGang base 3 fun g => { g with ctxs := g.ctxs.modify 5 fun c =>
       { c with subm := 1, ops := [blankOp (sees 4 wave0 0 0 [] { cls := 25 }) 25 5] } }
     stands s wave0 [] = true ∧ 0 < engineCount s 4 wave0 25) := by decide +kernel

/-- A wait on a wait set and one on a member in registers, with a timeout and without; U mode and S mode. -/
theorem witness_waits : (ready (barMember 4 wave0) [] (waitInfo 20 24 0 6) && ready (ss 26 [0, 0] (barMember 4 wave0)) [] (waitInfo 20 24 30 6) &&
    ready wave0 [] (waitInfo 20 16 0 2) && ready { barMember 4 wave0 with priv := .s } [] (waitInfo 20 24 0 6) &&
    (let w := barMember 4 wave0
     let s := setWave barState 4 w
     let m := parseMember s w 24
     m.isSome && (m.bind fun m => waitResult s w (eventsFor s 1 (waitRank s w 0xFFFFFFFF)) (.inline m)).isNone) &&
    (parseMember base (ss 24 [7] wave0) 24).isNone) = true := by decide +kernel

/-! ### States that meet the hypotheses of the statements about objects -/

/-- What a form's checks ask in `objState`. -/
def formReady (form : ObjForm) (f : Wave → Wave) : Bool :=
  let w := f (handles wave0)
  stands (objState fun w => f (handles w)) w [] && passes w (form.info w []) []

/-- The pairs and words that the forms of class 27 name. -/
def pairOf (n : Nat) : RegRun := .s n 2

/-- Of each clause of the check of a handle one handle: a reserved bit, no entry, another generation, another type, a type
not asked for, a right not held, an object that has ended, and one that passes. -/
theorem witness_handle_check :
    (let s := { objState handles with ports := [] }
     [(2 ^ 58, [tWAVE], 0), (2 ^ 53 + 4 + 2 ^ 41, [tWAVE], 0), (99, [tWAVE], 0), (2 ^ 20 + 4, [tWAVE], 0), (4 + 2 ^ 40, [tWAVE], 0),
       (4 + 2 ^ 41, [tPORT], 0), (4 + 2 ^ 41, [tWAVE], rADMIN), (4 + 2 ^ 41 + 2 ^ 49, [tWAVE], 0), (7 + 5 * 2 ^ 40, [tPORT], 0), (1 + 2 ^ 40, [tREGION], 0)].map
       fun p => (match checkHandle s 1 (BitVec.ofNat 64 p.1) p.2.1 p.2.2 with
         | .error n => n
         | .ok _ => 0)) = [12, 12, 2, 2, 2, 12, 3, 3, 4, 0] := by decide +kernel

/-- Whether a check or a making succeeds. -/
def isOk {α : Type} (r : Except Nat α) : Bool := r.toOption.isSome

/-- The forms with a word and a pair, of a slot and of S mode; a region operand of odup that is stale; and the slot that is
empty and the one whose port its handle has no right to. -/
theorem witness_failed_operands :
    ([({ cls := 27, d := 40, val := true, rs := [pairOf 20, .s 28 1, pairOf 30], da := [pairOf 20], db := [.s 28 1, pairOf 30] } : ObjForm),
      { cls := 27, d := 40, val := true, rs := [pairOf 24, pairOf 20], da := [pairOf 24], db := [pairOf 20] },
      { cls := 27, d := 40, rs := blockReads false 48 false, named := [.s 48 16], da := blockReads false 48 false },
      { cls := 27, d := 40, rs := blockReads true 48 false, named := [.s 48 16], da := blockReads true 48 false },
      { cls := 27, d := 40, ws := [.s 48 24] }].all fun form => formReady form id) = true ∧
    ([({ cls := 27, d := 40, val := true, rs := [pairOf 20, pairOf 22], da := [pairOf 20], db := [pairOf 22], priv := true } : ObjForm),
      { cls := 27, d := 40, rs := [pairOf 20, .s 28 1, pairOf 30], da := [pairOf 20], db := [.s 28 1, pairOf 30], priv := true },
      { cls := 28, d := 40, val := true, rs := [pairOf 20], da := [pairOf 20], priv := true }].all fun form =>
        formReady form fun w => { w with priv := .s }) = true ∧
    (let f := ss 28 [2, 0, 0x10440, 0]
     formReady { cls := 27, d := 40, val := true, rs := [pairOf 8, .s 28 1, pairOf 30], da := [pairOf 8], db := [.s 28 1, pairOf 30] } f &&
       isOk (checkHandle (objState fun w => f (handles w)) 1 ((handles wave0).readS64 8) allTypes rDUP) &&
       !isOk (checkHandle (objState fun w => f (handles w)) 1 0x10440 [tREGION] 0)) = true ∧
    slotHandle (slotState id) (handles wave0) 4 = none ∧ (slotHandle (slotState id) (handles wave0) 3).isSome = true := by decide +kernel

/-- Every form that names a handle passes its checks where the handle is stale; and while the Cistern restarts. -/
theorem witness_failed_handles :
    ([({ cls := 27, d := 40, rs := [pairOf 20], da := [pairOf 20] } : ObjForm),
      { cls := 27, d := 0, rs := [pairOf 20], da := [pairOf 20] },
      { cls := 27, d := 40, rs := [pairOf 20, .s 28 1], da := [pairOf 20], db := [.s 28 1] },
      { cls := 27, d := 40, val := true, rs := [pairOf 20, .s 28 1], da := [pairOf 20], db := [.s 28 1] },
      { cls := 27, d := 40, val := true, rs := [pairOf 20, .s 28 6], da := [pairOf 20], db := [.s 28 6] },
      { cls := 27, d := 40, rs := [pairOf 20, pairOf 28], da := [pairOf 20], db := [pairOf 28] }].all fun form =>
      formReady form id) = true ∧
    ([[tWAVE], allTypes, [tWAITSET], [tTIMER], [tSEGMENT]].all fun t =>
      match checkHandle (objState handles) 1 0x10440 t 0 with
      | .error n => n == 2
      | .ok _ => false) = true ∧
    (stands (modHost (objState handles) fun h => { h with bootstate := 4 }) (handles wave0) []) = true := by decide +kernel

/-- What `fetchBytes` answers, where it answers. -/
def fetched (s : State) (va n : Nat) : Option (List (BitVec 8) × State) :=
  match fetchBytes s (effPtroot s 1) 3 va n with
  | .ok bs t => some (bs, t)
  | _ => none

theorem witness_waves_and_ranges :
    (let s := modGang (objState handles) 3 fun g => { g with regg := 8 }
     let w := handles wave0
     stands s w [] && passes w (({ cls := 27, d := 40, val := true, rs := [pairOf 22, pairOf 24], da := [pairOf 22], db := [pairOf 24] } : ObjForm).info w []) [] &&
       decide ((w.readS64 22).toNat % 4 = 0) && decide ((gangWaves s 3).length < 32) &&
       ((fget s.gangs 3).any fun g => decide ((coreWaves s g.core).length < 64 ∧
         sumBy Wave.poolBytes ((gangWaves s 3).map Prod.snd) + w.poolBytes ≤ g.regg * 32768) && isOk (makeObject s tWAVE 1 (typeRights tWAVE) (dieOf g.core) true))) =
      true ∧
    (formReady { cls := 27, d := 40, rs := [pairOf 16], da := [pairOf 16] } id &&
      (match checkHandle (objState handles) 1 ((handles wave0).readS64 16) [tWAVE] rADMIN with
       | .ok e => e.obj == 4
       | .error _ => false) && !wave0.ended && wave0.priv == .u) = true ∧
    (formReady { cls := 27, d := 40, val := true, rs := [pairOf 24], da := [pairOf 24] } id &&
      formReady { cls := 27, d := 40, val := true, rs := [pairOf 24, pairOf 18], da := [pairOf 24], db := [pairOf 18] } id &&
      isOk (checkHandle (objState handles) 1 ((handles wave0).readS64 18) [tREGION] rADMIN) &&
      (fetched (objState handles) 0x10500 32).any fun p => match launchRange p.2 ⟨effPtroot (objState handles) 1, 3⟩ 1 1 0 (fieldAt p.1 0 8)
        (fieldAt p.1 8 8) (fieldAt p.1 16 8) (fieldAt p.1 24 8) (0, 0) none with
        | .ok _ => true
        | _ => false) = true := by decide +kernel

theorem witness_handles_and_sets :
    (let s := objState handles
     let w := handles wave0
     formReady { cls := 27, d := 40, val := true, rs := [pairOf 8, .s 28 1, pairOf 30], da := [pairOf 8], db := [.s 28 1, pairOf 30] } (ss 28 [2]) &&
       isOk (checkHandle s 1 (w.readS64 8) allTypes rDUP) && (newEntry s 6 20 2 1 0).isSome && within s 1 1 &&
       isOk (checkHandle s 1 (w.readS64 18) [tREGION] 0) &&
       formReady { cls := 27, d := 40, rs := [pairOf 8], da := [pairOf 8] } id && isOk (checkHandle s 1 (w.readS64 8) allTypes 0) &&
       formReady { cls := 27, d := 40, val := true, rs := [pairOf 12, .s 28 1], da := [pairOf 12], db := [.s 28 1] } id &&
       (match checkHandle s 1 (w.readS64 12) allTypes rRECV with
        | .ok e => (itemOf s e 0).isSome && (itemOf s e 255).isSome
        | .error _ => false) &&
       formReady { cls := 27, d := 40, val := true } id && isOk (makeObject s tWAITSET 1 (typeRights tWAITSET) 0 true) &&
       isOk (makeObject s tTIMER 1 (typeRights tTIMER) 0 true)) = true ∧
    (let f := ss 28 [4, 0, 0, 0, 5, 0]
     let w := f (handles wave0)
     let s := objState fun w => f (handles w)
     formReady { cls := 27, d := 40, val := true, rs := [pairOf 8, .s 28 6], da := [pairOf 8], db := [.s 28 6] } f &&
       isOk (checkHandle s 1 (w.readS64 8) [tWAITSET] rSEND) &&
       ((parseMember s w 28).any fun m => (memberHandle s 1 m).isNone) && freeKey (fgetD s.waitsets 20 []) 32 0 == 1 &&
       formReady { cls := 27, d := 40, rs := [pairOf 8, .s 20 1], da := [pairOf 8], db := [.s 20 1] } f && (fget (fgetD s.waitsets 20 []) 0).isSome) =
      true ∧
    (formReady { cls := 27, d := 40, rs := [pairOf 10, pairOf 20], da := [pairOf 10], db := [pairOf 20] } id &&
      isOk (checkHandle (objState handles) 1 ((handles wave0).readS64 10) [tTIMER] rSEND)) = true := by decide +kernel

theorem witness_ports :
    (let s := slotState fun w => ss 48 [9] w
     let w := ss 48 [9] (handles wave0)
     let form : ObjForm := { cls := 27, d := 40, rs := blockReads false 48 false, named := [.s 48 16], da := blockReads false 48 false }
     stands s w [] && passes w (form.info w []) [] && (slotHandle s w 3).any fun h => (match checkHandle s 1 h [tPORT, tPROXY] rSEND with
       | .ok e => e.type == tPORT && isOk (sendHere s e.obj (blockMsg s w 48 false))
       | .error _ => false)) = true ∧
    (let s := slotState handles
     let w := handles wave0
     let form : ObjForm := { cls := 27, d := 40, ws := [.s 48 24] }
     stands s w [] && passes w (form.info w []) [] && ((slotHandle s w 3).any fun h => isOk (checkHandle s 1 h [tPORT] rRECV)) &&
       ((fget s.ports 22).any fun p => p.queue.length == 1) &&
       formReady { cls := 27, d := 40, rs := [pairOf 12], da := [pairOf 12] } id && isOk (checkHandle s 1 (w.readS64 12) [tPORT, tPROXY] 0) &&
       formReady { cls := 27, d := 40, val := true, rs := [pairOf 20], da := [pairOf 20] } id &&
       ((fetched s 0x10440 32).any fun p => (parsePort p.1 1 0).any fun q => rangeUnmapped p.2 (effPtroot s 1) 0 0 &&
         (match makeObject p.2 tPORT 1 (typeRights tPORT) q.home true with
          | .ok m => (reserveTables m.st (effPtroot s 1) 1 q.home 0 0).isSome
          | .error _ => false)) &&
       formReady { cls := 27, d := 40, rs := [pairOf 12, pairOf 20], da := [pairOf 12], db := [pairOf 20] } id &&
       isOk (checkHandle s 1 (w.readS64 12) [tPORT] rADMIN) && directoryHere s 0x10440 && (fget s.names 0x10440).isNone) = true ∧
    (let s := { slotState handles with names := [(0x10440, ⟨0, 22, 0, true, false⟩)] }
     directoryHere s 0x10440 && ((fget s.names 0x10440).any fun b => !bindingDead s b) && isOk (makeObject s tPROXY 1 (typeRights tPROXY + rGRANT) 0 true)) =
      true := by decide +kernel

/-- A port with room, and one that is full whose region has no message slots left. -/
theorem witness_rooms : (let s := slotState handles
    !portDead s 22 && ((fget s.ports 22).any fun p => decide (p.queue.length + p.reserved < p.cap + p.borrowed ∧ p.pfN ≤ 0)) &&
    (let t := modRegion { s with ports := fmod s.ports 22 fun p => { p with cap := 1 } } 1 fun g => { g with msgpool := 0 }
     !portDead t 22 && (fget t.ports 22).any fun p => decide (p.cap + p.borrowed ≤ p.queue.length + p.reserved) && !mayCharge t .slots p.region 1)) =
    true := by decide +kernel

/-- A port with a landing zone of two slots of one page, and a page of the region to send it. -/
def grantState (f : Wave → Wave) : State :=
  let s := slotState f
  { s with
    mem := setBytes s.mem 0x50030008 (leBytes 8 (hbmLeaf 0x5004 true false true).toNat)
    ports := [(22, { ((fget s.ports 22).getD ⟨16, 0, [], 1, 0, 0, 0, 0, 0, [], 0, 0, 0, false⟩) with lz := 0x20000000, lzN := 2, lzP := 1 })] }

theorem witness_grant : (let f := ss 48 [9, 0, 0x10000, 0, 1]
    let s := grantState f
    let w := f (handles wave0)
    let form : ObjForm := { cls := 27, d := 40, rs := blockReads true 48 false, named := [.s 48 16], da := blockReads true 48 false }
    stands s w [] && passes w (form.info w []) [] && (slotHandle s w 3).any fun h => match checkHandle s 1 h [tPORT, tPROXY] (rSEND + rGRANT) with
      | .ok e => e.type == tPORT && (match grantHere s 1 e.obj (blockMsg s w 48 false) ⟨0x10000, 1, true, false⟩ with
        | .ok _ _ => true
        | _ => false)
      | .error _ => false) = true := by decide +kernel

/-! ### States that meet the hypotheses of the statements about segments and supervisor words -/

theorem witness_amber : (let f := ss 26 [0x40000, 0, 0, 0, 2]
    let s := objState fun w => f (handles w)
    formReady { cls := 27, d := 40, val := true, rs := [pairOf 26, .s 30 1], da := [pairOf 26], db := [.s 30 1] } f &&
      rangeUnmapped s (effPtroot s 1) 0x40000 2 && mayCharge s .hbm 1 2 &&
      (match makeObject s tSEGMENT 1 (typeRights tSEGMENT) 0 true with
       | .error _ => false
       | .ok m => match takeFrames m.st 0 2 [] with
         | none => false
         | some (fs, s1) => match mapSegment (charge s1 .hbm 1 2) (effPtroot s 1) 1 0 0x40000 fs with
           | none => false
           | some s2 => mayCharge s2 .hbm 1 0)) = true ∧
    (let s := objState handles
     formReady { cls := 27, d := 40, rs := [pairOf 14], da := [pairOf 14] } id && isOk (checkHandle s 1 ((handles wave0).readS64 14) [tSEGMENT] rSEND) &&
       isOk (checkHandle s 1 ((handles wave0).readS64 14) [tSEGMENT] rADMIN) && ((fget s.segments 9).any fun g => g.status == 0 && g.commit == g.reserve)) = true ∧
    ([(0 : Word), 1].all fun n => formReady { cls := 27, d := 40, val := true, rs := [pairOf 14, .s 28 1], da := [pairOf 14], db := [.s 28 1] } (ss 28 [n])) = true := by
  decide +kernel

/-- `objState` with bytes of an open segment that have not landed. -/
def appendingState : State :=
  { objState handles with segments := [(9, ⟨1, 0x50000000, [0x6000], 0x20000, 1, 0x10, 0, 0, 0, false, [⟨0, List.replicate 16 7, false, 4, 0⟩], [], [], 1, 0, false⟩)] }

theorem witness_seal_later : stands appendingState (handles wave0) [] = true ∧ ((fget appendingState.segments 9).any fun g =>
    g.status == 0 && g.commit != g.reserve) = true := by decide +kernel

/-- S28 up is the region's handle and a field number and value; a wave in S mode, and another wave of its gang, object 24. -/
def superState (f : Wave → Wave) : State :=
  let s := objState fun w => f { handles w with priv := .s }
  { s with
    waves := s.waves ++ [(24, { wave0 with idx := 1 })]
    mem := setBytes s.mem 0x500404AE [192, 0, 1]
    regions := s.regions ++ [(25, { loadedRegion with parent := some 1, depth := 1, index := 9 })]
    entries := s.entries ++ [(9, ⟨1, 25, 25, 1, 0, 0⟩)] }

/-- What a form's checks ask in `superState`. -/
def superReady (form : ObjForm) (f : Wave → Wave) : Bool :=
  let w := f { handles wave0 with priv := .s }
  stands (superState f) w [] && passes w (form.info w []) []

theorem witness_regions :
    (superReady { cls := 27, d := 40, val := true, rs := [pairOf 18, pairOf 22], da := [pairOf 18], db := [pairOf 22], priv := true } id &&
      (let s := superState id
       isOk (checkHandle s 1 0x0019010000000001 [tREGION] rADMIN) &&
       match fetchBytes s (effPtroot s 1) 3 0x10480 64 with
       | .ok img s1 => isOk (createRegion s1 1 1 0 img)
       | _ => false)) = true ∧
    (superReady { cls := 27, d := 40, rs := [pairOf 28, .s 32 1, .s 34 2], da := [pairOf 28], db := [.s 32 1, .s 34 2], priv := true }
      (ss 28 (handle 9 1 25 ++ [0, 0, 12, 0, 7, 0])) &&
      isOk (checkHandle (superState id) 1 0x0019010000000009 [tREGION] rADMIN) && within (superState id) 25 1 &&
      isOk (setRegion (superState id) 25 12 7)) = true := by decide +kernel

theorem witness_other_waves :
    (let f := ss 28 [1, 0x10010000, 5, 0]
     let w := f { handles wave0 with priv := .s }
     let v := sees 4 w 0x10000 0xFFFFFFFF [] { cls := 28 }
     superReady { cls := 28, d := 40, val := true, rs := [.s 28 1, .s 29 1], da := [.s 28 1], db := [.s 29 1], priv := true } f &&
       superReady { cls := 28, d := 28, rs := [.s 28 1, .s 29 1, .s 30 2], da := [.s 28 1], db := [.s 29 1], priv := true } f &&
       superReady { cls := 28, d := 40, rs := [.s 28 1], da := [.s 28 1], priv := true } f &&
       (match targetWave v (superState f) 28 with
        | .error _ => false
        | .ok p => p.1 == 24 && (parseSelector p.2 0x10010000).any fun q =>
          isOk (selectWrite (holdWave (superState f) 4 p.1 p.2) p.1 ((getWave (holdWave (superState f) 4 p.1 p.2) p.1).getD p.2) q 5))) = true ∧
    (let s := setWave (superState (ss 28 [1])) 24 { wave0 with idx := 1, frozen := true }
     stands s (ss 28 [1] { handles wave0 with priv := .s }) [] && ((getWave s 24).any fun u => u.frozen && u.lane 3 == .live)) = true := by
  decide +kernel

/-- A wave that is not its gang's leader, saving; a wave whose log holds an entry; a leader whose CSA is mapped; and pages
and a region for a checkpoint. -/
theorem witness_saving :
    (let w := { handles wave0 with priv := .s, inSave := true, idx := 1 }
     let s := { superState id with waves := [(2, wave0), (4, w)] }
     stands s w [] && passes w (({ cls := 28, d := 40, priv := true } : ObjForm).info w []) [] && (leaderOf s 3).any fun p => p.1 != 4) = true ∧
    (let e := (mvSees 18 (.load 4 false) 6 2 8 id).mvEntry 18 4 (.load 4 false) 1 6 2 8
     superReady { cls := 28, d := 40, val := true, rs := [.s 28 1, .s 29 1], da := [.s 28 1], db := [.s 29 1], priv := true }
       (fun w => { w with log := [e], tlog := 9 })) = true ∧
    (superReady { cls := 28, d := 40, rs := [pairOf 22, .s 28 1], da := [pairOf 22], db := [.s 28 1], priv := true } id) = true ∧
    (let s := modRegion (superState id) 25 fun g => { g with ovr := 1, ckDest := some 0, ckRoom := 4096 }
     superReady { cls := 28, d := 40, val := true, rs := [pairOf 28], da := [pairOf 28], priv := true } (ss 28 (handle 9 1 25)) &&
       isOk (checkHandle s 1 0x0019010000000009 [tREGION] 0) && isOk (startCheckpoint s 25 none)) = true := by decide +kernel

/-- A leading wave saving or restoring, the two pages of its CSA that hold its block and its accumulators mapped; S28:S29 is the CSA's base. -/
def csaState (f : Wave → Wave) : State :=
  let s := superState fun w => f (ss 28 [0x30000, 0xFFFF6000] w)
  [0, 12].foldl (fun s i => (mapPage s 0x50000000 1 0 (csaBase 3 + 65536 * i) (hbmLeaf (0x7000 + i) true false false)).getD s)
    (modGang s 3 fun g => { g with csa := true })

/-- A leading wave in S mode, saving and restoring, that names its CSA in S28:S29. -/
def csaWave (w : Wave) : Wave :=
  ss 28 [(BitVec.ofNat 64 (csaBase 3)).extractLsb' 0 32, (BitVec.ofNat 64 (csaBase 3)).extractLsb' 32 32]
    { w with inSave := true, inRestore := true }

def csa : State := csaState csaWave
def csaGang : Gang := (fget csa.gangs 3).getD (loadedGang 0)

theorem witness_csa_words :
    (let w := csaWave (ss 28 [0x30000, 0xFFFF6000] { handles wave0 with priv := .s })
     let form : ObjForm := { cls := 28, d := 40, val := true, rs := [pairOf 28], da := [pairOf 28], priv := true }
     stands csa w [] && passes w (form.info w []) [] && leadsAt csa (sees 4 w 0x10000 0xFFFFFFFF [] { cls := 28 }) 28 &&
       w.inSave && w.inRestore && fget csa.gangs 3 == some csaGang && effPtroot csa 1 == 0x50000000) = true := by decide +kernel

/-- The bytes of the gang block and the entry they come through. -/
def csaPlace (k : Acc) : Place :=
  match engReach csa 0x50000000 0 (csaBase 3) 4096 k with
  | .ok p => p
  | _ => ⟨[], []⟩

theorem csaPlace_locs (k : Acc) (hk : k = .read ∨ k = .write) : ∀ l ∈ (csaPlace k).locs, ∃ pa, l = .phys pa ∧ 0x70000000 ≤ pa ∧
    pa < 0x70001000 := by
  have h : ((csaPlace k).locs.all fun l => match l with
      | .phys pa => decide (0x70000000 ≤ pa ∧ pa < 0x70001000)
      | .spad _ _ => false) = true := by
    rcases hk with rfl | rfl
    · decide +kernel
    · decide +kernel
  intro l hl
  have := List.all_eq_true.mp h l hl
  cases l with
  | phys pa => exact ⟨pa, rfl, of_decide_eq_true this⟩
  | spad g p => exact absurd this (by simp)

theorem csaPlace_quiet (k : Acc) (hk : k = .read ∨ k = .write) {s : State} (hp : s.pool = []) (hh : s.hostLines = []) :
    quietLocs s (csaPlace k).locs :=
  ⟨hp, hh, fun l hl => by
    obtain ⟨pa, rfl, -, h⟩ := csaPlace_locs k hk l hl
    exact ⟨pa, rfl, by unfold isHostPA hostBase; exact decide_eq_false (by omega)⟩⟩

theorem csaPlace_reached (k : Acc) (hk : k = .read ∨ k = .write) :
    engReach csa 0x50000000 0 (csaBase 3 : Nat) 4096 k = .ok (csaPlace k) := by
  have h : (match engReach csa 0x50000000 0 (csaBase 3 : Nat) 4096 k with
      | .ok _ => true
      | _ => false) = true := by
    rcases hk with rfl | rfl
    · decide +kernel
    · decide +kernel
  unfold csaPlace
  generalize engReach csa 0x50000000 0 (csaBase 3 : Nat) 4096 k = r at h ⊢
  cases r <;> first | rfl | cases h

theorem csa_holds : holdsAny csa = false := by decide +kernel
theorem csa_pool : csa.pool = [] := by decide +kernel
theorem csa_hostLines : csa.hostLines = [] := by decide +kernel

/-- The entry that the accumulator image comes through, which has no bytes here. -/
def csaNext : Place := ⟨[], [(206158235232, 0x1C0300000B, 18446568151862513664)]⟩

theorem csaNext_reached : engReach (useLeaves csa 0x50000000 (csaPlace .read) none) 0x50000000 0
    (csaBase 3 + 0xC1000 + csaGang.spadg * 0x8000 : Nat) (2 * csaGang.accg * 16384) .read = .ok csaNext := by decide +kernel

/-- The pages of the block and of the accumulators are resident. -/
def csaHere (s : State) (va : Nat) : Prop := ∃ a e f big, walk s 0x50000000 va = .leaf a e f big ∧
  (!pGranted e && !pMig e && pTier e == 0) = true

theorem csaHere_of {s : State} {va : Nat} (h : (match walk s 0x50000000 va with
    | .leaf _ e _ _ => !pGranted e && !pMig e && pTier e == 0
    | _ => false) = true) : csaHere s va := by
  unfold csaHere
  cases hw : walk s 0x50000000 va <;> rw [hw] at h <;> first | exact ⟨_, _, _, _, rfl, h⟩ | cases h

theorem csaHere.resident {s : State} {va die : Nat} (h : csaHere s va) (hp : s.pool = [])
    (hh : holdsAny s = false) : residentNow s 0x50000000 va die = some s := by
  obtain ⟨a, e, f, big, hw, h⟩ := h
  exact residentNow_here hp hh hw h

theorem csaHere.resident_mem {s : State} {m : List Host.Cell} {va die : Nat} (h : csaHere { s with mem := m } va) (hp : s.pool = [])
    (hh : holdsAny s = false) : residentNow { s with mem := m } 0x50000000 va die = some { s with mem := m } := h.resident hp hh

theorem csa_here : csaHere csa (csaBase 3) := csaHere_of (by decide +kernel)
theorem csa_next_here : csaHere (useLeaves csa 0x50000000 (csaPlace .read) none) (csaBase 3 + 0xC1000 + csaGang.spadg * 0x8000) :=
  csaHere_of (by decide +kernel)

/-- After the block is read it is not malformed, and the accumulators can be read. -/
theorem witness_creplay : ∃ blk s1 acc s2,
    csaLoad true csa 0x50000000 (dieOf csaGang.core) (csaBase 3) 0x1000 = .ok (blk, s1) ∧
    csaLoad true s1 0x50000000 (dieOf csaGang.core) (csaBase 3 + 0xC1000 + csaGang.spadg * 0x8000) (2 * csaGang.accg * 16384) =
      .ok (acc, s2) ∧
    blockBad blk = false :=
  ⟨_, _, _, _, csaLoad_page (by decide +kernel) (csa_here.resident csa_pool csa_holds)
      (loadVA_quiet (csaPlace_reached .read (.inl rfl)) (csaPlace_quiet .read (.inl rfl) csa_pool csa_hostLines)),
    csaLoad_page (by decide +kernel) (csa_next_here.resident (by decide +kernel) (by decide +kernel))
      (loadVA_quiet csaNext_reached ⟨by decide +kernel, by decide +kernel, nofun⟩), by decide +kernel⟩

/-- The state whose block's entries are marked, before its bytes are written. -/
def csaMarked : State := useLeaves csa 0x50000000 (csaPlace .write) (some (regionGen csa 1))

theorem csaMarked_next : translate csaMarked 0x50000000 18446568151862513664 0 .write ⟨0, 0⟩ = .ok 0x700C9000 206158235232 0x1C0300000B := by
  decide +kernel
theorem csaMarked_entries : walkEntries csaMarked 18446568151862513664 4 0 0x50000000 =
    [1342181368, 206158429888, 206158299136, 206158235232] := by decide +kernel
theorem csaMarked_holds : holdsAny csaMarked = false := by decide +kernel
theorem csaMarked_flip : csaMarked.host.flip = none := by decide +kernel
theorem csaMarked_pool : csaMarked.pool = [] := by decide +kernel
theorem csaMarked_die : gangDie csaMarked 0 = 0 := by decide +kernel
theorem csaMarked_hostLines : csaMarked.hostLines = [] := by decide +kernel
theorem csaMarked_ok : csaMarked.memoryOk := by unfold State.memoryOk; decide +kernel
theorem csaMarked_free : (csaMarked.regions.all fun p => p.2.ckRun.isNone) = true ∧ flipHolds csaMarked 0x700C9000 0 = false := by
  decide +kernel
theorem csaMarked_here : csaHere csaMarked 18446568151862513664 := csaHere_of (by decide +kernel)

/-- Writing the block's bytes leaves the walk to the accumulators as it was. -/
theorem csaMarked_walk {m : List Host.Cell} (h : ∀ a, Loc.phys a ∉ (csaPlace .write).locs → byteAt m a = byteAt csaMarked.mem a) :
    walk { csaMarked with mem := m } 0x50000000 18446568151862513664 = walk csaMarked 0x50000000 18446568151862513664 := by
  refine walkFrom_congr _ _ _ _ fun a ha => ?_
  rw [show (0x50000000 : DWord).toNat = 0x50000000 from rfl, csaMarked_entries] at ha
  refine readEntry_mem csaMarked_pool fun i hi => ?_
  have hout : a + i < 0x70000000 ∨ (0x70001000 ≤ a + i ∧ a + i < 2 ^ 40) := by
    simp only [List.mem_cons, List.not_mem_nil, or_false] at ha
    omega
  refine ⟨by unfold isHostPA hostBase; exact decide_eq_false (by omega), h _ fun hc => ?_⟩
  obtain ⟨pa, hpa, h4, h5⟩ := csaPlace_locs .write (.inr rfl) _ hc
  cases hpa
  omega

theorem quietLocs_mem {s : State} (m : List Host.Cell) {ls : List Loc} (h : quietLocs s ls) : quietLocs { s with mem := m } ls := h

theorem ckptHolds_mem {s : State} {m : List Host.Cell} {f : Nat} (h : s.regions.all fun p => p.2.ckRun.isNone) :
    ckptHolds { s with mem := m } f = false := ckptHolds_none h

theorem flipHolds_mem (s : State) (m : List Host.Cell) (pa n : Nat) : flipHolds { s with mem := m } pa n = flipHolds s pa n := rfl

theorem holdsAny_mem (s : State) (m : List Host.Cell) : holdsAny { s with mem := m } = holdsAny s := rfl

theorem gangDie_mem (s : State) (m : List Host.Cell) (g : Nat) : gangDie { s with mem := m } g = gangDie s g := rfl

theorem csaNext_written {s : State} {root : DWord}
    (ht : translate s root 18446568151862513664 0 .write ⟨0, 0⟩ = .ok 0x700C9000 206158235232 0x1C0300000B) (hd : gangDie s 0 = 0)
    (hn : holdsAny s = false) (hc : ckptHolds s (0x700C9000 / 65536) = false) (hf : flipHolds s 0x700C9000 0 = false) :
    engReach s root 0 (18446568151862513664 : Nat) 0 .write = .ok csaNext := by
  simp [engReach, reachGlobal, steer, numsFrom, hd, ht, hn, hc, hf, EngReach.join, csaNext]

/-- The block can be stored, and then the accumulators. -/
theorem witness_csaveq : ∃ s1 s2,
    csaStore true csa 0x50000000 (regionGen csa 1) (dieOf csaGang.core) (csaBase 3) csaGang.block = .ok s1 ∧
    csaStore true s1 0x50000000 (regionGen csa 1) (dieOf csaGang.core) (csaBase 3 + 0xC1000 + csaGang.spadg * 0x8000) csaGang.accImage = .ok s2 := by
  have hb : csaGang.block.length = 4096 := by decide +kernel
  have ha : csaGang.accImage = [] := by decide +kernel
  have hn : csaBase 3 + 0xC1000 + csaGang.spadg * 0x8000 = 18446568151862513664 := by decide +kernel
  obtain ⟨m, h1, -, h3⟩ := setLocs_quiet (bs := csaGang.block)
    (csaPlace_quiet .write (.inr rfl) csaMarked_pool csaMarked_hostLines) csaMarked_ok
  have hr := csaPlace_reached .write (.inr rfl)
  rw [← hb] at hr
  have hp : pagePieces (csaBase 3) csaGang.block.length = [(csaBase 3, csaGang.block.length)] := by rw [hb]; decide +kernel
  have here : csaHere { csaMarked with mem := m } 18446568151862513664 := by
    obtain ⟨a, e, f, big, hw, h⟩ := csaMarked_here
    exact ⟨a, e, f, big, (csaMarked_walk h3).trans hw, h⟩
  refine ⟨_, setLocs (useLeaves { csaMarked with mem := m } 0x50000000 csaNext (some (regionGen csa 1))) csaNext.locs [],
    csaStore_page hp (csa_here.resident csa_pool csa_holds)
      (storeVA_quiet hr (csaPlace_quiet .write (.inr rfl) csa_pool csa_hostLines)), ?_⟩
  rw [hn, ha, ← csaMarked, h1]
  exact csaStore_page (by decide +kernel) (here.resident_mem csaMarked_pool csaMarked_holds)
    (storeVA_quiet (csaNext_written (translate_mem csaMarked_flip (csaMarked_walk h3) csaMarked_next)
      ((gangDie_mem ..).trans csaMarked_die) ((holdsAny_mem ..).trans csaMarked_holds) (ckptHolds_mem csaMarked_free.1) ((flipHolds_mem ..).trans csaMarked_free.2))
      (quietLocs_mem m ⟨csaMarked_pool, csaMarked_hostLines, nofun⟩))

/-- R251: the child's share is the image's. -/
theorem test_rgnew_share : after (exec (.rgnew 40 18 22) (superState id)) (fun t _ => (fget t.regions 30).map Region.share) = some (some 1) := by
  decide +kernel
theorem test_rgset : after (exec (.rgset 40 28 32) (superState (ss 28 (handle 9 1 25 ++ [0, 0, 12, 0, 7, 0])))) (fun t w =>
    (w.readS 40, (fget t.regions 25).map Region.share)) = some (0, some 7) := by decide +kernel
theorem test_rgset_of_its_own_region : after (exec (.rgset 40 18 32) (superState (ss 32 [12, 0, 7, 0]))) (fun _ w => w.readS 40) =
    some 3 := by decide +kernel
/-- Selector 1.1: S1 of the wave of index 1, whose index it holds (R36). -/
theorem test_wwrite_wread : after (exec (.wwrite 28 28 29) (superState (ss 28 [1, 0x10010000, 5, 0]))) (fun t w => (w.readS 28,
    (getWave t 24).map fun u => (u.readS 1, u.frozen))) = some (0, some (5, true)) := by decide +kernel
theorem test_wread_lane_state : after (exec (.wread 40 28 29) (superState (ss 28 [1, 0x50000300]))) (fun _ w => (w.readS 40, w.readS 42)) =
    some (0, 0) := by decide +kernel
theorem test_wresume : after (exec (.wresume 40 28) (setWave (superState (ss 28 [1])) 24 { wave0 with idx := 1, frozen := true }))
    (fun t w => (w.readS 40, (getWave t 24).map Wave.frozen)) = some (0, some false) := by decide +kernel
theorem test_tlbinv : after (exec (.tlbinv 40 22 28) { superState id with tlb := [(0x5000 * 2 ^ 48 + 1, [15])] }) (fun t w =>
    (w.readS 40, t.tlb)) = some (0, []) := by decide +kernel
theorem test_rdlog_past_the_end : after (exec (.rdlog 40 28 29) (superState id)) (fun _ w => w.readS 40) = some 12 := by decide +kernel
theorem test_gsaved_outside_a_save : after (exec (.gsaved 40) (superState id)) (fun _ w => w.readS 40) = some 12 := by decide +kernel
theorem test_ckmark_with_no_destination : after (exec (.ckmark 40 18) (superState id)) (fun _ w => w.readS 40) = some 12 := by decide +kernel

/-! ### States that meet the hypotheses of further clauses -/

/-- R86, R87: E2M1's greatest magnitude is 6, and the value one step farther 8: 6.5, 7 and 7.5 lie between them, and 12 past them;
so do 65512 and 65528 of FP16 between 65504 and 65536. RSD takes the farther neighbour of 6.5 where h is 0 and not where it
is 2^23. -/
theorem witness_overflow :
    let val := fun (f : FloatFmt) c => (decodeFloat f c).rat
    let x := fun (m : Nat) (e : Int) => (XVal.fin false m e false).rat
    let M := val e2m1 e2m1.maxMag
    let N := M + (M - val e2m1 (e2m1.maxMag - 1))
    let H := val fp16 fp16.maxMag
    let L := H + (H - val fp16 (fp16.maxMag - 1))
    let part := Int.fract (|x 13 (-1)| / (2 : ℚ) ^ (Int.log 2 |x 13 (-1)| - e2m1.mb))
    (M = 6 ∧ N = 8 ∧ ∀ m ∈ [13, 14, 15], M < |x m (-1)| ∧ |x m (-1)| < N) ∧ N ≤ |x 12 0| ∧
    (H < |x 65512 0| ∧ L - |x 65512 0| > |x 65512 0| - H ∧ L - |x 65528 0| < |x 65528 0| - H ∧ |x 65528 0| < L) ∧
    part ≠ 0 ∧ (0 : ℤ) < ⌊(2 : ℚ) ^ 24 * part⌋ ∧ ¬ (2 ^ 23 : ℤ) < ⌊(2 : ℚ) ^ 24 * part⌋ := by
  decide +kernel

/-- The faults of a scalar load at issue: one that software may resolve and one that nothing resolves, and a word after either. -/
theorem witness_scalar_log_entries : (let s := memState aimed
    let w := aimed wave0
    let v := fun (sp : BitVec 5) => sees 4 w 0x10000 0xFFFFFFFF [] (msInfo (.sload 4) 20 sp w [])
    let e := fun (sp : BitVec 5) => (v sp).msEntry 0 (.sload 4) 20 sp 0
    reachAll s w (rootOf s w) (e 8) (.sload 4) = .resolvable 0 0x30000 ∧ reachAll s w (rootOf s w) (e 10) (.sload 4) = .fail cPAGE 0 0 ∧
    memCheck s w (e 8) (.sload 4) 20 = none ∧ memCheck s w (e 10) (.sload 4) 20 = none ∧ w.log = [] ∧ w.priv = .u ∧
    stands s w [] = true ∧ passes w (msInfo (.sload 4) 20 8 w []) [] = true ∧ passes w (msInfo (.sload 4) 20 10 w []) [] = true ∧
    ready { w with log := [e 8] } [] (msInfo (.sload 4) 24 4 { w with log := [e 8] } []) = true) := by decide +kernel

/-- Which trap comes before a copy with T2, T3, the shape in S4 and barrier offset S7, in the order of the statement: the place, the
source or the length misaligned, the index, the two apertures, the barrier; 0 where none does. -/
def copyTrap (fn : Nat) (s : State) (w : Wave) : Nat :=
  let strict := fn == 0 || fn == 2 || fn == 3
  let askew := fun (n : Nat) => strict && !decide (tBase (w.readT n) % 4 = 0 ∧ tStride (w.readT n) % 4 = 0)
  let above := fun (n : Nat) => decide (0xFFFF900000000000 ≤ tBase (w.readT n))
  if decide (fn < 4) && askew 2 then 1 else if fn != 2 && askew 3 then 2 else if strict && (w.readS 4).toNat % 4 != 0 then 3
  else if fn == 3 && (w.readS64 6).toNat % 4 != 0 then 4 else if decide (fn < 4) && above 2 then 5 else if fn != 2 && above 3 then 6
  else if (barTrap s w.gang (w.readS 7)).isSome then 7 else 0

/-- A T register that begins at an address. -/
def tAt (n b : Nat) (w : Wave) : Wave := w.writeT n (BitVec.ofNat 128 b)

/-- Each trap of a copy, and a full context. -/
theorem witness_copy_traps : ([(0, tAt 2 2), (0, tAt 3 2), (0, ss 4 [0x10003]), (3, ss 6 [2]), (1, tAt 2 0xFFFF900000000000),
      (1, tAt 3 0xFFFF900000000000), (1, ss 7 [0x21]), (4, id)].map fun (p : Nat × (Wave → Wave)) =>
    let f := fun w => p.2 (ss 7 [0x20] (formatted w))
    let w := f wave0
    let td : BitVec 5 := if p.1 < 4 then 2 else 0
    if stands (engState f) w [] && passes w (copyInfo p.1 1 td 3 4 7 w []) [] then copyTrap p.1 (engState f) w else 9) = [1, 2, 3, 4, 5, 6, 7, 0] ∧
    (let s := modGang (engState formatted) 3 fun g => { g with ctxs := g.ctxs.modify 1 fun c =>
       { c with ops := List.replicate 4 (blankOp (sees 4 wave0 0 0 [] { cls := 24 }) 24 0) } }
     let w := formatted wave0
     stands s w [] && passes w (copyInfo 0 1 2 3 4 0 w []) [] && copyTrap 0 s w == 0 &&
       ((fget s.gangs 3).bind fun g => g.ctxs[1]?).any fun c => decide (4 ≤ c.ops.length)) = true := by decide +kernel

/-- Which trap comes before a matrix operation with T0, T1, S8 and V2, in the order of the statement: FMTDIV, a register not held,
BADFMT, BADRM, the alignment of A, B and the index, the aperture of A, B and a scale register, the barrier; 0 where none does. -/
def matrixTrap (m : MForm) (acc tb : Nat) (s : State) (w : Wave) : Nat :=
  let vote := formatVote w 0xFFFFFFFF 2
  let f := if m.hasFmt then vote.1.toNat else 0
  let scales := if m.loop then scaleReg (fwA f) 0 ++ scaleReg (fwB f) tb else []
  let askew := fun (n : Nat) => !decide (tBase (w.readT n) % 4 = 0 ∧ tStride (w.readT n) % 4 = 0 ∧ (m.loop = true → tKinc (w.readT n) % 4 = 0))
  let above := fun (n : Nat) => decide (0xFFFF900000000000 ≤ tBase (w.readT n))
  if m.hasFmt && vote.2 != 0 then 1
  else if (m.hasFmt && needsPair m.fn f && !(acc % 2 == 0 && decide (acc + 1 < accTiles s w))) || scales.any fun n => !decide (n < w.tn ∧ n ≤ 31) then 2
  else if m.hasFmt && !(formatFieldsOk f && if m.loop then loopFormatOk (m.fn == 2) f else drainFormatOk (m.fn == 4) f) then 3
  else if m.hasFmt && opRounds m.fn f && decide (5 < samples w []) then 4
  else if m.hasA && askew 0 then 5 else if m.hasB && m.fn != 4 && askew tb then 6
  else if m.fn == 1 && (w.readS64 10).toNat % 4 != 0 then 7
  else if m.hasA && above 0 then 8 else if m.hasB && above tb then 9 else if scales.any above then 10
  else if m.fn == 7 && (barTrap s w.gang (w.readS 8)).isSome then 11 else 0

/-- Each trap of a matrix operation, and a full context. -/
theorem witness_matrix_traps : (let scaled := fun w => vv 2 (fun _ => 15 + 32 * 15 + 1024 * 3) (formatted w)
    ([(⟨0, true, true, true, true⟩, 1, vv 2 fun l => if l = 7 then 0x3C63 else 0x23C63), (⟨0, true, true, true, true⟩, 31, scaled),
      (⟨0, true, true, true, true⟩, 1, vv 2 fun _ => 0xFFFFFFFF), (⟨0, true, true, true, true⟩, 1, fun w => { w with mode := 6 }),
      (⟨0, true, true, true, true⟩, 1, tAt 0 2), (⟨0, true, true, true, true⟩, 1, tAt 1 2), (⟨1, true, true, true, true⟩, 1, ss 10 [2]),
      (⟨0, true, true, true, true⟩, 1, tAt 0 0xFFFF900000000000), (⟨0, true, true, true, true⟩, 1, tAt 1 0xFFFF900000000000),
      (⟨0, true, true, true, true⟩, 1, fun w => tAt 2 0xFFFF900000000000 (scaled w)), (⟨7, false, false, false, false⟩, 0, ss 8 [0x21])].map
      fun (p : MForm × Nat × (Wave → Wave)) =>
        let f := fun w => p.2.2 (formatted w)
        let w := f wave0
        let info := matrixInfo (engState f) p.1 4 0 (BitVec.ofNat 5 p.2.1) 8 (if p.1.hasFmt then 2 else 0) w []
        if stands (engState f) w [] && passes w info [] then matrixTrap p.1 4 p.2.1 (engState f) w else 99) = numsFrom 1 11) ∧
    (let s := modGang (engState formatted) 3 fun g => { g with ctxs := g.ctxs.modify 5 fun c =>
       { c with ops := List.replicate 4 (blankOp (sees 4 wave0 0 0 [] { cls := 25 }) 25 0) } }
     let w := formatted wave0
     stands s w [] && passes w (matrixInfo s ⟨0, true, true, true, true⟩ 4 0 1 8 2 w []) [] && matrixTrap ⟨0, true, true, true, true⟩ 4 1 s w == 0 &&
       ((fget s.gangs 3).bind fun g => g.ctxs[5]?).any fun c => decide (4 ≤ c.ops.length)) = true := by decide +kernel

/-- The forms of class 27 with no handle operand, while the Cistern restarts. -/
theorem witness_again : ([({ cls := 27, d := 40, val := true, rs := [pairOf 22, pairOf 24], da := [pairOf 22], db := [pairOf 24] } : ObjForm),
      { cls := 27, d := 40, val := true, rs := [pairOf 24], da := [pairOf 24] }, { cls := 27, d := 40, val := true },
      { cls := 27, d := 40, val := true, rs := [pairOf 26, .s 30 1], da := [pairOf 26], db := [.s 30 1] }].all fun form =>
    let s := modHost (objState handles) fun h => { h with bootstate := 4 }
    stands s (handles wave0) [] && passes (handles wave0) (form.info (handles wave0) []) [] && (openSend s 4 0x10000).isNone) = true := by
  decide +kernel

/-- `grantState` with slot 3 holding a proxy of port 22 of a module, and these sends under way. -/
def remoteState (m : Nat) (sends : FMap RemoteSend) (f : Wave → Wave) : State :=
  let s := grantState f
  { modGang s 3 fun g => { g with slots := [(3, 0x000E090000000009)] } with
    entries := s.entries ++ [(9, ⟨tPROXY, 40, 14, 1, 0, 0⟩)], proxies := [(40, ⟨m, 22, 0, 7, false⟩)], sends := sends }

/-- A block whose grant word asks for a page from 0x10000 to be read, or not. -/
def granting (read : Bool) : Wave → Wave := ss 48 [9, 0, 0x10000, 0, if read then 0x10001 else 1]

/-- What a send to module 3 meets in a state: its forms pass, no send of its wave has gone out, its slot names a proxy of module 3
and no link retrains. -/
def awayReady (s : State) (w : Wave) : Bool :=
  ([false, true].all fun grant =>
    let form : ObjForm := { cls := 27, d := 40, rs := blockReads grant 48 false, named := [.s 48 16], da := blockReads grant 48 false }
    stands s w [] && passes w (form.info w []) [] && (slotHandle s w 3).any fun h =>
      match checkHandle s 1 h [tPORT, tPROXY] (rSEND + if grant then rGRANT else 0) with
      | .ok e => e.type == tPROXY && (fget s.proxies e.obj).any fun x => x.module == 3 && s.host.module != 3 && !linksRetraining s 3
      | .error _ => false) && (openSend s 4 0x10000).isNone

/-- Sends and grants through a proxy of module 3: of a page that the wave owns, of one that is not mapped, of one of a sealed
segment, and one that grants no read; and a proxy of a port of this module. -/
theorem witness_remote_sends : ([true, false].all fun r => awayReady (remoteState 3 [] (granting r)) (granting r (handles wave0))) = true ∧
    (let s := remoteState 3 [] (granting true)
     let sealed := { s with segments := [(9, ⟨1, 0x50000000, [0x6000], 0x20000, 1, 0x100, 0x100, 1, 0x100, true, [], [], [], 1, 0, false⟩)] }
     (match grantPages s 0x50000000 0x10000 1 with
      | .owned fs => fs.length == 1
      | _ => false) && (match grantPages sealed 0x50000000 0x20000 1 with
      | .sealed k _ => k == 9
      | _ => false) && grantPages s 0x50000000 0x70000 1 == .bad) = true ∧
    (let s := remoteState 0 [] (granting true)
     (slotHandle s (granting true (handles wave0)) 3).any fun h => match checkHandle s 1 h [tPORT, tPROXY] (rSEND + rGRANT) with
      | .ok e => e.type == tPROXY && (fget s.proxies e.obj).any fun x => x.module == s.host.module && x.port == 22
      | .error _ => false) = true ∧
    (∀ s : State, s.links = [(0, ⟨0, 0, 4095, [], [], 0, 0, false, none, 0, 0, [], 0, 0, 0, 0, 0, 0⟩)] →
      linksRetraining { s with links := fmod s.links 0 fun l => { l with status := 1 } } 3 = Config.linkReaches 3 0) := by
  refine ⟨by decide +kernel, by decide +kernel, by decide +kernel, fun s h => ?_⟩
  rw [h]
  cases hc : Config.linkReaches 3 0 <;> simp [linksRetraining, portsTo, fmod, fget, fset, hc]

/-- A grant of a page to module 3 that has gone out. -/
def sentGrant : RemoteSend := ⟨4, 0x10000, 1, 3, true, true, 0x10000, 1, none, false, false, false, []⟩

/-- What a grant becomes at its grant point. -/
theorem passGrant_sends {s : State} {n : Nat} {r : RemoteSend} {fs : List Nat}
    (h : grantPages (settleWalks s (effPtroot s r.region) r.va.toNat r.pages) (effPtroot s r.region) r.va.toNat r.pages = .owned fs) :
    fget (passGrant s n r).sends n = some { r with reply := some 0, past := true, owned := true, frames := fs } := by
  unfold passGrant
  simp only [h]
  exact fget_fset_same ..

/-- A send that has gone out: with no reply, with one, and a grant accepted while its page could not be granted, which can now. -/
theorem witness_sent : ([sentGrant, { sentGrant with reply := some 5 }, { sentGrant with accepted := true }].all fun q =>
      openSend (remoteState 3 [(31, q)] (granting true)) 4 0x10000 == some (31, q)) = true ∧
    (let r := { sentGrant with accepted := true }
     fget (passGrant (remoteState 3 [(31, r)] (granting true)) 31 r).sends 31 =
       some { r with reply := some 0, past := true, owned := true, frames := [0x5004] }) :=
  ⟨by decide +kernel, passGrant_sends (by decide +kernel)⟩

/-- With no links nothing goes out. -/
theorem transmit_unlinked {s : State} (m : Nat) (h : s.links = []) : transmit s m = s := by
  have hr : ∀ fs : List (Nat × Nat × List (BitVec 8)), routeFlits s fs = s := fun fs => by
    unfold routeFlits
    induction fs with
    | nil => rfl
    | cons f t ih => simpa [portsTo, h] using ih
  unfold transmit
  split <;> simp [hr]

/-- `slotState` as module 0 of two, with these copies; S20:S21 is a name whose directory lies in module 1. -/
def awayState (copies : FMap Binding) : State :=
  { slotState (ss 20 [0x10441]) with aqueduct := copies, host := { (slotState id).host with module := 0, domainSize := 2 } }

def awayWave : Wave := ss 20 [0x10441] (handles wave0)

/-- A name of another directory: a live copy answers for it; a copy whose binding has ended does not, and then the directory's answer
counts, which is free; a binding that is made there needs that answer, or a copy, to name none that lives. -/
theorem witness_names_elsewhere :
    (let s := awayState [(0x10441, ⟨1, 22, 0, true, false⟩)]
     stands s awayWave [] && passes awayWave (({ cls := 27, d := 40, val := true, rs := [pairOf 20], da := [pairOf 20] } : ObjForm).info awayWave []) [] &&
       (awayWave.readS64 20).toNat == 0x10441 && !directoryHere s 0x10441 && ((fget s.aqueduct 0x10441).any fun b => !bindingDead s b) &&
       isOk (makeObject s tPROXY 1 (typeRights tPROXY + rGRANT) 0 true)) = true ∧
    (let s := awayState [(0x10441, ⟨1, 22, 0, true, true⟩)]
     let x : Binding := ⟨1, Config.remoteBinding 0 0x10441 2, Config.remoteBinding 0 0x10441 3 % 2 ^ 24, Config.remoteBinding 0 0x10441 4 % 2 == 1, false⟩
     transmit s 1 = s ∧ s.fresh = 0 ∧ ((fget s.aqueduct 0x10441).filter fun b => !bindingDead s b) = none ∧ bindingDead s x = false ∧
       isOk (makeObject s tPROXY 1 (typeRights tPROXY) 0 true) = true ∧
       (Config.remoteBinding 0 0x10441 0 % 2 = 0 → resolveName s 0x10441 = none) ∧
       stands s awayWave [] = true ∧
       passes awayWave (({ cls := 27, d := 40, rs := [pairOf 12, pairOf 20], da := [pairOf 12], db := [pairOf 20] } : ObjForm).info awayWave []) [] = true ∧
       isOk (checkHandle s 1 (awayWave.readS64 12) [tPORT] rADMIN) = true) := by
  refine ⟨by decide +kernel, transmit_unlinked 1 (by decide +kernel), by decide +kernel, by decide +kernel, ?_, by decide +kernel, fun h => ?_,
    by decide +kernel, by decide +kernel, by decide +kernel⟩
  · have hp : ∀ p i g, bindingDead (awayState [(0x10441, ⟨1, 22, 0, true, true⟩)]) ⟨1, p, i, g, false⟩ = false := fun p i g => by
      have h0 : (awayState [(0x10441, ⟨1, 22, 0, true, true⟩)]).host.module = 0 := by decide +kernel
      have h1 : fget (awayState [(0x10441, ⟨1, 22, 0, true, true⟩)]).peers 1 = none := by decide +kernel
      simp [bindingDead, h0, h1]
    exact hp ..
  · have h0 : directoryHere (awayState [(0x10441, ⟨1, 22, 0, true, true⟩)]) 0x10441 = false := by decide +kernel
    have h1 : cachedName (awayState [(0x10441, ⟨1, 22, 0, true, true⟩)]) 0x10441 = none := by decide +kernel
    have h2 : (awayState [(0x10441, ⟨1, 22, 0, true, true⟩)]).fresh = 0 := by decide +kernel
    simp [resolveName, h0, h1, h2, h]

/-! ### States that meet the hypotheses of the statements about traps, paging, migration and engines -/

/-- A wave in S mode that holds its lanes at two addresses, lane 0 at the lower. -/
def handling (w : Wave) : Wave :=
  { w with priv := .s, held := ⟨laneIdx.map fun l => if l = 0 then 0x10000 else 0x10010, splat .live⟩, tresume := 0x10004 }

theorem witness_trap_return : ready (handling wave0) [] { cls := 17, priv := true } = true ∧
    (let w := handling wave0
     w.inRestore = false ∧ w.trapCtx = none ∧ w.log = [] ∧ w.groups = [] ∧ w.pend = [] ∧
     (∃ l ∈ laneIdx, (w.held.lanes.getD l .exited == .live) = true ∧ w.held.pcs.getD l 0 = 0x10000) ∧
     ∀ l ∈ laneIdx, (w.held.lanes.getD l .exited == .live) = true → (0x10000 : DWord).toNat ≤ (w.held.pcs.getD l 0).toNat) := by
  decide +kernel

/-- A wave with a trap pending: a deadlock trap, and PREEMPT with the CSA mapped. -/
def pendingState (c : Nat) (vec : DWord) : State :=
  modGang (modRegion (changed fun w => { w with pend := [⟨10, c, 0, none, 0, none⟩] }) 1 fun g => { g with trapvec := vec }) 3 fun g =>
    { g with csa := true }

/-- A load of four bytes held by the operand log. -/
def heldLoad : LogEntry := (mvSees 18 (.load 4 false) 6 2 4 id).mvEntry 18 4 (.load 4 false) 1 6 2 4

/-- A handler whose wave holds lanes parked on a member of the barrier at 0x20, with the wait word at the group's address. -/
def parkedHandler (n : Nat) (deadline : DWord) : Wave :=
  { handling wave0 with
    held := ⟨splat 0x10000, splat .parked⟩, groups := [⟨0xFFFFFFFF, .inline ⟨3, 0x20, 0, 0, BitVec.ofNat 64 n⟩, deadline, none⟩] }

/-- A return with entries in the log, with a trap pending, and with a group that wakes or goes on waiting. -/
theorem witness_trap_returns :
    ([{ handling wave0 with log := [heldLoad] }, { handling wave0 with pend := [⟨10, 0x14, 0, none, 0, none⟩], log := [heldLoad] },
      { handling wave0 with trapCtx := some 2 }].all fun w => ready w [] { cls := 17, priv := true } && !w.inRestore &&
        w.held.pcs.length == 32 && w.groups.isEmpty) = true ∧
    effTrapvec (pendingState 0x14 0x10100) 1 = 0x10100 ∧
    ([(3, 0xFFFFFFFFFFFFFFFF, some (0, 0)), (4, 0, some (9, 0xFFFFFFFF)), (4, 0xFFFFFFFFFFFFFFFF, none)].all fun p =>
      let w := parkedHandler p.1 p.2.1
      let back := { w with pcs := w.held.pcs, lanes := w.held.lanes, held := ⟨[], []⟩, priv := .u }
      stands (setWave barState 4 w) w [] && passes w { cls := 17, priv := true } [] && (laneIdx.all fun l => w.held.lanes.getD l .exited == .parked) &&
        (w.groups[0]?).any fun g => (groupResult (settleWait (setWave barState 4 back) back g.on) back g).map (fun r => (r.st, r.idx)) == p.2.2) = true := by decide +kernel

/-- What every clause of the statement about pending traps asks. -/
def mayEnter (s : State) : Bool :=
  (getWave s 4).any fun w => !w.ended && !w.saved && w.priv == .u && w.chain.isNone && s.host.powered && regionStatus s (waveRegion s w) != 2 &&
    !w.frozen && w.dues.isEmpty

theorem witness_pending_traps : mayEnter (pendingState 0x14 0x10100) = true ∧ mayEnter (pendingState 0x14 0) = true ∧
    mayEnter (pendingState cPREEMPT 0x10100) = true ∧ ((fget (pendingState cPREEMPT 0x10100).gangs 3).any fun g => g.csa) = true ∧
    (let e := { (mvSees 18 (.load 4 false) 6 2 10 id).mvEntry 18 4 (.load 4 false) 1 6 2 10 with cause := cPAGE }
     mayEnter (changed fun w => { w with log := [e] }) && e.cause != 0 && (memOpOf e.word).isSome) = true := by decide +kernel

/-- PREEMPT first entered in a gang whose CSA is not mapped, in a region whose tables are in no space, so that nothing of it
can be evicted. -/
def preemptState (f : Wave → Wave) : State :=
  modGang (modRegion (changed fun w => f { w with pend := [⟨10, cPREEMPT, 0, none, 0, none⟩] }) 1 fun g => { g with
    trapvec := 0x10100, parent := some 99, ovr := 0xFFFF }) 3 fun g => { g with csa := false }

/-- `preemptState` with the gang's contexts stopped, as the entry finds it. -/
def haltedState (s : State) : State := modGang s 3 fun x => { x with ctxs := x.ctxs.map fun c => { c with halted := true } }

/-- Pages are found for the CSA, with a log and a hold and without; and no frame of the die is left. -/
theorem witness_preempt : ([id, fun w => { w with log := [heldLoad, heldLoad], frozen := true }].all fun (f : Wave → Wave) =>
      let s := preemptState f
      (getWave s 4).any fun w => !w.ended && !w.saved && w.priv == .u && regionStatus s 1 != 2 && (w.log.head?).all (fun e => e.cause == 0) &&
        (!w.frozen || w.pend.any fun p => p.cause == cPREEMPT) && (fget s.gangs 3).any fun g =>
          let u := { w with pend := [], frozen := false }
          (mapCsa (haltedState (setWave s 4 u)) 0x50000000 1 g).any fun t => getWave t 4 == some u && effTrapvec t (waveRegion t u) == 0x10100) = true ∧
    (let s := { preemptState id with hbmNext := [(0, Config.hbmPages)] }
     (fget s.gangs 3).any fun g => (mapCsa (haltedState s) 0x50000000 1 g).isNone) = true := by decide +kernel

/-- A page of the stack aperture of the gang, which has none yet. -/
theorem witness_stack_fill : (let va := 0xFFFF700003000000
    walk base 0x50000000 va == .invalid && isStackVA va && (fillRoom base 0x50000000 va 0).any fun s1 => (takeHbm s1 0).any fun p =>
      (mapPage (charge (zeroFrame p.2 p.1) .hbm (stackRegion s1 0x50000000 va) 1) 0x50000000 (stackRegion s1 0x50000000 va) 0 va
        (hbmLeaf p.1 true false false)).isSome) = true := by decide +kernel

/-- `base` with this leaf at VA 0x20000, in a region that the tree does not reach, so that its tables are in no space. -/
def leafState (e : DWord) : State :=
  { modRegion base 1 fun g => { g with parent := some 99, ovr := 1 } with mem := setBytes base.mem 0x50030010 (leBytes 8 e.toNat) }

/-- The leaf that the walk finds at VA 0x20000. -/
def leafOf (s : State) : Option (Nat × DWord × Nat) :=
  match walk s 0x50000000 0x20000 with
  | .leaf a e f false => some (a, e, f)
  | _ => none

def deepLeaf : DWord := pField (hbmLeaf 0x1000005 true false false) 8 2 1
def hostLeaf : DWord := pField (hbmLeaf (hostBase / 65536 + 5) true false false) 8 2 2

theorem witness_deep_fill : ((leafOf (leafState deepLeaf)).any fun x => pTier x.2.1 == 1 && !pMig x.2.1 && !pGranted x.2.1 &&
    (fillRoom (leafState deepLeaf) 0x50000000 0x20000 0).any fun s1 => (takeHbm s1 ((x.2.2 - 0x1000000) / Config.deepPages)).isSome) = true := by
  decide +kernel

theorem witness_host_fill : ([[], [0, 0, 0]].all fun times =>
    let s := { leafState hostLeaf with moves := [(pFrame hostLeaf, times)] }
    (leafOf s).any fun x => pTier x.2.1 == 2 && !pMig x.2.1 && !pGranted x.2.1 && !pPin x.2.1 &&
      (fillRoom s 0x50000000 0x20000 0).isSome && fourthMove s (pFrame hostLeaf) == (times.length == 3)) = true := by decide +kernel

/-- The page of VA 0x20000 under MIG, its entry as it was before, and the command that moves it. -/
def movingState (e : DWord) (job : Option MigJob) : State :=
  let s := leafState (pSet e 10 true)
  { s with
    migs := [(pFrame e, ⟨0x50000000, 0x20000, 0, [⟨0x50000000, 0x20000, 0x50030010, e⟩]⟩)]
    host := { s.host with mig := job, migResult := if job.isSome then 0x8000000000000000 else 0 } }

/-- A move of a fill and one of a command, with a frame for it and with none; and a page on its way to the host. -/
theorem witness_moves : ([none, some (⟨1, 0x20000, 1, 0, some (pFrame hostLeaf)⟩ : MigJob)].all fun job =>
      let s := movingState hostLeaf job
      let full := modRegion s 1 fun g => { g with hbmp := 0, ovr := 0xFFFF }
      (migrationOf s 0x50000000 0x20000).any (fun x => x.1 == pFrame hostLeaf && !x.2.leaves.isEmpty && isHostPA (x.1 * 65536)) &&
        ((makeRoom 0 (pageCharge s 0x50000000 (pFrame hostLeaf)) 1 64 s).any fun s1 => (takeHbm s1 0).isSome) &&
        (makeRoom 0 (pageCharge full 0x50000000 (pFrame hostLeaf)) 1 64 full).isNone) = true ∧
    (let s := movingState (hbmLeaf 0x6000 true false false) (some ⟨1, 0x20000, 0, 9, some 0x6000⟩)
     (migrationOf s 0x50000000 0x20000).any fun x => x.1 == 0x6000 && !x.2.leaves.isEmpty && !isHostPA (x.1 * 65536)) = true := by
  decide +kernel

/-- Of each kind of page that a migration command meets, one: an HBM page that may move, an amber one that may not, a
host-side one, a pinned one, an amber one of the host, one that has moved three times, one under MIG, and no region or
page at all; and the same while the firmware restarts. -/
theorem witness_migration : (let ok := fun (s : State) => windowOpen s && !s.host.migResult.getLsbD 63
    let here := fun (s : State) => (s.regions.find? fun p => p.2.index == 1 && p.2.status != 2) == (s.regions.head?) &&
      effPtroot s 1 == 0x50000000
    let hbm := leafState (hbmLeaf 0x6000 true false false)
    let amber := leafState (hbmLeaf 0x6000 true true false)
    let host := leafState hostLeaf
    let moved := { host with moves := [(pFrame hostLeaf, [0, 0, 0])] }
    let moving := movingState hostLeaf none
    ok base && base.host.bootstate != 4 && ok (modHost base fun h => { h with bootstate := 4 }) && here hbm &&
      (leafOf hbm).any (fun x => !pMig x.2.1 && evictable hbm ⟨0, 0x50000000, 0x20000, x.1, x.2.1, x.2.2⟩ && pTier x.2.1 == 0) &&
      (leafOf amber).any (fun x => !pMig x.2.1 && !evictable amber ⟨0, 0x50000000, 0x20000, x.1, x.2.1, x.2.2⟩) &&
      (leafOf host).any (fun x => pTier x.2.1 == 2 && !pPin x.2.1 && !pMig x.2.1 && !pAmber x.2.1 && !pGranted x.2.1) &&
      !fourthMove host (pFrame hostLeaf) &&
      ([11, 4].all fun b => (leafOf (leafState (pSet hostLeaf b true))).any fun x => pTier x.2.1 == 2 && !pMig x.2.1 &&
        (pPin x.2.1 || pAmber x.2.1)) &&
      fourthMove moved (pFrame hostLeaf) && ok moving && (leafOf moving).any (fun x => pMig x.2.1 && (fget moving.migs x.2.2).isSome) &&
      base.regions.all (fun g => g.2.index != 7)) = true := by decide +kernel

/-- A region whose checkpoint has the page of VA 0x20000 to copy, with room and without, and one that has copied all; and
a page that is no longer mapped. -/
def checkpointing (pend : List Nat) (room : Nat) (cut : Bool) : State :=
  modRegion (leafState (hbmLeaf 0x6000 true false false)) 1 fun g => { g with
    ckRun := some ⟨0, pend, [], 0, 0, 64, room, cut, none⟩, ckDest := some 0, ckRoom := 2 ^ 20 }

theorem witness_checkpoints : ((leafOf (checkpointing [2] 65544 false)).any fun x => !pMig x.2.1) = true ∧
    ([(65544, false), (65543, false), (65544, true)].all fun p => ((fget (checkpointing [2] p.1 p.2).regions 1).bind Region.ckRun).any
      fun r => r.pend == [2] && r.room == p.1 && r.cut == p.2) = true ∧
    walk (checkpointing [5] 0 false) 0x50000000 (5 * 65536) = .invalid ∧
    ((fget (checkpointing [] 0 false).regions 1).any fun g => decide (64 ≤ g.ckRoom)) = true ∧ base.host.packets = [] := by decide +kernel

/-- A page of a segment sealed to its end, and one of a segment not yet sealed. -/
theorem witness_sealed_page : ([(1, 0x100, true), (0, 0x100, false), (1, 0x10, false)].all fun p =>
    let s := { checkpointing [2] 65544 false with segments := [(9, ⟨1, 0x50000000, [0x6000], 0x20000, 1, 0x100, p.2.1, p.1, 0x100, true, [], [], [], 1, 0, false⟩)] }
    (segOfFrame s 0x6000).any (fun x => x.2.1.status == 1 && x.2.1.commit == x.2.1.frozenAt) == p.2.2) = true ∧
    pAmber (hbmLeaf 0x6000 true true false) = true := by decide +kernel

/-- A discarded region below the root. -/
theorem witness_discard : (let s := { base with
      regions := base.regions ++ [(25, { loadedRegion with parent := some 1, depth := 1, index := 9, status := 2, discarding := true })] }
    (fget s.regions 25).any fun g => g.discarding && g.status == 2 && !landsStill s (subtree s 25) && g.parent == some 1) = true := by decide +kernel

/-- A gang with one operation under way in a context. -/
def workingState (k : Nat) (o : EngOp) : State :=
  modGang (memState aimed) 3 fun g => { g with accg := 1, ctxs := g.ctxs.modify k fun c => { c with subm := 1, ops := [{ o with num := 1 }] } }

/-- A blank operation of an engine. -/
def blank (cls fn : Nat) : EngOp := blankOp (sees 4 wave0 0x10000 0xFFFFFFFF [] { cls := cls }) cls fn

/-- Copies of one row of 8 bytes from 0x10400 to 0x10420; a fill; a prefetch; and a copy whose one chunk has landed. -/
theorem witness_copy_chunks : ([0, 1, 2].all fun fn =>
      let o := { blank 24 fn with ta := 0x10420, tb := 0x10400, shape := if fn = 1 then 8 else 0x10008 }
      let s := workingState 1 o
      ((engineOp s 3 1 (·.find? fun x => x.num == 1 && x.cls == 24)).any fun p => ctxRuns s 3 p.2.1 && p.2.2.chunks == 1 &&
        match (chunkPlan s 0x50000000 3 p.2.2 0).all, (chunkPlan s 0x50000000 3 p.2.2 0).dst with
        | .ok q, .ok d => prepareList s (q.locs.take (q.locs.length - d.locs.length)) == (s, []) && prepareList s d.locs == (s, [])
        | _, _ => false)) = true ∧
    (let s := workingState 1 { blank 24 4 with tb := 0x10400, shape := 0x10008 }
     (engineOp s 3 1 (·.head?)).any fun p => !p.2.2.isCopy && residentReach s 0x50000000 3 p.2.2 0 (fillRefused s 0x50000000 (gangDie s 3))) = true ∧
    (let s := workingState 1 { blank 24 0 with ta := 0x10420, tb := 0x10400, shape := 0x10008, landed := [0] }
     (engineOp s 3 1 (·.head?)).any fun p => ctxRuns s 3 p.2.1 && (numsFrom 0 p.2.2.chunks).all fun n => p.2.2.landed.contains n) = true := by
  decide +kernel

/-- A zeroing, a load, an mprog; and operations whose addresses are not mapped, with their wave live and without. -/
theorem witness_matrix_rows : ([5, 6].all fun fn =>
      let s := workingState 4 { blank 25 fn with ta := 0x10400 }
      (engineOp s 3 4 (·.head?)).any fun p => ctxRuns s 3 p.2.1 && decide (p.2.1.prog < p.2.2.rows) &&
        match (matrixRow s 0x50000000 3 p.1 p.2.2 p.2.1.prog).reach, (matrixRow s 0x50000000 3 p.1 p.2.2 p.2.1.prog).dst with
        | .ok q, .ok _ => prepareList s q.locs == (s, [])
        | _, _ => false) = true ∧
    (let s := workingState 4 { blank 25 7 with bar := some 0x20 }
     (engineOp s 3 4 (·.head?)).any fun p => ctxRuns s 3 p.2.1 && p.2.2.cls == 25 && p.2.2.fn == 7) = true ∧
    (let s := workingState 1 { blank 24 0 with ta := 0x90000, tb := 0x10400, shape := 0x10008 }
     (engineOp s 3 1 (·.find? fun x => x.num == 1)).any fun p => (engineFaultOf s 0x50000000 3 p.1 p.2.1 p.2.2).isSome &&
       (engineTaker s 3 p.2.2.owner).isSome && (engineTaker { s with waves := [] } 3 p.2.2.owner).isNone) = true := by decide +kernel

/-- A send of a wave to module 3 that has gone out from its first word and has had no reply. -/
def openFrom (wave : Nat) : State → State := fun s => { s with sends := [(31, ⟨wave, 0x10000, 1, 3, false, false, 0, 0, none, false, false, false, []⟩)] }

/-- A wave to be held that stands at a send; a leader in a save, its gang's other wave saved or not; a cohort in a save, its gang
released or not. -/
theorem witness_save_ends :
    (let s := openFrom 24 (superState (ss 28 [1, 0x10010000, 5, 0]))
     stands s (ss 28 [1, 0x10010000, 5, 0] { handles wave0 with priv := .s }) [] &&
       match targetWave (sees 4 (ss 28 [1, 0x10010000, 5, 0] { handles wave0 with priv := .s }) 0x10000 0xFFFFFFFF [] { cls := 28 }) s 28 with
       | .ok p => (parseSelector p.2 0x10010000).isSome && waitsBoundary s 4 p.1 p.2
       | .error _ => false) = true ∧
    ([true, false].all fun saved =>
      let w := { handles wave0 with priv := .s, inSave := true }
      let s := { superState id with waves := [(4, w), (24, { wave0 with idx := 1, saved := saved })] }
      stands s w [] && passes w (({ cls := 28, d := 40, priv := true } : ObjForm).info w []) [] && leaderOf s 3 == some (4, w) &&
        (fget s.gangs 3).isSome && ((gangWaves s 3).all fun p => (p.1 == 4 || p.2.saved) && appendsInFlight s p.1 == 0) == saved) = true ∧
    ([true, false].all fun released =>
      let s := modGang (modCohort base 2 fun k => { k with preempted := true }) 3 fun g => { g with released := released }
      (fget s.cohorts 2).any fun k => k.preempted && k.resident && !k.ended && k.gangs == [3] &&
        (fget s.gangs 3).any fun g => g.released == released && !g.ended) = true := by decide +kernel

/-- A wave of a gang that returns from a restore: its gang re-entered its operations or not, a block of its appended or not, the
other wave in restore or not, and the page of its block under MIG or not. -/
def restoring (replayed appends other mig : Bool) : State :=
  let s := superState fun _ => { handling wave0 with inRestore := true }
  let s := modGang ((mapPage s 0x50000000 1 0 (csaBase 3) (pSet (hbmLeaf 0x7000 true false false) 10 mig)).getD s) 3 fun g => { g with
    csa := true, restoring := true, replayed := replayed }
  { s with
    segments := if appends then [(9, ⟨1, 0x50000000, [0x6000], 0x20000, 1, 0x10, 0, 0, 0, false, [⟨0, List.replicate 16 7, false, 4, 0⟩], [], [], 1, 0, false⟩)] else []
    waves := s.waves.map fun p => if p.1 = 24 then (24, { p.2 with inRestore := other }) else p }

/-- The bytes that the wave loads from its block, and the entry they come through. -/
def restorePlace (other : Bool) : Place :=
  match engReach (restoring true false other false) 0x50000000 0 (csaBase 3 + waveBlock 0 + 0x4600 : Nat) 32 .read with
  | .ok p => p
  | _ => ⟨[], []⟩

theorem restorePlace_quiet (other : Bool) : quietLocs (restoring true false other false) (restorePlace other).locs := by
  have h : ((restorePlace other).locs.all fun l => match l with
      | .phys pa => decide (pa < hostBase)
      | .spad _ _ => false) = true := by cases other <;> decide +kernel
  refine ⟨by cases other <;> decide +kernel, by cases other <;> decide +kernel, fun l hl => ?_⟩
  have := List.all_eq_true.mp h l hl
  cases l with
  | phys pa => exact ⟨pa, rfl, by unfold isHostPA; exact decide_eq_false (by simpa using this)⟩
  | spad g p => exact absurd this (by simp)

theorem restorePlace_reached (other : Bool) :
    engReach (restoring true false other false) 0x50000000 0 (csaBase 3 + waveBlock 0 + 0x4600 : Nat) 32 .read = .ok (restorePlace other) := by
  have h : (match engReach (restoring true false other false) 0x50000000 0 (csaBase 3 + waveBlock 0 + 0x4600 : Nat) 32 .read with
      | .ok _ => true
      | _ => false) = true := by cases other <;> decide +kernel
  unfold restorePlace
  generalize engReach (restoring true false other false) 0x50000000 0 (csaBase 3 + waveBlock 0 + 0x4600 : Nat) 32 .read = r at h ⊢
  cases r <;> first | rfl | cases h

/-- Returns that wait. -/
theorem witness_restore_waits_on : ([(false, false), (true, true), (true, false)].all fun p =>
      let s := restoring p.1 p.2 true false
      let w := { handling wave0 with inRestore := true }
      stands s w [] && passes w { cls := 17, priv := true } [] && leaderOf s 3 == some (4, w) && w.held.pcs.length == 32 &&
        (fget s.gangs 3).any fun g => g.replayed == p.1 && g.index == 3 && (appendsInFlight s 4 != 0) == p.2) = true ∧
    (csaLoad false (restoring true false true true) 0x50000000 0 (csaBase 3 + waveBlock 0 + 0x4600) 32).made.isNone = true := by
  decide +kernel

/-- Returns that end a restore, with another wave still in it and with none. -/
theorem witness_restore_returns (other : Bool) : ∃ bs s1,
    csaLoad false (restoring true false other false) 0x50000000 0 (csaBase 3 + waveBlock 0 + 0x4600) 32 = .ok (bs, s1) ∧
    getWave s1 4 = some { handling wave0 with inRestore := true } ∧ (fget s1.gangs 3).any (fun g => g.restoring) = true ∧
    (gangWaves s1 3).any (fun p => p.1 != 4 && p.2.inRestore) = other := by
  have hp : (restoring true false other false).pool = [] := by cases other <;> decide +kernel
  have here : csaHere (restoring true false other false) (csaBase 3 + waveBlock 0 + 0x4600) :=
    csaHere_of (by cases other <;> decide +kernel)
  have hk := useLeaves_quiet 0x50000000 (restorePlace other) hp
  refine ⟨_, _, csaLoad_page (by decide +kernel) (here.resident hp (by cases other <;> decide +kernel))
    (loadVA_quiet (restorePlace_reached other) (restorePlace_quiet other)), ?_, ?_, ?_⟩
  · unfold getWave
    rw [hk.1]
    cases other <;> decide +kernel
  · rw [hk.2]
    cases other <;> decide +kernel
  · unfold gangWaves
    rw [hk.1]
    cases other <;> decide +kernel

/-- A page of its CSA, whose block the device writes, under MIG or not mapped at all. -/
def preempted (mig : Bool) (w : Wave) : State :=
  let s := modGang (modRegion (setWave base 4 w) 1 fun g => { g with trapvec := 0x10100 }) 3 fun g => { g with csa := true }
  if mig then (mapPage s 0x50000000 1 0 (csaBase 3) (pSet (hbmLeaf 0x7000 true false false) 10 true)).getD s else s
def preemptSaves (s : State) (u : Wave) (tpc tresume : DWord) : Option State :=
  let e := u.trapped 0x10100 cPREEMPT 0 tpc tresume (BitVec.ofNat 64 (csaBase 3)) (min u.log.length 4)
  writeDeviceItems (modCohort (modGang (setWave (haltedState (setWave s 4 u)) 4 e) 3 fun x => { x with csa := true }) 2 fun k =>
    if k.entered then k else { k with entered := true, age := 0, aged := false }) 0x50000000 0 (csaBase 3) e

/-- A trap's entry, and a return, into PREEMPT: while a page of the CSA moves, and where the device's items are written. A wave with
a trap pending stands at a send. -/
theorem witness_preempt_items :
    (let w := { wave0 with pend := [⟨10, cPREEMPT, 0, none, 0, none⟩] }
     mayEnter (preempted true w) = true ∧ (preemptSaves (preempted true w) wave0 0x10000 0x10000).isNone = true ∧
     mayEnter (preempted false w) = true ∧ (preemptSaves (preempted false w) wave0 0x10000 0x10000).isSome = true) ∧
    (let w := { handling wave0 with pend := [⟨10, cPREEMPT, 0, none, 0, none⟩] }
     let back := { wave0 with pcs := laneIdx.map fun l => if l = 0 then 0x10004 else 0x10010, tresume := 0x10004, ready := (preempted true w).time + 5 }
     let stays := fun mig => modRegion (setWave (preempted mig w) 4 { back with pend := w.pend }) 1 fun g => { g with progress := 0 }
     (∀ mig, ready w [] { cls := 17, priv := true } = true ∧ effTrapvec (stays mig) 1 = 0x10100) ∧
     (preemptSaves (stays true) back back.stopPC 0x10004).isNone = true ∧ (preemptSaves (stays false) back back.stopPC 0x10004).isSome = true) ∧
    (getWave (openFrom 4 (pendingState 0x14 0x10100)) 4).any (fun w => sendStands (openFrom 4 (pendingState 0x14 0x10100)) 4 w) = true := by
  decide +kernel

/-- A page in the deep tier, and then in HBM. -/
theorem witness_resolution : unresolved (leafState deepLeaf) 0x50000000 0x20000 = true ∧
    unresolved (leafState (hbmLeaf 0x6000 true false false)) 0x50000000 0x20000 = false ∧ unresolved base 0x50000000 0x90000 = false := by
  decide +kernel

/-- `workingState` of an operation at an address that is not mapped, with its fault to come again, its wave restored or not; and
another wave of its gang, restored. -/
def restoredOps (mine : Bool) : State :=
  let s := workingState 1 { blank 24 0 with ta := 0x90000, tb := 0x10400, shape := 0x10008, owner := 4 }
  let s := modGang s 3 fun g => { g with ctxs := g.ctxs.modify 1 fun c => { c with refault := some 1 } }
  { modWave s 4 fun w => { w with restored := mine } with waves := s.waves.map (fun p => (p.1, { p.2 with restored := mine })) ++ [(24, { wave0 with idx := 1, restored := true })] }

/-- A fault that comes again: of an operation whose wave was restored, and of one whose wave was not. -/
theorem witness_fault_again : ([true, false].all fun mine => let s := restoredOps mine
    (engineOp s 3 1 (·.find? fun x => x.num == 1)).any fun p => ctxRuns s 3 p.2.1 && p.2.1.refault == some 1 &&
      match engineFaultOf s 0x50000000 3 p.1 p.2.1 p.2.2 with
      | some (_, va, _) =>
        let t := modCtx (settleWalk s 0x50000000 va) 3 1 fun x => { x with stopped := true, refault := none }
        ((gangWaves t 3).filter fun q => q.2.restored).map Prod.fst == (if mine then [4, 24] else [24]) && p.2.2.owner == 4
      | none => false) = true := by decide +kernel

/-! ### States that meet the hypotheses of the statements about waits and segments -/

/-- A wave whose lanes are all parked on a barrier member, with a deadline of 0 ticks. -/
def parkedState (n : Nat) : State :=
  setWave barState 4 { wave0 with
    lanes := splat .parked, groups := [⟨0xFFFFFFFF, .inline ⟨3, 0x20, 0, 0, BitVec.ofNat 64 n⟩, 0, none⟩] }

theorem witness_wakes : ([3, 4].all fun n => (getWave (parkedState n) 4).any fun w => canWake (parkedState n) w && (w.groups[0]?).any fun g =>
      (waitResult (parkedState n) w (eventsFor (parkedState n) 1 (waitRank (parkedState n) w g.mask)) g.on).isSome == (n == 3) &&
        decide (g.deadline.toNat ≠ 2 ^ 64 - 1 ∧ g.deadline.toNat ≤ (parkedState n).time / 12 % 2 ^ 64)) = true ∧
    (let s := objState handles
     (match checkHandle s 1 0x000B070000000006 [tTIMER] rRECV with
      | .ok e => (fget s.timers e.obj).isSome
      | .error _ => false)) = true ∧
    (let s := { setWave base 4 { wave0 with dues := [⟨5, .flush 7⟩] } with flushes := [(7, ⟨4, [], false⟩)] }
     (fget s.flushes 7).any fun j => (getWave (j.lines.foldl writeBack s) j.wave).any fun w =>
       (w.dues.find? fun x => x.on == .flush 7).isSome) = true := by decide +kernel

theorem witness_segments : ((fget appendingState.segments 9).any fun g => !g.gone && (g.blocks[0]?).any (fun b => !b.landed) &&
      g.blocks.all fun b => b.data != []) = true ∧
    (let seg := fun (st : Nat) (done : Bool) => ({ objState handles with
       segments := [(9, ⟨1, 0x50000000, [0x6000], 0x20000, 1, 0x100, 0x100, st, 0x100, done, [], [], [], 1, 0, false⟩)] } : State)
     ((fget (seg 1 false).segments 9).any fun g => g.status != 0 && !g.sealDone && g.commit == g.frozenAt) &&
     ((fget (seg 2 true).segments 9).any fun g => g.status == 2 && g.commit == g.frozenAt && (seg 2 true).ports.all fun p => p.2.busy.isEmpty) &&
     ((fget (seg 1 true).segments 9).any fun g => g.status == 1 && decide (0 < g.pages ∧ 16384 < freeHbm (seg 1 true) 1) && g.replicas.isEmpty &&
       (takeHbm (seg 1 true) 1).isSome)) = true := by decide +kernel

/-- A freed segment that module 5 still shares, and the same page held by no checkpoint. -/
theorem witness_shared_segment : (let s := { objState handles with segments := [(9, ⟨1, 0x50000000, [0x6000], 0x20000, 1, 0x100, 0x100, 2, 0x100, true, [],
      [], [5], 1, 0, false⟩)] }
    (fget s.segments 9).any fun g => g.status == 2 && g.commit == g.frozenAt && g.remotes != [] && g.frames.all fun f => !ckptHolds s f) = true := by decide +kernel

/-! ### States that meet the hypotheses of the statements about scheduling and the fabric -/

/-- A range of two instances, one to a cohort, of one gang of one wave. -/
def waiting : Range where
  lo0 := 0
  hi0 := 2
  grain := 1
  tmplVa := 0x10540
  tmpl := ⟨0, [⟨[⟨0x10400, 1, 8, 16, 4, 3⟩], 1, 0, 0⟩]⟩
  code := []
  region := 1
  handle := 0x0001040000000009
  pending := [(0, 2)]
  claims := []
  placed := 0
  uses := []
  accepted := 0
  age := 100
  aged := false
  packet := none
  complete := false

/-- `base` with that range waiting and cluster 0 due to place. -/
def rangeState : State :=
  { base with ranges := [(9, waiting)], serial := 40, clusters := [(0, { quietCluster with run := true })] }

/-- A second cohort, saved, of one gang and one wave. -/
def savedState : State :=
  { base with
    ranges := [], serial := 40, clusters := [(0, { quietCluster with run := true })]
    cohorts := base.cohorts ++ [(30, { loadedCohort with gangs := [31], resident := false, saved := true, age := 3000000 })]
    gangs := base.gangs ++ [(31, { loadedGang 0 with cohort := 30, index := 31, released := true })]
    waves := base.waves ++ [(32, { wave0 with gang := 31, saved := true })] }

theorem witness_placement : (waitingUnits rangeState = [(false, 9)] ∧ (unitFit rangeState (false, 9) (clusterCores 0)).isSome = true ∧
    rangeState.host.powered = true) ∧
    (waitingUnits savedState = [(true, 30)] ∧ (unitFit savedState (true, 30) (clusterCores 0)).isSome = true) ∧
    (unitFit { rangeState with clusters := [(0, ⟨true, true, true, some (false, 9), [0], []⟩)] } (false, 9) [0]).isSome = true := by decide +kernel

/-- Three units that wait, none of them at the head of the line: a saved cohort and two ranges. -/
def threeUnits : State :=
  { savedState with ranges := [(9, waiting), (8, { waiting with handle := 0x0001040000000008, age := 200 })] }

theorem witness_units : (waitingUnits threeUnits).length = 3 ∧ orderedUnits threeUnits 0 = [(true, 30), (false, 8), (false, 9)] ∧
    ((orderedUnits threeUnits 0).all fun u => (unitFit threeUnits u (clusterCores 0)).isSome) = true ∧
    unitFit { rangeState with clusters := [(0, ⟨true, true, true, some (false, 9), [], []⟩)] } (false, 9) [] = none := by decide +kernel

/-- R29: nothing pending; a claim of which a grain is left, and of more; an interval of a grain, and the longest of three. -/
theorem witness_chunks : (let r := fun (p : List (Nat × Nat)) (c : FMap (Nat × Nat)) => ({ waiting with hi0 := 100, grain := 8, pending := p, claims := c } : Range)
    [r [] [], r [] [(1, (32, 40))], r [] [(1, (20, 33))], r [(0, 8)] [], r [(0, 40), (48, 88), (90, 95)] []].map fun r => (requestChunk r 1).map Prod.fst) =
    [none, some (32, 40), some (32, 33), some (0, 8), some (32, 40)] := by decide +kernel

theorem witness_fit : (fitCores base [(1, 1), (2, 3)] (clusterCores 0)).isSome = true ∧ (clusterCores 0).Nodup := by decide +kernel

theorem witness_cohort_start : (let s := modCohort base 2 fun k => { k with started := false }
    (fget s.cohorts 2).any fun k => !k.started && k.resident && !k.ended && regionStatus s k.region != 2 &&
      k.gangs.all fun g => (fget s.gangs g).all fun x => !x.restoring) = true := by decide +kernel

theorem witness_aging : (let s := { rangeState with agelimit := 100 }
    (waitingUnits s).contains (false, 9) && !unitAgedFlag s (false, 9) && decide (s.agelimit ≤ unitAge s (false, 9))) = true ∧
    ((waitingUnits savedState).contains (true, 30) && !unitAgedFlag savedState (true, 30) &&
      decide (savedState.agelimit ≤ unitAge savedState (true, 30))) = true := by decide +kernel

theorem witness_quantum : (let s := { base with time := 5 * base.quantum, clusters := [(0, ⟨true, false, false, some (false, 9), [0], []⟩)] }
    (fget s.gangs 3).any fun g => !g.ended && gangResident s g && s.clusters.any (fun p => p.2.head.isSome && g.core ∈ p.2.reserved) &&
      decide (g.runStart + 5 * s.quantum ≤ s.time)) = true := by decide +kernel

theorem witness_overrun : (let s := { modGang (modCohort base 2 fun k => { k with preempted := true }) 3 fun g => { g with mask := 1 } with time := 480001 }
    (fget s.cohorts 2).any fun k => k.preempted && k.resident && !k.ended && decide (k.raisedAt + 480000 < s.time) && regionStatus s k.region != 2 &&
      k.gangs.contains 3 && (fget s.gangs 3).any fun x => x.mask != 0 && !x.released && !x.ended) = true := by decide +kernel

/-- Every wave of the region is parked on a barrier that nothing can complete. -/
theorem witness_monitors : (let p := modRegion (parkedState 4) 1 fun g => { g with deadFor := 2 ^ 20 }
    let s := modWave p 4 fun w => { w with groups := w.groups.map fun g => { g with deadline := 0xFFFFFFFFFFFFFFFF } }
    (fget s.regions 1).any fun g => g.status != 2 && !g.deadRaised && decide (2 ^ 20 ≤ g.deadFor) && deadlocked s 1) = true ∧
    (let s := { base with regions := base.regions ++ [(25, { loadedRegion with parent := some 1, depth := 1, index := 9, progress := 2 ^ 26 })] }
     (fget s.regions 25).any fun g => g.status == 0 && decide (2 ^ 26 ≤ g.progress) && g.parent == some 1) = true := by decide +kernel

/-- `objState` with a peer that has died in incarnation 4. -/
def fabricState : State :=
  { objState handles with
    peers := [(2, ⟨4, true, 0⟩)], dedup := [(tagKey 3 0, 0)]
    links := [(0, ⟨0, 0, 4095, [], [], 0, 0, false, none, 0, 0, [], 0, 0, 0, 0, 0, 0⟩)]
    ports := [(22, ⟨16, 0, [], 1, 0, 0x20000000, 2, 1, 0, [], 0, 0, 0, false⟩), (23, ⟨0, 0, [], 1, 0, 0, 0, 0, 0, [], 0, 0, 0, true⟩),
      (24, ⟨1, 0, [⟨1, 2, false, [3, 4, 5, 6], 0, 0⟩], 1, 0, 0, 0, 0, 0, [], 0, 0, 0, false⟩),
      (25, ⟨16, 0, [], 1, 0, 0x20000000, 1, 1, 0, [(0, ⟨[], none, 0⟩)], 0, 0, 0, false⟩)] }

theorem witness_arrivals : retiredArrival fabricState 2 4 = true ∧ retiredArrival fabricState 2 5 = false ∧
    retiredArrival fabricState 3 0 = false ∧ (fget fabricState.dedup (tagKey 3 0)).isSome = true ∧
    fget fabricState.dedup (tagKey 3 1) = none ∧ fabricState.reservations = [] ∧ portDead fabricState 23 = true ∧
    portDead fabricState 22 = false ∧ ((fget fabricState.ports 22).any fun p => portRoom (notePeer fabricState 3 0) p && ringFree p &&
      mayCharge (notePeer fabricState 3 0) .hbm p.region 1 && (takeFrames (notePeer fabricState 3 0) p.home 1 []).isSome &&
      p.lz != 0 && decide (1 ≤ p.lzP)) = true ∧ ((fget fabricState.ports 25).any fun p => !ringFree p) = true ∧
    (let s := modRegion fabricState 1 fun g => { g with hbmp := 0, msgpool := 0 }
     (fget s.ports 22).any (fun p => !mayCharge (notePeer s 3 0) .hbm p.region 1) && (fget s.ports 24).any fun p => !portRoom (notePeer s 3 0) p) = true := by
  decide +kernel

/-- A port with a grant of module 3 that has not landed, and a send behind it. -/
def behindState : State :=
  { fabricState with
    reservations := [(30, ⟨3, 0, 22, 0, ⟨1, 2, false, [], 0, 0⟩, [0x6001]⟩)]
    held := [⟨0, 3, 0, 5, 22, ⟨1, 2, false, [], 0, 0⟩, none⟩], late := [(31, 2)] }

theorem witness_behind : (behindState.reservations.any fun r => r.2.src == 3 && r.2.wave == 0 && r.2.port == 22) = true ∧
    (behindState.held.all fun h => 2 * (h.src % 1024 + 1024 * (h.tag % 2 ^ 18)) != tagKey 3 1 && h.wave == 0) = true ∧
    (let t := { behindState with reservations := [] }
     t.held.all fun h => !grantAhead t h.src h.wave h.port) = true ∧
    (fget behindState.late 31 = some 2 ∧ retiredArrival behindState 2 4 = true ∧ fget behindState.reservations 31 = none ∧
      fget behindState.dedup (2 * 31 + 1) = none ∧ fget behindState.sends 31 = none) ∧
    (fget { behindState with dedup := [(2 * 31 + 1, 3)] }.dedup (2 * 31 + 1) = some 3 ∧ retiredArrival behindState 3 0 = false) := by decide +kernel

/-- A reservation of one frame, a send and a grant past its point. -/
theorem witness_fabric_replies : (let r : Reservation := ⟨3, 0, 22, 0, ⟨1, 2, false, [], 0, 0⟩, [0x6001]⟩
    let q : RemoteSend := ⟨4, 0x10000, 1, 3, false, false, 0, 0, none, false, false, false, []⟩
    let s := { grantState handles with reservations := [(30, r)], sends := [(31, q), (32, { q with grant := true, va := 0x10000, pages := 1 }),
      (33, { q with grant := true, past := true, owned := true, reply := some 0, frames := [0x6002] })] }
    (fget s.reservations 30).any (fun r => !retiredArrival s r.src 0 && r.frames.length == 1) &&
      (fget s.sends 31).any (fun r => !r.grant && r.reply.isNone && !retiredArrival s r.module 0) &&
      (fget s.sends 32).any (fun r => r.grant && r.reply.isNone && (match grantPages s (effPtroot s r.region) r.va.toNat r.pages with
        | .owned _ => true
        | _ => false)) && (fget s.sends 33).any fun r => r.past && r.owned && !r.taken) = true := by decide +kernel

/-- A grant of a page of a sealed segment. -/
theorem witness_sealed_grant : (let s := { objState handles with segments := [(9, ⟨1, 0x50000000, [0x6000], 0x20000, 1, 0x100, 0x100, 1, 0x100, true, [], [],
      [], 1, 0, false⟩)] }
    match grantPages s 0x50000000 0x20000 1 with
    | .sealed g _ => g == 9
    | _ => false) = true := by decide +kernel

theorem witness_peers_and_links : ((2 : Nat) ≠ fabricState.host.module ∧ fabricState.sends = [] ∧ fabricState.reservations = []) ∧
    ((fget fabricState.links 0).any fun l => l.status == 0 && l.expSeq == 0 && l.replay.isEmpty) = true ∧
    (fieldAt (leBytes 2 4096 ++ List.replicate 254 (0 : BitVec 8)) 0 2 = 4096 ∧ (leBytes 2 4096 ++ List.replicate 254 (0 : BitVec 8)).length = 256) := by
  decide +kernel

/-- A peer silent for 1 000 000 ticks, and one a tick short; sends to it of each kind, and a page it is to deliver. -/
theorem witness_silent_peer : (let q : RemoteSend := ⟨4, 0x10000, 1, 3, false, false, 0, 0, none, false, false, false, []⟩
    let s := { behindState with
      peers := [(3, ⟨1, false, 5⟩)], time := 12000005
      sends := [(31, q), (33, { q with grant := true, past := true, owned := true, reply := some 0, frames := [0x6002] })] }
    peerSilent s 3 && !peerSilent { s with time := 12000004 } 3 &&
      (s.sends.all fun p => p.2.module == 3) && (s.reservations.all fun r => r.2.src == 3) && s.host.module != 3 &&
      (s.reservations.all fun r => (fget s.ports r.2.port).isSome)) = true := by decide +kernel

/-- A port with three flits unacknowledged. -/
def busyLink : LinkPort :=
  { nextSeq := 1, expSeq := 4095, acked := 4093, replay := [⟨4094, 1, 3, 1, [1]⟩, ⟨4095, 1, 3, 1, [2]⟩, ⟨0, 1, 3, 1, [3]⟩], waiting := [(3, 1, [4])], naks := 7
    nakAt := 4094, discarding := true, nakOut := none, retrainFails := 2, status := 0, rx := [], retired := 0, dedup := 0, retrain := 0
    replayed := 0, flitsRx := 0, flitsTx := 0 }

/-- A flit: its sequence number, what it acknowledges, and the modules it goes to and comes from. -/
def flitOf (seq ack dest source : Nat) : List (BitVec 8) :=
  leBytes 2 (4096 + seq) ++ leBytes 2 ack ++ leBytes 2 dest ++ leBytes 2 source ++ List.replicate 248 9

/-- The flit expected, for this module and for another; one after a gap; and what an acknowledgement leaves. -/
theorem witness_flits : ([(flitOf 4095 4094 0 3, 0, 0), (flitOf 4095 4094 9 3, 0, 9), (flitOf 5 0 0 3, 6, 0)].all fun p =>
      p.1.length == 256 && fieldAt p.1 0 2 / 4096 == 1 && (fieldAt p.1 0 2 % 4096 + 4096 - busyLink.expSeq) % 4096 == p.2.1 &&
        fieldAt p.1 4 2 % 1024 == p.2.2 && fieldAt p.1 6 2 % 1024 == 3) = true ∧ base.host.module = 0 ∧
    ([(4094, 2), (4095, 1), (0, 0)].all fun p => (busyLink.replay.any fun f => f.seq == p.1) && (busyLink.replay.filter fun f =>
      decide (0 < (f.seq + 4096 - p.1) % 4096 ∧ (f.seq + 4096 - p.1) % 4096 < 2048)).length == p.2) = true ∧
    (busyLink.replay.any fun f => f.seq == 7) = false ∧ (busyLink.nakAt == 4094 && busyLink.naks == 7 && busyLink.retrainFails == 2) = true := by
  decide +kernel

/-! ### States that meet the hypotheses of the statements about refresh, power, boot, the host and packets -/

theorem witness_power : base.host.powered = true ∧ base.host.trip = false ∧
    (let s := { base with time := 12000000 * (base.host.windows + 1) }
     s.host.windows < s.time / 12000000) ∧
    (let s := modHost base fun h => { h with tjmax := 1680, hotSince := some 0, dryAt := some 0, tripAt := some 0 }
     1680 ≤ s.host.tjmax ∧ ({ s with time := 12000000000 } : State).time = 12000000000 ∧ s.host.hotSince = some 0 ∧ s.host.dryAt = some 0 ∧
       s.host.tripAt = some 0) ∧
    ((fgetD base.channels 383 (0, 0, 0)).2.2 < 8 ∧ (fgetD [(383, ((0, 0, 8) : Nat × Nat × Int))] 383 (0, 0, 0)).2.2 = 8) := by decide +kernel

/-- An interval that has ended and has been counted, and one not counted yet; and the cap just past 90 degrees, just before
100 degrees and between. -/
theorem witness_intervals : (let s := { base with time := 46800 + 46799 }
    ((s.time - s.host.resetAt) / (12 * 3900), fgetD s.intervals 7 0, fgetD { s with intervals := [(7, 1)] }.intervals 7 0)) = (1, 0, 1) ∧
    ([1440, 1441, 1456, 1520, 1599, 1600].map thermalCap) = [2100, 2075, 1950, 1350, 600, 600] := by decide +kernel

/-- Images that verify in bank 0, and an image 3 that verifies in neither. -/
def flashed (v : Nat) : State :=
  modHost base fun h => { h with
    bank0 := [(1, ⟨1, true, 7⟩), (2, ⟨1, true, 8⟩), (3, ⟨v, true, 9⟩), (4, ⟨1, true, 10⟩)], bank1 := [], counters := [(3, 1)] }

theorem witness_boot : isOk (verifyImages (flashed 1) [1, 2, 3, 4]) = true ∧
    (match verifyImages (flashed 0) [1, 2, 3, 4] with
     | .error i => i == 3
     | .ok _ => false) = true ∧
    (let s := { modHost base fun h => { h with bootstate := 2 } with clusters := [(0, ⟨true, false, false, none, [], []⟩), (1, ⟨false, false, false, none, [], []⟩),
       (2, ⟨false, false, false, none, [], []⟩)] }
     (fget s.clusters 1).any (fun c => !c.started) && s.clusters.all (fun p => decide (1 ≤ p.1) || p.2.started) &&
       (fset s.clusters 1 ⟨true, false, false, none, [], []⟩).any fun p => !p.2.started) = true ∧
    (let s := { modHost base fun h => { h with bootstate := 2 } with clusters := [(0, ⟨true, false, false, none, [], []⟩), (1, ⟨false, false, false, none, [], []⟩)] }
     (fset s.clusters 1 ⟨true, false, false, none, [], []⟩).all fun p => p.2.started) = true ∧
    ((takeHbm base 0).any fun p => isOk (makeObject (zeroFrame p.2 p.1) tREGION p.2.serial 25 0 false)) = true ∧
    base.host.bootstate = 3 ∧ base.host.biascmd.getLsbD 63 = false ∧ base.host.migResult.getLsbD 63 = false := by decide +kernel

/-- Images that verify while BOOTSTATE is 1, and a cluster whose start is not due yet. -/
theorem witness_first_start : (let s := modHost (flashed 1) fun h => { h with bootstate := 1 }
    s.host.bootstate == 1 && isOk (verifyImages s [1, 2, 3, 4])) = true ∧
    (let s := { modHost base fun h => { h with bootstate := 2, startAt := 5 } with time := 24004, clusters := [(1, ⟨false, false, false, none, [], []⟩)] }
     (fget s.clusters 1).isSome && decide (s.time < s.host.startAt + 24000 * 1 ∧ s.host.startAt + 24000 * 1 ≤ s.time + 1)) = true := by decide +kernel

/-- Queue 5, of 16 entries and enabled, of the region of index 1; its latch is at 0. -/
def queueState (latch : Nat) : State :=
  modHost base fun h => { h with queues := [(5, ⟨latch, 0, 0, 1, 4, false, false, true, 0⟩)] }

theorem witness_host_requests : windowOpen (queueState 0) = true ∧ (getQueue (queueState 0) 5).latch < 16 ∧
    16 ≤ (getQueue (queueState 0) 5).ci + 2 ^ (getQueue (queueState 0) 5).lsize ∧
    (getQueue (queueState 0) 5).ci + 2 ^ (getQueue (queueState 0) 5).lsize < 17 ∧ (getQueue (queueState 0) 6).en = false ∧
    (queueState 0).host.biascmd.getLsbD 63 = false ∧ (queueState 0).host.flip = none ∧ (queueState 0).host.hostBias = [] ∧
    (let s := modHost base fun h => { h with flip := some ⟨3, true, [96, 97], 0⟩, hostBias := [3] }
     windowOpen s && s.host.powered && s.host.hostBias.contains (0x3000 / 128 / 32) && s.host.flip.any fun f => f.toDevice && f.lines.contains 96) = true ∧
    (let s := modHost base fun h => { h with flip := some ⟨3, false, [], 0⟩, reached := [(2, 5)] }
     windowOpen s && (2, 5) ∈ s.host.reached && s.host.flip.any fun f => !f.toDevice) = true ∧
    hostBase + 8 ≤ 2 * hostBase ∧ base.names = [] ∧ base.host.restarts.length < 2 ∧ base.host.bootstate ≠ 0 ∧
    (fget (modHost base fun h => { h with measurements := [(1, 7)] }).host.measurements 1).isSome = true := by decide +kernel

/-- The mailbox takes a request; no name is bound, or one is. -/
theorem witness_mailbox : base.host.mboxResp ≠ [] ∧ (base.host.mboxResp.getD 0 0).getLsbD 63 = false ∧ base.names = [] ∧
    ([⟨0, 22, 4, true, false⟩, ⟨0, 22, 4, true, true⟩].map fun (b : Binding) => b.ended) = [false, true] ∧
    (base.host.bootstate = 3 ∧ (base.host.restarts.filter fun t => decide (base.time < t + 120000000000)).length < 2) := by decide +kernel

/-- `queueState` with a packet of these words in entry 0, and the memory of `memState`. -/
def packetState (ws : List Nat) : State :=
  let s := superState id
  modHost { s with mem := ((numsFrom 0 8).zip ws).foldl (fun m p => ((numsFrom 0 8).zip (leBytes 8 p.2)).foldl (fun m q =>
      setByte m (hostBase + 8 * p.1 + q.1) q.2) m) s.mem } fun h => { h with queues := [(5, ⟨1, 0, 0, 1, 4, false, false, true, 0⟩)] }

/-- The packet that queue 5 offers, where its Spinel turns to it, and whether it is valid. -/
def offers (s : State) : Option Bool :=
  (nextPacket s 5).bind fun bs => if spinelNext s 5 = some 5 then some (packetValid bs) else none

def root25 : Nat := 0x0019010000000009

/-- Each kind of packet with what its clause asks: the region or page that its words name. -/
theorem witness_packets : ([[8], [0], [1, 0, 2, 0, 0x10540, 0, 0], [1, 0, 2, 0, 0x10540, 0, root25], [2, 0x100, 1, 0], [2, 0x10400, 1, 3], [3, 0x10400, 1],
      [4, 0x10400, 0x10420, 8], [5, 0, root25, 0x200, 0, 0x300], [5, 1, root25, 12, 7], [5, 2, root25], [6, root25, 0, 0x100000],
      [7, root25, 0x200, 1]].map fun ws => offers (packetState ws)) = some false :: List.replicate 12 (some true) := by decide +kernel

theorem witness_packet_regions : (match packetRegion (packetState [0]) 1 root25 rADMIN with
     | .ok r => r == 25
     | .error _ => false) = true ∧
    (match engReach (packetState [0]) (effPtroot (packetState [0]) 1) 0 0x10400 8 .write with
     | .ok _ => true
     | _ => false) = true ∧
    (match launchRange (packetState [0]) ⟨effPtroot (packetState [0]) 1, 0⟩ 1 1 0 0 2 1 0x10540 (0, 0) (some 40) with
     | .ok _ => true
     | _ => false) = true ∧
    isOk (setRegion (packetState [0]) 25 12 7) = true ∧ faultDomain (modRegion (packetState [0]) 25 fun g => { g with fdom := 1 }) 25 = 25 ∧
    faultDomain (modRegion (packetState [0]) 25 fun g => { g with fdom := 0, ovr := 2048 }) 25 ≠ 25 ∧
    ownsSpace (modRegion (packetState [0]) 25 fun g => { g with ovr := 1 }) 25 = true := by decide +kernel

/-- A region image at 0x200, of SHARE 1 and MAXCORES 192. -/
theorem witness_region_create : (let s := packetState [5, 0, 0, 0x200, 0, 0x300]
    let t := { s with mem := setByte (setByte s.mem (hostBase + 0x22E) 192) (hostBase + 0x230) 1 }
    isOk (createRegion t 1 1 0 (hostBytes t 0x200 64))) = true := by decide +kernel

/-- The packets that end later: a WAIT whose word is reached, a copy's last chunk and another, and a RESTORE of an image
of no pages. -/
theorem witness_packet_ends : (let s := packetState [0]
    let p : Packet := ⟨5, 0, 3, false, 0, 1, 25, 0x10400, 1, 8, 0, []⟩
    (match packetReach s 1 0x10400 8 .read with
     | .ok pl => decide (p.b ≤ leNat (pl.locs.map (locView s)))
     | _ => false) &&
     (match packetReach s 1 0x10400 8 .read, packetReach s 1 0x10420 8 .write with
     | .ok _, .ok _ => true
     | _, _ => false) &&
     (let t := { s with mem := [(0x200, 0), (0x201, 4), (0x400, 0x31), (0x401, 0x4B), (0x402, 0x43), (0x403, 0x57)].foldl (fun m c =>
        setByte m (hostBase + c.1) (BitVec.ofNat 8 c.2)) s.mem }
      let hs := imageHeads t { p with type := 7, b := 0x200, c := 1 }
      hs.all (fun h => h.magic == 0x57434B31 && h.pages == 0) && genChain hs)) = true := by decide +kernel

/-- A RESTORE of an image of one page at VA 0x20000, whose page a checkpoint has still to copy, and has copied. -/
theorem witness_restore_waits : ([[2], []].map fun pend =>
    let s := checkpointing pend 0 false
    let t := { s with mem := [(0x200, 0), (0x201, 4), (0x400, 0x31), (0x401, 0x4B), (0x402, 0x43), (0x403, 0x57), (0x420, 1), (0x442, 2)].foldl (fun m c =>
      setByte m (hostBase + c.1) (BitVec.ofNat 8 c.2)) s.mem }
    restoreHolds t ⟨5, 0, 7, false, 0, 1, 1, 0, 0x200, 1, 0, []⟩) = [true, false] := by decide +kernel

/-! ### States that meet the hypotheses of the statements about registers and the step -/

theorem witness_registers : (let w := { wave0 with deadS := 32, deadV := 32 }
    w.deadS.getLsbD 5 = true ∧ w.deadV.getLsbD 5 = true ∧ w.readS 5 = 0 ∧ (ss 5 [7] w).readS 5 = 7) := by decide +kernel

theorem witness_memoryOk : (base.memoryOk ∧ (memState aimed).memoryOk) ∧ (base.spadsOk ∧ (memState aimed).spadsOk) ∧ base.paramsOk := by
  unfold State.memoryOk State.spadsOk State.paramsOk
  decide +kernel

theorem witness_step : (let s := loadWord State.reset 0x000A0410
    s.agenda.isEmpty && (dueEvent s).isNone && readyWaves s == [4] && (getWave s 4).any fun w => waveDie s w == 0 && w.front == some ((0x10000 : DWord), (0xFFFFFFFF : Word), []) &&
      (match translate s 0x50000000 0x10000 4 .fetch ⟨0, 0⟩ with
       | .ok pa a e => (match exec (decodeWord 0x000A0410) { fillTlb s 0x50000000 0x10000 e with
           cur := some 4, fetched := fset s.fetched (3 * 2 ^ 64 + 0x10000) (pa, 0x000A0410) } with
         | .next v => moved s v 4 && v.cur == some 4 && (getWave v 4).isSome && pa == 0x50040000 && a == 0x50030008
         | _ => false)
       | _ => false)) = true := by decide +kernel

theorem witness_event_step : (let s := { loadWord State.reset 0 with agenda := [(0, .timerExpire 3)] }
    s.agenda.head? == some (0, .timerExpire 3)) = true ∧
    (dueEvent { loadWord State.reset 0 with agenda := [], clusters := [(0, { quietCluster with run := true })] }).isSome = true ∧
    (let s := { loadWord State.reset 0 with waves := [] }
     s.agenda.isEmpty && (dueEvent s).isNone && readyWaves s == []) = true := by decide +kernel

/-- A wave whose next word lies in a page of the deep tier. -/
def deepWord : State :=
  let e := BitVec.ofNat 64 (leNat (bytesAt base.mem 0x50030008 8))
  { leafState deepLeaf with
    agenda := [], mem := setBytes base.mem 0x50030008 (leBytes 8 (pField (pField e 8 2 1) 22 36 0x1000005).toNat) }

/-- The word of a wait without a deadline whose member's words begin at S24, its status in S20. -/
def waitWordOf : Nat := (encode (.waitInline 20 24 0)).toNat

/-- In the last core cycle of a fabric cycle, a wave parked on its region's events, of which one has come, and a wave about to wait on
one: the parked one in the first slot, or the second. -/
def takeState (parked : Nat) : State :=
  let s := modRegion { loadWord State.reset waitWordOf with agenda := [], time := 5 } 1 fun g => { g with events := [(2, 7)] }
  let u := { wave0 with lanes := splat .parked, groups := [⟨0xFFFFFFFF, .inline ⟨7, 0, 0, 2, 0⟩, 0xFFFFFFFFFFFFFFFF, none⟩] }
  let v := ss 24 [0x20007, 0, 0, 0, 0, 0] wave0
  { s with waves := [(4, if parked = 4 then u else v), (24, { (if parked = 24 then u else v) with idx := 1, slot := 1 })] }

/-- A wave that waits for the page of its next word; and a parked group that takes a region event at the end of a fabric cycle before
a wave that would, and after it, when that wave waits instead. -/
theorem witness_turns :
    (let s := deepWord
     s.agenda.isEmpty && (dueEvent s).isNone && readyWaves s == [4] && (getWave s 4).any fun w =>
       match issueWave s 4 with
       | .next t => !moved s t 4 && (wantedPage s w t.wants).isSome && (settleWants s w t.wants).pool.length == s.pool.length
       | _ => false) = true ∧
    ([4, 24].all fun n => let s := takeState n
      s.agenda.isEmpty && (dueEvent s).isNone && !s.issued.contains fabricEnd && readyWaves s == [28 - n] && contends s (28 - n) &&
        lastTurn s == some (if n = 4 then .wake (.waitWake 4 0) else .issue 4)) = true ∧
    lastTurn { takeState 4 with time := 0 } = none := by decide +kernel

/-- A cluster of `rangeState` that is not to run the procedure, and one that is, for which the arbiter waits. -/
theorem witness_arbiter_waits : (fget base.clusters 0).any (fun c => !c.run) = true ∧
    rangeState.clusters.any (fun p => p.2.run && p.2.started) = true := by decide +kernel

/-- A grant whose pages are not all mapped, and one of which a page moves; a reply to a grant that was accepted before, and one that
refuses; an acknowledgement of a grant that is not past its point; and a page copy for a port that is dead. -/
theorem witness_grant_points :
    (let s := grantState handles
     let moving := (mapPage s 0x50000000 1 0 0x70000 (pSet (hbmLeaf 0x7000 true false false) 10 true)).getD s
     grantPages s 0x50000000 0x70000 1 == .bad && grantPages moving 0x50000000 0x70000 1 == .wait &&
       regionStatus s 1 != 2 && !retiredArrival s 3 0) = true ∧
    ([{ sentGrant with accepted := true }, { sentGrant with reply := some 5 }, sentGrant].all fun r =>
      r.grant && !r.past && (fget { grantState handles with sends := [(31, r)] }.sends 31 == some r)) = true ∧
    (portDead fabricState 23 && (fget { fabricState with reservations := [(30, ⟨3, 0, 23, 0, ⟨1, 2, false, [], 0, 0⟩, [0x6001]⟩)] }.reservations 30).isSome) = true := by
  decide +kernel

/-- What a flit of module 3 in incarnation 0 may carry meets, if it carries it: a binding at this directory, where one stands and
where none does; the end of one; a tag answered before and one that was not; and an incarnation that is retired. -/
theorem witness_flit_requests :
    (let s := fabricState
     let t := { s with names := [(0x440, ⟨3, 5, 0, true, false⟩)] }
     !retiredArrival s 3 0 && retiredArrival s 2 4 && (fget s.dedup (2 * (3 % 1024 + 1024 * (0 % 2 ^ 18)))).isSome &&
       (fget s.dedup (2 * (3 % 1024 + 1024 * (7 % 2 ^ 18)))).isNone && directoryHere (notePeer s 3 0) 0x440 &&
       (notePeer s 3 0).names.isEmpty && directoryHere (notePeer t 3 0) 0x440 && (fget (notePeer t 3 0).names 0x440).any fun b =>
         !bindingDead (notePeer t 3 0) b && b.module == 3 && !b.ended) = true := by decide +kernel

/-- Traffic that waits to be noted for the region that asked. -/
theorem witness_traffic : fget { base with moved := [(0, 5)] }.moved 0 = some 5 := by decide +kernel

/-- Queue 5 enabled and not; the queues that function 1 owns; a mailbox and a migration that are busy and that are not; a bias command
under way; and a module whose register window is shut. -/
theorem witness_register_window :
    (let off := modHost (queueState 0) fun h => { h with queues := [(5, ⟨0, 0, 0, 1, 4, false, false, false, 1⟩)] }
     windowOpen off && !(getQueue off 5).en && (getQueue (queueState 0) 5).en && (ownedQueues off 1)[0]? == some 5 &&
       (ownedQueues off 1)[1]? == none &&
       (let x := { getQueue (queueState 0) 5 with error := true, overrun := true }
        { x with overrun := x.overrun && 7 / 2 % 2 == 0, error := x.error && (7 / 4 % 2 == 0 || x.en) } != x)) = true ∧
    ([0, 0x8000000000000000].all fun (x : DWord) =>
      let s := modHost base fun h => { h with mboxResp := [x], migResult := x, biascmd := x }
      windowOpen s && mailboxBusy s == (x != 0) && migBusy s == (x != 0) && s.host.biascmd.getLsbD 63 == (x != 0)) = true ∧
    windowOpen (modHost base fun h => { h with bootstate := 0 }) = false := by decide +kernel

/-- A WAIT whose word has not come to its value. -/
theorem witness_wait_goes_on : (let s := packetState [0]
    match packetReach s 1 0x10400 8 .read with
    | .ok pl => decide (leNat (pl.locs.map (locView (prepareList s pl.locs).1)) < 2 ^ 64 - 1)
    | _ => false) = true := by decide +kernel

/-! ### Events: what each does in a small state (spec/15, spec/17, spec/19, spec/21, spec/23, spec/25) -/

/-- Something of the next state. -/
def next {α : Type} (o : Host.Outcome State Fault Refusal) (f : State → α) : Option α :=
  match o with
  | .next t => some (f t)
  | _ => none

/-- Bytes of memory from an address up, as a number. -/
def memAt (t : State) (pa n : Nat) : Nat := leNat ((numsFrom pa n).map (byteAt t.mem))

theorem test_trap_entry : after (exec (.trapEntry 4) (pendingState 0x14 0x10100)) (fun _ w => (w.tcause, w.pc 31, w.priv, w.tresume)) =
    some (0x14, 0x10100, .s, 0x10000) := by decide +kernel
theorem test_trap_entry_with_no_vector : next (exec (.trapEntry 4) (pendingState 0x14 0)) (fun t => regionStatus t 1) = some 2 := by
  decide +kernel
/-- SR.TLOG holds the valid bit and the count (Table 11.10). -/
theorem test_deferred_trap : after (exec (.deferredPreciseTrap 4) (changed fun w => { w with
    log := [{ (mvSees 18 (.load 4 false) 6 2 10 id).mvEntry 18 4 (.load 4 false) 1 6 2 10 with cause := cPAGE, fva := 0x90000, pc := 0xFFFC }] }))
    (fun _ w => (w.tcause.toNat % 256, w.tpc, w.taddr, w.tlog)) = some (cPAGE, 0xFFFC, 0x90000, 9) := by decide +kernel
theorem test_page_fill_of_a_stack_page : next (exec (.pageFill 1 0xFFFF700003000000 0) base) (fun t =>
    (walk base 0x50000000 0xFFFF700003000000 == .invalid, walk t 0x50000000 0xFFFF700003000000 == .invalid)) = some (true, false) := by decide +kernel

theorem test_engine_chunk_land : next (exec (.engineChunkLand 3 1 1 0) (workingState 1 { blank 24 0 with ta := 0x10420, tb := 0x10400, shape := 0x10008 }))
    (fun t => (memAt t 0x50040420 8, ((fget t.gangs 3).bind fun g => g.ctxs[1]?).map fun c => (c.tl, c.ops.length))) =
    some (0x0807060504030201, some (1, 0)) := by decide +kernel
theorem test_matrix_row_done : next (exec (.matrixRowDone 3 4) (workingState 4 (blank 25 5))) (fun t =>
    ((fget t.gangs 3).bind fun g => g.ctxs[4]?).map Ctx.prog) = some (some 1) := by decide +kernel
theorem test_mprog_arrive : next (exec (.mprogArrive 3 4) (writeBarrier (workingState 4 { blank 25 7 with bar := some 0x20 }) (3, 0x20) ⟨4, 0, 0, 2, 1⟩))
    (fun t => readBarrier t (3, 0x20)) = some ⟨5, 0, 0, 2, 0⟩ := by decide +kernel
theorem test_engine_fault : after (exec (.engineFault 3 1 1) (workingState 1 { blank 24 0 with ta := 0x90000, tb := 0x10400, shape := 0x10008 }))
    (fun _ w => w.pend.map fun p => (p.cause, p.taddr, p.ctx)) = some [(cPAGE, 0x90000, some 1)] := by decide +kernel

theorem test_wait_wake : after (exec (.waitWake 4 0) (parkedState 3)) (fun _ w => (w.lane 9, w.groups)) = some (.live, []) := by decide +kernel
theorem test_wait_timeout : after (exec (.waitTimeout 4 0) (parkedState 4)) (fun _ w => (w.lane 9, w.groups)) = some (.live, []) := by decide +kernel
theorem test_flush_done : after (exec (.flushDone 7) { setWave base 4 { ss 5 [9] wave0 with dues := [⟨5, .flush 7⟩] } with
    flushes := [(7, ⟨4, [], false⟩)] }) (fun t w => (w.readS 5, w.dues.length, t.flushes.length)) = some (0, 0, 0) := by decide +kernel

/-- R29: of [0, 2) with a grain of 1 a cluster claims the upper half and takes [1, 2). -/
theorem test_placement : (next (exec (.placement 0) rangeState) fun t => t.cohorts.getLast?.map fun p => (p.2.lo, p.2.hi, p.2.gangs.length)) =
      some (some (1, 2, 1)) ∧
    (next (exec (.placement 0) rangeState) fun t => (fget t.ranges 9).map fun r => (r.pending, r.claims)) = some (some ([(0, 1)], [])) := by
  decide +kernel
theorem test_cohort_start : next (exec (.cohortStart 2) (modCohort base 2 fun k => { k with started := false })) (fun t =>
    (fget t.clusters 0).map fun c => c.runq) = some (some [4]) := by decide +kernel
theorem test_unit_aged : next (exec (.unitAged false 9) { rangeState with agelimit := 100, clusters := [(0, quietCluster)] }) (fun t =>
    ((fget t.ranges 9).map Range.aged, (fget t.clusters 0).bind Cluster.head)) = some (some true, some (false, 9)) := by decide +kernel
theorem test_quantum_expiry : after (exec (.quantumExpiry 3) { base with
    time := 5 * base.quantum, clusters := [(0, ⟨true, false, false, some (false, 9), [0], []⟩)] }) (fun _ w => w.pend.map Pending.cause) =
    some [cPREEMPT] := by decide +kernel
theorem test_monitors : (next (exec (.saveDrainOverrun 2) { modGang (modCohort base 2 fun k => { k with preempted := true }) 3 fun g =>
      { g with mask := 1 } with time := 480001 }) fun t => regionStatus t 1) = some 2 ∧
    (next (exec (.memerr 1) base) fun t => regionStatus t 1) = some 2 := by decide +kernel
theorem test_deadlock : after (exec (.deadlockDetect 1) (modWave (modRegion (parkedState 4) 1 fun g => { g with deadFor := 2 ^ 20 }) 4 fun w =>
    { w with groups := w.groups.map fun g => { g with deadline := 0xFFFFFFFFFFFFFFFF } })) (fun _ w => w.pend.map Pending.cause) = some [0x14] := by
  decide +kernel
/-- R383: the region becomes STALLED and its parent receives PROGRESSSTALL, code 4 (Table 3.5). -/
theorem test_progress_stall : next (exec (.progressStall 25) { base with
    regions := base.regions ++ [(25, { loadedRegion with parent := some 1, depth := 1, index := 9, progress := 2 ^ 26 })] }) (fun t =>
    (regionStatus t 25, (fget t.regions 1).map fun g => g.events.map Prod.fst)) = some (1, some [4]) := by decide +kernel

theorem test_block_lands : next (exec (.commitTailAdvance 9 0) appendingState) (fun t => ((fget t.segments 9).map Segment.commit, memAt t 0x60000000 2)) =
    some (some 0x10, 0x0707) := by decide +kernel
theorem test_segment_ends : (next (exec (.asealDone 9) { objState handles with segments := [(9, ⟨1, 0x50000000, [0x6000], 0x20000, 1, 0x100, 0x100, 1,
      0x100, false, [], [], [], 1, 0, false⟩)] }) fun t => (fget t.segments 9).map Segment.sealDone) = some (some true) ∧
    (next (exec (.afreeDone 9) { objState handles with segments := [(9, ⟨1, 0x50000000, [0x6000], 0x20000, 1, 0x100, 0x100, 2, 0x100, true, [], [], [],
      1, 0, false⟩)] }) fun t => (fget t.segments 9).map Segment.gone) = some (some true) := by decide +kernel

/-- A send of module 3 to port 22, and a grant of one page. -/
def sendOf (grant : Option Nat) : HeldSend := ⟨0, 3, 0, 1, 22, arrivedMsg 7 9 false [1, 2, 3, 4], grant⟩

/-- R323: a send is delivered; R340: an arrival of a retired incarnation is counted. -/
theorem test_remote_send : (let r := admitSend (notePeer fabricState 3 0) (sendOf none)
      (r.1, (fget r.2.ports 22).map fun p => p.queue.map Msg.header)) = (0, some [9]) ∧
    (next (exec (.remoteSendRequest 0 2 0 1 4 22 7 9 false [1, 2, 3, 4]) fabricState) fun t =>
      ((fget t.ports 22).map fun p => p.queue.length, (fget t.links 0).map LinkPort.retired)) = some (some 0, some 1) := by decide +kernel
theorem test_grant_reservation : (let r := admitGrant (notePeer fabricState 3 0) (sendOf (some 1)) 1
    (r.1, r.2.reservations.map fun p => (p.2.slot, p.2.frames.length), (fget r.2.ports 22).map fun p => (p.reserved, p.nextSlot))) =
    (0, [(0, 1)], some (1, 1)) := by decide +kernel
/-- R326: a send behind a grant of its wave to its port is held. -/
theorem test_held_send : next (exec (.remoteSendRequest 0 3 0 1 0 22 7 9 false [1, 2, 3, 4])
    { fabricState with reservations := [(30, ⟨3, 0, 22, 0, ⟨1, 2, false, [], 0, 0⟩, [0x6001]⟩)] }) (fun t =>
    ((fget t.ports 22).map fun p => p.queue.length, t.held.length)) = some (some 0, 1) := by decide +kernel
theorem test_send_reply : next (exec (.sendReply 0 0 31 5) { base with sends := [(31, ⟨4, 0x10000, 1, 3, false, false, 0, 0, none, false, false, false, []⟩)] })
    (fun t => (fget t.sends 31).map RemoteSend.reply) = some (some (some 5)) := by decide +kernel
theorem test_grant_ack : next (exec (.grantAck 0 0 33) { base with
    sends := [(33, ⟨4, 0x10000, 1, 3, true, true, 0x10000, 1, some 0, false, false, true, [0x6002]⟩)] }) (fun t => ((fget t.sends 33).map RemoteSend.past, t.hbmFree)) =
    some (some false, [0x6002]) := by decide +kernel
theorem test_peer_dead : next (exec (.peerDead 2 true) { base with proxies := [(40, ⟨2, 22, 4, 9, false⟩)] }) (fun t =>
    ((fget t.proxies 40).map Proxy.ended, (fget t.peers 2).map Peer.dead)) = some (some true, some true) := by decide +kernel
/-- R342: an error is answered by a NAK that names the last flit in order; a NAK received is counted; a link resumes. -/
theorem test_link : (next (exec (.flitReceive 0 (List.replicate 256 (0 : BitVec 8)) false) fabricState) fun t =>
      (fget t.links 0).map fun l => (l.discarding, l.nakOut)) = some (some (true, some 4095)) ∧
    ((⟨0, 0, 4095, [], [], 0, 0, false, none, 0, 0, [], 0, 0, 0, 0, 0, 0⟩ : LinkPort).take
      (leBytes 2 4096 ++ List.replicate 254 (0 : BitVec 8))).expSeq = 1 ∧
    (next (exec (.nakReceive 0 5) fabricState) fun t => (fget t.links 0).map fun l => (l.naks, l.nakAt)) = some (some (1, 5)) ∧
    (next (exec (.linkRetrainDone 0 true) { fabricState with links := fmod fabricState.links 0 fun l => { l with status := 1 } }) fun t =>
      (fget t.links 0).map LinkPort.status) = some (some 0) := by decide +kernel

theorem test_checkpoint_cut : next (exec (.checkpointPageCopy 1 2) (checkpointing [2] 65543 false)) (fun t =>
    ((fget t.regions 1).bind Region.ckRun).map fun r => (r.pend, r.cut)) = some (some ([], true)) := by decide +kernel
/-- R391: the image takes up whole lines of 64 bytes, and its header begins with the magic number (R403). -/
theorem test_checkpoint_done : next (exec (.checkpointImageDone 1) (checkpointing [] 0 false)) (fun t =>
    ((fget t.regions 1).map fun g => (g.ckRun, g.ckNext), memAt t hostBase 4)) = some (some (none, 64), 0x57434B31) := by decide +kernel

theorem test_refresh : (next (exec (.refreshInterval 7) { base with time := 46800 }) fun t => fget t.channels 7) = some (some (0, 0, 1)) ∧
    (next (exec (.refreshInterval 7) { base with time := 46799 }) fun t => fget t.channels 7) = some none ∧
    (next (exec (.refresh 7 true) { base with channels := [(7, 0, 0, 8)] }) fun t => fget t.channels 7) = some (some (0, 1, 7)) ∧
    (next (exec (.refresh 7 false) base) fun t => fget t.channels 7) = some (some (1, 0, -1)) := by decide +kernel
/-- R365: an allowance of 600 W over a millisecond is 600 000 µJ, and the account holds at most two. -/
theorem test_energy_window : next (exec .energyWindowStart { modHost base fun h => { h with capNext := some 600, account := 700000 } with time := 12000000 })
    (fun t => (t.host.cap, t.host.account, t.host.windows)) = some (600, 1200000, 1) := by decide +kernel
theorem test_energy_meter : ([120000, 119999].map fun time =>
    next (exec (.energyMeterRead 0 50 []) { modHost base fun h => { h with account := 70 } with time := time }) fun t =>
      (t.host.account, t.host.windowDrawn)) = [some (20, 50), some (70, 0)] := by decide +kernel
/-- 90 degrees, 45 degrees and a flow of 0.75. -/
theorem test_thermal : (next (exec (.thermalCapUpdate 1440 720 750) base) fun t => (t.host.ecap, t.host.hotSince, t.host.dryAt)) = some (2100, none, none) ∧
    (next (exec (.thermalCapUpdate 1600 721 749) base) fun t => (t.host.ecap, t.host.hotSince.isSome, t.host.dryAt.isSome)) = some (600, true, true) ∧
    (next (exec .thermalTrip (modHost base fun h => { h with tjmax := 1680 })) fun t => (t.host.trip, t.host.bootstate, regionStatus t 1)) = some (true, 6, 2) ∧
    (next (exec .coolantTimeout { modHost base fun h => { h with hotSince := some 0 } with time := 11999999999 }) fun t => t.host.trip) = some false ∧
    (next (exec .diePowerOff { modHost base fun h => { h with tripAt := some 0 } with time := 12000000000 }) fun t => t.host.powered) = some false := by
  decide +kernel

theorem test_boot : (next (exec .warmBoot (flashed 1)) fun t => (t.host.bootstate, t.clusters.length, t.waves.length)) = some (1, 0, 0) ∧
    (next (exec .warmBoot (flashed 0)) fun t => (t.host.bootstate, t.clusters.length)) = some (5, 0) ∧
    (next (exec (.clusterStart 0) (modHost (flashed 1) fun h => { h with bootstate := 1 })) fun t =>
      (t.host.bootstate, t.clusters.length, (t.clusters.filter fun p => p.2.started).length)) = some (2, 48, 1) := by decide +kernel
/-- R22: cluster 1 starts 2 us after cluster 0. -/
theorem test_cluster_start : ([23999, 24000].map fun at' => next (exec (.clusterStart 1) { modHost base fun h => { h with bootstate := 2 } with
      time := at', clusters := [(0, ⟨true, false, false, none, [], []⟩), (1, ⟨false, false, false, none, [], []⟩)] }) fun t =>
      (t.host.bootstate, t.host.incarnation - base.host.incarnation)) = [some (2, 0), some (3, 1)] := by decide +kernel
theorem test_firmware_restart : (next (exec .jasperException base) fun t => t.host.bootstate) = some 4 ∧
    (next (exec .jasperHeartbeatTimeout (modHost base fun h => { h with restarts := [0, 0] })) fun t => t.host.bootstate) = some 5 ∧
    (next (exec .firmwareRestartDone (modHost base fun h => { h with bootstate := 4 })) fun t => t.host.bootstate) = some 3 ∧
    (next (exec .restart base) fun t => t.host.bootstate) = some 4 := by decide +kernel

theorem test_doorbell : ([(8, 16), (8, 17), (4, 1)].map fun p => next (exec (.doorbellWrite 5 p.1 p.2) (queueState 0)) fun t =>
    (getQueue t 5).latch + (if (getQueue t 5).overrun then 100 else 0) + (if (getQueue t 5).error then 1000 else 0)) =
    [some 16, some 100, some 1000] := by decide +kernel
theorem test_queue_enable : (next (exec (.queueDisable 5) (queueState 3)) fun t => ((getQueue t 5).en, (getQueue t 5).latch)) = some (false, 0) ∧
    (next (exec (.queueEnable 6) (queueState 0)) fun t => ((getQueue t 6).en, (getQueue t 6).error)) = some (true, true) := by decide +kernel
theorem test_parameters : (next (exec (.schedParamWrite false 65536) base) State.agelimit) = some 65536 ∧
    (next (exec (.schedParamWrite true 65535) base) State.quantum) = some 1048576 ∧
    (next (exec (.capWrite 625) base) fun t => (t.host.capNext, t.host.caperr)) = some (some 625, false) ∧
    (next (exec (.capWrite 626) base) fun t => (t.host.capNext, t.host.caperr)) = some (none, true) ∧
    (next (exec (.registerWrite 0 0x1000028 8 7) (queueState 0)) fun t => (getQueue t 5).latch) = some 7 ∧
    (next (exec .unsupportedRequest base) fun t => t.host.bootstate) = some 3 := by decide +kernel

/-- R399: the completion word holds the status above bit 56 and the index of the packet. -/
theorem test_packets_complete : ([(Instr.badpkt 5, [0x808]), (.pktNop 5, [0]), (.signal 5, [2, 0x100, 9, 0])].map fun p =>
    next (exec p.1 (packetState (p.2 ++ List.replicate (7 - p.2.length) 0 ++ [0x40]))) fun t => (memAt t (hostBase + 0x40) 8, memAt t (hostBase + 0x100) 8)) =
    [some (2 ^ 56, 0), some (0, 0), some (0, 9)] := by decide +kernel
theorem test_packets_run : ([(Instr.launch 5, [1, 0, 2, 0, 0x10540]), (.waitsig 5, [3, 0x10400, 1]), (.copy 5, [4, 0x10420, 0x10400, 8]),
      (.ckpt 5, [6, 0x0019010000000001, 0, 0x100000]), (.restore 5, [7, 0x0019010000000001, 0x200, 1])].map fun p =>
    next (exec p.1 (packetState p.2)) fun t => (t.host.packets.length, t.ranges.length)) = [some (1, 1), some (1, 0), some (1, 0), some (1, 0), some (0, 0)] := by
  decide +kernel
theorem test_packet_copy : next (exec (.packetCopyDone 40) (modHost (packetState [0]) fun h => { h with
    packets := [(40, ⟨5, 0, 4, false, 0x40, 1, 0, 0x10420, 0x10400, 8, 0, []⟩)] })) (fun t => (memAt t 0x50040420 8, t.host.packets.length)) =
    some (0x0807060504030201, 0) := by decide +kernel
theorem test_packet_wait : ([(0x0807060504030201, 0), (0x0807060504030202, 1)].map fun p => next (exec (.waitsigSatisfied 40) (modHost (packetState [0]) fun h =>
    { h with packets := [(40, ⟨5, 0, 3, false, 0x40, 1, 0, 0x10400, p.1, 0, 0, []⟩)] })) fun t => t.host.packets.length) = [some 0, some 1] := by decide +kernel
theorem test_region_packets : (next (exec (.regionSet 5) (packetState [5, 1, root25, 12, 7])) fun t => (fget t.regions 25).map Region.share) = some (some 7) ∧
    (next (exec (.regionDiscard 5) (packetState [5, 2, root25])) fun t => regionStatus t 25) = some 2 := by decide +kernel
theorem test_restore_done : next (exec (.restoreDone 40) (modHost (packetState [0]) fun h => { h with
    packets := [(40, ⟨5, 3, 7, false, 0x40, 1, 25, 0, 0x200, 0, 0, []⟩)] })) (fun t => (memAt t (hostBase + 0x40) 8, t.host.packets.length)) = some (3, 0) := by
  decide +kernel

theorem test_bias : (next (exec (.biasFlipHost 3) base) fun t => (t.host.biascmd, t.host.flip.isSome)) = some (0x8000000000000003, true) ∧
    (next (exec (.biasFlipDevice 3) base) fun t => (t.host.biascmd, t.host.flip.isSome)) = some (0x40003, false) ∧
    (next (exec .biasFlipHostDone (modHost base fun h => { h with flip := some ⟨3, false, [], 0⟩, biascmd := 0x8000000000000003 })) fun t =>
      (t.host.hostBias, t.host.biascmd)) = some ([3], 3) := by decide +kernel
theorem test_snoop : (let s := modHost base fun h => { h with flip := some ⟨3, true, [96], 0⟩, hostBias := [3], biascmd := 0x8000000000040003 }
    (next (exec (.biasSnoopResponse 96 true (List.replicate 128 5)) s) fun t => (memAt t 0x3000 2, t.host.hostBias, t.host.biascmd)) =
      some (0x0505, [], 0x40003) ∧
    (next (exec (.biasSnoopTimeout 96) { s with time := 120000001 }) fun t => (t.host.hostBias, t.host.biascmd)) = some ([], 0x4000000000040003)) := by
  decide +kernel
theorem test_host_window : (next (exec (.hostWindowAccess true (hostBase + 0x80) 4 0x01020304) base) fun t => memAt t (hostBase + 0x80) 4) = some 0x01020304 ∧
    (next (exec (.hostWindowAccess true 0x5000 1 7) base) fun t => memAt t 0x5000 1) = some 7 := by decide +kernel
theorem test_migration : (next (exec (.migToHost 7 0x20000 9) base) fun t => t.host.migResult) = some 2 ∧
    (next (exec (.migPinRelease 1 0x10000) base) fun t => t.host.migResult) = some 1 ∧
    (next (exec (.migToDevice 1 0x10000) base) fun t => t.host.migResult) = some 0 := by decide +kernel

/-- R405: results OK and refused, in word 0 of the response. -/
theorem test_mailbox : ([Instr.domain 1 2, .domain 2 2, .stage 2 5 true 99, .commit 2 5, .unknownMailboxCommand 9].map fun i => next (exec i base) fun t =>
    (t.host.mboxReq.headD 0, t.host.mboxResp.headD 0)) = [some (1, 0), some (1, 1), some (3, 0), some (4, 1), some (9, 2)] := by decide +kernel
theorem test_spdm : ([Instr.getVersion, .getCapabilities, .negotiateAlgorithms, .getDigests, .getCertificate 0, .challenge 0 5].map fun i =>
    next (exec i base) fun t => t.host.spdm.headD 0) = [some 1, some 2, some 3, some 4, some 5, some 6] ∧
    (next (exec (.getMeasurements 2) (modHost base fun h => { h with measurements := [(2, 7)] })) fun t => t.host.spdm.take 2) = some [7, 2] := by decide +kernel

/-- R342: what waits is sent in sequence, an acknowledged flit leaves the replay buffer, and a NAK replays the rest. -/
theorem test_replay_buffer :
    let l : LinkPort := ⟨4095, 0, 4094, [], [], 0, 0, false, none, 0, 0, [], 0, 0, 0, 0, 0, 0⟩
    let m := l.drain [(3, 1, [1]), (3, 1, [2])]
    (m.replay.map Flit.seq = [4095, 0] ∧ m.nextSeq = 1 ∧ m.flitsTx = 2) ∧
    ((m.ackTo 4095).replay.map Flit.seq = [0] ∧ (m.ackTo 5).replay.length = 2) ∧
    ((m.nak 4095).replayed = 1 ∧ (m.nak 4095).nakAt = 4095) := by decide +kernel

/-! ### States that meet the hypotheses of the clauses about refusals -/

/-- What the checks of a form ask in a state whose wave has these registers. -/
def formIn (form : ObjForm) (s : State) : Bool :=
  (getWave s 4).any fun w => stands s w [] && passes w (form.info w []) []

/-- The form that names a pair and a word, pair or nothing, with and without a value. -/
def formOf (val priv : Bool) (a : Nat) (bs : List RegRun) : ObjForm :=
  { cls := 27, d := 40, val := val, rs := pairOf a :: bs, da := [pairOf a], db := bs, priv := priv }

/-- A state whose region has no more objects, and what making an object in it fails with. -/
def poor (s : State) : State := modRegion s 1 fun g => { g with objq := 0 }
def makingFails (s : State) (type : Nat) : Option Nat :=
  match makeObject s type 1 (typeRights type) 0 true with
  | .error st => some st
  | .ok _ => none

/-- The state after a descriptor has been read, and whether it cannot be. -/
def readOf (s : State) (va n : Nat) : State × Bool :=
  match fetchBytes s (effPtroot s 1) 3 va n with
  | .ok _ t => (t, false)
  | .bad t => (t, true)
  | _ => (s, false)

/-- wspawn at a misaligned PC, in a gang without room, and without an object; wexit of a wave that has ended and of one in S mode;
rspawn of a descriptor that is misaligned, cannot be read, and is refused. -/
theorem witness_failing_waves :
    (let roomy := fun (f : Wave → Wave) => modGang (objState fun w => f (handles w)) 3 fun g => { g with regg := 8 }
     let spawn := formOf true false 22 [pairOf 24]
     formIn spawn (roomy (ss 22 [0x10481])) && formIn spawn (objState handles) && formIn spawn (poor (roomy id)) &&
       (fget (objState handles).gangs 3).any (fun g => decide (g.regg * 32768 < sumBy Wave.poolBytes ((gangWaves (objState handles) 3).map Prod.snd) +
         (handles wave0).poolBytes)) && makingFails (poor (roomy id)) tWAVE == some 11) = true ∧
    ([(true, Priv.u), (false, Priv.s)].all fun p =>
      let f := fun w => ss 28 (handle 10 2 25) (handles w)
      let s := { objState f with
        waves := [(4, f wave0), (24, { wave0 with idx := 1, ended := p.1, priv := p.2 })]
        entries := (objState f).entries ++ [(10, ⟨2, 24, 25, 1, 0, 0⟩)] }
      formIn (formOf false false 28 []) s && (match checkHandle s 1 ((f wave0).readS64 28) [tWAVE] rADMIN with
        | .ok e => e.obj == 24
        | .error _ => false)) = true ∧
    ([0x10504, 0x90000000, 0x10500].all fun va => formIn (formOf true false 24 []) (objState fun w => ss 24 [va] (handles w))) = true ∧
    (readOf (objState handles) 0x90000000 32).2 = true ∧
    ((fetched (poor (objState handles)) 0x10500 32).any fun p => match launchRange p.2 ⟨effPtroot (objState handles) 1, 3⟩ 1 1 0 (fieldAt p.1 0 8)
        (fieldAt p.1 8 8) (fieldAt p.1 16 8) (fieldAt p.1 24 8) (0, 0) none with
      | .refused _ st => st == 11
      | _ => false) = true := by decide +kernel

/-- No object left and no entry left; a mask that is too wide, a holder that is no region below, an item and a member that do not
exist, a member that is none, one whose handle is stale, and a set that is full. -/
theorem witness_failing_handles :
    (let s := objState handles
     !mayCharge (poor s) .objects 1 1 && mayCharge s .objects 1 1 && formIn { cls := 27, d := 40, val := true } (poor s) &&
       makingFails (poor s) tTIMER == some 11 && makingFails (poor s) tWAITSET == some 11) = true ∧
    (let dup := formOf true false 8 [.s 28 1, pairOf 30]
     let set := formOf true false 8 [.s 28 6]
     let s := fun (l : List Word) => objState fun w => ss 28 l (handles w)
     let lower := fun (l : List Word) =>
       { s l with
         regions := (s l).regions ++ [(25, { loadedRegion with depth := 1, index := 9 })]
         entries := (s l).entries ++ [(9, ⟨1, 25, 25, 1, 0, 0⟩)] }
     formIn dup (s [256]) && formIn dup (lower ([2, 0] ++ handle 9 1 25)) && !within (lower [2]) 25 1 && formIn dup (s [2]) &&
       formIn (formOf true false 12 [.s 28 1]) (s [200]) && (itemOf (s [200]) ⟨5, 22, 31, 1, 0, 0⟩ 200).isNone &&
       formIn (formOf false false 8 [.s 28 1]) (s [3]) && (fget (fgetD (s [3]).waitsets 20 []) 3).isNone &&
       formIn set (s [4, 1]) && (parseMember (s [4, 1]) (ss 28 [4, 1] (handles wave0)) 28).isNone &&
       formIn set (s [2, 0, 99, 0x700]) && (memberHandle (s []) 1 ⟨2, 0x70000000063, 0, 0, 0⟩).isSome && formIn set (s [4, 0, 0, 0, 5, 0]) &&
       (freeKey ((numsFrom 0 32).map fun i => (i, (⟨2, 0, 0, 0, 0⟩ : Member))) 32 0) == 32) = true := by decide +kernel

/-- Why a send or a grant is refused; and the ports and names that cannot be made. -/
theorem witness_failing_ports :
    (let send := fun (grant : Bool) => ({ cls := 27, d := 40, rs := blockReads grant 48 false, named := [.s 48 16], da := blockReads grant 48 false } : ObjForm)
     let full := fun (s : State) => modRegion { s with ports := fmod s.ports 22 fun p => { p with cap := 1 } } 1 fun g => { g with msgpool := 0 }
     let g := grantState (ss 48 [9, 0, 0x10000, 0, 0x10001])
     let here := fun (s : State) (va n : Nat) (rd : Bool) => match getWave s 4 with
       | none => none
       | some w => match grantHere s 1 22 (blockMsg s w 48 false) ⟨va, n, rd, false⟩ with
         | .fail st => some (st, false)
         | .failed _ st => some (st, true)
         | _ => none
     formIn (send false) (full (slotState (ss 48 [9]))) && !isOk (sendHere (full (slotState (ss 48 [9]))) 22 ⟨1, 2, false, [3, 4, 5, 6], 0, 0⟩) &&
       portDead { slotState id with ports := [] } 22 && [0x10001, 0x10000].all (fun va => formIn (send true) (grantState (ss 48 [9, 0, va, 0, 1]))) &&
       formIn (send true) g && here g 0x10000 2 true == some (12, false) && here g 0x10000 1 false == some (12, false) &&
       here g 0x90000 1 true == some (12, true) && here (full g) 0x10000 1 true == some (5, true) && !portDead g 22) = true ∧
    (let s := slotState id
     formIn { cls := 27, d := 40, ws := [.s 48 24] } { s with ports := fmod s.ports 22 fun p => { p with queue := [] } } &&
       ((fetched s 0x10540 32).any fun p => (parsePort p.1 1 0).isNone) && makingFails (poor s) tPORT == some 11 &&
       (resolveName s 0x10440).isNone && (resolveName { s with names := [(0x10440, ⟨0, 99, 0, true, false⟩)] } 0x10440).any (bindingDead s) &&
       (resolveName { s with names := [(0x10440, ⟨0, 22, 0, true, false⟩)] } 0x10440).any (fun b => !bindingDead s b) &&
       makingFails (poor s) tPROXY == some 11 && formIn (formOf true false 20 []) (poor s) && formIn (formOf false false 12 [pairOf 20]) s) = true := by
  decide +kernel

/-- Ranges and charges that anew refuses, segments that are sealed and freed, and a tail that does not exist. -/
theorem witness_failing_segments :
    (let new := formOf true false 26 [.s 30 1]
     let s := fun (base n : Word) => objState fun w => ss 26 [base, 0, 0, 0, n] (handles w)
     [((0x40001 : Word), (2 : Word)), (0x40000, 0), (0x40000, 65537), (0x10000, 1), (0x40000, 2)].all (fun p => formIn new (s p.1 p.2)) &&
       !rangeUnmapped (s 0x10000 1) (effPtroot base 1) 0x10000 1 && rangeUnmapped (s 0x40000 2) (effPtroot base 1) 0x40000 2 &&
       !mayCharge (modRegion (s 0x40000 2) 1 fun g => { g with hbmp := 1 }) .hbm 1 2 && makingFails (poor (s 0x40000 2)) tSEGMENT == some 11 &&
       (takeFrames { s 0x40000 2 with hbmNext := (numsFrom 0 4).map fun d => (d, Config.hbmPages) } 0 2 []).isNone) = true ∧
    ([1, 2].all fun st => formIn (formOf false false 14 []) { objState handles with
      segments := fmod (objState handles).segments 9 fun g => { g with status := st } }) = true ∧
    formIn (formOf true false 14 [.s 28 1]) (objState fun w => ss 28 [2] (handles w)) = true := by decide +kernel

/-- Regions that cannot be made or set; waves that are not there, are being saved, and are not held; and selectors, entries and
ranges that name nothing. -/
theorem witness_failing_supervisor :
    (let s := fun (l : List Word) => superState (ss 28 l)
     let rest := [0, 0, 14, 0, 3, 0]
     [0x10441, 0x90000000, 0x10440].all (fun va => formIn (formOf true true 18 [pairOf 28]) (s [va])) && (readOf (s []) 0x90000000 64).2 &&
       ((fetched (s []) 0x10440 64).any fun p => (regionOfImage (leNat p.1) 1 1 0).isNone) && formIn (formOf false true 18 [.s 32 1, .s 34 2]) (s rest) &&
       formIn (formOf false true 28 [.s 32 1, .s 34 2]) (s (handle 9 1 25 ++ rest)) && within (s []) 25 1 && !isOk (setRegion (s []) 25 14 3) &&
       !isOk (setRegion (s []) 25 15 0)) = true ∧
    (let two : ObjForm := { cls := 28, d := 40, val := true, rs := [.s 28 1, .s 32 1], da := [.s 28 1], db := [.s 32 1], priv := true }
     let pair : ObjForm := { cls := 28, d := 40, val := true, rs := [pairOf 28], da := [pairOf 28], priv := true }
     let named := fun (s : State) (n : Word) => (getWave s 4).any fun w =>
       isOk (targetWave (sees 4 (ss 28 [n] w) 0x10000 0xFFFFFFFF [] (two.info w [])) s 28)
     let s := superState id
     let busy := modWave s 24 fun w => { w with inSave := true, priv := .s }
     formIn two s && formIn pair s && !named s 5 && !named busy 1 && named s 1 && named s 0 && (parseSelector wave0 0xFFFFFFFF).isNone &&
       (parseSelector wave0 (6 * 2 ^ 28 + 0x0C * 2 ^ 16)).isSome && !srWritable 0x0C && wave0.log.isEmpty && !wave0.inSave && !wave0.inRestore &&
       formIn { cls := 28, d := 40, priv := true } s) = true := by decide +kernel

/-- Packets that are refused: a handle of no region, a launch refused, words that no page holds, a region that cannot be made or set, and
a space that is not the region's own. -/
theorem witness_failing_packets :
    (let bad := 0x0019010000000063
     ([[1, 0, 2, 0, 0x10540, 0, bad], [1, 0, 0, 0, 0x10540, 0, 0], [2, 0x90000, 1, 3], [3, 0x90000, 1], [5, 0, bad, 0x200, 0, 0x300], [5, 1, bad, 12, 7],
        [5, 2, bad], [5, 0, root25, 0x200, 0, 0x300], [5, 1, root25, 15, 7], [6, bad, 0, 0x100000], [7, bad, 0x200, 1]].all fun ws =>
        offers (packetState ws) == some true) && !isOk (packetRegion (packetState [0]) 1 bad rADMIN) &&
      ([Acc.read, .write].all fun k => match packetReach (packetState [0]) 1 0x90000 8 k with
        | .fail .. => true
        | _ => false) && !isOk (createRegion (packetState [0]) 25 1 0 (hostBytes (packetState [0]) 0x200 64)) &&
      !isOk (setRegion (packetState [0]) 25 15 7) && !ownsSpace (modRegion (packetState [0]) 25 fun g => { g with ovr := 0, parent := some 1 }) 25 &&
      (match launchRange (packetState [0]) ⟨effPtroot (packetState [0]) 1, 0⟩ 1 1 0 0 2 1 0x90000 (0, 0) (some 40) with
       | .refused _ st => st == 12
       | _ => false) &&
      (match restorePage (leafState (pSet (hbmLeaf 0x6000 true false false) 6 true)) 0x50000000 1 0x20000 [] with
       | .error st => st == 7
       | _ => false)) = true := by decide +kernel

/-! ### States that meet the hypotheses of further clauses about faults, waits and the fabric -/

/-- A full log; and loads in S mode that can and cannot be resolved, and one of a page that moves. -/
theorem witness_no_log :
    ready { wave0 with log := List.replicate 4 heldLoad } [] (mvInfo 18 (.load 4 false) 1 9 3 4 wave0 []) = true ∧
    (let s := memState fun w => { aimed w with priv := .s }
     let w := { aimed wave0 with priv := .s }
     let e := fun (sp : BitVec 5) => (sees 4 w 0x10000 0xFFFFFFFF [] (mvInfo 18 (.load 4 false) 1 6 2 sp w [])).mvEntry 18 4 (.load 4 false) 1 6 2 sp
     let t := { s with mem := setBytes s.mem 0x50030018 (leBytes 8 (pSet (pField (hbmLeaf 0x1000005 true false false) 8 2 1) 10 true).toNat) }
     stands s w [] && passes w (mvInfo 18 (.load 4 false) 1 6 2 8 w []) [] && (memCheck s w (e 8) (.load 4 false) 6).isNone &&
       reachAll s w (rootOf s w) (e 8) (.load 4 false) == .resolvable 0 0x30000 && reachAll s w (rootOf s w) (e 10) (.load 4 false) == .fail cPAGE 0 0 &&
       reachAll t w (rootOf t w) (e 8) (.load 4 false) == .stall) = true := by decide +kernel

/-- A flush with a misaligned base, and one with a misaligned length. -/
theorem witness_misaligned_flush : ([[(0x10401 : Word), 0, 0x80], [0x10400, 0, 0x81]].all fun l =>
    ready (ss 8 l wave0) [] (exInfo 26 [.s 8 2, .s 10 1] [.s 5 1] [.s 8 2] [.s 10 1] false)) = true := by decide +kernel

/-- A copy of two chunks in context 1, running, stopped, and re-entered stopped. -/
theorem witness_progress_writes : ([(false, false), (true, false), (false, true)].all fun p =>
    let s := modCtx (workingState 1 { blank 24 0 with ta := 0x90000, tb := 0x10400, shape := 0x21000 }) 3 1 fun c => { c with stopped := p.1, retry := p.2 }
    (engineOp s 3 1 List.head?).any fun x => x.2.1.stopped == p.1 && x.2.1.retry == p.2 && decide (1 < x.2.2.chunks)) = true := by decide +kernel

/-- R373: what is added stands among what is pending; and a cohort whose wave has a trap pending and is preempted. -/
theorem witness_pending_order :
    (let s := pendingState 0x14 0x10100
     (getWave (addPending (addPending s 4 ⟨60, 1, 0, none, 0, none⟩) 4 ⟨30, 2, 0, none, 0, none⟩) 4).map (fun w => w.pend.map Pending.order) =
       some [10, 30, 60] ∧
     (fget s.cohorts 2).any (fun k => !k.preempted && k.resident && !k.ended && k.gangs.contains 3) = true ∧
     (getWave s 4).any (fun w => w.gang == 3 && decide (w.idx < 32) && !w.ended) = true) := by decide +kernel

/-- Fetches past the last address, of no page, of a page that may not run, of one granted away and of one that moves. -/
theorem witness_fetch_traps :
    (let s := fun (pc : DWord) => setWave (memState id) 4 { wave0 with pcs := splat pc }
     let ends := fun (s : State) (va : Nat) => match translate s 0x50000000 va 4 .fetch ⟨0, 0⟩ with
       | .fail c => c
       | .ok .. => 100
       | _ => 200
     let put := fun (e : DWord) => { base with mem := setBytes base.mem 0x50030010 (leBytes 8 e.toNat) }
     let leaf := pSet (hbmLeaf 0x6000 true false false) 2 true
     (getWave (s 0xFFFF800000000000) 4).any (fun w => w.front.isSome) = true ∧ walkHeld base 0x50000000 0x90000 = false ∧
     [ends base 0x90000, ends (put (hbmLeaf 0x6000 true false false)) 0x20000, ends (put (pSet leaf 6 true)) 0x20000, ends (put (pSet leaf 10 true)) 0x20000,
       ends (put leaf) 0x20000] = [7, 8, 0x0B, 200, 100]) := by decide +kernel

/-- What was noted of a group, below and above what is satisfied now. -/
theorem witness_noted_members : (let g : Group := ⟨1, .inline ⟨3, 0x20, 0, 0, 0⟩, 0, some (2, 0)⟩
    (g.first none).map WaitResult.idx = some 2 ∧ (g.first (some ⟨0, 3, none⟩)).map WaitResult.idx = some 2 ∧
    (g.first (some ⟨0, 1, none⟩)).map WaitResult.idx = some 1 ∧
    (getWave (parkedState 3) 4).any (fun w => canWake (parkedState 3) w && w.groups.length == 1) = true) := by decide +kernel

/-- A reservation whose landing slot has its tables in a page that a checkpoint has still to copy, and none. -/
theorem witness_landing : ([[2], []].map fun pend =>
    let s := modRegion { fabricState with mem := setBytes base.mem 0x50030010 (leBytes 8 (hbmLeaf 0x5000 true false false).toNat) } 1 fun g => { g with
      ckRun := some ⟨0, pend, [], 0, 0, 64, 65544, false, none⟩ }
    (landingHeld s ⟨3, 0, 22, 0, ⟨1, 2, false, [], 0, 0⟩, [0x6001]⟩, ckptHolds s 0x5000)) = [(true, true), (false, false)] := by decide +kernel

/-- Pages that a move, a fill and a command must leave while a checkpoint has still to copy them. -/
theorem witness_held_pages : (let held := fun (s : State) => modRegion s 1 fun g => { g with ckRun := some ⟨0, [2], [], 0, 0, 64, 65544, false, none⟩ }
    ckptHolds (held (leafState (hbmLeaf 0x6000 true false false))) 0x6000 && !ckptHolds (leafState (hbmLeaf 0x6000 true false false)) 0x6000 &&
    (migrationOf (held (movingState (hbmLeaf 0x6000 true false false) none)) 0x50000000 0x20000).any (fun x =>
      moveWaits (held (movingState (hbmLeaf 0x6000 true false false) none)) x.1 x.2) &&
    (migrationOf (movingState hostLeaf none) 0x50000000 0x20000).any fun x => !moveWaits (movingState hostLeaf none) x.1 x.2) = true := by decide +kernel

/-- A fault of a wave that waits is resolved; and one that is not. -/
theorem witness_resolved_pages : (let s := leafState deepLeaf
    unresolved s 0x50000000 0x20000 && !unresolved (leafState (hbmLeaf 0x6000 true false false)) 0x50000000 0x20000) = true := by decide +kernel

/-- A bias command for a granule that the host holds and for one it does not, in each direction; a queue that offers a packet; and a meter
that has been read in this 10 µs and one that has not. -/
theorem witness_flips_and_meters : ([(true, [3]), (true, []), (false, [3]), (false, [])].all fun (p : Bool × List Nat) =>
      let s := modHost base fun h => { h with biascmd := if p.1 then 0x8000000000040003 else 0x8000000000000003, hostBias := p.2 }
      s.host.biascmd.getLsbD 63 && s.host.flip.isNone && s.host.biascmd.getLsbD 18 == p.1) = true ∧
    ((nextPacket (packetState [0]) 5).isSome && (nextPacket (modHost (packetState [0]) fun h => { h with bootstate := 2 }) 5).isNone) = true ∧
    (let s := { base with time := base.host.resetAt + 120000 }
     decide (fgetD s.metered 0 0 < (s.time - s.host.resetAt) / 120000) &&
       decide ((s.time - s.host.resetAt) / 120000 ≤ fgetD { s with metered := [(0, 1)] }.metered 0 0)) = true := by decide +kernel

/-- R98: a step runs the word that stands where the wave fetches. -/
theorem test_step_runs : (match step (State.reset.withFetchWord 32 0x68A04100) with
    | .next t => (getWave t 4).map fun w => (w.pc 0).toNat
    | _ => none) = some 0x10004 := by decide +kernel

end Sys2Proof.Tests
end

/-! SUPPORT. What the host reads of the register window where nothing has been written (spec/25 R393, Tables 25.2 to 25.4, 25.8), and
O56. -/

namespace Sys2Proof.Machine

open Sys2Proof

/-! ### Doublewords of the register window where nothing has been written -/

/-- With no granule in host bias every doubleword of the bias bitmap is all ones (spec/25 R395). -/
theorem biasDword_of_no_host_bias {s : State} (h : s.host.hostBias = []) (w : Nat) : biasDword s w = 2 ^ 64 - 1 := by
  simp [biasDword, h, numsFrom, bitNum]

theorem getQueue_of_no_queues {s : State} (hq : s.host.queues = []) (ht : s.host.trip = false) (q : Nat) :
    getQueue s q = ⟨0, 0, 0, 0, 0, false, false, false, 0⟩ := by
  simp [getQueue, hq, fgetD, fget, blankQueue, ht]

theorem queueDword_of_no_queues {s : State} (hq : s.host.queues = []) (ht : s.host.trip = false) (q i : Nat) :
    queueDword s q i = 0 := by
  unfold queueDword
  rw [getQueue_of_no_queues hq ht]
  rcases i with _ | _ | _ | i <;> rfl

theorem linkDword_of_no_links {s : State} (h : s.links = []) (p i : Nat) : linkDword s p i = 0 := by
  simp [linkDword, h, fget]

theorem replicate_zero_getD (n i : Nat) : (List.replicate n (0 : DWord)).getD i 0 = 0 := by
  rw [List.getD_eq_getElem?_getD, List.getElem?_replicate]
  split <;> rfl

theorem commandDword_of_zero_registers {s : State}
    (hb : s.host.biascmd = 0) (hr : s.host.migRegion = 0) (hv : s.host.migVa = 0) (hc : s.host.migCmd = 0)
    (hm : s.host.migResult = 0) (hq : s.host.mboxReq = List.replicate 8 0) (hp : s.host.mboxResp = List.replicate 8 0)
    (o : Nat) : commandDword s o = 0 := by
  simp only [commandDword, hb, hr, hv, hc, hm, hq, hp, replicate_zero_getD]
  simp

/-- Before the window is first open nothing of it but the identity block reads other than zero (R393). -/
theorem pfDword_closed {s : State} {off : Nat} (h : s.host.everReady = false) (ho : 0x10000 ≤ off) : pfDword s off = 0 := by
  simp [pfDword, h, Nat.not_lt.mpr ho]

theorem vfDword_closed {s : State} (h : s.host.everReady = false) (fn off : Nat) : vfDword s fn off = 0 := by
  simp [vfDword, h]

/-! ### Reads of the window (R393) -/

/-- A read of a doubleword that is zero gives zero, whatever part of it is read. -/
theorem barRead_pf_of_zero {s : State} {off : Nat} (h : pfDword s (off / 8 * 8) = 0) (size : Nat) :
    barRead s 0 off size = 0 := by
  simp [barRead, h]

/-- A read of an aligned doubleword gives it. -/
theorem barRead_pf_dword {s : State} {off d : Nat} (ha : off % 8 = 0) (hd : pfDword s off = d) (hs : d < 2 ^ 64) :
    barRead s 0 off 8 = d := by
  have he : off / 8 * 8 = off := by omega
  simpa [barRead, ha, he, hd] using hs

theorem barRead_closed {s : State} {fn off size : Nat} (h : s.host.everReady = false) (ho : 0x10000 ≤ off ∨ fn ≠ 0) :
    barRead s fn off size = 0 := by
  by_cases hf : fn = 0
  · subst hf
    exact barRead_pf_of_zero (pfDword_closed h (by omega)) size
  · simp [barRead, hf, vfDword_closed h]

/-! ### The blocks of the window, once it has been open (Table 25.2) -/

section
variable {s : State} {off : Nat} (ready : s.host.everReady = true)
include ready

theorem pfDword_commands (lo : 0x30000 ≤ off) (hi : off < 0x40000) : pfDword s off = commandDword s (off - 0x30000) := by
  unfold pfDword
  rw [if_neg (by omega), if_neg (by simp [ready]), if_neg (by omega), if_neg (by omega), if_neg (by omega), if_pos ⟨lo, hi⟩]

theorem pfDword_queues (lo : 0x100000 ≤ off) (hi : off < 0x120000) :
    pfDword s off = queueDword s ((off - 0x100000) / 32) (off / 8 % 4) := by
  unfold pfDword
  rw [if_neg (by omega), if_neg (by simp [ready]), if_neg (by omega), if_neg (by omega), if_neg (by omega),
    if_neg (by omega), if_pos ⟨lo, hi⟩]

theorem pfDword_links (lo : 0x600000 ≤ off) (hi : off < 0x600400) :
    pfDword s off = linkDword s ((off - 0x600000) / 64) (off / 8 % 8) := by
  unfold pfDword
  rw [if_neg (by omega), if_neg (by simp [ready]), if_neg (by omega), if_neg (by omega), if_neg (by omega),
    if_neg (by omega), if_neg (by omega), if_neg (by omega), if_neg (by omega), if_neg (by omega), if_pos ⟨lo, hi⟩]

theorem pfDword_bias (lo : 0x800000 ≤ off) (hi : off < 0x808000) : pfDword s off = biasDword s ((off - 0x800000) / 8) := by
  unfold pfDword
  rw [if_neg (by omega), if_neg (by simp [ready]), if_neg (by omega), if_neg (by omega), if_neg (by omega),
    if_neg (by omega), if_neg (by omega), if_neg (by omega), if_neg (by omega), if_neg (by omega), if_neg (by omega),
    if_pos ⟨lo, hi⟩]

end

/-! ### The window at reset -/

/-- The module at reset, but with its register window open. -/
def openedReset : State :=
  { State.reset with host := { State.reset.host with everReady := true, bootstate := 3 } }

theorem openedReset_reads_commands {o : Nat} (h : o < 0x10000) : barRead openedReset 0 (0x30000 + o) 8 = 0 := by
  apply barRead_pf_of_zero
  rw [pfDword_commands rfl (by omega) (by omega)]
  exact commandDword_of_zero_registers rfl rfl rfl rfl rfl rfl rfl _

theorem openedReset_reads_queues {o : Nat} (h : o < 0x20000) : barRead openedReset 0 (0x100000 + o) 8 = 0 := by
  apply barRead_pf_of_zero
  rw [pfDword_queues rfl (by omega) (by omega)]
  exact queueDword_of_no_queues rfl rfl _ _

theorem openedReset_reads_links {o : Nat} (h : o < 0x400) : barRead openedReset 0 (0x600000 + o) 8 = 0 := by
  apply barRead_pf_of_zero
  rw [pfDword_links rfl (by omega) (by omega)]
  exact linkDword_of_no_links rfl _ _

theorem openedReset_reads_bias {g : Nat} (h : g < 4096) : barRead openedReset 0 (0x800000 + 8 * g) 8 = 2 ^ 64 - 1 := by
  apply barRead_pf_dword (by omega) _ (by omega)
  rw [pfDword_bias rfl (by omega) (by omega)]
  exact biasDword_of_no_host_bias rfl _

/-- The memory and the scratchpads at reset are in canonical form, and the parameters within their limits. -/
theorem reset_invariants : State.reset.memoryOk ∧ State.reset.spadsOk ∧ State.reset.paramsOk := by
  refine ⟨memoryOk_reset, fun p hp => ?_, ?_⟩
  · cases hp
  · unfold State.paramsOk
    decide

/-- Settles O56: the fields of the reset state by evaluation, each block of the window by what it reads where nothing has been
written. -/
theorem resetMachine : Obligations.ResetMachine := by
  unfold Obligations.ResetMachine
  obtain ⟨memory, spads, params⟩ := reset_invariants
  refine ⟨rfl, rfl, rfl, rfl, rfl, rfl, rfl, rfl, rfl, rfl, rfl, rfl, rfl, rfl, rfl,
    getQueue_of_no_queues rfl rfl, fun i hi => barRead_closed rfl (.inl (by omega)), ?_,
    biasDword_of_no_host_bias rfl, memory, spads, params⟩
  refine ⟨by decide, by decide, by decide, by decide, by decide, by decide, by decide, by decide,
    fun fn off size h => barRead_closed rfl h, by decide, by decide, by decide, by decide,
    fun o h => openedReset_reads_commands h, fun o h => openedReset_reads_queues h,
    fun o h => openedReset_reads_links h, fun g h => openedReset_reads_bias h⟩

end Sys2Proof.Machine

/-! SUPPORT. The end of a firmware restart (spec/25 R404), and O52. -/

namespace Sys2Proof.Machine

open Sys2Proof

/-! ### The end of a firmware restart (R404) -/

theorem exec_firmwareRestartDone {s : State} (h : s.host.bootstate = 4) :
    exec .firmwareRestartDone s = .next (serveMig (beginFlip
      (modHost (s.host.heldWords.foldl writeCompletion s) fun h => { h with bootstate := 3, heldWords := [] }))) := by
  have meaning : exec .firmwareRestartDone s = execFirmwareRestartDone s := rfl
  simp [meaning, execFirmwareRestartDone, h]

theorem beginFlip_idle {s : State} (h : biasBusy s = false) : beginFlip s = s := by
  simp [beginFlip, h]

/-- A command of MIGCMD that names no region ends with result 2 (R396), whether or not the result word shows it as running. -/
theorem serveMig_no_region {s : State} {j : MigJob} (hm : s.host.mig = some j) (hb : s.host.bootstate ≠ 4)
    (hg : j.going = none) (hr : regionOfIndex s j.region = none) : serveMig s = migDone s 2 := by
  simp [serveMig, hm, hb, hg, hr]

/-- A module in a firmware restart that keeps a command of MIGCMD while the result word's BUSY is 0. -/
def restartWithCommand : State :=
  { State.reset with host := { HostState.reset with bootstate := 4, mig := some ⟨0, 0, 0, 0, none⟩ } }

/-- At the end of its restart the command it keeps is served, and ends with result 2. -/
theorem restartWithCommand_done : exec .firmwareRestartDone restartWithCommand =
    .next (migDone (modHost restartWithCommand fun h => { h with bootstate := 3, heldWords := [] }) 2) := by
  rw [exec_firmwareRestartDone rfl, beginFlip_idle rfl, serveMig_no_region rfl (by decide) rfl rfl]
  rfl

/-- Refutes O52: its clause on a restart's end with BUSY 0 in BIASCMD and in MIGCMD's result word says that only BOOTSTATE and the
words held change, but what the end serves is the command kept in `mig`, and nothing in the clause says that none is kept. In
`restartWithCommand` one is, and it ends with result 2. -/
theorem not_bootAndRestart : ¬ Obligations.BootAndRestart := by
  unfold Obligations.BootAndRestart
  rintro ⟨-, -, -, -, -, -, -, -, restartEnds, -⟩
  have ends := restartEnds restartWithCommand rfl rfl rfl
  rw [restartWithCommand_done] at ends
  injection ends with ends
  have results : (2 : DWord) = 0 := congrArg (fun t : State => t.host.migResult) ends
  exact absurd results (by decide)

end Sys2Proof.Machine

/-! SUPPORT. Fetch: the word a fetch reads, what its translation fails with, and how a fetch ends (spec/07 R98, R113; spec/11 R171, R188,
R197; spec/15 R271). -/

namespace Sys2Proof.Machine

open Sys2Proof

/-! ### Four bytes as a word (R98) -/

theorem shiftLeft_or_byte (x : Nat) (b : BitVec 8) : x <<< 8 ||| b.toNat = x * 256 + b.toNat := by
  rw [← Nat.shiftLeft_add_eq_or_of_lt b.isLt, Nat.shiftLeft_eq]

theorem word_of_four_bytes (a b c d : BitVec 8) : BitVec.ofNat 32 (leNat [a, b, c, d]) = wordOfBytes a b c d := by
  apply BitVec.eq_of_toNat_eq
  simp only [wordOfBytes, BitVec.toNat_append, leNat, BitVec.toNat_ofNat, shiftLeft_or_byte]
  omega

/-- The word that stands at a physical address, low byte first. -/
def wordNow (s : State) (pa : Nat) : Word := wordOfBytes (viewByte s pa) (viewByte s (pa + 1)) (viewByte s (pa + 2)) (viewByte s (pa + 3))

theorem ofNat_view_word (s : State) (pa : Nat) : BitVec.ofNat 32 (leNat ((numsFrom pa 4).map (viewByte s))) = wordNow s pa :=
  word_of_four_bytes ..

/-! ### Merges of the lines of a walk -/

theorem mergeAt_frame (s : State) (pa : Nat) : ∃ m p, (mergeAt s pa).1 = { s with mem := m, pool := p } := by
  unfold mergeAt
  split
  · exact ⟨s.mem, s.pool, rfl⟩
  · exact ⟨_, _, rfl⟩

theorem foldl_mergeAt_frame (l : List Nat) (s : State) :
    ∃ m p, l.foldl (fun s a => (mergeAt s a).1) s = { s with mem := m, pool := p } := by
  induction l generalizing s with
  | nil => exact ⟨s.mem, s.pool, rfl⟩
  | cons a t ih =>
    obtain ⟨m, p, h⟩ := mergeAt_frame s a
    rw [List.foldl_cons, h]
    exact ih { s with mem := m, pool := p }

theorem settleWalk_frame (s : State) (root : DWord) (va : Nat) : ∃ m p, settleWalk s root va = { s with mem := m, pool := p } := by
  unfold settleWalk
  split
  · exact ⟨s.mem, s.pool, rfl⟩
  · exact foldl_mergeAt_frame _ s

@[simp] theorem settleWalk_fetched (s : State) (root : DWord) (va : Nat) : (settleWalk s root va).fetched = s.fetched := by
  obtain ⟨m, p, h⟩ := settleWalk_frame s root va
  rw [h]

@[simp] theorem noteResident_fetched (s : State) (e : DWord) : (noteResident s e).fetched = s.fetched := by
  unfold noteResident
  split <;> rfl

@[simp] theorem fillTlb_fetched (s : State) (root : DWord) (va : Nat) (e : DWord) : (fillTlb s root va e).fetched = s.fetched := by
  simp [fillTlb]

/-! ### Translation of a fetch (R271) -/

section
variable {s : State} {root : DWord} {va n : Nat} {q : Asker}

theorem translate_unmapped {k : Acc} (hw : walkHeld s root va = false) (hl : lookup s root va q.lane = none)
    (hs : isStackVA va = false) : translate s root va n k q = .fail cPAGE := by
  simp [translate, hw, hl, hs]

variable {a f : Nat} {e : DWord} (hw : walkHeld s root va = false) (hl : lookup s root va q.lane = some (a, e, f))
  (ha : pAmber e = false)
include hw hl ha

theorem translate_migrating {k : Acc} (hm : pMig e = true) : translate s root va n k q = .stall := by
  simp [translate, hw, hl, ha, hm]

theorem translate_granted {k : Acc} (hm : pMig e = false) (hg : pGranted e = true) : translate s root va n k q = .fail cGRANTED := by
  simp [translate, hw, hl, ha, hm, hg]

theorem translate_fetch_not_executable (hm : pMig e = false) (hg : pGranted e = false) (hx : pX e = false) :
    translate s root va n .fetch q = .fail cPROT := by
  simp [translate, hw, hl, ha, hm, hg, hx]

end

/-! ### The word a fetch returns (R113) -/

section
variable {s : State} {gang va pa : Nat} {root : DWord}

/-- A gang that has fetched from the VA before gets, by choice 1, the word it then fetched from the same place. -/
theorem wordAt_of_fetched {p : Nat} {old : Word} (h : fget s.fetched (fetchKey gang va) = some (p, old)) :
    wordAt s gang va pa root = if p = pa ∧ Config.fetchesOld s.fresh va = 1 then old else wordNow s pa := by
  simp only [wordAt, h, ofNat_view_word]

/-- A gang that has not may get, by a choice above 1, the word that stood there when its range was accepted. -/
theorem wordAt_of_not_fetched (h : fget s.fetched (fetchKey gang va) = none) :
    wordAt s gang va pa root =
      if 1 < Config.fetchesOld s.fresh va then (acceptedWord s gang va pa root).getD (wordNow s pa) else wordNow s pa := by
  simp only [wordAt, h, ofNat_view_word]
  cases acceptedWord s gang va pa root <;> simp

/-- Where no older word is chosen a fetch returns what memory holds. -/
theorem wordAt_of_choice_zero (h : Config.fetchesOld s.fresh va = 0) : wordAt s gang va pa root = wordNow s pa := by
  cases hf : fget s.fetched (fetchKey gang va) with
  | none => simp [wordAt_of_not_fetched hf, h]
  | some x => simp [wordAt_of_fetched hf, h]

/-- The word a fetch returns, by the model's free choice (assumption log 20). -/
theorem wordAt_of_choice {word : Word} (h :
    (Config.fetchesOld s.fresh va = 0 ∧ word = wordNow s pa) ∨
    (Config.fetchesOld s.fresh va = 1 ∧ (fget s.fetched (fetchKey gang va) = some (pa, word) ∨
      (∀ old, fget s.fetched (fetchKey gang va) ≠ some (pa, old)) ∧ word = wordNow s pa)) ∨
    (1 < Config.fetchesOld s.fresh va ∧ (fget s.fetched (fetchKey gang va) ≠ none ∧ word = wordNow s pa ∨
      fget s.fetched (fetchKey gang va) = none ∧ word = (acceptedWord s gang va pa root).getD (wordNow s pa)))) :
    wordAt s gang va pa root = word := by
  rcases h with ⟨hc, rfl⟩ | ⟨hc, hl⟩ | ⟨hc, hl⟩
  · exact wordAt_of_choice_zero hc
  · rcases hl with hl | ⟨hl, rfl⟩
    · simp [wordAt_of_fetched hl, hc]
    · cases hf : fget s.fetched (fetchKey gang va) with
      | none => simp [wordAt_of_not_fetched hf, hc]
      | some x =>
        have hp : x.1 ≠ pa := fun e => hl x.2 (by rw [hf, ← e])
        simp [wordAt_of_fetched hf, hp]
  · rcases hl with ⟨hl, rfl⟩ | ⟨hl, rfl⟩
    · obtain ⟨x, hf⟩ := Option.ne_none_iff_exists'.mp hl
      simp [wordAt_of_fetched hf, Nat.ne_of_gt hc]
    · simp [wordAt_of_not_fetched hl, hc]

end

/-! ### How a fetch ends -/

/-- The address of the next word of a wave that stands at a chain with some words read (R107). -/
theorem fetchPC_of_front {w : Wave} {pc : DWord} {iss : Word} {ws : List Word} (hf : w.front = some (pc, iss, ws)) :
    w.fetchPC = some (pc, pc + BitVec.ofNat 64 (4 * ws.length)) := by
  simp [Wave.fetchPC, hf]

/-- While the operand log of a wave in U mode holds entries a fetch trap waits (R197). -/
theorem fetchTrap_held {w : Wave} (h : w.priv = .u ∧ w.log ≠ []) (s : State) (wid : Nat) (pc x : DWord) (c : Nat) :
    fetchTrap s wid w pc x c = .wait [] := by
  simp [fetchTrap, h]

theorem fetchTrap_taken {w : Wave} (h : ¬ (w.priv = .u ∧ w.log ≠ [])) (s : State) (wid : Nat) (pc x : DWord) (c : Nat) :
    fetchTrap s wid w pc x c = .trap (takeTrap s wid ⟨c, 64, pc, pc, x, false⟩) := by
  simpa [fetchTrap] using h

section
variable {s : State} {wid : Nat} {w : Wave} {pc x : DWord} (here : getWave s wid = some w)

include here in
theorem issueWave_of_fetchTrap {t : State} {c : Nat} (hf : fetchWord s wid w = fetchTrap t wid w pc x c) :
    (w.priv = .u ∧ w.log ≠ [] → issueWave s wid = .next { s with wants := [] }) ∧
    (¬ (w.priv = .u ∧ w.log ≠ []) → issueWave s wid = .next (takeTrap t wid ⟨c, 64, pc, pc, x, false⟩)) := by
  constructor <;> intro h
  · simp only [issueWave, here, hf, fetchTrap_held h]
  · simp only [issueWave, here, hf, fetchTrap_taken h]

variable (hp : w.fetchPC = some (pc, x))

include hp in
/-- A fetch at or above the last address traps (R171). -/
theorem fetchWord_above (hx : 0xFFFF800000000000 ≤ x.toNat) : fetchWord s wid w = fetchTrap s wid w pc x cAPERTURE := by
  simp only [fetchWord, hp, if_pos hx]

variable (hx : x.toNat < 0xFFFF800000000000)
include hp hx

theorem fetchWord_fails {c : Nat} (ht : translate s (effPtroot s (waveRegion s w)) x.toNat 4 .fetch ⟨waveDie s w, 0⟩ = .fail c) :
    fetchWord s wid w = fetchTrap (settleWalk s (effPtroot s (waveRegion s w)) x.toNat) wid w pc x c := by
  simp only [fetchWord, hp, if_neg (Nat.not_le.mpr hx), ht]

include here

/-- A fetch whose page is to be brought waits for it (R56). -/
theorem issueWave_waits (ht : translate s (effPtroot s (waveRegion s w)) x.toNat 4 .fetch ⟨waveDie s w, 0⟩ = .stall ∨
      translate s (effPtroot s (waveRegion s w)) x.toNat 4 .fetch ⟨waveDie s w, 0⟩ = .resolvable) :
    issueWave s wid = .next { s with wants := [x.toNat] } := by
  rcases ht with ht | ht <;> simp only [issueWave, here, fetchWord, hp, if_neg (Nat.not_le.mpr hx), ht]

/-- A fetch that reaches its word runs what the word decodes to (R98). -/
theorem issueWave_runs {pa a : Nat} {e : DWord} {word : Word}
    (ht : translate s (effPtroot s (waveRegion s w)) x.toNat 4 .fetch ⟨waveDie s w, 0⟩ = .ok pa a e)
    (hw : wordAt s w.gang x.toNat pa (effPtroot s (waveRegion s w)) = word) :
    issueWave s wid = exec (decodeWord word) { fillTlb s (effPtroot s (waveRegion s w)) x.toNat e with
      cur := some wid, fetched := fset s.fetched (fetchKey w.gang x.toNat) (pa, word) } := by
  simp only [issueWave, here, fetchWord, hp, if_neg (Nat.not_le.mpr hx), ht, hw, runWord, noteFetch, fillTlb_fetched]

end

end Sys2Proof.Machine

/-! SUPPORT. One step: the event of the agenda, the event due, the turns of the waves in the order of issue, and the end of a cycle
(spec/01 R15; spec/03 R37, R43, R55, R56; spec/21 R355). -/

namespace Sys2Proof.Machine

open Sys2Proof

/-! ### Every meaning answers (assumption log 59) -/

/-- No instruction or event stops the module: the meaning of each constructor is a next state. -/
theorem exec_answers (i : Instr) (s : State) : ∃ t, exec i s = .next t := by
  cases i <;> exact ⟨_, rfl⟩

theorem runDue_answers (e : Due) (s : State) : ∃ t, runDue e s = .next t := exec_answers e.instr s

theorem issueWave_answers (s : State) (wid : Nat) : ∃ t, issueWave s wid = .next t := by
  unfold issueWave
  split
  · exact ⟨s, rfl⟩
  · split
    · exact exec_answers _ _
    · exact ⟨_, rfl⟩
    · exact ⟨_, rfl⟩

/-! ### The turn of a wave (R43, R56) -/

section
variable {s t : State} {wid : Nat} (issues : issueWave s wid = .next t)
include issues

theorem waveTurn_moved (hm : moved s t wid = true) : waveTurn s wid = some (.next (markIssued s t wid)) := by
  simp only [waveTurn, issues, hm, if_true]

variable (hm : moved s t wid = false) {w : Wave} (here : getWave s wid = some w)
include hm here

theorem waveTurn_walks (hw : (settleWants s w t.wants).pool.length ≠ s.pool.length) :
    waveTurn s wid = some (.next (settleWants s w t.wants)) := by
  simp [waveTurn, issues, hm, here, hw]

theorem waveTurn_pages (hw : (settleWants s w t.wants).pool.length = s.pool.length) :
    waveTurn s wid = (wantedPage s w t.wants).map fun e => runDue e s := by
  simp [waveTurn, issues, hm, here, hw]

end

/-- At the turn of a wave nothing happens: its word does not issue, and it waits for no walk to be read and no page that can be
brought. -/
def IdleTurn (s : State) (wid : Nat) : Prop :=
  ∀ t, issueWave s wid = .next t → moved s t wid = false ∧
    ∀ w, getWave s wid = some w → (settleWants s w t.wants).pool.length = s.pool.length ∧ wantedPage s w t.wants = none

theorem waveTurn_idle {s : State} {wid : Nat} (h : IdleTurn s wid) : waveTurn s wid = none := by
  obtain ⟨t, issues⟩ := issueWave_answers s wid
  obtain ⟨hm, hw⟩ := h t issues
  cases here : getWave s wid with
  | none => simp [waveTurn, issues, hm, here]
  | some w =>
    obtain ⟨hp, hn⟩ := hw w here
    rw [waveTurn_pages issues hm here hp, hn]
    rfl

/-! ### The waves before it in the order of issue (R43, R55) -/

/-- A wave leaves its turn to the end of the fabric cycle: it, or a wave before it of its quadrant, is to return on a region event. -/
def LeavesTurn (s : State) (ahead : List Nat) (u : Nat) : Prop :=
  ∃ v ∈ ahead ++ [u], quadrantAt s v = quadrantAt s u ∧ contends s v = true

/-- Every wave of a list leaves its turn, or nothing happens at it. -/
def TurnsPass (s : State) (ahead before : List Nat) : Prop :=
  ∀ l u r, before = l ++ u :: r → LeavesTurn s (ahead ++ l) u ∨ IdleTurn s u

/-- The quadrants kept are those of the waves tried that are to return on a region event. -/
def KeepsQuadrants (s : State) (kept ahead : List Nat) : Prop :=
  ∀ q, q ∈ kept ↔ ∃ v ∈ ahead, quadrantAt s v = q ∧ contends s v = true

section
variable {s : State} {kept ahead : List Nat} {u : Nat} (hk : KeepsQuadrants s kept ahead)
include hk

theorem leavesTurn_iff : LeavesTurn s ahead u ↔ quadrantAt s u ∈ kept ∨ contends s u = true := by
  simp [LeavesTurn, hk (quadrantAt s u), or_and_right, exists_or]

theorem KeepsQuadrants.skip (h : quadrantAt s u ∈ kept ∨ contends s u = false) : KeepsQuadrants s kept (ahead ++ [u]) := by
  intro q
  simp only [List.mem_append, List.mem_singleton, or_and_right, exists_or, exists_eq_left, ← hk q]
  refine (or_iff_left_of_imp ?_).symm
  rintro ⟨rfl, hc⟩
  exact h.resolve_right (by simp [hc])

theorem KeepsQuadrants.add (h : contends s u = true) : KeepsQuadrants s (quadrantAt s u :: kept) (ahead ++ [u]) := by
  intro q
  rw [List.mem_cons, or_comm, eq_comm]
  simp only [List.mem_append, List.mem_singleton, or_and_right, exists_or, exists_eq_left, ← hk q, h, and_true]

theorem issueFirst_leaves (h : LeavesTurn s ahead u) (rest : List Nat) :
    ∃ kept', KeepsQuadrants s kept' (ahead ++ [u]) ∧ issueFirst s kept (u :: rest) = issueFirst s kept' rest := by
  by_cases hq : quadrantAt s u ∈ kept
  · exact ⟨kept, hk.skip (.inl hq), by simp [issueFirst, hq]⟩
  · have hc := ((leavesTurn_iff hk).mp h).resolve_left hq
    exact ⟨_, hk.add hc, by simp [issueFirst, hq, hc]⟩

theorem issueFirst_takes (h : ¬ LeavesTurn s ahead u) (rest : List Nat) :
    issueFirst s kept (u :: rest) = (waveTurn s u).or (issueFirst s kept rest) := by
  rw [leavesTurn_iff hk, not_or] at h
  obtain ⟨hq, hc⟩ := h
  cases ht : waveTurn s u <;> simp [issueFirst, hq, hc, ht]

theorem issueFirst_idle (hl : ¬ LeavesTurn s ahead u) (hi : IdleTurn s u) (rest : List Nat) :
    KeepsQuadrants s kept (ahead ++ [u]) ∧ issueFirst s kept (u :: rest) = issueFirst s kept rest := by
  refine ⟨hk.skip (.inr ?_), ?_⟩
  · rw [leavesTurn_iff hk, not_or] at hl
    simpa using hl.2
  · rw [issueFirst_takes hk hl, waveTurn_idle hi, Option.none_or]

end

/-- Waves at whose turns nothing happens change the choice by the quadrants they keep alone. -/
theorem issueFirst_passes {s : State} {kept ahead before : List Nat} (hk : KeepsQuadrants s kept ahead)
    (hp : TurnsPass s ahead before) (rest : List Nat) :
    ∃ kept', KeepsQuadrants s kept' (ahead ++ before) ∧ issueFirst s kept (before ++ rest) = issueFirst s kept' rest := by
  induction before generalizing kept ahead with
  | nil => exact ⟨kept, by simpa using hk, rfl⟩
  | cons u before ih =>
    have hu : ∃ kept', KeepsQuadrants s kept' (ahead ++ [u]) ∧
        issueFirst s kept (u :: (before ++ rest)) = issueFirst s kept' (before ++ rest) := by
      by_cases hl : LeavesTurn s ahead u
      · exact issueFirst_leaves hk hl _
      · have hi : IdleTurn s u := (hp [] u before rfl).resolve_left (by simpa using hl)
        exact ⟨kept, issueFirst_idle hk hl hi _⟩
    obtain ⟨kept1, hk1, e1⟩ := hu
    have hp1 : TurnsPass s (ahead ++ [u]) before := fun l v r e => by
      simpa using hp (u :: l) v r (by rw [e]; rfl)
    obtain ⟨kept2, hk2, e2⟩ := ih hk1 hp1
    exact ⟨kept2, by simpa using hk2, e1.trans e2⟩

theorem keepsQuadrants_nil (s : State) : KeepsQuadrants s [] [] := by simp [KeepsQuadrants]

/-- Where every wave passes, none issues. -/
theorem issueFirst_none {s : State} {l : List Nat} (hp : TurnsPass s [] l) : issueFirst s [] l = none := by
  obtain ⟨kept, -, e⟩ := issueFirst_passes (keepsQuadrants_nil s) hp []
  rw [List.append_nil] at e
  rw [e, issueFirst]

/-- The first wave that does not pass takes its turn. -/
theorem issueFirst_first {s : State} {before rest : List Nat} {wid : Nat} {o : Host.Outcome State Fault Refusal}
    (hp : TurnsPass s [] before) (hl : ¬ LeavesTurn s before wid) (ht : waveTurn s wid = some o) :
    issueFirst s [] (before ++ wid :: rest) = some o := by
  obtain ⟨kept, hk, e⟩ := issueFirst_passes (keepsQuadrants_nil s) hp (wid :: rest)
  rw [e, issueFirst_takes hk (by simpa using hl), ht, Option.some_or]

/-! ### What a step is, case by case -/

theorem step_agenda {s : State} {e : Instr} {rest : List (Nat × Instr)} (h : s.agenda = (0, e) :: rest) :
    step s = closeStep (exec e { s with agenda := rest }) := by
  simp only [step, h]

theorem step_alone {s : State} (h : ∀ e rest, s.agenda ≠ (0, e) :: rest) : step s = stepAlone s := by
  unfold step
  split
  · exact absurd ‹_› (h _ _)
  · rfl

theorem stepAlone_event {s : State} {e : Due} (hf : s.issued.contains fabricEnd = false) (hd : dueEvent s = some e) :
    stepAlone s = closeStep (runDue e s) := by
  simp only [stepAlone, hf, hd, Bool.false_eq_true, if_false]

theorem stepAlone_issue {s : State} {o : Host.Outcome State Fault Refusal} (hf : s.issued.contains fabricEnd = false)
    (hd : dueEvent s = none) (hi : issueFirst s [] (readyWaves s) = some o) : stepAlone s = closeStep o := by
  simp only [stepAlone, hf, hd, hi, Bool.false_eq_true, if_false]

theorem stepAlone_last {s : State}
    (h : s.issued.contains fabricEnd = true ∨ dueEvent s = none ∧ TurnsPass s [] (readyWaves s)) : stepAlone s = stepLast s := by
  by_cases hf : s.issued.contains fabricEnd = true
  · simp only [stepAlone, hf, if_true]
  · obtain ⟨hd, hp⟩ := h.resolve_left hf
    simp only [stepAlone, hf, hd, issueFirst_none hp, Bool.false_eq_true, if_false]

theorem stepLast_wake {s t : State} {e : Due} (hl : lastTurn s = some (.wake e)) (ht : runDue e s = .next t) :
    stepLast s = closeStep (.next { t with issued := fabricEnd :: t.issued }) := by
  simp only [stepLast, hl, runTurn, ht]

theorem stepLast_issue {s t : State} {wid : Nat} {w : Wave} (hl : lastTurn s = some (.issue wid)) (here : getWave s wid = some w)
    (ht : issueWave s wid = .next t) :
    stepLast s = closeStep (.next { t with issued := fabricEnd :: quadrantOf s w :: t.issued }) := by
  simp only [stepLast, hl, runTurn, ht, markIssued, here]

theorem stepLast_cycle {s : State} (hl : lastTurn s = none) : stepLast s = closeStep (.next (endCycle s)) := by
  simp only [stepLast, hl]

/-! ### What a step adds around an issue -/

theorem closeStep_of_cur {t : State} {wid : Nat} {v : Wave} (hc : t.cur = some wid) (here : getWave t wid = some v) :
    closeStep (.next t) = .next (noteMembers { evictLines (modGang t v.gang fun g => { g with work := g.work + 1 }) with
      cur := none, fresh := t.fresh + 1, wants := [] }) := by
  simp only [closeStep, hc, here]

theorem closeStep_of_no_cur {t : State} (hc : t.cur = none) : closeStep (.next t) =
    .next (noteMembers { evictLines t with cur := none, fresh := t.fresh + 1, wants := [] }) := by
  simp only [closeStep, hc]

theorem writeBack_frame (s : State) (line : Nat) : ∃ m l, writeBack s line = { s with mem := m, hostL2 := l } := by
  unfold writeBack
  split
  · exact ⟨s.mem, s.hostL2, rfl⟩
  · exact ⟨_, _, rfl⟩

theorem evictLines_frame (s : State) : ∃ m l, evictLines s = { s with mem := m, hostL2 := l } := by
  unfold evictLines
  generalize s.hostL2.filter _ = lines
  induction lines generalizing s with
  | nil => exact ⟨s.mem, s.hostL2, rfl⟩
  | cons p lines ih =>
    obtain ⟨m, l, h⟩ := writeBack_frame s p.1
    rw [List.foldl_cons, h]
    exact ih { s with mem := m, hostL2 := fdel l p.1 }

theorem noteMembers_frame (s : State) : ∃ ws, noteMembers s = { s with waves := ws } := by
  unfold noteMembers
  split
  · exact ⟨s.waves, rfl⟩
  · exact ⟨_, rfl⟩

/-- What the end of a step leaves of the clock, the quadrants that have issued and the clusters. -/
theorem closeStep_keeps (t : State) : ∃ u, closeStep (.next t) = .next u ∧ u.time = t.time ∧ u.issued = t.issued ∧ u.cur = none ∧
    u.fresh = t.fresh + 1 ∧ u.clusters = t.clusters := by
  have closes : ∀ v : State, v.time = t.time → v.issued = t.issued → v.clusters = t.clusters →
      let u := noteMembers { evictLines v with cur := none, fresh := t.fresh + 1, wants := [] }
      u.time = t.time ∧ u.issued = t.issued ∧ u.cur = none ∧ u.fresh = t.fresh + 1 ∧ u.clusters = t.clusters := by
    intro v ht hi hc
    obtain ⟨m, l, he⟩ := evictLines_frame v
    obtain ⟨ws, hn⟩ := noteMembers_frame { evictLines v with cur := none, fresh := t.fresh + 1, wants := [] }
    dsimp only
    rw [hn, he]
    exact ⟨ht, hi, rfl, rfl, hc⟩
  refine ⟨_, rfl, closes _ ?_ ?_ ?_⟩ <;> (split <;> [split <;> rfl; rfl])

/-! ### The end of a cycle (R15, R355) -/

/-- The clusters once a fabric cycle has ended, or has not, in `dt` units of time: those that are due are to run the placement
procedure. -/
def clustersAfter (s : State) (dt : Nat) : FMap Cluster :=
  if fabricCycle s.time < fabricCycle (s.time + dt) then
    fmapv (fun _ c => if c.due then { c with due := false, run := true } else c) s.clusters
  else s.clusters

theorem foldl_modWave_frame (f : State → Wave → Wave) (ws : List Nat) (s : State) :
    ∃ vs, ws.foldl (fun s w => modWave s w (f s)) s = { s with waves := vs } := by
  induction ws generalizing s with
  | nil => exact ⟨s.waves, rfl⟩
  | cons w ws ih => exact ih (modWave s w (f s))

/-- Run queues change themselves and the waves that waited in them. -/
theorem takeRuns_frame (s : State) (n : Nat) : ∃ vs cs, takeRuns s n = { s with waves := vs, clusters := cs } := by
  unfold takeRuns
  generalize s.clusters = cls
  induction cls generalizing s with
  | nil => exact ⟨s.waves, s.clusters, rfl⟩
  | cons p cls ih =>
    rw [List.foldl_cons]
    split
    · exact ih s
    · dsimp only
      obtain ⟨vs, h⟩ := foldl_modWave_frame (fun s v => if v.queued then { v with ready := s.time, queued := false } else v)
        (takeEntries s n p.2.runq []).1
        { s with clusters := fset s.clusters p.1 { p.2 with runq := (takeEntries s n p.2.runq []).2 } }
      rw [h]
      exact ih { s with waves := vs, clusters := fset s.clusters p.1 { p.2 with runq := (takeEntries s n p.2.runq []).2 } }

@[simp] theorem takeRuns_time (s : State) (n : Nat) : (takeRuns s n).time = s.time := by
  obtain ⟨vs, cs, e⟩ := takeRuns_frame s n
  rw [e]

@[simp] theorem takeRuns_issued (s : State) (n : Nat) : (takeRuns s n).issued = s.issued := by
  obtain ⟨vs, cs, e⟩ := takeRuns_frame s n
  rw [e]

@[simp] theorem takeRuns_fresh (s : State) (n : Nat) : (takeRuns s n).fresh = s.fresh := by
  obtain ⟨vs, cs, e⟩ := takeRuns_frame s n
  rw [e]

theorem takeRuns_empty {s : State} (h : ∀ p ∈ s.clusters, p.2.runq = []) (n : Nat) : takeRuns s n = s := by
  unfold takeRuns
  generalize s.clusters = cls at h
  induction cls with
  | nil => rfl
  | cons p cls ih =>
    rw [List.foldl_cons, if_pos (by simp [h p (List.mem_cons_self ..)])]
    exact ih fun q hq => h q (List.mem_cons_of_mem _ hq)

theorem clustersAfter_runq {s : State} (dt : Nat) (h : ∀ p ∈ s.clusters, p.2.runq = []) :
    ∀ p ∈ clustersAfter s dt, p.2.runq = [] := by
  unfold clustersAfter
  split
  · intro p hp
    obtain ⟨c, hc, rfl⟩ := List.mem_map.mp hp
    dsimp only
    split <;> exact h c hc
  · exact h

theorem elapse_keeps (s : State) (dt : Nat) :
    (elapse s dt).time = s.time + dt ∧ (elapse s dt).issued = s.issued ∧ (elapse s dt).fresh = s.fresh ∧
    ((∀ p ∈ s.clusters, p.2.runq = []) → (elapse s dt).clusters = clustersAfter s dt) := by
  unfold elapse
  dsimp only
  have turned : (if fabricCycle s.time < fabricCycle (s.time + dt) then
      setRuns { s with time := s.time + dt, agenda := nearer dt s.agenda }
      else { s with time := s.time + dt, agenda := nearer dt s.agenda }) =
      { s with time := s.time + dt, agenda := nearer dt s.agenda, clusters := clustersAfter s dt } := by
    unfold clustersAfter
    split <;> rfl
  rw [turned]
  split
  · exact ⟨rfl, rfl, rfl, fun _ => rfl⟩
  · exact ⟨takeRuns_time _ _, takeRuns_issued _ _, takeRuns_fresh _ _,
      fun h => by rw [takeRuns_empty (clustersAfter_runq dt h)]⟩

theorem endCycle_keeps (s : State) :
    (endCycle s).time = s.time + 5 ∧ (endCycle s).issued = [] ∧ (endCycle s).fresh = s.fresh ∧
    ((∀ p ∈ s.clusters, p.2.runq = []) → (endCycle s).clusters = clustersAfter s 5) :=
  elapse_keeps _ 5

/-- A cluster that is due runs the procedure after the end of a fabric cycle, and only then. -/
theorem clustersAfter_eq_map (s : State) (dt : Nat) : clustersAfter s dt = s.clusters.map fun p =>
    if fabricCycle s.time < fabricCycle (s.time + dt) ∧ p.2.due = true then (p.1, { p.2 with due := false, run := true }) else p := by
  unfold clustersAfter fmapv
  split
  · refine List.map_congr_left fun p _ => ?_
    cases hd : p.2.due <;> simp [*]
  · simp [*]

/-! ### The step, as O60 writes it -/

/-- Where no event is due, the first wave that does not pass takes its turn, and the step is what happens at it. -/
theorem step_turn {s : State} {wid : Nat} {before rest : List Nat} {o : Host.Outcome State Fault Refusal}
    (ha : ∀ e rest, s.agenda ≠ (0, e) :: rest) (hf : s.issued.contains fabricEnd = false) (hd : dueEvent s = none)
    (hr : readyWaves s = before ++ wid :: rest) (hp : TurnsPass s [] before) (hl : ¬ LeavesTurn s before wid)
    (ht : waveTurn s wid = some o) : step s = closeStep o := by
  rw [step_alone ha]
  exact stepAlone_issue hf hd (hr ▸ issueFirst_first hp hl ht)

theorem step_last {s : State} (ha : ∀ e rest, s.agenda ≠ (0, e) :: rest)
    (h : s.issued.contains fabricEnd = true ∨ dueEvent s = none ∧ TurnsPass s [] (readyWaves s)) : step s = stepLast s :=
  (step_alone ha).trans (stepAlone_last h)

theorem markIssued_of_get {s : State} {wid : Nat} {w : Wave} (here : getWave s wid = some w) (t : State) :
    markIssued s t wid = { t with issued := quadrantOf s w :: t.issued } := by
  simp only [markIssued, here]

/-- Settles O60: the fetch by how `fetchWord` ends, the turns by the choice among the waves in the order of issue, and the end of a
cycle by what `elapse` and `closeStep` keep. -/
theorem stepRunsTheDecodedInstruction : Obligations.StepRunsTheDecodedInstruction := by
  unfold Obligations.StepRunsTheDecodedInstruction
  refine ⟨exec_answers, fun s e rest h => step_agenda h,
    fun s e ha hf hd => ⟨(step_alone ha).trans (stepAlone_event hf hd), rfl⟩, ?fetched, ?fails, ?issues, ?issuesBare, ?waits,
    ?wakes, ?lateIssue, ?cycle⟩
  case fetched =>
    intro s wid w pc iss ws pa a e here hw at' root hx ht now key last choice
    exact ⟨rfl, fun word hc => issueWave_runs here (fetchPC_of_front hw) hx ht (wordAt_of_choice hc)⟩
  case fails =>
    intro s wid w pc iss ws c here hw x root held trap reads
    have hp := fetchPC_of_front hw
    exact ⟨fun hx => issueWave_of_fetchTrap here (fetchWord_above hp hx),
      fun hx ht => issueWave_of_fetchTrap here (fetchWord_fails hp hx ht),
      fun hx ht => issueWave_waits here hp hx ht, fun hh => ⟨fun hl hs => translate_unmapped hh hl hs,
      fun a e f hl ha hm => ⟨translate_granted hh hl ha hm, translate_fetch_not_executable hh hl ha hm⟩,
      fun a e f hl ha hm => translate_migrating hh hl ha hm⟩⟩
  case issues =>
    rintro s wid w v z ⟨ha, hf, hd⟩ ⟨before, rest, hr, hp, hl⟩ here ht hm hc hz
    rw [step_turn ha hf hd hr hp hl (waveTurn_moved ht hm), markIssued_of_get here]
    exact closeStep_of_cur hc hz
  case issuesBare =>
    rintro s wid w v ⟨ha, hf, hd⟩ ⟨before, rest, hr, hp, hl⟩ here ht hm hc
    rw [step_turn ha hf hd hr hp hl (waveTurn_moved ht hm), markIssued_of_get here]
    exact closeStep_of_no_cur hc
  case waits =>
    rintro s wid w t ⟨ha, hf, hd⟩ ⟨before, rest, hr, hp, hl⟩ here ht hm walked
    refine ⟨fun hn => step_turn ha hf hd hr hp hl (waveTurn_walks ht hm here hn),
      fun e hn he => step_turn ha hf hd hr hp hl ?_⟩
    rw [waveTurn_pages ht hm here hn, he, Option.map_some]
  case wakes =>
    rintro s e ⟨ha, h⟩ hl
    obtain ⟨t, ht⟩ := runDue_answers e s
    exact ⟨t, ht, (step_last ha h).trans (stepLast_wake hl ht)⟩
  case lateIssue =>
    rintro s wid w ⟨ha, h⟩ hl here
    obtain ⟨t, ht⟩ := issueWave_answers s wid
    exact ⟨t, ht, (step_last ha h).trans (stepLast_issue hl here ht)⟩
  case cycle =>
    rintro s ⟨ha, h⟩ hl
    obtain ⟨time, issued, fresh, clusters⟩ := endCycle_keeps s
    obtain ⟨t, ht, kt, ki, kc, kf, kcl⟩ := closeStep_keeps (endCycle s)
    refine ⟨t, ((step_last ha h).trans (stepLast_cycle hl)).trans ht, kt.trans time, ki.trans issued, kc,
      kf.trans (by rw [fresh]), fun hq => ?_⟩
    rw [kcl, clusters hq, clustersAfter_eq_map, kt, time]
    rfl

end Sys2Proof.Machine

/-! SUPPORT. How an issued word ends (spec/07 Table 7.5), barriers (spec/03 R48, R49; spec/13 R225, R226), and O31. -/

namespace Sys2Proof.Machine

open Sys2Proof

/-! ### How a word that passes its checks ends -/

section
variable {s t : State} {wid : Nat} {w : Wave} {pc : DWord} {iss : Word} {ws : List Word} {info : Wave → List Word → OpInfo}
  {body : Env → State → Res} (h : Stands s wid w pc iss ws) (p : Passes w (info w ws) ws)
include h p

theorem issue_done (hb : body (sees wid w pc iss ws (info w ws)) s = .done t) :
    issue s info body = completedIn t (info w ws) (sees wid w pc iss ws (info w ws)) := by
  rw [issue_of_passes h p, hb, ended']

/-- A trap of a word that is no memory instruction is taken, with the operand log as it stands (R197). -/
theorem issue_trap {c inf : Nat} {a : DWord} (hc : (info w ws).cls < 18 ∨ 23 < (info w ws).cls)
    (hb : body (sees wid w pc iss ws (info w ws)) s = .trap t c inf a) :
    issue s info body = takeTrap t wid ⟨c, inf, pc, pc, a, false⟩ := by
  have other : decide (18 ≤ (info w ws).cls ∧ (info w ws).cls ≤ 23) = false := by simpa using by omega
  rw [issue_of_passes h p, hb, ended', other, Bool.and_false, if_neg Bool.false_ne_true]

end

/-! ### Barrier offsets (R225, R262) -/

theorem spadTarget_bad_or_place (s : State) (gid off n : Nat) :
    spadTarget s gid off n = .bad ∨ ∃ t, spadTarget s gid off n = .spad t (off % 0x400000) := by
  by_cases own : off / 0x400000 = 0 <;> simp only [spadTarget, own, if_true, if_false]
  all_goals repeat' split
  all_goals simp

/-- An offset names no place where it lies outside the windows. -/
theorem barPlace_isNone (s : State) (gid : Nat) (b : Word) :
    (barPlace s gid b).isNone = true ↔ spadTarget s gid b.toNat 16 = .bad ∨ 0x1400000 ≤ b.toNat := by
  unfold barPlace
  rcases spadTarget_bad_or_place s gid b.toNat 16 with h | ⟨t, h⟩
  · simp [h]
  · by_cases hb : b.toNat < 0x1400000
    · simp [h, hb]
    · simp [h, hb, Nat.le_of_not_lt]

/-- The trap of a barrier offset, its bits as R225 names them. -/
theorem barTrap_eq (s : State) (gid : Nat) (b : Word) :
    barTrap s gid b = if b.extractLsb' 25 7 ≠ 0 then some cAPERTURE else if b.extractLsb' 0 4 ≠ 0 then some cALIGN
      else if spadTarget s gid b.toNat 16 = .bad ∨ 0x1400000 ≤ b.toNat then some cAPERTURE else none := by
  have great : 2 ^ 25 ≤ b.toNat ↔ b.extractLsb' 25 7 ≠ 0 := by
    have hb := b.isLt
    simp only [ne_eq, BitVec.toNat_eq, BitVec.extractLsb'_toNat, Nat.shiftRight_eq_div_pow, BitVec.ofNat_eq_ofNat,
      BitVec.toNat_ofNat]
    omega
  have askew : b.toNat % 16 ≠ 0 ↔ b.extractLsb' 0 4 ≠ 0 := by
    simp only [ne_eq, BitVec.toNat_eq, BitVec.extractLsb'_toNat, Nat.shiftRight_zero]
    rfl
  simp only [barTrap, great, askew, barPlace_isNone]

section
variable {v : Env} {s : State} {a : BitVec 7} {f : Nat × Nat → Res}

theorem barrierOp_at {pl : Nat × Nat} (ht : barTrap s v.w.gang (v.w.readS a.toNat) = none)
    (hp : barPlace s v.w.gang (v.w.readS a.toNat) = some pl) : barrierOp v s a f = f pl := by
  simp only [barrierOp, ht, hp]

theorem barrierOp_traps {c : Nat} (ht : barTrap s v.w.gang (v.w.readS a.toNat) = some c) :
    barrierOp v s a f = .trap s c 64 ((v.w.readS a.toNat).setWidth 64) := by
  simp only [barrierOp, ht]

end

/-! ### The barrier members (R226) -/

/-- A barrier member whose word passes its checks runs on the barrier that its offset names. -/
theorem issue_barrierOp {s t : State} {wid : Nat} {w : Wave} {pc : DWord} {iss : Word} {ws : List Word} {a : BitVec 7}
    {info : Wave → List Word → OpInfo} {f : Env → State → Nat × Nat → Res} {pl : Nat × Nat}
    (h : Stands s wid w pc iss ws) (p : Passes w (info w ws) ws) (ht : barTrap s w.gang (w.readS a.toNat) = none)
    (hp : barPlace s w.gang (w.readS a.toNat) = some pl) (hf : f (sees wid w pc iss ws (info w ws)) s pl = .done t) :
    issue s info (fun v s => barrierOp v s a (f v s)) = completedIn t (info w ws) (sees wid w pc iss ws (info w ws)) :=
  issue_done h p ((barrierOp_at (v := sees wid w pc iss ws (info w ws)) ht hp).trans hf)

theorem issue_barrierOp_traps {s : State} {wid : Nat} {w : Wave} {pc : DWord} {iss : Word} {ws : List Word} {a : BitVec 7}
    {info : Wave → List Word → OpInfo} {f : Env → State → Nat × Nat → Res} {c : Nat} (h : Stands s wid w pc iss ws)
    (p : Passes w (info w ws) ws) (hc : (info w ws).cls = 26) (ht : barTrap s w.gang (w.readS a.toNat) = some c) :
    issue s info (fun v s => barrierOp v s a (f v s)) =
      takeTrap s wid ⟨c, 64, pc, pc, (w.readS a.toNat).setWidth 64, false⟩ :=
  issue_trap h p (.inr (by omega)) (barrierOp_traps (v := sees wid w pc iss ws (info w ws)) ht)

/-- Settles O31: each member is one update of the barrier that its offset names, or the trap of the offset (R225). -/
theorem barriers : Obligations.Barriers := by
  unfold Obligations.Barriers
  refine ⟨fun d a b s wid w pc iss ws pl => ?members, fun d a b s wid w pc iss ws => ?traps⟩
  case members =>
    intro at' one x rb tested phase
    refine ⟨?init, ?arrive, ?expect, ?query⟩ <;> intro h p ht hp <;> refine congrArg _ (issue_barrierOp h p ht hp ?_)
    case query =>
      simp only [finishInt, Wave.orFlags_zero]
      rfl
    all_goals rfl
  case traps =>
    intro one rb B cause traps
    refine ⟨?_, ?_, ?_, ?_⟩ <;> intro c h p hc <;>
      exact congrArg _ (issue_barrierOp_traps h p rfl ((barTrap_eq s w.gang B).trans hc))

end Sys2Proof.Machine

/-! SUPPORT. Waits: how one is decided at its issue (spec/03 R50; spec/13 R228, R230), and O33. -/

namespace Sys2Proof.Machine

open Sys2Proof

/-! ### A wait whose operand is known (R230) -/

/-- The pair of a wait's result written. -/
def waitReturned (v : Env) (s : State) (d st idx : Nat) : State :=
  modWave s v.wid fun u => (u.writeS d (BitVec.ofNat 32 st)).writeS (d + 1) (BitVec.ofNat 32 idx)

/-- The deadline of a wait that begins at a state: SR.TIME and the timeout, or none where that passes the last time (R230). -/
def waitDeadline (s : State) (t : DWord) : DWord :=
  if ticks s + t.toNat < 2 ^ 64 - 1 then BitVec.ofNat 64 (ticks s + t.toNat) else 0xFFFFFFFFFFFFFFFF

/-- The issuing lanes parked in one group. -/
def waitParked (v : Env) (s : State) (t : DWord) (on : WaitOn) : State :=
  modWave s v.wid fun u => { u with
    lanes := laneIdx.map fun l => if bitAt v.iss l then .parked else u.lane l
    groups := u.groups ++ [⟨v.iss, on, waitDeadline s t, none⟩] }

/-- What the members of a wait give at its issue, once the words it waits on are read. -/
def waitNow (v : Env) (s : State) (on : WaitOn) : Option WaitResult :=
  waitResult (settleWait s v.w on) v.w
    (eventsFor (settleWait s v.w on) (waveRegion s v.w) (waitRank (settleWait s v.w on) v.w v.iss)) on

section
variable {v : Env} {s : State} {d : Nat} {t : DWord} {on : WaitOn}

theorem waitOn_fired {r : WaitResult} (h : waitNow v s on = some r) : waitOn v s d t on =
    .done (waitReturned v (takeEvent (settleWait s v.w on) (waveRegion s v.w) r.takes) d r.st r.idx) := by
  unfold waitNow at h
  simp only [waitOn, h]
  rfl

theorem waitOn_timeout (h : waitNow v s on = none) (ht : t = 0 ∨ v.w.priv = .s) :
    waitOn v s d t on = .done (waitReturned v (settleWait s v.w on) d stTIMEOUT 0xFFFFFFFF) := by
  unfold waitNow at h
  simp only [waitOn, h, if_pos ht]
  rfl

theorem waitOn_parks (h : waitNow v s on = none) (ht : ¬ (t = 0 ∨ v.w.priv = .s)) :
    waitOn v s d t on = .done (waitParked v (settleWait s v.w on) t on) := by
  unfold waitNow at h
  simp only [waitOn, h, if_neg ht]
  rfl

end

/-- Settles O33: a wait returns what its members give, times out or parks, by what `waitOn` does in each case. -/
theorem waits : Obligations.Waits := by
  unfold Obligations.Waits
  intro d a tmo T result on
  have decided : ∀ (v : Env) s m, waitOn v s d.toNat (v.timeout tmo) m = .done (on v s m) := by
    intro v s m
    cases h : waitNow v s m with
    | some r =>
      unfold waitNow at h
      simp only [on, h]
      exact waitOn_fired h
    | none =>
      have now := h
      unfold waitNow at now
      simp only [on, now]
      split
      · exact waitOn_timeout h ‹_›
      · exact waitOn_parks h ‹_›
  refine ⟨fun s wid w pc iss ws h p => congrArg _ (issue_done h p (decided _ _ _)),
    fun s wid w pc iss ws h p => congrArg _ (issue_done h p ?_)⟩
  dsimp only
  cases parseMember s (sees wid w pc iss ws (waitInfo d a tmo 6)).w a.toNat with
  | none => rfl
  | some m => exact decided _ _ _

end Sys2Proof.Machine

/-! SUPPORT. Submission of engine operations: the checks of R205 in their order, the context that takes one (spec/13 R203 to R205,
R214, R215; spec/05 R93), and O30. -/

namespace Sys2Proof.Machine

open Sys2Proof

/-! ### The engine checks in their order (R205) -/

/-- The address that the first check of alignment to fail names. -/
def firstAskew (aligned : List (Bool × Nat)) : Option Nat := (aligned.find? fun p => !p.1).map Prod.snd

theorem firstAskew_append (l m : List (Bool × Nat)) : firstAskew (l ++ m) = (firstAskew l).or (firstAskew m) := by
  simp only [firstAskew, List.find?_append, Option.map_or]

theorem firstAskew_ite (c : Prop) [Decidable c] (l : List (Bool × Nat)) :
    firstAskew (if c then l else []) = if c then firstAskew l else none := by
  split <;> rfl

theorem firstAskew_single (x : Int) (n : Nat) : firstAskew [(mult4 x, n)] = if x % 4 = 0 then none else some n := by
  by_cases h : x % 4 = 0 <;> simp [firstAskew, mult4, h]

/-- The first base at or above the apertures' end (assumption log 61). -/
def firstAbove (bases : List Nat) : Option Nat := bases.find? fun b => decide (0xFFFF900000000000 ≤ b)

section
variable {s : State} {gid n : Nat} {aligned : List (Bool × Nat)} {bases : List Nat} {bar : Option Word}

theorem engineTrap_askew (h : firstAskew aligned = some n) : engineTrap s gid aligned bases bar = some (cALIGN, n) := by
  obtain ⟨p, hp, rfl⟩ := Option.map_eq_some_iff.mp h
  simp only [engineTrap, hp]

variable (ha : firstAskew aligned = none)
include ha

theorem engineTrap_above (hb : firstAbove bases = some n) : engineTrap s gid aligned bases bar = some (cAPERTURE, n) := by
  rw [firstAbove] at hb
  simp only [engineTrap, Option.map_eq_none_iff.mp ha, hb]

theorem engineTrap_bar (hb : firstAbove bases = none) :
    engineTrap s gid aligned bases bar = bar.bind fun b => (barTrap s gid b).map fun c => (c, b.toNat) := by
  rw [firstAbove] at hb
  simp only [engineTrap, Option.map_eq_none_iff.mp ha, hb]
  cases bar <;> rfl

end

/-! ### The context that takes an operation (R203) -/

section
variable {s : State} {v : Env} {k : Nat} {op : EngOp} {adv : List Nat} {steps : Nat}

theorem ctxFull_of_get {gid : Nat} {g : Gang} {c : Ctx} (hg : fget s.gangs gid = some g) (hc : g.ctxs[k]? = some c) :
    ctxFull s gid k = decide (4 ≤ c.ops.length) := by
  simp only [ctxFull, hg, hc]

theorem submit_full (h : ctxFull s v.w.gang k = true) : submit s v k op adv steps = .hold := if_pos h

theorem submit_room (h : ctxFull s v.w.gang k = false) : submit s v k op adv steps = .done (modWave
    (modCtx s v.w.gang k fun c => { c with subm := c.subm + 1, ops := c.ops ++ [{ op with num := c.subm + 1 }] }) v.wid fun w =>
      adv.foldl (fun w n => if tAdv (v.w.readT n) then w.writeT n (tAdvance (v.w.readT n) steps) else w) w) :=
  if_neg (Bool.eq_false_iff.mp h)

end

/-! ### The parts of a matrix operation (R203, R214, R215) -/

/-- The format word a matrix instruction runs under: that of its lowest issuing lane, 0 where it has none. -/
def matrixFormat (m : MForm) (w : Wave) (iss : Word) (vf : BitVec 5) : Nat :=
  if m.hasFmt then (formatVote w iss vf.toNat).1.toNat else 0

/-- The scale registers that a matrix loop reads. -/
def matrixScales (m : MForm) (f a b : Nat) : List Nat := if m.loop then scaleReg (fwA f) a ++ scaleReg (fwB f) b else []

/-- The checks of alignment of the T register of an operand. -/
def operandChecks (m : MForm) (r : BitVec 128) : List (Bool × Nat) :=
  [(mult4 (tBase r), tBase r), (mult4 (tStride r), tBase r)] ++ if m.loop then [(mult4 (tKinc r), tBase r)] else []

def matrixChecks (m : MForm) (A B : BitVec 128) (idx : DWord) : List (Bool × Nat) :=
  (if m.hasA then operandChecks m A else []) ++ (if m.hasB && m.fn != 4 then operandChecks m B else []) ++
    if m.fn = 1 then [(mult4 idx.toNat, idx.toNat)] else []

def matrixBases (m : MForm) (w : Wave) (A B : BitVec 128) (scales : List Nat) : List Nat :=
  (if m.hasA then [tBase A] else []) ++ (if m.hasB then [tBase B] else []) ++ scales.map fun n => tBase (w.readT n)

/-- The operation as its context takes it (R203, R257). -/
def matrixOp (m : MForm) (acc a b : Nat) (sk : BitVec 5) (f : Nat) (v : Env) : EngOp :=
  let x := v.w.readS sk.toNat
  let rounds := m.hasFmt && opRounds m.fn f
  { blankOp v 25 m.fn with
    acc := acc, bar := if m.fn = 7 ∧ sk ≠ 0 then some x else none
    rm := if rounds then v.rm else 0, ftz := rounds && v.ftz, sat := fwSat f
    ta := if m.hasA then v.w.readT a else 0, tb := if m.hasB then v.w.readT b else 0
    ta1 := if m.loop ∧ isMx (fwA f) then v.w.readT (a + 1) else 0
    tb1 := if m.loop ∧ isMx (fwB f) then v.w.readT (b + 1) else 0
    shape := if m.fn ≤ 4 then x else 0, idx := if m.fn = 1 then v.w.readS64 (sk.toNat + 2) else 0, fmt := BitVec.ofNat 32 f
    seed := if rounds then v.w.seed else 0, seq := if rounds then v.seq else 0 }

/-- What R205's checks of a matrix operation find. -/
def matrixTrap (m : MForm) (a b : Nat) (sk : BitVec 5) (f : Nat) (s : State) (w : Wave) : Option (Nat × Nat) :=
  engineTrap s w.gang (matrixChecks m (w.readT a) (w.readT b) (w.readS64 (sk.toNat + 2)))
    (matrixBases m w (w.readT a) (w.readT b) (matrixScales m f a b))
    (if m.fn = 7 ∧ sk ≠ 0 then some (w.readS sk.toNat) else none)

/-- R205's checks and the submission of a matrix operation to its context. -/
def matrixEngine (m : MForm) (acc : BitVec 4) (ta tb sk : BitVec 5) (f : Nat) (v : Env) (s : State) : Res :=
  match matrixTrap m ta.toNat tb.toNat sk f s v.w with
  | some (c, a) => .trap s c 64 (BitVec.ofNat 64 a)
  | none => submit s v (4 + acc.toNat / 4) (matrixOp m acc.toNat ta.toNat tb.toNat sk f v)
      (if m.loop then [ta.toNat, tb.toNat] else []) (v.w.readS sk.toNat).toNat

/-- What the issue of a matrix instruction comes to once the checks of Table 7.5 have passed: the traps of its format word in
their order, then the engine's part. -/
def matrixBody (m : MForm) (acc : BitVec 4) (ta tb sk vf : BitVec 5) (v : Env) (s : State) : Res :=
  let vote := formatVote v.w v.iss vf.toNat
  let f := matrixFormat m v.w v.iss vf
  if m.hasFmt = true ∧ vote.2 ≠ 0 then .trap s cFMTDIV 0 (BitVec.ofNat 64 vote.2.toNat)
  else if (m.hasFmt = true ∧ needsPair m.fn f = true ∧ ¬ (acc.toNat % 2 = 0 ∧ acc.toNat + 1 < accTiles s v.w)) ∨
      ∃ n ∈ matrixScales m f ta.toNat tb.toNat, ¬ (n < v.w.tn ∧ n ≤ 31) then .trap s cILLEGAL 0 0
  else if m.hasFmt = true ∧ ¬ (formatFieldsOk f = true ∧
      (if m.loop then loopFormatOk (m.fn == 2) f else drainFormatOk (m.fn == 4) f) = true) then .trap s cBADFMT 0 0
  else if (m.hasFmt && opRounds m.fn f) = true ∧ 5 < v.rm then .trap s cBADRM 0 0
  else matrixEngine m acc ta tb sk f v s

theorem matrixSubmit_eq (m : MForm) (acc : BitVec 4) (ta tb sk vf : BitVec 5) (s : State) :
    matrixSubmit m acc ta tb sk vf s = issue s (matrixInfo s m acc ta tb sk vf) (matrixBody m acc ta tb sk vf) := by
  unfold matrixSubmit
  refine congrArg (issue s (matrixInfo s m acc ta tb sk vf)) (funext fun v => funext fun s => ?_)
  refine if_congr ?split rfl (if_congr ?unheld rfl (if_congr ?unfit rfl (if_congr ?mode rfl rfl)))
  case split => simp
  case unheld =>
    have pair : (decide (acc.toNat % 2 = 1) || decide (accTiles s v.w ≤ acc.toNat + 1)) = true ↔
        ¬ (acc.toNat % 2 = 0 ∧ acc.toNat + 1 < accTiles s v.w) := by simp; omega
    have scale : ∀ n, (decide (v.w.tn ≤ n) || decide (31 < n)) = true ↔ ¬ (n < v.w.tn ∧ n ≤ 31) := fun n => by simp; omega
    simp only [Bool.or_eq_true (_ && _), Bool.and_eq_true, pair, List.any_eq_true, scale, and_assoc]
    rfl
  case unfit =>
    rw [Bool.and_eq_true, Bool.not_eq_true', ← Bool.not_eq_true, Bool.and_eq_true]
    rfl
  case mode => simp [matrixFormat]

/-! ### What R205's checks of a matrix operation find -/

/-- The BASE, the stride and, for a loop, the K-increment of an operand are multiples of 4. -/
def MForm.aligned (m : MForm) (r : BitVec 128) : Prop :=
  tBase r % 4 = 0 ∧ tStride r % 4 = 0 ∧ (m.loop = true → tKinc r % 4 = 0)

theorem firstAskew_aligned {m : MForm} {r : BitVec 128} (h : m.aligned r) : firstAskew (operandChecks m r) = none := by
  obtain ⟨hb, hs, hk⟩ := h
  have hb : (tBase r : Int) % 4 = 0 := by omega
  by_cases hl : m.loop = true
  · simp [firstAskew, operandChecks, mult4, hb, hs, hl, hk hl]
  · simp [firstAskew, operandChecks, mult4, hb, hs, hl]

theorem firstAskew_not_aligned {m : MForm} {r : BitVec 128} (h : ¬ m.aligned r) :
    firstAskew (operandChecks m r) = some (tBase r) := by
  have named : ∀ p ∈ operandChecks m r, p.2 = tBase r := by
    unfold operandChecks
    split <;> simp
  cases hf : firstAskew (operandChecks m r) with
  | some n =>
    obtain ⟨p, hp, rfl⟩ := Option.map_eq_some_iff.mp hf
    rw [named p (List.mem_of_find?_eq_some hp)]
  | none =>
    refine absurd ?_ h
    simp only [firstAskew, Option.map_eq_none_iff, List.find?_eq_none] at hf
    refine ⟨?_, ?_, fun hl => ?_⟩
    · have := hf (mult4 (tBase r), tBase r) (by simp [operandChecks])
      simp only [mult4, Bool.not_eq_true', Bool.not_eq_false, beq_iff_eq] at this
      omega
    · simpa [mult4] using hf (mult4 (tStride r), tBase r) (by simp [operandChecks])
    · simpa [mult4] using hf (mult4 (tKinc r), tBase r) (by simp [operandChecks, hl])

section
variable {m : MForm} {A B : BitVec 128} {idx : DWord}

theorem firstAskew_of_askewA (h : m.hasA = true ∧ ¬ m.aligned A) : firstAskew (matrixChecks m A B idx) = some (tBase A) := by
  simp [matrixChecks, firstAskew_append, h.1, firstAskew_not_aligned h.2]

variable (okA : ¬ (m.hasA = true ∧ ¬ m.aligned A))
include okA

theorem firstAskew_operandA : firstAskew (if m.hasA then operandChecks m A else []) = none := by
  rw [firstAskew_ite]
  split
  · exact firstAskew_aligned (not_not.mp fun h => okA ⟨‹_›, h⟩)
  · rfl

theorem firstAskew_of_askewB (h : m.hasB = true ∧ m.fn ≠ 4 ∧ ¬ m.aligned B) :
    firstAskew (matrixChecks m A B idx) = some (tBase B) := by
  obtain ⟨hB, hfn, askew⟩ := h
  simp [matrixChecks, firstAskew_append, firstAskew_operandA okA, hB, hfn, firstAskew_not_aligned askew]

variable (okB : ¬ (m.hasB = true ∧ m.fn ≠ 4 ∧ ¬ m.aligned B))
include okB

theorem firstAskew_of_operands :
    firstAskew (matrixChecks m A B idx) = if m.fn = 1 ∧ idx.toNat % 4 ≠ 0 then some idx.toNat else none := by
  have operandB : firstAskew (if m.hasB && m.fn != 4 then operandChecks m B else []) = none := by
    rw [firstAskew_ite]
    split
    · rename_i hB
      rw [Bool.and_eq_true, bne_iff_ne] at hB
      exact firstAskew_aligned (not_not.mp fun h => okB ⟨hB.1, hB.2, h⟩)
    · rfl
  have number : (idx.toNat : Int) % 4 = 0 ↔ idx.toNat % 4 = 0 := by omega
  rw [matrixChecks, firstAskew_append, firstAskew_append, firstAskew_operandA okA, operandB, firstAskew_ite, firstAskew_single]
  by_cases h1 : m.fn = 1 <;> by_cases h2 : idx.toNat % 4 = 0 <;> simp [h1, h2, number]

end

theorem firstAbove_ite (c : Bool) (n : Nat) :
    firstAbove (if c then [n] else []) = if c = true ∧ 0xFFFF900000000000 ≤ n then some n else none := by
  cases c
  · simp [firstAbove]
  · by_cases h : 0xFFFF900000000000 ≤ n <;> simp [firstAbove, h]

theorem firstAbove_append (l m : List Nat) : firstAbove (l ++ m) = (firstAbove l).or (firstAbove m) := List.find?_append

theorem firstAbove_map (w : Wave) (l : List Nat) : firstAbove (l.map fun n => tBase (w.readT n)) =
    (l.find? fun n => decide (0xFFFF900000000000 ≤ tBase (w.readT n))).map fun n => tBase (w.readT n) := List.find?_map

theorem firstAbove_matrixBases (m : MForm) (w : Wave) (A B : BitVec 128) (scales : List Nat) :
    firstAbove (matrixBases m w A B scales) =
      if m.hasA = true ∧ 0xFFFF900000000000 ≤ tBase A then some (tBase A)
      else if m.hasB = true ∧ 0xFFFF900000000000 ≤ tBase B then some (tBase B)
      else (scales.find? fun n => decide (0xFFFF900000000000 ≤ tBase (w.readT n))).map fun n => tBase (w.readT n) := by
  rw [matrixBases, firstAbove_append, firstAbove_append, firstAbove_ite, firstAbove_ite, firstAbove_map]
  by_cases hA : m.hasA = true ∧ 0xFFFF900000000000 ≤ tBase A
  · rw [if_pos hA, if_pos hA, Option.some_or, Option.some_or]
  · rw [if_neg hA, if_neg hA, Option.none_or]
    split
    · exact Option.some_or
    · exact Option.none_or

/-! ### How a matrix instruction ends (R203, R214) -/

section
variable {m : MForm} {acc : BitVec 4} {ta tb sk : BitVec 5} {f : Nat} {v : Env} {s : State}

theorem matrixEngine_traps {c a : Nat} (ht : matrixTrap m ta.toNat tb.toNat sk f s v.w = some (c, a)) :
    matrixEngine m acc ta tb sk f v s = .trap s c 64 (BitVec.ofNat 64 a) := by
  simp only [matrixEngine, ht]

theorem matrixEngine_submits (ht : matrixTrap m ta.toNat tb.toNat sk f s v.w = none) :
    matrixEngine m acc ta tb sk f v s = submit s v (4 + acc.toNat / 4) (matrixOp m acc.toNat ta.toNat tb.toNat sk f v)
      (if m.loop then [ta.toNat, tb.toNat] else []) (v.w.readS sk.toNat).toNat := by
  simp only [matrixEngine, ht]

end

@[simp] theorem matrixInfo_cls (s : State) (m : MForm) (acc : BitVec 4) (ta tb sk vf : BitVec 5) (w : Wave) (ws : List Word) :
    (matrixInfo s m acc ta tb sk vf w ws).cls = 25 := rfl

section
variable {m : MForm} {acc : BitVec 4} {ta tb sk vf : BitVec 5} {s : State} {wid : Nat} {w : Wave} {pc : DWord} {iss : Word}
  {ws : List Word} (h : Stands s wid w pc iss ws) (p : Passes w (matrixInfo s m acc ta tb sk vf w ws) ws)
include h p

theorem matrixSubmit_traps {c n : Nat} {a : DWord}
    (hb : matrixBody m acc ta tb sk vf (sees wid w pc iss ws (matrixInfo s m acc ta tb sk vf w ws)) s = .trap s c n a) :
    matrixSubmit m acc ta tb sk vf s = takeTrap s wid ⟨c, n, pc, pc, a, false⟩ :=
  (matrixSubmit_eq ..).trans (issue_trap h p (.inr (by simp)) hb)

theorem matrixSubmit_ends {r : Res}
    (hb : matrixBody m acc ta tb sk vf (sees wid w pc iss ws (matrixInfo s m acc ta tb sk vf w ws)) s = r) :
    matrixSubmit m acc ta tb sk vf s = ended' s wid w pc (matrixInfo s m acc ta tb sk vf w ws)
      (sees wid w pc iss ws (matrixInfo s m acc ta tb sk vf w ws)) r :=
  ((matrixSubmit_eq ..).trans (issue_of_passes h p)).trans (congrArg _ hb)

end

/-- Settles O30: the clauses are the branches of `matrixBody` in their order, and those of R205's checks in theirs. -/
theorem matrixOperationsAreSubmitted : Obligations.MatrixOperationsAreSubmitted := by
  unfold Obligations.MatrixOperationsAreSubmitted
  intro acc ta tb sk vf sub
  have member : ∀ i m tb sk vf, (∀ s, exec i s = .next (matrixSubmit m acc (if m.hasA then ta else 0) tb sk vf s)) →
      sub i m tb sk vf := by
    intro i m tb sk vf he s wid w pc iss ws gg c ta info v vote f x k A B idx rounds scales askew above traps split unheld unfit
      badA badB badI op h p hg hc
    have trap : ∀ {c n a}, matrixBody m acc ta tb sk vf v s = .trap s c n (BitVec.ofNat 64 a) → traps c n a :=
      fun hb => (he s).trans (congrArg _ (matrixSubmit_traps h p hb))
    refine ⟨fun hs => trap (if_pos hs), fun hs hu => trap ((if_neg hs).trans (if_pos hu)),
      fun hs hu hf => trap ((if_neg hs).trans ((if_neg hu).trans (if_pos hf))), fun hs hu hf => ⟨fun hr =>
        trap ((if_neg hs).trans ((if_neg hu).trans ((if_neg hf).trans (if_pos hr)))), fun hr => ?_⟩⟩
    have engine : matrixBody m acc ta tb sk vf v s = matrixEngine m acc ta tb sk f v s :=
      (if_neg hs).trans ((if_neg hu).trans ((if_neg hf).trans (if_neg fun hm => Nat.not_lt.mpr (hr hm.1) hm.2)))
    have found : ∀ {c a}, matrixTrap m ta.toNat tb.toNat sk f s w = some (c, a) → traps c 64 a :=
      fun ht => trap (engine.trans (matrixEngine_traps ht))
    refine ⟨fun hA => found (engineTrap_askew (firstAskew_of_askewA hA)),
      fun hA hB => found (engineTrap_askew (firstAskew_of_askewB hA hB)),
      fun hA hB hI => found (engineTrap_askew ((firstAskew_of_operands hA hB).trans (if_pos hI))), fun hA hB hI => ?_⟩
    have aligned : firstAskew (matrixChecks m A B idx) = none := (firstAskew_of_operands hA hB).trans (if_neg hI)
    have bases := firstAbove_matrixBases m w A B scales
    refine ⟨fun aA => found (engineTrap_above aligned (bases.trans (if_pos aA))),
      fun aA aB => found (engineTrap_above aligned (bases.trans ((if_neg aA).trans (if_pos aB)))), fun aA aB => ?_⟩
    rw [if_neg aA, if_neg aB] at bases
    refine ⟨fun n hn => found (engineTrap_above aligned (bases.trans (congrArg _ hn))), fun aS => ?_⟩
    rw [List.find?_eq_none.mpr fun n hn => mt of_decide_eq_true (aS n hn)] at bases
    have barOnly := engineTrap_bar (s := s) (gid := w.gang) (bar := if m.fn = 7 ∧ sk ≠ 0 then some x else none) aligned bases
    refine ⟨fun k hb ht => found (barOnly.trans (by rw [if_pos hb, Option.bind_some, ht]; rfl)), fun hb => ?_⟩
    have clear : matrixTrap m ta.toNat tb.toNat sk f s w = none := by
      refine barOnly.trans ?_
      split
      · rw [Option.bind_some, hb ‹_›]; rfl
      · rfl
    have submits := engine.trans (matrixEngine_submits clear)
    have issued : ∀ {r}, submit s v k (matrixOp m acc.toNat ta.toNat tb.toNat sk f v) (if m.loop then [ta.toNat, tb.toNat] else [])
        x.toNat = r → exec i s = .next (ended' s wid w pc info v r) :=
      fun hr => (he s).trans (congrArg _ (matrixSubmit_ends h p (submits.trans hr)))
    have full := ctxFull_of_get hg hc
    exact ⟨fun hl => issued (submit_full (full.trans (decide_eq_true hl))),
      fun hl => issued (submit_room (full.trans (decide_eq_false (Nat.not_le.mpr hl))))⟩
  refine ⟨?_, ?_, ?_, ?_, ?_, ?_, ?_, ?_⟩ <;> exact member _ _ _ _ _ fun _ => rfl

end Sys2Proof.Machine

/-! SUPPORT. The ends of waits and flushes: what the words of a wait leave alone, the wave of a woken group, the members noted of a
parked group, and the lines of a flush (spec/03 R51, R52, R54; spec/13 R232; spec/17 R304), and O47. -/

namespace Sys2Proof.Machine

open Sys2Proof

/-! ### The words that a wait reads (spec/17 R304) -/

theorem foldl_merges_frame {α : Type} {f : State → α → State} (hf : ∀ s x, ∃ m p, f s x = { s with mem := m, pool := p })
    (l : List α) (s : State) : ∃ m p, l.foldl f s = { s with mem := m, pool := p } := by
  induction l generalizing s with
  | nil => exact ⟨s.mem, s.pool, rfl⟩
  | cons a t ih =>
    obtain ⟨m, p, h⟩ := hf s a
    rw [List.foldl_cons, h]
    exact ih { s with mem := m, pool := p }

theorem settleWord_frame (s : State) (root : DWord) (va : Nat) : ∃ m p, settleWord s root va = { s with mem := m, pool := p } := by
  unfold settleWord
  split
  · exact ⟨s.mem, s.pool, rfl⟩
  · obtain ⟨m, p, h⟩ := settleWalk_frame s root va
    rw [h]
    dsimp only
    split
    · exact mergeAt_frame { s with mem := m, pool := p } _
    · exact ⟨m, p, rfl⟩

/-- What a wait reads is merged, and nothing else changes. -/
theorem settleWait_frame (s : State) (w : Wave) (on : WaitOn) : ∃ m p, settleWait s w on = { s with mem := m, pool := p } := by
  unfold settleWait
  split
  · exact ⟨s.mem, s.pool, rfl⟩
  · exact foldl_merges_frame (fun s va => settleWord_frame s _ va) _ s

theorem getWave_settleWait (s : State) (w : Wave) (on : WaitOn) (wid : Nat) :
    getWave (settleWait s w on) wid = getWave s wid := by
  obtain ⟨m, p, h⟩ := settleWait_frame s w on
  rw [h]
  rfl

/-! ### A group that wakes (R54) -/

@[simp] theorem enqueueRun_mem (s : State) (wid : Nat) (idle : Bool) : (enqueueRun s wid idle).mem = s.mem := by
  unfold enqueueRun
  repeat' split
  all_goals rfl

@[simp] theorem enqueueRun_gangs (s : State) (wid : Nat) (idle : Bool) : (enqueueRun s wid idle).gangs = s.gangs := by
  unfold enqueueRun
  repeat' split
  all_goals rfl

/-- A wave that joins its run queue changes in no more than whether it waits there (spec/21 R368). -/
theorem getWave_enqueueRun {s : State} {wid : Nat} {w : Wave} (here : getWave s wid = some w) (idle : Bool) :
    ∃ q, getWave (enqueueRun s wid idle) wid = some { w with queued := q } := by
  simp only [enqueueRun, here]
  split
  · exact ⟨w.queued, here⟩
  · split
    · exact ⟨w.queued, here⟩
    · exact ⟨w.queued || idle, getWave_setWave s wid _⟩

@[simp] theorem takeEvent_waves (s : State) (r : Nat) (ev : Option (Nat × DWord)) : (takeEvent s r ev).waves = s.waves := by
  cases ev <;> rfl

@[simp] theorem takeEvent_mem (s : State) (r : Nat) (ev : Option (Nat × DWord)) : (takeEvent s r ev).mem = s.mem := by
  cases ev <;> rfl

@[simp] theorem takeEvent_gangs (s : State) (r : Nat) (ev : Option (Nat × DWord)) : (takeEvent s r ev).gangs = s.gangs := by
  cases ev <;> rfl

theorem writeS_s_congr {w u : Wave} (h : w.s = u.s) (n : Nat) (x : Word) : (w.writeS n x).s = (u.writeS n x).s := by
  unfold Wave.writeS
  split
  · exact h
  · exact congrArg (fset · n x) h

/-- The register pair's first that a wait word's sd field names. -/
def waitDest (word : Word) : Nat := word.toNat / 2 ^ 15 % 128

/-- A wave whose group `n` wakes: its lanes go on after their wait, with the result in the pair that the wait word names (R54,
assumption log 32). -/
def Wave.woken (u : Wave) (n : Nat) (g : Group) (word : Word × DWord) (r : WaitResult) (ready : Nat) : Wave :=
  ({ u with
    groups := u.groups.eraseIdx n
    lanes := laneIdx.map fun l => if bitAt g.mask l then .live else u.lane l
    pcs := laneIdx.map fun l => if bitAt g.mask l then word.2 else u.pc l
    ready := ready }.writeS (waitDest word.1) (BitVec.ofNat 32 r.st)).writeS (waitDest word.1 + 1) (BitVec.ofNat 32 r.idx)

section
variable (u : Wave) (n : Nat) (g : Group) (word : Word × DWord) (r : WaitResult) (ready : Nat)

@[simp] theorem woken_groups : (u.woken n g word r ready).groups = u.groups.eraseIdx n := by simp [Wave.woken]

@[simp] theorem woken_lanes :
    (u.woken n g word r ready).lanes = laneIdx.map fun l => if bitAt g.mask l then .live else u.lane l := by
  rw [Wave.woken, writeS_lanes, writeS_lanes]

@[simp] theorem woken_pcs :
    (u.woken n g word r ready).pcs = laneIdx.map fun l => if bitAt g.mask l then word.2 else u.pc l := by
  rw [Wave.woken, writeS_pcs, writeS_pcs]

@[simp] theorem woken_s : (u.woken n g word r ready).s =
    ((u.writeS (waitDest word.1) (BitVec.ofNat 32 r.st)).writeS (waitDest word.1 + 1) (BitVec.ofNat 32 r.idx)).s := by
  rw [Wave.woken]
  exact writeS_s_congr (writeS_s_congr (by rfl) _ _) _ _

@[simp] theorem woken_v : (u.woken n g word r ready).v = u.v := by simp [Wave.woken]

@[simp] theorem woken_p : (u.woken n g word r ready).p = u.p := by simp [Wave.woken]

@[simp] theorem woken_t : (u.woken n g word r ready).t = u.t := by simp [Wave.woken]

end

/-- The wait word of a parked group, read again, and the address after it. -/
def groupWord (s : State) (w : Wave) (g : Group) : Word × DWord :=
  waitWord s (effPtroot s (waveRegion s w)) 3 (w.pc (lowLane g.mask))

section
variable {s : State} {wid n : Nat} {w : Wave} {g : Group} (here : getWave s wid = some w) (hg : w.groups[n]? = some g)
  (r : WaitResult)
include here hg

theorem wakeGroup_eq : ∃ q ready, wakeGroup s wid n r = progressed (takeEvent (setWave (enqueueRun s wid w.issuePC.isNone) wid
    ({ w with queued := q }.woken n g (groupWord s w g) r ready)) (waveRegion s w) r.takes) (waveRegion s w) := by
  obtain ⟨q, hq⟩ := getWave_enqueueRun here w.issuePC.isNone
  refine ⟨q, if w.issuePC.isNone then s.time else w.ready, ?_⟩
  simp only [wakeGroup, here, hg, modWave_of_get _ hq]
  rfl

theorem getWave_wakeGroup :
    ∃ q ready, getWave (wakeGroup s wid n r) wid = some ({ w with queued := q }.woken n g (groupWord s w g) r ready) := by
  obtain ⟨q, ready, h⟩ := wakeGroup_eq here hg r
  refine ⟨q, ready, ?_⟩
  rw [h, getWave, progressed, modRegion_waves, takeEvent_waves]
  exact fget_fset_same _ _ _

theorem wakeGroup_mem : (wakeGroup s wid n r).mem = s.mem := by
  obtain ⟨q, ready, h⟩ := wakeGroup_eq here hg r
  rw [h, progressed, modRegion_mem, takeEvent_mem, setWave_mem, enqueueRun_mem]

theorem wakeGroup_gangs : (wakeGroup s wid n r).gangs = s.gangs := by
  obtain ⟨q, ready, h⟩ := wakeGroup_eq here hg r
  rw [h, progressed, modRegion_gangs, takeEvent_gangs, setWave_gangs, enqueueRun_gangs]

end

/-! ### The events of a parked group (R52) -/

section
variable {s : State} {wid n : Nat} {w : Wave} {g : Group} (here : getWave s wid = some w) (can : canWake s w = true)
  (hg : w.groups[n]? = some g)
include here can hg

theorem waitWake_fired {r : WaitResult} (h : memberResult (settleWait s w g.on) w g = some r) :
    exec (.waitWake wid n) s = .next (wakeGroup (settleWait s w g.on) wid n r) := by
  have meaning : exec (.waitWake wid n) s = execWaitWake wid n s := rfl
  simp [meaning, execWaitWake, here, hg, can, h]

theorem waitWake_none (h : memberResult (settleWait s w g.on) w g = none) :
    exec (.waitWake wid n) s = .next (settleWait s w g.on) := by
  have meaning : exec (.waitWake wid n) s = execWaitWake wid n s := rfl
  simp [meaning, execWaitWake, here, hg, can, h]

theorem waitTimeout_passed (h : memberResult s w g = none) (hd : g.deadline.toNat ≠ 2 ^ 64 - 1) (hp : g.deadline.toNat ≤ ticks s) :
    exec (.waitTimeout wid n) s = .next (wakeGroup s wid n ⟨stTIMEOUT, 0xFFFFFFFF, none⟩) := by
  have meaning : exec (.waitTimeout wid n) s = execWaitTimeout wid n s := rfl
  have result : groupResult s w g = some ⟨stTIMEOUT, 0xFFFFFFFF, none⟩ := by
    simp only [groupResult, h]
    exact if_pos ⟨hd, hp⟩
  simp [meaning, execWaitTimeout, here, hg, can, result]

end

/-! ### What is noted of parked groups (R52) -/

theorem mem_of_fget {α : Type} {m : FMap α} {k : Nat} {x : α} (h : fget m k = some x) : (k, x) ∈ m := by
  induction m with
  | nil => cases h
  | cons p t ih =>
    obtain ⟨k', y⟩ := p
    simp only [fget] at h
    split at h
    · cases h
      subst k'
      exact List.mem_cons_self
    · exact List.mem_cons_of_mem _ (ih h)

theorem fget_fmapv {α : Type} (f : Nat → α → α) (m : FMap α) (k : Nat) : fget (fmapv f m) k = (fget m k).map (f k) := by
  induction m with
  | nil => rfl
  | cons p t ih =>
    obtain ⟨k', y⟩ := p
    by_cases h : k = k'
    · subst h
      simp [fmapv, fget]
    · simpa [fmapv, fget, h] using ih

/-- What is noted of a group: the lowest member that has fired, but for region events (R52, R55); nothing while it cannot wake. -/
def Group.noted (s : State) (w : Wave) (g : Group) : Group :=
  { g with met := if canWake s w then (g.first (waitResult s w [] g.on)).map fun r => (r.idx, r.st) else none }

theorem getWave_noteMembers {s : State} {wid : Nat} {w : Wave} (here : getWave s wid = some w) (hw : w.groups ≠ []) :
    getWave (noteMembers s) wid = some { w with groups := w.groups.map (Group.noted s w) } := by
  have parked : (s.waves.all fun p => p.2.groups.isEmpty) = false := by
    rw [List.all_eq_false]
    exact ⟨(wid, w), mem_of_fget here, by simpa using hw⟩
  have at' : fget s.waves wid = some w := here
  simp only [noteMembers, parked, getWave, Bool.false_eq_true, if_false, fget_fmapv, at', Option.map_some]
  rw [if_neg (by simpa using hw)]
  rfl

/-! ### The lines of a flush (R232) -/

theorem foldl_writeBack_flushes (l : List Nat) (s : State) : (l.foldl writeBack s).flushes = s.flushes := by
  induction l generalizing s with
  | nil => rfl
  | cons a t ih =>
    rw [List.foldl_cons, ih]
    unfold writeBack
    split <;> rfl

theorem settleDue_of_due {s : State} {wid : Nat} {w : Wave} {on : Awaits} {d : StatusDue} (here : getWave s wid = some w)
    (hd : w.dues.find? (fun x => x.on == on) = some d) (st : Nat) :
    settleDue s wid on st = setWave s wid { w.writeS d.sd (BitVec.ofNat 32 st) with dues := w.dues.erase d } := by
  simp only [settleDue, modWave_of_get _ here, hd]

/-- Settles O47: a group wakes by what its members give once their words are read, or by its deadline. -/
theorem waitsAndFlushesEnd : Obligations.WaitsAndFlushesEnd := by
  unfold Obligations.WaitsAndFlushesEnd
  refine ⟨?wakes, ?first, ?notes, fun s n => rfl, ?timer, ?flush⟩
  case wakes =>
    intro s wid w n g here can hg result woken read
    have wakes : ∀ t r o, getWave t wid = some w → o = .next (wakeGroup t wid n r) → woken t o r.st r.idx := by
      intro t r o ht ho
      obtain ⟨q, ready, hu⟩ := getWave_wakeGroup ht hg r
      refine ⟨_, _, ho, hu, woken_groups .., woken_lanes .., woken_pcs .., (woken_s ..).trans ?_, woken_v .., woken_p ..,
        woken_t .., wakeGroup_mem ht hg r, wakeGroup_gangs ht hg r⟩
      exact writeS_s_congr (writeS_s_congr (by rfl) _ _) _ _
    have waveRead : getWave read wid = some w := (getWave_settleWait ..).trans here
    exact ⟨fun r hr => wakes read r _ waveRead (waitWake_fired here can hg hr), fun hr => waitWake_none here can hg hr,
      fun hr hd hp => wakes s _ _ here (waitTimeout_passed here can hg hr hd hp)⟩
  case first =>
    intro g r
    refine ⟨fun h => ⟨by simp only [Group.first, h], by simp only [Group.first, h]⟩, fun i st h =>
      ⟨by simp only [Group.first, h], fun hi => ?_, fun hi => ?_⟩⟩
    · simp only [Group.first, h, if_pos hi]
    · simp only [Group.first, h, if_neg (Nat.not_lt.mpr hi)]
  case notes =>
    intro s wid w n g here hg
    have hw : w.groups ≠ [] := fun h => by simp [h] at hg
    exact ⟨_, g.noted s w, getWave_noteMembers here hw, by simp [hg], rfl, rfl, rfl⟩
  case timer =>
    intro s w evs m e t hk hc ht
    simp [evalMember, hk, hc, ht]
    exact fun _ => Iff.rfl
  case flush =>
    intro s job j w d hj here hd t
    have meaning : exec (.flushDone job) s = execFlushDone job s := rfl
    rw [meaning, execFlushDone, hj]
    refine congrArg _ ((settleDue_of_due (w := w) ?_ hd 0).trans ?_)
    · split <;> exact here
    · split <;> simp [foldl_writeBack_flushes, t]
end Sys2Proof.Machine

/-! SUPPORT. Placement: the order of the waiting units, what a request to a range gives, the cores a cohort is given, and a run of the
procedure (spec/03 R29; spec/21 R353 to R361). -/

namespace Sys2Proof.Machine

open Sys2Proof

/-! ### The order of the waiting units (R353) -/

theorem lexLe_cons_iff (a b : Int) (as bs : List Int) :
    lexLe (a :: as) (b :: bs) = true ↔ a < b ∨ a = b ∧ lexLe as bs = true := by
  simp [lexLe]

theorem flagKey_lt_iff (p q : Prop) [Decidable p] [Decidable q] :
    (if p then (0 : Int) else 1) < (if q then 0 else 1) ↔ p ∧ ¬ q := by
  by_cases hp : p <;> by_cases hq : q <;> simp [hp, hq]

theorem flagKey_eq_iff (p q : Prop) [Decidable p] [Decidable q] :
    (if p then (0 : Int) else 1) = (if q then 0 else 1) ↔ (p ↔ q) := by
  by_cases hp : p <;> by_cases hq : q <;> simp [hp, hq]

/-- A unit is the head-of-line unit of a cluster. -/
def Heads (s : State) (c : Nat) (u : Bool × Nat) : Prop := ∃ x, fget s.clusters c = some x ∧ x.head = some u

theorem heads_iff (s : State) (c : Nat) (u : Bool × Nat) :
    ((fget s.clusters c).map fun x => x.head == some u).getD false = true ↔ Heads s c u := by
  cases h : fget s.clusters c <;> simp [Heads, h]

/-- One unit comes before another or stands with it, by the keys of R353. -/
theorem unitKeys_le_iff (s : State) (c : Nat) (a b : Bool × Nat) :
    lexLe (unitKeys s c a) (unitKeys s c b) = true ↔
    let prio := fun (u : Bool × Nat) => effPrio s (unitRegion s u)
    let short := fun (u : Bool × Nat) => (coresOf s (unitRegion s u)).length < eff s 8 Region.mincores (unitRegion s u)
    let served := fun (u : Bool × Nat) => ((fget s.regions (unitRegion s u)).map Region.vserv).getD 0
    (Heads s c a ∧ ¬ Heads s c b) ∨ (Heads s c a ↔ Heads s c b) ∧ (prio b < prio a ∨ prio a = prio b ∧
      ((short a ∧ ¬ short b) ∨ (short a ↔ short b) ∧ (served a < served b ∨ served a = served b ∧
        (unitAge s b < unitAge s a ∨ unitAge s a = unitAge s b ∧
          ((a.1 = true ∧ b.1 = false) ∨ a.1 = b.1 ∧ unitIndex s a ≤ unitIndex s b))))) := by
  have negLt : ∀ x y : Nat, (-(x : Int) < -(y : Int)) ↔ y < x := by omega
  have negEq : ∀ x y : Nat, (-(x : Int) = -(y : Int)) ↔ x = y := by omega
  have last : ∀ x y : Nat, lexLe [(x : Int)] [(y : Int)] = true ↔ x ≤ y := by
    intro x y
    rw [lexLe_cons_iff]
    simp only [lexLe, and_true]
    omega
  simp only [unitKeys, lexLe_cons_iff, last, negLt, negEq, flagKey_lt_iff, flagKey_eq_iff, heads_iff, Nat.cast_lt, Nat.cast_inj,
    Bool.not_eq_true, Bool.coe_iff_coe]

theorem orderedUnits_perm (s : State) (c : Nat) : (orderedUnits s c).Perm (waitingUnits s) := sortBy_perm _ _

theorem orderedUnits_pairwise (s : State) (c : Nat) :
    (orderedUnits s c).Pairwise fun a b => lexLe (unitKeys s c a) (unitKeys s c b) = true :=
  sortBy_pairwise (fun a b => lexLe_total (unitKeys s c a) (unitKeys s c b))
    (fun a b d => lexLe_trans (unitKeys s c a) (unitKeys s c b) (unitKeys s c d)) _

/-- A list that is in order already stays as it is. -/
theorem sortBy_of_pairwise {α : Type} {le : α → α → Bool} {l : List α} (h : l.Pairwise fun a b => le a b = true) :
    sortBy le l = l := by
  induction l with
  | nil => rfl
  | cons a t ih =>
    obtain ⟨ha, ht⟩ := List.pairwise_cons.mp h
    rw [sortBy, ih ht]
    cases t with
    | nil => rfl
    | cons b t => rw [insertBy, if_pos (ha b List.mem_cons_self)]

/-! ### Least elements -/

theorem minBy_mem {α : Type} {f : α → Nat} {l : List α} {a : α} (h : minBy f l = some a) : a ∈ l := by
  induction l generalizing a with
  | nil => cases h
  | cons b t ih =>
    rw [minBy] at h
    split at h
    · cases h
      exact List.mem_cons_self
    · rename_i c hc
      split at h
      · cases h
        exact List.mem_cons_of_mem _ (ih hc)
      · cases h
        exact List.mem_cons_self

/-- An element whose measure is below that of every other is the least. -/
theorem minBy_of_least {α : Type} {f : α → Nat} {l : List α} {a : α} (ha : a ∈ l) (least : ∀ b ∈ l, f a < f b ∨ b = a) :
    minBy f l = some a := by
  induction l with
  | nil => cases ha
  | cons b t ih =>
    have rest := fun c hc => least c (List.mem_cons_of_mem b hc)
    rw [minBy]
    by_cases at' : a ∈ t
    · rw [ih at' rest]
      rcases least b List.mem_cons_self with hb | rfl
      · exact if_pos hb
      · exact if_neg (Nat.lt_irrefl _)
    · obtain rfl : a = b := (List.mem_cons.mp ha).resolve_right at'
      cases hc : minBy f t with
      | none => rfl
      | some c =>
        have hm := minBy_mem hc
        have above : f a < f c := (rest c hm).resolve_right fun e => at' (e ▸ hm)
        exact if_neg (Nat.not_lt.mpr above.le)

/-! ### A request to a range (R29) -/

/-- The greatest boundary of a grain below the end of a claim. -/
def grainCut (r : Range) (y : Nat) : Nat := r.lo0 + r.grain * ((y - 1 - r.lo0) / r.grain)

theorem grainCut_lt {r : Range} {y : Nat} (h : r.lo0 < y) : grainCut r y < y := by
  have := Nat.mul_div_le (y - 1 - r.lo0) r.grain
  unfold grainCut
  omega

theorem sub_grainCut_le {r : Range} {y : Nat} (hg : 0 < r.grain) (h : r.lo0 < y) : y - grainCut r y ≤ r.grain := by
  have := Nat.div_add_mod (y - 1 - r.lo0) r.grain
  have := Nat.mod_lt (y - 1 - r.lo0) hg
  unfold grainCut
  omega

/-- A request to a range is the last chunk of the cluster's claim, and the claim keeps what lies below it. -/
theorem requestChunk_of_claim {r q : Range} {c x y : Nat} (h : claimOf r c = some ((x, y), q)) :
    requestChunk r c = some ((max x (grainCut r y), y), { q with
      claims := if x < max x (grainCut r y) then fset q.claims c (x, max x (grainCut r y)) else fdel q.claims c }) := by
  simp only [requestChunk, h, Option.map_some]
  rfl

theorem claimOf_held {r : Range} {c : Nat} {i : Nat × Nat} (h : fget r.claims c = some i) : claimOf r c = some (i, r) := by
  simp only [claimOf, h]

theorem claimOf_nothing {r : Range} {c : Nat} (h : fget r.claims c = none) (hp : r.pending = []) : claimOf r c = none := by
  simp [claimOf, h, hp, longest, minBy]

/-- The longest pending interval, the lowest of those (R29). -/
theorem longest_of_longest {l : List (Nat × Nat)} {a b : Nat} (hm : (a, b) ∈ l) (hb : a < b) (top : b < 2 ^ 64)
    (h : ∀ i ∈ l, i.2 - i.1 < b - a ∨ i.2 - i.1 = b - a ∧ a < i.1 ∨ i = (a, b)) : longest l = some (a, b) := by
  refine minBy_of_least hm fun i hi => ?_
  rcases h i hi with shorter | ⟨equal, above⟩ | rfl
  · left; dsimp only; omega
  · left; dsimp only; omega
  · exact .inr rfl

/-- Where a new claim on the interval from `a` to `b` is split off: the whole of it, or from the last boundary of a grain at or before
its middle, at least a grain in (R29). -/
def claimStart (r : Range) (a b : Nat) : Nat :=
  let s0 := r.lo0 + r.grain * ((a + (b - a) / 2 - r.lo0) / r.grain)
  if s0 = a then a + r.grain else s0

section
variable {r : Range} {c a b : Nat} (h : fget r.claims c = none) (hl : longest r.pending = some (a, b))
include h hl

theorem claimOf_short (hs : b - a ≤ r.grain) : claimOf r c = some ((a, b), { r with pending := r.pending.erase (a, b) }) := by
  simp only [claimOf, h, hl, if_pos hs]

theorem claimOf_long (hs : ¬ b - a ≤ r.grain) : claimOf r c =
    some ((claimStart r a b, b), { r with pending := r.pending.erase (a, b) ++ [(a, claimStart r a b)] }) := by
  simp only [claimOf, h, hl, if_neg hs, claimStart]

end

/-! ### The cores of a cohort (R354) -/

/-- Each gang gets a core of its own, among the free ones, with room for its granules and waves. -/
theorem fitCores_fits {s : State} {shape : List (Nat × Nat)} {free cores : List Nat} (h : fitCores s shape free = some cores)
    (hn : free.Nodup) : cores.length = shape.length ∧ cores.Nodup ∧ (∀ k ∈ cores, k ∈ free) ∧
      ∀ p ∈ shape.zip cores, coreGranules s p.2 + p.1.1 ≤ 64 ∧ (coreWaves s p.2).length + p.1.2 ≤ 64 := by
  induction shape generalizing free cores with
  | nil => cases h; simp
  | cons g rest ih =>
    obtain ⟨gran, nw⟩ := g
    simp only [fitCores] at h
    split at h
    · cases h
    · rename_i k hk
      obtain ⟨ks, hks, rfl⟩ := Option.map_eq_some_iff.mp h
      obtain ⟨len, nodup, sub, fits⟩ := ih hks (hn.filter _)
      have room := minBy_mem hk
      simp only [List.mem_filter, Bool.and_eq_true, decide_eq_true_eq] at room
      obtain ⟨here, granules, waves⟩ := room
      have other : ∀ x ∈ ks, x ∈ free ∧ x ≠ k := fun x hx => by simpa using sub x hx
      refine ⟨by simp [len], List.nodup_cons.mpr ⟨fun hx => (other k hx).2 rfl, nodup⟩, ?_, ?_⟩
      · rintro x (_ | ⟨_, hx⟩)
        · exact here
        · exact (other x hx).1
      · rintro p (_ | ⟨_, hp⟩)
        · exact ⟨granules, waves⟩
        · exact fits p hp

end Sys2Proof.Machine

/-! SUPPORT. Runs of the placement procedure, and the events of placement and of the monitors (spec/21 R355 to R361; spec/23 R375, R377,
R380 to R383), and O49. -/

namespace Sys2Proof.Machine

open Sys2Proof

/-! ### The placement procedure (R354, R355) -/

/-- A unit placed on cores of a cluster. -/
def placeOn (s : State) (n : Nat) (u : Bool × Nat) (cores : List Nat) : State :=
  if u.1 then placeSaved s u.2 n cores else placeRange s u.2 n cores

section
variable {s : State} {n : Nat} {free : List Nat} {u : Bool × Nat}

theorem placeUnit_fits {cores : List Nat} (hu : u ∈ waitingUnits s) (h : unitFit s u free = some cores) :
    placeUnit s n free u = placeOn s n u cores := by
  simp [placeUnit, hu, h, placeOn]

theorem placeUnit_unfit (h : unitFit s u free = none) : placeUnit s n free u = s := by
  simp [placeUnit, h]

theorem placeUnit_gone (hu : u ∉ waitingUnits s) : placeUnit s n free u = s := by
  simp [placeUnit, hu]

end

/-- The arbiter waits until every placement of the fabric cycle has been made (R359). -/
theorem arbiter_waits {s : State} (h : ∃ p ∈ s.clusters, p.2.run = true ∧ p.2.started = true) : arbiter s = s := by
  refine if_pos ?_
  simpa using h

/-- A cluster that has begun its run of the procedure. -/
def beginRun (s : State) (n : Nat) (c : Cluster) : State := { s with clusters := fset s.clusters n { c with run := false } }

theorem placement_idle {s : State} {n : Nat} {c : Cluster} (h : fget s.clusters n = some c) (hr : c.run = false) :
    exec (.placement n) s = .next s := by
  have meaning : exec (.placement n) s = execPlacement n s := rfl
  simp [meaning, execPlacement, h, hr]

section
variable {s : State} {n : Nat} {c : Cluster} (h : fget s.clusters n = some c) (hr : c.run = true) (hs : c.started = true)
  (hp : s.host.powered = true)
include h hr hs hp

/-- A run for a head-of-line unit places it alone, on the reserved cores (R361). -/
theorem placement_head {u : Bool × Nat} (hh : c.head = some u) : exec (.placement n) s =
    .next (arbiter (placeUnit (beginRun s n c) n (sortBy (fun a b => decide (a ≤ b)) c.reserved) u)) := by
  have meaning : exec (.placement n) s = execPlacement n s := rfl
  simp [meaning, execPlacement, h, hr, hs, hp, hh, beginRun]

theorem placement_units (hh : c.head = none) : exec (.placement n) s =
    .next (arbiter ((orderedUnits (beginRun s n c) n).foldl (fun t u => placeUnit t n (clusterCores n) u) (beginRun s n c))) := by
  have meaning : exec (.placement n) s = execPlacement n s := rfl
  simp [meaning, execPlacement, h, hr, hs, hp, hh, beginRun]

end

/-! ### The start of a cohort (R356) -/

/-- Gangs that are not being restored have nothing to be read back. -/
theorem restore_none (s : State) (gs : List Nat) (h : ∀ g ∈ gs, ∀ x, fget s.gangs g = some x → x.restoring = false) :
    gs.foldl (fun (a : Option State) g => a.bind fun s =>
      if ((fget s.gangs g).map Gang.restoring).getD false then restoreGang s g else some s) (some s) = some s := by
  induction gs with
  | nil => rfl
  | cons g t ih =>
    have idle : ((fget s.gangs g).map Gang.restoring).getD false = false := by
      cases hg : fget s.gangs g with
      | none => rfl
      | some x => exact h g List.mem_cons_self x hg
    rw [List.foldl_cons, Option.bind_some, idle]
    exact ih fun g' hg' => h g' (List.mem_cons_of_mem g hg')

theorem startCohort_new {s : State} {n : Nat} {k : Cohort}
    (h : ∀ g ∈ k.gangs, ∀ x, fget s.gangs g = some x → x.restoring = false) : startCohort s n k =
      some (askedBy (k.gangs.foldl (fun s g => (gangWaves s g).foldl (fun s p => enqueueRun s p.1 true) s)
        (modCohort s n fun k => { k with started := true })) k.region) := by
  rw [startCohort, restore_none (modCohort s n fun k => { k with started := true }) k.gangs h]
  rfl

theorem cohortStart_starts {s t : State} {n : Nat} {k : Cohort} (h : fget s.cohorts n = some k) (hs : k.started = false)
    (hr : k.resident = true) (he : k.ended = false) (hl : regionStatus s k.region ≠ 2) (ht : startCohort s n k = some t) :
    exec (.cohortStart n) s = .next t := by
  have meaning : exec (.cohortStart n) s = execCohortStart n s := rfl
  simp [meaning, execCohortStart, h, hs, hr, he, hl, ht]

/-! ### Ageing and pre-emption (R358 to R360, R377) -/

/-- A waiting unit that becomes aged goes to the arbiter (R359). -/
theorem unitAged_arbitrated {s : State} {saved : Bool} {n : Nat} (hw : (saved, n) ∈ waitingUnits s)
    (hf : unitAgedFlag s (saved, n) = false) (ha : s.agelimit ≤ unitAge s (saved, n)) :
    exec (.unitAged saved n) s = .next (arbiter (if saved then modCohort s n fun k => { k with aged := true }
      else { s with ranges := fmod s.ranges n fun r => { r with aged := true } })) := by
  have meaning : exec (.unitAged saved n) s = execUnitAged saved n s := rfl
  simp [meaning, execUnitAged, hw, hf, Nat.not_lt.mpr ha]

theorem quantumExpiry_preempts {s : State} {n : Nat} {g : Gang} {p : Nat × Cluster} (h : fget s.gangs n = some g)
    (he : g.ended = false) (hr : gangResident s g = true) (hp : p ∈ s.clusters) (hh : p.2.head.isSome = true)
    (hc : g.core ∈ p.2.reserved) (ht : g.runStart + 5 * s.quantum ≤ s.time) :
    exec (.quantumExpiry n) s = .next (raisePreempt s g.cohort) := by
  have meaning : exec (.quantumExpiry n) s = execQuantumExpiry n s := rfl
  have reserved : (s.clusters.any fun p => p.2.head.isSome && p.2.reserved.contains g.core) = true :=
    List.any_eq_true.mpr ⟨p, hp, by simp [hh, hc]⟩
  simp only [meaning, execQuantumExpiry, h, he, hr, reserved]
  rw [if_neg (by simpa using ht)]

theorem saveDrainOverrun_discards {s : State} {n g : Nat} {k : Cohort} {x : Gang} (h : fget s.cohorts n = some k)
    (hp : k.preempted = true) (hr : k.resident = true) (he : k.ended = false) (hg : g ∈ k.gangs) (hx : fget s.gangs g = some x)
    (hm : x.mask ≠ 0) (hl : x.released = false) (hn : x.ended = false) (ht : k.raisedAt + 480000 < s.time)
    (hs : regionStatus s k.region ≠ 2) : exec (.saveDrainOverrun n) s = .next (discardOf s k.region) := by
  have meaning : exec (.saveDrainOverrun n) s = execSaveDrainOverrun n s := rfl
  have saving : ∃ g ∈ k.gangs, (match fget s.gangs g with
      | some x => x.mask != 0 && !x.released && !x.ended
      | none => false) = true := ⟨g, hg, by simpa [hx, hl, hn] using hm⟩
  simp only [meaning, execSaveDrainOverrun, h, hp, hr, he]
  rw [if_neg (by simpa using ⟨⟨saving, ht⟩, hs⟩)]

/-! ### The monitors (R375, R382, R383) -/

section
variable {s : State} {r : Nat} {g : Region} (h : fget s.regions r = some g)
include h

theorem deadlockDetect_traps (hs : g.status ≠ 2) (hd : g.deadRaised = false) (ht : 2 ^ 20 ≤ g.deadFor)
    (hl : deadlocked s r = true) : exec (.deadlockDetect r) s = .next ((leaders s r true).foldl
      (fun s w => addPending s w ⟨40, cDEADLOCK, 0, none, 0, none⟩) (modRegion s r fun g => { g with deadRaised := true })) := by
  have meaning : exec (.deadlockDetect r) s = execDeadlockDetect r s := rfl
  simp only [meaning, execDeadlockDetect, h]
  rw [if_neg (by simp [hs, hd, hl]; omega)]

theorem progressStall_freezes {p : Nat} (hs : g.status = 0) (ht : 2 ^ 26 ≤ g.progress) (hp : g.parent = some p) :
    let t := pushEvent (modRegion s r fun g => { g with status := 1 }) p 4 g.handle
    exec (.progressStall r) s =
      .next ((leaders t r false).foldl (fun s w => addPending s w ⟨40, cSTALL, 0, none, 0, none⟩) t) := by
  have meaning : exec (.progressStall r) s = execProgressStall r s := rfl
  simp only [meaning, execProgressStall, h, hp]
  rw [if_neg (by simp [hs]; omega)]

theorem memerr_discards (hs : g.status ≠ 2) : exec (.memerr r) s = .next (discardOf s r) := by
  have meaning : exec (.memerr r) s = execMemerr r s := rfl
  simp [meaning, execMemerr, regionStatus, h, hs]

end

/-! ### O49 -/

/-- Settles O49: the order of the units by their keys, a request by the claim it works from, the cores by induction on the gangs, and
each event by the case of its meaning that its hypotheses name. -/
theorem schedulerAndMonitors : Obligations.SchedulerAndMonitors := by
  unfold Obligations.SchedulerAndMonitors
  refine ⟨?order, ?request, fun s shape free cores h hn => fitCores_fits h hn, fun s n c h hr => placement_idle h hr,
    fun s h => arbiter_waits h, ?placement, ?start, fun s n hw hf ha => unitAged_arbitrated hw hf ha,
    fun s n hw hf ha => unitAged_arbitrated hw hf ha, fun s n g p h he hr hp hh hc ht => quantumExpiry_preempts h he hr hp hh hc ht,
    fun s n k g x h hp hr he hg hx hm hl hn ht hs => saveDrainOverrun_discards h hp hr he hg hx hm hl hn ht hs,
    fun s r g h hs hd ht hl => deadlockDetect_traps h hs hd ht hl, fun s r g p h hs ht hp => progressStall_freezes h hs ht hp,
    fun s r g h hs => memerr_discards h hs⟩
  case order =>
    exact fun s c => ⟨orderedUnits_perm s c, (orderedUnits_pairwise s c).imp fun h => (unitKeys_le_iff s c _ _).mp h⟩
  case request =>
    intro r c hg cut keeps
    refine ⟨fun h hp => by rw [requestChunk, claimOf_nothing h hp, Option.map_none], fun x y h hx hy => ?held,
      fun a b h hm ha hb top hl => ?split⟩
    case held =>
      have below := grainCut_lt (Nat.lt_of_le_of_lt hx hy)
      have near := sub_grainCut_le hg (Nat.lt_of_le_of_lt hx hy)
      exact ⟨requestChunk_of_claim (claimOf_held h), le_max_left .., max_lt hy below,
        (Nat.sub_le_sub_left (le_max_right ..) y).trans near⟩
    case split =>
      intro rest s0 m x
      have longest := longest_of_longest hm hb top hl
      by_cases short : b - a ≤ r.grain
      · simp only [x, if_pos short]
        exact requestChunk_of_claim (claimOf_short h longest short)
      · simp only [x, if_neg short]
        exact requestChunk_of_claim (claimOf_long h longest short)
  case placement =>
    intro s n c u cores h hr hs hp t put
    refine ⟨fun hh hu order hf => ?_, fun hh hu hf => ?_, fun hh => ?_⟩
    · have sorted := sortBy_of_pairwise (le := fun a b => decide (a ≤ b)) (order.imp fun h => decide_eq_true h)
      have ran := placement_head h hr hs hp hh
      rw [sorted] at ran
      exact ran.trans (congrArg (fun t => Host.Outcome.next (arbiter t)) (placeUnit_fits hu hf))
    · exact (placement_head h hr hs hp hh).trans (congrArg (fun t => Host.Outcome.next (arbiter t)) (placeUnit_unfit hf))
    · rw [placement_units h hr hs hp hh]
      refine congrArg (fun f => Host.Outcome.next (arbiter ((orderedUnits t n).foldl f t))) (funext fun t => funext fun u => ?_)
      split
      · split
        · exact placeUnit_fits ‹_› ‹_›
        · exact placeUnit_unfit ‹_›
      · exact placeUnit_gone ‹_›
  case start =>
    exact fun s n k h hs hr he hl hg => cohortStart_starts h hs hr he hl (startCohort_new hg)

end Sys2Proof.Machine

/-! SUPPORT. The checks at issue, in their order (spec/07 Table 7.5), the words that join a chain (spec/07 R107), and O19, O20. -/

namespace Sys2Proof.Machine

open Sys2Proof

/-! ### Words that join a chain (R107) -/

/-- An XIMM, XOP, HINT or GUARD word that passes its checks joins its chain; its lanes stay where they are. -/
theorem prefixWord_joins {i : Instr} {kind bits : Nat} (he : ∀ s, exec i s = .next (prefixWord kind bits s)) :
    Does i (fun _ ws => { cls := 31, ximm := true, xop := some 0xFFFFFF, guard := true
                          bad := (prefixOf ws kind).isSome || decide (3 ≤ ws.length) }) fun v s =>
      setWave s v.wid { v.w with
        chain := some ⟨v.pc, v.iss, v.pfx ++ [BitVec.ofNat 32 (0xF8000000 + kind * 2 ^ 24 + bits)]⟩ } := by
  intro s wid w pc iss ws h p
  rw [he, prefixWord, issue_of_passes h p]
  exact congrArg _ (modWave_of_get _ h.here)

/-- Settles O19: XIMM, XOP, HINT and GUARD are one shared meaning, each with its own kind and payload. -/
theorem prefixWords : Obligations.PrefixWords := by
  intro _ _ _ _ joins
  exact ⟨prefixWord_joins fun _ => rfl, prefixWord_joins fun _ => rfl, prefixWord_joins fun _ => rfl,
    prefixWord_joins fun _ => rfl⟩

/-! ### A check that fails (Table 7.5) -/

@[simp] theorem Wave.reserved_nil (w : Wave) : w.reserved [] = false := by simp [Wave.reserved]

theorem Wave.reserved_of_idle {w : Wave} (hl : w.log = []) (hd : w.dues = []) (runs : List RegRun) :
    w.reserved runs = false := by
  simp [Wave.reserved, hl, hd]

section
variable {s : State} {wid : Nat} {w : Wave} {pc : DWord} {iss : Word} {ws : List Word} {info : Wave → List Word → OpInfo}
  {body : Env → State → Res} {c : Nat} {a : DWord} {i : Instr} (he : exec i s = .next (issue s info body))
  (h : Stands s wid w pc iss ws) (hl : w.priv = .s ∨ w.log = [])
  (free : w.reserved ((info w ws).rs ++ (info w ws).ws) = false)
  (fails : issueCheck w (info w ws) ws (samples w ws) = some (c, a))
include h hl free fails

/-- The first check that fails traps at the chain's address, before any effect. -/
theorem issue_check_traps : issue s info body = takeTrap s wid ⟨c, 0, pc, pc, a, false⟩ := by
  have empty : (w.priv == .u && !w.log.isEmpty) = false := by
    rcases hl with hs | hn
    · simp [hs]
    · simp [hn]
  unfold samples at fails
  simp [issue, h.cur, h.here, h.front, h.may, free, empty, fails]

include he in
theorem exec_check_traps : exec i s = .next (takeTrap s wid ⟨c, 0, pc, pc, a, false⟩) :=
  he.trans (congrArg _ (issue_check_traps h hl free fails))

end

/-! ### The checks in their order -/

/-- The conditions of order 1: its own, the chain's prefixes, and the registers it names. -/
def OpInfo.illegal (i : OpInfo) (w : Wave) (ws : List Word) : Bool :=
  i.bad || !i.chainOk ws || !(i.rs ++ i.ws ++ i.named).all w.holds

section
variable {w : Wave} {i : OpInfo} {ws : List Word} {rm : Nat}

theorem issueCheck_illegal (h : i.illegal w ws = true) : issueCheck w i ws rm = some (cILLEGAL, 0) := if_pos h

variable (legal : i.illegal w ws = false)
include legal

theorem issueCheck_priv (needs : i.priv = true) (user : w.priv = .u) : issueCheck w i ws rm = some (cPRIV, 0) := by
  refine (if_neg (ne_true_of_eq_false legal)).trans ?_
  simp [needs, user]

variable (unprivileged : i.priv = false)
include unprivileged

theorem issueCheck_role (h : roleMay w.role i.cls = false) : issueCheck w i ws rm = some (cROLE, 0) := by
  refine (if_neg (ne_true_of_eq_false legal)).trans ?_
  simp [unprivileged, h]

variable (may : roleMay w.role i.cls = true)
include may

theorem issueCheck_dead {x : DWord} (traps : w.deadtrap = true) (dead : i.rs.findSome? w.deadIn = some x) :
    issueCheck w i ws rm = some (cDEADREG, x) := by
  refine (if_neg (ne_true_of_eq_false legal)).trans ?_
  simp [unprivileged, may, traps, dead]

theorem issueCheck_rm (alive : w.deadtrap = false) (rounds : i.rounds = true) (h : 5 < rm) :
    issueCheck w i ws rm = some (cBADRM, 0) := by
  refine (if_neg (ne_true_of_eq_false legal)).trans ?_
  simp [unprivileged, may, alive, rounds, h]

end

/-! ### A VR word of three registers, alone in its chain -/

theorem Wave.holds_reg (w : Wave) (r : BitVec 7) : w.holds (.v r.toNat 1) = w.holdsV r.toNat := by
  simp [Wave.holds, numsFrom, r.isLt]

theorem Wave.deadIn_reg {w : Wave} {r : BitVec 7} (dead : w.deadV.getLsbD r.toNat = true) :
    w.deadIn (.v r.toNat 1) = some (r.setWidth 64) := by
  have e : BitVec.ofNat 64 r.toNat = r.setWidth 64 := BitVec.eq_of_toNat_eq (by simp)
  simp [Wave.deadIn, numsFrom, deadBit, dead, e]

theorem vrInfo_illegal (w : Wave) (cls : Nat) (g : BitVec 3) (d a b : BitVec 7) (names : Nat) (rounds : Bool) :
    (vrInfo cls g d a b 1 1 1 0 names rounds []).illegal w [] =
      !(w.holdsV d.toNat && w.holdsV a.toNat && w.holdsV b.toNat) := by
  simp [OpInfo.illegal, vrInfo, OpInfo.chainOk, prefixOf, Wave.holds_reg, Bool.and_comm, Bool.and_assoc,
    Bool.and_left_comm]

/-- A VECTOR or a GENERAL wave issues every class of vector arithmetic (Table 3.5). -/
theorem roleMay_vector {role cls : Nat} (hr : role = 2 ∨ role = 3) (hc : cls ≤ 12) : roleMay role cls = true := by
  rcases hr with rfl | rfl <;> simp [roleMay, hc]

theorem samples_nil (w : Wave) : samples w [] = w.sampledRm none := rfl

/-- Settles O20: a word whose check fails raises that check's trap, and each of the five examples passes the checks before its own. -/
theorem issueChecksTrap : Obligations.IssueChecksTrap := by
  refine ⟨fun x s wid w pc iss ws h hl => ?illegal, fun info body s wid w pc iss ws c a h hl free fails => ?general,
    fun g d a b s wid w pc iss h hl hd => ?examples⟩
  case illegal => exact exec_check_traps rfl h hl w.reserved_nil (issueCheck_illegal rfl)
  case general => exact issue_check_traps h hl free fails
  case examples =>
    intro raises held
    have raised {info : Wave → List Word → OpInfo} {body : Env → State → Res} {i : Instr} {c : Nat} {x : DWord}
        (he : exec i s = .next (issue s info body)) (fails : issueCheck w (info w []) [] (samples w []) = some (c, x)) :
        raises i c x :=
      exec_check_traps he h (.inr hl) (Wave.reserved_of_idle hl hd _) fails
    have legal (cls names : Nat) (rounds : Bool) (hh : held) :
        (vrInfo cls g d a b 1 1 1 0 names rounds []).illegal w [] = false := by
      obtain ⟨hhd, hha, hhb⟩ := hh
      simp [vrInfo_illegal, hhd, hha, hhb]
    refine ⟨fun hh => ?_, fun user => ?_, fun hh role => ?_, fun hh role user traps dead => ?_, fun hh role alive rm => ?_⟩
    · exact raised rfl (issueCheck_illegal (by simpa [vrInfo_illegal, held, Classical.or_iff_not_imp_left] using hh))
    · exact raised rfl (issueCheck_priv rfl rfl user)
    · exact raised rfl (issueCheck_role (legal _ _ _ hh) rfl (by rcases role with r | r <;> simp [r, roleMay, vrInfo]))
    · refine raised rfl (issueCheck_dead (legal _ _ _ hh) rfl (roleMay_vector (cls := 0) role (by decide)) ?_ ?_)
      · simp [Wave.deadtrap, user, traps]
      · simp [vrInfo, Wave.deadIn_reg dead]
    · refine raised rfl (issueCheck_rm (legal _ _ _ hh) rfl (roleMay_vector (cls := 4) role (by decide)) ?_ rfl (samples_nil w ▸ rm))
      simp only [Wave.deadtrap, alive, Bool.false_and]

end Sys2Proof.Machine

/-! SUPPORT. Every word is the encoding of what it decodes to: the fields of a row tile the word, and a word of no row decodes to an
illegal word (spec/07 R98 to R104, Tables 7.1 to 7.4); and O58, O59. -/

namespace Sys2Proof.Laws.Encoding

open Sys2Proof

/-! ### Fields that tile a word -/

/-- Adjacent fields of the given lengths, the first at bit `lo`, each with its bits in their place. -/
def spelled (w : Nat) : Nat → List Nat → Nat
  | _, [] => 0
  | lo, len :: t => fieldOf w lo len * 2 ^ lo + spelled w (lo + len) t

theorem mod_add_spelled (w lo : Nat) (lens : List Nat) : w % 2 ^ lo + spelled w lo lens = w % 2 ^ (lo + lens.sum) := by
  induction lens generalizing lo with
  | nil => rfl
  | cons len t ih =>
    rw [spelled, List.sum_cons, ← Nat.add_assoc lo, ← ih, pow_add, Nat.mod_mul, fieldOf]
    ring

/-- Fields that tile the 32 bits of a word spell the word. -/
theorem spelled_of_tiles {w : Nat} (hw : w < 2 ^ 32) (lens : List Nat) (tiles : lens.sum = 32) : spelled w 0 lens = w := by
  have h := mod_add_spelled w 0 lens
  rwa [tiles, Nat.zero_add, Nat.mod_eq_of_lt hw, pow_zero, Nat.mod_one, Nat.zero_add] at h

theorem toNat_bitsOf (len lo w : Nat) : (bitsOf len lo w).toNat = fieldOf w lo len := BitVec.toNat_ofNat ..

/-! ### What a class decodes a word to has that word as its encoding -/

/-- Where the decoder found a row, the word of the row's instruction is `w`. -/
def Encodes (w : Nat) (o : Option Instr) : Prop := ∀ i ∈ o, encodeNat i = w ∧ i.wf = true

theorem encodes_none {w : Nat} : Encodes w none := nofun

theorem encodes_some {w : Nat} {i : Instr} : Encodes w (some i) ↔ encodeNat i = w ∧ i.wf = true := by
  simp [Encodes]

theorem encodes_ite {w : Nat} {c : Prop} [Decidable c] {o o' : Option Instr} :
    Encodes w (if c then o else o') ↔ (c → Encodes w o) ∧ (¬ c → Encodes w o') := by
  by_cases hc : c <;> simp [hc]

section
variable {w : Nat} (hw : w < 2 ^ 32)
include hw

/-! In each class the fields that a row fixes and those that it gives its instruction tile the word, so the instruction's word is a
sum whose terms the fields of `w` spell. -/

theorem class0_encodes (hk : fieldOf w 27 5 = 0) : Encodes w (decodeClass0 w) := by
  have tiled := spelled_of_tiles hw [3, 7, 7, 7, 3, 5] rfl
  simp only [spelled, Nat.reduceAdd] at tiled
  unfold decodeClass0
  split
  case h_9 => exact encodes_none
  all_goals
    simp only [encodes_some]
    unfold encodeNat Instr.wf Instr.isWord
    simp only [put4, put3, put2, put1, toNat_bitsOf, and_true]
    omega

theorem class1_encodes (hk : fieldOf w 27 5 = 1) : Encodes w (decodeClass1 w) := by
  have tiled := spelled_of_tiles hw [3, 7, 7, 7, 3, 5] rfl
  simp only [spelled, Nat.reduceAdd] at tiled
  unfold decodeClass1
  split
  case h_9 => exact encodes_none
  all_goals
    simp only [encodes_some]
    unfold encodeNat Instr.wf Instr.isWord
    simp only [put4, put3, put2, put1, toNat_bitsOf, and_true]
    omega

theorem class2_encodes (hk : fieldOf w 27 5 = 2) : Encodes w (decodeClass2 w) := by
  have tiled := spelled_of_tiles hw [3, 7, 7, 7, 3, 5] rfl
  simp only [spelled, Nat.reduceAdd] at tiled
  unfold decodeClass2
  split
  case h_9 => exact encodes_none
  all_goals
    simp only [encodes_some]
    unfold encodeNat Instr.wf Instr.isWord
    simp only [put4, put3, put2, put1, toNat_bitsOf, and_true]
    omega

theorem class3_encodes (hk : fieldOf w 27 5 = 3) : Encodes w (decodeClass3 w) := by
  have tiled := spelled_of_tiles hw [3, 7, 7, 7, 3, 5] rfl
  simp only [spelled, Nat.reduceAdd] at tiled
  unfold decodeClass3
  split
  case h_9 => exact encodes_none
  all_goals
    simp only [encodes_ite, encodes_none, implies_true, and_true, encodes_some]
    unfold encodeNat Instr.wf Instr.isWord
    simp only [put4, put3, put2, put1, toNat_bitsOf, and_true]
    omega

theorem class4_encodes (hk : fieldOf w 27 5 = 4) : Encodes w (decodeClass4 w) := by
  have tiled := spelled_of_tiles hw [3, 7, 7, 7, 3, 5] rfl
  simp only [spelled, Nat.reduceAdd] at tiled
  unfold decodeClass4
  split
  case h_9 => exact encodes_none
  all_goals
    simp only [encodes_some]
    unfold encodeNat Instr.wf Instr.isWord
    simp only [put4, put3, put2, put1, toNat_bitsOf, and_true]
    omega

theorem class5_encodes (hk : fieldOf w 27 5 = 5) : Encodes w (decodeClass5 w) := by
  have tiled := spelled_of_tiles hw [3, 7, 7, 7, 3, 5] rfl
  simp only [spelled, Nat.reduceAdd] at tiled
  unfold decodeClass5
  split
  case h_9 => exact encodes_none
  all_goals
    simp only [encodes_some]
    unfold encodeNat Instr.wf Instr.isWord
    simp only [put4, put3, put2, put1, toNat_bitsOf, and_true]
    omega

theorem class6_encodes (hk : fieldOf w 27 5 = 6) : Encodes w (decodeClass6 w) := by
  have tiled := spelled_of_tiles hw [3, 7, 7, 7, 3, 5] rfl
  simp only [spelled, Nat.reduceAdd] at tiled
  unfold decodeClass6
  split
  case h_9 => exact encodes_none
  all_goals
    simp only [encodes_ite, encodes_none, implies_true, and_true, encodes_some]
    unfold encodeNat Instr.wf Instr.isWord
    simp only [put4, put3, put2, put1, toNat_bitsOf, and_true]
    omega

theorem class7_encodes (hk : fieldOf w 27 5 = 7) : Encodes w (decodeClass7 w) := by
  have tiled := spelled_of_tiles hw [3, 7, 7, 7, 3, 5] rfl
  simp only [spelled, Nat.reduceAdd] at tiled
  unfold decodeClass7
  split
  case h_9 => exact encodes_none
  all_goals
    simp only [encodes_ite, encodes_none, implies_true, and_true, encodes_some]
    unfold encodeNat Instr.wf Instr.isWord
    simp only [put4, put3, put2, put1, toNat_bitsOf, and_true]
    omega

theorem class8_encodes (hk : fieldOf w 27 5 = 8) : Encodes w (decodeClass8 w) := by
  have tiled := spelled_of_tiles hw [3, 7, 7, 7, 3, 5] rfl
  simp only [spelled, Nat.reduceAdd] at tiled
  unfold decodeClass8
  split
  case h_9 => exact encodes_none
  all_goals
    simp only [encodes_some]
    unfold encodeNat Instr.wf Instr.isWord
    simp only [put4, put3, put2, put1, toNat_bitsOf, and_true]
    omega

theorem class9_encodes (hk : fieldOf w 27 5 = 9) : Encodes w (decodeClass9 w) := by
  have tiled := spelled_of_tiles hw [2, 5, 3, 7, 7, 3, 5] rfl
  simp only [spelled, Nat.reduceAdd] at tiled
  unfold decodeClass9
  split
  case h_9 => exact encodes_none
  all_goals
    simp only [encodes_some]
    unfold encodeNat Instr.wf Instr.isWord
    simp only [put5, put4, put3, put2, put1, toNat_bitsOf, and_true]
    omega

theorem class10_encodes (hk : fieldOf w 27 5 = 10) : Encodes w (decodeClass10 w) := by
  have tiled₁ := spelled_of_tiles hw [7, 3, 7, 7, 3, 5] rfl
  have tiled₂ := spelled_of_tiles hw [5, 2, 3, 7, 7, 3, 5] rfl
  simp only [spelled, Nat.reduceAdd] at tiled₁ tiled₂
  unfold decodeClass10
  split
  case h_9 => exact encodes_none
  all_goals
    simp only [encodes_ite, encodes_none, implies_true, and_true, encodes_some]
    unfold encodeNat Instr.wf Instr.isWord
    simp only [put4, put3, put2, put1, toNat_bitsOf, and_true]
    omega

theorem class11_encodes (hk : fieldOf w 27 5 = 11) : Encodes w (decodeClass11 w) := by
  have tiled := spelled_of_tiles hw [3, 7, 7, 7, 3, 5] rfl
  simp only [spelled, Nat.reduceAdd] at tiled
  unfold decodeClass11
  split
  case h_9 => exact encodes_none
  all_goals
    simp only [encodes_ite, encodes_none, implies_true, and_true, encodes_some]
    unfold encodeNat Instr.wf Instr.isWord
    simp only [put4, put3, put2, put1, toNat_bitsOf, and_true]
    omega

theorem class12_encodes (hk : fieldOf w 27 5 = 12) : Encodes w (decodeClass12 w) := by
  have tiled := spelled_of_tiles hw [3, 7, 7, 7, 3, 5] rfl
  simp only [spelled, Nat.reduceAdd] at tiled
  unfold decodeClass12
  split
  case h_9 => exact encodes_none
  all_goals
    simp only [encodes_some]
    unfold encodeNat Instr.wf Instr.isWord
    simp only [put4, put3, put2, put1, toNat_bitsOf, and_true]
    omega

theorem class13_encodes (hk : fieldOf w 27 5 = 13) : Encodes w (decodeClass13 w) := by
  have tiled := spelled_of_tiles hw [6, 7, 7, 7, 5] rfl
  simp only [spelled, Nat.reduceAdd] at tiled
  unfold decodeClass13
  split
  case h_33 => exact encodes_none
  all_goals
    simp only [encodes_ite, encodes_none, implies_true, and_true, encodes_some]
    unfold encodeNat Instr.wf Instr.isWord
    simp only [put3, put2, put1, toNat_bitsOf, and_true]
    omega

theorem class14_encodes (hk : fieldOf w 27 5 = 14) : Encodes w (decodeClass14 w) := by
  have tiled := spelled_of_tiles hw [10, 3, 7, 7, 5] rfl
  simp only [spelled, Nat.reduceAdd] at tiled
  unfold decodeClass14
  split
  case h_9 => exact encodes_none
  all_goals
    simp only [encodes_ite, encodes_none, implies_true, and_true, encodes_some]
    unfold encodeNat Instr.wf Instr.isWord
    simp only [put3, put2, put1, toNat_bitsOf, and_true]
    omega

theorem class15_encodes (hk : fieldOf w 27 5 = 15) : Encodes w (decodeClass15 w) := by
  have tiled := spelled_of_tiles hw [6, 7, 7, 7, 5] rfl
  simp only [spelled, Nat.reduceAdd] at tiled
  unfold decodeClass15
  split
  case h_17 => exact encodes_none
  all_goals
    simp only [encodes_ite, encodes_none, implies_true, and_true, encodes_some]
    unfold encodeNat Instr.wf Instr.isWord
    simp only [put3, put2, put1, toNat_bitsOf, and_true]
    omega

theorem class16_encodes (hk : fieldOf w 27 5 = 16) : Encodes w (decodeClass16 w) := by
  have tiled₁ := spelled_of_tiles hw [20, 4, 3, 5] rfl
  have tiled₂ := spelled_of_tiles hw [7, 17, 3, 5] rfl
  simp only [spelled, Nat.reduceAdd] at tiled₁ tiled₂
  unfold decodeClass16
  split
  case h_9 => exact encodes_none
  all_goals
    simp only [encodes_ite, encodes_none, implies_true, and_true, encodes_some]
    unfold encodeNat Instr.wf Instr.isWord
    simp only [put2, put1, toNat_bitsOf, and_true]
    omega

theorem class17_encodes (hk : fieldOf w 27 5 = 17) : Encodes w (decodeClass17 w) := by
  have tiled₁ := spelled_of_tiles hw [24, 3, 5] rfl
  have tiled₂ := spelled_of_tiles hw [16, 8, 3, 5] rfl
  simp only [spelled, Nat.reduceAdd] at tiled₁ tiled₂
  unfold decodeClass17
  split
  case h_8 => exact encodes_none
  all_goals
    simp only [encodes_ite, encodes_none, implies_true, and_true, encodes_some]
    unfold encodeNat Instr.wf Instr.isWord
    simp only [put1, toNat_bitsOf, and_true]
    omega

theorem class18_encodes (hk : fieldOf w 27 5 = 18) : Encodes w (decodeClass18 w) := by
  have tiled := spelled_of_tiles hw [5, 5, 7, 7, 3, 5] rfl
  simp only [spelled, Nat.reduceAdd] at tiled
  unfold decodeClass18
  split
  case h_8 => exact encodes_none
  all_goals
    simp only [encodes_some]
    unfold encodeNat Instr.wf Instr.isWord
    simp only [put4, put3, put2, put1, toNat_bitsOf, and_true]
    omega

theorem class19_encodes (hk : fieldOf w 27 5 = 19) : Encodes w (decodeClass19 w) := by
  have tiled := spelled_of_tiles hw [5, 5, 7, 7, 3, 5] rfl
  simp only [spelled, Nat.reduceAdd] at tiled
  unfold decodeClass19
  split
  case h_6 => exact encodes_none
  all_goals
    simp only [encodes_some]
    unfold encodeNat Instr.wf Instr.isWord
    simp only [put4, put3, put2, put1, toNat_bitsOf, and_true]
    omega

theorem class20_encodes (hk : fieldOf w 27 5 = 20) : Encodes w (decodeClass20 w) := by
  have tiled := spelled_of_tiles hw [5, 5, 7, 7, 3, 5] rfl
  simp only [spelled, Nat.reduceAdd] at tiled
  unfold decodeClass20
  split
  case h_17 => exact encodes_none
  all_goals
    simp only [encodes_some]
    unfold encodeNat Instr.wf Instr.isWord
    simp only [put4, put3, put2, put1, toNat_bitsOf, and_true]
    omega

theorem class21_encodes (hk : fieldOf w 27 5 = 21) : Encodes w (decodeClass21 w) := by
  have tiled := spelled_of_tiles hw [5, 5, 7, 7, 3, 5] rfl
  simp only [spelled, Nat.reduceAdd] at tiled
  unfold decodeClass21
  split
  case h_3 => exact encodes_none
  all_goals
    simp only [encodes_some]
    unfold encodeNat Instr.wf Instr.isWord
    simp only [put4, put3, put2, put1, toNat_bitsOf, and_true]
    omega

theorem class22_encodes (hk : fieldOf w 27 5 = 22) : Encodes w (decodeClass22 w) := by
  have tiled := spelled_of_tiles hw [12, 3, 5, 7, 5] rfl
  simp only [spelled, Nat.reduceAdd] at tiled
  unfold decodeClass22
  split
  case h_9 => exact encodes_none
  all_goals
    simp only [encodes_ite, encodes_none, implies_true, and_true, encodes_some]
    unfold encodeNat Instr.wf Instr.isWord
    simp only [put3, put2, put1, toNat_bitsOf, and_true]
    omega

theorem class23_encodes (hk : fieldOf w 27 5 = 23) : Encodes w (decodeClass23 w) := by
  have tiled := spelled_of_tiles hw [5, 5, 7, 7, 3, 5] rfl
  simp only [spelled, Nat.reduceAdd] at tiled
  unfold decodeClass23
  split
  case h_4 => exact encodes_none
  all_goals
    simp only [encodes_some]
    unfold encodeNat Instr.wf Instr.isWord
    simp only [put4, put3, put2, put1, toNat_bitsOf, and_true]
    omega

theorem class24_encodes (hk : fieldOf w 27 5 = 24) : Encodes w (decodeClass24 w) := by
  have tiled := spelled_of_tiles hw [5, 6, 5, 5, 3, 3, 5] rfl
  simp only [spelled, Nat.reduceAdd] at tiled
  unfold decodeClass24
  split
  case h_7 => exact encodes_none
  all_goals
    simp only [encodes_ite, encodes_none, implies_true, and_true, encodes_some]
    unfold encodeNat Instr.wf Instr.isWord
    simp only [put5, put4, put3, put2, put1, toNat_bitsOf, and_true]
    omega

theorem class25_encodes (hk : fieldOf w 27 5 = 25) : Encodes w (decodeClass25 w) := by
  have tiled₁ := spelled_of_tiles hw [5, 5, 5, 5, 4, 3, 5] rfl
  have tiled₂ := spelled_of_tiles hw [20, 4, 3, 5] rfl
  have tiled₃ := spelled_of_tiles hw [15, 5, 4, 3, 5] rfl
  have tiled₄ := spelled_of_tiles hw [5, 5, 10, 4, 3, 5] rfl
  simp only [spelled, Nat.reduceAdd] at tiled₁ tiled₂ tiled₃ tiled₄
  unfold decodeClass25
  split
  case h_9 => exact encodes_none
  all_goals
    simp only [encodes_ite, encodes_none, implies_true, and_true, encodes_some]
    unfold encodeNat Instr.wf Instr.isWord
    simp only [put5, put4, put3, put2, put1, toNat_bitsOf, and_true]
    omega

theorem class26_encodes (hk : fieldOf w 27 5 = 26) : Encodes w (decodeClass26 w) := by
  have tiled₁ := spelled_of_tiles hw [1, 7, 7, 7, 5, 5] rfl
  have tiled₂ := spelled_of_tiles hw [8, 7, 7, 5, 5] rfl
  have tiled₃ := spelled_of_tiles hw [1, 6, 1, 7, 7, 5, 5] rfl
  have tiled₄ := spelled_of_tiles hw [2, 5, 5, 5, 5, 5, 5] rfl
  have tiled₅ := spelled_of_tiles hw [22, 5, 5] rfl
  have tiled₆ := spelled_of_tiles hw [15, 7, 5, 5] rfl
  simp only [spelled, Nat.reduceAdd] at tiled₁ tiled₂ tiled₃ tiled₄ tiled₅ tiled₆
  unfold decodeClass26
  split
  case h_12 => exact encodes_none
  all_goals
    simp only [encodes_ite, encodes_none, implies_true, and_true, encodes_some]
    unfold encodeNat Instr.wf Instr.isWord
    simp only [put4, put3, put2, put1, toNat_bitsOf, and_true]
    omega

theorem class27_encodes (hk : fieldOf w 27 5 = 27) : Encodes w (decodeClass27 w) := by
  have tiled₁ := spelled_of_tiles hw [1, 7, 7, 7, 5, 5] rfl
  have tiled₂ := spelled_of_tiles hw [8, 7, 7, 5, 5] rfl
  have tiled₃ := spelled_of_tiles hw [15, 7, 5, 5] rfl
  have tiled₄ := spelled_of_tiles hw [1, 6, 1, 7, 7, 5, 5] rfl
  simp only [spelled, Nat.reduceAdd] at tiled₁ tiled₂ tiled₃ tiled₄
  unfold decodeClass27
  split
  case h_26 => exact encodes_none
  all_goals
    simp only [encodes_ite, encodes_none, implies_true, and_true, encodes_some]
    unfold encodeNat Instr.wf Instr.isWord
    simp only [put3, put2, put1, toNat_bitsOf, and_true]
    omega

theorem class28_encodes (hk : fieldOf w 27 5 = 28) : Encodes w (decodeClass28 w) := by
  have tiled₁ := spelled_of_tiles hw [1, 7, 7, 7, 5, 5] rfl
  have tiled₂ := spelled_of_tiles hw [8, 7, 7, 5, 5] rfl
  have tiled₃ := spelled_of_tiles hw [15, 7, 5, 5] rfl
  simp only [spelled, Nat.reduceAdd] at tiled₁ tiled₂ tiled₃
  unfold decodeClass28
  split
  case h_10 => exact encodes_none
  all_goals
    simp only [encodes_ite, encodes_none, implies_true, and_true, encodes_some]
    unfold encodeNat Instr.wf Instr.isWord
    simp only [put3, put2, put1, toNat_bitsOf, and_true]
    omega

theorem class29_encodes (hk : fieldOf w 27 5 = 29) : Encodes w (decodeClass29 w) := by
  have tiled := spelled_of_tiles hw [3, 7, 7, 7, 3, 5] rfl
  simp only [spelled, Nat.reduceAdd] at tiled
  unfold decodeClass29
  split
  case h_9 => exact encodes_none
  all_goals
    simp only [encodes_ite, encodes_none, implies_true, and_true, encodes_some]
    unfold encodeNat Instr.wf Instr.isWord
    simp only [put4, put3, put2, put1, toNat_bitsOf, and_true]
    omega

theorem class31_encodes (hk : fieldOf w 27 5 = 31) : Encodes w (decodeClass31 w) := by
  have tiled₁ := spelled_of_tiles hw [24, 3, 5] rfl
  have tiled₂ := spelled_of_tiles hw [6, 18, 3, 5] rfl
  have tiled₃ := spelled_of_tiles hw [4, 1, 19, 3, 5] rfl
  simp only [spelled, Nat.reduceAdd] at tiled₁ tiled₂ tiled₃
  unfold decodeClass31
  split
  case h_5 => exact encodes_none
  all_goals
    simp only [encodes_ite, encodes_none, implies_true, and_true, encodes_some]
    unfold encodeNat Instr.wf Instr.isWord
    simp only [put2, put1, toNat_bitsOf, and_true]
    omega

/-- Where a word matches a row of the opcode map, the instruction of the row has that word (Table 7.2). -/
theorem decodeRow_encodes : Encodes w (decodeRow w) := by
  unfold decodeRow
  split
  · exact class0_encodes hw ‹_›
  · exact class1_encodes hw ‹_›
  · exact class2_encodes hw ‹_›
  · exact class3_encodes hw ‹_›
  · exact class4_encodes hw ‹_›
  · exact class5_encodes hw ‹_›
  · exact class6_encodes hw ‹_›
  · exact class7_encodes hw ‹_›
  · exact class8_encodes hw ‹_›
  · exact class9_encodes hw ‹_›
  · exact class10_encodes hw ‹_›
  · exact class11_encodes hw ‹_›
  · exact class12_encodes hw ‹_›
  · exact class13_encodes hw ‹_›
  · exact class14_encodes hw ‹_›
  · exact class15_encodes hw ‹_›
  · exact class16_encodes hw ‹_›
  · exact class17_encodes hw ‹_›
  · exact class18_encodes hw ‹_›
  · exact class19_encodes hw ‹_›
  · exact class20_encodes hw ‹_›
  · exact class21_encodes hw ‹_›
  · exact class22_encodes hw ‹_›
  · exact class23_encodes hw ‹_›
  · exact class24_encodes hw ‹_›
  · exact class25_encodes hw ‹_›
  · exact class26_encodes hw ‹_›
  · exact class27_encodes hw ‹_›
  · exact class28_encodes hw ‹_›
  · exact class29_encodes hw ‹_›
  · exact class31_encodes hw ‹_›
  · exact encodes_none

end

/-! ### A word that decodes to no row matches none (R104) -/

section
variable {w : Nat} (h : decodeRow w = none)
include h

theorem rows0_unmatched : (rows0.any fun r => r.all fun f => f.holds w) = false := by
  by_cases hk : fieldOf w 27 5 = 0
  · rw [decodeRow_0 hk, decodeClass0] at h
    split at h <;> simp_all [rows0, holds_field]
  · simp [rows0, holds_field, hk]

theorem rows1_unmatched : (rows1.any fun r => r.all fun f => f.holds w) = false := by
  by_cases hk : fieldOf w 27 5 = 1
  · rw [decodeRow_1 hk, decodeClass1] at h
    split at h <;> simp_all [rows1, holds_field]
  · simp [rows1, holds_field, hk]

theorem rows2_unmatched : (rows2.any fun r => r.all fun f => f.holds w) = false := by
  by_cases hk : fieldOf w 27 5 = 2
  · rw [decodeRow_2 hk, decodeClass2] at h
    split at h <;> simp_all [rows2, holds_field]
  · simp [rows2, holds_field, hk]

theorem rows3_unmatched : (rows3.any fun r => r.all fun f => f.holds w) = false := by
  by_cases hk : fieldOf w 27 5 = 3
  · rw [decodeRow_3 hk, decodeClass3] at h
    split at h <;> simp_all [rows3, holds_field]
  · simp [rows3, holds_field, hk]

theorem rows4_unmatched : (rows4.any fun r => r.all fun f => f.holds w) = false := by
  by_cases hk : fieldOf w 27 5 = 4
  · rw [decodeRow_4 hk, decodeClass4] at h
    split at h <;> simp_all [rows4, holds_field]
  · simp [rows4, holds_field, hk]

theorem rows5_unmatched : (rows5.any fun r => r.all fun f => f.holds w) = false := by
  by_cases hk : fieldOf w 27 5 = 5
  · rw [decodeRow_5 hk, decodeClass5] at h
    split at h <;> simp_all [rows5, holds_field]
  · simp [rows5, holds_field, hk]

theorem rows6_unmatched : (rows6.any fun r => r.all fun f => f.holds w) = false := by
  by_cases hk : fieldOf w 27 5 = 6
  · rw [decodeRow_6 hk, decodeClass6] at h
    split at h <;> simp_all [rows6, holds_field]
  · simp [rows6, holds_field, hk]

theorem rows7_unmatched : (rows7.any fun r => r.all fun f => f.holds w) = false := by
  by_cases hk : fieldOf w 27 5 = 7
  · rw [decodeRow_7 hk, decodeClass7] at h
    split at h <;> simp_all [rows7, holds_field]
  · simp [rows7, holds_field, hk]

theorem rows8_unmatched : (rows8.any fun r => r.all fun f => f.holds w) = false := by
  by_cases hk : fieldOf w 27 5 = 8
  · rw [decodeRow_8 hk, decodeClass8] at h
    split at h <;> simp_all [rows8, holds_field]
  · simp [rows8, holds_field, hk]

theorem rows9_unmatched : (rows9.any fun r => r.all fun f => f.holds w) = false := by
  by_cases hk : fieldOf w 27 5 = 9
  · rw [decodeRow_9 hk, decodeClass9] at h
    split at h <;> simp_all [rows9, holds_field]
  · simp [rows9, holds_field, hk]

theorem rows10_unmatched : (rows10.any fun r => r.all fun f => f.holds w) = false := by
  by_cases hk : fieldOf w 27 5 = 10
  · rw [decodeRow_10 hk, decodeClass10] at h
    split at h <;> simp_all [rows10, holds_field]
  · simp [rows10, holds_field, hk]

theorem rows11_unmatched : (rows11.any fun r => r.all fun f => f.holds w) = false := by
  by_cases hk : fieldOf w 27 5 = 11
  · rw [decodeRow_11 hk, decodeClass11] at h
    split at h <;> simp_all [rows11, holds_field]
  · simp [rows11, holds_field, hk]

theorem rows12_unmatched : (rows12.any fun r => r.all fun f => f.holds w) = false := by
  by_cases hk : fieldOf w 27 5 = 12
  · rw [decodeRow_12 hk, decodeClass12] at h
    split at h <;> simp_all [rows12, holds_field]
  · simp [rows12, holds_field, hk]

theorem rows13_unmatched : (rows13.any fun r => r.all fun f => f.holds w) = false := by
  by_cases hk : fieldOf w 27 5 = 13
  · rw [decodeRow_13 hk, decodeClass13] at h
    split at h <;> simp_all [rows13, holds_field]
  · simp [rows13, holds_field, hk]

theorem rows14_unmatched : (rows14.any fun r => r.all fun f => f.holds w) = false := by
  by_cases hk : fieldOf w 27 5 = 14
  · rw [decodeRow_14 hk, decodeClass14] at h
    split at h <;> simp_all [rows14, holds_field]
  · simp [rows14, holds_field, hk]

theorem rows15_unmatched : (rows15.any fun r => r.all fun f => f.holds w) = false := by
  by_cases hk : fieldOf w 27 5 = 15
  · rw [decodeRow_15 hk, decodeClass15] at h
    split at h <;> simp_all [rows15, holds_field]
  · simp [rows15, holds_field, hk]

theorem rows16_unmatched : (rows16.any fun r => r.all fun f => f.holds w) = false := by
  by_cases hk : fieldOf w 27 5 = 16
  · rw [decodeRow_16 hk, decodeClass16] at h
    split at h <;> simp_all [rows16, holds_field]
  · simp [rows16, holds_field, hk]

theorem rows17_unmatched : (rows17.any fun r => r.all fun f => f.holds w) = false := by
  by_cases hk : fieldOf w 27 5 = 17
  · rw [decodeRow_17 hk, decodeClass17] at h
    split at h <;> simp_all [rows17, holds_field]
  · simp [rows17, holds_field, hk]

theorem rows18_unmatched : (rows18.any fun r => r.all fun f => f.holds w) = false := by
  by_cases hk : fieldOf w 27 5 = 18
  · rw [decodeRow_18 hk, decodeClass18] at h
    split at h <;> simp_all [rows18, holds_field]
  · simp [rows18, holds_field, hk]

theorem rows19_unmatched : (rows19.any fun r => r.all fun f => f.holds w) = false := by
  by_cases hk : fieldOf w 27 5 = 19
  · rw [decodeRow_19 hk, decodeClass19] at h
    split at h <;> simp_all [rows19, holds_field]
  · simp [rows19, holds_field, hk]

theorem rows20_unmatched : (rows20.any fun r => r.all fun f => f.holds w) = false := by
  by_cases hk : fieldOf w 27 5 = 20
  · rw [decodeRow_20 hk, decodeClass20] at h
    split at h <;> simp_all [rows20, holds_field]
  · simp [rows20, holds_field, hk]

theorem rows21_unmatched : (rows21.any fun r => r.all fun f => f.holds w) = false := by
  by_cases hk : fieldOf w 27 5 = 21
  · rw [decodeRow_21 hk, decodeClass21] at h
    split at h <;> simp_all [rows21, holds_field]
  · simp [rows21, holds_field, hk]

theorem rows22_unmatched : (rows22.any fun r => r.all fun f => f.holds w) = false := by
  by_cases hk : fieldOf w 27 5 = 22
  · rw [decodeRow_22 hk, decodeClass22] at h
    split at h <;> simp_all [rows22, holds_field]
  · simp [rows22, holds_field, hk]

theorem rows23_unmatched : (rows23.any fun r => r.all fun f => f.holds w) = false := by
  by_cases hk : fieldOf w 27 5 = 23
  · rw [decodeRow_23 hk, decodeClass23] at h
    split at h <;> simp_all [rows23, holds_field]
  · simp [rows23, holds_field, hk]

theorem rows24_unmatched : (rows24.any fun r => r.all fun f => f.holds w) = false := by
  by_cases hk : fieldOf w 27 5 = 24
  · rw [decodeRow_24 hk, decodeClass24] at h
    split at h <;> simp_all [rows24, holds_field]
  · simp [rows24, holds_field, hk]

theorem rows25_unmatched : (rows25.any fun r => r.all fun f => f.holds w) = false := by
  by_cases hk : fieldOf w 27 5 = 25
  · rw [decodeRow_25 hk, decodeClass25] at h
    split at h <;> simp_all [rows25, holds_field]
  · simp [rows25, holds_field, hk]

theorem rows26_unmatched : (rows26.any fun r => r.all fun f => f.holds w) = false := by
  by_cases hk : fieldOf w 27 5 = 26
  · rw [decodeRow_26 hk, decodeClass26] at h
    split at h <;> simp_all [rows26, holds_field]
    -- wait and waitInline share their function code and differ in one bit
    split_ifs at h
    simp_all
  · simp [rows26, holds_field, hk]

theorem rows27_unmatched : (rows27.any fun r => r.all fun f => f.holds w) = false := by
  by_cases hk : fieldOf w 27 5 = 27
  · rw [decodeRow_27 hk, decodeClass27] at h
    split at h <;> simp_all [rows27, holds_field]
  · simp [rows27, holds_field, hk]

theorem rows28_unmatched : (rows28.any fun r => r.all fun f => f.holds w) = false := by
  by_cases hk : fieldOf w 27 5 = 28
  · rw [decodeRow_28 hk, decodeClass28] at h
    split at h <;> simp_all [rows28, holds_field]
  · simp [rows28, holds_field, hk]

theorem rows29_unmatched : (rows29.any fun r => r.all fun f => f.holds w) = false := by
  by_cases hk : fieldOf w 27 5 = 29
  · rw [decodeRow_29 hk, decodeClass29] at h
    split at h <;> simp_all [rows29, holds_field]
  · simp [rows29, holds_field, hk]

theorem rows31_unmatched : (rows31.any fun r => r.all fun f => f.holds w) = false := by
  by_cases hk : fieldOf w 27 5 = 31
  · rw [decodeRow_31 hk, decodeClass31] at h
    split at h <;> simp_all [rows31, holds_field]
  · simp [rows31, holds_field, hk]

theorem matchesRow_of_decodeRow_none : matchesRow w = false := by
  unfold matchesRow opcodeRows
  simp only [List.any_append, Bool.or_self, rows0_unmatched h, rows1_unmatched h, rows2_unmatched h, rows3_unmatched h,
    rows4_unmatched h, rows5_unmatched h, rows6_unmatched h, rows7_unmatched h, rows8_unmatched h, rows9_unmatched h,
    rows10_unmatched h, rows11_unmatched h, rows12_unmatched h, rows13_unmatched h, rows14_unmatched h,
    rows15_unmatched h, rows16_unmatched h, rows17_unmatched h, rows18_unmatched h, rows19_unmatched h,
    rows20_unmatched h, rows21_unmatched h, rows22_unmatched h, rows23_unmatched h, rows24_unmatched h,
    rows25_unmatched h, rows26_unmatched h, rows27_unmatched h, rows28_unmatched h, rows29_unmatched h,
    rows31_unmatched h]

end

/-! ### Both directions -/

/-- The law of each constructor of `Instr`, in its order. -/
theorem decodeWord_encode (i : Instr) : Statement i :=
  Instr.casesOn (motive := Statement) i
    vaddI32 vsubI32 vmulloI32 vmulhiI32 vmulhiN32 vmadI32 vminI32 vminN32 vmaxI32 vmaxN32 vabsdI32 vabsdN32 vaddsI32
    vsubsI32 vaddsN32 vsubsN32 vand vor vxor vandn vshl vshrN32 vshrI32 vrotl vpopc vclz vbrev vbfeN32 vbfeI32 vbfi
    vsel vmov vfaddF32 vfsubF32 vfmulF32 vfmaF32 vfminF32 vfmaxF32 vfsgnF32 vfscaleF32 vhaddF16x2 vhmulF16x2
    vhfmaF16x2 vhaddBf16x2 vhmulBf16x2 vhfmaBf16x2 vhminF16x2 vhmaxF16x2 vdaddF64 vdsubF64 vdmulF64 vdfmaF64 vdminF64
    vdmaxF64 vdsqrtF64 vddivF64 vrcpF32 vrsqF32 vsqrtF32 vexp2F32 vlog2F32 vsinpiF32 vcospiF32 vdivF32 vcmpEqI32
    vcmpLtI32 vcmpLtN32 vcmpLeI32 vcmpEqF32 vcmpLtF32 vcmpLeF32 vcmpUnF32 vcvtn vcvtw vcvti2f vcvtf2i vcvtd2f vcvtf2d
    vsrnd vmxs vaddi vmuli vandi vori vxori vshli vshriN32 vshriI32 vshf vshfx vshfup vshfdn vredsumI32 vredmaxF32
    vscanI32 vredsumF32 vdot4I8 vdot4N8 vdot4In8 vdot8I4 vdot8N4 vdot2Bf16 vdot4E4m3 vdot8E2m1 sadd ssub smullo
    smulhiI32 smulhiN32 sdivI32 sdivN32 sremI32 sremN32 sminI32 sminN32 smaxI32 smaxN32 sand sor sxor sshl sshrN32
    sshrI32 saddI64 ssubI64 smulI64 sshlB64 sshrN64 scmpEq scmpLtI32 scmpLtN32 sfaddF32 sfmulF32 sfmaF32 scvtf2i
    scvti2f saddi sandi sori sxori sshli sshri slui smovi vbcast vrdlane vwrlane vlpc srsr swsr p2s s2p pand por pxor
    pnot ptag pcount twr trd br brp brnp brz brnz call jmpi jmpv ret exit nop yield trap brk ereturn ldN8 ldI8 ldN16
    ldI16 ldB32 ldB64 ldB128 stB8 stB16 stB32 stB64 stB128 aaddI32 aaddI64 aaddF32 aminI32 amaxI32 aminN32 amaxN32
    aminF32 amaxF32 aand aor axor axchgB32 axchgB64 acasB32 acasB64 vpoolB32 vpoolB64 sldB32 sldB64 sstB32 sstB64
    saaddB64 scasB64 sprefetch slduB32 aappB32 aappB128 aappl ccopy cblock cfill cgather cprefetch cpromote mloop
    mloopG mloopCx mdrain mdrainMx mzero mload mprog barinit bararrive barexpect barquery tlread wait waitInline
    settle fenceSys flush inval clock wspawn wexit rspawn odup oclose oinfo wsnew wsadd wsdel tnew tarm tcancel pnew
    psend pgrant precv pslot pname preg anew aseal afree atail rgnew rgset wread wwrite wresume gsaved rdlog csaveq
    creplay tlbinv ckmark vfrint vffloor vfceil vftrunc vfclass vfexp vfmant vfmed3 ximm xop hint guard trapEntry
    deferredPreciseTrap pageFill migrationDone engineChunkLand matrixRowDone mprogArrive engineFault waitWake
    waitTimeout timerExpire placement cohortStart unitAged quantumExpiry saveDrainOverrun deadlockDetect progressStall
    memerr discardRelease commitTailAdvance asealDone afreeDone replicaCreate remoteSendRequest sendReply
    grantReservation grantPointReply grantPageCopy grantAck peerDead flitReceive nakReceive linkRetrainDone
    checkpointPageCopy checkpointImageDone refreshInterval refresh flushDone energyWindowStart energyMeterRead
    thermalCapUpdate thermalTrip coolantTimeout diePowerOff coldReset warmBoot clusterStart jasperHeartbeatTimeout
    jasperException firmwareRestartDone doorbellWrite queueEnable queueDisable schedParamWrite capWrite registerWrite
    pktNop launch signal waitsig waitsigSatisfied copy packetCopyDone regionCreate regionSet regionDiscard ckpt
    restore biasFlipDevice biasFlipHost biasSnoopResponse biasSnoopTimeout biasFlipHostDone migToHost migToDevice
    migPinRelease domain restart stage commit getVersion getCapabilities negotiateAlgorithms getDigests getCertificate
    challenge getMeasurements unsupportedRequest hostWindowAccess illegalEncoding badpkt restoreDone
    unknownMailboxCommand

theorem encode_illegalEncoding (x : BitVec 32) : encode (.illegalEncoding x) = x := BitVec.ofNat_toNat 32 x

theorem encode_decodeWord (x : BitVec 32) : encode (decodeWord x) = x ∧ (decodeWord x).wf = true := by
  unfold decodeWord
  cases h : decodeRow x.toNat with
  | none =>
    have unmatched := matchesRow_of_decodeRow_none h
    exact ⟨encode_illegalEncoding x, by simp [Instr.wf, unmatched]⟩
  | some i =>
    obtain ⟨word, wf⟩ := decodeRow_encodes x.isLt i h
    exact ⟨by simp [encode, word], wf⟩

/-- Settles O58: one way by the law of each instruction, the other because the fields of a row tile the word. -/
theorem decodeAndEncodeAgree : Obligations.DecodeAndEncodeAgree :=
  ⟨decodeWord_encode, encode_decodeWord⟩

/-- A word decodes to the well-formed instruction that it is the encoding of. -/
theorem decodeWord_of_encode {i : Instr} {x : BitVec 32} (h : encode i = x) (hi : i.wf = true) : decodeWord x = i :=
  h ▸ decodeWord_encode i hi

theorem decodeWord_of_no_row {x : BitVec 32} (h : decodeRow x.toNat = none) : decodeWord x = .illegalEncoding x := by
  rw [decodeWord, h]
  rfl

/-- Settles O59: each word is the encoding of a well-formed instruction. -/
theorem wordsDecode : Obligations.WordsDecode := by
  unfold Obligations.WordsDecode
  exact ⟨decodeWord_of_encode rfl rfl, decodeWord_of_encode rfl rfl, decodeWord_of_encode rfl rfl,
    decodeWord_of_encode rfl rfl, decodeWord_of_encode rfl rfl, decodeWord_of_encode rfl rfl,
    decodeWord_of_encode rfl rfl, decodeWord_of_encode rfl rfl, decodeWord_of_encode rfl rfl,
    decodeWord_of_encode rfl rfl, decodeWord_of_encode rfl rfl, decodeWord_of_no_row rfl, decodeWord_of_no_row rfl⟩

end Sys2Proof.Laws.Encoding

/-! SUPPORT. Vector members on integers: lanes, bit fields, immediates, compares, shuffles, sums and dot products (spec/09 R134 to
R138, R148, R153, R154, R156), and O1 to O6. -/

namespace Sys2Proof.Machine

open Sys2Proof

/-! ### Members that write lanes -/

/-- A member that sets no flag and writes results to the lanes of a mask of Vd. -/
theorem writes_lanes {i : Instr} {info : Wave → List Word → OpInfo} {d : Nat} {m : Env → Word} {r r' : Env → Nat → Word}
    (he : ∀ s, exec i s = .next (issue s info fun v s => finishInt v s 0 fun u => u.writeV d (m v) (r v)))
    (hr : ∀ v l, r v l = r' v l) : Writes i info fun v u => u.writeV d (m v) (r' v) := by
  obtain rfl : r = r' := funext fun v => funext (hr v)
  exact writes_of_finishInt he (by simp) (by simp) (by simp) (by simp)

/-- A member on two registers that sets no flag. -/
theorem writes_binary {g : BitVec 3} {d a b : BitVec 7} {cls : Nat} {i : Instr} {f : Word → Word → Word}
    {r : Env → Nat → Word} (he : ∀ s, exec i s = .next (intBin cls g d a b (fun x y => noFlag (f x y)) s))
    (hr : ∀ v l, f (v.w.vlane a.toNat l) (v.w.vlane b.toNat l) = r v l) :
    Writes i (fun _ ws => vrInfo cls g d a b 1 1 1 0 0 false ws) fun v u => u.writeV d.toNat v.e (r v) := by
  obtain rfl : (fun v l => f (v.w.vlane a.toNat l) (v.w.vlane b.toNat l)) = r := funext fun v => funext (hr v)
  exact writes_intBin he fun _ _ => rfl

/-- Two changes of the wave that agree on what a word sees make the same claim. -/
theorem Writes.congr {i : Instr} {info : Wave → List Word → OpInfo} {f f' : Env → Wave → Wave} (h : Writes i info f)
    (hf : ∀ wid w pc iss ws, f (sees wid w pc iss ws (info w ws)) = f' (sees wid w pc iss ws (info w ws))) :
    Writes i info f' :=
  fun s wid w pc iss ws stands passes => (h s wid w pc iss ws stands passes).trans
    (congrArg (fun k => Host.Outcome.next (completed s (info w ws) (sees wid w pc iss ws (info w ws)) k)) (hf wid w pc iss ws))

/-! ### Classes 0 and 1 (Table 9.1) -/

theorem smin_eq (x y : Word) : smin x y = if x.toInt ≤ y.toInt then x else y := by
  simp only [smin, ← not_le, ite_not]

theorem umin_eq (x y : Word) : umin x y = if x.toNat ≤ y.toNat then x else y := by
  simp only [umin, ← not_le, ite_not]

theorem smax_eq (x y : Word) : smax x y = if y.toInt ≤ x.toInt then x else y := by
  simp only [smax, ← not_le, ite_not]

theorem umax_eq (x y : Word) : umax x y = if y.toNat ≤ x.toNat then x else y := by
  simp only [umax, ← not_le, ite_not]

theorem absDiffS_eq (x y : Word) : BitVec.ofInt 32 (x.toInt - y.toInt).natAbs = BitVec.ofInt 32 |x.toInt - y.toInt| := by
  rw [Int.natCast_natAbs]

/-- Settles O1: every member is one operation on lanes, and each operation equals its formula of Table 9.1. -/
theorem vectorIntegerArithmetic : Obligations.VectorIntegerArithmetic := by
  intro g d a b info two clamped
  refine ⟨writes_binary (fun _ => rfl) fun _ _ => rfl, writes_binary (fun _ => rfl) fun _ _ => rfl,
    writes_binary (fun _ => rfl) fun _ _ => rfl, writes_binary (fun _ => rfl) fun _ _ => mulHiS_eq _ _,
    writes_binary (fun _ => rfl) fun _ _ => mulHiU_eq _ _, writes_lanes (fun _ => rfl) fun _ _ => rfl,
    writes_binary (fun _ => rfl) fun _ _ => smin_eq _ _, writes_binary (fun _ => rfl) fun _ _ => umin_eq _ _,
    writes_binary (fun _ => rfl) fun _ _ => smax_eq _ _, writes_binary (fun _ => rfl) fun _ _ => umax_eq _ _,
    writes_binary (fun _ => rfl) fun _ _ => absDiffS_eq _ _, writes_binary (fun _ => rfl) fun _ _ => absDiffU_eq _ _,
    writes_clamp (f' := fun x y => x.toInt + y.toInt) (fun _ => rfl) ?_,
    writes_clamp (f' := fun x y => x.toInt - y.toInt) (fun _ => rfl) ?_,
    writes_clamp (f' := fun x y => (x.toNat : Int) + y.toNat) (fun _ => rfl) ?_,
    writes_clamp (f' := fun x y => (x.toNat : Int) - y.toNat) (fun _ => rfl) ?_⟩
  all_goals norm_num

/-! ### Class 2 (R135) -/

theorem rotateLeft_shiftCount (x y : Word) : x.rotateLeft (shiftCount y) =
    (x <<< (y.extractLsb' 0 5).toNat) ||| (x >>> (32 - (y.extractLsb' 0 5).toNat)) := by
  rw [shiftCount_eq, BitVec.rotateLeft_def, Nat.mod_eq_of_lt (y.extractLsb' 0 5).isLt]

/-- Settles O2: every member is one operation on lanes, its count the low five bits of b. -/
theorem vectorLogicAndShifts : Obligations.VectorLogicAndShifts := by
  intro g d a b two n
  exact ⟨writes_binary (fun _ => rfl) fun _ _ => rfl, writes_binary (fun _ => rfl) fun _ _ => rfl,
    writes_binary (fun _ => rfl) fun _ _ => rfl, writes_binary (fun _ => rfl) fun _ _ => rfl,
    writes_binary (fun _ => rfl) fun _ _ => congrArg _ (shiftCount_eq _),
    writes_binary (fun _ => rfl) fun _ _ => congrArg _ (shiftCount_eq _),
    writes_binary (fun _ => rfl) fun _ _ => (sshr_eq _ _).trans (congrArg _ (shiftCount_eq _)),
    writes_binary (fun _ => rfl) fun _ _ => rotateLeft_shiftCount _ _⟩

/-! ### Bits of masks and counts -/

theorem numsFrom_eq_range' (k n : Nat) : numsFrom k n = List.range' k n := by
  induction n generalizing k with
  | zero => rfl
  | succ n ih => rw [numsFrom, ih, List.range'_succ]

theorem numsFrom_zero (n : Nat) : numsFrom 0 n = List.range n := by
  rw [numsFrom_eq_range', List.range_eq_range']

theorem testBit_foldr_bits (f : Nat → Bool) (n j k : Nat) :
    ((List.range' j n).foldr (fun i m => 2 * m + (if f i then 1 else 0)) 0).testBit k = (decide (k < n) && f (j + k)) := by
  induction n generalizing j k with
  | zero => simp
  | succ n ih =>
    rw [List.range'_succ, List.foldr_cons]
    cases k with
    | zero => cases h : f j <;> simp [Nat.testBit_zero, Nat.add_mod]
    | succ k =>
      have halved (m : Nat) : (2 * m + if f j then 1 else 0) / 2 = m := by split <;> omega
      rw [Nat.testBit_succ, halved, ih]
      simp [Nat.add_assoc, Nat.add_comm 1 k]

theorem bitAt_maskOf (f : Nat → Bool) {k : Nat} (h : k < 32) : bitAt (maskOf f) k = f k := by
  have bits := testBit_foldr_bits f 32 0 k
  rw [show List.range' 0 32 = laneIdx from rfl, decide_eq_true h, Bool.true_and, Nat.zero_add] at bits
  rw [bitAt, maskOf, BitVec.getLsbD_ofNat, decide_eq_true h, Bool.true_and, bits]

theorem eq_of_bits {x y : Word} (h : ∀ k < 32, bitAt x k = bitAt y k) : x = y := BitVec.eq_of_getLsbD_eq h

theorem popCount_eq (x : Word) : popCount 32 x.toNat = ((List.range 32).filter fun k => x.getLsbD k).length := by
  simp only [popCount, numsFrom_zero, BitVec.getLsbD, Nat.testBit_eq_decide_div_mod_eq, beq_eq_decide]

theorem leadingZeros_eq (x : Word) : leadingZeros x = ((List.range 32).find? fun k => x.getLsbD (31 - k)).getD 32 := by
  unfold leadingZeros
  split
  · subst x
    rw [List.find?_eq_none.mpr (by simp), Option.getD_none]
  · next hx =>
    have hx : x.toNat ≠ 0 := fun h => hx (BitVec.eq_of_toNat_eq h)
    have top : x.toNat.log2 < 32 := (Nat.log2_lt hx).mpr x.isLt
    have first : (List.range 32).find? (fun k => x.getLsbD (31 - k)) = some (31 - x.toNat.log2) := by
      rw [List.find?_range_eq_some]
      refine ⟨?_, List.mem_range.mpr (by omega), fun j hj => ?_⟩
      · rw [Nat.sub_sub_self (by omega)]
        exact Nat.testBit_log2 hx
      · have above : x.toNat < 2 ^ (31 - j) := (Nat.log2_lt hx).mp (by omega)
        simp [BitVec.getLsbD, Nat.testBit_lt_two_pow above]
    rw [first, Option.getD_some]

/-! ### Bit fields (R136) -/

theorem signed_eq_toInt (n x : Nat) : signed n x = (BitVec.ofNat n x).toInt := by
  simp [signed, BitVec.toInt_eq_toNat_cond]

theorem fieldOff_eq (y : Word) : fieldOff y = (y.extractLsb' 0 5).toNat := shiftCount_eq y

theorem fieldWidth_eq (y : Word) : fieldWidth y = min (y.extractLsb' 8 6).toNat (32 - (y.extractLsb' 0 5).toNat) := by
  rw [fieldWidth, fieldOff_eq, BitVec.extractLsb'_toNat (x := y) 8, Nat.shiftRight_eq_div_pow]

theorem fieldOff_add_width (y : Word) : fieldOff y + fieldWidth y ≤ 32 := by
  unfold fieldWidth fieldOff
  omega

theorem getLsbD_fieldMask (y : Word) (k : Nat) :
    (fieldMask y).getLsbD k = decide (fieldOff y ≤ k ∧ k < fieldOff y + fieldWidth y) := by
  have le := fieldOff_add_width y
  rw [fieldMask, BitVec.getLsbD_ofNat, Nat.testBit_mul_two_pow, Nat.testBit_two_pow_sub_one, ← Bool.decide_and,
    ← Bool.decide_and, decide_eq_decide]
  omega

theorem getLsbD_extractU (x y : Word) (k : Nat) :
    (extractU x y).getLsbD k = (decide (k < fieldWidth y) && x.getLsbD (fieldOff y + k)) := by
  simp [extractU, getLsbD_fieldMask, Bool.and_comm]

theorem getLsbD_extractS (x y : Word) {k : Nat} (h : k < 32) : (extractS x y).getLsbD k =
    (decide (fieldWidth y ≠ 0) && x.getLsbD (fieldOff y + min k (fieldWidth y - 1))) := by
  unfold extractS
  split
  · simp [*]
  · next hw =>
    have lsb (j : Nat) (hj : j < fieldWidth y) :
        (BitVec.ofNat (fieldWidth y) (extractU x y).toNat).getLsbD j = x.getLsbD (fieldOff y + j) := by
      simpa [hj] using getLsbD_extractU x y j
    rw [signed_eq_toInt, ← BitVec.signExtend, BitVec.getLsbD_signExtend, BitVec.msb_eq_getLsbD_last]
    simp only [h, hw, ne_eq, not_false_eq_true, decide_true, Bool.true_and]
    split
    · next hk => rw [lsb k hk, Nat.min_eq_left (by omega)]
    · next hk => rw [lsb _ (by omega), Nat.min_eq_right (by omega)]

theorem getLsbD_insertField (x y z : Word) {k : Nat} (h : k < 32) : (insertField x y z).getLsbD k =
    if decide (fieldOff y ≤ k ∧ k < fieldOff y + fieldWidth y) then x.getLsbD (k - fieldOff y) else z.getLsbD k := by
  have bits : (insertField x y z).getLsbD k =
      (z.getLsbD k && !(fieldMask y).getLsbD k ||
        !decide (k < fieldOff y) && x.getLsbD (k - fieldOff y) && (fieldMask y).getLsbD k) := by
    simp only [insertField, BitVec.getLsbD_or, BitVec.getLsbD_and, BitVec.getLsbD_not, BitVec.getLsbD_shiftLeft,
      decide_eq_true h, Bool.true_and]
  rw [bits, getLsbD_fieldMask]
  by_cases inside : fieldOff y ≤ k ∧ k < fieldOff y + fieldWidth y
  · have above : ¬ k < fieldOff y := by omega
    simp [inside, above]
  · simp [inside]

/-! ### Class 3 (Table 9.2) -/

/-- vsel writes every issuing lane, and E among them is what the guard admits (R137). -/
theorem writes_vsel (g : BitVec 3) (d a b : BitVec 7) :
    Writes (.vsel g d a b) (fun _ ws => { vrInfo 3 g d a b 1 1 1 0 0 false ws with every := true }) fun v u =>
      u.writeV d.toNat v.iss fun l =>
        if bitAt (v.w.guardMask g.toNat v.pfx) l then v.w.vlane a.toNat l else v.w.vlane b.toNat l := by
  refine (writes_lanes (fun _ => rfl) fun _ _ => rfl : Writes (.vsel g d a b) _ fun v u => u.writeV d.toNat v.iss fun l =>
    if bitAt v.e l then v.w.vlane a.toNat l else v.w.vlane b.toNat l).congr fun wid w pc iss ws => funext fun u => ?_
  refine writeV_congr u d.toNat iss fun l _ issues => ?_
  have active : bitAt (iss &&& w.guardMask g.toNat ws) l = bitAt (w.guardMask g.toNat ws) l := by
    rw [bitAt] at issues
    rw [bitAt, BitVec.getLsbD_and, issues, Bool.true_and, bitAt]
  simp only [sees, vrInfo, if_true, active]

/-- Settles O3: a member with a bit field is one operation on lanes, known by the bits of its result. -/
theorem vectorBitFields : Obligations.VectorBitFields := by
  intro g d a b info off width inside
  have ho (y : Word) : off y = fieldOff y := (fieldOff_eq y).symm
  have hw (y : Word) : width y = fieldWidth y := (fieldWidth_eq y).symm
  refine ⟨writes_lanes (fun _ => rfl) fun _ _ => congrArg _ (popCount_eq _),
    writes_lanes (fun _ => rfl) fun _ _ => congrArg _ (leadingZeros_eq _),
    ⟨bitReverse, fun x k hk => bitAt_maskOf _ hk, writes_lanes (fun _ => rfl) fun _ _ => rfl⟩,
    ⟨extractU, fun x y k _ => ?_, writes_binary (fun _ => rfl) fun _ _ => rfl⟩,
    ⟨extractS, fun x y k hk => ?_, writes_binary (fun _ => rfl) fun _ _ => rfl⟩,
    ⟨insertField, fun x y z k hk => ?_, writes_lanes (fun _ => rfl) fun _ _ => rfl⟩, writes_vsel g d a b,
    writes_lanes (fun _ => rfl) fun _ _ => rfl⟩
  · rw [hw, ho]
    exact getLsbD_extractU x y k
  · rw [hw, ho]
    exact getLsbD_extractS x y hk
  · simp only [inside, hw, ho]
    exact getLsbD_insertField x y z hk

/-! ### Immediates and their composites (R109, R138, R160) -/

theorem compositeInt_none {n : Nat} (imm : BitVec n) : compositeInt none n imm.toNat = imm.toInt := by
  rw [compositeInt, composite, signed_eq_toInt, BitVec.ofNat_toNat, BitVec.setWidth_eq]

theorem compositeInt_some {n : Nat} (p : Nat) (imm : BitVec n) :
    compositeInt (some p) n imm.toNat = (BitVec.ofNat 24 p ++ imm).toInt := by
  have joined : BitVec.ofNat (24 + n) (p * 2 ^ n + imm.toNat) = BitVec.ofNat 24 p ++ imm := by
    apply BitVec.eq_of_toNat_eq
    rw [BitVec.toNat_append, ← Nat.shiftLeft_add_eq_or_of_lt imm.isLt, Nat.shiftLeft_eq, BitVec.toNat_ofNat,
      BitVec.toNat_ofNat, Nat.add_comm 24, pow_add, Nat.mod_mul, Nat.mul_add_mod_of_lt imm.isLt,
      Nat.mul_comm p, Nat.mul_add_div (Nat.two_pow_pos n), Nat.div_eq_of_lt imm.isLt, Nat.add_zero]
    ring
  rw [compositeInt, composite, signed_eq_toInt, Nat.add_comm n, joined]

/-- The immediate of class 10, alone or with its XIMM payload. -/
theorem vectorImm_eq (x : Option Nat) (imm : BitVec 7) :
    (BitVec.ofInt 32 (compositeInt x 7 imm.toNat) : Word) = match x with
      | none => imm.signExtend 32
      | some p => (BitVec.ofNat 24 p ++ imm).signExtend 32 := by
  cases x with
  | none =>
    rw [compositeInt_none]
    rfl
  | some p =>
    rw [compositeInt_some]
    rfl

/-- Settles O4: the immediate is read once, as a sign-extended composite. -/
theorem vectorImmediates : Obligations.VectorImmediates := by
  intro g d a imm n info shiftInfo value one shift
  have hv (v : Env) : BitVec.ofInt 32 (compositeInt v.ximm 7 imm.toNat) = value v := vectorImm_eq v.ximm imm
  exact ⟨writes_lanes (fun _ => rfl) fun v _ => congrArg _ (hv v), writes_lanes (fun _ => rfl) fun v _ => congrArg _ (hv v),
    writes_lanes (fun _ => rfl) fun v _ => congrArg _ (hv v), writes_lanes (fun _ => rfl) fun v _ => congrArg _ (hv v),
    writes_lanes (fun _ => rfl) fun v _ => congrArg _ (hv v), writes_lanes (fun _ => rfl) fun _ _ => rfl,
    writes_lanes (fun _ => rfl) fun _ _ => rfl, writes_lanes (fun _ => rfl) fun _ _ => sshr_eq _ _⟩

/-! ### Compares, shuffles and sums (R148, R153, R154) -/

/-- Bits of the lanes of a mask put over those of a word. -/
theorem merged_eq_maskOf (x e : Word) (f : Nat → Bool) : ((x &&& ~~~ e) ||| maskOf fun l => bitAt e l && f l) =
    maskOf fun l => if bitAt e l then f l else bitAt x l := by
  refine eq_of_bits fun k hk => ?_
  rw [bitAt_maskOf _ hk, bitAt, BitVec.getLsbD_or, ← bitAt, ← bitAt, bitAt_maskOf _ hk]
  have kept : bitAt (x &&& ~~~ e) k = (bitAt x k && !bitAt e k) := by simp [bitAt, hk]
  rw [kept]
  cases bitAt e k <;> simp

theorem writes_cmpInt {g : BitVec 3} {d a b : BitVec 7} {i : Instr} {f : Word → Word → Bool} {r : Env → Nat → Bool}
    (he : ∀ s, exec i s = .next (cmpInt g d a b f s)) (hr : ∀ v l, f (v.w.vlane a.toNat l) (v.w.vlane b.toNat l) = r v l) :
    Writes i (fun _ ws => { vrInfo 8 g d a b 0 1 1 0 0 false ws with bad := decide (15 < d.toNat) }) fun v u =>
      u.writeP d.toNat (maskOf fun l => if bitAt v.e l then r v l else bitAt (u.readP d.toNat) l) := by
  obtain rfl : (fun v l => f (v.w.vlane a.toNat l) (v.w.vlane b.toNat l)) = r := funext fun v => funext (hr v)
  simp only [← merged_eq_maskOf]
  exact writes_of_finishInt he (by simp) (by simp) (by simp) (by simp)

theorem writes_shuffle {g : BitVec 3} {d a b : BitVec 7} {i : Instr} {src : Nat → Word → Nat} {src' : Nat → Word → Int}
    (he : ∀ s, exec i s = .next (shuffle g d a b src s))
    (hs : ∀ l < 32, ∀ y, src l y = if 0 ≤ src' l y ∧ src' l y ≤ 31 then (src' l y).toNat else l) :
    Writes i (fun _ ws => vrInfo 11 g d a b 1 1 1 0 0 false ws) fun v u => u.writeV d.toNat v.e fun l =>
      let k := src' l (v.w.vlane b.toNat l)
      v.w.vlane a.toNat (if 0 ≤ k ∧ k ≤ 31 then k.toNat else l) :=
  (writes_lanes he fun _ _ => rfl).congr fun _ _ _ _ _ => funext fun u => writeV_congr u _ _ fun l hl _ => by rw [hs l hl]

theorem laneSum_eq (w : Wave) (n : Nat) (ls : List Nat) : laneSum w n ls = (ls.map fun l => w.vlane n l).sum := by
  rw [laneSum, List.sum_eq_foldl, List.foldl_map]

/-- Settles O5: compares merge bits into Pd, shuffles read a source lane that lies in the wave, sums run over lanes of E. -/
theorem vectorComparesAndLanes : Obligations.VectorComparesAndLanes := by
  intro g d a b cmp shuf sum
  refine ⟨writes_cmpInt (fun _ => rfl) fun _ _ => beq_eq_decide .., writes_cmpInt (fun _ => rfl) fun _ _ => rfl,
    writes_cmpInt (fun _ => rfl) fun _ _ => rfl, writes_cmpInt (fun _ => rfl) fun _ _ => rfl,
    writes_shuffle (src' := fun _ y => (y.extractLsb' 0 5).toNat) (fun _ => rfl) fun l hl y => ?_,
    writes_shuffle (src' := fun l y => (BitVec.ofNat 5 l ^^^ y.extractLsb' 0 5).toNat) (fun _ => rfl) fun l hl y => ?_,
    writes_shuffle (src' := fun l y => (l : Int) - (y.extractLsb' 0 6).toNat) (fun _ => rfl) fun l hl y => ?_,
    writes_shuffle (src' := fun l y => (l : Int) + (y.extractLsb' 0 6).toNat) (fun _ => rfl) fun l hl y => ?_,
    writes_lanes (fun _ => rfl) fun _ _ => laneSum_eq _ _ _, writes_lanes (fun _ => rfl) fun _ _ => ?_⟩
  · have := (y.extractLsb' 0 5).isLt
    rw [if_pos (by omega), shiftCount_eq, Int.toNat_natCast]
  · have := (BitVec.ofNat 5 l ^^^ y.extractLsb' 0 5).isLt
    rw [if_pos (by omega), shiftCount_eq, Int.toNat_natCast, BitVec.toNat_xor, BitVec.toNat_ofNat, Nat.mod_eq_of_lt hl]
  · have low : (y.extractLsb' 0 6).toNat = y.toNat % 64 := by simp
    simp only [low]
    split_ifs <;> omega
  · have low : (y.extractLsb' 0 6).toNat = y.toNat % 64 := by simp
    simp only [low]
    split_ifs <;> omega
  · rw [laneSum_eq, lanesOf, List.filter_filter]
    simp only [Bool.and_comm]

/-! ### Integer dot products (R156) -/

/-- A member that sets flags and writes results to the lanes of a mask of Vd. -/
theorem writes_flagged {i : Instr} {info : Wave → List Word → OpInfo} {d : Nat} {m fl : Env → Word} {r : Env → Nat → Word}
    (he : ∀ s, exec i s = .next (issue s info fun v s => finishInt v s (fl v) fun u => u.writeV d (m v) (r v))) :
    Writes i info fun v u => (u.orFlags (fl v)).writeV d (m v) (r v) := fun s wid w pc iss ws h p =>
  (he s).trans (congrArg Host.Outcome.next (issue_finishInt h p (by simp) (by simp) (by simp) (by simp)))

theorem foldl_add_eq_sum (ls : List Nat) (f : Nat → Int) (c : Int) :
    ls.foldl (fun t k => t + f k) c = c + (ls.map f).sum := by
  induction ls generalizing c with
  | nil => simp
  | cons k t ih => rw [List.foldl_cons, ih, List.map_cons, List.sum_cons, Int.add_assoc]

theorem element_eq (x : Word) (lo len : Nat) : x.toNat / 2 ^ lo % 2 ^ len = (x.extractLsb' lo len).toNat := by
  rw [BitVec.extractLsb'_toNat, Nat.shiftRight_eq_div_pow]

theorem signed_toNat {n : Nat} (x : BitVec n) : signed n x.toNat = x.toInt := by
  rw [signed_eq_toInt, BitVec.ofNat_toNat, BitVec.setWidth_eq]

theorem clampTo_32 (x : Int) : clampTo (-2 ^ 31) (2 ^ 31 - 1) x =
    (BitVec.ofInt 32 (max (-2 ^ 31) (min (2 ^ 31 - 1) x)), if decide (x < -2 ^ 31 ∨ 2 ^ 31 - 1 < x) then 0x20 else 0) :=
  clampTo_eq _ _ _ (by norm_num)

theorem sees_sat (wid : Nat) (w : Wave) (pc : DWord) (iss : Word) (ws : List Word) (i : OpInfo) :
    (sees wid w pc iss ws i).sat = if plBit (sees wid w pc iss ws i).xop 10 then 1 else 0 := rfl

/-- Settles O6: the sum is exact, and SAT is the one choice between its clamp and its low bits. -/
theorem vectorIntegerDot : Obligations.VectorIntegerDot := by
  intro g d a b dot
  have all {i : Instr} {n len : Nat} {sa sb : Bool} (he : ∀ s, exec i s = .next (intDot g d a b n len sa sb s)) :
      dot i n len sa sb := by
    refine (writes_flagged he).congr fun wid w pc iss ws => funext fun u => ?_
    have hsat := sees_sat wid w pc iss ws (vrInfo 12 g d a b 1 1 1 1 (xThird + xSat) false ws)
    generalize sees wid w pc iss ws _ = v at hsat ⊢
    simp only [numsFrom_zero, element_eq, signed_toNat, foldl_add_eq_sum, clampTo_32, hsat]
    cases plBit v.xop 10 with
    | true =>
      simp only [if_true, Bool.true_and, flagUnion_map_if]
      rfl
    | false =>
      simp only [if_false, Bool.false_eq_true, Nat.zero_ne_one, Bool.false_and, flagUnion_map_zero]
      rfl
  exact ⟨all fun _ => rfl, all fun _ => rfl, all fun _ => rfl, all fun _ => rfl, all fun _ => rfl⟩

end Sys2Proof.Machine

/-! SUPPORT. Vector members on floating-point numbers: how a member that may raise FPX ends, and the end of a conversion (spec/05 R91;
spec/09 R139 to R156), and O7 to O11. -/

namespace Sys2Proof.Machine

open Sys2Proof

/-! ### Members that may raise FPX (R91) -/

theorem laneResults_getD (v : Env) (r : Nat → Nat × Word) {l : Nat} (hl : l < 32) :
    (laneResults v r).getD l (0, 0) = if bitAt v.e l then r l else (0, 0) := laneTable _ _ _ hl

theorem raisedIn_laneResults (v : Env) (r : Nat → Nat × Word) (x : Word) :
    raisedIn (laneResults v r) x = maskOf fun l => bitAt v.e l && (r l).2 &&& x != 0 :=
  maskOf_congr fun l hl => by
    rw [laneResults_getD v r hl]
    cases bitAt v.e l <;> simp

/-- A member with a result for each lane, written by a `put` that takes the results of the active lanes only. -/
theorem rounds_of_results {i : Instr} {info : Wave → List Word → OpInfo} {r : Env → Nat → Nat × Word}
    {put : Env → (Nat → Nat) → Wave → Wave}
    (he : ∀ s, exec i s = .next (issue s info fun v s => finishFp v s (flagUnion ((laneResults v (r v)).map Prod.snd))
      (raisedIn (laneResults v (r v))) (put v fun l => ((laneResults v (r v)).getD l (0, 0)).1)))
    (hc : ∀ w ws, ¬ (18 ≤ (info w ws).cls ∧ (info w ws).cls ≤ 23))
    (active : ∀ v q q' u, (∀ l < 32, bitAt v.e l = true → q l = q' l) → put v q u = put v q' u)
    (hl : ∀ v q u, (put v q u).lanes = u.lanes) (hg : ∀ v q u, (put v q u).gang = u.gang)
    (hq : ∀ v q u, (put v q u).endReq = u.endReq) (hp : ∀ v q u, (put v q u).priv = u.priv) : Rounds i info r put := by
  intro s wid w pc iss ws h p
  refine (he s).trans (congrArg Host.Outcome.next ?_)
  rw [issue_finishFp h p (hc w ws) rfl (hl _ _) (hg _ _) (hq _ _) (hp _ _), flags_laneResults]
  have seen : (sees wid w pc iss ws (info w ws)).w = w := rfl
  dsimp only
  rw [seen]
  split
  · congr 1
    funext u
    exact active _ _ _ _ fun l hl on => by rw [laneResults_getD _ _ hl, if_pos on]
  · rw [raisedIn_laneResults]
    rfl

theorem writeV64_congr (w : Wave) (n : Nat) (m : Word) {f f' : Nat → DWord}
    (h : ∀ l < 32, bitAt m l = true → f l = f' l) : w.writeV64 n m f = w.writeV64 n m f' := by
  unfold Wave.writeV64
  rw [writeV_congr w n m fun l hl on => congrArg (·.extractLsb' 0 32) (h l hl on),
    writeV_congr _ (n + 1) m fun l hl on => congrArg (·.extractLsb' 32 32) (h l hl on)]

/-- A member that ends with 64-bit lane results. -/
theorem rounds_finish64 {i : Instr} {info : Wave → List Word → OpInfo} {d : Nat} {r : Env → Nat → Nat × Word}
    (he : ∀ s, exec i s = .next (issue s info fun v s => finish64 v s d (r v)))
    (hc : ∀ w ws, ¬ (18 ≤ (info w ws).cls ∧ (info w ws).cls ≤ 23)) :
    Rounds i info r fun v q u => u.writeV64 d v.e fun l => BitVec.ofNat 64 (q l) :=
  rounds_of_results he hc (fun _ _ _ _ h => writeV64_congr _ _ _ fun l hl on => congrArg _ (h l hl on))
    (by simp) (by simp) (by simp) (by simp)

/-- A member that ends with 32-bit lane results, in another form. -/
theorem rounds_lanes32 {i : Instr} {info : Wave → List Word → OpInfo} {d : Nat} {r r' : Env → Nat → Nat × Word}
    (he : ∀ s, exec i s = .next (issue s info fun v s => finish32 v s d (r v)))
    (hc : ∀ w ws, ¬ (18 ≤ (info w ws).cls ∧ (info w ws).cls ≤ 23)) (hr : ∀ v l, r v l = r' v l) :
    Rounds i info r' fun v q u => u.writeV d v.e fun l => BitVec.ofNat 32 (q l) := by
  obtain rfl : r = r' := funext fun v => funext (hr v)
  exact rounds_finish32 he hc

/-- A member with one result, written by `put`; SR.TADDR takes the mask `m`. -/
theorem roundsOnce_of_finishFp {i : Instr} {info : Wave → List Word → OpInfo} {r : Env → Nat × Word} {m : Env → Word}
    {put : Env → Nat → Wave → Wave}
    (he : ∀ s, exec i s = .next (issue s info fun v s => finishFp v s (r v).2 (fun _ => m v) (put v (r v).1)))
    (hc : ∀ w ws, ¬ (18 ≤ (info w ws).cls ∧ (info w ws).cls ≤ 23))
    (hl : ∀ v q u, (put v q u).lanes = u.lanes) (hg : ∀ v q u, (put v q u).gang = u.gang)
    (hq : ∀ v q u, (put v q u).endReq = u.endReq) (hp : ∀ v q u, (put v q u).priv = u.priv) :
    RoundsOnce i info r m put := by
  intro s wid w pc iss ws h p
  refine (he s).trans (congrArg Host.Outcome.next ?_)
  rw [issue_finishFp h p (hc w ws) rfl (hl _ _) (hg _ _) (hq _ _) (hp _ _)]
  rfl

/-! ### Classes 4 and 7 (R139 to R141, R146) -/

theorem sign_over_magnitude (x y : Nat) : (BitVec.ofNat 32 (x % 2 ^ 31 + y / 2 ^ 31 * 2 ^ 31) : Word) =
    (BitVec.ofNat 32 y).extractLsb' 31 1 ++ (BitVec.ofNat 32 x).extractLsb' 0 31 := by
  apply BitVec.eq_of_toNat_eq
  have low : ((BitVec.ofNat 32 x).extractLsb' 0 31).toNat = x % 2 ^ 31 := by simp
  have high : ((BitVec.ofNat 32 y).extractLsb' 31 1).toNat = y / 2 ^ 31 % 2 := by
    rw [BitVec.extractLsb'_toNat, BitVec.toNat_ofNat, Nat.shiftRight_eq_div_pow]
    omega
  rw [BitVec.toNat_append, ← Nat.shiftLeft_add_eq_or_of_lt (BitVec.isLt _), low, high, BitVec.toNat_ofNat, Nat.shiftLeft_eq]
  omega

/-- Settles O7: but for the sign member, which moves bits, every member ends with 32-bit lane results (R91). -/
theorem vectorFp32 : Obligations.VectorFp32 := by
  intro g d a b A B C num put two one choose
  refine ⟨rounds_finish32 (fun _ => rfl) ?_, rounds_finish32 (fun _ => rfl) ?_, rounds_finish32 (fun _ => rfl) ?_,
    rounds_finish32 (fun _ => rfl) ?_, rounds_finish32 (fun _ => rfl) ?_, rounds_finish32 (fun _ => rfl) ?_,
    writes_lanes (fun _ => rfl) fun _ _ => sign_over_magnitude _ _, rounds_finish32 (fun _ => rfl) ?_,
    rounds_finish32 (fun _ => rfl) ?_, rounds_finish32 (fun _ => rfl) ?_, rounds_finish32 (fun _ => rfl) ?_,
    rounds_finish32 (fun _ => rfl) ?_, rounds_finish32 (fun _ => rfl) ?_, rounds_finish32 (fun _ => rfl) ?_,
    rounds_finish32 (fun _ => rfl) ?_, rounds_finish32 (fun _ => rfl) ?_⟩
  all_goals simp [vrInfo]

/-! ### Classes 5 and 6 (R144, R145) -/

theorem half_eq (x : Word) (j : Nat) : half x j = (x.extractLsb' (16 * j) 16).toNat := by
  rw [← element_eq, half, pow_mul]
  rfl

theorem packTwo_eq (r : Nat → Nat × Word) : packTwo (r 0) (r 1) =
    ((BitVec.ofNat 16 (r 1).1 ++ BitVec.ofNat 16 (r 0).1).toNat, (r 0).2 ||| (r 1).2) := by
  rw [packTwo, BitVec.toNat_append, ← Nat.shiftLeft_add_eq_or_of_lt (BitVec.isLt _), BitVec.toNat_ofNat,
    BitVec.toNat_ofNat, Nat.shiftLeft_eq, Nat.add_comm, Nat.mul_comm]

/-- Settles O8: a packed lane result is its two element results joined, a pair one 64-bit result. -/
theorem vectorPackedAndFp64 : Obligations.VectorPackedAndFp64 := by
  intro g d a b el num put put64 join A B C two three choose A6 B6 C6 pair choose6
  have two' {i : Instr} {f : FloatFmt} {op : REnv → XVal → XVal → XVal × Word}
      (he : ∀ s, exec i s = .next (packed f false g d a b (fun e x y _ => op e x y) s)) : two i f op :=
    rounds_lanes32 he (by simp [vrInfo]) fun v l => by
      simp only [half_eq]
      exact packTwo_eq fun j => rounded f (v.renv (l + 32 * j))
        (op (v.renv (l + 32 * j)) (num f v (A f v l j)) (num f v (B f v l j)))
  have three' {i : Instr} {f : FloatFmt} (he : ∀ s, exec i s = .next (packed f true g d a b opFma s)) : three i f :=
    rounds_lanes32 he (by simp [vrInfo]) fun v l => by
      simp only [half_eq]
      exact packTwo_eq fun j => rounded f (v.renv (l + 32 * j))
        (opFma (v.renv (l + 32 * j)) (num f v (A f v l j)) (num f v (B f v l j)) (num f v (C f v l j)))
  have choose' {i : Instr} {mx : Bool} (he : ∀ s, exec i s = .next (packedMinMax mx g d a b s)) : choose i mx :=
    rounds_lanes32 he (by simp [vrInfo]) fun v l => by
      simp only [half_eq]
      exact packTwo_eq fun j => minMaxBits fp16 v.ftz mx (A fp16 v l j) (B fp16 v l j)
  refine ⟨two' (op := opAdd) fun _ => rfl, two' (op := opMul) fun _ => rfl, three' fun _ => rfl,
    two' (op := opAdd) fun _ => rfl, two' (op := opMul) fun _ => rfl, three' fun _ => rfl, choose' fun _ => rfl,
    choose' fun _ => rfl, rounds_finish64 (fun _ => rfl) ?_, rounds_finish64 (fun _ => rfl) ?_,
    rounds_finish64 (fun _ => rfl) ?_, rounds_finish64 (fun _ => rfl) ?_, rounds_finish64 (fun _ => rfl) ?_,
    rounds_finish64 (fun _ => rfl) ?_, rounds_finish64 (fun _ => rfl) ?_, rounds_finish64 (fun _ => rfl) ?_⟩
  all_goals simp [vrInfo]

/-! ### Class 29 (R142, R143) -/

/-- Settles O9: the unary members see the flushed encoding, but vfclass, which sees the encoding itself. -/
theorem vectorIntegralAndClass : Obligations.VectorIntegralAndClass := by
  intro g d a b A put fl plain
  have flushed {i : Instr} {op : Nat → Nat × Word} {f : Env → Nat → Nat × Word}
      (he : ∀ s, exec i s = .next (f32Plain 29 g d a true op s)) (hf : ∀ v x, op (fl v x) = f v x) : plain i f :=
    rounds_lanes32 he (by simp [vrInfo]) fun v l => by
      rw [Bool.and_true]
      exact hf v _
  have unflushed {i : Instr} {op : Nat → Nat × Word} (he : ∀ s, exec i s = .next (f32Plain 29 g d a false op s)) :
      plain i fun _ => op :=
    rounds_lanes32 he (by simp [vrInfo]) fun v l => by
      rw [Bool.and_false]
      rfl
  -- From here the shape is used through `flushed` and `unflushed` only.
  clear_value plain
  exact ⟨rounds_finish32 (fun _ => rfl) (by simp [vrInfo]), flushed (fun _ => rfl) fun _ _ => rfl,
    flushed (fun _ => rfl) fun _ _ => rfl, flushed (fun _ => rfl) fun _ _ => rfl, unflushed fun _ => rfl,
    flushed (fun _ => rfl) fun _ _ => rfl, flushed (fun _ => rfl) fun _ _ => rfl,
    rounds_finish32 (fun _ => rfl) (by simp [vrInfo])⟩

/-! ### Compares, reductions and dot products on FP32 (R148, R154 to R156) -/

/-- Settles O10: compares have a bit for each lane, reductions one result, dot products a result for each lane. -/
theorem vectorFpComparesAndSums : Obligations.VectorFpComparesAndSums := by
  intro g d a b num A B put all cmp dot
  have cmp' {i : Instr} {iv : Bool} {f : XVal → XVal → Bool} (he : ∀ s, exec i s = .next (cmpF32 iv g d a b f s)) :
      cmp i iv f := by
    simp only [cmp, ← merged_eq_maskOf]
    refine rounds_of_results he (by simp [vrInfo]) (fun v q q' u h => ?_) (by simp) (by simp) (by simp) (by simp)
    congr 2
    refine maskOf_congr fun l hl => ?_
    cases on : bitAt v.e l with
    | true => rw [h l hl on]
    | false => rfl
  have dot' {i : Instr} {f : FloatFmt} {n len : Nat} (he : ∀ s, exec i s = .next (floatDot f n len g d a b s)) :
      dot i f n len :=
    rounds_lanes32 he (by simp [vrInfo]) fun v l => by
      simp only [numsFrom_zero, element_eq]
  -- From here the shapes are used through `cmp'` and `dot'` only.
  clear_value cmp dot
  exact ⟨cmp' fun _ => rfl, cmp' fun _ => rfl, cmp' fun _ => rfl, cmp' fun _ => rfl,
    roundsOnce_of_finishFp (fun _ => rfl) (by simp [vrInfo]) (by simp [all]) (by simp [all]) (by simp [all]) (by simp [all]),
    roundsOnce_of_finishFp (fun _ => rfl) (by simp [vrInfo]) (by simp [all]) (by simp [all]) (by simp [all]) (by simp [all]),
    dot' fun _ => rfl, dot' fun _ => rfl, dot' fun _ => rfl⟩

/-! ### The end of a conversion (R149) -/

/-- The write of a class 9 member whose lanes have the elements `r`. -/
def cvtWrite (v : Env) (d : Nat) (two : Bool) (put : Word → List Nat → Word) (r : Nat → List Nat) (u : Wave) : Wave :=
  if two then
    (u.writeV d v.e fun l => BitVec.ofNat 32 ((r l).getD 0 0)).writeV (d + 1) v.e fun l => BitVec.ofNat 32 ((r l).getD 1 0)
  else u.writeV d v.e fun l => put (u.vlane d l) (r l)

@[simp] theorem cvtWrite_lanes (v : Env) (d : Nat) (two : Bool) (put : Word → List Nat → Word) (r : Nat → List Nat)
    (u : Wave) : (cvtWrite v d two put r u).lanes = u.lanes := by cases two <;> simp [cvtWrite]

@[simp] theorem cvtWrite_gang (v : Env) (d : Nat) (two : Bool) (put : Word → List Nat → Word) (r : Nat → List Nat)
    (u : Wave) : (cvtWrite v d two put r u).gang = u.gang := by cases two <;> simp [cvtWrite]

@[simp] theorem cvtWrite_endReq (v : Env) (d : Nat) (two : Bool) (put : Word → List Nat → Word) (r : Nat → List Nat)
    (u : Wave) : (cvtWrite v d two put r u).endReq = u.endReq := by cases two <;> simp [cvtWrite]

@[simp] theorem cvtWrite_priv (v : Env) (d : Nat) (two : Bool) (put : Word → List Nat → Word) (r : Nat → List Nat)
    (u : Wave) : (cvtWrite v d two put r u).priv = u.priv := by cases two <;> simp [cvtWrite]

/-- A class 9 member ends as a floating-point member whose lanes have the elements `el`. -/
theorem finishCvt_eq (v : Env) (s : State) (d : Nat) (two : Bool) (el : Nat → List (Nat × Word))
    (put : Word → List Nat → Word) : finishCvt v s d two el put =
      finishFp v s (flagUnion ((laneIdx.map el).flatten.map Prod.snd))
        (fun x => maskOf fun l => (el l).any fun r => r.2 &&& x != 0) (cvtWrite v d two put fun l => (el l).map Prod.fst) := by
  have masks : (fun x : Word => maskOf fun l => ((laneIdx.map el).getD l []).any fun r => r.2 &&& x != 0) =
      fun x => maskOf fun l => (el l).any fun r => r.2 &&& x != 0 :=
    funext fun x => maskOf_congr fun l hl => by rw [laneTable el [] l hl]
  have element (k l : Nat) (hl : l < 32) :
      (((laneIdx.map el).getD l []).getD k (0, 0)).1 = ((el l).map Prod.fst).getD k 0 := by
    rw [laneTable el [] l hl]
    exact (List.getD_map (el l) (0, 0) Prod.fst).symm
  rw [finishCvt, masks]
  congr 1
  funext u
  cases two with
  | true =>
    simp only [cvtWrite, if_true]
    rw [writeV_congr u d v.e fun l hl _ => congrArg (BitVec.ofNat 32) (element 0 l hl),
      writeV_congr _ (d + 1) v.e fun l hl _ => congrArg (BitVec.ofNat 32) (element 1 l hl)]
  | false => exact writeV_congr u d v.e fun l hl _ =>
      congrArg (fun es => put (u.vlane d l) (es.map Prod.fst)) (laneTable el [] l hl)

/-- A class 9 member ends by writing its elements, or by an FPX of the lanes an element of which raised it (R91). -/
theorem issue_finishCvt {s : State} {wid : Nat} {w : Wave} {pc : DWord} {iss : Word} {ws : List Word}
    {info : Wave → List Word → OpInfo} {d : Nat} {two : Bool} {el : Env → Nat → List (Nat × Word)}
    {put : Word → List Nat → Word} (h : Stands s wid w pc iss ws) (p : Passes w (info w ws) ws)
    (hc : ¬ (18 ≤ (info w ws).cls ∧ (info w ws).cls ≤ 23)) :
    issue s info (fun v s => finishCvt v s d two (el v) put) =
      (fun v : Env =>
        let fl := flagUnion ((laneIdx.map (el v)).flatten.map Prod.snd)
        let en := v.w.fpx fl
        if en = 0 then completed s (info v.w v.pfx) v fun u =>
          cvtWrite v d two put (fun l => (el v l).map Prod.fst) (u.orFlags fl)
        else takeTrap (modWave s v.wid fun u => u.orFlags fl) v.wid ⟨cFPX, en.toNat, v.pc, v.pc,
          BitVec.ofNat 64 (maskOf fun l => (el v l).any fun r => r.2 &&& en != 0).toNat, false⟩)
        (sees wid w pc iss ws (info w ws)) := by
  rw [issue_finishFp h p hc (finishCvt_eq _ _ _ _ _ _) (by simp) (by simp) (by simp) (by simp)]
  rfl

/-! ### Conversions with one element in a lane -/

theorem one_flags (v : Env) (c : Nat → Nat → Nat × Word) :
    flagUnion ((laneIdx.map (cvtElems v false c)).flatten.map Prod.snd) = lanesRaise v fun l => c l 0 := by
  unfold lanesRaise lanesOf
  congr 1
  induction laneIdx with
  | nil => rfl
  | cons l t ih =>
    rw [List.map_cons, List.flatten_cons, List.map_append, ih, List.filter_cons]
    cases on : bitAt v.e l <;> simp [cvtElems, on]

theorem rounds_finishCvt {i : Instr} {info : Wave → List Word → OpInfo} {d : Nat} {r : Env → Nat → Nat × Word}
    {put : Word → List Nat → Word}
    (he : ∀ s, exec i s = .next (issue s info fun v s => finishCvt v s d false (cvtElems v false fun l _ => r v l) put))
    (hc : ∀ w ws, ¬ (18 ≤ (info w ws).cls ∧ (info w ws).cls ≤ 23)) :
    Rounds i info r fun v q u => u.writeV d v.e fun l => put (u.vlane d l) [q l] := by
  intro s wid w pc iss ws h p
  refine (he s).trans (congrArg Host.Outcome.next ((issue_finishCvt h p (hc w ws)).trans ?_))
  dsimp only
  generalize sees wid w pc iss ws (info w ws) = v
  rw [one_flags]
  congr 1
  · congr 1
    funext u
    exact writeV_congr _ d v.e fun l _ on => by simp [cvtElems, on]
  · congr 4
    exact maskOf_congr fun l _ => by cases on : bitAt v.e l <;> simp [cvtElems, on]

/-- Settles O11: the members with elements end by `finishCvt`, whose write is that of a slot or of a pair. -/
theorem vectorConversions : Obligations.VectorConversions := by
  intro g d a fmt slot i n f els conv narrow wide src int place
  have conv' {x : Instr} {info : Wave → List Word → OpInfo} {two : Bool} {c c' : Env → Nat → Nat → Nat × Word}
      {put : Word → List Nat → Word} {write : Env → (Nat → List Nat) → Wave → Wave}
      (he : ∀ s, exec x s = .next (issue s info fun v s => finishCvt v s d.toNat two (cvtElems v (n == 4) (c v)) put))
      (hi : ∀ w ws, ¬ (18 ≤ (info w ws).cls ∧ (info w ws).cls ≤ 23)) (hw : ∀ v r, cvtWrite v d.toNat two put r = write v r)
      (hc : ∀ v l j, c v l j = c' v l j) : conv x info c' write := by
    intro s wid w pc iss ws h p
    obtain rfl : c = c' := funext fun v => funext fun l => funext (hc v l)
    obtain rfl : (fun v => cvtWrite v d.toNat two put) = write := funext fun v => funext (hw v)
    have elements (v : Env) : cvtElems v (n == 4) (c v) = els v (c v) := by
      funext l
      simp only [cvtElems, beq_iff_eq, els]
    refine (he s).trans (congrArg Host.Outcome.next ((issue_finishCvt h p (hi w ws)).trans ?_))
    simp only [elements]
  have wide' (v : Env) (r : Nat → List Nat) : cvtWrite v d.toNat (n == 4) (putElems 32 0) r = wide v r := by
    funext u
    simp only [cvtWrite, beq_iff_eq]
    rfl
  -- From here the shape is used through `conv'` only.
  clear_value conv
  refine ⟨conv' (fun _ => rfl) ?_ (fun _ _ => rfl) fun _ _ _ => rfl, conv' (fun _ => rfl) ?_ wide' fun _ _ _ => rfl,
    conv' (fun _ => rfl) ?_ wide' fun _ _ _ => ?element, conv' (fun _ => rfl) ?_ (fun _ _ => rfl) fun _ _ _ => rfl,
    rounds_finishCvt (fun _ => rfl) ?_, rounds_finish64 (fun _ => rfl) ?_, rounds_finish32 (fun _ => rfl) ?_,
    writes_of_finishInt (fun _ => rfl) (by simp) (by simp) (by simp) (by simp)⟩
  case element => simp only [decide_eq_true_eq, int, src, n, i]
  all_goals simp [cvtInfo, vrInfo]

end Sys2Proof.Machine

/-! SUPPORT. Scalar members, moves and predicates (spec/09 R157 to R165), and O12 to O15. -/

namespace Sys2Proof.Machine

open Sys2Proof

/-! ### Scalar integers (R157, R158) -/

theorem divSigned_quot (x y : Word) : (divSigned x y).1 = if y = 0 then (0xFFFFFFFF : Word)
    else if x = 0x80000000 ∧ y = 0xFFFFFFFF then 0x80000000 else BitVec.ofInt 32 (x.toInt.tdiv y.toInt) := by
  unfold divSigned
  split_ifs <;> rfl

theorem divSigned_rem (x y : Word) : (divSigned x y).2 = if y = 0 then x
    else if x = 0x80000000 ∧ y = 0xFFFFFFFF then 0 else x - (divSigned x y).1 * y := by
  unfold divSigned
  split_ifs
  · rfl
  · rfl
  · have hx : BitVec.ofInt 32 x.toInt = x := BitVec.ofInt_toInt
    have hy : BitVec.ofInt 32 y.toInt = y := BitVec.ofInt_toInt
    dsimp only
    rw [Int.sub_eq_add_neg, BitVec.ofInt_add, BitVec.ofInt_neg, BitVec.ofInt_mul, hx, hy, ← BitVec.sub_eq_add_neg]

theorem divUnsigned_quot (x y : Word) : (divUnsigned x y).1 = if y = 0 then 0xFFFFFFFF else x / y := by
  unfold divUnsigned
  split_ifs
  · rfl
  · exact BitVec.ofNat_toNat 32 (x / y)

theorem divUnsigned_rem (x y : Word) : (divUnsigned x y).2 = if y = 0 then x else x - x / y * y := by
  unfold divUnsigned
  split_ifs
  · rfl
  · have whole : x % y + x / y * y = x := by
      apply BitVec.eq_of_toNat_eq
      rw [BitVec.toNat_add, BitVec.toNat_mul, BitVec.toNat_umod, BitVec.toNat_udiv, Nat.add_mod_mod, Nat.mod_add_div',
        Nat.mod_eq_of_lt x.isLt]
    exact (BitVec.ofNat_toNat 32 (x % y)).trans (eq_sub_of_add_eq whole)

theorem truth_eq (p : Prop) [Decidable p] : truth (decide p) = if p then 1 else 0 := by simp [truth]

/-- Settles O12: every member is one operation on registers or pairs, and each operation equals its formula. -/
theorem scalarArithmetic : Obligations.ScalarArithmetic := by
  intro d a b three pairs shift n quot one
  have word {i : Instr} {f f' : Word → Word → Word} (he : ∀ s, exec i s = .next (scalar32 d a b f s))
      (hf : ∀ x y, f x y = f' x y) : three i f' := writes_scalar32 he hf
  have pair {i : Instr} {f : DWord → DWord → DWord} (he : ∀ s, exec i s = .next (scalar64 d a b f s)) : pairs i f :=
    writes_scalar64 he fun _ _ => rfl
  have shift' {i : Instr} {f : DWord → Nat → DWord} (he : ∀ s, exec i s = .next (scalarShift64 d a b f s)) : shift i f :=
    writes_shift64 he fun _ _ => rfl
  -- From here the shapes are used through `word`, `pair` and `shift'` only.
  clear_value three pairs shift
  exact ⟨word (fun _ => rfl) fun _ _ => rfl, word (fun _ => rfl) fun _ _ => rfl, word (fun _ => rfl) fun _ _ => rfl,
    word (fun _ => rfl) mulHiS_eq, word (fun _ => rfl) mulHiU_eq, word (fun _ => rfl) divSigned_quot,
    word (fun _ => rfl) divUnsigned_quot,
    word (fun _ => rfl) fun x y => (divSigned_rem x y).trans (by rw [divSigned_quot]),
    word (fun _ => rfl) divUnsigned_rem, word (fun _ => rfl) smin_eq, word (fun _ => rfl) umin_eq,
    word (fun _ => rfl) smax_eq, word (fun _ => rfl) umax_eq, word (fun _ => rfl) fun _ _ => rfl,
    word (fun _ => rfl) fun _ _ => rfl, word (fun _ => rfl) fun _ _ => rfl,
    word (fun _ => rfl) fun x y => congrArg (x <<< ·) (shiftCount_eq y),
    word (fun _ => rfl) fun x y => congrArg (x >>> ·) (shiftCount_eq y),
    word (fun _ => rfl) fun x y => congrArg x.sshiftRight (shiftCount_eq y), pair fun _ => rfl, pair fun _ => rfl,
    pair fun _ => rfl, shift' fun _ => rfl, shift' fun _ => rfl,
    word (fun _ => rfl) fun x y => (congrArg truth (beq_eq_decide x y)).trans (truth_eq _),
    word (fun _ => rfl) fun _ _ => truth_eq _, word (fun _ => rfl) fun _ _ => truth_eq _⟩

/-! ### Scalar floating-point members (R159) -/

/-- Settles O13: every member ends with one scalar result, whose FPX names no lane. -/
theorem scalarFloat : Obligations.ScalarFloat := by
  intro d a b e x put bin un
  refine ⟨roundsOnce_finish (fun _ => rfl) ?_, roundsOnce_finish (fun _ => rfl) ?_, roundsOnce_finish (fun _ => rfl) ?_,
    roundsOnce_finish (fun _ => rfl) ?_, roundsOnce_finish (fun _ => rfl) ?_⟩
  all_goals simp [scalarInfo, srInfo]

/-! ### Scalar immediates (R160) -/

/-- A member that sets no flag and writes Sd. -/
theorem writes_scalar {i : Instr} {info : Wave → List Word → OpInfo} {d : Nat} {r r' : Env → Word}
    (he : ∀ s, exec i s = .next (issue s info fun v s => finishInt v s 0 fun u => u.writeS d (r v)))
    (hr : ∀ v, r v = r' v) : Writes i info fun v u => u.writeS d (r' v) := by
  obtain rfl : r = r' := funext hr
  exact writes_of_finishInt he (by simp) (by simp) (by simp) (by simp)

theorem scalarImm_eq (x : Option Nat) (imm : BitVec 10) : scalarImm x imm = match x with
    | none => imm.signExtend 32
    | some p => (BitVec.ofNat 24 p ++ imm).setWidth 32 := by
  cases x with
  | none =>
    rw [scalarImm, compositeInt_none]
    rfl
  | some p =>
    rw [scalarImm, compositeInt_some]
    exact BitVec.signExtend_eq_setWidth_of_le _ (by norm_num)

/-- A half put over the low half of a word. -/
theorem upper_half (x y : Word) : (y <<< 16) ||| (x &&& 0xFFFF) = y.extractLsb' 0 16 ++ x.extractLsb' 0 16 := by
  apply BitVec.eq_of_toNat_eq
  have low : (x &&& 0xFFFF).toNat = x.toNat % 2 ^ 16 := Nat.and_two_pow_sub_one_eq_mod x.toNat 16
  have high : (y <<< 16).toNat = (y.toNat % 2 ^ 16) <<< 16 := by
    rw [BitVec.toNat_shiftLeft, Nat.shiftLeft_eq, Nat.shiftLeft_eq]
    omega
  rw [BitVec.toNat_or, low, high, BitVec.toNat_append, BitVec.extractLsb'_toNat, BitVec.extractLsb'_toNat,
    Nat.shiftRight_zero, Nat.shiftRight_zero]

/-- Settles O14: the immediate is read once; the shifts check the value that they shift by. -/
theorem scalarImmediates : Obligations.ScalarImmediates := by
  intro d a imm value info shiftInfo one shift
  have hv (x : Option Nat) : scalarImm x imm = value x := scalarImm_eq x imm
  have shifts {i : Instr} {f : Word → Nat → Word} (he : ∀ s, exec i s = .next (scalarShiftImm d a imm f s)) :
      shift i f := by
    have checks : (fun (_ : Wave) ws => { srInfo 14 [.s a.toNat 1] [.s d.toNat 1] [.s a.toNat 1] []
        (decide (31 < (scalarImm (prefixOf ws 0) imm).toNat)) with ximm := true }) = shiftInfo := by
      funext w ws
      simp [shiftInfo, info, srInfo, hv]
    simp only [shift, ← checks]
    exact writes_scalar he fun v => by rw [hv]
  -- From here the shape is used through `shifts` only.
  clear_value shift
  exact ⟨writes_scalar (fun _ => rfl) fun _ => congrArg _ (hv _), writes_scalar (fun _ => rfl) fun _ => congrArg _ (hv _),
    writes_scalar (fun _ => rfl) fun _ => congrArg _ (hv _), writes_scalar (fun _ => rfl) fun _ => congrArg _ (hv _),
    shifts fun _ => rfl, shifts fun _ => rfl, writes_scalar (fun _ => rfl) fun _ => (upper_half _ _).trans (by rw [hv]),
    writes_scalar (fun _ => rfl) fun _ => hv _⟩

/-! ### Moves, predicates, T registers and the pool tag (R161 to R165) -/

theorem setHalf_eq (t : BitVec 128) (h : BitVec 7) (x : DWord) : setHalf t h.toNat x =
    if h = 0 then t.extractLsb' 64 64 ++ x else x ++ t.extractLsb' 0 64 := by
  have zero : h.toNat = 0 ↔ h = 0 := by rw [← BitVec.toNat_inj]; rfl
  simp only [setHalf, zero]

theorem toNat_low12 (x : Word) : (x &&& 0xFFF).toNat = x.toNat % 2 ^ 12 := Nat.and_two_pow_sub_one_eq_mod x.toNat 12

theorem low12_eq (x : Word) : x &&& 0xFFF = (x.extractLsb' 0 12).setWidth 32 := by
  apply BitVec.eq_of_toNat_eq
  rw [toNat_low12, BitVec.toNat_setWidth, BitVec.extractLsb'_toNat, Nat.shiftRight_zero]
  omega

theorem low4_eq_15 (x : Word) : (x &&& 0xFFF) &&& 0xF = 15 ↔ x.extractLsb' 0 4 = 15 := by
  have low : ((x &&& 0xFFF) &&& 0xF).toNat = (x &&& 0xFFF).toNat % 2 ^ 4 := Nat.and_two_pow_sub_one_eq_mod _ 4
  rw [← BitVec.toNat_inj, ← BitVec.toNat_inj, low, toNat_low12, BitVec.extractLsb'_toNat, Nat.shiftRight_zero,
    Nat.mod_mod_of_dvd _ (by norm_num)]
  rfl

/-- Settles O15: every member writes one register of its wave, but ptag, which traps on operator 15. -/
theorem movesAndPredicates : Obligations.MovesAndPredicates := by
  intro d a b lane s1 preds
  have hlane (v : Env) : (v.w.readS b.toNat).toNat % 32 = lane v := shiftCount_eq _
  have preds' {i : Instr} {c : BitVec 7} {f : Word → Word → Word} (he : ∀ s, exec i s = .next (predOp d a c f s)) :
      preds i c f := writes_of_finishInt he (by simp) (by simp) (by simp) (by simp)
  -- From here the shape is used through `preds'` only.
  clear_value preds
  refine ⟨writes_lanes (fun _ => rfl) fun _ _ => rfl, writes_scalar (fun _ => rfl) fun v => congrArg _ (hlane v), ?vwrlane, ?vlpc,
    writes_scalar (fun _ => rfl) fun _ => rfl, writes_of_finishInt (fun _ => rfl) (by simp) (by simp) (by simp) (by simp),
    preds' fun _ => rfl, preds' fun _ => rfl, preds' fun _ => rfl, preds' fun _ => rfl, ?ptag,
    writes_scalar (fun _ => rfl) fun _ => rfl, ?twr, writes_of_finishInt (fun _ => rfl) (by simp) (by simp) (by simp) (by simp)⟩
  case vwrlane =>
    refine (writes_lanes (fun _ => rfl) fun _ _ => rfl).congr fun wid w pc iss ws => ?_
    rw [hlane]
  case vlpc =>
    refine (writes_of_finishInt (fun _ => rfl) (by simp) (by simp) (by simp) (by simp)).congr fun wid w pc iss ws => ?_
    rw [hlane]
    rfl
  case twr =>
    refine (writes_of_finishInt (fun _ => rfl) (by simp) (by simp) (by simp) (by simp)).congr fun wid w pc iss ws => ?_
    simp only [setHalf_eq]
  case ptag =>
    intro s wid w pc iss ws h p
    refine congrArg Host.Outcome.next ?_
    by_cases op : (w.readS a.toNat).extractLsb' 0 4 = 15
    · exact (issue_trap h p (.inl (by simp [srInfo])) (if_pos ((low4_eq_15 _).mpr op))).trans (if_pos op).symm
    · refine (issue_wave (f := fun u => { u with ptag := ((w.readS a.toNat).extractLsb' 0 12).setWidth 32 }) h p ?_ rfl rfl rfl
        rfl).trans (if_neg op).symm
      refine (if_neg (mt (low4_eq_15 _).mp op)).trans ?_
      rw [finishInt, low12_eq]
      simp only [Wave.orFlags_zero]
      rfl

end Sys2Proof.Machine

/-! SUPPORT. Words that move the lanes of a wave (spec/11 R168 to R173), and O17. -/

namespace Sys2Proof.Machine

open Sys2Proof

/-! ### Words that move the lanes (R168) -/

/-- Addresses matter in the 32 lanes alone. -/
theorem advance_congr {f g : Nat → DWord} (h : ∀ l < 32, f l = g l) (u : Wave) (m : Word) : u.advance m f = u.advance m g := by
  have same : (laneIdx.map fun l => if bitAt m l && u.lane l == .live then f l else u.pc l) =
      laneIdx.map fun l => if bitAt m l && u.lane l == .live then g l else u.pc l :=
    List.map_congr_left fun l hl => by rw [h l (mem_laneIdx.mp hl)]
  simp only [Wave.advance, same]

theorem leaves_congr {pcs pcs' : Nat → DWord} (h : ∀ l < 32, pcs l = pcs' l) (s : State) (i : OpInfo) (v : Env)
    (f : Wave → Wave) : leaves s i v pcs f = leaves s i v pcs' f := by
  simp only [leaves, closing, advance_congr h]

/-- The end of an issue does not see a wave that was put back as it was. -/
theorem settleIssue_setWave_self {s : State} {wid : Nat} {w : Wave} (h : getWave s wid = some w) (f : Wave → Wave) :
    settleIssue (setWave s wid w) wid f = settleIssue s wid f := by
  rw [settleIssue, settleIssue, modWave_of_get f (getWave_setWave s wid w), setWave_setWave, modWave_of_get f h]

section
variable {s : State} {wid : Nat} {w : Wave} {pc : DWord} {iss : Word} {ws : List Word} {info : Wave → List Word → OpInfo}
  {body : Env → State → Res} (h : Stands s wid w pc iss ws) (p : Passes w (info w ws) ws)
include h p

/-- A word that changes nothing but its lanes' addresses. -/
theorem issue_moves {pcs : List DWord} {tgt : Nat → DWord} (ht : ∀ l < 32, pcs.getD l 0 = tgt l)
    (hb : body (sees wid w pc iss ws (info w ws)) s = .jump s pcs) :
    issue s info body = leaves s (info w ws) (sees wid w pc iss ws (info w ws)) tgt id := by
  rw [issue_of_passes h p, hb, ← leaves_congr ht]
  exact (settleIssue_setWave_self h.here _).symm.trans (settle_setWave h _ _ _ id rfl rfl rfl rfl)

/-- A word that goes on to the next and changes nothing else. -/
theorem issue_goes_on (hb : body (sees wid w pc iss ws (info w ws)) s = .done s) :
    issue s info body = completed s (info w ws) (sees wid w pc iss ws (info w ws)) id := by
  rw [issue_of_passes h p, hb]
  exact (settleIssue_setWave_self h.here _).symm.trans (settle_setWave h _ _ _ id rfl rfl rfl rfl)

/-- A word that changes its wave and sends its lanes elsewhere. -/
theorem issue_jumps {pcs : List DWord} {tgt : Nat → DWord} {f : Wave → Wave} (ht : ∀ l < 32, pcs.getD l 0 = tgt l)
    (hb : body (sees wid w pc iss ws (info w ws)) s = .jump (modWave s wid f) pcs)
    (hl : (f w).lanes = w.lanes) (hg : (f w).gang = w.gang) (he : (f w).endReq = w.endReq) (hp : (f w).priv = w.priv) :
    issue s info body = leaves s (info w ws) (sees wid w pc iss ws (info w ws)) tgt f := by
  rw [issue_of_passes h p, hb, modWave_of_get f h.here, ← leaves_congr ht]
  exact settle_setWave h _ _ _ f hl hg he hp

end

/-! ### Targets (R105, R109, R168) -/

/-- Four times a number is one shift, on either side of the words. -/
theorem moveAddr_times_four (a : DWord) (x : Int) : moveAddr a (4 * x) = a + BitVec.ofInt 64 x * 4 := by
  rw [moveAddr, mul_comm, BitVec.ofInt_mul]
  rfl

theorem target_eq (v : Env) (off : BitVec 20) : v.target off = v.wpc + (match v.ximm with
    | none => off.signExtend 64
    | some p => (BitVec.ofNat 24 p ++ off).signExtend 64) * 4 := by
  rw [Env.target, moveAddr_times_four]
  cases hx : v.ximm with
  | none =>
    rw [compositeInt_none]
    rfl
  | some p =>
    rw [compositeInt_some]
    rfl

/-- A relative branch moves its lanes to its target where the test admits them. -/
theorem branch_does {i : Instr} {off : BitVec 20} {rs : List RegRun} {taken taken' : Env → Nat → Bool}
    (he : ∀ s, exec i s = .next (branch rs off taken s)) (ht : ∀ v l, taken v l = taken' v l) :
    Does i (fun _ _ => { cls := 16, rs := rs, ximm := true }) fun v s =>
      leaves s { cls := 16, rs := rs, ximm := true } v (fun l => if taken' v l then v.wpc + (match v.ximm with
        | none => off.signExtend 64
        | some p => (BitVec.ofNat 24 p ++ off).signExtend 64) * 4 else v.next) id := by
  intro s wid w pc iss ws h p
  rw [he, branch]
  refine congrArg _ (issue_moves h p (fun l hl => (laneTable _ _ l hl).trans ?_) rfl)
  simp only [ht, target_eq]

theorem misaligned_iff (x : DWord) : (x.toNat % 4 != 0) = (x.extractLsb' 0 2 != 0) := by
  have low : (x.extractLsb' 0 2).toNat = x.toNat % 4 := by rw [BitVec.extractLsb'_toNat, Nat.shiftRight_zero]
  rw [Bool.eq_iff_iff, bne_iff_ne, bne_iff_ne, ne_eq, ne_eq, ← low, ← BitVec.toNat_inj]
  rfl

/-- A jump sends each lane to its own target, or traps with the lowest misaligned one (R170). -/
theorem jump_does {i : Instr} {o : OpInfo} {scalar : Bool} {tgt : Env → Nat → DWord} (hc : o.cls < 18)
    (he : ∀ s, exec i s = .next (issue s (fun _ _ => o) fun v s => jumpTo v s scalar (tgt v))) :
    Does i (fun _ _ => o) fun v s =>
      match (lanesOf v.iss).find? fun l => (tgt v l).extractLsb' 0 2 != 0 with
      | none => leaves s o v (tgt v) id
      | some l => takeTrap s v.wid ⟨cALIGN, if scalar then 64 else l, v.pc, v.pc, tgt v l, false⟩ := by
  intro s wid w pc iss ws h p
  rw [he]
  refine congrArg _ ?_
  have body : jumpTo (sees wid w pc iss ws o) s scalar (tgt (sees wid w pc iss ws o)) =
      match (lanesOf iss).find? fun l => (tgt (sees wid w pc iss ws o) l).extractLsb' 0 2 != 0 with
      | some l => .trap s cALIGN (if scalar then 64 else l) (tgt (sees wid w pc iss ws o) l)
      | none => .jump s (laneIdx.map (tgt (sees wid w pc iss ws o))) := by
    simp only [jumpTo, misaligned_iff]
    rfl
  show _ = match (lanesOf iss).find? fun l => (tgt (sees wid w pc iss ws o) l).extractLsb' 0 2 != 0 with
    | none => leaves s o (sees wid w pc iss ws o) (tgt (sees wid w pc iss ws o)) id
    | some l => takeTrap s wid ⟨cALIGN, if scalar then 64 else l, pc, pc, tgt (sees wid w pc iss ws o) l, false⟩
  cases hf : (lanesOf iss).find? fun l => (tgt (sees wid w pc iss ws o) l).extractLsb' 0 2 != 0 with
  | none =>
    rw [hf] at body
    exact issue_moves h p (fun l hl => laneTable _ _ l hl) body
  | some l =>
    rw [hf] at body
    exact issue_trap h p (.inl hc) body

theorem logHolds_eq_false {v : Env} (hl : v.w.priv = .s ∨ v.w.log = []) : v.logHolds = false := by
  rcases hl with hs | hn
  · simp [Env.logHolds, hs]
  · simp [Env.logHolds, hn]

/-- Settles O17: relative branches and jumps are one meaning each, and the others end by what they change in the wave. -/
theorem controlFlow : Obligations.ControlFlow := by
  intro off c r target rel jump
  have rel' {i : Instr} {rs : List RegRun} {taken taken' : Env → Nat → Bool}
      (he : ∀ s, exec i s = .next (branch rs off taken s)) (ht : ∀ v l, taken v l = taken' v l) : rel i rs taken' :=
    branch_does he ht
  have jump' {i : Instr} {o : OpInfo} {scalar : Bool} {tgt : Env → Nat → DWord} (hc : o.cls < 18)
      (he : ∀ s, exec i s = .next (issue s (fun _ _ => o) fun v s => jumpTo v s scalar (tgt v))) : jump i o scalar tgt :=
    jump_does hc he
  -- From here the shapes are used through `rel'` and `jump'` only.
  clear_value rel jump
  refine ⟨rel' (fun _ => rfl) fun _ _ => rfl, rel' (fun _ => rfl) fun _ _ => rfl, rel' (fun _ => rfl) fun _ _ => rfl,
    rel' (fun _ => rfl) fun _ _ => beq_eq_decide _ _, rel' (fun _ => rfl) fun _ _ => by rw [bne, beq_eq_decide, decide_not], ?call,
    jump' (by simp) fun _ => rfl, jump' (by simp) fun _ => rfl, jump' (by simp) fun _ => rfl, ?exit, ?nop, ?yield⟩
  case call =>
    intro s wid w pc iss ws h p
    exact congrArg _ (issue_jumps h p (fun l hl => (laneTable _ _ l hl).trans (target_eq _ off)) rfl
      (by simp) (by simp) (by simp) (by simp))
  case exit =>
    intro s wid w pc iss ws h p hl
    exact congrArg _ (issue_done h p (if_neg (by simp [logHolds_eq_false hl])))
  case nop => exact fun s wid w pc iss ws h p => congrArg _ (issue_goes_on h p rfl)
  case yield => exact fun s wid w pc iss ws h p => congrArg _ (issue_goes_on h p rfl)

end Sys2Proof.Machine

/-! SUPPORT. The effective values of the region tree (spec/01 R25), traps of a wave that has progressed, and O18. -/

namespace Sys2Proof.Machine

open Sys2Proof

/-! ### Effective values of the region tree (spec/01 R25) -/

section
variable {s t : State} {α : Type} {F : Region → α}

/-- The region maps of two states agree in what places a region in its tree, and in the field `F`. -/
def SameTree (F : Region → α) (s t : State) : Prop :=
  ∀ k, (fget t.regions k).map (fun g => (g.parent, g.ovr, F g)) = (fget s.regions k).map fun g => (g.parent, g.ovr, F g)

theorem SameTree.get (h : SameTree F s t) (k : Nat) :
    (fget s.regions k = none ∧ fget t.regions k = none) ∨ ∃ g x, fget s.regions k = some g ∧ fget t.regions k = some x ∧
      x.parent = g.parent ∧ x.ovr = g.ovr ∧ F x = F g := by
  have hk := h k
  cases hg : fget s.regions k with
  | none =>
    rw [hg, Option.map_none, Option.map_eq_none_iff] at hk
    exact .inl ⟨rfl, hk⟩
  | some g =>
    rw [hg, Option.map_some, Option.map_eq_some_iff] at hk
    obtain ⟨x, hx, same⟩ := hk
    obtain ⟨hp, ho, hf⟩ : x.parent = g.parent ∧ x.ovr = g.ovr ∧ F x = F g := by simpa using same
    exact .inr ⟨g, x, rfl, hx, hp, ho, hf⟩

theorem SameTree.pathUp (h : SameTree F s t) (fuel r : Nat) : pathUp t fuel r = pathUp s fuel r := by
  induction fuel generalizing r with
  | zero => rfl
  | succ fuel ih =>
    obtain ⟨hs, ht⟩ | ⟨g, x, hs, ht, hp, -, -⟩ := h.get r
    · simp only [Machine.pathUp, hs, ht]
    · simp only [Machine.pathUp, hs, ht, hp]
      cases g.parent with
      | none => rfl
      | some p => simp only [ih]

/-- The field of the node whose own value is effective is the same. -/
theorem SameTree.effNode (h : SameTree F s t) (bit r : Nat) : (effNode t bit r).map F = (effNode s bit r).map F := by
  unfold Machine.effNode regionPath
  rw [h.pathUp]
  have fold (l : List Nat) (a b : Option Region × Bool) (h1 : a.1.map F = b.1.map F) (h2 : a.2 = b.2) :
      (l.foldl (fun (found : Option Region × Bool) n => if found.2 then found else match fget t.regions n with
        | none => found
        | some g => (some g, g.parent.isNone || g.ovr / 2 ^ bit % 2 == 1)) a).1.map F =
      (l.foldl (fun (found : Option Region × Bool) n => if found.2 then found else match fget s.regions n with
        | none => found
        | some g => (some g, g.parent.isNone || g.ovr / 2 ^ bit % 2 == 1)) b).1.map F := by
    induction l generalizing a b with
    | nil => exact h1
    | cons n l ih =>
      simp only [List.foldl_cons]
      apply ih
      all_goals
        rw [h2]
        cases b.2
        · obtain ⟨hs, ht⟩ | ⟨g, x, hs, ht, hp, ho, hf⟩ := h.get n
          · simp [hs, ht, h1, h2]
          · simp [hs, ht, hp, ho, hf]
        · simp [h1, h2]
  exact fold _ _ _ rfl rfl

end

theorem effTrapvec_of_sameTree {s t : State} (h : SameTree Region.trapvec s t) (r : Nat) : effTrapvec t r = effTrapvec s r := by
  rw [effTrapvec, effTrapvec, h.effNode]

theorem effPtroot_of_sameTree {s t : State} (h : SameTree Region.ptroot s t) (r : Nat) : effPtroot t r = effPtroot s r := by
  rw [effPtroot, effPtroot, h.effNode]

/-- A change of one region's own fields keeps the tree. -/
theorem sameTree_modRegion {α : Type} {F : Region → α} (s : State) (k : Nat) {f : Region → Region}
    (hf : ∀ g, (f g).parent = g.parent ∧ (f g).ovr = g.ovr ∧ F (f g) = F g) : SameTree F s (modRegion s k f) := by
  intro n
  simp only [modRegion, fmod]
  cases hk : fget s.regions k with
  | none => rfl
  | some g =>
    obtain rfl | hn := eq_or_ne n k
    · obtain ⟨hp, ho, hF⟩ := hf g
      rw [fget_fset_same, hk, Option.map_some, Option.map_some, hp, ho, hF]
    · rw [fget_fset_other _ _ _ _ hn]

/-! ### trap and brk (R174), and the discard of a fault domain (R375) -/

/-- Every region of a fault domain that is discarded stands DISCARDED. -/
theorem regionStatus_discardOf {s : State} {rg r : Nat} (hw : within s r (faultDomain s rg) = true)
    (hr : (fget s.regions r).isSome = true) : regionStatus (discardOf s rg) r = 2 := by
  obtain ⟨g, hg⟩ := Option.isSome_iff_exists.mp hr
  have listed : (subtree s (faultDomain s rg)).contains r = true := by
    rw [List.contains_iff_mem, subtree, List.mem_filter, List.mem_map]
    exact ⟨⟨(r, g), mem_of_fget hg, rfl⟩, hw⟩
  simp only [regionStatus, discardOf, discard, modHost, fget_fmapv, hg, Option.map_some, listed, if_true, Option.getD_some]

/-- A trap in S mode, or without a vector, discards the fault domain (R375). -/
theorem takeTrap_unrecoverable {s : State} {wid : Nat} {w : Wave} (t : TrapRegs) (h : getWave s wid = some w)
    (hd : w.priv = .s ∨ effTrapvec s (waveRegion s w) = 0) : takeTrap s wid t = discardOf s (waveRegion s w) := by
  simp only [takeTrap, h]
  exact if_pos hd

theorem closing_plain (v : Env) (pcs : Nat → DWord) (u : Wave) :
    closing { cls := 17 } v true pcs u = u.advance v.iss pcs := by
  have marks : u.hintMarks { cls := 17 } v.e v.pfx = u := by
    unfold Wave.hintMarks
    split <;> simp
  simp only [closing, if_true, Bool.false_eq_true, if_false, marks, bumps, Bool.or_false, Bool.false_and]
  rfl

section
variable {s : State} {wid : Nat} {w : Wave} {pc : DWord} {iss : Word} {ws : List Word}

/-- What an instruction has counted and progressed, put upon a wave that changed nothing a region is known by. -/
def afterIssue (s : State) (w : Wave) (wid : Nat) (u : Wave) : State :=
  modRegion (setWave s wid { u with ready := s.time + 5 }) (waveRegion s w) fun g =>
    { g with progress := 0, deadRaised := g.deadRaised && w.priv == .s }

theorem getWave_afterIssue (u : Wave) : getWave (afterIssue s w wid u) wid = some { u with ready := s.time + 5 } :=
  getWave_setWave s wid _

theorem effTrapvec_afterIssue (u : Wave) (r : Nat) : effTrapvec (afterIssue s w wid u) r = effTrapvec s r := by
  have tree : SameTree Region.trapvec (setWave s wid { u with ready := s.time + 5 }) (afterIssue s w wid u) :=
    sameTree_modRegion _ _ fun _ => ⟨rfl, rfl, rfl⟩
  exact effTrapvec_of_sameTree tree r

/-- A trap of a wave that has progressed, in S mode or without a vector. -/
theorem takeTrap_afterIssue_discard {u : Wave} (hg : u.gang = w.gang) (hp : u.priv = w.priv) (t : TrapRegs)
    (hd : w.priv = .s ∨ effTrapvec s (waveRegion s w) = 0) :
    takeTrap (afterIssue s w wid u) wid t = discardOf (afterIssue s w wid u) (waveRegion s w) := by
  have rg : waveRegion (afterIssue s w wid u) { u with ready := s.time + 5 } = waveRegion s w := congrArg (gangRegion s) hg
  rw [takeTrap_unrecoverable t (getWave_afterIssue u) (by rwa [rg, effTrapvec_afterIssue, hp]), rg]

/-- A trap of a wave that has progressed, in U mode with a vector. -/
theorem takeTrap_afterIssue_enter {u : Wave} (hg : u.gang = w.gang) (hp : u.priv = w.priv) (t : TrapRegs)
    (hu : w.priv = .u) (hv : effTrapvec s (waveRegion s w) ≠ 0) :
    takeTrap (afterIssue s w wid u) wid t = setWave (afterIssue s w wid u) wid
      (Wave.enterTrap { u with ready := s.time + 5 } (effTrapvec s (waveRegion s w)) t) := by
  have rg : waveRegion (afterIssue s w wid u) { u with ready := s.time + 5 } = waveRegion s w := congrArg (gangRegion s) hg
  rw [takeTrap_enter t (getWave_afterIssue u) (hp.trans hu) (by rwa [rg, effTrapvec_afterIssue]), rg, effTrapvec_afterIssue]

variable (h : Stands s wid w pc iss ws) (p : Passes w { cls := 17 } ws)
include h p

theorem exec_trap_of_empty (imm : BitVec 16) (hl : w.priv = .s ∨ w.log = []) : exec (.trap imm) s = .next
    (takeTrap (completed s { cls := 17 } (sees wid w pc iss ws { cls := 17 }) id) wid
      ⟨cSYSCALL, 0, pc, pc + BitVec.ofNat 64 (4 * ws.length) + 4, imm.setWidth 64, false⟩) := by
  have settled := settle_setWave h { cls := 17 } { cls := 17 } (fun _ => (sees wid w pc iss ws { cls := 17 }).next) id rfl rfl
    rfl rfl
  rw [id, settleIssue_setWave_self h.here, funext (closing_plain _ _)] at settled
  refine congrArg Host.Outcome.next ((issue_of_passes (info := fun _ _ => { cls := 17 }) h p).trans ?_)
  rw [logHolds_eq_false (v := sees wid w pc iss ws { cls := 17 }) hl, if_neg Bool.false_ne_true, completed, ← settled]
  rfl

theorem exec_brk_of_empty (imm : BitVec 16) (hl : w.priv = .s ∨ w.log = []) : exec (.brk imm) s = .next
    (takeTrap (afterIssue s w wid w) wid ⟨cBRK, 0, pc, pc, imm.setWidth 64, false⟩) := by
  have ready : retired s wid = afterIssue s w wid w := by
    rw [retired, h.here]
    rfl
  refine congrArg Host.Outcome.next ((issue_of_passes (info := fun _ _ => { cls := 17 }) h p).trans ?_)
  rw [logHolds_eq_false (v := sees wid w pc iss ws { cls := 17 }) hl, if_neg Bool.false_ne_true, ← ready]
  rfl

/-- Both wait while the operand log of a wave in U mode holds entries (R197). -/
theorem trap_brk_wait (imm : BitVec 16) (hu : w.priv = .u) (hl : w.log ≠ []) :
    exec (.trap imm) s = .next s ∧ exec (.brk imm) s = .next s := by
  have holds : (sees wid w pc iss ws { cls := 17 }).logHolds = true := by simp [Env.logHolds, sees, hu, hl]
  constructor
  all_goals
    refine congrArg Host.Outcome.next ((issue_of_passes (info := fun _ _ => { cls := 17 }) h p).trans ?_)
    rw [holds, if_pos rfl, ended']

end

/-- Settles O18: both are a trap of a wave that has progressed, which discards or enters. -/
theorem trapAndBreak : Obligations.TrapAndBreak := by
  constructor
  · intro imm s wid w pc iss ws h p rg fresh
    refine ⟨fun hd => ?_, trap_brk_wait h p imm, fun t ht r hw hr => ht ▸ regionStatus_discardOf hw hr⟩
    have empty : w.priv = .s ∨ w.log = [] := hd.imp_right And.left
    have unrecoverable : w.priv = .s ∨ effTrapvec s (waveRegion s w) = 0 := hd.imp_right And.right
    rw [exec_trap_of_empty h p imm empty, exec_brk_of_empty h p imm empty]
    exact ⟨congrArg _ (takeTrap_afterIssue_discard (u := closing _ _ _ _ _) (by simp) (by simp) _ unrecoverable),
      congrArg _ (takeTrap_afterIssue_discard rfl rfl _ unrecoverable)⟩
  · intro imm s wid w pc iss ws h p hu hl hv vec next moved entered
    have syscall : (0 % 256 * 256 + cSYSCALL % 256) = 0x18 := by decide
    have brk : (0 % 256 * 256 + cBRK % 256) = 0x12 := by decide
    have none_logged : (BitVec.ofNat 32 (0 + min w.log.length 4) : Word) = 0 := by simp [hl]
    rw [exec_trap_of_empty h p imm (.inr hl), exec_brk_of_empty h p imm (.inr hl)]
    constructor
    · refine ⟨_, congrArg _ (takeTrap_afterIssue_enter (u := closing _ _ _ _ _) (by simp) (by simp) _ hu hv), _,
        getWave_setWave _ _ _, ?_⟩
      simp only [closing_plain]
      exact ⟨rfl, rfl, rfl, rfl, rfl, congrArg (BitVec.ofNat 32) syscall, rfl, rfl, rfl, none_logged, rfl, rfl, rfl, rfl, rfl, rfl, rfl, rfl⟩
    · exact ⟨_, congrArg _ (takeTrap_afterIssue_enter rfl rfl _ hu hv), _, getWave_setWave _ _ _, rfl, rfl, rfl, rfl, rfl,
        congrArg (BitVec.ofNat 32) brk, rfl, rfl, rfl, none_logged, rfl, rfl, rfl, rfl, rfl, rfl, rfl, rfl⟩

end Sys2Proof.Machine

/-! SUPPORT. The issue of memory instructions: the words, the addresses of their lanes, their checks (spec/11 Table 11.4), how the
body of one ends, and O21, O23, O24. -/

namespace Sys2Proof.Machine

open Sys2Proof

/-! ### The words (Tables 11.5 to 11.8) -/

/-- Every word of the MV format is one shared meaning, with its class, its code and what it does. -/
theorem exec_vectorMemory : ∀ r ∈ vectorMemory, ∀ (g : BitVec 3) (vt vo : BitVec 7) (sp : BitVec 5) (s : State),
    exec (r.1 g vt vo sp) s = .next (memVector r.2.1 r.2.2.1 r.2.2.2 g vt vo sp s) := by
  simp only [vectorMemory, List.forall_mem_append, List.forall_mem_cons, List.not_mem_nil, false_implies, implies_true, and_true]
  repeat' apply And.intro
  all_goals exact fun _ _ _ _ _ => rfl

theorem exec_scalarMemory : ∀ r ∈ scalarMemory, ∀ (d : BitVec 7) (sp : BitVec 5) (off : BitVec 12) (s : State),
    exec (r.1 d sp off) s = .next (memScalar r.2.1 r.2.2 d sp off s) := by
  simp only [scalarMemory, List.forall_mem_cons, List.not_mem_nil, false_implies, implies_true, and_true]
  repeat' apply And.intro
  all_goals exact fun _ _ _ _ => rfl

/-- What a word of the MV format does, by its class and code. -/
inductive VectorOp : Nat → Nat → MemOp → Prop
  | load (f n : Nat) (sx : Bool) (hn : 0 < n) : VectorOp 18 f (.load n sx)
  | store (f n : Nat) (hn : 0 < n) : VectorOp 19 f (.store n)
  | atom (f : Nat) (a : AtomOp) (hn : 0 < a.bytes) : VectorOp 20 f (.atom a)
  | pool (f n : Nat) (hn : n = 4 ∨ n = 8) : VectorOp 21 f (.pool n)
  | append4 : VectorOp 23 0 (.append 4)
  | append16 : VectorOp 23 1 (.append 16)
  | appendLen : VectorOp 23 2 .appendLen

theorem vectorOp_of_mem : ∀ r ∈ vectorMemory, VectorOp r.2.1 r.2.2.1 r.2.2.2 := by
  simp only [vectorMemory, List.forall_mem_append, List.forall_mem_cons, List.not_mem_nil, false_implies, implies_true, and_true]
  repeat' apply And.intro
  all_goals constructor
  all_goals decide

theorem VectorOp.not_scalar {cls f : Nat} {op : MemOp} (h : VectorOp cls f op) : op.isScalar = false := by cases h <;> rfl

theorem VectorOp.writes_iff {cls f : Nat} {op : MemOp} (h : VectorOp cls f op) : op.writes = true ↔ cls ≠ 18 := by
  cases h <;> simp [MemOp.writes]

theorem VectorOp.append_iff {cls f : Nat} {op : MemOp} (h : VectorOp cls f op) : op.isAppend = true ↔ cls = 23 := by
  cases h <;> simp [MemOp.isAppend]

/-- What a word of the MS format but sprefetch does. -/
inductive ScalarOp : MemOp → Prop
  | load (n : Nat) (hn : n = 4 ∨ n = 8) : ScalarOp (.sload n)
  | store (n : Nat) (hn : n = 4 ∨ n = 8) : ScalarOp (.sstore n)
  | atom (a : AtomOp) (hn : a.bytes = 8) : ScalarOp (.satom a)

theorem scalarOp_of_mem : ∀ r ∈ scalarMemory, ScalarOp r.2.2 := by
  simp only [scalarMemory, List.forall_mem_cons, List.not_mem_nil, false_implies, implies_true, and_true]
  repeat' apply And.intro
  all_goals constructor
  all_goals decide

theorem ScalarOp.scalar {op : MemOp} (h : ScalarOp op) : op.isScalar = true := by cases h <;> rfl

theorem ScalarOp.positive {op : MemOp} (h : ScalarOp op) : 0 < op.bytes := by cases h <;> simp only [MemOp.bytes] <;> omega

/-! ### Addresses (R176, R177, R191) -/

theorem mem_lanesOf {m : Word} {l : Nat} : l ∈ lanesOf m ↔ l < 32 ∧ bitAt m l = true := by
  rw [lanesOf, List.mem_filter, mem_laneIdx]

section
variable (v : Env) (cls f : Nat) (op : MemOp) (g : BitVec 3) (vt vo : BitVec 7) (sp : BitVec 5)

theorem mvEntry_vo {l : Nat} (hl : l < 32) : (v.mvEntry cls f op g vt vo sp).vo.getD l 0 = v.w.vlane vo.toNat l :=
  laneTable _ _ l hl

theorem mvEntry_disp : (v.mvEntry cls f op g vt vo sp).disp = match v.ximm with
    | none => 0
    | some p => (BitVec.ofNat 24 p).signExtend 64 := by
  cases hx : v.ximm with
  | none => simp only [Env.mvEntry, Env.entry, hx]
  | some p =>
    simp only [Env.mvEntry, Env.entry, hx, signed_eq_toInt]
    rfl

theorem mvEntry_addr {l : Nat} (hv : VectorOp cls f op) (hl : l < 32) : (v.mvEntry cls f op g vt vo sp).addr op l =
    v.w.readS64 (2 * sp.toNat) + (if cls = 23 then 0 else (v.w.vlane vo.toNat l).signExtend 64) +
      (match v.ximm with
        | none => 0
        | some p => (BitVec.ofNat 24 p).signExtend 64) := by
  rw [← mvEntry_disp v cls f op g vt vo sp]
  simp only [LogEntry.addr, hv.not_scalar, Bool.false_eq_true, if_false, hv.append_iff]
  split_ifs
  · rw [add_zero]
    rfl
  · rw [moveAddr, mvEntry_vo v cls f op g vt vo sp hl, signed_toNat, add_right_comm]
    rfl

end

theorem msEntry_addr (v : Env) (f : Nat) {op : MemOp} (d : BitVec 7) (sp : BitVec 5) (off : BitVec 12) (hs : ScalarOp op)
    (l : Nat) : (v.msEntry f op d sp off).addr op l = v.w.readS64 (2 * sp.toNat) + (match v.ximm with
      | none => off.signExtend 64
      | some p => (BitVec.ofNat 24 p ++ off).signExtend 64) := by
  simp only [LogEntry.addr, hs.scalar, if_true]
  show moveAddr _ (compositeInt v.ximm 12 off.toNat) = _
  cases hx : v.ximm with
  | none =>
    rw [compositeInt_none]
    rfl
  | some p =>
    rw [compositeInt_some]
    rfl

/-! ### How the body of a memory instruction ends -/

theorem logEmpty_of_clear {w : Wave} (clear : w.priv = .s ∨ w.log = []) : (w.priv == .u && !w.log.isEmpty) = false := by
  rcases clear with hs | hl
  · simp [hs]
  · simp [hl]

theorem logFull_of_free {w : Wave} (free : w.priv = .s ∨ w.log.length < 4) :
    (w.priv == .u && decide (4 ≤ w.log.length)) = false := by
  rcases free with hs | hl
  · simp [hs]
  · simp [hl]

section
variable {v : Env} {s : State} {e : LogEntry} {op : MemOp} {d vo : Nat}

/-- Four entries hold the next memory instruction back (R197). -/
theorem memBody_full (hu : v.w.priv = .u) (hl : 4 ≤ v.w.log.length) : memBody v s e op d vo = .hold := by
  simp [memBody, hu, hl]

theorem memBody_idle (free : v.w.priv = .s ∨ v.w.log.length < 4) (hv : op.isScalar = false) (he : v.e = 0) :
    memBody v s e op d vo = .done s := by
  simp [memBody, logFull_of_free free, hv, he]

variable (free : v.w.priv = .s ∨ v.w.log.length < 4) (acts : op.isScalar = true ∨ v.e ≠ 0)
  (room : op.isStore = true → storeCount s v.wid v.w < 31)
include free acts room

/-- None of the three things that end a memory instruction before its checks is the case. -/
theorem memBody_guards : (v.w.priv == .u && decide (4 ≤ v.w.log.length)) = false ∧ (!op.isScalar && v.e == 0) = false ∧
    (op.isStore && decide (31 ≤ storeCount s v.wid v.w)) = false := by
  refine ⟨logFull_of_free free, ?_, ?_⟩
  · rcases acts with hs | he
    · simp [hs]
    · rw [beq_eq_false_iff_ne.mpr he, Bool.and_false]
  · cases hs : op.isStore with
    | false => rfl
    | true => simpa using room hs

theorem memBody_check_fails {c l : Nat} (hc : memCheck s v.w e op d = some (c, l)) :
    memBody v s e op d vo = .trap s c (memInfoBits op l) (e.addr op l) := by
  obtain ⟨full, active, counted⟩ := memBody_guards free acts room
  rw [memBody, full, active, counted, hc]
  rfl

variable (hc : memCheck s v.w e op d = none)
include hc

/-- While the log holds entries, the next memory instruction joins it (R196). -/
theorem memBody_joins_log (hu : v.w.priv = .u) (hl : v.w.log ≠ []) :
    memBody v s e op d vo = .logged (enterLog s v.wid e) := by
  obtain ⟨full, active, counted⟩ := memBody_guards free acts room
  have logged : (v.w.priv == .u && !v.w.log.isEmpty) = true := by simp [hu, hl]
  rw [memBody, full, active, counted, hc, logged]
  rfl

variable (clear : v.w.priv = .s ∨ v.w.log = [])
include clear

theorem memBody_reached {ps : List (Nat × Place)} (hr : reachAll s v.w (rootOf s v.w) e op = .ok ps) :
    memBody v s e op d vo = .done (performMem s v.wid (rootOf s v.w) e op d vo ps) := by
  obtain ⟨full, active, counted⟩ := memBody_guards free acts room
  unfold rootOf at hr
  rw [memBody, full, active, counted, hc, logEmpty_of_clear clear]
  simp only [hr]
  rfl

theorem memBody_stalls (hr : reachAll s v.w (rootOf s v.w) e op = .stall) :
    memBody v s e op d vo = .await (entryVAs s v.w e op) := by
  obtain ⟨full, active, counted⟩ := memBody_guards free acts room
  unfold rootOf at hr
  rw [memBody, full, active, counted, hc, logEmpty_of_clear clear]
  simp only [hr]
  rfl

/-- A page that can be resolved: logged in U mode, awaited in S mode. -/
theorem memBody_resolvable {l : Nat} {va : DWord} (hr : reachAll s v.w (rootOf s v.w) e op = .resolvable l va) :
    memBody v s e op d vo = if v.w.priv = .u then
        .logged (enterLog (walkEntry s v.w (rootOf s v.w) e op) v.wid { e with flane := l, fva := va })
      else .await (entryVAs s v.w e op) := by
  obtain ⟨full, active, counted⟩ := memBody_guards free acts room
  unfold rootOf at hr
  rw [memBody, full, active, counted, hc, logEmpty_of_clear clear]
  simp only [hr, beq_iff_eq]
  rfl

/-- A fault that cannot be resolved: logged in U mode, a trap in S mode. -/
theorem memBody_fault {c l : Nat} {va : DWord} (hr : reachAll s v.w (rootOf s v.w) e op = .fail c l va) :
    memBody v s e op d vo = if v.w.priv = .u then
        .logged (enterLog (walkEntry s v.w (rootOf s v.w) e op) v.wid { e with cause := c, flane := l, fva := va })
      else .trap (walkEntry s v.w (rootOf s v.w) e op) c (memInfoBits op l) va := by
  obtain ⟨full, active, counted⟩ := memBody_guards free acts room
  unfold rootOf at hr
  rw [memBody, full, active, counted, hc, logEmpty_of_clear clear]
  simp only [hr, beq_iff_eq]
  rfl

end

/-! ### Performing (R180, R195) -/

theorem mayAccess.free {s : State} {v : Env} {op : MemOp} (h : mayAccess s v op) : v.w.priv = .s ∨ v.w.log.length < 4 :=
  h.1.imp_right fun hl => by rw [hl]; exact Nat.zero_lt_succ 3

/-- A memory instruction whose checks pass and whose lanes are reached performs and goes on. -/
theorem issue_performs {s : State} {wid : Nat} {w : Wave} {pc : DWord} {iss : Word} {ws : List Word}
    {info : Wave → List Word → OpInfo} {entry : Env → LogEntry} {op : MemOp} {d vo : Nat} {ps : List (Nat × Place)}
    (h : Stands s wid w pc iss ws) (p : Passes w (info w ws) ws)
    (acts : op.isScalar = true ∨ (sees wid w pc iss ws (info w ws)).e ≠ 0)
    (hr : reaches s (sees wid w pc iss ws (info w ws)) (entry (sees wid w pc iss ws (info w ws))) op d ps) :
    issue s info (fun v s => memBody v s (entry v) op d vo) = completedIn
      (performMem s wid (rootOf s w) (entry (sees wid w pc iss ws (info w ws))) op d vo ps) (info w ws)
      (sees wid w pc iss ws (info w ws)) := by
  obtain ⟨may, passed, reached⟩ := hr
  exact issue_done h p (memBody_reached may.free acts may.2 passed may.1 reached)

/-- Settles O21: the addresses are read from the entry, and the body of the one shared meaning ends in two ways. -/
theorem vectorMemoryPerforms : Obligations.VectorMemoryPerforms := by
  intro r hr g vt vo sp s wid w pc iss ws i v e
  have hv := vectorOp_of_mem r hr
  refine ⟨fun l hl => mvEntry_addr v r.2.1 r.2.2.1 r.2.2.2 g vt vo sp hv hl, fun h p => ⟨fun he free => ?_, fun ps he reached => ?_⟩⟩
  · rw [exec_vectorMemory r hr]
    exact congrArg _ (issue_goes_on h p (memBody_idle free hv.not_scalar he))
  · rw [exec_vectorMemory r hr]
    exact congrArg _ (issue_performs (entry := fun v => v.mvEntry r.2.1 r.2.2.1 r.2.2.2 g vt vo sp) h p (.inr he) reached)

end Sys2Proof.Machine

/-! SUPPORT. The checks of Table 11.4 in their order, each by its lowest failing lane, and O23, O24. -/

namespace Sys2Proof.Machine

open Sys2Proof

/-! ### The first lane of a list that fails -/

theorem find?_eq_of_least {q : Nat → Bool} {l : Nat} : ∀ {ls : List Nat}, ls.Pairwise (· < ·) → l ∈ ls → q l = true →
    (∀ k ∈ ls, q k = true → l ≤ k) → ls.find? q = some l
  | a :: ls, sorted, mem, hq, least => by
    rw [List.pairwise_cons] at sorted
    cases ha : q a with
    | true =>
      have same : a = l := by
        rcases List.mem_cons.mp mem with rfl | hl
        · rfl
        · exact absurd (sorted.1 l hl) (Nat.not_lt.mpr (least a List.mem_cons_self ha))
      rw [List.find?_cons_of_pos ha, same]
    | false =>
      have other : l ∈ ls := (List.mem_cons.mp mem).resolve_left fun h => by simp [← h, hq] at ha
      rw [List.find?_cons_of_neg (by simp [ha])]
      exact find?_eq_of_least sorted.2 other hq fun k hk => least k (List.mem_cons_of_mem a hk)

theorem lanesOf_sorted (m : Word) : (lanesOf m).Pairwise (· < ·) :=
  List.Pairwise.filter _ (by decide : laneIdx.Pairwise (· < ·))

/-! ### The checks, each as a test of one lane (Table 11.4) -/

/-- Whether a pool tag does not fit the width of its word (R187). -/
def MemOp.refusesTag (op : MemOp) (tag : Word) : Bool :=
  match op with
  | .pool n => tagOp tag == 0 || ((tagOp tag == 2 || tagOp tag == 14) != (n == 8))
  | _ => false

/-- Whether the address, or the length of an aappl, is misaligned (R179). -/
def LogEntry.misaligned (e : LogEntry) (op : MemOp) (l : Nat) : Bool :=
  match op with
  | .append _ => false
  | .appendLen => e.size op l % 4 != 0 || decide (64 < e.size op l)
  | _ => (e.addr op l).toNat % op.bytes != 0

/-- Whether the length of an aappl names a register that is not held. -/
def LogEntry.unheld (e : LogEntry) (w : Wave) (op : MemOp) (d l : Nat) : Bool :=
  decide (op = .appendLen) && !(numsFrom d (e.size op l / 4)).all w.holdsV

/-- Whether the address lies outside the apertures of its kind (R178). -/
def LogEntry.outside (e : LogEntry) (s : State) (w : Wave) (op : MemOp) (l : Nat) : Bool :=
  !apertureOk op (steer s w.gang (e.addr op l).toNat (max 1 op.bytes))

/-- Whether a value lies outside the range of its anchor (spec/17 R306). -/
def LogEntry.beyondAnchor (e : LogEntry) (w : Wave) (op : MemOp) (d l : Nat) : Bool :=
  match op with
  | .pool n => decide (tagOp e.ptag = 13 ∨ tagOp e.ptag = 14) &&
      (poolValue (tagOp e.ptag) (tagAnchor e.ptag) (dataOf w op d (n / 4) l)).isNone
  | _ => false

theorem find?_and_const {α : Type} (b : Bool) (q : α → Bool) (ls : List α) :
    ls.find? (fun l => b && q l) = if b then ls.find? q else none := by
  cases b <;> simp

/-- A chain of checks, each with its own cause, is the first that answers. -/
theorem chain_eq_or (b : Bool) (low : Nat) (align missing aper ovf : Option Nat) :
    (if b then some (cBADTAG, low) else match align with
      | some l => some (cALIGN, l)
      | none => match missing with
        | some l => some (cILLEGAL, l)
        | none => match aper with
          | some l => some (cAPERTURE, l)
          | none => ovf.map fun l => (cPOOLOVF, l)) =
    if b then some (cBADTAG, low) else (align.map fun l => (cALIGN, l)).or ((missing.map fun l => (cILLEGAL, l)).or
      ((aper.map fun l => (cAPERTURE, l)).or (ovf.map fun l => (cPOOLOVF, l)))) := by
  cases align <;> cases missing <;> cases aper <;> rfl

section
variable {s : State} {w : Wave} {e : LogEntry} {op : MemOp} {d : Nat}

/-- The checks, one after another. -/
theorem memCheck_eq : memCheck s w e op d = if op.refusesTag e.ptag then some (cBADTAG, (e.lanes op).headD 0) else
    (((e.lanes op).find? (e.misaligned op)).map fun l => (cALIGN, l)).or
    ((((e.lanes op).find? (e.unheld w op d)).map fun l => (cILLEGAL, l)).or
    ((((e.lanes op).find? (e.outside s w op)).map fun l => (cAPERTURE, l)).or
    (((e.lanes op).find? (e.beyondAnchor w op d)).map fun l => (cPOOLOVF, l)))) := by
  have anchor : (e.lanes op).find? (e.beyondAnchor w op d) = match op with
      | .pool n => if tagOp e.ptag = 13 ∨ tagOp e.ptag = 14 then
          (e.lanes op).find? fun l => (poolValue (tagOp e.ptag) (tagAnchor e.ptag) (dataOf w op d (n / 4) l)).isNone
        else none
      | _ => none := by
    unfold LogEntry.beyondAnchor
    cases op <;> simp [find?_and_const]
  have held : (e.lanes op).find? (e.unheld w op d) = if op = .appendLen then
      (e.lanes op).find? fun l => !(numsFrom d (e.size op l / 4)).all w.holdsV else none := by
    unfold LogEntry.unheld
    simp [find?_and_const]
  rw [anchor, held]
  rw [← chain_eq_or]
  unfold memCheck
  cases op <;> rfl

end

/-! ### What each check asks of a lane of an MV word -/

/-- A data address lies where its kind may go (R178, spec/15 Table 15.1). -/
theorem apertureOk_steer (s : State) (gid a n : Nat) (op : MemOp) : apertureOk op (steer s gid a n) = true ↔
    a < 0xFFFF800000000000 ∨
    (apertureOk op (.spad 0 0) = true ∧ 0xFFFF800000000000 ≤ a ∧ a < 0xFFFF800001400000 ∧
      spadTarget s gid (a - 0xFFFF800000000000) n ≠ .bad) ∨
    (apertureOk op (.stack 0) = true ∧ 0xFFFF900000000000 ≤ a ∧ a < 0xFFFF900000004000) := by
  have bad : apertureOk op .bad = false := rfl
  unfold steer
  split_ifs with glob spad stack
  · simp [apertureOk, glob]
  · have later : ¬ 0xFFFF900000000000 ≤ a := by omega
    rcases spadTarget_bad_or_place s gid (a - 0xFFFF800000000000) n with h | ⟨t, h⟩
    · simp [h, bad, glob, later]
    · have same (g p : Nat) : apertureOk op (.spad g p) = apertureOk op (.spad 0 0) := rfl
      simp [h, same, glob, later, spad, not_lt.mp glob]
  · have same (o : Nat) : apertureOk op (.stack o) = apertureOk op (.stack 0) := rfl
    simp [same, glob, spad, stack]
  · simpa [bad, glob, spad] using fun _ h => not_lt.mp fun h' => stack ⟨h, h'⟩

section
variable (v : Env) {cls f : Nat} {op : MemOp} (g : BitVec 3) (vt vo : BitVec 7) (sp : BitVec 5) (hv : VectorOp cls f op)
include hv

theorem mvEntry_lanes : (v.mvEntry cls f op g vt vo sp).lanes op = lanesOf v.e := by
  rw [LogEntry.lanes, hv.not_scalar, if_neg Bool.false_ne_true]
  rfl

theorem mvEntry_refusesTag : op.refusesTag (v.mvEntry cls f op g vt vo sp).ptag = true ↔ cls = 21 ∧
    ((v.w.ptag.extractLsb' 0 4).toNat = 0 ∨
      (((v.w.ptag.extractLsb' 0 4).toNat = 2 ∨ (v.w.ptag.extractLsb' 0 4).toNat = 14) ∧ op.bytes = 4) ∨
      (¬ ((v.w.ptag.extractLsb' 0 4).toNat = 2 ∨ (v.w.ptag.extractLsb' 0 4).toNat = 14) ∧ op.bytes = 8)) := by
  have low : (v.w.ptag.extractLsb' 0 4).toNat = tagOp v.w.ptag := by rw [BitVec.extractLsb'_toNat, Nat.shiftRight_zero]; rfl
  rw [low]
  cases hv with
  | pool f n hn =>
    show (tagOp v.w.ptag == 0 || ((tagOp v.w.ptag == 2 || tagOp v.w.ptag == 14) != (n == 8))) = true ↔ _
    rcases hn with rfl | rfl
    · simp [MemOp.bytes]
    · simp [MemOp.bytes]
  | _ => simp [MemOp.refusesTag]

theorem mvEntry_misaligned {l : Nat} (hl : l < 32) : (v.mvEntry cls f op g vt vo sp).misaligned op l = true ↔
    if cls = 23 then f = 2 ∧ ((v.w.vlane vo.toNat l).toNat % 4 ≠ 0 ∨ 64 < (v.w.vlane vo.toNat l).toNat)
    else ((v.mvEntry cls f op g vt vo sp).addr op l).toNat % op.bytes ≠ 0 := by
  cases hv with
  | appendLen =>
    rw [LogEntry.misaligned, LogEntry.size, mvEntry_vo _ _ _ _ _ _ _ _ hl]
    simp
  | _ => simp [LogEntry.misaligned]

theorem mvEntry_unheld (w : Wave) {l : Nat} (hl : l < 32) :
    (v.mvEntry cls f op g vt vo sp).unheld w op vt.toNat l = true ↔
    cls = 23 ∧ f = 2 ∧ ∃ k, k < (v.w.vlane vo.toNat l).toNat / 4 ∧ w.holdsV (vt.toNat + k) = false := by
  cases hv with
  | appendLen =>
    rw [LogEntry.unheld, LogEntry.size, mvEntry_vo _ _ _ _ _ _ _ _ hl, numsFrom_eq_range']
    simp [List.range'_eq_map_range]
  | _ => simp [LogEntry.unheld]

theorem mvEntry_outside (s : State) (w : Wave) (l : Nat) :
    (v.mvEntry cls f op g vt vo sp).outside s w op l = true ↔
    ¬ (((v.mvEntry cls f op g vt vo sp).addr op l).toNat < 0xFFFF800000000000 ∨
      (cls ≤ 20 ∧ 0xFFFF800000000000 ≤ ((v.mvEntry cls f op g vt vo sp).addr op l).toNat ∧
        ((v.mvEntry cls f op g vt vo sp).addr op l).toNat < 0xFFFF800001400000 ∧
        spadTarget s w.gang (((v.mvEntry cls f op g vt vo sp).addr op l).toNat - 0xFFFF800000000000) op.bytes ≠ .bad) ∨
      (cls ≤ 20 ∧ 0xFFFF900000000000 ≤ ((v.mvEntry cls f op g vt vo sp).addr op l).toNat ∧
        ((v.mvEntry cls f op g vt vo sp).addr op l).toNat < 0xFFFF900000004000)) := by
  rw [LogEntry.outside, Bool.not_eq_true', ← Bool.not_eq_true, apertureOk_steer]
  generalize ((v.mvEntry cls f op g vt vo sp).addr op l).toNat = a
  cases hv with
  | load f n sx hn => simp [apertureOk, MemOp.bytes, Nat.max_eq_right (Nat.succ_le_of_lt hn)]
  | store f n hn => simp [apertureOk, MemOp.bytes, Nat.max_eq_right (Nat.succ_le_of_lt hn)]
  | atom f a hn => simp [apertureOk, MemOp.bytes, Nat.max_eq_right (Nat.succ_le_of_lt hn)]
  | _ => simp [apertureOk]

theorem mvEntry_beyondAnchor (l : Nat) : (v.mvEntry cls f op g vt vo sp).beyondAnchor v.w op vt.toNat l = true ↔ cls = 21 ∧
    ((v.w.ptag.extractLsb' 0 4).toNat = 13 ∨ (v.w.ptag.extractLsb' 0 4).toNat = 14) ∧
    poolValue (v.w.ptag.extractLsb' 0 4).toNat (v.w.ptag.extractLsb' 4 8).toInt
      (if op.bytes = 8 then (v.w.vlane64 vt.toNat l).toNat else (v.w.vlane vt.toNat l).toNat) = none := by
  have low : (v.w.ptag.extractLsb' 0 4).toNat = tagOp v.w.ptag := by rw [BitVec.extractLsb'_toNat, Nat.shiftRight_zero]; rfl
  have high : (v.w.ptag.extractLsb' 4 8).toInt = tagAnchor v.w.ptag := by
    rw [tagAnchor, signed_eq_toInt, show v.w.ptag.toNat / 16 = v.w.ptag.toNat >>> 4 from (Nat.shiftRight_eq_div_pow _ 4).symm]
    rfl
  rw [low, high]
  cases hv with
  | pool f n hn =>
    show (decide (tagOp v.w.ptag = 13 ∨ tagOp v.w.ptag = 14) &&
      (poolValue (tagOp v.w.ptag) (tagAnchor v.w.ptag) (dataOf v.w (.pool n) vt.toNat (n / 4) l)).isNone) = true ↔ _
    rcases hn with rfl | rfl
    · simp [MemOp.bytes, dataOf, MemOp.byPairs, numsFrom, MemOp.isScalar]
    · simp [MemOp.bytes, dataOf, MemOp.byPairs, numsFrom, MemOp.isScalar]
  | _ => simp [LogEntry.beyondAnchor]

end

/-! ### The check that reports (R182, R188) -/

/-- The lowest lane of a mask that fails a test, and none where none fails. -/
theorem find?_lowest {m : Word} {q : Nat → Bool} {Q : Nat → Prop} (hq : ∀ k ∈ lanesOf m, (q k = true ↔ Q k)) :
    (∀ l, (l ∈ lanesOf m ∧ Q l ∧ ∀ k ∈ lanesOf m, Q k → l ≤ k) → (lanesOf m).find? q = some l) ∧
    ((∀ l ∈ lanesOf m, ¬ Q l) → (lanesOf m).find? q = none) :=
  ⟨fun l ⟨mem, fails, least⟩ => find?_eq_of_least (lanesOf_sorted m) mem ((hq l mem).mpr fails)
      fun k hk h => least k hk ((hq k hk).mp h),
    fun none' => List.find?_eq_none.mpr fun k hk h => none' k hk ((hq k hk).mp h)⟩

/-- The first of a list is its least. -/
theorem headD_of_lowest {m : Word} {l : Nat} (mem : l ∈ lanesOf m) (least : ∀ k ∈ lanesOf m, l ≤ k) :
    (lanesOf m).headD 0 = l := by
  have found : (lanesOf m).find? (fun _ => true) = some l :=
    find?_eq_of_least (lanesOf_sorted m) mem rfl fun k hk _ => least k hk
  cases hm : lanesOf m with
  | nil => simp [hm] at mem
  | cons a t => simpa [hm] using found

/-- A check that fails traps, before any effect. -/
theorem issue_check_fails {s : State} {wid : Nat} {w : Wave} {pc : DWord} {iss : Word} {ws : List Word}
    {info : Wave → List Word → OpInfo} {entry : Env → LogEntry} {op : MemOp} {d vo c l : Nat}
    (h : Stands s wid w pc iss ws) (p : Passes w (info w ws) ws)
    (acts : op.isScalar = true ∨ (sees wid w pc iss ws (info w ws)).e ≠ 0)
    (may : mayAccess s (sees wid w pc iss ws (info w ws)) op)
    (hc : memCheck s w (entry (sees wid w pc iss ws (info w ws))) op d = some (c, l)) :
    issue s info (fun v s => memBody v s (entry v) op d vo) = takeTrap s wid
      ⟨c, memInfoBits op l, pc, pc, (entry (sees wid w pc iss ws (info w ws))).addr op l, false⟩ := by
  rw [issue_of_passes h p, memBody_check_fails may.free acts may.2 hc, ended', logEmpty_of_clear (w := w) may.1, Bool.false_and,
    if_neg Bool.false_ne_true]

/-- The checks of an MS word: its address is aligned and lies inside its apertures. -/
theorem memCheck_scalar {s : State} {w : Wave} {e : LogEntry} {op : MemOp} {d : Nat} (hs : ScalarOp op) :
    memCheck s w e op d = if (e.addr op 0).toNat % op.bytes ≠ 0 then some (0x0C, 0)
      else if e.outside s w op 0 then some (0x0D, 0) else none := by
  have one : e.lanes op = [0] := if_pos hs.scalar
  have align : e.misaligned op 0 = ((e.addr op 0).toNat % op.bytes != 0) := by cases hs <;> rfl
  have tag : op.refusesTag e.ptag = false := by cases hs <;> rfl
  have held : e.unheld w op d 0 = false := by cases hs <;> rfl
  have anchor : e.beyondAnchor w op d 0 = false := by cases hs <;> rfl
  rw [memCheck_eq, one, tag]
  by_cases ha : (e.addr op 0).toNat % op.bytes = 0 <;> by_cases ho : e.outside s w op 0 = true <;>
    simp [align, ha, ho, held, anchor, cALIGN, cAPERTURE]

theorem outside_scalar {s : State} {w : Wave} {e : LogEntry} {op : MemOp} (hs : ScalarOp op) : e.outside s w op 0 = true ↔
    ¬ ((e.addr op 0).toNat < 0xFFFF800000000000 ∨ (0xFFFF800000000000 ≤ (e.addr op 0).toNat ∧
      (e.addr op 0).toNat < 0xFFFF800001400000 ∧
      spadTarget s w.gang ((e.addr op 0).toNat - 0xFFFF800000000000) op.bytes ≠ .bad)) := by
  rw [LogEntry.outside, Bool.not_eq_true', ← Bool.not_eq_true, apertureOk_steer, Nat.max_eq_right (Nat.succ_le_of_lt hs.positive)]
  generalize (e.addr op 0).toNat = a
  cases hs <;> simp [apertureOk]

/-- Settles O23: the checks are a chain, each of which asks its question of every lane and reports the lowest that fails. -/
theorem memoryChecksTrap : Obligations.MemoryChecksTrap := by
  refine ⟨?vector, ?checks, ?scalarChecks, ?scalar⟩
  case vector =>
    intro r hr g vt vo sp s wid w pc iss ws c l i v e h p he may _ hc
    have hv := vectorOp_of_mem r hr
    have info : memInfoBits r.2.2.2 l = l + (if r.2.1 = 18 then 0 else 32) := by
      rw [memInfoBits, hv.not_scalar, if_neg Bool.false_ne_true, if_congr hv.writes_iff rfl rfl, ite_not]
    rw [exec_vectorMemory r hr, ← info]
    exact congrArg _ (issue_check_fails (entry := fun v => v.mvEntry r.2.1 r.2.2.1 r.2.2.2 g vt vo sp) h p (.inr he) may hc)
  case checks =>
    intro r hr g vt vo sp s wid w pc iss ws v e op wide len n tagBad misaligned missing outside beyond lowest no check
    have hv := vectorOp_of_mem r hr
    have active (k : Nat) (hk : k ∈ lanesOf v.e) : k < 32 := (mem_lanesOf.mp hk).1
    have lanes : e.lanes r.2.2.2 = lanesOf v.e := mvEntry_lanes v g vt vo sp hv
    have tag : r.2.2.2.refusesTag e.ptag = true ↔ tagBad := mvEntry_refusesTag v g vt vo sp hv
    obtain ⟨align, aligned⟩ := find?_lowest (Q := misaligned) fun k hk => mvEntry_misaligned v g vt vo sp hv (active k hk)
    obtain ⟨miss, held⟩ := find?_lowest (Q := missing) fun k hk => mvEntry_unheld v g vt vo sp hv w (active k hk)
    obtain ⟨out, within⟩ := find?_lowest (m := v.e) (Q := outside) fun k _ => mvEntry_outside v g vt vo sp hv s w k
    obtain ⟨beyond', inside⟩ := find?_lowest (m := v.e) (q := e.beyondAnchor w r.2.2.2 vt.toNat) (Q := beyond) fun k _ => mvEntry_beyondAnchor v g vt vo sp hv k
    have chain : check = if r.2.2.2.refusesTag e.ptag then some (cBADTAG, (lanesOf v.e).headD 0) else
        (((lanesOf v.e).find? (e.misaligned r.2.2.2)).map fun l => (cALIGN, l)).or
        ((((lanesOf v.e).find? (e.unheld w r.2.2.2 vt.toNat)).map fun l => (cILLEGAL, l)).or
        ((((lanesOf v.e).find? (e.outside s w r.2.2.2)).map fun l => (cAPERTURE, l)).or
        (((lanesOf v.e).find? (e.beyondAnchor w r.2.2.2 vt.toNat)).map fun l => (cPOOLOVF, l)))) := lanes ▸ memCheck_eq
    refine ⟨fun bad l hl => ?_, fun good => ?_⟩
    · rw [chain, if_pos (tag.mpr bad), headD_of_lowest hl.1 fun k hk => hl.2.2 k hk trivial]
      rfl
    · rw [if_neg (mt tag.mp good)] at chain
      refine ⟨fun l hl => ?_, fun noAlign => ⟨fun l hl => ?_, fun noMissing => ⟨fun l hl => ?_, fun noOutside =>
        ⟨fun l hl => ?_, fun noBeyond => ?_⟩⟩⟩⟩
      · rw [chain, align l hl]
        rfl
      · rw [chain, aligned noAlign, miss l hl]
        rfl
      · rw [chain, aligned noAlign, held noMissing, out l hl]
        rfl
      · rw [chain, aligned noAlign, held noMissing, within noOutside, beyond' l hl]
        rfl
      · rw [chain, aligned noAlign, held noMissing, within noOutside, inside noBeyond]
        rfl
  case scalarChecks =>
    intro r hr d sp off s wid w pc iss ws v e a inside check
    have hs := scalarOp_of_mem r hr
    have chain : check = if a % r.2.2.bytes ≠ 0 then some (0x0C, 0) else if e.outside s w r.2.2 0 then some (0x0D, 0) else none :=
      memCheck_scalar hs
    refine ⟨fun misaligned => chain.trans (if_pos misaligned), fun aligned => ⟨fun out => ?_, fun ins => ?_⟩⟩
    · rw [chain, if_neg (not_not.mpr aligned), if_pos ((outside_scalar hs).mpr out)]
    · rw [chain, if_neg (not_not.mpr aligned), if_neg (mt (outside_scalar hs).mp (not_not.mpr ins))]
  case scalar =>
    intro r hr d sp off s wid w pc iss ws c l i v e h p may _ hc
    have hs := scalarOp_of_mem r hr
    have info : memInfoBits r.2.2 l = 64 + (if r.2.2.writes then 32 else 0) := by rw [memInfoBits, hs.scalar, if_pos rfl]
    rw [exec_scalarMemory r hr, ← info]
    refine congrArg _ ((issue_check_fails (entry := fun v => v.msEntry r.2.1 r.2.2 d sp off) h p (.inl hs.scalar) may hc).trans ?_)
    exact congrArg (fun a => takeTrap s wid ⟨c, memInfoBits r.2.2 l, pc, pc, a, false⟩) (msEntry_addr v r.2.1 d sp off hs l)

/-! ### Faults (R193 to R197) -/

/-- The walks of an access that does not perform change memory and pools alone. -/
theorem walkEntry_frame (s : State) (w : Wave) (root : DWord) (e : LogEntry) (op : MemOp) :
    ∃ m p, walkEntry s w root e op = { s with mem := m, pool := p } := by
  have fold (vas : List Nat) (s : State) : ∃ m p, vas.foldl (fun s va => settleWalk s root va) s = { s with mem := m, pool := p } := by
    induction vas generalizing s with
    | nil => exact ⟨s.mem, s.pool, rfl⟩
    | cons va vas ih =>
      obtain ⟨m, p, h⟩ := settleWalk_frame s root va
      rw [List.foldl_cons, h]
      obtain ⟨m', p', h'⟩ := ih { s with mem := m, pool := p }
      exact ⟨m', p', h'⟩
  rw [walkEntry]
  split
  · exact ⟨s.mem, s.pool, rfl⟩
  · exact fold _ s

section
variable {s : State} {wid : Nat} {w : Wave} {pc : DWord} {iss : Word} {ws : List Word} {info : Wave → List Word → OpInfo}
  {entry : Env → LogEntry} {op : MemOp} {d vo : Nat} (h : Stands s wid w pc iss ws) (p : Passes w (info w ws) ws)
include h p

/-- An instruction that joins the log in a state that differs in memory and pools alone. -/
theorem issue_logged {t : State} {body : Env → State → Res} {e : LogEntry} (ht : ∃ m q, t = { s with mem := m, pool := q })
    (hb : body (sees wid w pc iss ws (info w ws)) s = .logged (enterLog t wid e)) :
    issue s info body = settleIssue (setWave t wid { w with log := w.log ++ [{ e with since := s.time }] }) wid
      (closing (info w ws) (sees wid w pc iss ws (info w ws)) false fun _ => (sees wid w pc iss ws (info w ws)).next) := by
  have here : getWave t wid = some w := by
    obtain ⟨m, q, rfl⟩ := ht
    exact h.here
  have time : t.time = s.time := by
    obtain ⟨m, q, rfl⟩ := ht
    rfl
  rw [issue_of_passes h p, hb, ended', enterLog, modWave_of_get _ here, time]

end

/-- How a memory instruction that passes its checks meets a fault, for both formats. -/
theorem faults_enter {s : State} {wid : Nat} {w : Wave} {pc : DWord} {iss : Word} {ws : List Word}
    {info : Wave → List Word → OpInfo} {entry : Env → LogEntry} {op : MemOp} {d vo : Nat} {instr : Instr} {acts : Prop}
    (he : exec instr s = .next (issue s info fun v s => memBody v s (entry v) op d vo))
    (ha : acts → op.isScalar = true ∨ (sees wid w pc iss ws (info w ws)).e ≠ 0) :
    let i := info w ws
    let v := sees wid w pc iss ws i
    let e := entry v
    let logged := fun (t : State) (e : LogEntry) => Host.Outcome.next (σ := State) (φ := Fault) (ρ := Refusal)
      (settleIssue (setWave t wid { w with log := w.log ++ [{ e with since := s.time }] }) wid
        (closing i v false fun _ => v.next))
    let walked := walkEntry s w (rootOf s w) e op
    let reached := reachAll s w (rootOf s w) e op
    let waits := exec instr s = .next { s with wants := entryVAs s w e op }
    Stands s wid w pc iss ws → Passes w i ws →
    (w.priv = .u → 4 ≤ w.log.length → exec instr s = .next s) ∧
    (acts → (op.isStore = true → storeCount s wid w < 31) → memCheck s w e op d = none →
      (w.priv = .u → w.log.length < 4 →
        (w.log ≠ [] → exec instr s = logged s e) ∧
        (∀ l va, w.log = [] → reached = .resolvable l va → exec instr s = logged walked { e with flane := l, fva := va }) ∧
        (∀ c l va, w.log = [] → reached = .fail c l va →
          exec instr s = logged walked { e with cause := c, flane := l, fva := va })) ∧
      (w.priv = .s ∨ w.log = [] → reached = .stall → waits) ∧
      (w.priv = .s →
        (∀ l va, reached = .resolvable l va → waits) ∧
        (∀ c l va, reached = .fail c l va → exec instr s = .next (takeTrap walked wid
          ⟨c, (if op.isScalar then 64 else l) + (if op.writes then 32 else 0), pc, pc, va, false⟩)))) := by
  intro i v e logged walked reached waits h p
  have frame : ∃ m q, walked = { s with mem := m, pool := q } := walkEntry_frame s w (rootOf s w) e op
  refine ⟨fun hu full => ?_, fun act room hc => ?_⟩
  · exact he.trans (congrArg _ (by rw [issue_of_passes h p, memBody_full hu full, ended']))
  · have act := ha act
    refine ⟨fun hu free => ⟨fun hl => ?_, fun l va hl hr => ?_, fun c l va hl hr => ?_⟩, fun clear hr => ?_,
      fun hs => ⟨fun l va hr => ?_, fun c l va hr => ?_⟩⟩
    · exact he.trans (congrArg _ (issue_logged h p ⟨s.mem, s.pool, rfl⟩ (memBody_joins_log (.inr free) act room hc hu hl)))
    · exact he.trans (congrArg _ (issue_logged h p frame
        ((memBody_resolvable (.inr free) act room hc (.inr hl) hr).trans (if_pos hu))))
    · exact he.trans (congrArg _ (issue_logged h p frame
        ((memBody_fault (.inr free) act room hc (.inr hl) hr).trans (if_pos hu))))
    · have free : w.priv = .s ∨ w.log.length < 4 := clear.imp_right fun hl => by rw [hl]; exact Nat.zero_lt_succ 3
      exact he.trans (congrArg _ (by rw [issue_of_passes h p, memBody_stalls free act room hc clear hr, ended']; rfl))
    · have super : ¬ v.w.priv = .u := by rw [show v.w.priv = .s from hs]; decide
      exact he.trans (congrArg _ (by
        rw [issue_of_passes h p, memBody_resolvable (.inl hs) act room hc (.inl hs) hr, if_neg super, ended']; rfl))
    · have super : ¬ v.w.priv = .u := by rw [show v.w.priv = .s from hs]; decide
      exact he.trans (congrArg _ (by
        rw [issue_of_passes h p, memBody_fault (.inl hs) act room hc (.inl hs) hr, if_neg super, ended',
          logEmpty_of_clear (w := w) (.inl hs), Bool.false_and, if_neg Bool.false_ne_true]
        rfl))

/-- Settles O24: both formats are one body, and each fault is one way that it ends. -/
theorem faultsEnterTheLog : Obligations.FaultsEnterTheLog := by
  unfold Obligations.FaultsEnterTheLog
  constructor
  · intro r hr g vt vo sp s wid w pc iss ws i v
    exact faults_enter (entry := fun v => v.mvEntry r.2.1 r.2.2.1 r.2.2.2 g vt vo sp) (exec_vectorMemory r hr g vt vo sp s) .inr
  · intro r hr d sp off s wid w pc iss ws i v
    exact faults_enter (entry := fun v => v.msEntry r.2.1 r.2.2 d sp off) (exec_scalarMemory r hr d sp off s)
      fun _ => .inl (scalarOp_of_mem r hr).scalar

end Sys2Proof.Machine

/-! SUPPORT. What device accesses see of memory (spec/17 R292, R304): merges change no byte that is read, and writes change the
bytes written. -/

namespace Sys2Proof.Machine

open Sys2Proof

/-! ### Maps -/

theorem fget_fdel {α : Type} (m : FMap α) (k n : Nat) : fget (fdel m k) n = if n = k then none else fget m n := by
  induction m with
  | nil => simp [fdel, fget]
  | cons p t ih =>
    obtain ⟨k', y⟩ := p
    obtain rfl | hk := eq_or_ne k k'
    · rw [fdel, if_pos rfl, ih, fget]
      split_ifs <;> rfl
    · rw [fdel, if_neg hk, fget, fget, ih]
      obtain rfl | hn := eq_or_ne n k'
      · rw [if_pos rfl, if_pos rfl, if_neg (Ne.symm hk)]
      · rw [if_neg hn, if_neg hn]

theorem mem_of_mem_fset {α : Type} {m : FMap α} {k : Nat} {x : α} {p : Nat × α} (h : p ∈ fset m k x) : p = (k, x) ∨ p ∈ m := by
  induction m with
  | nil => simpa [fset] using h
  | cons q t ih =>
    obtain ⟨k', y⟩ := q
    rw [fset] at h
    split_ifs at h with h1 h2
    · exact List.mem_cons.mp h
    · exact (List.mem_cons.mp h).imp_right (List.mem_cons_of_mem _)
    · rcases List.mem_cons.mp h with h | h
      · exact .inr (List.mem_cons.mpr (.inl h))
      · exact (ih h).imp_right (List.mem_cons_of_mem _)

theorem fget_fmod {α : Type} (m : FMap α) (k n : Nat) (f : α → α) :
    fget (fmod m k f) n = if n = k then (fget m n).map f else fget m n := by
  unfold fmod
  cases h : fget m k with
  | none =>
    obtain rfl | hn := eq_or_ne n k
    · rw [if_pos rfl, h]
      rfl
    · rw [if_neg hn]
  | some x =>
    obtain rfl | hn := eq_or_ne n k
    · rw [if_pos rfl, h]
      exact fget_fset_same _ _ _
    · rw [if_neg hn]
      exact fget_fset_other _ _ _ _ hn

/-! ### Merged lines (R304, R305) -/

theorem poolWidth_eq (op : Nat) : poolWidth op = 8 ∨ poolWidth op = 4 := by
  unfold poolWidth
  split_ifs
  · exact .inl rfl
  · exact .inr rfl

/-- An element lies in its line. -/
theorem poolElem_inside {l : PoolLine} {e : Nat} (h : e ∈ poolElems l) : e * poolWidth l.op + poolWidth l.op ≤ 128 := by
  have hn := (List.mem_filter.mp h).1
  rw [numsFrom_zero, List.mem_range] at hn
  rcases poolWidth_eq l.op with hw | hw
  · rw [hw] at hn ⊢
    omega
  · rw [hw] at hn ⊢
    omega

theorem bytesAt_congr {m m' : List Host.Cell} {a n : Nat} (h : ∀ y, a ≤ y → y < a + n → byteAt m' y = byteAt m y) :
    bytesAt m' a n = bytesAt m a n := by
  rw [bytesAt, bytesAt, numsFrom_eq_range']
  exact List.map_congr_left fun y hy => by
    obtain ⟨lo, hi⟩ := List.mem_range'_1.mp hy
    exact h y lo hi

/-- What the elements of a line leave in two memories that agree on the line: memories that agree on it. -/
theorem mergedMem_foldl {s t : State} {line : Nat} {l : PoolLine}
    (agree : ∀ y, y / 128 = line → byteAt t.mem y = byteAt s.mem y) (es : List Nat)
    (inside : ∀ e ∈ es, e * poolWidth l.op + poolWidth l.op ≤ 128) (acc acc' : List Host.Cell × List Nat)
    (hw : Memory.wf acc.1 = true) (hw' : Memory.wf acc'.1 = true) :
    let step := fun (u : State) (acc : List Host.Cell × List Nat) e =>
      let w := poolWidth l.op
      let a := line * 128 + e * w
      let r := poolMerged l e (leNat (bytesAt u.mem a w))
      (setBytes acc.1 a (leBytes w r.1), if r.2 then acc.2 ++ [a] else acc.2)
    Memory.wf (es.foldl (step s) acc).1 = true ∧
    (∀ y, y / 128 ≠ line → byteAt (es.foldl (step s) acc).1 y = byteAt acc.1 y) ∧
    (∀ y, byteAt acc'.1 y = byteAt acc.1 y → byteAt (es.foldl (step t) acc').1 y = byteAt (es.foldl (step s) acc).1 y) := by
  intro step
  induction es generalizing acc acc' with
  | nil => exact ⟨hw, fun _ _ => rfl, fun _ h => h⟩
  | cons e es ih =>
    have inside' := inside e List.mem_cons_self
    have same : bytesAt t.mem (line * 128 + e * poolWidth l.op) (poolWidth l.op) =
        bytesAt s.mem (line * 128 + e * poolWidth l.op) (poolWidth l.op) :=
      bytesAt_congr fun y lo hi => agree y (by omega)
    have put (m : List Host.Cell) (hm : Memory.wf m = true) (n y : Nat) :
        byteAt (setBytes m (line * 128 + e * poolWidth l.op) (leBytes (poolWidth l.op) n)) y =
          if line * 128 + e * poolWidth l.op ≤ y ∧ y < line * 128 + e * poolWidth l.op + poolWidth l.op then
            (leBytes (poolWidth l.op) n).getD (y - (line * 128 + e * poolWidth l.op)) 0 else byteAt m y := by
      rw [byteAt_setBytes _ _ _ hm, length_leBytes]
    obtain ⟨wf, out, eq⟩ := ih (fun e he => inside e (List.mem_cons_of_mem _ he)) (step s acc e) (step t acc' e)
      (wf_setBytes _ _ hw) (wf_setBytes _ _ hw')
    refine ⟨wf, fun y hy => (out y hy).trans ?_, fun y hy => eq y ?_⟩
    · exact (put acc.1 hw _ y).trans (if_neg (by omega))
    · refine (put acc'.1 hw' _ y).trans (Eq.trans ?_ (put acc.1 hw _ y).symm)
      rw [same, hy]

theorem mergedMem_wf {s : State} (line : Nat) (l : PoolLine) (h : s.memoryOk) : Memory.wf (mergedMem s line l).1 = true :=
  (mergedMem_foldl (t := s) (fun _ _ => rfl) (poolElems l) (fun _ he => poolElem_inside he) (s.mem, []) (s.mem, []) h h).1

/-- A merge leaves every other line as it was. -/
theorem mergedMem_other {s : State} {line : Nat} (l : PoolLine) (h : s.memoryOk) {y : Nat} (hy : y / 128 ≠ line) :
    byteAt (mergedMem s line l).1 y = byteAt s.mem y :=
  (mergedMem_foldl (t := s) (fun _ _ => rfl) (poolElems l) (fun _ he => poolElem_inside he) (s.mem, []) (s.mem, []) h h).2.1 y hy

/-- What a merge leaves in a line comes from the line alone. -/
theorem mergedMem_line {s t : State} {line : Nat} (l : PoolLine) (hs : s.memoryOk) (ht : t.memoryOk)
    (agree : ∀ y, y / 128 = line → byteAt t.mem y = byteAt s.mem y) {y : Nat} (hy : y / 128 = line) :
    byteAt (mergedMem t line l).1 y = byteAt (mergedMem s line l).1 y :=
  (mergedMem_foldl agree (poolElems l) (fun _ he => poolElem_inside he) (s.mem, []) (t.mem, []) hs ht).2.2 y (agree y hy)

/-! ### Bytes as reads find them -/

theorem devByte_device {s : State} {a : Nat} (h : deviceLine s a) : devByte s a = byteAt s.mem a := by
  rw [devByte, h.1, if_neg Bool.false_ne_true, h.2]

/-- A byte of an unpooled line of the device is the memory's. -/
theorem viewByte_unpooled {s : State} {a : Nat} (h : deviceLine s a) (hp : fget s.pool (a / 128) = none) :
    viewByte s a = byteAt s.mem a := by
  rw [viewByte, hp]
  exact devByte_device h

/-- A read of a line depends on the line, and on whether it is pooled. -/
theorem viewByte_line {s t : State} {a : Nat} (hs : deviceLine s a) (ht : deviceLine t a) (ms : s.memoryOk) (mt : t.memoryOk)
    (hp : fget t.pool (a / 128) = fget s.pool (a / 128)) (agree : ∀ y, y / 128 = a / 128 → byteAt t.mem y = byteAt s.mem y) :
    viewByte t a = viewByte s a := by
  rw [viewByte, viewByte, hp]
  cases fget s.pool (a / 128) with
  | none => exact (devByte_device ht).trans ((agree a rfl).trans (devByte_device hs).symm)
  | some l => exact mergedMem_line l ms mt agree rfl

theorem plainLine.device {s : State} {a : Nat} (h : plainLine s a) : deviceLine s a := ⟨h.2.2, h.2.1⟩

/-! ### Merges -/

/-- `t` is `s` after merges and walks, as the reads of a device make them: no byte that is read has changed. -/
structure Merges (s t : State) : Prop where
  frame : t = { s with mem := t.mem, pool := t.pool, tlb := t.tlb, resident := t.resident }
  memoryOk : s.memoryOk → t.memoryOk
  pool : ∀ k, fget s.pool k = none → fget t.pool k = none
  view : s.memoryOk → ∀ a, deviceLine s a → viewByte t a = viewByte s a
  quiet : s.pool = [] → t.mem = s.mem ∧ t.pool = []

theorem Merges.refl (s : State) : Merges s s := ⟨rfl, id, fun _ h => h, fun _ _ _ => rfl, fun h => ⟨rfl, h⟩⟩

theorem Merges.hostLines {s t : State} (h : Merges s t) : t.hostLines = s.hostLines := by rw [h.frame]
theorem Merges.hostL2 {s t : State} (h : Merges s t) : t.hostL2 = s.hostL2 := by rw [h.frame]
theorem Merges.gangs {s t : State} (h : Merges s t) : t.gangs = s.gangs := by rw [h.frame]
theorem Merges.waves {s t : State} (h : Merges s t) : t.waves = s.waves := by rw [h.frame]

theorem Merges.device {s t : State} (h : Merges s t) {a : Nat} (ha : deviceLine s a) : deviceLine t a :=
  ⟨ha.1, h.hostLines ▸ ha.2⟩

theorem Merges.plain {s t : State} (h : Merges s t) {a : Nat} (ha : plainLine s a) : plainLine t a :=
  ⟨h.pool _ ha.1, h.hostLines ▸ ha.2.1, ha.2.2⟩

theorem Merges.trans {s t u : State} (h : Merges s t) (g : Merges t u) : Merges s u where
  frame := by rw [g.frame, h.frame]
  memoryOk hs := g.memoryOk (h.memoryOk hs)
  pool k hk := g.pool k (h.pool k hk)
  view hs a ha := (g.view (h.memoryOk hs) a (h.device ha)).trans (h.view hs a ha)
  quiet hs := ⟨(g.quiet (h.quiet hs).2).1.trans (h.quiet hs).1, (g.quiet (h.quiet hs).2).2⟩

theorem Merges.foldl {α : Type} {f : State → α → State} (hf : ∀ s x, Merges s (f s x)) (l : List α) (s : State) :
    Merges s (l.foldl f s) := by
  induction l generalizing s with
  | nil => exact Merges.refl s
  | cons x l ih => exact (hf s x).trans (ih (f s x))

theorem merges_mergeAt (s : State) (a : Nat) : Merges s (mergeAt s a).1 := by
  have whole := memoryOk_mergeAt (s := s) a
  unfold mergeAt at whole ⊢
  cases hp : fget s.pool (a / 128) with
  | none => exact Merges.refl s
  | some l =>
    rw [hp] at whole
    refine ⟨rfl, whole, fun k hk => ?_, fun hs x hx => ?_, fun h => ?_⟩
    · show fget (fdel s.pool (a / 128)) k = none
      rw [fget_fdel, hk, ite_self]
    · have dev : deviceLine { s with mem := (mergedMem s (a / 128) l).1, pool := fdel s.pool (a / 128) } x := hx
      obtain same | other := eq_or_ne (x / 128) (a / 128)
      · rw [viewByte_unpooled dev (by rw [fget_fdel, if_pos same]), viewByte, same, hp]
      · exact viewByte_line hx dev hs (whole hs) (by rw [fget_fdel, if_neg other]) fun y hy =>
          mergedMem_other l hs (hy ▸ other)
    · rw [h] at hp
      cases hp

theorem merges_settleWalk (s : State) (root : DWord) (va : Nat) : Merges s (settleWalk s root va) := by
  unfold settleWalk
  split
  · exact Merges.refl s
  · exact Merges.foldl merges_mergeAt _ s

theorem merges_fillTlb (s : State) (root : DWord) (va : Nat) (e : DWord) : Merges s (fillTlb s root va e) := by
  have noted : Merges s (noteResident s e) := by
    unfold noteResident
    split
    · exact ⟨rfl, id, fun _ h => h, fun _ _ _ => rfl, fun h => ⟨rfl, h⟩⟩
    · exact Merges.refl s
  have cached (t : State) (x : FMap (List DWord)) : Merges t { t with tlb := x } :=
    ⟨rfl, id, fun _ h => h, fun _ _ _ => rfl, fun h => ⟨rfl, h⟩⟩
  exact (noted.trans (merges_settleWalk _ root va)).trans (cached _ _)

/-- To read through translations notes them and merges the lines of their walks. -/
theorem merges_useLeaves (s : State) (root : DWord) (p : Place) : Merges s (useLeaves s root p none) :=
  Merges.foldl (f := fun (s : State) (m : Nat × DWord × Nat) => fillTlb s root m.2.2 m.2.1) (fun s m => merges_fillTlb s root m.2.2 m.2.1) p.marks s

/-! ### Writes -/

/-- From `s` to `t`, which has the same waves, no byte changes that a device access can see but those of the places `at'`. -/
structure Alters (at' : Loc → Prop) (s t : State) : Prop where
  waves : t.waves = s.waves
  memoryOk : s.memoryOk → t.memoryOk
  spadsOk : s.spadsOk → t.spadsOk
  pool : ∀ k, fget s.pool k = none → fget t.pool k = none
  hostLines : ∀ k, fget s.hostLines k = none → fget t.hostLines k = none
  gangs : ∀ k, (fget s.gangs k).isSome = true → (fget t.gangs k).isSome = true
  view : s.memoryOk → s.spadsOk → ∀ x, deviceLoc s x → ¬ at' x → locView t x = locView s x

theorem Alters.device {at' : Loc → Prop} {s t : State} (h : Alters at' s t) {x : Loc} (hx : deviceLoc s x) : deviceLoc t x := by
  cases x with
  | phys pa => exact ⟨hx.1, h.hostLines _ hx.2⟩
  | spad g p => trivial

theorem Alters.plain {at' : Loc → Prop} {s t : State} (h : Alters at' s t) {a : Nat} (ha : plainLine s a) : plainLine t a :=
  ⟨h.pool _ ha.1, h.hostLines _ ha.2.1, ha.2.2⟩

theorem Alters.refl (at' : Loc → Prop) (s : State) : Alters at' s s :=
  ⟨rfl, id, id, fun _ h => h, fun _ h => h, fun _ h => h, fun _ _ _ _ _ => rfl⟩

theorem Alters.trans {at' : Loc → Prop} {s t u : State} (h : Alters at' s t) (g : Alters at' t u) : Alters at' s u where
  waves := g.waves.trans h.waves
  memoryOk hs := g.memoryOk (h.memoryOk hs)
  spadsOk hs := g.spadsOk (h.spadsOk hs)
  pool k hk := g.pool k (h.pool k hk)
  hostLines k hk := g.hostLines k (h.hostLines k hk)
  gangs k hk := g.gangs k (h.gangs k hk)
  view hm hs x hx out := (g.view (h.memoryOk hm) (h.spadsOk hs) x (h.device hx) out).trans (h.view hm hs x hx out)

theorem Alters.mono {at' at'' : Loc → Prop} {s t : State} (h : Alters at' s t) (sub : ∀ x, at' x → at'' x) : Alters at'' s t :=
  { h with view := fun hm hs x hx out => h.view hm hs x hx fun hx => out (sub x hx) }

theorem Merges.locView {s t : State} (h : Merges s t) (hm : s.memoryOk) {x : Loc} (hx : deviceLoc s x) : locView t x = locView s x := by
  cases x with
  | phys pa => exact h.view hm pa hx
  | spad g p =>
    show locByte t (.spad g p) = locByte s (.spad g p)
    rw [locByte, locByte, h.gangs]

theorem Merges.alters {at' : Loc → Prop} {s t : State} (h : Merges s t) : Alters at' s t where
  waves := h.waves
  memoryOk := h.memoryOk
  spadsOk hs := by rw [State.spadsOk, h.gangs]; exact hs
  pool := h.pool
  hostLines k hk := h.hostLines ▸ hk
  gangs k hk := h.gangs ▸ hk
  view hm _ _ hx _ := h.locView hm hx

theorem alters_foldl {α : Type} {f : State → α → State} {at' : Loc → Prop} {l : List α}
    (hf : ∀ s, ∀ x ∈ l, Alters at' s (f s x)) (s : State) : Alters at' s (l.foldl f s) := by
  induction l generalizing s with
  | nil => exact Alters.refl at' s
  | cons x l ih =>
    exact (hf s x List.mem_cons_self).trans (ih (fun s y hy => hf s y (List.mem_cons_of_mem x hy)) (f s x))

/-- The host's copy of a line of the device goes to memory, which no other line sees. -/
theorem alters_touchLine (s : State) {a : Nat} (ha : isHostPA a = false) (at' : Loc → Prop) : Alters at' s (touchLine s a) := by
  have whole := memoryOk_touchLine (s := s) a
  unfold touchLine at whole ⊢
  rw [ha, if_neg Bool.false_ne_true] at whole ⊢
  cases hh : fget s.hostLines (a / 128) with
  | none => exact Alters.refl at' s
  | some l =>
    rw [hh] at whole
    have shrinks (k : Nat) (hk : fget s.hostLines k = none) : fget (fdel s.hostLines (a / 128)) k = none := by
      rw [fget_fdel, hk, ite_self]
    refine ⟨rfl, whole, id, fun _ h => h, shrinks, fun _ h => h, fun hm _ x hx _ => ?_⟩
    cases x with
    | spad g p => rfl
    | phys pa =>
      have other : pa / 128 ≠ a / 128 := fun h => by
        have := hx.2
        rw [h, hh] at this
        cases this
      refine viewByte_line hx ⟨hx.1, shrinks _ hx.2⟩ hm (whole hm) rfl fun y hy => ?_
      show byteAt (setBytes s.mem (a / 128 * 128) (l.take 128)) y = byteAt s.mem y
      have short : (l.take 128).length ≤ 128 := List.length_take_le 128 l
      rw [byteAt_setBytes _ _ _ hm, if_neg (by omega)]

/-- The bytes of a table entry. -/
def inEntry (a : Nat) : Loc → Prop
  | .phys x => a ≤ x ∧ x < a + 8
  | .spad _ _ => False

/-- An address where a leaf entry may stand: aligned, and of the device. -/
def entryPlace (a : Nat) : Prop := a % 8 = 0 ∧ isHostPA a = false

/-- Bytes put in an entry whose line is plain memory. -/
theorem alters_setEntry (t : State) {a : Nat} (e : DWord) (ha : entryPlace a) (unpooled : fget t.pool (a / 128) = none) :
    Alters (inEntry a) t { t with mem := setBytes t.mem a (leBytes 8 e.toNat) } := by
  have whole (ht : t.memoryOk) : State.memoryOk { t with mem := setBytes t.mem a (leBytes 8 e.toNat) } := wf_setBytes _ _ ht
  refine ⟨rfl, whole, id, fun _ h => h, fun _ h => h, fun _ h => h, fun hm _ x hx out => ?_⟩
  cases x with
  | spad g p => rfl
  | phys pa =>
    have outside : ¬ (a ≤ pa ∧ pa < a + 8) := out
    have put (y : Nat) : byteAt (setBytes t.mem a (leBytes 8 e.toNat)) y = if a ≤ y ∧ y < a + 8 then
        (leBytes 8 e.toNat).getD (y - a) 0 else byteAt t.mem y := by
      rw [byteAt_setBytes _ _ _ hm, length_leBytes]
    have dev : deviceLine { t with mem := setBytes t.mem a (leBytes 8 e.toNat) } pa := hx
    obtain same | other := eq_or_ne (pa / 128) (a / 128)
    · show viewByte _ pa = viewByte t pa
      rw [viewByte_unpooled hx (same ▸ unpooled), viewByte_unpooled dev (same ▸ unpooled)]
      exact (put pa).trans (if_neg outside)
    · have aligned := ha.1
      exact viewByte_line hx dev hm (whole hm) rfl fun y hy => (put y).trans (if_neg (by omega))

/-- The write of an entry changes its own bytes. -/
theorem alters_putEntry (s : State) {a : Nat} (e : DWord) (ha : entryPlace a) : Alters (inEntry a) s (putEntry s a e) := by
  have merged : fget (mergeAt s a).1.pool (a / 128) = none := by
    unfold mergeAt
    cases hp : fget s.pool (a / 128) with
    | none => exact hp
    | some l => exact (fget_fdel _ _ _).trans (if_pos rfl)
  have touched := alters_touchLine (mergeAt s a).1 ha.2 (inEntry a)
  exact ((merges_mergeAt s a).alters.trans touched).trans (alters_setEntry _ e ha (touched.pool _ merged))

/-- A write may mark the leaf it comes through. -/
theorem alters_markDirty (s : State) (gen : Nat) {a : Nat} (e : DWord) (ha : entryPlace a) :
    Alters (inEntry a) s (markDirty s gen a e) := by
  unfold markDirty
  dsimp only
  split_ifs
  · exact Alters.refl _ s
  · exact Alters.refl _ s
  · exact alters_putEntry s _ ha

/-- The entries that a place came through. -/
def inLeaves (p : Place) (x : Loc) : Prop := ∃ m ∈ p.marks, inEntry m.1 x

/-- The leaves of a place stand where leaf entries may. -/
def leavesOk (p : Place) : Prop := ∀ m ∈ p.marks, entryPlace m.1

theorem alters_useLeaves (s : State) (root : DWord) (gen : Nat) {p : Place} (hp : leavesOk p) :
    Alters (inLeaves p) s (useLeaves s root p (some gen)) :=
  alters_foldl (f := fun s m => fillTlb (markDirty s gen m.1 m.2.1) root m.2.2 m.2.1) (fun s m hm =>
    ((alters_markDirty s gen m.2.1 (hp m hm)).mono fun _ hx => ⟨m, hm, hx⟩).trans
      (merges_fillTlb _ root m.2.2 m.2.1).alters) s

/-! ### The bytes of places -/

/-- A place of one byte that is neither pooled nor held by the host. -/
def plainLoc (s : State) : Loc → Prop
  | .phys pa => plainLine s pa
  | .spad _ _ => True

theorem plainLoc.device {s : State} {x : Loc} (h : plainLoc s x) : deviceLoc s x := by
  cases x with
  | phys pa => exact plainLine.device h
  | spad g p => trivial

theorem locView_plain {s : State} {x : Loc} (h : plainLoc s x) : locView s x = locByte s x := by
  cases x with
  | phys pa =>
    show viewByte s pa = devByte s pa
    rw [viewByte, h.1]
  | spad g p => rfl

theorem plainPlace_iff {s : State} {p : Place} : plainPlace s p ↔ ∀ x ∈ p.locs, plainLoc s x := by
  constructor
  · intro h x hx
    cases x with
    | phys pa => exact h pa hx
    | spad g q => trivial
  · exact fun h pa hpa => h _ hpa

theorem Alters.plainPlace {at' : Loc → Prop} {s t : State} (h : Alters at' s t) {p : Place} (hp : plainPlace s p) : plainPlace t p :=
  fun pa hpa => h.plain (hp pa hpa)

/-- To prepare plain places changes nothing, and nothing overflows. -/
theorem prepareList_plain {s : State} {ls : List Loc} (h : ∀ x ∈ ls, plainLoc s x) : prepareList s ls = (s, []) := by
  unfold prepareList
  induction ls with
  | nil => rfl
  | cons x ls ih =>
    have rest := ih fun y hy => h y (List.mem_cons_of_mem x hy)
    cases x with
    | spad g p => exact rest
    | phys pa =>
      obtain ⟨hp, hh, hd⟩ : plainLine s pa := h (.phys pa) List.mem_cons_self
      simpa only [List.foldl_cons, mergeAt, hp, touchLine, hd, Bool.false_eq_true, if_false, hh] using rest

/-- The write of a byte: the byte reads so, and no other changes. -/
theorem alters_setLoc (s : State) {x : Loc} (b : BitVec 8) (hx : plainLoc s x) : Alters (· = x) s (setLoc s x b) := by
  cases x with
  | phys pa =>
    obtain ⟨hp, hh, hd⟩ := hx
    have e : setLoc s (.phys pa) b = { s with mem := setByte s.mem pa b } := by simp [setLoc, devSet, touchLine, hd, hh]
    have whole (hm : s.memoryOk) : State.memoryOk { s with mem := setByte s.mem pa b } := wf_setByte _ _ hm
    rw [e]
    refine ⟨rfl, whole, id, fun _ h => h, fun _ h => h, fun _ h => h, fun hm _ y hy out => ?_⟩
    cases y with
    | spad g p => rfl
    | phys pb =>
      have dev : deviceLine { s with mem := setByte s.mem pa b } pb := hy
      have ne : pb ≠ pa := fun h => out (by rw [h])
      obtain same | other := eq_or_ne (pb / 128) (pa / 128)
      · show viewByte _ pb = viewByte s pb
        rw [viewByte_unpooled hy (same ▸ hp), viewByte_unpooled dev (same ▸ hp)]
        exact (byteAt_setByte pa pb b hm).trans (if_neg ne)
      · exact viewByte_line hy dev hm (whole hm) rfl fun y hy => (byteAt_setByte pa y b hm).trans (if_neg fun h => other (by
          rw [← hy, h]))
  | spad g p =>
    have get (k : Nat) : fget (setLoc s (.spad g p) b).gangs k =
        if k = g then (fget s.gangs k).map fun gg => { gg with spad := setByte gg.spad p b } else fget s.gangs k :=
      fget_fmod s.gangs g k _
    refine ⟨rfl, id, fun hs q hq => ?_, fun _ h => h, fun _ h => h, fun k hk => ?_, fun _ hs y hy out => ?_⟩
    · have hq : q ∈ fmod s.gangs g fun gg => { gg with spad := setByte gg.spad p b } := hq
      unfold fmod at hq
      cases hg : fget s.gangs g with
      | none =>
        rw [hg] at hq
        exact hs q hq
      | some gg =>
        rw [hg] at hq
        rcases mem_of_mem_fset hq with rfl | hq
        · exact wf_setByte _ _ (hs _ (mem_of_fget hg))
        · exact hs q hq
    · rw [get]
      split_ifs
      · rw [Option.isSome_map, hk]
      · exact hk
    · cases y with
      | phys pa => rfl
      | spad k q =>
        show locByte _ (.spad k q) = locByte s (.spad k q)
        rw [locByte, locByte, get]
        obtain rfl | hk := eq_or_ne k g
        · rw [if_pos rfl]
          cases hg : fget s.gangs k with
          | none => rfl
          | some gg =>
            have ne : q ≠ p := fun h => out (by rw [h])
            exact (byteAt_setByte p q b (hs _ (mem_of_fget hg))).trans (if_neg ne)
        · rw [if_neg hk]

/-- A plain place of one byte that exists. -/
def settable (s : State) (x : Loc) : Prop := plainLoc s x ∧ ∀ g p, x = .spad g p → (fget s.gangs g).isSome = true

theorem Alters.settable {at' : Loc → Prop} {s t : State} (h : Alters at' s t) {x : Loc} (hx : settable s x) : settable t x := by
  refine ⟨?_, fun g p e => h.gangs g (hx.2 g p e)⟩
  cases x with
  | phys pa => exact h.plain hx.1
  | spad g p => trivial

/-- A byte that is written reads as written. -/
theorem locView_setLoc {s : State} {x : Loc} (b : BitVec 8) (hm : s.memoryOk) (hs : s.spadsOk) (hx : settable s x) :
    locView (setLoc s x b) x = b := by
  cases x with
  | phys pa =>
    obtain ⟨hp, hh, hd⟩ := hx.1
    have e : setLoc s (.phys pa) b = { s with mem := setByte s.mem pa b } := by simp [setLoc, devSet, touchLine, hd, hh]
    have dev : deviceLine { s with mem := setByte s.mem pa b } pa := ⟨hd, hh⟩
    rw [e]
    exact (viewByte_unpooled dev hp).trans ((byteAt_setByte pa pa b hm).trans (if_pos rfl))
  | spad g p =>
    obtain ⟨gg, hg⟩ := Option.isSome_iff_exists.mp (hx.2 g p rfl)
    have get : fget (setLoc s (.spad g p) b).gangs g = some { gg with spad := setByte gg.spad p b } :=
      (fget_fmod s.gangs g g _).trans (by rw [if_pos rfl, hg]; rfl)
    show locByte _ (.spad g p) = b
    rw [locByte, get]
    exact (byteAt_setByte p p b (hs _ (mem_of_fget hg))).trans (if_pos rfl)

/-- The write of several bytes changes no byte but those. -/
theorem alters_setLocs : ∀ {ls : List Loc} {bs : List (BitVec 8)} {s : State}, (∀ x ∈ ls, settable s x) →
    Alters (· ∈ ls) s (setLocs s ls bs)
  | [], _, s, _ => by rw [setLocs]; exacts [Alters.refl _ s, nofun]
  | _ :: _, [], s, _ => by rw [setLocs]; exacts [Alters.refl _ s, nofun]
  | l :: ls, b :: bs, s, h => by
    have first := alters_setLoc s b (h l List.mem_cons_self).1
    have rest : Alters (· ∈ ls) (setLoc s l b) (setLocs (setLoc s l b) ls bs) :=
      alters_setLocs fun x hx => first.settable (h x (List.mem_cons_of_mem l hx))
    rw [setLocs]
    exact (first.mono fun x hx => hx ▸ List.mem_cons_self).trans (rest.mono fun x hx => List.mem_cons_of_mem l hx)

/-- A place that is written several times keeps the last byte. -/
theorem locView_setLocs : ∀ {ls : List Loc} {bs : List (BitVec 8)} {s : State} {k : Nat} {x : Loc} {b : BitVec 8},
    s.memoryOk → s.spadsOk → (∀ x ∈ ls, settable s x) → ls[k]? = some x → bs[k]? = some b →
    (∀ j, k < j → ls[j]? ≠ some x) → locView (setLocs s ls bs) x = b
  | [], _, _, _, _, _, _, _, _, hk, _, _ => by simp at hk
  | _ :: _, [], _, _, _, _, _, _, _, _, hb, _ => by simp at hb
  | l :: ls, b' :: bs, s, k, x, b, hm, hs, h, hk, hb, last => by
    have first := alters_setLoc s b' (h l List.mem_cons_self).1
    have rest : ∀ x ∈ ls, settable (setLoc s l b') x := fun x hx => first.settable (h x (List.mem_cons_of_mem l hx))
    rw [setLocs]
    cases k with
    | zero =>
      obtain rfl : l = x := by simpa using hk
      obtain rfl : b' = b := by simpa using hb
      have gone : l ∉ ls := fun hl => by
        obtain ⟨j, hj⟩ := List.mem_iff_getElem?.mp hl
        exact last (j + 1) (Nat.succ_pos j) hj
      have here := h l List.mem_cons_self
      rw [(alters_setLocs rest).view (first.memoryOk hm) (first.spadsOk hs) l (first.device here.1.device) gone,
        locView_setLoc b' hm hs here]
    | succ k =>
      exact locView_setLocs (first.memoryOk hm) (first.spadsOk hs) rest hk hb fun j hj => last (j + 1) (Nat.succ_lt_succ hj)

end Sys2Proof.Machine

/-! SUPPORT. Registers after writes (spec/05 R58 to R62), the dead marks of a HINT (spec/07 R111), and the wave at the end of an issue
that reached another state. -/

namespace Sys2Proof.Machine

open Sys2Proof

/-! ### Dead marks -/

theorem getLsbD_two_pow (n k : Nat) : (BitVec.ofNat 128 (2 ^ n)).getLsbD k = decide (k < 128 ∧ n = k) := by
  rw [BitVec.getLsbD_ofNat, Nat.testBit_two_pow, Bool.decide_and]

theorem deadBit_clearDead (m : BitVec 128) (n k : Nat) : deadBit (clearDead m n) k = (deadBit m k && decide (n ≠ k)) := by
  rw [deadBit, clearDead, BitVec.getLsbD_and, BitVec.getLsbD_not, getLsbD_two_pow]
  by_cases hk : k < 128
  · simp [hk, deadBit]
  · simp [deadBit, BitVec.getLsbD_of_ge m k (not_lt.mp hk)]

theorem deadBit_setDead (m : BitVec 128) (n k : Nat) : deadBit (setDead m n) k = (deadBit m k || decide (k < 128 ∧ n = k)) := by
  rw [deadBit, setDead, BitVec.getLsbD_or, getLsbD_two_pow]
  rfl

theorem deadBit_foldl_setDead (ns : List Nat) (m : BitVec 128) (k : Nat) :
    deadBit (ns.foldl setDead m) k = (deadBit m k || decide (k < 128 ∧ k ∈ ns)) := by
  induction ns generalizing m with
  | nil => simp
  | cons n ns ih =>
    rw [List.foldl_cons, ih, deadBit_setDead, Bool.or_assoc]
    congr 1
    rw [← Bool.decide_or]
    refine decide_eq_decide.mpr ?_
    rw [← and_or_left, List.mem_cons, eq_comm]

/-- Whether a run marks a V register. -/
def RegRun.marksV (r : RegRun) (k : Nat) : Bool :=
  match r with
  | .v n len => decide (k < 128 ∧ k ∈ numsFrom n len)
  | .s _ _ => false

/-- Whether a run marks an S register. -/
def RegRun.marksS (r : RegRun) (k : Nat) : Bool :=
  match r with
  | .v _ _ => false
  | .s n len => decide (k < 128 ∧ k ∈ numsFrom n len)

theorem deadV_foldl_markDead (rs : List RegRun) (w : Wave) (k : Nat) :
    deadBit (rs.foldl Wave.markDead w).deadV k = (deadBit w.deadV k || rs.any (·.marksV k)) := by
  induction rs generalizing w with
  | nil => simp
  | cons r rs ih =>
    rw [List.foldl_cons, ih, List.any_cons, ← Bool.or_assoc]
    congr 1
    cases r with
    | v n len => exact deadBit_foldl_setDead _ _ _
    | s n len => exact (Bool.or_false _).symm

theorem deadS_foldl_markDead (rs : List RegRun) (w : Wave) (k : Nat) :
    deadBit (rs.foldl Wave.markDead w).deadS k = (deadBit w.deadS k || rs.any (·.marksS k)) := by
  induction rs generalizing w with
  | nil => simp
  | cons r rs ih =>
    rw [List.foldl_cons, ih, List.any_cons, ← Bool.or_assoc]
    congr 1
    cases r with
    | v n len => exact (Bool.or_false _).symm
    | s n len => exact deadBit_foldl_setDead _ _ _

/-- The registers that a HINT marks: those of its runs that the instruction does not write. -/
def OpInfo.hinted (i : OpInfo) (e : Word) (ws : List Word) : List RegRun :=
  match prefixOf ws 2 with
  | none => []
  | some p =>
    let runs := (if plBit p 23 then i.deadA else []) ++ (if plBit p 22 then i.deadB else []) ++
      (if plBit p 21 then i.deadC else []) ++ (if plBit p 20 then i.deadT else [])
    let ones := runs.flatMap fun r => match r with
      | .v n len => (numsFrom n len).map fun k => RegRun.v k 1
      | .s n len => (numsFrom n len).map fun k => RegRun.s k 1
    ones.filter fun r => !i.writes e r

theorem hintMarks_eq (w : Wave) (i : OpInfo) (e : Word) (ws : List Word) :
    w.hintMarks i e ws = (i.hinted e ws).foldl Wave.markDead w := by
  unfold Wave.hintMarks OpInfo.hinted
  cases prefixOf ws 2 <;> rfl

/-- A register that is marked is one that the instruction does not write. -/
theorem hinted_single {i : OpInfo} {e : Word} {ws : List Word} {r : RegRun} (h : r ∈ i.hinted e ws) :
    (∃ k, r = .v k 1 ∨ r = .s k 1) ∧ i.writes e r = false := by
  unfold OpInfo.hinted at h
  cases hp : prefixOf ws 2 with
  | none => simp [hp] at h
  | some p =>
    rw [hp] at h
    obtain ⟨hr, hw⟩ := List.mem_filter.mp h
    obtain ⟨r', -, hr'⟩ := List.mem_flatMap.mp hr
    refine ⟨?_, by simpa using hw⟩
    cases r' with
    | v n len =>
      obtain ⟨k, -, rfl⟩ := List.mem_map.mp hr'
      exact ⟨k, .inl rfl⟩
    | s n len =>
      obtain ⟨k, -, rfl⟩ := List.mem_map.mp hr'
      exact ⟨k, .inr rfl⟩

section
variable {u w : Wave} {i : OpInfo} {e : Word} {ws : List Word} {k : Nat}

theorem deadV_hintMarks : deadBit (w.hintMarks i e ws).deadV k = (deadBit w.deadV k || (i.hinted e ws).any (·.marksV k)) := by
  rw [hintMarks_eq, deadV_foldl_markDead]

theorem deadS_hintMarks : deadBit (w.hintMarks i e ws).deadS k = (deadBit w.deadS k || (i.hinted e ws).any (·.marksS k)) := by
  rw [hintMarks_eq, deadS_foldl_markDead]

/-- The mark on a register that the instruction writes is ignored. -/
theorem deadV_hintMarks_written (h : i.writes e (.v k 1) = true) : deadBit (w.hintMarks i e ws).deadV k = deadBit w.deadV k := by
  rw [deadV_hintMarks, List.any_eq_false.mpr, Bool.or_false]
  intro r hr
  obtain ⟨⟨j, rfl | rfl⟩, unwritten⟩ := hinted_single hr
  · simp only [RegRun.marksV, numsFrom, List.mem_singleton, decide_eq_true_eq, not_and]
    rintro - rfl
    rw [h] at unwritten
    cases unwritten
  · exact Bool.false_ne_true

theorem deadS_hintMarks_written (h : i.writes e (.s k 1) = true) : deadBit (w.hintMarks i e ws).deadS k = deadBit w.deadS k := by
  rw [deadS_hintMarks, List.any_eq_false.mpr, Bool.or_false]
  intro r hr
  obtain ⟨⟨j, rfl | rfl⟩, unwritten⟩ := hinted_single hr
  · exact Bool.false_ne_true
  · simp only [RegRun.marksS, numsFrom, List.mem_singleton, decide_eq_true_eq, not_and]
    rintro - rfl
    rw [h] at unwritten
    cases unwritten

/-- The marks fall alike on two waves with the same marks before. -/
theorem deadV_hintMarks_congr (h : u.deadV = w.deadV) : (u.hintMarks i e ws).deadV = (w.hintMarks i e ws).deadV :=
  BitVec.eq_of_getLsbD_eq fun k _ => by
    have same : deadBit (u.hintMarks i e ws).deadV k = deadBit (w.hintMarks i e ws).deadV k := by
      rw [deadV_hintMarks, deadV_hintMarks, h]
    exact same

theorem deadS_hintMarks_congr (h : u.deadS = w.deadS) : (u.hintMarks i e ws).deadS = (w.hintMarks i e ws).deadS :=
  BitVec.eq_of_getLsbD_eq fun k _ => by
    have same : deadBit (u.hintMarks i e ws).deadS k = deadBit (w.hintMarks i e ws).deadS k := by
      rw [deadS_hintMarks, deadS_hintMarks, h]
    exact same

end

/-! ### Writes of registers -/

theorem splat_getD (l : Nat) : (splat (0 : Word)).getD l 0 = 0 := by
  by_cases h : l < 32
  · exact laneTable _ _ l h
  · rw [List.getD_eq_default]
    exact not_lt.mp h

theorem readV_congr {u w : Wave} {k : Nat} (hv : fget u.v k = fget w.v k) (hd : deadBit u.deadV k = deadBit w.deadV k) :
    u.readV k = w.readV k := by
  rw [Wave.readV, Wave.readV, hd, fgetD, fgetD, hv]

theorem readS_congr {u w : Wave} {k : Nat} (hs : fget u.s k = fget w.s k) (hd : deadBit u.deadS k = deadBit w.deadS k) :
    u.readS k = w.readS k := by
  rw [Wave.readS, Wave.readS, hd, fgetD, fgetD, hs]

theorem v_writeV_other (w : Wave) {n k : Nat} (m : Word) (f : Nat → Word) (h : k ≠ n) : fget (w.writeV n m f).v k = fget w.v k := by
  unfold Wave.writeV
  split_ifs
  · rfl
  · exact fget_fset_other _ _ _ _ h

theorem deadV_writeV_same (w : Wave) (n : Nat) {m : Word} (f : Nat → Word) (hm : m ≠ 0) : deadBit (w.writeV n m f).deadV n = false := by
  rw [Wave.writeV, if_neg hm, deadBit_clearDead]
  simp

theorem deadV_writeV_other (w : Wave) {n k : Nat} (m : Word) (f : Nat → Word) (h : k ≠ n) :
    deadBit (w.writeV n m f).deadV k = deadBit w.deadV k := by
  unfold Wave.writeV
  split_ifs
  · rfl
  · rw [deadBit_clearDead]
    simp [Ne.symm h]

theorem readV_writeV_other (w : Wave) {n k : Nat} (m : Word) (f : Nat → Word) (h : k ≠ n) : (w.writeV n m f).readV k = w.readV k :=
  readV_congr (v_writeV_other w m f h) (deadV_writeV_other w m f h)

theorem vlane_writeV_same (w : Wave) (n : Nat) {m : Word} (f : Nat → Word) (hm : m ≠ 0) {l : Nat} (hl : l < 32) :
    (w.writeV n m f).vlane n l = if bitAt m l then f l else w.vlane n l := by
  rw [Wave.vlane, Wave.readV, deadV_writeV_same w n f hm, if_neg Bool.false_ne_true, Wave.writeV, if_neg hm]
  simp only [fgetD, fget_fset_same, Option.getD_some]
  exact laneTable _ _ l hl

theorem readS_writeS_same (w : Wave) (n : Nat) (x : Word) : (w.writeS n x).readS n = if n = 0 then 0 else x := by
  obtain rfl | hn := eq_or_ne n 0
  · rfl
  · have live : deadBit (clearDead w.deadS n) n = false := by
      rw [deadBit_clearDead]
      simp
    simp only [Wave.readS, Wave.writeS, hn, if_false, false_or, live, Bool.false_eq_true, fgetD, fget_fset_same, Option.getD_some]

theorem deadS_writeS_same (w : Wave) (n : Nat) (x : Word) : deadBit (w.writeS n x).deadS n = false := by
  unfold Wave.writeS
  split_ifs with hn
  · subst hn
    rw [deadBit_clearDead]
    simp
  · rw [deadBit_clearDead]
    simp

theorem deadS_writeS_other (w : Wave) {n k : Nat} (x : Word) (h : k ≠ n) : deadBit (w.writeS n x).deadS k = deadBit w.deadS k := by
  unfold Wave.writeS
  split_ifs with hn
  · subst hn
    rw [deadBit_clearDead]
    simp [Ne.symm h]
  · rw [deadBit_clearDead]
    simp [Ne.symm h]

theorem s_writeS_other (w : Wave) {n k : Nat} (x : Word) (h : k ≠ n) : fget (w.writeS n x).s k = fget w.s k := by
  unfold Wave.writeS
  split_ifs
  · rfl
  · exact fget_fset_other _ _ _ _ h

theorem readS_writeS_other (w : Wave) {n k : Nat} (x : Word) (h : k ≠ n) : (w.writeS n x).readS k = w.readS k :=
  readS_congr (s_writeS_other w x h) (deadS_writeS_other w x h)

end Sys2Proof.Machine

/-! SUPPORT. What a memory instruction leaves in its wave: the registers it puts its values in, and the wave at the end of its issue. -/

namespace Sys2Proof.Machine

open Sys2Proof

/-! ### Runs of V registers -/

section
variable (w : Wave) (d k : Nat) (mask : Word) (f : Nat → Nat → Word)

/-- The wave with `k` V registers from `d` written in the lanes of a mask. -/
def Wave.putV : Wave := (List.range k).foldl (fun w i => w.writeV (d + i) mask (f i)) w

theorem putV_succ : w.putV d (k + 1) mask f = (w.putV d k mask f).writeV (d + k) mask (f k) := by
  rw [Wave.putV, List.range_succ, List.foldl_append]
  rfl

theorem putV_frame : ∃ x y, w.putV d k mask f = { w with v := x, deadV := y } := by
  induction k with
  | zero => exact ⟨w.v, w.deadV, rfl⟩
  | succ k ih =>
    obtain ⟨x, y, h⟩ := ih
    rw [putV_succ, h, Wave.writeV]
    split_ifs
    · exact ⟨x, y, rfl⟩
    · exact ⟨_, _, rfl⟩

/-- A register outside the run keeps its value and its mark. -/
theorem putV_other {n : Nat} (h : n < d ∨ d + k ≤ n) : fget (w.putV d k mask f).v n = fget w.v n ∧
    deadBit (w.putV d k mask f).deadV n = deadBit w.deadV n := by
  induction k with
  | zero => exact ⟨rfl, rfl⟩
  | succ k ih =>
    obtain ⟨hv, hd⟩ := ih (by omega)
    have ne : n ≠ d + k := by omega
    rw [putV_succ]
    exact ⟨(v_writeV_other _ mask (f k) ne).trans hv, (deadV_writeV_other _ mask (f k) ne).trans hd⟩

/-- A register of the run holds its values in the lanes of the mask, and is live. -/
theorem putV_same (hm : mask ≠ 0) {j : Nat} (hj : j < k) : deadBit (w.putV d k mask f).deadV (d + j) = false ∧
    ∀ l, l < 32 → (w.putV d k mask f).vlane (d + j) l = if bitAt mask l then f j l else w.vlane (d + j) l := by
  induction k with
  | zero => omega
  | succ k ih =>
    rw [putV_succ]
    obtain rfl | ne := eq_or_ne j k
    · obtain ⟨hv, hd⟩ := putV_other w d j mask f (n := d + j) (.inr le_rfl)
      refine ⟨deadV_writeV_same _ _ _ hm, fun l hl => ?_⟩
      rw [vlane_writeV_same _ _ _ hm hl, Wave.vlane, Wave.vlane, readV_congr hv hd]
    · obtain ⟨dead, lanes⟩ := ih (by omega)
      have other : d + j ≠ d + k := by omega
      refine ⟨(deadV_writeV_other _ _ _ other).trans dead, fun l hl => ?_⟩
      rw [Wave.vlane, readV_writeV_other _ _ _ other]
      exact lanes l hl

end

/-! ### Runs of S registers -/

section
variable (w : Wave) (d k : Nat) (f : Nat → Word)

/-- The wave with `k` S registers from `d` written. -/
def Wave.putS : Wave := (List.range k).foldl (fun w i => w.writeS (d + i) (f i)) w

theorem putS_succ : w.putS d (k + 1) f = (w.putS d k f).writeS (d + k) (f k) := by
  rw [Wave.putS, List.range_succ, List.foldl_append]
  rfl

theorem putS_frame : ∃ x y, w.putS d k f = { w with s := x, deadS := y } := by
  induction k with
  | zero => exact ⟨w.s, w.deadS, rfl⟩
  | succ k ih =>
    obtain ⟨x, y, h⟩ := ih
    rw [putS_succ, h, Wave.writeS]
    split_ifs
    · exact ⟨x, _, rfl⟩
    · exact ⟨_, _, rfl⟩

theorem putS_other {n : Nat} (h : n < d ∨ d + k ≤ n) : fget (w.putS d k f).s n = fget w.s n ∧
    deadBit (w.putS d k f).deadS n = deadBit w.deadS n := by
  induction k with
  | zero => exact ⟨rfl, rfl⟩
  | succ k ih =>
    obtain ⟨hs, hd⟩ := ih (by omega)
    have ne : n ≠ d + k := by omega
    rw [putS_succ]
    exact ⟨(s_writeS_other _ (f k) ne).trans hs, (deadS_writeS_other _ (f k) ne).trans hd⟩

/-- A register of the run holds its value, S0 zero, and is live. -/
theorem putS_same {j : Nat} (hj : j < k) : deadBit (w.putS d k f).deadS (d + j) = false ∧
    (w.putS d k f).readS (d + j) = if d + j = 0 then 0 else f j := by
  induction k with
  | zero => omega
  | succ k ih =>
    rw [putS_succ]
    obtain rfl | ne := eq_or_ne j k
    · exact ⟨deadS_writeS_same _ _ _, readS_writeS_same _ _ _⟩
    · obtain ⟨dead, value⟩ := ih (by omega)
      have other : d + j ≠ d + k := by omega
      exact ⟨(deadS_writeS_other _ _ other).trans dead, (readS_writeS_other _ _ other).trans value⟩

end

/-! ### The values that a memory instruction puts -/

theorem putData_vector (w : Wave) {op : MemOp} (hv : op.isScalar = false) (d k : Nat) (mask : Word) (vals : FMap Nat) :
    putData w op d k mask vals = w.putV d k mask fun i l => BitVec.ofNat 32 (fgetD vals l 0 / 2 ^ (32 * i)) := by
  simp only [putData, hv, Bool.false_eq_true, if_false, numsFrom_zero]
  rfl

theorem putData_scalar (w : Wave) {op : MemOp} (hs : op.isScalar = true) (d k : Nat) (mask : Word) (vals : FMap Nat) :
    putData w op d k mask vals = w.putS d k fun i => BitVec.ofNat 32 (fgetD vals 0 0 / 2 ^ (32 * i)) := by
  simp only [putData, hs, if_true, numsFrom_zero]
  rfl

/-! ### The wave at the end of an issue -/

/-- The wave that a word leaves, with what it became and what the end of its issue makes of that. -/
def Wave.ends (x : Wave) (i : OpInfo) (v : Env) (ready : Nat) : Wave := { closing i v true (fun _ => v.next) x with ready := ready }

/-- The end of an issue whose effect reached a state in which the wave still lives. -/
theorem completedIn_of_alive {s t : State} {wid : Nat} {w x : Wave} {pc : DWord} {iss : Word} {ws : List Word} {i k : OpInfo}
    (h : Stands s wid w pc iss ws) (hx : getWave t wid = some x) (hl : x.lanes = w.lanes) (he : x.endReq = w.endReq) :
    completedIn t i (sees wid w pc iss ws k) =
      afterIssue t x wid (closing i (sees wid w pc iss ws k) true (fun _ => (sees wid w pc iss ws k).next) x) := by
  have ready : retired (modWave t wid (closing i (sees wid w pc iss ws k) true fun _ => (sees wid w pc iss ws k).next)) wid =
      afterIssue t x wid (closing i (sees wid w pc iss ws k) true (fun _ => (sees wid w pc iss ws k).next) x) := by
    rw [modWave_of_get _ hx]
    exact retired_setWave t wid _ x (closing_gang _ _ _ _ _) (closing_priv _ _ _ _ _)
  have alive : ((closing i (sees wid w pc iss ws k) true (fun _ => (sees wid w pc iss ws k).next) x).endReq || laneIdx.all fun l =>
      (closing i (sees wid w pc iss ws k) true (fun _ => (sees wid w pc iss ws k).next) x).lane l == LaneState.exited) = false := by
    have lanes : ∀ l, (closing i (sees wid w pc iss ws k) true (fun _ => (sees wid w pc iss ws k).next) x).lane l = w.lane l := fun l => by
      simp only [Wave.lane, closing_lanes, hl]
    simp only [lanes, closing_endReq, he, h.staying, Bool.false_or]
    exact h.alive
  unfold completedIn settleIssue
  rw [show (sees wid w pc iss ws k).wid = wid from rfl, ready]
  dsimp only
  rw [getWave_afterIssue]
  dsimp only
  rw [if_neg]
  simp only [Wave.lane] at alive ⊢
  rw [alive]
  exact Bool.false_ne_true

section
variable (x w : Wave) (i : OpInfo) (v : Env) (n : Nat)

/-- What the end of an issue leaves as it was. -/
theorem ends_frame : (x.ends i v n).v = x.v ∧ (x.ends i v n).s = x.s ∧ (x.ends i v n).p = x.p ∧ (x.ends i v n).t = x.t ∧
    (x.ends i v n).flags = x.flags ∧ (x.ends i v n).mode = x.mode ∧ (x.ends i v n).log = x.log := by
  simp [Wave.ends, closing]

theorem ends_deadV : (x.ends i v n).deadV = (x.hintMarks i (if i.every then v.iss else v.e) v.pfx).deadV := by
  simp [Wave.ends, closing]

theorem ends_deadS : (x.ends i v n).deadS = (x.hintMarks i (if i.every then v.iss else v.e) v.pfx).deadS := by
  simp [Wave.ends, closing]

end

section
variable {w : Wave} {i : OpInfo} {v : Env} {d k : Nat} (plain : i.every = false) (n : Nat)
include plain

/-- The wave that an instruction leaves that wrote a run of V registers, with its marks upon the others. -/
theorem ends_putV (f : Nat → Nat → Word) (he : v.e ≠ 0) (run : RegRun.v d k ∈ i.ws) :
    let u := (w.putV d k v.e f).ends i v n
    let marked := w.hintMarks i v.e v.pfx
    (∀ j l, j < k → l < 32 → u.vlane (d + j) l = if bitAt v.e l then f j l else w.vlane (d + j) l) ∧
    (∀ m, (m < d ∨ d + k ≤ m) → u.readV m = marked.readV m) ∧ u.s = w.s ∧ u.deadS = marked.deadS ∧ u.p = w.p ∧ u.t = w.t ∧
    u.flags = w.flags ∧ u.mode = w.mode ∧ u.log = w.log := by
  intro u marked
  obtain ⟨vs, dv, frame⟩ := putV_frame w d k v.e f
  obtain ⟨uv, us, up, ut, uflags, umode, ulog⟩ := ends_frame (w.putV d k v.e f) i v n
  have deadV := ends_deadV (w.putV d k v.e f) i v n
  have deadS := ends_deadS (w.putV d k v.e f) i v n
  rw [plain, if_neg Bool.false_ne_true] at deadV deadS
  refine ⟨fun j l hj hl => ?_, fun m out => ?_, by rw [us, frame], ?_, by rw [up, frame], by rw [ut, frame], by rw [uflags, frame],
    by rw [umode, frame], by rw [ulog, frame]⟩
  · have written : i.writes v.e (.v (d + j) 1) = true := by
      refine List.any_eq_true.mpr ⟨_, run, ?_⟩
      have meets : (RegRun.v (d + j) 1).meets (.v d k) = true := by
        rw [RegRun.meets, Bool.and_eq_true, decide_eq_true_eq, decide_eq_true_eq]
        omega
      exact Bool.and_eq_true_iff.mpr ⟨bne_iff_ne.mpr he, meets⟩
    have same : u.readV (d + j) = (w.putV d k v.e f).readV (d + j) :=
      readV_congr (by rw [uv]) (by rw [deadV, deadV_hintMarks_written written])
    rw [Wave.vlane, same]
    exact (putV_same w d k v.e f he hj).2 l hl
  · obtain ⟨hv, hd⟩ := putV_other w d k v.e f out
    refine readV_congr ?_ (by rw [deadV, deadV_hintMarks, deadV_hintMarks, hd])
    rw [uv, hv]
    simp only [marked, hintMarks_v]
  · rw [deadS]
    exact deadS_hintMarks_congr (by rw [frame])

/-- The same of a run of S registers. -/
theorem ends_putS (f : Nat → Word) (run : RegRun.s d k ∈ i.ws) :
    let u := (w.putS d k f).ends i v n
    let marked := w.hintMarks i v.e v.pfx
    (∀ j, j < k → u.readS (d + j) = if d + j = 0 then 0 else f j) ∧
    (∀ m, (m < d ∨ d + k ≤ m) → u.readS m = marked.readS m) ∧ u.v = w.v ∧ u.deadV = marked.deadV ∧ u.p = w.p ∧ u.t = w.t ∧
    u.flags = w.flags ∧ u.mode = w.mode ∧ u.log = w.log := by
  intro u marked
  obtain ⟨ss, ds, frame⟩ := putS_frame w d k f
  obtain ⟨uv, us, up, ut, uflags, umode, ulog⟩ := ends_frame (w.putS d k f) i v n
  have deadV := ends_deadV (w.putS d k f) i v n
  have deadS := ends_deadS (w.putS d k f) i v n
  rw [plain, if_neg Bool.false_ne_true] at deadV deadS
  refine ⟨fun j hj => ?_, fun m out => ?_, by rw [uv, frame], ?_, by rw [up, frame], by rw [ut, frame], by rw [uflags, frame],
    by rw [umode, frame], by rw [ulog, frame]⟩
  · have written : i.writes v.e (.s (d + j) 1) = true := by
      refine List.any_eq_true.mpr ⟨_, run, ?_⟩
      show (RegRun.s (d + j) 1).meets (.s d k) = true
      rw [RegRun.meets, Bool.and_eq_true, decide_eq_true_eq, decide_eq_true_eq]
      omega
    have same : u.readS (d + j) = (w.putS d k f).readS (d + j) :=
      readS_congr (by rw [us]) (by rw [deadS, deadS_hintMarks_written written])
    exact same.trans (putS_same w d k f hj).2
  · obtain ⟨hs, hd⟩ := putS_other w d k f out
    refine readS_congr ?_ (by rw [deadS, deadS_hintMarks, deadS_hintMarks, hd])
    rw [us, hs]
    simp only [marked, hintMarks_s]
  · rw [deadV]
    exact deadV_hintMarks_congr (by rw [frame])

/-- The same of an instruction that wrote no register. -/
theorem ends_self : (w.ends i v n).v = w.v ∧ (w.ends i v n).deadV = (w.hintMarks i v.e v.pfx).deadV ∧ (w.ends i v n).s = w.s ∧
    (w.ends i v n).deadS = (w.hintMarks i v.e v.pfx).deadS ∧ (w.ends i v n).p = w.p ∧ (w.ends i v n).t = w.t ∧
    (w.ends i v n).flags = w.flags ∧ (w.ends i v n).mode = w.mode ∧ (w.ends i v n).log = w.log := by
  obtain ⟨uv, us, up, ut, uflags, umode, ulog⟩ := ends_frame w i v n
  refine ⟨uv, ?_, us, ?_, up, ut, uflags, umode, ulog⟩
  · rw [ends_deadV, plain, if_neg Bool.false_ne_true]
  · rw [ends_deadS, plain, if_neg Bool.false_ne_true]

end

end Sys2Proof.Machine

/-! SUPPORT. The places that lanes reach: where their leaves stand, how many bytes they have, and one place to a lane (spec/15 R269,
spec/11 R195). -/

namespace Sys2Proof.Machine

open Sys2Proof

/-! ### Leaves (spec/15 R269) -/

theorem vaIndex_lt (va level : Nat) : vaIndex va level < 8192 := by
  unfold vaIndex
  split <;> omega

/-- A walk ends at an entry of a table, and tables lie in HBM. -/
theorem walkFrom_entryPlace {s : State} {va fuel level tab a f : Nat} {e : DWord} {big : Bool}
    (ht : level < 2 ∨ tab % 8 = 0) (h : walkFrom s va fuel level tab = .leaf a e f big) : entryPlace a := by
  induction fuel generalizing level tab with
  | zero => cases h
  | succ fuel ih =>
    have idx := vaIndex_lt va level
    unfold walkFrom at h
    by_cases tier : tierOf tab = 0
    · have low : tab < 0xC000000000 := by
        unfold tierOf at tier
        split_ifs at tier with h1
        exact h1
      have place (hl : ¬ level < 2) : entryPlace (tab + 8 * vaIndex va level) := by
        refine ⟨by omega, ?_⟩
        rw [isHostPA, decide_eq_false_iff_not, hostBase]
        omega
      rw [if_neg (not_not.mpr tier)] at h
      dsimp only at h
      split_ifs at h with h1 h2 h3 h4 h5 h6
      · cases h
        exact place (by omega)
      · cases h
        exact place (by omega)
      · exact ih (.inr (by omega)) h
    · rw [if_pos tier] at h
      cases h

theorem lookup_entryPlace {s : State} {root : DWord} {va lane a f : Nat} {e : DWord} (h : lookup s root va lane = some (a, e, f)) :
    entryPlace a := by
  have none' : entryPlace 0 := ⟨rfl, rfl⟩
  unfold lookup at h
  cases hw : walk s root va with
  | leaf b e' f' big =>
    have place : entryPlace b := walkFrom_entryPlace (.inl (by omega)) hw
    rw [hw] at h
    dsimp only at h
    repeat' split at h
    all_goals
      cases h
      exact place
  | _ =>
    rw [hw] at h
    dsimp only at h
    repeat' split at h
    all_goals cases h <;> exact none'

theorem lookup_of_translate {s : State} {root : DWord} {va n : Nat} {k : Acc} {q : Asker} {pa a : Nat} {e : DWord}
    (h : translate s root va n k q = .ok pa a e) : ∃ f, lookup s root va q.lane = some (a, e, f) := by
  unfold translate at h
  obtain ⟨-, h⟩ := xlat_ok_else h nofun
  cases hl : lookup s root va q.lane with
  | none =>
    rw [hl] at h
    dsimp only at h
    split_ifs at h
  | some x =>
    obtain ⟨b, c, f⟩ := x
    rw [hl] at h
    dsimp only at h
    obtain ⟨-, h⟩ := xlat_ok_else h nofun
    obtain ⟨-, h⟩ := xlat_ok_else h nofun
    obtain ⟨-, h⟩ := xlat_ok_else h nofun
    obtain ⟨-, h⟩ := xlat_ok_else h nofun
    obtain ⟨-, h⟩ := xlat_ok_else h nofun
    obtain ⟨-, h⟩ := xlat_ok_else h nofun
    obtain ⟨-, h⟩ := xlat_ok_else h nofun
    obtain ⟨-, h⟩ := xlat_ok_else h nofun
    obtain ⟨-, h⟩ := xlat_ok_else h nofun
    obtain ⟨-, h⟩ := xlat_ok_else h (by split <;> nofun)
    cases h
    exact ⟨f, rfl⟩

/-! ### The places of lanes (spec/11 R195) -/

/-- A place of `n` bytes whose leaves stand where entries may, and whose scratchpads exist. -/
structure SoundPlace (s : State) (n : Nat) (p : Place) : Prop where
  leaves : leavesOk p
  spads : ∀ g q, Loc.spad g q ∈ p.locs → (fget s.gangs g).isSome = true
  length : p.locs.length = n

theorem numsFrom_length (k n : Nat) : (numsFrom k n).length = n := by rw [numsFrom_eq_range', List.length_range']

theorem reachGlobal_sound {s : State} {root : DWord} {va n : Nat} {k : Acc} {q : Asker} {p : Place}
    (h : reachGlobal s root va n k q = .ok p) : SoundPlace s n p := by
  unfold reachGlobal at h
  split at h
  next pa a e ht =>
    split_ifs at h
    cases h
    obtain ⟨f, hl⟩ := lookup_of_translate ht
    refine ⟨fun m hm => ?_, fun g q hq => ?_, ?_⟩
    · rw [List.mem_singleton] at hm
      subst hm
      exact lookup_entryPlace hl
    · obtain ⟨y, _, hq⟩ := List.mem_map.mp hq
      cases hq
    · rw [List.length_map, numsFrom_length]
  all_goals cases h

theorem join_sound {s : State} {a b : Reach} {m n : Nat} {p : Place} (ha : ∀ p, a = .ok p → SoundPlace s m p)
    (hb : ∀ p, b = .ok p → SoundPlace s n p) (h : a.join b = .ok p) : SoundPlace s (m + n) p := by
  cases a with
  | ok x =>
    cases b with
    | ok y =>
      cases h
      obtain ⟨lx, sx, nx⟩ := ha x rfl
      obtain ⟨ly, sy, ny⟩ := hb y rfl
      refine ⟨fun m hm => (List.mem_append.mp hm).elim (lx m) (ly m), fun g q hq => (List.mem_append.mp hq).elim (sx g q) (sy g q), ?_⟩
      rw [List.length_append, nx, ny]
    | _ => cases h
  | _ => cases b <;> cases h

theorem spadTarget_exists {s : State} {gid off n g p : Nat} (h : spadTarget s gid off n = .spad g p) :
    (fget s.gangs g).isSome = true := by
  unfold spadTarget at h
  dsimp only at h
  split at h
  · cases h
  · split at h
    · cases h
    · split at h
      · cases h
      next hg =>
        split_ifs at h
        cases h
        rw [hg]
        rfl

theorem reach_sound {s : State} {root : DWord} {gid gi w lane va n : Nat} {k : Acc} {p : Place} (hn : n ≤ 4 ∨ n % 4 = 0)
    (h : reach s root gid gi w lane va n k = .ok p) : SoundPlace s n p := by
  unfold reach at h
  dsimp only at h
  split at h
  · exact reachGlobal_sound h
  next g o ht =>
    cases h
    refine ⟨fun m hm => absurd hm List.not_mem_nil, fun g' q hq => ?_, ?_⟩
    · obtain ⟨y, _, hq⟩ := List.mem_map.mp hq
      cases hq
      unfold steer at ht
      split_ifs at ht
      exact spadTarget_exists ht
    · rw [List.length_map, numsFrom_length]
  next o ht =>
    split_ifs at h with small
    · exact reachGlobal_sound h
    · have fold (l : List Nat) (r : Reach) (m : Nat) (hr : ∀ p, r = .ok p → SoundPlace s m p) :
          ∀ p, l.foldl (fun r i => r.join (reachGlobal s root (stackVA gi w lane (o + 4 * i)) 4 k ⟨gangDie s gid, lane⟩)) r = .ok p →
            SoundPlace s (m + 4 * l.length) p := by
        induction l generalizing r m with
        | nil => exact hr
        | cons i l ih =>
          rw [List.length_cons, show m + 4 * (l.length + 1) = m + 4 + 4 * l.length by omega]
          exact ih _ _ fun p hp => join_sound hr (fun _ => reachGlobal_sound) hp
      have empty : SoundPlace s 0 ⟨[], []⟩ :=
        ⟨fun m hm => absurd hm List.not_mem_nil, fun g q hq => absurd hq List.not_mem_nil, rfl⟩
      have whole := fold _ _ 0 (fun p hp => by cases hp; exact empty) p h
      rw [numsFrom_length] at whole
      rwa [show 0 + 4 * (n / 4) = n by omega] at whole
  · cases h

section
variable {s : State} {w : Wave} {root : DWord} {e : LogEntry} {op : MemOp} {ps : List (Nat × Place)}

/-- Where every lane is reached, the places are those of the lanes, in their order. -/
theorem reachAll_ok (h : reachAll s w root e op = .ok ps) :
    (ps.map Prod.fst).Sublist (e.lanes op) ∧ ∀ q ∈ ps, laneReach s w root e op q.1 = .ok q.2 := by
  unfold reachAll at h
  dsimp only at h
  split at h
  · cases h
  · split at h
    · cases h
    · split_ifs at h
      cases h
      constructor
      · generalize e.lanes op = ls
        induction ls with
        | nil => exact List.Sublist.refl _
        | cons l ls ih =>
          rw [List.map_cons, List.filterMap_cons]
          cases hl : laneReach s w root e op l with
          | ok q => exact ih.cons_cons l
          | _ => exact ih.cons l
      · intro q hq
        obtain ⟨⟨l, r⟩, hr, hq⟩ := List.mem_filterMap.mp hq
        obtain ⟨l', _, hl⟩ := List.mem_map.mp hr
        cases hl
        dsimp only at hq
        cases hr' : laneReach s w root e op l with
        | ok q' =>
          rw [hr'] at hq
          cases hq
          exact hr'
        | _ =>
          rw [hr'] at hq
          cases hq

theorem reachAll_sound (hn : op.bytes ≤ 4 ∨ op.bytes % 4 = 0) (ha : op.isAppend = false)
    (h : reachAll s w root e op = .ok ps) {q : Nat × Place} (hq : q ∈ ps) : SoundPlace s op.bytes q.2 := by
  have reached := (reachAll_ok h).2 q hq
  unfold laneReach at reached
  simp only [ha, Bool.false_eq_true, if_false] at reached
  exact reach_sound hn reached

end

end Sys2Proof.Machine

/-! SUPPORT. What loads leave (spec/11 R183, R189), and O25. -/

namespace Sys2Proof.Machine

open Sys2Proof

/-! ### Loads -/

theorem Merges.plainLoc {s t : State} (h : Merges s t) {x : Loc} (hx : plainLoc s x) : plainLoc t x := by
  cases x with
  | phys pa => exact h.plain hx
  | spad g p => trivial

/-- A read of a plain place gives its bytes, overflows nothing, and notes its translations. -/
theorem readPlace_plain {s : State} (root : DWord) {p : Place} (h : plainPlace s p) :
    readPlace s root p = (leNat (p.locs.map (locByte s)), useLeaves s root p none, []) := by
  rw [readPlace, prepareList_plain (plainPlace_iff.mp h)]
  rfl

/-- After merges a plain place is plain, with the same bytes. -/
theorem Merges.bytes {s t : State} (h : Merges s t) (hm : s.memoryOk) {p : Place} (hp : plainPlace s p) :
    plainPlace t p ∧ p.locs.map (locByte t) = p.locs.map (locByte s) := by
  rw [plainPlace_iff] at hp
  refine ⟨plainPlace_iff.mpr fun x hx => h.plainLoc (hp x hx), List.map_congr_left fun x hx => ?_⟩
  rw [← locView_plain (h.plainLoc (hp x hx)), ← locView_plain (hp x hx), h.locView hm (hp x hx).device]

/-- One lane of a load. -/
def loadStep (wid : Nat) (root : DWord) (e : LogEntry) (op : MemOp) (acc : State × FMap Nat) (p : Nat × Place) :
    State × FMap Nat :=
  let q := readPlace acc.1 root p.2
  (notePoolOvf q.2.1 wid e op p.1 p.2 q.2.2, fset acc.2 p.1 (loadValue op q.1))

/-- The lanes of a load of plain places: each value comes from the bytes before, whatever was merged on the way. -/
theorem loadStep_foldl {s : State} {wid : Nat} {root : DWord} {e : LogEntry} {op : MemOp} (hm : s.memoryOk) :
    ∀ {ps : List (Nat × Place)}, (ps.map Prod.fst).Nodup → (∀ p ∈ ps, plainPlace s p.2) → ∀ {acc : State × FMap Nat},
    Merges s acc.1 → Merges s (ps.foldl (loadStep wid root e op) acc).1 ∧
    (∀ l, l ∉ ps.map Prod.fst → fget (ps.foldl (loadStep wid root e op) acc).2 l = fget acc.2 l) ∧
    ∀ p ∈ ps, fget (ps.foldl (loadStep wid root e op) acc).2 p.1 = some (loadValue op (leNat (p.2.locs.map (locByte s))))
  | [], _, _, acc, h => ⟨h, fun _ _ => rfl, fun p hp => absurd hp List.not_mem_nil⟩
  | p :: ps, lanes, plain, acc, h => by
    obtain ⟨plain', bytes⟩ := h.bytes hm (plain p List.mem_cons_self)
    have step : loadStep wid root e op acc p =
        (useLeaves acc.1 root p.2 none, fset acc.2 p.1 (loadValue op (leNat (p.2.locs.map (locByte s))))) := by
      rw [loadStep, readPlace_plain root plain', bytes]
      rfl
    rw [List.map_cons, List.nodup_cons] at lanes
    obtain ⟨merges, others, values⟩ := loadStep_foldl (wid := wid) (root := root) (e := e) (op := op) hm lanes.2
      (fun q hq => plain q (List.mem_cons_of_mem p hq)) (acc := loadStep wid root e op acc p)
      (step ▸ h.trans (merges_useLeaves acc.1 root p.2))
    rw [List.foldl_cons]
    refine ⟨merges, fun l hl => ?_, fun q hq => ?_⟩
    · rw [List.map_cons, List.mem_cons, not_or] at hl
      rw [others l hl.2, step, fget_fset_other _ _ _ _ hl.1]
    · rcases List.mem_cons.mp hq with rfl | hq
      · rw [others q.1 lanes.1, step, fget_fset_same]
      · exact values q hq

/-- Two states with the same memory, scratchpads and lines. -/
structure SameMemory (s t : State) : Prop where
  mem : t.mem = s.mem
  pool : t.pool = s.pool
  gangs : t.gangs = s.gangs
  hostL2 : t.hostL2 = s.hostL2
  hostLines : t.hostLines = s.hostLines

theorem SameMemory.trans {s t u : State} (h : SameMemory s t) (g : SameMemory t u) : SameMemory s u :=
  ⟨g.mem.trans h.mem, g.pool.trans h.pool, g.gangs.trans h.gangs, g.hostL2.trans h.hostL2, g.hostLines.trans h.hostLines⟩

theorem SameMemory.locView {s t : State} (h : SameMemory s t) (x : Loc) : locView t x = locView s x := by
  cases x with
  | phys pa => simp only [Machine.locView, viewByte, devByte, hostLineOf, mergedMem, h.mem, h.pool, h.hostL2, h.hostLines]
  | spad g p => simp only [Machine.locView, locByte, h.gangs]

theorem sameMemory_afterIssue (s : State) (w : Wave) (wid : Nat) (u : Wave) : SameMemory s (afterIssue s w wid u) :=
  ⟨rfl, rfl, rfl, rfl, rfl⟩

/-- A load of plain places: its registers take the values, and nothing that a device access sees has changed. -/
theorem performLoad_plain {s : State} {wid : Nat} {w : Wave} (here : getWave s wid = some w) (root : DWord) (e : LogEntry)
    (op : MemOp) (d : Nat) {ps : List (Nat × Place)} (hm : s.memoryOk) (lanes : (ps.map Prod.fst).Nodup)
    (plain : ∀ p ∈ ps, plainPlace s p.2) :
    ∃ r vals, Merges s r ∧ (∀ p ∈ ps, fget vals p.1 = some (loadValue op (leNat (p.2.locs.map (locByte s))))) ∧
      getWave (performLoad s wid root e op d ps) wid = some (putData w op d (max 1 (op.bytes / 4)) e.mask vals) ∧
      SameMemory r (performLoad s wid root e op d ps) := by
  obtain ⟨merges, -, values⟩ := loadStep_foldl (wid := wid) (root := root) (e := e) (op := op) hm lanes plain
    (acc := (s, [])) (Merges.refl s)
  have here' : getWave (ps.foldl (loadStep wid root e op) (s, [])).1 wid = some w := by
    rw [getWave, merges.waves]
    exact here
  have whole : performLoad s wid root e op d ps = countLoads (modWave (ps.foldl (loadStep wid root e op) (s, [])).1 wid fun w =>
      putData w op d (max 1 (op.bytes / 4)) e.mask (ps.foldl (loadStep wid root e op) (s, [])).2) (waveCore s wid)
      (op.isScalar && e.word.toNat / 2 ^ 12 % 8 == 7) ps := rfl
  rw [modWave_of_get _ here'] at whole
  exact ⟨_, _, merges, values, whole ▸ getWave_setWave _ _ _, whole ▸ ⟨rfl, rfl, rfl, rfl, rfl⟩⟩

/-- The state and the wave that a word leaves whose effect reached another state, in which the wave still lives. -/
theorem completedIn_leaves {s t : State} {wid : Nat} {w x : Wave} {pc : DWord} {iss : Word} {ws : List Word} {i k : OpInfo}
    (h : Stands s wid w pc iss ws) (hx : getWave t wid = some x) (hl : x.lanes = w.lanes) (he : x.endReq = w.endReq) :
    ∃ n, getWave (completedIn t i (sees wid w pc iss ws k)) wid = some (x.ends i (sees wid w pc iss ws k) n) ∧
      SameMemory t (completedIn t i (sees wid w pc iss ws k)) := by
  rw [completedIn_of_alive h hx hl he]
  exact ⟨t.time + 5, getWave_afterIssue _, sameMemory_afterIssue _ _ _ _⟩

/-! ### Vector loads (R183) -/

/-- A sign-extended load is narrow. -/
theorem vectorLoad_narrow : ∀ r ∈ vectorMemory, ∀ n, r.2.2.2 = .load n true → n / 4 = 0 := by
  simp [vectorMemory]

/-- A word of the value of a load. -/
theorem loadValue_word {n : Nat} {sx : Bool} {j x : Nat} (hj : sx = true → j = 0) :
    BitVec.ofNat 32 (loadValue (.load n sx) x / 2 ^ (32 * j)) =
      BitVec.ofInt 32 ((if sx then signed (8 * n) x else (x : Int)) / 2 ^ (32 * j)) := by
  cases sx with
  | true =>
    rw [hj rfl, Nat.mul_zero, pow_zero, pow_zero, Nat.div_one, Int.ediv_one, if_pos rfl]
    exact BitVec.ofNat_toNat 32 _
  | false =>
    rw [if_neg Bool.false_ne_true, ← BitVec.ofInt_natCast]
    congr 1

/-- Settles O25: the value of each lane is read from the bytes before, since the merges on the way change none that is read. -/
theorem vectorLoadValues : Obligations.VectorLoadValues := by
  intro r hr n sx hop g vt vo sp s wid w pc iss ws ps i v e bits value marked hm _ h p he hreach plain
  have hv := vectorOp_of_mem r hr
  have lanes : (ps.map Prod.fst).Sublist (lanesOf v.e) := mvEntry_lanes v g vt vo sp hv ▸ (reachAll_ok hreach.2.2).1
  have nodup : (ps.map Prod.fst).Nodup := lanes.nodup ((lanesOf_sorted v.e).imp Nat.ne_of_lt)
  have run : RegRun.v vt.toNat (max 1 (n / 4)) ∈ i.ws := by
    show _ ∈ (mvInfo r.2.1 r.2.2.2 g vt vo sp w ws).ws
    rw [hop]
    exact List.mem_singleton_self _
  have performs := ((vectorMemoryPerforms r hr g vt vo sp s wid w pc iss ws).2 h p).2 ps he hreach
  have loads : performMem s wid (rootOf s w) e r.2.2.2 vt.toNat vo.toNat ps = performLoad s wid (rootOf s w) e r.2.2.2 vt.toNat ps := by
    rw [hop]
    rfl
  rw [loads] at performs
  obtain ⟨m, vals, merges, values, here, same⟩ := performLoad_plain h.here (rootOf s w) e r.2.2.2 vt.toNat hm nodup plain
  have frame := putV_frame w vt.toNat (max 1 (n / 4)) v.e fun i l => BitVec.ofNat 32 (fgetD vals l 0 / 2 ^ (32 * i))
  rw [putData_vector w hv.not_scalar, show r.2.2.2.bytes = n by rw [hop]; rfl, show e.mask = v.e from rfl] at here
  obtain ⟨vs, dv, frame⟩ := frame
  obtain ⟨time, done, same'⟩ := completedIn_leaves (i := i) (k := i) h here (by rw [frame]) (by rw [frame])
  obtain ⟨inside, outside, us, uds, up, ut, uflags, umode, ulog⟩ := ends_putV (w := w) (i := i) (v := v) rfl time
    (fun i l => BitVec.ofNat 32 (fgetD vals l 0 / 2 ^ (32 * i))) he run
  have seen := same.trans same'
  refine ⟨_, _, performs, done, fun q hq j hj => ?_, fun j l hj hl out => ?_, outside, us, uds, up, ut, uflags,
    umode, ulog, seen.gangs.trans merges.gangs,
    seen.hostL2.trans merges.hostL2, seen.hostLines.trans merges.hostLines,
    fun a ha => (seen.locView (.phys a)).trans (merges.view hm a ha),
    fun hp => ⟨seen.mem.trans (merges.quiet hp).1, seen.pool.trans (merges.quiet hp).2⟩⟩
  · obtain ⟨hl, active⟩ := mem_lanesOf.mp (lanes.subset (List.mem_map_of_mem hq))
    rw [inside j q.1 hj hl, if_pos active, fgetD, values q hq, Option.getD_some, hop]
    refine loadValue_word fun hsx => ?_
    subst hsx
    have := vectorLoad_narrow r hr n hop
    omega
  · rw [inside j l hj hl, out, if_neg Bool.false_ne_true]

end Sys2Proof.Machine

/-! SUPPORT. What stores leave (spec/11 R181, R183, R189), and O26. -/

namespace Sys2Proof.Machine

open Sys2Proof

/-! ### The write of one place -/

theorem leBytes_getElem? {k : Nat} : ∀ {n : Nat} (x : Nat), k < n → (leBytes n x)[k]? = some (BitVec.ofNat 8 (x / 256 ^ k)) := by
  induction k with
  | zero =>
    rintro (_ | n) x h
    · cases h
    · simp [leBytes]
  | succ k ih =>
    rintro (_ | n) x h
    · cases h
    · rw [leBytes, List.getElem?_cons_succ, ih (x / 256) (Nat.lt_of_succ_lt_succ h), Nat.div_div_eq_div_mul, pow_succ']

/-- The bytes of a place and the entries it came through. -/
def reachedBy (p : Place) (x : Loc) : Prop := x ∈ p.locs ∨ inLeaves p x

theorem SoundPlace.settable {s : State} {n : Nat} {p : Place} (h : SoundPlace s n p) (hp : plainPlace s p) :
    ∀ x ∈ p.locs, settable s x := fun x hx => ⟨plainPlace_iff.mp hp x hx, fun g q e => h.spads g q (e ▸ hx)⟩

theorem Alters.sound {at' : Loc → Prop} {s t : State} (h : Alters at' s t) {n : Nat} {p : Place} (hp : SoundPlace s n p) :
    SoundPlace t n p := ⟨hp.leaves, fun g q hq => h.gangs g (hp.spads g q hq), hp.length⟩

section
variable {s : State} (root : DWord) (gen : Nat) {n : Nat} {p : Place} (x : Nat) (sound : SoundPlace s n p) (plain : plainPlace s p)
include sound plain

/-- A write of a plain place marks its leaves and puts its bytes. -/
theorem writePlace_plain : writePlace s root gen p x = (setLocs (useLeaves s root p (some gen)) p.locs (leBytes n x), []) := by
  rw [writePlace, prepareList_plain (plainPlace_iff.mp plain), sound.length]

theorem alters_writePlace : Alters (reachedBy p) s (writePlace s root gen p x).1 := by
  have used := alters_useLeaves s root gen sound.leaves
  rw [writePlace_plain root gen x sound plain]
  exact (used.mono fun _ h => .inr h).trans
    ((alters_setLocs fun y hy => used.settable (sound.settable plain y hy)).mono fun _ h => .inl h)

/-- The last of the bytes put at a place stands there. -/
theorem locView_writePlace (hm : s.memoryOk) (hs : s.spadsOk) {k : Nat} {y : Loc} (hk : p.locs[k]? = some y)
    (last : ∀ j, k < j → p.locs[j]? ≠ some y) :
    locView (writePlace s root gen p x).1 y = BitVec.ofNat 8 (x / 256 ^ k) := by
  have used := alters_useLeaves s root gen sound.leaves
  have inside : k < n := sound.length ▸ (List.getElem?_eq_some_iff.mp hk).1
  rw [writePlace_plain root gen x sound plain]
  exact locView_setLocs (used.memoryOk hm) (used.spadsOk hs) (fun y hy => used.settable (sound.settable plain y hy)) hk
    (leBytes_getElem? x inside) last

end

/-! ### Stores, lane after lane -/

/-- One lane of a store. -/
def storeStep (wid : Nat) (root : DWord) (e : LogEntry) (op : MemOp) (val : Nat → Nat) (s : State) (p : Nat × Place) : State :=
  let q := writePlace s root (waveGen s wid) p.2 (val p.1)
  notePoolOvf q.1 wid e op p.1 p.2 q.2

section
variable {wid : Nat} {root : DWord} {e : LogEntry} {op : MemOp} {val : Nat → Nat} {n : Nat}

theorem storeStep_plain {s : State} {p : Nat × Place} (sound : SoundPlace s n p.2) (plain : plainPlace s p.2) :
    storeStep wid root e op val s p = (writePlace s root (waveGen s wid) p.2 (val p.1)).1 := by
  rw [storeStep, writePlace_plain root _ _ sound plain]
  rfl

/-- The lanes of a store of plain places change their bytes and the entries they came through. -/
theorem alters_storeStep {ps : List (Nat × Place)} {s : State} (sound : ∀ q ∈ ps, SoundPlace s n q.2)
    (plain : ∀ q ∈ ps, plainPlace s q.2) :
    Alters (fun x => ∃ q ∈ ps, reachedBy q.2 x) s (ps.foldl (storeStep wid root e op val) s) := by
  induction ps generalizing s with
  | nil => exact Alters.refl _ s
  | cons p ps ih =>
    have first := alters_writePlace root (waveGen s wid) (val p.1) (sound p List.mem_cons_self) (plain p List.mem_cons_self)
    rw [List.foldl_cons, storeStep_plain (sound p List.mem_cons_self) (plain p List.mem_cons_self)]
    exact (first.mono fun x hx => ⟨p, List.mem_cons_self, hx⟩).trans
      ((ih (fun q hq => first.sound (sound q (List.mem_cons_of_mem p hq)))
        fun q hq => first.plainPlace (plain q (List.mem_cons_of_mem p hq))).mono
        fun x ⟨q, hq, hx⟩ => ⟨q, List.mem_cons_of_mem p hq, hx⟩)

/-- A byte keeps what the highest lane that writes it has put there. -/
theorem locView_storeStep {ps : List (Nat × Place)} {s : State} (hm : s.memoryOk) (hs : s.spadsOk)
    (sound : ∀ q ∈ ps, SoundPlace s n q.2) (plain : ∀ q ∈ ps, plainPlace s q.2) (sorted : (ps.map Prod.fst).Pairwise (· < ·))
    {l k : Nat} {p : Place} {x : Loc} (mem : (l, p) ∈ ps) (hk : p.locs[k]? = some x)
    (highest : ∀ q ∈ ps, l < q.1 → x ∉ q.2.locs) (last : ∀ j, k < j → p.locs[j]? ≠ some x)
    (clear : ∀ q ∈ ps, ¬ inLeaves q.2 x) :
    locView (ps.foldl (storeStep wid root e op val) s) x = BitVec.ofNat 8 (val l / 256 ^ k) := by
  induction ps generalizing s with
  | nil => exact absurd mem List.not_mem_nil
  | cons q ps ih =>
    have first := alters_writePlace root (waveGen s wid) (val q.1) (sound q List.mem_cons_self) (plain q List.mem_cons_self)
    have sound' (r : Nat × Place) (hr : r ∈ ps) := first.sound (sound r (List.mem_cons_of_mem q hr))
    have plain' (r : Nat × Place) (hr : r ∈ ps) := first.plainPlace (plain r (List.mem_cons_of_mem q hr))
    rw [List.map_cons, List.pairwise_cons] at sorted
    rw [List.foldl_cons, storeStep_plain (sound q List.mem_cons_self) (plain q List.mem_cons_self)]
    rcases List.mem_cons.mp mem with rfl | later
    · have inside : settable s x := (sound _ List.mem_cons_self).settable (plain _ List.mem_cons_self) x (List.mem_of_getElem? hk)
      have untouched : ¬ ∃ r ∈ ps, reachedBy r.2 x := by
        rintro ⟨r, hr, hx | hx⟩
        · exact highest r (List.mem_cons_of_mem _ hr) (sorted.1 r.1 (List.mem_map_of_mem hr)) hx
        · exact clear r (List.mem_cons_of_mem _ hr) hx
      rw [(alters_storeStep sound' plain').view (first.memoryOk hm) (first.spadsOk hs) x (first.device inside.1.device) untouched]
      exact locView_writePlace root _ _ (sound _ List.mem_cons_self) (plain _ List.mem_cons_self) hm hs hk last
    · exact ih (first.memoryOk hm) (first.spadsOk hs) sound' plain' sorted.2 later
        (fun r hr => highest r (List.mem_cons_of_mem q hr)) fun r hr => clear r (List.mem_cons_of_mem q hr)

end

/-! ### The data of a store (spec/00 R4) -/

/-- A word of a number whose words are given, lowest first. -/
theorem words_div (f : Nat → Word) : ∀ {k j : Nat} (a : Nat), j < k →
    (numsFrom a k).foldr (fun i x => (f i).toNat + 2 ^ 32 * x) 0 / 2 ^ (32 * j) % 2 ^ 32 = (f (a + j)).toNat
  | 0, _, _, h => by omega
  | k + 1, 0, a, _ => by
    rw [numsFrom, List.foldr_cons, Nat.mul_zero, pow_zero, Nat.div_one, Nat.add_mul_mod_self_left, Nat.mod_eq_of_lt (f a).isLt]
    rfl
  | k + 1, j + 1, a, h => by
    rw [numsFrom, List.foldr_cons, Nat.mul_succ, Nat.add_comm (32 * j), pow_add, ← Nat.div_div_eq_div_mul,
      Nat.add_mul_div_left _ _ (Nat.two_pow_pos 32), Nat.div_eq_of_lt (f a).isLt, Nat.zero_add,
      words_div f (a + 1) (Nat.lt_of_succ_lt_succ h), Nat.add_right_comm, Nat.add_assoc]

/-- A byte of a number is a byte of its word. -/
theorem byte_of_word {x k : Nat} {y : Word} (h : x / 2 ^ (32 * (k / 4)) % 2 ^ 32 = y.toNat) :
    BitVec.ofNat 8 (x / 256 ^ k) = y.extractLsb' (8 * (k % 4)) 8 := by
  have split : 256 ^ k = 2 ^ (32 * (k / 4)) * 2 ^ (8 * (k % 4)) := by
    rw [show (256 : Nat) = 2 ^ 8 from rfl, ← pow_mul, ← pow_add]
    congr 1
    omega
  apply BitVec.eq_of_toNat_eq
  rw [BitVec.toNat_ofNat, BitVec.extractLsb'_toNat, ← h, Nat.shiftRight_eq_div_pow, split, ← Nat.div_div_eq_div_mul]
  generalize x / 2 ^ (32 * (k / 4)) = z
  have cases' : k % 4 = 0 ∨ k % 4 = 1 ∨ k % 4 = 2 ∨ k % 4 = 3 := by omega
  rcases cases' with h | h | h | h <;> rw [h] <;> omega

/-- A byte of the data of a vector store. -/
theorem dataOf_byte (w : Wave) {n d k : Nat} (l : Nat) (hn : n ∈ [1, 2, 4, 8, 16]) (hk : k < n) :
    BitVec.ofNat 8 (dataOf w (.store n) d ((n + 3) / 4) l / 256 ^ k) =
      if n = 8 then (w.vlane64 d l).extractLsb' (8 * k) 8 else (w.vlane (d + k / 4) l).extractLsb' (8 * (k % 4)) 8 := by
  obtain rfl | ne := eq_or_ne n 8
  · have pair : dataOf w (.store 8) d ((8 + 3) / 4) l = (w.vlane64 d l).toNat := by
      simp [dataOf, MemOp.byPairs, MemOp.isScalar, numsFrom]
    rw [if_pos rfl, pair]
    apply BitVec.eq_of_toNat_eq
    rw [BitVec.toNat_ofNat, BitVec.extractLsb'_toNat, Nat.shiftRight_eq_div_pow, show (256 : Nat) = 2 ^ 8 from rfl, ← pow_mul]
  · have words : dataOf w (.store n) d ((n + 3) / 4) l =
        (numsFrom 0 ((n + 3) / 4)).foldr (fun i x => (w.vlane (d + i) l).toNat + 2 ^ 32 * x) 0 := by
      have single : (MemOp.store n).byPairs = false := beq_eq_false_iff_ne.mpr ne
      rw [dataOf, single, if_neg Bool.false_ne_true]
      rfl
    rw [if_neg ne, words]
    refine byte_of_word ?_
    rw [words_div (fun i => w.vlane (d + i) l) 0 (by omega), Nat.zero_add]

/-! ### Vector stores (R181, R183) -/

theorem vectorStore_sizes : ∀ r ∈ vectorMemory, ∀ n, r.2.2.2 = .store n → n ∈ [1, 2, 4, 8, 16] := by
  simp [vectorMemory]

/-- An address clear of the leaves lies in no entry. -/
theorem not_inLeaves_of_clear {ps : List (Nat × Place)} {x : Loc} (h : clearOf ps x) : ∀ q ∈ ps, ¬ inLeaves q.2 x := by
  rintro q hq ⟨m, hm, hx⟩
  cases x with
  | spad g p => exact hx
  | phys a =>
    have out : a < m.1 ∨ m.1 + 8 ≤ a := h q hq m hm
    have within : m.1 ≤ a ∧ a < m.1 + 8 := hx
    omega

theorem empty_of_fget_none {α : Type} {m : FMap α} (h : ∀ k, fget m k = none) : m = [] := by
  cases m with
  | nil => rfl
  | cons p t =>
    have := h p.1
    rw [fget, if_pos rfl] at this
    cases this

/-- A store of plain places, as its lanes one after another. -/
theorem performStore_eq {s : State} {wid : Nat} {w : Wave} (here : getWave s wid = some w) (root : DWord) (e : LogEntry)
    (op : MemOp) (d : Nat) (ps : List (Nat × Place)) :
    performStore s wid root e op d ps = countStores (ps.foldl (storeStep wid root e op fun l => dataOf w op d (e.words op l) l) s)
      (waveCore s wid) ps := by
  rw [performStore, here]
  rfl

/-- Settles O26: each lane puts its bytes and marks its leaves, and the lanes go upwards. -/
theorem vectorStoreBytes : Obligations.VectorStoreBytes := by
  intro r hr n hop g vt vo sp s wid w pc iss ws ps i v e marked hm hs h p he hreach plain
  have hv := vectorOp_of_mem r hr
  have sizes := vectorStore_sizes r hr n hop
  have lanes : (ps.map Prod.fst).Sublist (lanesOf v.e) := mvEntry_lanes v g vt vo sp hv ▸ (reachAll_ok hreach.2.2).1
  have sorted : (ps.map Prod.fst).Pairwise (· < ·) := (lanesOf_sorted v.e).sublist lanes
  have bytes : r.2.2.2.bytes = n := by rw [hop]; rfl
  have whole : r.2.2.2.bytes ≤ 4 ∨ r.2.2.2.bytes % 4 = 0 := by
    rw [bytes]
    simp only [List.mem_cons, List.not_mem_nil, or_false] at sizes
    omega
  have sound (q : Nat × Place) (hq : q ∈ ps) : SoundPlace s n q.2 :=
    bytes ▸ reachAll_sound whole (by rw [hop]; rfl) hreach.2.2 hq
  have performs := ((vectorMemoryPerforms r hr g vt vo sp s wid w pc iss ws).2 h p).2 ps he hreach
  have stores : performMem s wid (rootOf s w) e r.2.2.2 vt.toNat vo.toNat ps = performStore s wid (rootOf s w) e r.2.2.2 vt.toNat ps := by
    rw [hop]
    rfl
  rw [stores, performStore_eq h.here] at performs
  have alters := alters_storeStep (wid := wid) (root := rootOf s w) (e := e) (op := r.2.2.2)
    (val := fun l => dataOf w r.2.2.2 vt.toNat (e.words r.2.2.2 l) l) sound plain
  have value := @locView_storeStep wid (rootOf s w) e r.2.2.2 (fun l => dataOf w r.2.2.2 vt.toNat (e.words r.2.2.2 l) l) n ps s
    hm hs sound plain sorted
  generalize ps.foldl (storeStep wid (rootOf s w) e r.2.2.2 fun l => dataOf w r.2.2.2 vt.toNat (e.words r.2.2.2 l) l) s = t
    at performs alters value
  have here : getWave (countStores t (waveCore s wid) ps) wid = some w := (congrArg (fget · wid) alters.waves).trans h.here
  obtain ⟨time, done, same⟩ := completedIn_leaves (i := i) (k := i) h here rfl rfl
  have seen (x : Loc) : locView (completedIn (countStores t (waveCore s wid) ps) i v) x = locView t x :=
    (same.locView x).trans (SameMemory.locView ⟨rfl, rfl, rfl, rfl, rfl⟩ x)
  obtain ⟨uv, udv, us, uds, up, ut, uflags, umode, ulog⟩ := ends_self (w := w) (i := i) (v := v) rfl time
  refine ⟨_, _, performs, done, fun l q k x mem hk highest last clear => ?_, fun x out clear dev => ?_, uv, udv, us, uds, up, ut, uflags,
    umode, ulog, fun hp => ?_⟩
  · have inside : k < n := (sound _ mem).length ▸ (List.getElem?_eq_some_iff.mp hk).1
    have size : e.words r.2.2.2 l = (n + 3) / 4 := by rw [hop]; rfl
    rw [seen x, value mem hk highest last (not_inLeaves_of_clear clear), size, hop]
    exact dataOf_byte w l sizes inside
  · refine (seen x).trans (alters.view hm hs x dev ?_)
    rintro ⟨q, hq, hx | hx⟩
    · exact out q hq hx
    · exact not_inLeaves_of_clear clear q hq hx
  · rw [same.pool]
    exact empty_of_fget_none fun k => alters.pool k (by rw [hp]; rfl)

end Sys2Proof.Machine

/-! SUPPORT. What scalar memory instructions leave (spec/11 R185, R189, R190), and O28. -/

namespace Sys2Proof.Machine

open Sys2Proof

/-! ### Numbers and their bytes (spec/00 R4) -/

theorem leNat_lt (bs : List (BitVec 8)) : leNat bs < 256 ^ bs.length := by
  induction bs with
  | nil => exact Nat.one_pos
  | cons b bs ih =>
    have := b.isLt
    rw [leNat, List.length_cons, pow_succ]
    omega

/-- The bytes that a write leaves at a place that names no byte twice read as the number written. -/
theorem leNat_of_bytes {ls : List Loc} {m : Loc → BitVec 8} {x n : Nat} (hn : ls.length = n)
    (h : ∀ k y, ls[k]? = some y → m y = BitVec.ofNat 8 (x / 256 ^ k)) : leNat (ls.map m) = x % 256 ^ n := by
  have same : ls.map m = leBytes n x := by
    refine List.ext_getElem? fun k => ?_
    rw [List.getElem?_map]
    cases hk : ls[k]? with
    | none =>
      rw [List.getElem?_eq_none_iff, hn] at hk
      exact (List.getElem?_eq_none (by rwa [length_leBytes])).symm
    | some y =>
      have inside : k < n := hn ▸ (List.getElem?_eq_some_iff.mp hk).1
      rw [leBytes_getElem? x inside, Option.map_some, h k y hk]
  rw [same, leNat_leBytes]

theorem last_of_nodup {ls : List Loc} (nodup : ls.Nodup) {k : Nat} {x : Loc} (hk : ls[k]? = some x) :
    ∀ j, k < j → ls[j]? ≠ some x := fun j hj h => by
  have := (List.nodup_iff_getElem?_ne_getElem?.mp nodup) k j hj (List.getElem?_eq_some_iff.mp h).1
  exact this (hk.trans h.symm)

/-! ### What a scalar access leaves -/

/-- What a scalar memory instruction leaves: `written` registers from `d` with the words of `value`, the bytes of `stored` at its
place, and all else as it was but for dead marks and dirty fields. -/
def leavesScalar (s t : State) (w u marked : Wave) (p : Place) (d written value n : Nat) (stored : Option DWord) : Prop :=
  (∀ k, k < written → u.readS (d + k) = if d + k = 0 then 0 else BitVec.ofNat 32 (value / 2 ^ (32 * k))) ∧
  (∀ k, (k < d ∨ d + written ≤ k) → u.readS k = marked.readS k) ∧
  u.v = w.v ∧ u.deadV = marked.deadV ∧ u.p = w.p ∧ u.t = w.t ∧ u.flags = w.flags ∧ u.mode = w.mode ∧
  (∀ x, stored = some x → leNat (p.locs.map (locView t)) = x.toNat % 2 ^ (8 * n)) ∧
  (∀ x, (stored ≠ none → x ∉ p.locs) → clearOf [(0, p)] x → deviceLoc s x → locView t x = locView s x) ∧
  (stored = none → s.pool = [] → t.mem = s.mem ∧ t.gangs = s.gangs)

/-- A write of a single place: its bytes are those of the number, and every other byte stays. -/
theorem writePlace_leaves {s : State} {n : Nat} {p : Place} (root : DWord) (hm : s.memoryOk) (hs : s.spadsOk)
    (plain : plainPlace s p) (sound : SoundPlace s n p) (nodup : p.locs.Nodup) (gen x : Nat) :
    leNat (p.locs.map (locView (writePlace s root gen p x).1)) = x % 2 ^ (8 * n) ∧
    ∀ y, y ∉ p.locs → clearOf [(0, p)] y → deviceLoc s y → locView (writePlace s root gen p x).1 y = locView s y := by
  refine ⟨?_, fun y out clear dev => (alters_writePlace root gen x sound plain).view hm hs y dev ?_⟩
  · rw [pow_mul]
    exact leNat_of_bytes sound.length fun k y hk =>
      locView_writePlace root gen x sound plain hm hs hk (last_of_nodup nodup hk)
  · rintro (hy | hy)
    · exact out hy
    · exact not_inLeaves_of_clear clear (0, p) (List.mem_singleton_self _) hy

/-- An atomic of one lane on a plain place, which raises no flag: the old value in its registers, the new one at its place. -/
theorem performAtomic_one {s : State} {wid : Nat} {w : Wave} (here : getWave s wid = some w) (root : DWord) {e : LogEntry} {p : Place}
    {d n old new : Nat} {a : AtomOp} (hm : s.memoryOk) (hs : s.spadsOk) (plain : plainPlace s p) (sound : SoundPlace s n p)
    (nodup : p.locs.Nodup) (hold : leNat (p.locs.map (locByte s)) = old)
    (ha : a.apply e 0 old (dataOf w (.satom a) d a.regs 0) = (new, 0)) :
    ∃ t, performAtomic s wid root e (.satom a) a d [(0, p)] = countStores
        (setWave t wid (w.putS d (a.bytes / 4) fun i => BitVec.ofNat 32 (old / 2 ^ (32 * i)))) (waveCore s wid) [(0, p)] ∧
      leNat (p.locs.map (locView t)) = new % 2 ^ (8 * n) ∧
      ∀ y, y ∉ p.locs → clearOf [(0, p)] y → deviceLoc s y → locView t y = locView s y := by
  have read := merges_useLeaves s root p
  have keeps : Alters (fun _ => False) s (useLeaves s root p none) := read.alters
  have plain' := keeps.plainPlace plain
  have sound' := keeps.sound sound
  obtain ⟨gen, hgen⟩ : ∃ gen, gen = waveGen (useLeaves s root p none) wid := ⟨_, rfl⟩
  have whole : performAtomic s wid root e (.satom a) a d [(0, p)] = countStores
      (modWave (writePlace (useLeaves s root p none) root gen p new).1 wid fun u =>
        (putData u (.satom a) d (a.bytes / 4) e.mask [(0, old)]).orFlags (0 ||| 0)) (waveCore s wid) [(0, p)] := by
    rw [performAtomic, here, hgen]
    simp only [List.foldl_cons, List.foldl_nil, readPlace_plain root plain, hold, ha]
    rfl
  have alters := alters_writePlace root gen new sound' plain'
  obtain ⟨bytes, others⟩ := writePlace_leaves root (keeps.memoryOk hm) (keeps.spadsOk hs) plain' sound' nodup gen new
  have here' : getWave (writePlace (useLeaves s root p none) root gen p new).1 wid = some w :=
    (congrArg (fget · wid) (alters.waves.trans keeps.waves)).trans here
  refine ⟨_, ?_, bytes, fun y out clear dev => (others y out clear (keeps.device dev)).trans (keeps.view hm hs y dev id)⟩
  rw [whole, modWave_of_get _ here', putData_scalar w rfl, show (0 ||| 0 : Word) = 0 from rfl, Wave.orFlags_zero]
  rfl

section
variable {s : State} {wid : Nat} {w : Wave} {pc : DWord} {iss : Word} {ws : List Word} {e : LogEntry} {p : Place} {d : Nat}
  {i : OpInfo} (h : Stands s wid w pc iss ws) (root : DWord) (hm : s.memoryOk) (hs : s.spadsOk) (plain : plainPlace s p)
  (every : i.every = false)
include h hm plain every

theorem load_leaves {n : Nat} (run : RegRun.s d (max 1 (n / 4)) ∈ i.ws) :
    ∃ t u, completedIn (performMem s wid root e (.sload n) d 0 [(0, p)]) i (sees wid w pc iss ws i) = t ∧ getWave t wid = some u ∧
      leavesScalar s t w u (w.hintMarks i (sees wid w pc iss ws i).e ws) p d (max 1 (n / 4)) (leNat (p.locs.map (locByte s))) n
        none := by
  obtain ⟨m, vals, merges, values, here, same⟩ := performLoad_plain h.here root e (.sload n) d (ps := [(0, p)]) hm
    (List.nodup_singleton 0) fun q hq => by rw [List.mem_singleton.mp hq]; exact plain
  have value : fgetD vals 0 0 = leNat (p.locs.map (locByte s)) := by
    rw [fgetD, values (0, p) (List.mem_singleton_self _)]
    rfl
  rw [putData_scalar w rfl, value, show (MemOp.sload n).bytes = n from rfl] at here
  obtain ⟨ss, ds, frame⟩ := putS_frame w d (max 1 (n / 4)) fun i => BitVec.ofNat 32 (leNat (p.locs.map (locByte s)) / 2 ^ (32 * i))
  obtain ⟨time, done, same'⟩ := completedIn_leaves (i := i) (k := i) h here (by rw [frame]) (by rw [frame])
  obtain ⟨inside, outside, uv, udv, up, ut, uflags, umode, -⟩ := ends_putS (w := w) (v := sees wid w pc iss ws i) every time
    (fun i => BitVec.ofNat 32 (leNat (p.locs.map (locByte s)) / 2 ^ (32 * i))) run
  have seen := same.trans same'
  exact ⟨_, _, rfl, done, inside, outside, uv, udv, up, ut, uflags, umode, nofun,
    fun x _ _ hx => (seen.locView x).trans (merges.locView hm hx),
    fun _ hp => ⟨seen.mem.trans (merges.quiet hp).1, seen.gangs.trans merges.gangs⟩⟩

variable {n : Nat} (sound : SoundPlace s n p) (nodup : p.locs.Nodup)
include hs sound nodup

theorem store_leaves {op : MemOp} (hop : op = .sstore n) (x : DWord)
    (hx : dataOf w op d (e.words op 0) 0 % 2 ^ (8 * n) = x.toNat % 2 ^ (8 * n)) :
    ∃ t u, completedIn (performMem s wid root e op d 0 [(0, p)]) i (sees wid w pc iss ws i) = t ∧ getWave t wid = some u ∧
      leavesScalar s t w u (w.hintMarks i (sees wid w pc iss ws i).e ws) p d 0 0 n (some x) := by
  have alters := alters_writePlace root (waveGen s wid) (dataOf w op d (e.words op 0) 0) sound plain
  obtain ⟨bytes, others⟩ := writePlace_leaves root hm hs plain sound nodup (waveGen s wid)
    (dataOf w op d (e.words op 0) 0)
  have stores : performMem s wid root e op d 0 [(0, p)] = countStores
      (writePlace s root (waveGen s wid) p (dataOf w op d (e.words op 0) 0)).1 (waveCore s wid) [(0, p)] := by
    have one : performMem s wid root e op d 0 [(0, p)] = performStore s wid root e op d [(0, p)] := by
      rw [hop]
      rfl
    rw [one, performStore_eq h.here, List.foldl_cons, List.foldl_nil, storeStep_plain sound plain]
  rw [stores]
  generalize (writePlace s root (waveGen s wid) p (dataOf w op d (e.words op 0) 0)).1 = t at alters bytes others
  have here : getWave (countStores t (waveCore s wid) [(0, p)]) wid = some w := (congrArg (fget · wid) alters.waves).trans h.here
  obtain ⟨time, done, same⟩ := completedIn_leaves (i := i) (k := i) h here rfl rfl
  have seen (y : Loc) : locView (completedIn (countStores t (waveCore s wid) [(0, p)]) i (sees wid w pc iss ws i)) y = locView t y :=
    (same.locView y).trans (SameMemory.locView ⟨rfl, rfl, rfl, rfl, rfl⟩ y)
  obtain ⟨uv, udv, us, uds, up, ut, uflags, umode, -⟩ := ends_self (w := w) (v := sees wid w pc iss ws i) every time
  refine ⟨_, _, rfl, done, fun k hk => absurd hk (Nat.not_lt_zero k), fun k _ => readS_congr ?_ (by rw [uds]; rfl), uv, udv, up, ut,
    uflags, umode, ?_, fun y out clear dev => (seen y).trans (others y (out (by simp)) clear dev), nofun⟩
  · rw [us, hintMarks_s]
  · rintro y ⟨⟩
    rw [funext seen, bytes, hx]

theorem atomic_leaves {a : AtomOp} {old new : Nat} (hold : leNat (p.locs.map (locByte s)) = old)
    (ha : a.apply e 0 old (dataOf w (.satom a) d a.regs 0) = (new, 0)) (run : RegRun.s d (a.bytes / 4) ∈ i.ws) (x : DWord)
    (hx : new % 2 ^ (8 * n) = x.toNat % 2 ^ (8 * n)) :
    ∃ t u, completedIn (performMem s wid root e (.satom a) d 0 [(0, p)]) i (sees wid w pc iss ws i) = t ∧ getWave t wid = some u ∧
      leavesScalar s t w u (w.hintMarks i (sees wid w pc iss ws i).e ws) p d (a.bytes / 4) old n (some x) := by
  obtain ⟨t, performs, bytes, others⟩ := performAtomic_one h.here root hm hs plain sound nodup hold ha
  obtain ⟨ss, ds, frame⟩ := putS_frame w d (a.bytes / 4) fun i => BitVec.ofNat 32 (old / 2 ^ (32 * i))
  have here : getWave (performMem s wid root e (.satom a) d 0 [(0, p)]) wid =
      some (w.putS d (a.bytes / 4) fun i => BitVec.ofNat 32 (old / 2 ^ (32 * i))) :=
    (congrArg (getWave · wid) performs).trans (getWave_setWave _ _ _)
  have same : SameMemory t (performMem s wid root e (.satom a) d 0 [(0, p)]) := by
    have counted : performMem s wid root e (.satom a) d 0 [(0, p)] = _ := performs
    rw [counted]
    exact ⟨rfl, rfl, rfl, rfl, rfl⟩
  obtain ⟨time, done, same'⟩ := completedIn_leaves (i := i) (k := i) h here (by rw [frame]) (by rw [frame])
  obtain ⟨inside, outside, uv, udv, up, ut, uflags, umode, -⟩ := ends_putS (w := w) (v := sees wid w pc iss ws i) every time
    (fun i => BitVec.ofNat 32 (old / 2 ^ (32 * i))) run
  have seen := (same.trans same').locView
  refine ⟨_, _, rfl, done, inside, outside, uv, udv, up, ut, uflags, umode, ?_,
    fun y out clear dev => (seen y).trans (others y (out (by simp)) clear dev), nofun⟩
  rintro y ⟨⟩
  rw [funext seen, bytes, hx]

end

/-! ### The data of the scalar words -/

theorem dataOf_sstore4 (w : Wave) (d : Nat) : dataOf w (.sstore 4) d 1 0 = (w.readS d).toNat := by
  simp [dataOf, MemOp.byPairs, MemOp.isScalar, numsFrom]

theorem dataOf_sstore8 (w : Wave) (d : Nat) : dataOf w (.sstore 8) d 2 0 = (w.readS64 d).toNat := by
  simp [dataOf, MemOp.byPairs, MemOp.isScalar, numsFrom]

theorem dataOf_add (w : Wave) (d : Nat) : dataOf w (.satom (.add 8)) d 2 0 = (w.readS64 d).toNat := by
  simp [dataOf, MemOp.byPairs, MemOp.isScalar, numsFrom, AtomOp.bytes]

theorem dataOf_cas (w : Wave) (d : Nat) :
    dataOf w (.satom (.cas 8)) d 4 0 = (w.readS64 d).toNat + 2 ^ 64 * (w.readS64 (d + 2)).toNat := by
  simp [dataOf, MemOp.byPairs, MemOp.isScalar, numsFrom, AtomOp.bytes]

/-- A compare that succeeds takes the second operand, one that fails the old value. -/
theorem apply_cas (e : LogEntry) {old : Nat} (hold : old < 2 ^ 64) (x y : DWord) :
    (AtomOp.cas 8).apply e 0 old (x.toNat + 2 ^ 64 * y.toNat) =
      ((if BitVec.ofNat 64 old = x then y else BitVec.ofNat 64 old).toNat, 0) := by
  have low : (x.toNat + 2 ^ 64 * y.toNat) % 2 ^ (8 * 8) = x.toNat := by
    have := x.isLt
    omega
  have high : (x.toNat + 2 ^ 64 * y.toNat) / 2 ^ (8 * 8) = y.toNat := by
    have := x.isLt
    omega
  have same : old = x.toNat ↔ BitVec.ofNat 64 old = x := by
    rw [← BitVec.toNat_inj, BitVec.toNat_ofNat, Nat.mod_eq_of_lt hold]
  simp only [AtomOp.apply, low, high, same]
  split_ifs
  · rfl
  · rw [BitVec.toNat_ofNat, Nat.mod_eq_of_lt hold]

/-- Settles O28: each scalar instruction is one shared meaning, and leaves what a load, a store or an atomic of one place leaves. -/
theorem scalarMemoryResults : Obligations.ScalarMemoryResults := by
  have performs : ∀ r ∈ scalarMemory, ∀ (d : BitVec 7) (sp : BitVec 5) (off : BitVec 12) s wid w pc iss ws ps,
      let i := msInfo r.2.2 d sp w ws
      let v := sees wid w pc iss ws i
      let e := v.msEntry r.2.1 r.2.2 d sp off
      Stands s wid w pc iss ws → Passes w i ws → reaches s v e r.2.2 d.toNat ps →
      exec (r.1 d sp off) s = .next (completedIn (performMem s wid (rootOf s w) e r.2.2 d.toNat 0 ps) i v) := by
    intro r hr d sp off s wid w pc iss ws ps i v e h p reached
    rw [exec_scalarMemory r hr]
    exact congrArg _ (issue_performs (entry := fun v => v.msEntry r.2.1 r.2.2 d sp off) h p (.inl (scalarOp_of_mem r hr).scalar) reached)
  refine ⟨performs, ?prefetch, ?leaves⟩
  case prefetch =>
    intro sp off i s wid w pc iss ws h p
    exact congrArg _ (issue_goes_on h p rfl)
  case leaves =>
    intro d sp off s wid w pc iss ws p old pair at'
    have sound {op : MemOp} {v : Env} {e : LogEntry} (hn : op.bytes ≤ 4 ∨ op.bytes % 4 = 0) (ha : op.isAppend = false)
        (reached : reaches s v e op d.toNat [(0, p)]) : SoundPlace s op.bytes p :=
      reachAll_sound hn ha reached.2.2 (List.mem_singleton_self _)
    have load (i : BitVec 7 → BitVec 5 → BitVec 12 → Instr) (f n written : Nat) (hr : (i, f, MemOp.sload n) ∈ scalarMemory)
        (hw : max 1 (n / 4) = written) : at' (i d sp off) (.sload n) f written old none := by
      intro hm hs h p' reached plain nodup _ _
      subst hw
      obtain ⟨t, u, ht, hu, leaves⟩ := load_leaves (e := (sees wid w pc iss ws (msInfo (.sload n) d sp w ws)).msEntry f (.sload n) d sp off)
        (i := msInfo (.sload n) d sp w ws) h (rootOf s w) hm plain rfl
        (List.mem_singleton_self _)
      exact ⟨t, u, (performs _ hr d sp off s wid w pc iss ws _ h p' reached).trans (congrArg _ ht), hu, leaves⟩
    have store (i : BitVec 7 → BitVec 5 → BitVec 12 → Instr) (f n : Nat) (x : DWord) (hr : (i, f, MemOp.sstore n) ∈ scalarMemory)
        (hn : n ≤ 4 ∨ n % 4 = 0)
        (hx : dataOf w (.sstore n) d.toNat ((n + 3) / 4) 0 % 2 ^ (8 * n) = x.toNat % 2 ^ (8 * n)) :
        at' (i d sp off) (.sstore n) f 0 0 (some x) := by
      intro hm hs h p' reached plain nodup _ _
      obtain ⟨t, u, ht, hu, leaves⟩ := store_leaves (e := (sees wid w pc iss ws (msInfo (.sstore n) d sp w ws)).msEntry f (.sstore n) d sp off)
        (i := msInfo (.sstore n) d sp w ws) h (rootOf s w) hm hs plain rfl
        (sound (op := .sstore n) hn rfl reached) nodup rfl x hx
      exact ⟨t, u, (performs _ hr d sp off s wid w pc iss ws _ h p' reached).trans (congrArg _ ht), hu, leaves⟩
    have atomic (i : BitVec 7 → BitVec 5 → BitVec 12 → Instr) (f : Nat) (a : AtomOp) (x : DWord)
        (hr : (i, f, MemOp.satom a) ∈ scalarMemory) (hn : a.bytes = 8)
        (hx : old < 2 ^ 64 → ∀ e, ∃ new, a.apply e 0 old (dataOf w (.satom a) d.toNat a.regs 0) = (new, 0) ∧
          new % 2 ^ 64 = x.toNat % 2 ^ 64) :
        at' (i d sp off) (.satom a) f 2 old (some x) := by
      intro hm hs h p' reached plain nodup length _
      have small : old < 2 ^ 64 := by
        have bound := leNat_lt (p.locs.map (locByte s))
        rw [List.length_map, length, show (MemOp.satom a).bytes = 8 from hn] at bound
        exact bound
      obtain ⟨new, applied, value⟩ := hx small ((sees wid w pc iss ws (msInfo (.satom a) d sp w ws)).msEntry f (.satom a) d sp off)
      have sound' : SoundPlace s 8 p := hn ▸ sound (.inr (by rw [MemOp.bytes, hn])) rfl reached
      obtain ⟨t, u, ht, hu, leaves⟩ := atomic_leaves (e := (sees wid w pc iss ws (msInfo (.satom a) d sp w ws)).msEntry f (.satom a) d sp off)
        (i := msInfo (.satom a) d sp w ws) h (rootOf s w) hm hs plain rfl
        sound' nodup rfl applied (List.mem_singleton_self _) x value
      rw [hn] at leaves
      refine ⟨t, u, (performs _ hr d sp off s wid w pc iss ws _ h p' reached).trans (congrArg _ ht), hu, ?_⟩
      rw [show (MemOp.satom a).bytes = 8 from hn]
      exact leaves
    -- From here the shape is used through `load`, `store` and `atomic` only.
    clear_value at'
    refine ⟨load _ 0 4 1 (by simp [scalarMemory]) rfl, load _ 1 8 2 (by simp [scalarMemory]) rfl,
      store _ 2 4 _ (by simp [scalarMemory]) (.inl le_rfl) ?_, store _ 3 8 _ (by simp [scalarMemory]) (.inr rfl) ?_,
      atomic _ 4 _ _ (by simp [scalarMemory]) rfl fun small e => ⟨_, rfl, ?_⟩,
      atomic _ 5 _ _ (by simp [scalarMemory]) rfl fun small e => ?_, load _ 7 4 1 (by simp [scalarMemory]) rfl⟩
    · rw [dataOf_sstore4, BitVec.toNat_setWidth]
      have := (w.readS d.toNat).isLt
      omega
    · rw [dataOf_sstore8]
    · show (old + dataOf w (.satom (.add 8)) d.toNat 2 0) % 2 ^ (8 * 8) % 2 ^ 64 = _
      rw [dataOf_add, BitVec.toNat_add, BitVec.toNat_ofNat]
      show _ = ((old % 2 ^ 64 + (w.readS64 d.toNat).toNat) % 2 ^ 64) % 2 ^ 64
      omega
    · refine ⟨_, ?_, rfl⟩
      show (AtomOp.cas 8).apply e 0 old (dataOf w (.satom (.cas 8)) d.toNat 4 0) = _
      rw [dataOf_cas, apply_cas e small]

end Sys2Proof.Machine

/-! SUPPORT. A table entry that straddles two lines, and the refutation of O27. -/

namespace Sys2Proof.Machine

open Sys2Proof

/-! ### Tables whose root entry straddles two lines

The statement asks that the line of each entry a lane's walk reads be neither pooled nor contributed to, and names that line by the
entry's first byte. It takes any PTROOT, also one that the instructions could not set, since a field of a region takes only multiples of
65536 as its PTROOT: under a root that is no multiple of 8 an entry may end in the next line, which the contributions may change, and
then the walk of a later lane reads, and merges, a line that no lane's walk read before. -/

/-- The frame of the tables and of the data. -/
def straddleFrame : Nat := 0x5400

/-- A root whose entry 0 has its first four bytes at the end of a line and the others in the next one. -/
def straddleRoot : Nat := straddleFrame * 65536 + 124

/-- The line that the second lane's walk reads: the first of the frame that the changed root entry names. -/
def strayLine : Nat := (straddleFrame + 1024) * 512

/-- A wave whose lanes 0 and 1 contribute 1 each, by operator 1, to the first two elements of the line after the root entry's first,
of which the first is the entry's upper half. -/
def straddlingWave : Wave :=
  { (((((loadedWave 0).writeS 8 0x40030080).writeS 9 0x400).writeV 3 0xFFFFFFFF fun l => BitVec.ofNat 32 (4 * l)).writeV 4 0xFFFFFFFF
      fun _ => 1).writeP 1 3 with ptag := 1 }

/-- A loaded module whose tables stand in one frame, the root entry in two lines and the leaf marked written, with `strayLine`
pooled. -/
def straddlingState : State :=
  let s := modRegion (loadWord State.reset 0) 1 fun g => { g with ptroot := BitVec.ofNat 64 straddleRoot }
  let table := pField 1 22 36 straddleFrame
  let leaf := pSet (pField (hbmLeaf straddleFrame true false true) 18 4 (regionGen s 1 % 16)) 16 true
  { s with
    cur := some 4
    mem := [(straddleRoot, table), (straddleFrame * 65536 + 8, table), (straddleFrame * 65536 + 16, table),
      (straddleFrame * 65536 + 24, leaf)].foldl (fun m p => setBytes m p.1 (leBytes 8 p.2.toNat)) s.mem
    pool := [(strayLine, ⟨1, 0, []⟩)]
    waves := [(4, straddlingWave)] }

/-- The operands of vpool.b32 there. -/
def straddlingInfo : OpInfo := mvInfo 21 (.pool 4) 1 4 3 4 straddlingWave []

def straddlingEnv : Env := sees 4 straddlingWave 0x10000 0xFFFFFFFF [] straddlingInfo

def straddlingEntry : LogEntry := straddlingEnv.mvEntry 21 0 (.pool 4) 1 4 3 4

/-- The places of the two lanes. -/
def straddlingPlaces : List (Nat × Place) :=
  match reachAll straddlingState straddlingWave (rootOf straddlingState straddlingWave) straddlingEntry (.pool 4) with
  | .ok ps => ps
  | _ => []

/-- The lanes that contribute to a line. -/
def straddlingMine (line : Nat) : List (Nat × Place) := straddlingPlaces.filter fun p => p.2.phys.getD 0 / 128 == line

/-! It meets every hypothesis. -/

theorem straddling_stands : Stands straddlingState 4 straddlingWave 0x10000 0xFFFFFFFF [] :=
  ⟨rfl, rfl, by decide +kernel, by decide +kernel, by decide +kernel, by decide +kernel⟩

theorem straddling_passes : Passes straddlingWave straddlingInfo [] :=
  ⟨by decide +kernel, by decide +kernel, by decide +kernel⟩

theorem straddling_memoryOk : straddlingState.memoryOk := by
  show Memory.wf straddlingState.mem = true
  decide +kernel

theorem straddling_spadsOk : straddlingState.spadsOk := by
  show ∀ p ∈ straddlingState.gangs, Memory.wf p.2.spad = true
  decide +kernel

theorem straddling_reaches : reaches straddlingState straddlingEnv straddlingEntry (.pool 4) 4 straddlingPlaces :=
  ⟨⟨.inr (by decide +kernel), fun _ => by decide +kernel⟩, by decide +kernel, by decide +kernel⟩

/-- The leaves are marked written, and the first byte of every entry that the walks read is in a line of its own. -/
theorem straddling_marks : ∀ p ∈ straddlingPlaces, ∀ m ∈ p.2.marks, pDirty m.2.1 = true ∧
    pDgen m.2.1 = regionGen straddlingState (waveRegion straddlingState straddlingWave) % 16 ∧
    ∀ a ∈ walkReads straddlingState m.2.2 4 0 (rootOf straddlingState straddlingWave).toNat,
      fget straddlingState.pool (a / 128) = none ∧ straddlingMine (a / 128) = [] := by decide +kernel

/-- The lanes' own line is not pooled before. -/
theorem straddling_unpooled : ∀ p ∈ straddlingPlaces, fget straddlingState.pool (p.2.phys.getD 0 / 128) = none := by decide +kernel

theorem straddlingMine_strayLine : straddlingMine strayLine = [] := by decide +kernel

/-- The state after an instruction whose outcome is one. -/
def nextState : Host.Outcome State Fault Refusal → Option State
  | .next t => some t
  | _ => none

/-- After it, the line that only the second lane's walk read is no longer pooled. -/
theorem strayLine_merged : ((nextState (exec (.vpoolB32 1 4 3 4) straddlingState)).map fun t => fget t.pool strayLine) = some none := by
  decide +kernel

/-- Refutes O27: under a root that is no multiple of 8, the first lane's contribution changes the upper half of the root entry, and
the second lane's walk merges a line to which no lane contributes, so the pool does not stay as it was there. -/
theorem not_atomicsPoolsAndAppends : ¬ Obligations.AtomicsPoolsAndAppends := by
  unfold Obligations.AtomicsPoolsAndAppends
  intro h
  have row : (.vpoolB32, 21, 0, .pool 4) ∈ vectorMemory := by simp [vectorMemory]
  obtain ⟨-, pools, -⟩ := h _ row 1 4 3 4 straddlingState 4 straddlingWave 0x10000 0xFFFFFFFF [] straddlingPlaces
    straddling_memoryOk straddling_spadsOk straddling_stands straddling_passes (by decide +kernel) straddling_reaches
  have tagged := (pools 4 rfl straddling_marks).1 fun p hp x hx => nomatch (straddling_unpooled p hp).symm.trans hx
  obtain ⟨t, u, step, -, -, -, -, -, -, -, others, -⟩ := tagged
  have merged := strayLine_merged
  rw [step] at merged
  have pooled : fget straddlingState.pool strayLine = some ⟨1, 0, []⟩ := by decide +kernel
  exact nomatch pooled.symm.trans ((others strayLine straddlingMine_strayLine).symm.trans (Option.some.inj merged))

end Sys2Proof.Machine

/-! SUPPORT. What the Cistern's work on pages leaves alone (spec/15 R275, R285 to R290; spec/23 R378, R381): the time, the waves, the
cohorts, and the cohort of each gang. -/

namespace Sys2Proof.Machine

open Sys2Proof

/-- Two states with the same time, waves and cohorts, whose gangs are of the same cohorts. -/
structure SameUnits (s t : State) : Prop where
  time : t.time = s.time
  waves : t.waves = s.waves
  cohorts : t.cohorts = s.cohorts
  gangs : ∀ k, (fget t.gangs k).map Gang.cohort = (fget s.gangs k).map Gang.cohort

theorem SameUnits.refl (s : State) : SameUnits s s := ⟨rfl, rfl, rfl, fun _ => rfl⟩

theorem SameUnits.trans {s t u : State} (h : SameUnits s t) (h' : SameUnits t u) : SameUnits s u :=
  ⟨h'.time.trans h.time, h'.waves.trans h.waves, h'.cohorts.trans h.cohorts, fun k => (h'.gangs k).trans (h.gangs k)⟩

theorem SameUnits.getWave {s t : State} (h : SameUnits s t) (wid : Nat) : getWave t wid = getWave s wid :=
  congrArg (fget · wid) h.waves

theorem SameUnits.gangRegion {s t : State} (h : SameUnits s t) (g : Nat) : gangRegion t g = gangRegion s g := by
  have same := h.gangs g
  unfold Machine.gangRegion
  cases ht : fget t.gangs g with
  | none =>
    rw [ht, Option.map_none, eq_comm, Option.map_eq_none_iff] at same
    rw [same]
  | some y =>
    rw [ht, Option.map_some, eq_comm, Option.map_eq_some_iff] at same
    obtain ⟨x, hs, cohort⟩ := same
    rw [hs, h.cohorts]
    simp only [cohort]

theorem SameUnits.foldl {α : Type} {f : State → α → State} (hf : ∀ s x, SameUnits s (f s x)) (l : List α) (s : State) :
    SameUnits s (l.foldl f s) := by
  induction l generalizing s with
  | nil => exact .refl s
  | cons x l ih => exact (hf s x).trans (ih _)

/-- The same of a fold that carries the state with something else. -/
theorem SameUnits.foldl_fst {α β : Type} {f : State × β → α → State × β} (hf : ∀ a x, SameUnits a.1 (f a x).1) (l : List α)
    (a : State × β) : SameUnits a.1 (l.foldl f a).1 := by
  induction l generalizing a with
  | nil => exact .refl _
  | cons x l ih => exact (hf a x).trans (ih _)

theorem sameUnits_modGang (s : State) (k : Nat) {f : Gang → Gang} (hf : ∀ g, (f g).cohort = g.cohort) :
    SameUnits s (modGang s k f) := by
  refine ⟨rfl, rfl, rfl, fun n => ?_⟩
  simp only [modGang, fmod]
  cases hk : fget s.gangs k with
  | none => rfl
  | some g =>
    obtain rfl | hn := eq_or_ne n k
    · rw [fget_fset_same, hk, Option.map_some, Option.map_some, hf]
    · rw [fget_fset_other _ _ _ _ hn]

/-! ### Lines and entries -/

theorem sameUnits_mergeAt (s : State) (a : Nat) : SameUnits s (mergeAt s a).1 := by
  obtain ⟨m, p, h⟩ := mergeAt_frame s a
  exact h ▸ ⟨rfl, rfl, rfl, fun _ => rfl⟩

theorem sameUnits_settleWalk (s : State) (root : DWord) (va : Nat) : SameUnits s (settleWalk s root va) := by
  obtain ⟨m, p, h⟩ := settleWalk_frame s root va
  exact h ▸ ⟨rfl, rfl, rfl, fun _ => rfl⟩

theorem sameUnits_mergeFrame (s : State) (f : Nat) : SameUnits s (mergeFrame s f) :=
  .foldl (fun s p => by
    split
    · exact sameUnits_mergeAt s _
    · exact .refl s) _ s

theorem sameUnits_touchLine (s : State) (a : Nat) : SameUnits s (touchLine s a) := by
  unfold touchLine
  split
  · exact ⟨rfl, rfl, rfl, fun _ => rfl⟩
  · split
    · exact ⟨rfl, rfl, rfl, fun _ => rfl⟩
    · exact .refl s

theorem sameUnits_writeBack (s : State) (line : Nat) : SameUnits s (writeBack s line) := by
  obtain ⟨m, l, h⟩ := writeBack_frame s line
  exact h ▸ ⟨rfl, rfl, rfl, fun _ => rfl⟩

theorem sameUnits_putEntry (s : State) (a : Nat) (e : DWord) : SameUnits s (putEntry s a e) :=
  ((sameUnits_mergeAt s a).trans (sameUnits_touchLine _ a)).trans ⟨rfl, rfl, rfl, fun _ => rfl⟩

/-- An entry written, and the cached translations of its page dropped. -/
theorem sameUnits_dropPage_putEntry (s : State) (a va : Nat) (e : DWord) : SameUnits s (dropPage (putEntry s a e) va) :=
  (sameUnits_putEntry s a e).trans ⟨rfl, rfl, rfl, fun _ => rfl⟩

theorem sameUnits_retarget (s : State) (frame : Nat) (f : DWord → DWord) : SameUnits s (retarget s frame f) :=
  .foldl (f := fun (s : State) (l : Leaf) => dropPage (putEntry s l.at' (f (readEntry s l.at'))) l.va)
    (fun s l => sameUnits_dropPage_putEntry s l.at' l.va _) (leavesAt s frame) s

/-! ### Charges and frames -/

theorem sameUnits_modRegion (s : State) (k : Nat) (f : Region → Region) : SameUnits s (modRegion s k f) :=
  ⟨rfl, rfl, rfl, fun _ => rfl⟩

theorem sameUnits_charge (s : State) (x : Resource) (r n : Nat) : SameUnits s (charge s x r n) :=
  .foldl (fun s k => sameUnits_modRegion s k _) _ s

theorem sameUnits_uncharge (s : State) (x : Resource) (r n : Nat) : SameUnits s (uncharge s x r n) :=
  .foldl (fun s k => sameUnits_modRegion s k _) _ s

theorem sameUnits_pageTraffic (s : State) (src dst : Nat) : SameUnits s (pageTraffic s src dst) := ⟨rfl, rfl, rfl, fun _ => rfl⟩

theorem sameUnits_freeFrame (s : State) (f : Nat) : SameUnits s (freeFrame s f) := by
  unfold freeFrame
  split <;> exact ⟨rfl, rfl, rfl, fun _ => rfl⟩

theorem sameUnits_freePage (s : State) (r f : Nat) : SameUnits s (freePage s r f) := by
  unfold freePage
  split
  · exact (sameUnits_freeFrame s f).trans (sameUnits_uncharge _ _ _ _)
  · exact (sameUnits_freeFrame s f).trans (sameUnits_uncharge _ _ _ _)
  · exact .refl s

theorem sameUnits_takeHbm {s t : State} {d f : Nat} (h : takeHbm s d = some (f, t)) : SameUnits s t := by
  unfold takeHbm at h
  split at h
  · cases h
    exact ⟨rfl, rfl, rfl, fun _ => rfl⟩
  · split at h
    · cases h
    · cases h
      exact ⟨rfl, rfl, rfl, fun _ => rfl⟩

theorem sameUnits_takeDeep {s t : State} {d f : Nat} (h : takeDeep s d = some (f, t)) : SameUnits s t := by
  unfold takeDeep at h
  split at h
  · cases h
    exact ⟨rfl, rfl, rfl, fun _ => rfl⟩
  · dsimp only at h
    split at h
    · cases h
    · cases h
      exact ⟨rfl, rfl, rfl, fun _ => rfl⟩

theorem sameUnits_moveUndo (s : State) (old new : Nat) : SameUnits s (moveUndo s old new) := by
  refine ⟨rfl, rfl, rfl, fun k => ?_⟩
  simp only [moveUndo, fget_fmapv, Option.map_map]
  rfl

theorem sameUnits_movePage (s : State) (old new : Nat) : SameUnits s (movePage s old new) :=
  have copied : SameUnits s (copyFrame s old new) := ⟨rfl, rfl, rfl, fun _ => rfl⟩
  (copied.trans (sameUnits_moveUndo _ old new)).trans ⟨rfl, rfl, rfl, fun _ => rfl⟩

theorem sameUnits_settleFrame (s : State) (f : Nat) : SameUnits s (settleFrame s f) :=
  (sameUnits_mergeFrame s f).trans (.foldl (fun s _ => sameUnits_touchLine s _) _ _)

theorem sameUnits_copyHostFrame (s : State) (old new : Nat) : SameUnits s (copyHostFrame s old new) := by
  have written : SameUnits s ((s.hostL2.filter fun p => p.1 / 512 == old).foldl (fun s p => writeBack s p.1) s) :=
    .foldl (f := fun (s : State) (p : Nat × HostLine) => writeBack s p.1) (fun s p => sameUnits_writeBack s p.1) _ s
  exact (written.trans (sameUnits_movePage _ old new)).trans ⟨rfl, rfl, rfl, fun _ => rfl⟩

theorem sameUnits_askedBy (s : State) (r : Nat) : SameUnits s (askedBy s r) := by
  unfold askedBy
  split
  · exact .refl s
  · exact ⟨rfl, rfl, rfl, fun _ => rfl⟩

/-! ### Evictions and fills (R285, R288) -/

/-- A page's contents in their new frame, its leaves and its charges, as an eviction and a fill end. -/
theorem sameUnits_pageMoved (s : State) (old new r : Nat) (x y : Resource) (f : DWord → DWord) :
    SameUnits s (pageTraffic (charge (uncharge (freeFrame (retarget (movePage s old new) old f) old) x r 1) y r 1) old new) :=
  (((((sameUnits_movePage s old new).trans (sameUnits_retarget _ old f)).trans (sameUnits_freeFrame _ old)).trans
    (sameUnits_uncharge _ x r 1)).trans (sameUnits_charge _ y r 1)).trans (sameUnits_pageTraffic _ old new)

theorem sameUnits_evict (s : State) (l : Leaf) : SameUnits s (evict s l) := by
  unfold evict
  dsimp only
  split
  · exact .refl s
  · next d s1 took => exact ((sameUnits_takeDeep took).trans (sameUnits_settleFrame s1 _)).trans (sameUnits_pageMoved _ _ _ _ _ _ _)

theorem sameUnits_fillDeep (s : State) (root : DWord) (frame : Nat) : SameUnits s (fillDeep s root frame) := by
  unfold fillDeep
  dsimp only
  split
  · exact .refl s
  · next f s1 took => exact (sameUnits_takeHbm took).trans (sameUnits_pageMoved _ _ _ _ _ _ _)

theorem sameUnits_dropReplicas (die n : Nat) (s : State) : SameUnits s (dropReplicas die n s) :=
  .foldl (fun s x => by
    split
    · exact .refl s
    · have kept : SameUnits s { s with segments := fmod s.segments x.1 fun g =>
          { g with replicas := g.replicas.filter (· != x.2) } } := ⟨rfl, rfl, rfl, fun _ => rfl⟩
      exact kept.trans (sameUnits_freeFrame _ _)) _ s

theorem sameUnits_makeRoomFor (prefetch : Bool) (die r n fuel : Nat) {s t : State}
    (h : makeRoomFor prefetch die r n fuel s = some t) : SameUnits s t := by
  induction fuel generalizing s with
  | zero => cases h
  | succ fuel ih =>
    have dropped := sameUnits_dropReplicas die n s
    have evicted (l : Leaf) := dropped.trans (sameUnits_evict (dropReplicas die n s) l)
    rw [makeRoomFor] at h
    dsimp only at h
    split at h
    · split at h
      · exact (evicted _).trans (ih h)
      · cases h
    · split at h
      · split at h
        · split at h
          · cases h
            exact evicted _
          · exact (evicted _).trans (ih h)
        · split at h
          · cases h
            exact dropped
          · cases h
      · cases h
        exact dropped

/-! ### Pages brought into HBM (R275, R289, R290) -/

theorem sameUnits_fillRoom {s t : State} {root : DWord} {va die : Nat} (h : fillRoom s root va die = some t) : SameUnits s t := by
  unfold fillRoom fillRoomFor at h
  split at h
  · split at h
    · exact sameUnits_makeRoomFor _ _ _ _ _ h
    · split at h
      · cases h
        exact .refl _
      · exact sameUnits_makeRoomFor _ _ _ _ _ h
    · cases h
      exact .refl _
  · split at h
    · cases h
    · exact sameUnits_makeRoomFor _ _ _ _ _ h

theorem sameUnits_startMove (s : State) (root : DWord) (va frame die : Nat) : SameUnits s (startMove s root va frame die) :=
  (sameUnits_retarget s frame fun e => pSet e 10 true).trans ⟨rfl, rfl, rfl, fun _ => rfl⟩

theorem sameUnits_endMove (s : State) (frame : Nat) (f : Moving → DWord) : SameUnits s (endMove s frame f) := by
  unfold endMove
  split
  · exact .refl s
  · next m _ =>
    exact (SameUnits.foldl (f := fun (s : State) (l : Moving) => dropPage (putEntry s l.at' (f l)) l.va)
      (fun s l => sameUnits_dropPage_putEntry s l.at' l.va _) _ s).trans ⟨rfl, rfl, rfl, fun _ => rfl⟩

theorem sameUnits_bringHome {s t : State} {root : DWord} {frame die f : Nat} (h : bringHome s root frame die = some (f, t)) :
    SameUnits s t := by
  unfold bringHome at h
  rw [Option.bind_eq_some_iff] at h
  obtain ⟨s1, room, h⟩ := h
  rw [Option.map_eq_some_iff] at h
  obtain ⟨⟨n, s2⟩, took, h⟩ := h
  cases h
  exact ((((sameUnits_makeRoomFor _ _ _ _ _ room).trans (sameUnits_takeHbm took)).trans (sameUnits_copyHostFrame _ _ _)).trans
    (sameUnits_charge _ _ _ _)).trans (sameUnits_pageTraffic _ _ _)

theorem sameUnits_residentNow {s t : State} {root : DWord} {va die : Nat} (h : residentNow s root va die = some t) :
    SameUnits s t := by
  have read := sameUnits_settleWalk s root va
  unfold residentNow at h
  dsimp only at h
  split at h
  · split at h
    · cases h
      exact read
    · split at h
      · cases h
      · split at h
        · rw [Option.map_eq_some_iff] at h
          obtain ⟨s1, room, rfl⟩ := h
          exact (read.trans (sameUnits_fillRoom room)).trans (sameUnits_fillDeep _ _ _)
        · split at h
          · cases h
            exact read
          · split at h
            · cases h
              exact read.trans (sameUnits_retarget _ _ _)
            · rw [Option.map_eq_some_iff] at h
              obtain ⟨⟨f, s1⟩, home, rfl⟩ := h
              exact (((read.trans (sameUnits_startMove _ _ _ _ _)).trans (sameUnits_bringHome home)).trans
                (sameUnits_endMove _ _ _)).trans ⟨rfl, rfl, rfl, fun _ => rfl⟩
        · cases h
          exact read
  · cases h
    exact read

theorem sameUnits_resolution (s t : State) (root : DWord) (va : Nat) : SameUnits t (resolution s t root va) := by
  unfold resolution
  split
  · exact .foldl (fun s r => sameUnits_modRegion s r _) _ t
  · exact .refl t

/-! ### Loads from a context save area, and its end (R378, R381) -/

theorem sameUnits_csaPage {strict : Bool} {s t : State} {root : DWord} {die va : Nat} (h : csaPage strict s root die va = some t) :
    SameUnits s t := by
  unfold csaPage at h
  split at h
  · next s1 now =>
    cases h
    exact (sameUnits_residentNow now).trans (sameUnits_resolution s s1 root va)
  · split at h
    · cases h
      exact .refl s
    · cases h

theorem sameUnits_prepareList (s : State) (ls : List Loc) : SameUnits s (prepareList s ls).1 := by
  refine .foldl_fst (fun a l => ?_) ls (s, [])
  cases l with
  | phys pa => exact (sameUnits_mergeAt _ pa).trans (sameUnits_touchLine _ pa)
  | spad g p => exact .refl _

theorem sameUnits_useLeaves (s : State) (root : DWord) (p : Place) : SameUnits s (useLeaves s root p none) := by
  have frame := (merges_useLeaves s root p).frame
  rw [frame]
  exact ⟨rfl, rfl, rfl, fun _ => rfl⟩

theorem sameUnits_loadVA {s t : State} {root : DWord} {va n : Nat} {bs : List (BitVec 8)} (h : loadVA s root va n = .ok (bs, t)) :
    SameUnits s t := by
  cases reached : engReach s root 0 va n .read with
  | ok p =>
    rw [loadVA, reached] at h
    obtain ⟨-, rfl⟩ := Prod.mk.inj (CsaAccess.ok.inj h)
    exact (sameUnits_prepareList s _).trans (sameUnits_useLeaves _ root _)
  | wait x =>
    rw [loadVA, reached] at h
    cases h
  | fail c x y =>
    rw [loadVA, reached] at h
    cases h

/-- Accesses made one after another, each on from the last that could be made. -/
theorem sameUnits_of_foldl {α β : Type} {g : CsaAccess (β × State) → α → CsaAccess (β × State)}
    (hg : ∀ a x b t, g a x = .ok (b, t) → ∃ b' s, a = .ok (b', s) ∧ SameUnits s t) (l : List α) {s t : State} {b b' : β}
    (h : l.foldl g (.ok (b, s)) = .ok (b', t)) : SameUnits s t := by
  induction l using List.reverseRecOn generalizing b' t with
  | nil =>
    cases h
    exact .refl s
  | append_singleton l x ih =>
    rw [List.foldl_append] at h
    obtain ⟨b'', s', before, same⟩ := hg _ _ _ _ h
    exact (ih before).trans same

/-- A piece of a load from a CSA, whatever makes its page resident and reads it. -/
theorem sameUnits_csaPiece {strict : Bool} {s t : State} {root : DWord} {die : Nat} {bs bs' : List (BitVec 8)} (p : Nat × Nat)
    (page : Bool → State → DWord → Nat → Nat → Option State) (load : State → DWord → Nat → Nat → CsaAccess (List (BitVec 8) × State))
    (h : (match page strict s root die p.1 with
      | none => .wait p.1
      | some t => match load t root p.1 p.2 with
        | .ok (b, u) => .ok (bs ++ b, u)
        | .wait x => .wait x
        | .fail c x => if strict then .fail c x else .ok (bs ++ List.replicate p.2 0, t) : CsaAccess (List (BitVec 8) × State)) =
      .ok (bs', t))
    (paged : ∀ {u}, page strict s root die p.1 = some u → SameUnits s u)
    (loaded : ∀ {u b y}, load u root p.1 p.2 = .ok (b, y) → SameUnits u y) : SameUnits s t := by
  split at h
  · cases h
  · next u here =>
    split at h
    · next b y read =>
      cases h
      exact (paged here).trans (loaded read)
    · cases h
    · split at h
      · cases h
      · cases h
        exact paged here

theorem sameUnits_csaLoad {strict : Bool} {s t : State} {root : DWord} {die va n : Nat} {bs : List (BitVec 8)}
    (h : csaLoad strict s root die va n = .ok (bs, t)) : SameUnits s t := by
  refine sameUnits_of_foldl (fun a p bs t h => ?_) _ h
  cases a with
  | wait x => cases h
  | fail c x => cases h
  | ok r => exact ⟨_, _, rfl, sameUnits_csaPiece p csaPage loadVA h sameUnits_csaPage sameUnits_loadVA⟩

theorem sameUnits_unmapPage (s : State) (root : DWord) (r va : Nat) : SameUnits s (unmapPage s root r va) := by
  unfold unmapPage
  split
  · exact .refl s
  · next a e f _ =>
    have moving : SameUnits (mergeFrame s f) (dropMoving (mergeFrame s f) a) := ⟨rfl, rfl, rfl, fun _ => rfl⟩
    exact (((sameUnits_mergeFrame s f).trans moving).trans (sameUnits_dropPage_putEntry _ a va 0)).trans (sameUnits_freePage _ r f)

theorem sameUnits_unmapRange (s : State) (root : DWord) (r va pages : Nat) : SameUnits s (unmapRange s root r va pages) :=
  .foldl (fun s _ => sameUnits_unmapPage s root r _) _ s

end Sys2Proof.Machine

/-! SUPPORT. The steps of a return from a trap (spec/11 R175; spec/23 R374). -/

namespace Sys2Proof.Machine

open Sys2Proof

/-! ### The issue PC (R37) -/

/-- The lower of an address, if any, and another. -/
def lower (m : Option DWord) (p : DWord) : DWord :=
  match m with
  | none => p
  | some q => if p.toNat < q.toNat then p else q

/-- One lane of the search for the least PC of a live lane. -/
def Wave.least (w : Wave) (m : Option DWord) (l : Nat) : Option DWord :=
  if w.lane l = .live then some (lower m (w.pc l)) else m

theorem least_of_live {w : Wave} {l : Nat} (h : w.lane l = .live) (m : Option DWord) : w.least m l = some (lower m (w.pc l)) :=
  if_pos h

theorem least_of_not_live {w : Wave} {l : Nat} (h : w.lane l ≠ .live) (m : Option DWord) : w.least m l = m := if_neg h

theorem issuePC_eq_least (w : Wave) : w.issuePC = laneIdx.foldl w.least none := by
  unfold Wave.issuePC
  congr 1
  funext m l
  unfold Wave.least
  split
  · cases m with
    | none => rfl
    | some p => exact (apply_ite some _ _ _).symm
  · rfl

theorem foldl_least_none {w : Wave} {ls : List Nat} (h : ∀ l ∈ ls, w.lane l ≠ .live) (m : Option DWord) :
    ls.foldl w.least m = m := by
  induction ls generalizing m with
  | nil => rfl
  | cons l ls ih =>
    rw [List.forall_mem_cons] at h
    rw [List.foldl_cons, least_of_not_live h.1, ih h.2]

/-- The search ends at the least of what it started with and the PCs of the live lanes. -/
theorem foldl_least {w : Wave} {x : DWord} {ls : List Nat} (m : Option DWord)
    (least : (∀ p ∈ m, x.toNat ≤ p.toNat) ∧ ∀ l ∈ ls, w.lane l = .live → x.toNat ≤ (w.pc l).toNat)
    (attained : m = some x ∨ ∃ l ∈ ls, w.lane l = .live ∧ w.pc l = x) : ls.foldl w.least m = some x := by
  induction ls generalizing m with
  | nil => simpa using attained
  | cons l ls ih =>
    obtain ⟨start, lanes⟩ := least
    rw [List.forall_mem_cons] at lanes
    rw [List.foldl_cons]
    by_cases live : w.lane l = .live
    · have here := lanes.1 live
      rw [least_of_live live]
      refine ih _ ⟨?_, lanes.2⟩ ?_
      · rintro p ⟨⟩
        cases m with
        | none => exact here
        | some q =>
          rw [lower]
          split_ifs
          · exact here
          · exact start q rfl
      · rcases attained with rfl | ⟨k, hk, alive, at'⟩
        · exact .inl (congrArg some (if_neg (Nat.not_lt.mpr here)))
        · rcases List.mem_cons.mp hk with rfl | hk
          · cases m with
            | none => exact .inl (congrArg some at')
            | some q =>
              refine .inl (congrArg some ?_)
              rw [lower, at']
              split_ifs with lt
              · rfl
              · exact BitVec.eq_of_toNat_eq (Nat.le_antisymm (Nat.not_lt.mp lt) (start q rfl))
          · exact .inr ⟨k, hk, alive, at'⟩
    · rw [least_of_not_live live]
      refine ih m ⟨start, lanes.2⟩ (attained.imp_right ?_)
      rintro ⟨k, hk, alive, at'⟩
      rcases List.mem_cons.mp hk with rfl | hk
      · exact absurd alive live
      · exact ⟨k, hk, alive, at'⟩

theorem issuePC_eq_some {w : Wave} {x : DWord} (attained : ∃ l ∈ laneIdx, w.lane l = .live ∧ w.pc l = x)
    (least : ∀ l ∈ laneIdx, w.lane l = .live → x.toNat ≤ (w.pc l).toNat) : w.issuePC = some x := by
  rw [issuePC_eq_least]
  exact foldl_least none ⟨nofun, least⟩ (.inr attained)

theorem issuePC_eq_none {w : Wave} (h : ∀ l ∈ laneIdx, w.lane l ≠ .live) : w.issuePC = none := by
  rw [issuePC_eq_least, foldl_least_none h]

/-! ### The held state restored (R175) -/

/-- The wave that a return restores: the live lanes at the address `m` go on at SR.TRESUME, the others where they were held. -/
def Wave.resumedAt (w : Wave) (m : DWord) : Wave :=
  { w with
    pcs := laneIdx.map fun l => if w.held.lanes.getD l .exited == .live && w.held.pcs.getD l 0 == m then w.tresume else w.held.pcs.getD l 0
    lanes := w.held.lanes, held := ⟨[], []⟩, chain := none, priv := .u, inSave := false, inRestore := false
    trapCtx := none }

/-- `m` is the least held PC of a live lane, or every lane is parked or has exited and not all have. -/
def HeldAt (w : Wave) (m : DWord) : Prop :=
  w.held.pcs.length = 32 ∧
  ((∃ l ∈ laneIdx, (w.held.lanes.getD l .exited == .live) = true ∧ w.held.pcs.getD l 0 = m) ∨
    (∀ l ∈ laneIdx, (w.held.lanes.getD l .exited == .live) = false) ∧ ∃ l ∈ laneIdx, w.held.lanes.getD l .exited = .parked) ∧
  ∀ l ∈ laneIdx, (w.held.lanes.getD l .exited == .live) = true → m.toNat ≤ (w.held.pcs.getD l 0).toNat

theorem laneIdx_map_getD {α : Type} {xs : List α} {a : α} (h : xs.length = 32) : (laneIdx.map fun l => xs.getD l a) = xs := by
  have idx : laneIdx = List.range 32 := rfl
  refine List.ext_getElem (by simp [idx, h]) fun k h1 h2 => ?_
  simp [idx, h2]

/-- The wave at its held lanes and addresses. -/
def Wave.heldWave (w : Wave) : Wave := { w with pcs := w.held.pcs, lanes := w.held.lanes, chain := none }

theorem resumeHeld_of_some {w : Wave} {m : DWord} (h : w.heldWave.issuePC = some m) : w.resumeHeld = w.resumedAt m := by
  unfold Wave.heldWave at h
  simp only [Wave.resumeHeld, h]
  rfl

theorem resumeHeld_of_none {w : Wave} (h : w.heldWave.issuePC = none) (m : DWord) :
    w.resumeHeld = { w.resumedAt m with pcs := w.held.pcs } := by
  unfold Wave.heldWave at h
  simp only [Wave.resumeHeld, h]
  rfl

theorem resumeHeld_eq {w : Wave} {m : DWord} (h : HeldAt w m) : w.resumeHeld = w.resumedAt m := by
  obtain ⟨length, attained, least⟩ := h
  have alive (l : Nat) : w.heldWave.lane l = .live ↔ (w.held.lanes.getD l .exited == .live) = true := beq_iff_eq.symm
  rcases attained with ⟨l, hl, live, at'⟩ | ⟨dead, -⟩
  · exact resumeHeld_of_some (issuePC_eq_some ⟨l, hl, (alive l).mpr live, at'⟩ fun k hk h => least k hk ((alive k).mp h))
  · have kept : (w.resumedAt m).pcs = w.held.pcs := by
      refine Eq.trans (List.map_congr_left fun l hl => ?_) (laneIdx_map_getD (a := 0) length)
      rw [dead l hl, Bool.false_and, if_neg Bool.false_ne_true]
    rw [resumeHeld_of_none (issuePC_eq_none fun l hl h => ?_) m, ← kept]
    rw [alive, dead l hl] at h
    exact Bool.false_ne_true h

/-- Not every lane of the wave that a return restores has exited. -/
theorem resumedAt_stands {w : Wave} {m : DWord} (h : HeldAt w m) : ∃ l ∈ laneIdx, (w.resumedAt m).lane l ≠ .exited := by
  obtain ⟨-, ⟨l, hl, live, -⟩ | ⟨-, l, hl, parked⟩, -⟩ := h
  · exact ⟨l, hl, fun gone => LaneState.noConfusion (gone.symm.trans (beq_iff_eq.mp live))⟩
  · exact ⟨l, hl, fun gone => LaneState.noConfusion (gone.symm.trans parked)⟩

/-! ### The parked groups (R54; assumption log 81) -/

/-- A state once what these groups wait on has been read, for a wave. -/
def groupsRead (s : State) (u : Wave) (gs : List Group) : State := gs.foldl (fun t g => settleWait t u g.on) s

theorem groupsRead_frame (s : State) (u : Wave) (gs : List Group) : ∃ m p, groupsRead s u gs = { s with mem := m, pool := p } :=
  foldl_merges_frame (f := fun (s : State) (g : Group) => settleWait s u g.on) (fun s g => settleWait_frame s u g.on) gs s

theorem getWave_groupsRead (s : State) (u : Wave) (gs : List Group) (wid : Nat) :
    getWave (groupsRead s u gs) wid = getWave s wid := by
  obtain ⟨m, p, h⟩ := groupsRead_frame s u gs
  rw [h]
  rfl

theorem groupsRead_take_succ {s : State} {u : Wave} {i : Nat} {g : Group} (h : u.groups[i]? = some g) :
    groupsRead s u (u.groups.take (i + 1)) = settleWait (groupsRead s u (u.groups.take i)) u g.on := by
  rw [List.take_add_one, h, groupsRead, List.foldl_append]
  rfl

theorem reevaluate_past {s : State} {wid i : Nat} {u : Wave} (here : getWave s wid = some u) (h : u.groups[i]? = none) (fuel : Nat) :
    reevaluate fuel s wid i = s := by
  cases fuel with
  | zero => rfl
  | succ fuel => simp only [reevaluate, here, h]

/-- Where no group finds a result, a wave's groups are only read. -/
theorem reevaluate_none {s : State} {wid : Nat} {u : Wave} (here : getWave s wid = some u) (fuel i : Nat)
    (none' : ∀ j g, j < i + fuel → u.groups[j]? = some g →
      groupResult (groupsRead s u (u.groups.take (j + 1))) u g = none) :
    reevaluate fuel (groupsRead s u (u.groups.take i)) wid i = groupsRead s u (u.groups.take (i + fuel)) := by
  induction fuel generalizing i with
  | zero => rfl
  | succ fuel ih =>
    have at' := (getWave_groupsRead s u (u.groups.take i) wid).trans here
    cases hg : u.groups[i]? with
    | none =>
      have past := List.getElem?_eq_none_iff.mp hg
      rw [reevaluate_past at' hg, List.take_of_length_le past, List.take_of_length_le (by omega)]
    | some g =>
      have result := none' i g (by omega) hg
      have next := ih (i + 1) fun j g hj => none' j g (by omega)
      rw [groupsRead_take_succ hg] at result next
      simp only [reevaluate, at', hg, result]
      rw [next, Nat.add_right_comm, Nat.add_assoc]

/-- Where the only group of a wave finds a result, it wakes with that. -/
theorem reevaluate_one {s : State} {wid : Nat} {u : Wave} {g : Group} {r : WaitResult} (here : getWave s wid = some u)
    (one : u.groups = [g]) (result : groupResult (settleWait s u g.on) u g = some r) (fuel : Nat) :
    reevaluate (fuel + 1) s wid 0 = wakeGroup (settleWait s u g.on) wid 0 r := by
  have only : u.groups[0]? = some g := by rw [one]; rfl
  obtain ⟨q, ready, woken⟩ := getWave_wakeGroup ((getWave_settleWait s u g.on wid).trans here) only r
  simp only [reevaluate, here, only, result]
  exact reevaluate_past woken (by rw [woken_groups, one]; rfl) fuel

end Sys2Proof.Machine

/-! SUPPORT. How a return from a trap ends (spec/11 R175, R199; spec/23 R374, R377 to R379, R381), and O41. -/

namespace Sys2Proof.Machine

open Sys2Proof

/-- A wave that issues no sooner than five cycles after a time. -/
def Wave.readyFrom (u : Wave) (time : Nat) : Wave := { u with ready := time + 5 }

/-- A wave whose log performs afresh (R374). -/
def Wave.afresh (u : Wave) : Wave := { u with log := u.log.map fun e => { e with cause := 0 } }

theorem afresh_of_log_nil {u : Wave} (h : u.log = []) : u.afresh = u := by rw [Wave.afresh, h, List.map_nil, ← h]

@[simp] theorem readyFrom_pend (u : Wave) (time : Nat) : (u.readyFrom time).pend = u.pend := rfl
@[simp] theorem readyFrom_lane (u : Wave) (time l : Nat) : (u.readyFrom time).lane l = u.lane l := rfl

/-- The state in which a wave goes on in its region at a time. -/
def resumes (time wid rg : Nat) (t : State) (u : Wave) : State :=
  modRegion (setWave t wid (u.readyFrom time)) rg fun g => { g with progress := 0 }

section
variable (time wid rg : Nat) (t : State) (u : Wave)

theorem getWave_resumes : getWave (resumes time wid rg t u) wid = some (u.readyFrom time) := getWave_setWave t wid _

theorem setWave_resumes (x : Wave) : setWave (resumes time wid rg t u) wid x =
    modRegion (setWave t wid x) rg fun g => { g with progress := 0 } := by
  have same := setWave_setWave t wid (u.readyFrom time) x
  show modRegion (setWave (setWave t wid (u.readyFrom time)) wid x) rg _ = _
  rw [same]

theorem modWave_resumes {f : Wave → Wave} {x : Wave} (hf : f (u.readyFrom time) = x.readyFrom time) :
    modWave (resumes time wid rg t u) wid f = resumes time wid rg t x := by
  rw [modWave_of_get f (getWave_resumes time wid rg t u), hf, setWave_resumes]
  rfl

theorem effTrapvec_resumes (r : Nat) : effTrapvec (resumes time wid rg t u) r = effTrapvec t r :=
  effTrapvec_of_sameTree (s := t) (t := resumes time wid rg t u)
    (sameTree_modRegion (setWave t wid (u.readyFrom time)) rg fun _ => ⟨rfl, rfl, rfl⟩) r

end

theorem replay_of_log_nil {s : State} {wid : Nat} {u : Wave} (here : getWave s wid = some u) (h : u.log = []) (fuel : Nat) :
    replay fuel s wid = s := by
  cases fuel with
  | zero => rfl
  | succ fuel => simp only [replay, here, h]

/-! ### ereturn -/

theorem exec_ereturn {s : State} {wid : Nat} {w : Wave} {pc : DWord} {iss : Word} {ws : List Word} (h : Stands s wid w pc iss ws)
    (p : Passes w { cls := 17, priv := true } ws) :
    exec .ereturn s = .next (((returnState s wid w).bind fun t => returnFromTrap t wid w).getD s) := by
  refine congrArg Host.Outcome.next ((issue_of_passes (info := fun _ _ => { cls := 17, priv := true }) h p).trans ?_)
  show ended' s wid w pc _ _ (match (returnState s wid w).bind fun t => returnFromTrap t wid w with
    | some t => .raw t
    | none => .hold) = _
  cases (returnState s wid w).bind fun t => returnFromTrap t wid w <;> rfl

/-- The state in which a wave stands restored, a restore's end done. -/
def restoredState (s : State) (wid : Nat) (w : Wave) : State :=
  let t := modWave (retryContexts s w) wid Wave.resumeHeld
  if w.inRestore then closeRestore t w.gang else t

/-- How a return ends once its wave is back in U mode at `s`: a trap that is pending is entered, or the log performs afresh. -/
def goesOn (s : State) (wid : Nat) (tresume : DWord) : Option State :=
  match getWave s wid with
  | none => some s
  | some v =>
    if laneIdx.all fun l => v.lane l == .exited then some (finishWave s wid)
    else if !v.pend.isEmpty then enterFirst s wid v tresume
    else some (replay 4 (modWave s wid Wave.afresh) wid)

theorem returnFromTrap_eq_goesOn (s : State) (wid : Nat) (w : Wave) : returnFromTrap s wid w =
    goesOn (modRegion (modWave (reevaluate 64 (restoredState s wid w) wid 0) wid fun x =>
      { x with ready := (restoredState s wid w).time + 5 }) (waveRegion (restoredState s wid w) w) fun g => { g with progress := 0 })
      wid w.tresume := rfl

section
variable {s c t : State} {wid rg time : Nat} {w u : Wave} (closed : restoredState s wid w = c) (reads : reevaluate 64 c wid 0 = t)
  (here : getWave t wid = some u) (now : c.time = time) (region : waveRegion c w = rg) (stands : ∃ l ∈ laneIdx, u.lane l ≠ .exited)
include closed reads here now region stands

theorem returnFromTrap_eq : returnFromTrap s wid w = if u.pend = [] then
    some (replay 4 (resumes time wid rg t u.afresh) wid)
    else enterFirst (resumes time wid rg t u) wid (u.readyFrom time) w.tresume := by
  have left : (laneIdx.all fun l => (u.readyFrom time).lane l == .exited) = false := by
    obtain ⟨l, hl, left⟩ := stands
    exact List.all_eq_false.mpr ⟨l, hl, by simpa using left⟩
  have marked : modWave t wid (fun x => { x with ready := time + 5 }) = setWave t wid (u.readyFrom time) :=
    modWave_of_get _ here
  rw [returnFromTrap_eq_goesOn, closed, reads, now, region, marked]
  show goesOn (resumes time wid rg t u) wid w.tresume = _
  rw [goesOn, getWave_resumes]
  simp only [left, Bool.false_eq_true, if_false]
  by_cases clear : u.pend = []
  · rw [if_neg (by simp [clear]), if_pos clear]
    exact congrArg (fun t => some (replay 4 t wid)) (modWave_resumes time wid rg t u (x := u.afresh) rfl)
  · rw [if_pos (by simp [clear]), if_neg clear]

theorem returnFromTrap_replays (h : u.pend = []) : returnFromTrap s wid w =
    some (replay 4 (resumes time wid rg t u.afresh) wid) :=
  (returnFromTrap_eq closed reads here now region stands).trans (if_pos h)

/-- With an empty log it goes on. -/
theorem returnFromTrap_goes_on (h : u.pend = []) (hl : u.log = []) : returnFromTrap s wid w = some (resumes time wid rg t u) := by
  rw [returnFromTrap_replays closed reads here now region stands h, afresh_of_log_nil hl,
    replay_of_log_nil (getWave_resumes time wid rg t u) hl]

end

/-! ### Traps entered at a return (R373, R377 to R379) -/

theorem gangRegion_modCohort (s : State) (c g : Nat) {f : Cohort → Cohort} (hf : ∀ k, (f k).region = k.region) :
    gangRegion (modCohort s c f) g = gangRegion s g := by
  simp only [gangRegion, modCohort, fmod]
  cases fget s.gangs g with
  | none => rfl
  | some gg =>
    dsimp only
    cases hc : fget s.cohorts c with
    | none => rfl
    | some k =>
      obtain same | other := eq_or_ne gg.cohort c
      · rw [same, fget_fset_same, hc]
        exact hf k
      · rw [fget_fset_other _ _ _ _ other]

theorem enterTrap_eq_trapped (u : Wave) (vec : DWord) (cause info : Nat) (tpc tresume taddr : DWord) :
    u.enterTrap vec ⟨cause, info, tpc, tresume, taddr, false⟩ = u.trapped vec cause info tpc tresume taddr (min u.log.length 4) := by
  simp only [Wave.enterTrap, Wave.trapped, Bool.false_eq_true, if_false, Nat.zero_add]

/-- The first entry of a gang's PREEMPT, noted in the gang and in its cohort. -/
def preemptNoted (s : State) (gid : Nat) (g : Gang) : State :=
  modCohort (modGang s gid fun x => { x with csa := true }) g.cohort fun k =>
    if k.entered then k else { k with entered := true, age := 0, aged := false }

/-- The entry of PREEMPT once the context save area is mapped. -/
def preemptMapped (wid : Nat) (v : Wave) (tresume : DWord) (rg : Nat) (root : DWord) (g : Gang) (s : State) : Option State :=
  let s := takeTrap (preemptNoted s v.gang g) wid ⟨cPREEMPT, 0, v.stopPC, tresume, BitVec.ofNat 64 (csaBase g.index), false⟩
  match getWave s wid with
  | some w' =>
    if w'.priv = .s then
      (writeDeviceItems s root (dieOf g.core) (csaBase g.index) w').map fun s =>
        modWave (askedBy s rg) wid fun w => { w with inSave := true }
    else some s
  | none => some s

theorem enterPreempt_of_gang {s : State} {wid : Nat} {v : Wave} {g : Gang} (hg : fget s.gangs v.gang = some g) (tresume : DWord) :
    enterPreempt s wid v tresume =
      (if g.csa then some (haltContexts (modWave s wid fun w => { w with frozen := false }) v.gang)
        else mapCsa (haltContexts (modWave s wid fun w => { w with frozen := false }) v.gang) (effPtroot s (gangRegion s v.gang))
          (gangRegion s v.gang) g).bind
        (preemptMapped wid v tresume (gangRegion s v.gang) (effPtroot s (gangRegion s v.gang)) g) := by
  rw [enterPreempt, hg]
  rfl

theorem gangRegion_preemptNoted (s : State) (gid n : Nat) (g : Gang) : gangRegion (preemptNoted s gid g) n = gangRegion s n := by
  rw [preemptNoted, gangRegion_modCohort _ _ _ fun k => by split_ifs <;> rfl]
  exact (sameUnits_modGang s gid (f := fun x => { x with csa := true }) fun _ => rfl).gangRegion n

/-- With the area mapped the wave enters, and the device writes its items (R378, R379). -/
theorem preemptMapped_eq {t : State} {wid rg : Nat} {u v : Wave} {root vec : DWord} {g : Gang} (tresume : DWord)
    (here : getWave t wid = some u) (hu : u.priv = .u) (region : waveRegion t u = rg)
    (hv : effTrapvec t rg = vec) (nonzero : vec ≠ 0) :
    preemptMapped wid v tresume rg root g t =
      let e := u.trapped vec cPREEMPT 0 v.stopPC tresume (BitVec.ofNat 64 (csaBase g.index)) (min u.log.length 4)
      (writeDeviceItems (preemptNoted (setWave t wid e) v.gang g) root (dieOf g.core) (csaBase g.index) e).map fun y =>
        modWave (askedBy y rg) wid fun w => { w with inSave := true } := by
  have region' : waveRegion (preemptNoted t v.gang g) u = rg := (gangRegion_preemptNoted t v.gang u.gang g).trans region
  have vector : effTrapvec (preemptNoted t v.gang g) rg = vec := hv
  have entered := takeTrap_enter ⟨cPREEMPT, 0, v.stopPC, tresume, BitVec.ofNat 64 (csaBase g.index), false⟩
    (show getWave (preemptNoted t v.gang g) wid = some u from here) hu (by rw [region', vector]; exact nonzero)
  rw [region', vector, enterTrap_eq_trapped] at entered
  rw [preemptMapped, entered]
  dsimp only
  rw [getWave_setWave]
  exact if_pos rfl

section
variable {s t : State} {wid rg : Nat} {v : Wave} {p : Pending} {rest : List Pending} (tresume : DWord) (here : getWave t wid = some v)
  (pend : v.pend = p :: rest) (hu : v.priv = .u) (region : waveRegion t v = rg)
include here pend hu region

theorem enterFirst_trap (hc : p.cause ≠ cPREEMPT) {vec : DWord} (vector : effTrapvec t rg = vec) (hv : vec ≠ 0) :
    enterFirst t wid v tresume = some (modWave t wid fun u =>
      { u with pend := rest, trapCtx := p.ctx, frozen := false }.trapped vec p.cause p.info (p.tpc.getD v.stopPC) tresume p.taddr
        (min v.log.length 4)) := by
  have popped : modWave t wid (fun w => { w with pend := rest }) = setWave t wid { v with pend := rest } := modWave_of_get _ here
  have freed : modWave (setWave t wid { v with pend := rest }) wid (fun w => { w with frozen := false, trapCtx := p.ctx }) =
      setWave t wid { v with pend := rest, trapCtx := p.ctx, frozen := false } := by
    rw [modWave_of_get _ (getWave_setWave _ _ _), setWave_setWave]
  have entered := takeTrap_enter ⟨p.cause, p.info, p.tpc.getD v.stopPC, tresume, p.taddr, false⟩
    (getWave_setWave t wid { v with pend := rest, trapCtx := p.ctx, frozen := false }) hu
    (show effTrapvec t (waveRegion t v) ≠ 0 by rwa [region, vector])
  rw [enterFirst, pend]
  dsimp only
  rw [if_neg hc, popped, freed, entered, setWave_setWave, enterTrap_eq_trapped, modWave_of_get _ here, ← vector, ← region]
  rfl

theorem enterFirst_preempt (hc : p.cause = cPREEMPT) :
    EntersPreempt t s wid { v with pend := rest, frozen := false } rg v.stopPC tresume
      (.next ((enterFirst t wid v tresume).getD s)) := by
  have freed : modWave (modWave t wid fun w => { w with pend := rest }) wid (fun w => { w with frozen := false }) =
      setWave t wid { v with pend := rest, frozen := false } := by
    rw [modWave_of_get _ here, modWave_of_get _ (getWave_setWave _ _ _), setWave_setWave]
  intro g hg hv base root halted mapped
  have hg' : fget (modWave t wid fun w => { w with pend := rest }).gangs v.gang = some g := hg
  have region' : gangRegion (modWave t wid fun w => { w with pend := rest }) v.gang = rg := region
  have shape : enterFirst t wid v tresume = mapped.bind (preemptMapped wid v tresume rg root g) := by
    rw [enterFirst, pend]
    dsimp only
    rw [if_pos hc, enterPreempt_of_gang hg', region', freed]
    rfl
  rw [shape]
  refine ⟨fun unmapped => by rw [unmapped]; rfl, ?_⟩
  intro t' at' here' region'' vector e noted
  have entry : mapped.bind (preemptMapped wid v tresume rg root g) = (writeDeviceItems noted root (dieOf g.core) base e).map
      fun y => modWave (askedBy y rg) wid fun w => { w with inSave := true } :=
    (congrArg (Option.bind · (preemptMapped wid v tresume rg root g)) at').trans
      (preemptMapped_eq tresume here' hu region'' vector hv)
  exact ⟨fun unwritten => congrArg (fun o => Host.Outcome.next (o.getD s)) (entry.trans (congrArg (Option.map _) unwritten)),
    fun y written => congrArg (fun o => Host.Outcome.next (o.getD s)) (entry.trans (congrArg (Option.map _) written))⟩

end

/-! ### The state in which a return acts -/

theorem sameUnits_retryContexts (s : State) (w : Wave) : SameUnits s (retryContexts s w) := by
  have first : SameUnits s (match w.trapCtx with
      | some k => modCtx s w.gang k fun c => { c.restart with stopped := false }
      | none => s) := by
    cases w.trapCtx with
    | none => exact .refl s
    | some k => exact sameUnits_modGang s w.gang fun _ => rfl
  cases hr : w.inRestore with
  | false =>
    simp only [retryContexts, hr, Bool.false_eq_true, if_false]
    exact first
  | true =>
    simp only [retryContexts, hr, if_true]
    exact first.trans (sameUnits_modGang _ w.gang fun _ => rfl)

theorem effTrapvec_retryContexts (s : State) (w : Wave) (r : Nat) : effTrapvec (retryContexts s w) r = effTrapvec s r := by
  unfold retryContexts
  cases w.trapCtx <;> cases w.inRestore <;> rfl

theorem sameUnits_closeRestore (s : State) (g : Nat) : SameUnits s (closeRestore s g) := by
  unfold closeRestore
  split
  · exact .refl s
  · split
    · exact (sameUnits_unmapRange s _ _ _ _).trans (sameUnits_modGang _ g fun _ => rfl)
    · exact .refl s

theorem modGang_modGang (s : State) (k : Nat) (f g : Gang → Gang) : modGang (modGang s k f) k g = modGang s k fun x => g (f x) := by
  have same : fmod (fmod s.gangs k f) k g = fmod s.gangs k fun x => g (f x) := by
    cases hk : fget s.gangs k with
    | none => simp only [fmod, hk]
    | some x => rw [fmod_of_get f hk, fmod_of_get _ hk, fmod_of_get g (fget_fset_same _ _ _), fset_fset]
  simp only [modGang, same]

theorem waveRegion_groupsRead (s : State) (u x : Wave) (gs : List Group) : waveRegion (groupsRead s u gs) x = waveRegion s x := by
  obtain ⟨m, p, frame⟩ := groupsRead_frame s u gs
  rw [frame]
  rfl

theorem effTrapvec_groupsRead (s : State) (u : Wave) (gs : List Group) (r : Nat) : effTrapvec (groupsRead s u gs) r = effTrapvec s r := by
  obtain ⟨m, p, frame⟩ := groupsRead_frame s u gs
  rw [frame]
  rfl

theorem woken_stands {u : Wave} (stands : ∃ l ∈ laneIdx, u.lane l ≠ .exited) (n : Nat) (g : Group) (word : Word × DWord)
    (r : WaitResult) (ready : Nat) : ∃ l ∈ laneIdx, (u.woken n g word r ready).lane l ≠ .exited := by
  obtain ⟨l, hl, left⟩ := stands
  refine ⟨l, hl, ?_⟩
  rw [Wave.lane, woken_lanes, laneTable _ _ _ (mem_laneIdx.mp hl)]
  split_ifs
  · exact LaneState.noConfusion
  · exact left

/-! ### A return out of a handler that is no restore's -/

section
variable {s x t : State} {wid : Nat} {w u : Wave} {pc : DWord} {iss : Word} {ws : List Word} {m : DWord} (h : Stands s wid w pc iss ws)
  (p : Passes w { cls := 17, priv := true } ws) (plain : w.inRestore = false) (held : HeldAt w m) (retry : retryContexts s w = x)
include h plain held retry

theorem restoredState_of_plain : restoredState s wid w = setWave x wid (w.resumedAt m) := by
  have here : getWave (retryContexts s w) wid = some w := ((sameUnits_retryContexts s w).getWave wid).trans h.here
  simp only [restoredState, plain, Bool.false_eq_true, if_false]
  rw [modWave_of_get _ here, resumeHeld_eq held, retry]

variable (reads : reevaluate 64 (setWave x wid (w.resumedAt m)) wid 0 = t) (here : getWave t wid = some u)
  (stands : ∃ l ∈ laneIdx, u.lane l ≠ .exited)
include p reads here stands

theorem ereturn_ends : exec .ereturn s = .next ((if u.pend = [] then
    some (replay 4 (resumes s.time wid (waveRegion s w) t u.afresh) wid)
    else enterFirst (resumes s.time wid (waveRegion s w) t u) wid (u.readyFrom s.time) w.tresume).getD s) := by
  have acts : returnState s wid w = some s := by simp [returnState, restoreReady, plain]
  have same : SameUnits s x := retry ▸ sameUnits_retryContexts s w
  rw [exec_ereturn h p, acts]
  exact congrArg (fun o => Host.Outcome.next (o.getD s))
    (returnFromTrap_eq (restoredState_of_plain h plain held retry) reads here same.time (same.gangRegion w.gang) stands)

theorem ereturn_replays (pend : u.pend = []) :
    exec .ereturn s = .next (replay 4 (resumes s.time wid (waveRegion s w) t u.afresh) wid) := by
  rw [ereturn_ends h p plain held retry reads here stands, if_pos pend]
  rfl

theorem ereturn_goes_on (pend : u.pend = []) (log : u.log = []) :
    exec .ereturn s = .next (resumes s.time wid (waveRegion s w) t u) := by
  rw [ereturn_replays h p plain held retry reads here stands pend, afresh_of_log_nil log,
    replay_of_log_nil (getWave_resumes _ _ _ _ _) log]

theorem ereturn_enters (pend : u.pend ≠ []) : exec .ereturn s =
    .next ((enterFirst (resumes s.time wid (waveRegion s w) t u) wid (u.readyFrom s.time) w.tresume).getD s) := by
  rw [ereturn_ends h p plain held retry reads here stands, if_neg pend]

omit reads here stands in
/-- Where the wave's only group has a result, the return goes on with the group awake. -/
theorem ereturn_wakes {g : Group} {r : WaitResult} (one : w.groups = [g])
    (read : settleWait (setWave x wid (w.resumedAt m)) (w.resumedAt m) g.on = t)
    (result : groupResult t (w.resumedAt m) g = some r) (pend : w.pend = []) (log : w.log = []) : ∃ q ready,
    exec .ereturn s = .next (resumes s.time wid (waveRegion s w) (wakeGroup t wid 0 r)
      ({ w.resumedAt m with queued := q }.woken 0 g (groupWord t (w.resumedAt m) g) r ready)) := by
  subst read
  have start : getWave (setWave x wid (w.resumedAt m)) wid = some (w.resumedAt m) := getWave_setWave _ _ _
  have only : (w.resumedAt m).groups = [g] := one
  obtain ⟨q, ready, woken⟩ := getWave_wakeGroup ((getWave_settleWait _ _ g.on wid).trans start) (congrArg (·[0]?) only) r
  have reads := reevaluate_one start only result 63
  exact ⟨q, ready, ereturn_goes_on h p plain held retry reads woken
    (woken_stands (u := { w.resumedAt m with queued := q }) (resumedAt_stands held) 0 g _ r ready)
    (by simp [Wave.woken, Wave.resumedAt, pend]) (by simp [Wave.woken, Wave.resumedAt, log])⟩

end

/-! ### A return that ends a restore (R381) -/

/-- A wave with the scratch registers that its block holds. -/
def Wave.withScratch (w : Wave) (bs : List (BitVec 8)) : Wave :=
  let ld := fun k => BitVec.ofNat 64 (fieldAt bs (8 * k) 8)
  { w with scra := ld 0, scrb := ld 1, scrc := ld 2, scrd := ld 3 }

/-- A gang with a wave of it returned, its contexts that creplay re-entered stopped about to retry. -/
def Gang.withReturned (g : Gang) (idx : Nat) : Gang :=
  { g with
    returned := idx :: g.returned
    ctxs := g.ctxs.map fun c => if c.retry then { c.restart with stopped := false, retry := false } else c }

/-- A restored wave back in U mode at a state, and its gang. -/
def backFromRestore (s : State) (wid : Nat) (w : Wave) (u : Wave) : State :=
  modGang (setWave s wid u) w.gang fun g => g.withReturned w.idx

theorem gang_backFromRestore {s : State} {w : Wave} {g : Gang} (wid : Nat) (u : Wave) (gang : fget s.gangs w.gang = some g) :
    fget (backFromRestore s wid w u).gangs w.gang = some (g.withReturned w.idx) := by
  show fget (fmod s.gangs w.gang _) w.gang = _
  rw [fmod_of_get _ gang, fget_fset_same]

section
variable {s : State} {wid : Nat} {w : Wave} {gg : Gang} {l : Nat} {lw : Wave} (restore : w.inRestore = true)
  (gang : fget s.gangs w.gang = some gg) (leader : leaderOf s w.gang = some (l, lw))
include restore gang leader

theorem restoreReady_iff : restoreReady s w = true ↔ gg.replayed = true ∧ appendsInFlight s l = 0 ∧
    rangeHeld s (effPtroot s (gangRegion s w.gang)) (csaBase gg.index) (csaPages gg) = false := by
  simp only [restoreReady, restore, gang, leader, Bool.not_true, Bool.false_or, Bool.and_eq_true, Bool.not_eq_true', beq_iff_eq]
  tauto

theorem returnState_of_not_ready (h : gg.replayed = false ∨ appendsInFlight s l ≠ 0 ∨
    rangeHeld s (effPtroot s (gangRegion s w.gang)) (csaBase gg.index) (csaPages gg) = true) : returnState s wid w = none := by
  have waits : restoreReady s w = false := by
    rw [← Bool.not_eq_true, restoreReady_iff restore gang leader]
    rintro ⟨replayed, performed, free⟩
    simp [replayed, performed, free] at h
  simp [returnState, waits]

theorem returnState_of_ready (replayed : gg.replayed = true) (performed : appendsInFlight s l = 0)
    (free : rangeHeld s (effPtroot s (gangRegion s w.gang)) (csaBase gg.index) (csaPages gg) = false) : returnState s wid w =
    (csaLoad false s (effPtroot s (waveRegion s w)) (dieOf gg.core) (csaBase gg.index + waveBlock w.idx + 0x4600) 32).made.map
      fun r => modGang (modWave (askedBy r.2 (waveRegion s w)) wid fun w => w.withScratch r.1) w.gang
        fun g => { g with returned := w.idx :: g.returned } := by
  have ready : restoreReady s w = true := (restoreReady_iff restore gang leader).mpr ⟨replayed, performed, free⟩
  have shape : returnState s wid w = if !restoreReady s w then none else if !w.inRestore then some s else
      (fget s.gangs w.gang).bind fun g => (csaLoad false s (effPtroot s (waveRegion s w)) (dieOf g.core)
        (csaBase g.index + waveBlock w.idx + 0x4600) 32).made.map fun r =>
          modGang (modWave (askedBy r.2 (waveRegion s w)) wid fun w => w.withScratch r.1) w.gang
            fun g => { g with returned := w.idx :: g.returned } := rfl
  rw [shape, if_neg (by simp [ready]), if_neg (by simp [restore]), gang, Option.bind_some]

end

theorem askedBy_gangs (s : State) (r : Nat) : (askedBy s r).gangs = s.gangs := by
  unfold askedBy
  split <;> rfl

section
variable {s1 : State} {wid : Nat} {w : Wave} {g1 : Gang} {m : DWord} {bs : List (BitVec 8)} (restore : w.inRestore = true)
  (here : getWave s1 wid = some w) (held : HeldAt w m) (ctx : w.trapCtx = none)
include restore here held ctx

/-- The state of a wave that has returned from a restore, its gang's end of it still to come. -/
theorem restoredState_of_restore :
    restoredState (modGang (modWave s1 wid fun w => w.withScratch bs) w.gang fun g => { g with returned := w.idx :: g.returned }) wid w =
      closeRestore (backFromRestore s1 wid w ((w.resumedAt m).withScratch bs)) w.gang := by
  have loaded : modWave s1 wid (fun w => w.withScratch bs) = setWave s1 wid (w.withScratch bs) := modWave_of_get _ here
  have resumed : (w.withScratch bs).resumeHeld = (w.resumedAt m).withScratch bs := resumeHeld_eq (w := w.withScratch bs) held
  have retried : retryContexts (modGang (setWave s1 wid (w.withScratch bs)) w.gang fun g => { g with returned := w.idx :: g.returned }) w =
      backFromRestore s1 wid w (w.withScratch bs) := by
    simp only [retryContexts, ctx, restore, if_true, modGang_modGang]
    rfl
  have back : modWave (backFromRestore s1 wid w (w.withScratch bs)) wid Wave.resumeHeld =
      backFromRestore s1 wid w ((w.resumedAt m).withScratch bs) := by
    have there : getWave (backFromRestore s1 wid w (w.withScratch bs)) wid = some (w.withScratch bs) := getWave_setWave s1 wid _
    rw [modWave_of_get _ there, resumed]
    have same := setWave_setWave s1 wid (w.withScratch bs) ((w.resumedAt m).withScratch bs)
    exact congrArg (modGang · w.gang fun g => g.withReturned w.idx) same
  simp only [restoredState, restore, if_true]
  rw [loaded, retried, back]

end

section
variable {t : State} {gid : Nat} {g : Gang} (gang : fget t.gangs gid = some g)
include gang

theorem closeRestore_of_open (h : (∃ p ∈ gangWaves t gid, p.2.inRestore = true) ∨ g.restoring = false) : closeRestore t gid = t := by
  have goes : (g.restoring && !(gangWaves t gid).any fun p => p.2.inRestore) = false := by
    rw [← List.any_eq_true] at h
    rcases h with h | h <;> simp [h]
  simp only [closeRestore, gang, goes, Bool.false_eq_true, if_false]

theorem closeRestore_of_last (last : ¬ ∃ p ∈ gangWaves t gid, p.2.inRestore = true) (h : g.restoring = true) : closeRestore t gid =
    modGang (unmapRange t (effPtroot t (gangRegion t gid)) (gangRegion t gid) (csaBase g.index) (csaPages g)) gid
      fun g => { g with restoring := false, replayed := false, csa := false, returned := [] } := by
  have ends : (g.restoring && !(gangWaves t gid).any fun p => p.2.inRestore) = true := by
    rw [← List.any_eq_true, Bool.not_eq_true] at last
    simp [last, h]
  simp only [closeRestore, gang, ends, if_true]

end

section
variable {s s1 : State} {wid : Nat} {w : Wave} {pc : DWord} {iss : Word} {ws : List Word} {m : DWord} {g1 : Gang}
  {bs : List (BitVec 8)} (h : Stands s wid w pc iss ws) (p : Passes w { cls := 17, priv := true } ws) (restore : w.inRestore = true)
  (held : HeldAt w m) (ctx : w.trapCtx = none) (groups : w.groups = []) (pend : w.pend = []) (log : w.log = [])
  (same : SameUnits s s1)
  (acts : returnState s wid w = some (modGang (modWave (askedBy s1 (waveRegion s w)) wid fun w => w.withScratch bs) w.gang
    fun g => { g with returned := w.idx :: g.returned }))
include h p restore held ctx groups pend log same acts

/-- A return out of a restore's handler, its load made, goes on where the restore's end leaves it. -/
theorem ereturn_restored : exec .ereturn s = .next (resumes s.time wid (waveRegion s w)
    (closeRestore (backFromRestore (askedBy s1 (waveRegion s w)) wid w ((w.resumedAt m).withScratch bs)) w.gang)
    ((w.resumedAt m).withScratch bs)) := by
  obtain ⟨x, hx⟩ : ∃ x, x = askedBy s1 (waveRegion s w) := ⟨_, rfl⟩
  obtain ⟨u, hu⟩ : ∃ u, u = (w.resumedAt m).withScratch bs := ⟨_, rfl⟩
  have units : SameUnits s x := hx ▸ same.trans (sameUnits_askedBy s1 _)
  rw [exec_ereturn h p, acts, ← hx, ← hu, Option.bind_some]
  have closed := restoredState_of_restore (bs := bs) restore ((units.getWave wid).trans h.here) held ctx
  rw [← hu] at closed
  have back : SameUnits (setWave x wid u) (closeRestore (backFromRestore x wid w u) w.gang) :=
    (sameUnits_modGang (setWave x wid u) w.gang (f := fun g => g.withReturned w.idx) fun _ => rfl).trans
      (sameUnits_closeRestore (backFromRestore x wid w u) w.gang)
  have here : getWave (closeRestore (backFromRestore x wid w u) w.gang) wid = some u := (back.getWave wid).trans (getWave_setWave x wid u)
  have reads : reevaluate 64 (closeRestore (backFromRestore x wid w u) w.gang) wid 0 = closeRestore (backFromRestore x wid w u) w.gang :=
    reevaluate_past here (by rw [hu]; exact congrArg (·[0]?) groups) 64
  rw [returnFromTrap_goes_on closed reads here (back.time.trans units.time)
    ((back.gangRegion w.gang).trans (units.gangRegion w.gang)) (hu ▸ resumedAt_stands held) (hu ▸ pend) (hu ▸ log)]
  rfl

end

/-- Settles O41: the held state is `resumedAt`, each parked group is read or wakes, and the return goes on in `resumes`, or enters
the trap that is pending. -/
theorem trapReturnResumes : Obligations.TrapReturnResumes := by
  unfold Obligations.TrapReturnResumes
  intro s wid w pc iss ws m h p length live attained least rg back fresh retried t ends afresh read
  have held : HeldAt w m := ⟨length, attained, least⟩
  have at' : getWave t wid = some back := getWave_setWave _ _ _
  have stands : ∃ l ∈ laneIdx, back.lane l ≠ .exited := resumedAt_stands held
  have retry (plain : w.inRestore = false) : retryContexts s w = retried := by
    simp only [retryContexts, plain, Bool.false_eq_true, if_false, retried]
    cases w.trapCtx <;> rfl
  have region (plain : w.inRestore = false) : waveRegion t back = rg :=
    (retry plain ▸ sameUnits_retryContexts s w).gangRegion w.gang
  refine ⟨?plain, ?restore, ?wakes⟩
  case plain =>
    intro plain unmet t'
    have reads : reevaluate 64 t wid 0 = t' := reevaluate_none at' 64 0 fun j g hj hg => unmet j g (by omega) hg
    have here : getWave t' wid = some back := (getWave_groupsRead t back _ wid).trans at'
    have region' : waveRegion (resumes s.time wid rg t' back) (back.readyFrom s.time) = rg :=
      (waveRegion_groupsRead t back back _).trans (region plain)
    have vector : effTrapvec (resumes s.time wid rg t' back) rg = effTrapvec s rg := by
      rw [effTrapvec_resumes]
      refine (effTrapvec_groupsRead t back _ rg).trans ?_
      exact (congrArg (effTrapvec · rg) (retry plain).symm).trans (effTrapvec_retryContexts s w rg)
    refine ⟨fun pend => ?_, fun pend log => ?_, fun q rest pend hc hv => ?_, fun q rest pend hc => ?_⟩
    · exact ereturn_replays h p plain held (retry plain) reads here stands pend
    · exact ereturn_goes_on h p plain held (retry plain) reads here stands pend log
    all_goals
      have pending : back.pend ≠ [] := fun none' => List.cons_ne_nil q rest (pend.symm.trans none')
      rw [ereturn_enters h p plain held (retry plain) reads here stands pending]
    · have entered := enterFirst_trap (t := resumes s.time wid rg t' back) (v := back.readyFrom s.time) w.tresume
        (getWave_resumes _ _ _ _ _) pend rfl region' hc vector hv
      exact congrArg (fun o => Host.Outcome.next (o.getD s)) entered
    · exact enterFirst_preempt (v := back.readyFrom s.time) w.tresume (getWave_resumes _ _ _ _ _) pend rfl region' hc
  case restore =>
    intro restore gg l lw gang leader csaHeld
    refine ⟨fun waits => ?_, fun replayed performed free => ?_⟩
    · have none' := returnState_of_not_ready (wid := wid) restore gang leader waits
      rw [exec_ereturn h p, none']
      rfl
    intro saved
    refine ⟨fun unmade => ?_, ?_⟩
    · rw [exec_ereturn h p, returnState_of_ready restore gang leader replayed performed free,
        show (csaLoad _ _ _ _ _ _).made = none from unmade]
      rfl
    · intro bs s1 g1 loaded here gang1 ctx groups pend log scratch back' t' others
      have made : saved.made = some (bs, s1) := congrArg CsaAccess.made loaded
      have acts := (returnState_of_ready (wid := wid) restore gang leader replayed performed free).trans (congrArg (Option.map _) made)
      have goes := ereturn_restored (bs := bs) h p restore held ctx groups pend log (sameUnits_csaLoad loaded) acts
      have gang' : fget t'.gangs w.gang = some (g1.withReturned w.idx) :=
        gang_backFromRestore wid back' ((congrArg (fget · w.gang) (askedBy_gangs s1 rg)).trans gang1)
      have ended {c : State} (hc : closeRestore t' w.gang = c) : exec .ereturn s = .next (ends c back') :=
        goes.trans (congrArg (fun c => Host.Outcome.next (ends c back')) hc)
      exact ⟨fun stays => ended (closeRestore_of_open gang' stays),
        fun last restoring => ended (closeRestore_of_last (g := g1.withReturned w.idx) gang' last restoring)⟩
  case wakes =>
    intro g r plain one result pend log t' word sd
    have read' : settleWait t back g.on = t' := by
      show _ = (w.groups.take 1).foldl _ t
      rw [one]
      rfl
    have at'' : getWave t' wid = some back := by rw [← read', getWave_settleWait, at']
    have word' : groupWord t' back g = word := by
      rw [groupWord, show waveRegion t' back = rg from (waveRegion_groupsRead t back back _).trans (region plain)]
    obtain ⟨q, ready, goes⟩ := ereturn_wakes h p plain held (retry plain) one read' result pend log
    rw [show groupWord t' (w.resumedAt m) g = word from word'] at goes
    generalize hu : ({ w.resumedAt m with queued := q } : Wave) = u at goes
    refine ⟨_, _, goes, getWave_resumes _ _ _ _ _, ?_, ?_, (woken_lanes u 0 g word r ready).trans ?_,
      (woken_pcs u 0 g word r ready).trans ?_, (woken_s u 0 g word r ready).trans (writeS_s_congr (writeS_s_congr ?_ _ _) _ _),
      (woken_v u 0 g word r ready).trans ?_, (woken_p u 0 g word r ready).trans ?_, (woken_t u 0 g word r ready).trans ?_,
      wakeGroup_mem at'' (congrArg (·[0]?) one) r⟩
    · show (u.woken 0 g word r ready).priv = .u
      simp [Wave.woken, ← hu, Wave.resumedAt]
    · exact (woken_groups u 0 g word r ready).trans (by rw [← hu]; exact congrArg (·.eraseIdx 0) one)
    all_goals
      subst hu
      rfl

end Sys2Proof.Machine

/-! SUPPORT. The fields of a handle and its check (spec/13 R234, R235), and O34. -/

namespace Sys2Proof.Machine

open Sys2Proof

/-! ### The fields of a handle (Table 13.8) -/

theorem hIndex_eq (h : DWord) : hIndex h = (h.extractLsb' 0 20).toNat := by simp [hIndex]

theorem hGen_eq (h : DWord) : hGen h = (h.extractLsb' 20 20).toNat := by simp [hGen, Nat.shiftRight_eq_div_pow]

theorem hType_eq (h : DWord) : hType h = (h.extractLsb' 40 8).toNat := by simp [hType, Nat.shiftRight_eq_div_pow]

theorem hRights_eq (h : DWord) : hRights h = (h.extractLsb' 48 8).toNat := by simp [hRights, Nat.shiftRight_eq_div_pow]

theorem hHome_eq (h : DWord) : hHome h = (h.extractLsb' 56 2).toNat := by simp [hHome, Nat.shiftRight_eq_div_pow]

theorem handle_reserved_iff (h : DWord) : (h.toNat / 2 ^ 58 ≠ 0 ∨ h.toNat / 2 ^ 53 % 8 ≠ 0) ↔
    (h.extractLsb' 58 6 ≠ 0 ∨ h.extractLsb' 53 3 ≠ 0) := by
  have high : h.toNat / 2 ^ 58 % 2 ^ 6 = h.toNat / 2 ^ 58 := Nat.mod_eq_of_lt (by omega)
  simp only [ne_eq, BitVec.toNat_eq, BitVec.extractLsb'_toNat, Nat.shiftRight_eq_div_pow, high]
  rfl

/-! ### The check (R235) -/

/-- The entry is the one that the handle was made for. -/
def handleNames (h : DWord) (e : Entry) : Prop := e.gen = hGen h ∧ e.type = hType h ∧ e.home = hHome h

/-- The handle has no right beyond its entry's, its holder lies on the region's path, and it has every right needed. -/
def handleAble (s : State) (rg : Nat) (h : DWord) (e : Entry) (need : Nat) : Prop :=
  hRights h &&& (255 - e.rights) = 0 ∧ e.holder ∈ regionPath s rg ∧ need &&& (255 - hRights h) = 0

section
variable {s : State} {rg : Nat} {h : DWord} {types : List Nat} {need : Nat} {e : Entry}

theorem checkHandle_reserved (hr : h.extractLsb' 58 6 ≠ 0 ∨ h.extractLsb' 53 3 ≠ 0) :
    checkHandle s rg h types need = .error stBADARG := if_pos ((handle_reserved_iff h).mpr hr)

variable (clear : ¬ (h.extractLsb' 58 6 ≠ 0 ∨ h.extractLsb' 53 3 ≠ 0))
include clear

theorem checkHandle_missing (he : fget s.entries (hIndex h) = none) : checkHandle s rg h types need = .error stSTALE := by
  rw [checkHandle, if_neg (mt (handle_reserved_iff h).mp clear), he]

theorem checkHandle_entry (he : fget s.entries (hIndex h) = some e) [Decidable (handleNames h e)]
    [Decidable (handleAble s rg h e need)] : checkHandle s rg h types need =
      if ¬ handleNames h e then .error stSTALE else if hType h ∉ types then .error stBADARG
      else if ¬ handleAble s rg h e need then .error stRIGHTS else if objectDead s e then .error stDEAD else .ok e := by
  rw [checkHandle, if_neg (mt (handle_reserved_iff h).mp clear), he]
  refine if_congr ?_ rfl (if_congr ?_ rfl (if_congr ?_ rfl rfl))
  · simp only [handleNames, ne_eq, not_and_or]
  · simp
  · simp only [handleAble, within, ne_eq, not_and_or, Bool.not_eq_true', ← Bool.not_eq_true, List.contains_iff_mem]

end

/-- Settles O34: the clauses are the tests of `checkHandle` in their order. -/
theorem handleCheckOrder : Obligations.HandleCheckOrder := by
  unfold Obligations.HandleCheckOrder
  intro s rg h types need e? typ rights
  refine ⟨checkHandle_reserved, fun high low => ?_⟩
  have clear : ¬ (h.extractLsb' 58 6 ≠ 0 ∨ h.extractLsb' 53 3 ≠ 0) := by simp [high, low]
  rw [show e? = fget s.entries (hIndex h) by rw [hIndex_eq]]
  refine ⟨checkHandle_missing clear, ?_⟩
  intro e he same able
  classical
  have same_iff : handleNames h e ↔ same := by simp only [handleNames, hGen_eq, hType_eq, hHome_eq]; rfl
  have able_iff : handleAble s rg h e need ↔ able := by simp only [handleAble, hRights_eq]; rfl
  rw [checkHandle_entry clear he, hType_eq, same_iff, able_iff]
  refine ⟨fun hs => if_pos hs, fun hs ht => ?_, fun hs ht ha => ?_, fun hs ht ha hd => ?_, fun hs ht ha hd => ?_⟩
  · rw [if_neg (not_not.mpr hs), if_pos ht]; rfl
  · rw [if_neg (not_not.mpr hs), if_neg (not_not.mpr ht), if_pos ha]; rfl
  · rw [if_neg (not_not.mpr hs), if_neg (not_not.mpr ht), if_neg (not_not.mpr ha), if_pos hd]; rfl
  · rw [if_neg (not_not.mpr hs), if_neg (not_not.mpr ht), if_neg (not_not.mpr ha), if_neg (Bool.eq_false_iff.mp hd)]

end Sys2Proof.Machine

/-! SUPPORT. How an instruction of class 27 or 28 ends (spec/13 R236, R238), and O35. -/

namespace Sys2Proof.Machine

open Sys2Proof

/-! ### What an object instruction comes to (R236, R238) -/

/-- The state after an instruction of class 27 or 28 that reached `t` and reports a status other than OK (R236). -/
def refused (t : State) (form : ObjForm) (v : Env) (st : Nat) : State :=
  if form.d = 0 then takeTrap t v.wid ⟨cOBJ, st, v.pc, v.pc, 0, false⟩
  else completedIn (modWave t v.wid fun u => u.report form.d form.val st 0) (form.info v.w v.pfx) v

/-- The state after an instruction of class 27 or 28 that began in `s`, by what it came to. -/
def objEnded (s : State) (form : ObjForm) (v : Env) : ObjRes → State
  | .ok t x => reported t form v x
  | .fail st => refused s form v st
  | .failed t st => refused t form v st
  | .due t on => completedIn (if form.d = 0 then t else modWave t v.wid fun u =>
      { u with dues := u.dues ++ [⟨form.d, on⟩] }) (form.info v.w v.pfx) v
  | .hold => s
  | .await vas => { s with wants := vas }
  | .under t => t
  | .trap c i a => takeTrap s v.wid ⟨c, i, v.pc, v.pc, a, false⟩
  | .raw t => t

/-- Whether a firmware restart keeps an instruction from beginning: class 27 gives AGAIN, but for a send that has gone out (R238). -/
def restartBars (form : ObjForm) (v : Env) (s : State) : Prop :=
  form.cls = 27 ∧ s.host.bootstate = 4 ∧ openSend s v.wid v.pc = none

section
variable {form : ObjForm} {f : Env → State → ObjRes} {s : State} {wid : Nat} {w : Wave} {pc : DWord} {iss : Word} {ws : List Word}
  (h : Stands s wid w pc iss ws) (p : Passes w (form.info w ws) ws) (hc : form.cls = 27 ∨ form.cls = 28)
include h p hc

/-- What is reported ends the issue as `objEnded` says. -/
theorem issue_objReport {r : ObjRes} {body : Env → State → Res}
    (hb : body (sees wid w pc iss ws (form.info w ws)) s =
      objReport (sees wid w pc iss ws (form.info w ws)) form.d form.val s r) :
    issue s form.info body = objEnded s form (sees wid w pc iss ws (form.info w ws)) r := by
  have other : ¬ (18 ≤ (form.info w ws).cls ∧ (form.info w ws).cls ≤ 23) := by
    rcases hc with e | e <;> simp [ObjForm.info, e]
  have failing : ∀ t st, ended' s wid w pc (form.info w ws) (sees wid w pc iss ws (form.info w ws))
      (failReport (sees wid w pc iss ws (form.info w ws)) form.d form.val t st) =
      refused t form (sees wid w pc iss ws (form.info w ws)) st := by
    intro t st
    unfold failReport refused
    split
    · simp only [ended', other, decide_false, Bool.and_false, Bool.false_eq_true, if_false]
      rfl
    · rfl
  rw [issue_of_passes h p, hb]
  cases r with
  | fail st => exact failing s st
  | failed t st => exact failing t st
  | trap c i a =>
    simp only [objReport, ended', other, decide_false, Bool.and_false, Bool.false_eq_true, if_false]
    rfl
  | _ => rfl

theorem objOp_barred (hr : restartBars form (sees wid w pc iss ws (form.info w ws)) s) :
    objOp form f s = refused s form (sees wid w pc iss ws (form.info w ws)) stAGAIN :=
  issue_objReport h p hc (r := .fail stAGAIN) (congrArg _ (if_pos ⟨hr.1, hr.2.1, by rw [hr.2.2]; rfl⟩))

theorem objOp_ends (hr : ¬ restartBars form (sees wid w pc iss ws (form.info w ws)) s) :
    objOp form f s = objEnded s form (sees wid w pc iss ws (form.info w ws)) (f (sees wid w pc iss ws (form.info w ws)) s) :=
  issue_objReport h p hc (congrArg _ (if_neg fun ⟨e, b, n⟩ => hr ⟨e, b, Option.isNone_iff_eq_none.mp n⟩))

end

section
variable {i : Instr} {form : ObjForm} {f : Env → State → ObjRes} {c : Env → State → Prop} {t : Env → State → State}
  (he : ∀ s, exec i s = .next (objOp form f s)) (hc : form.cls = 27 ∨ form.cls = 28)
include he hc

theorem doesWhen_objOp (hr : ∀ v s, c v s → ¬ restartBars form v s) (ht : ∀ v s, c v s → objEnded s form v (f v s) = t v s) :
    DoesWhen i form.info c t := fun s _ _ _ _ _ h p cond =>
  (he s).trans (congrArg _ ((objOp_ends h p hc (hr _ s cond)).trans (ht _ s cond)))

theorem doesWhen_running {r : Env → State → ObjRes} (hf : ∀ v s, c v s → f v s = r v s) :
    DoesWhen i form.info (fun v s => (form.cls = 27 → s.host.bootstate ≠ 4) ∧ c v s) fun v s => objEnded s form v (r v s) :=
  doesWhen_objOp he hc (fun _ _ ⟨runs, _⟩ ⟨e, b, _⟩ => runs e b) fun v s ⟨_, cond⟩ => congrArg _ (hf v s cond)

theorem reports_objOp {x : Env → State → Nat} (hf : ∀ v s, c v s → f v s = .ok (t v s) (x v s)) : Reports i form c t x :=
  doesWhen_running he hc hf

theorem fails_objOp {st : Nat} (hf : ∀ v s, c v s → f v s = .fail st) : Fails i form st c :=
  doesWhen_running he hc hf

theorem failsIn_objOp {st : Nat} (hf : ∀ v s, c v s → f v s = .failed (t v s) st) : Fails i form st c t :=
  doesWhen_running he hc hf

end

/-- A word that fails with a status where it runs, and gives AGAIN in a firmware restart (R238). -/
theorem refuses_objOp {i : Instr} {form : ObjForm} {f : Env → State → ObjRes} {c : Env → State → Prop} {st : Nat}
    (he : ∀ s, exec i s = .next (objOp form f s)) (hc : form.cls = 27 ∨ form.cls = 28)
    (hf : ∀ v s, openSend s v.wid v.pc = none → c v s → f v s = .fail st) :
    DoesWhen i form.info (fun v s => openSend s v.wid v.pc = none ∧ ((form.cls = 27 ∧ s.host.bootstate = 4 ∧ st = 1) ∨
      ((form.cls = 27 → s.host.bootstate ≠ 4) ∧ c v s))) fun v s => refused s form v st := by
  intro s wid w pc iss ws h p ⟨new, cond⟩
  refine (he s).trans (congrArg _ ?_)
  rcases cond with ⟨cls, restart, rfl⟩ | ⟨runs, cond⟩
  · exact objOp_barred h p hc ⟨cls, restart, new⟩
  · rw [objOp_ends h p hc fun ⟨e, b, _⟩ => runs e b, hf _ s new cond]
    rfl

/-! ### The form of rspawn (R242) -/

/-- The form of rspawn: it reads Sb only where sb names a region's handle (R242). -/
def rspawnForm (d a b : BitVec 7) : ObjForm :=
  { cls := 27, d := d.toNat, val := true, rs := pairRun a :: if b = 0 then [] else [pairRun b], da := [pairRun a]
    db := if b = 0 then [] else [pairRun b], bad := oddReg a || oddReg b }

theorem rspawnForm_own (d a : BitVec 7) : rspawnForm d a 0 =
    { cls := 27, d := d.toNat, val := true, rs := [pairRun a], da := [pairRun a], bad := oddReg a } := by
  simp [rspawnForm, oddReg]

theorem rspawnForm_region {d a b : BitVec 7} (hb : b ≠ 0) : rspawnForm d a b =
    { cls := 27, d := d.toNat, val := true, rs := [pairRun a, pairRun b], da := [pairRun a], db := [pairRun b]
      bad := oddReg a || oddReg b } := by
  simp only [rspawnForm, if_neg hb]

/-- Settles O35: each instruction checks its handle first, and those without one give only AGAIN; psend, pgrant and precv find theirs in
a slot of the gang's table. -/
theorem failedHandlesReport : Obligations.FailedHandlesReport := by
  unfold Obligations.FailedHandlesReport
  intro d a b k st _ reports fails slotFails again one two withWord withPair send
  have never : ∀ {i : Instr} {form : ObjForm} {f : Env → State → ObjRes}, (∀ s, exec i s = .next (objOp form f s)) →
      form.cls = 27 ∨ form.cls = 28 → again i form := fun he hc => refuses_objOp he hc fun _ _ _ bad => bad.elim
  have handle : ∀ {i : Instr} {form : ObjForm} {f : Env → State → ObjRes} {n : BitVec 7} {types : List Nat} {need : Nat},
      (∀ s, exec i s = .next (objOp form f s)) → form.cls = 27 ∨ form.cls = 28 →
      (∀ v s, v.check s n.toNat types need = .error st → f v s = .fail st) → fails i form n types need :=
    fun he hc hf => refuses_objOp he hc fun v s _ => hf v s
  refine ⟨?wexit, ?oclose, ?oinfo, ?wsadd, ?wsdel, ?tarm, ?tcancel, ?aseal, ?afree, ?atail, ?odup, ?odupHolder, ?rspawn, ?psend,
    ?pgrant, ?precv, ?pslot, ?preg, ?rgnew, ?rgset, ?ckmark, ?wspawn, ?rspawnOwn, ?wsnew, ?tnew, ?pnew, ?pname, ?anew⟩
  case wspawn | wsnew | tnew | pnew | pname | anew => exact never (fun _ => rfl) (.inl rfl)
  case rspawnOwn =>
    rintro rfl
    have form : { one with val := true } = rspawnForm d a 0 := (rspawnForm_own d a).symm
    rw [form]
    exact never (fun _ => rfl) (.inl rfl)
  case wexit | oclose | oinfo | wsadd | wsdel | tarm | tcancel | aseal | afree | atail | odup | rgnew | rgset =>
    exact handle (fun _ => rfl) (.inl rfl) fun v s hh => by simp only [hh]
  case ckmark => exact handle (fun _ => rfl) (.inr rfl) fun v s hh => by simp only [hh]
  case preg =>
    refine handle (fun _ => rfl) (.inl rfl) fun v s hh => ?_
    rw [Env.check] at hh
    simp only [hh]
  case odupHolder =>
    refine refuses_objOp (fun _ => rfl) (.inl rfl) fun v s _ ⟨⟨e, hh⟩, hm, hz, hr⟩ => ?_
    simp only [Env.check, hh, hr, if_neg hz, Nat.div_eq_of_lt hm, ne_eq, not_true_eq_false, if_false]
  case rspawn =>
    intro hb
    have form : { two with val := true } = rspawnForm d a b := (rspawnForm_region hb).symm
    rw [form]
    exact handle (fun _ => rfl) (.inl rfl) fun v s hh => by simp only [if_neg hb, hh, Except.map]
  case psend | pgrant =>
    refine refuses_objOp (fun _ => rfl) (.inl rfl) fun v s new hh => ?_
    simp only [sendOp, new, sendNew]
    cases hs : slotHandle s v.w (b.toNat % 64) with
    | none =>
      obtain rfl : st = 12 := by simpa only [hs] using hh
      rfl
    | some h =>
      simp only [hs] at hh
      simp only [Bool.false_eq_true, if_true, if_false, Nat.add_zero, hh]
  case precv =>
    refine refuses_objOp (fun _ => rfl) (.inl rfl) fun v s _ hh => ?_
    cases hs : slotHandle s v.w k.toNat with
    | none =>
      obtain rfl : st = 12 := by simpa only [hs] using hh
      rfl
    | some h =>
      simp only [hs] at hh
      simp only [hh]
  case pslot =>
    refine refuses_objOp (fun _ => rfl) (.inl rfl) fun v s _ ⟨hz, hst, hh⟩ => ?_
    rw [if_neg hz, hh]
    exact if_neg hst

end Sys2Proof.Machine

/-! SUPPORT. Waves and ranges (spec/13 R240 to R242), and O36. -/

namespace Sys2Proof.Machine

open Sys2Proof

/-! ### A new wave (R240) -/

theorem low_half (x : DWord) : BitVec.ofNat 32 x.toNat = x.extractLsb' 0 32 := by
  apply BitVec.eq_of_toNat_eq
  simp

theorem high_half (x : DWord) : BitVec.ofNat 32 (x.toNat / 2 ^ 32) = x.extractLsb' 32 32 := by
  apply BitVec.eq_of_toNat_eq
  simp [Nat.shiftRight_eq_div_pow]

/-- The S registers of a new wave: its index, the value of the pair it is given, and copies of those of the wave that makes it. -/
theorem foldl_spawn_registers (w : Wave) (ns : List Nat) (x : DWord) (m : FMap Word) :
    (ns.map fun n => (n, w.readS n)).foldl (fun r p => fset r p.1 p.2) ((pairRegs 8 x.toNat).foldl (fun r p => fset r p.1 p.2) m) =
      ns.foldl (fun r n => fset r n (w.readS n)) (fset (fset m 8 (x.extractLsb' 0 32)) 9 (x.extractLsb' 32 32)) := by
  rw [List.foldl_map, ← low_half, ← high_half]
  rfl

theorem endWave_eq (s : State) (n self : Nat) : endWave s n self =
    if n = self then modWave s self fun u => { u with endReq := true } else finishWave s n := by
  unfold endWave
  split
  · subst_vars; rfl
  · rfl

/-- There is room in a gang and on its core for one more wave of a size (R240). -/
def spawnFits (s : State) (w : Wave) (g : Gang) : Prop :=
  ((gangWaves s w.gang).map Prod.snd).length < 32 ∧ (coreWaves s g.core).length < 64 ∧
    sumBy Wave.poolBytes ((gangWaves s w.gang).map Prod.snd) + w.poolBytes ≤ g.regg * 32768

theorem not_spawnFits_iff (s : State) (w : Wave) (g : Gang) : ¬ spawnFits s w g ↔
    (32 ≤ ((gangWaves s w.gang).map Prod.snd).length ∨ 64 ≤ (coreWaves s g.core).length ∨
      g.regg * 32768 < sumBy Wave.poolBytes ((gangWaves s w.gang).map Prod.snd) + w.poolBytes) := by
  simp only [spawnFits, not_and_or, Nat.not_lt, Nat.not_le]

/-! ### A range (R242) -/

/-- The region that rspawn launches in: the issuing wave's, or that of the handle in Sb. -/
theorem rspawn_target {b : BitVec 7} {v : Env} {s : State} {rg : Nat}
    (h : if b = 0 then rg = waveRegion s v.w else ∃ e, v.check s b.toNat [tREGION] rADMIN = .ok e ∧ e.obj = rg) :
    (if b = 0 then .ok (waveRegion s v.w) else (v.check s b.toNat [tREGION] rADMIN).map Entry.obj : Except Nat Nat) = .ok rg := by
  by_cases hb : b = 0
  · rw [if_pos hb] at h ⊢
    rw [h]
  · rw [if_neg hb] at h ⊢
    obtain ⟨e, he, rfl⟩ := h
    rw [he]
    rfl

/-- Settles O36: each clause is one path through wspawn, wexit or rspawn, by what its operands and the room on the core give. -/
theorem wavesAndRanges : Obligations.WavesAndRanges := by
  unfold Obligations.WavesAndRanges
  intro d a b spawn rb
  refine ⟨fun g m => ?spawns, fun e u => ?exits, ?spawnFails, fun e u => ?exitFails, ?rangeFails, fun rg bs s1 m => ?launches⟩
  case spawns =>
    refine reports_objOp (fun _ => rfl) (.inl rfl) fun v s ⟨hg, hpc, hn, hc, hp, hm⟩ => ?_
    have room := mt (not_spawnFits_iff s v.w g).mpr (not_not.mpr ⟨hn, hc, hp⟩)
    simp only [hg, if_neg (not_not.mpr hpc), if_neg room, hm, foldl_spawn_registers]
  case exits =>
    refine reports_objOp (fun _ => rfl) (.inl rfl) fun v s ⟨hh, hu, live, user⟩ => ?_
    simp only [hh, hu, live, user, Bool.false_eq_true, reduceCtorEq, if_false, endWave_eq]
  case spawnFails =>
    intro gangOf fits g
    refine ⟨fails_objOp (fun _ => rfl) (.inl rfl) fun v s ⟨(hg : fget s.gangs v.w.gang = some g), hpc⟩ => ?_,
      fails_objOp (fun _ => rfl) (.inl rfl) fun v s ⟨(hg : fget s.gangs v.w.gang = some g), hpc, full⟩ => ?_,
      fun st => fails_objOp (fun _ => rfl) (.inl rfl) fun v s ⟨(hg : fget s.gangs v.w.gang = some g), hpc, fit, hm⟩ => ?_⟩
    · simp only [hg, if_pos hpc]
      rfl
    · simp only [hg, if_neg (not_not.mpr hpc), if_pos ((not_spawnFits_iff s v.w g).mp full)]
      rfl
    · simp only [hg, if_neg (not_not.mpr hpc), if_neg (mt (not_spawnFits_iff s v.w g).mpr (not_not.mpr fit)), hm]
  case exitFails =>
    intro exits names
    refine ⟨fails_objOp (fun _ => rfl) (.inl rfl) fun v s ⟨⟨hh, hu⟩, dead⟩ => ?_,
      fails_objOp (fun _ => rfl) (.inl rfl) fun v s ⟨⟨hh, hu⟩, live, handler⟩ => ?_⟩
    · simp only [hh, hu, dead, if_true]
      rfl
    · simp only [hh, hu, live, handler, Bool.false_eq_true, if_true, if_false]
      rfl
  case rangeFails =>
    dsimp only
    refine fun rg s1 => ⟨fails_objOp (fun _ => rfl) (.inl rfl) fun v s ⟨ht, hva⟩ => ?_,
      failsIn_objOp (fun _ => rfl) (.inl rfl) fun v s ⟨ht, hva, hf⟩ => ?_,
      fun bs s2 st => failsIn_objOp (fun _ => rfl) (.inl rfl) fun v s ⟨ht, hva, hf, hl⟩ => ?_⟩
    · simp only [rspawn_target ht, if_pos hva]
      rfl
    · unfold rootOf at hf
      simp only [rspawn_target ht, if_neg (not_not.mpr hva), hf]
      rfl
    · unfold rootOf at hf hl
      simp only [rspawn_target ht, if_neg (not_not.mpr hva), hf, hl]
  case launches =>
    refine reports_objOp (fun _ => rfl) (.inl rfl) fun v s ⟨ht, hva, hf, hl⟩ => ?_
    unfold rootOf at hf hl
    simp only [rspawn_target ht, if_neg (not_not.mpr hva), hf, hl]

end Sys2Proof.Machine

/-! SUPPORT. Handles, wait sets and timers (spec/13 R243, R244), and O37. -/

namespace Sys2Proof.Machine

open Sys2Proof

/-! ### New objects (R26, R238) -/

theorem makeObject_over_budget {s : State} {type rg rights home : Nat} (h : mayCharge s .objects rg 1 = false) :
    makeObject s type rg rights home true = .error stBUDGET := by
  simp only [makeObject, h, Bool.not_false, Bool.and_true, if_true]

theorem makeObject_table_full {s : State} {type rg rights home : Nat} (h : mayCharge s .objects rg 1 = true)
    (full : newEntry s type s.serial rights rg home = none) : makeObject s type rg rights home true = .error stNOSPACE := by
  simp only [makeObject, h, full, Bool.not_true, Bool.and_false, Bool.false_eq_true, if_false]

/-! ### The holder that odup names (R243) -/

/-- The region that is to hold a duplicated handle: the issuing wave's, or one of its subtree that the pair at `n` names. -/
def dupHolder (v : Env) (s : State) (n : Nat) : Except Nat Nat :=
  if v.w.readS64 n = 0 then .ok (waveRegion s v.w)
  else match v.check s n [tREGION] 0 with
    | .error st => .error st
    | .ok r => if within s r.obj (waveRegion s v.w) then .ok r.obj else .error stRIGHTS

theorem dupHolder_ok {v : Env} {s : State} {n r : Nat} (h : if v.w.readS64 n = 0 then r = waveRegion s v.w
    else ∃ x, v.check s n [tREGION] 0 = .ok x ∧ x.obj = r ∧ within s r (waveRegion s v.w) = true) : dupHolder v s n = .ok r := by
  unfold dupHolder
  split at h
  · rw [if_pos ‹_›, h]
  · obtain ⟨x, hx, rfl, inside⟩ := h
    rw [if_neg ‹_›, hx]
    exact if_pos inside

theorem dupHolder_outside {v : Env} {s : State} {n : Nat} {x : Entry} (hz : v.w.readS64 n ≠ 0)
    (hx : v.check s n [tREGION] 0 = .ok x) (outside : within s x.obj (waveRegion s v.w) = false) :
    dupHolder v s n = .error stRIGHTS := by
  rw [dupHolder, if_neg hz, hx]
  exact if_neg (Bool.eq_false_iff.mp outside)

/-- What odup comes to, by its holder. -/
def odupResult (a b : BitVec 7) (v : Env) (s : State) : ObjRes :=
  match v.check s a.toNat allTypes rDUP with
  | .error st => .fail st
  | .ok e =>
    if (v.w.readS b.toNat).toNat / 256 ≠ 0 then .fail stBADARG
    else match dupHolder v s (b.toNat + 2) with
      | .error st => .fail st
      | .ok r => match newEntry s e.type e.obj (hRights (v.w.readS64 a.toNat) &&& (v.w.readS b.toNat).toNat) r e.home with
        | none => .fail stNOSPACE
        | some (h, s1) => .ok s1 h.toNat

theorem exec_odup (d a b : BitVec 7) (s : State) : exec (.odup d a b) s = .next (objOp
    { cls := 27, d := d.toNat, val := true, rs := [pairRun a, .s b.toNat 1, .s (b.toNat + 2) 2], da := [pairRun a]
      db := [.s b.toNat 1, .s (b.toNat + 2) 2], bad := oddReg a || decide (b.toNat % 4 ≠ 0) } (odupResult a b) s) := rfl

/-- Settles O37: each instruction makes, reads or changes one object, and each refusal is one test of its operands, in their order. -/
theorem handlesWaitSetsTimers : Obligations.HandlesWaitSetsTimers := by
  unfold Obligations.HandlesWaitSetsTimers
  intro d a b one withWord make
  refine ⟨fun e r h s1 => ?odup, fun e => ?oclose, fun e x => ?oinfo, fun m => ?wsnew, fun m => ?tnew, fun e m i => ?wsadd,
    fun e m => ?wsdel, fun e => ?tarm, fun e => ?tcancel, fun s type rg rights home => ⟨makeObject_over_budget, makeObject_table_full⟩,
    ?makeFails, ?fails⟩
  case odup =>
    refine reports_objOp (exec_odup d a b) (.inl rfl) fun v s ⟨hh, hm, hr, hn⟩ => ?_
    simp only [odupResult, hh, Nat.div_eq_of_lt hm, ne_eq, not_true_eq_false, if_false, dupHolder_ok hr, hn]
  case oclose =>
    refine reports_objOp (fun _ => rfl) (.inl rfl) fun v s hh => ?_
    simp only [hh, hIndex_eq]
  case oinfo => exact reports_objOp (fun _ => rfl) (.inl rfl) fun v s ⟨hh, hx⟩ => by simp only [hh, hx]
  case wsnew | tnew => exact reports_objOp (fun _ => rfl) (.inl rfl) fun v s hm => by simp only [hm]
  case wsadd =>
    refine reports_objOp (fun _ => rfl) (.inl rfl) fun v s ⟨hh, hm, hs, hi, hk⟩ => ?_
    simp only [hh, hm, hs, hk, if_neg (Nat.not_le.mpr hi)]
  case wsdel =>
    refine reports_objOp (fun _ => rfl) (.inl rfl) fun v s ⟨hh, hm⟩ => ?_
    simp only [hh, hm, Option.isNone_some, Bool.false_eq_true, if_false]
  case tarm | tcancel => exact reports_objOp (fun _ => rfl) (.inl rfl) fun v s hh => by simp only [hh]
  case makeFails =>
    dsimp only
    exact fun st => ⟨fails_objOp (fun _ => rfl) (.inl rfl) fun v s hm => by simp only [hm],
      fails_objOp (fun _ => rfl) (.inl rfl) fun v s hm => by simp only [hm]⟩
  case fails =>
    dsimp only
    intro e
    refine ⟨?mask, fun x => ?holder, fun r => ?table, ?item, ?index, ?member, fun m => ⟨fun st => ?memberHandle, ?full⟩⟩
    case mask =>
      refine fails_objOp (exec_odup d a b) (.inl rfl) fun v s ⟨hh, hm⟩ => ?_
      simp only [odupResult, hh]
      exact if_pos (by omega)
    case holder =>
      refine fails_objOp (exec_odup d a b) (.inl rfl) fun v s ⟨hh, hm, hz, hx, outside⟩ => ?_
      simp only [odupResult, hh, Nat.div_eq_of_lt hm, ne_eq, not_true_eq_false, if_false, dupHolder_outside hz hx outside]
      rfl
    case table =>
      refine fails_objOp (exec_odup d a b) (.inl rfl) fun v s ⟨hh, hm, hr, hn⟩ => ?_
      simp only [odupResult, hh, Nat.div_eq_of_lt hm, ne_eq, not_true_eq_false, if_false, dupHolder_ok hr, hn]
      rfl
    case item =>
      refine fails_objOp (fun _ => rfl) (.inl rfl) fun v s ⟨hh, hx⟩ => ?_
      simp only [hh, hx]
      rfl
    case index =>
      refine fails_objOp (fun _ => rfl) (.inl rfl) fun v s ⟨hh, hm⟩ => ?_
      simp only [hh, hm, Option.isNone_none, if_true]
      rfl
    case member =>
      refine fails_objOp (fun _ => rfl) (.inl rfl) fun v s ⟨hh, hm⟩ => ?_
      simp only [hh, hm]
      rfl
    case memberHandle => exact fails_objOp (fun _ => rfl) (.inl rfl) fun v s ⟨hh, hm, hs⟩ => by simp only [hh, hm, hs]
    case full =>
      refine fails_objOp (fun _ => rfl) (.inl rfl) fun v s ⟨hh, hm, hs, hk⟩ => ?_
      simp only [hh, hm, hs, if_pos hk]
      rfl

end Sys2Proof.Machine

/-! SUPPORT. Amber segments (spec/13 R249, R250), and O39. -/

namespace Sys2Proof.Machine

open Sys2Proof

/-- Some page, whole pages, at most 65536 of them, below the end of the space that segments may take (R249, assumption log 9). -/
def segmentFits (base n : Nat) : Prop := base % 65536 = 0 ∧ 1 ≤ n ∧ n ≤ 65536 ∧ base + 65536 * n ≤ 0xFFFF700000000000

theorem not_segmentFits_iff (base n : Nat) : ¬ segmentFits base n ↔
    (base % 65536 ≠ 0 ∨ n < 1 ∨ 65536 < n ∨ 0xFFFF700000000000 < base + 65536 * n) := by
  simp only [segmentFits, not_and_or, Nat.not_le]

/-- Settles O39: each clause is one path through anew, aseal, afree or atail, by what its segment and its range of pages give. -/
theorem amberSegments : Obligations.AmberSegments := by
  unfold Obligations.AmberSegments
  intro d a b one withWord
  refine ⟨fun m fs s1 s2 => ?anew, fun e g => ?sealNow, fun e g => ?sealLater, fun e g => ?afree, fun e g => ?atail, ?anewFails,
    fun e g => ?fails⟩
  case anew =>
    refine reports_objOp (fun _ => rfl) (.inl rfl) fun v s ⟨ha, h1, hn, top, free, charges, held, hm, ht, hs, hz⟩ => ?_
    have fits := mt (not_segmentFits_iff _ _).mpr (not_not.mpr ⟨ha, h1, hn, top⟩)
    unfold rootOf at free charges held hm hs
    simp only [if_neg fits, free, charges, held, hm, ht, hs, hz, Bool.not_true, Bool.false_eq_true, if_false, BitVec.ofNat_toNat,
      BitVec.setWidth_eq]
    rfl
  case sealNow =>
    refine reports_objOp (fun _ => rfl) (.inl rfl) fun v s ⟨hh, hg, hs, ht⟩ => ?_
    simp only [hh, hg, hs, ht, BEq.rfl, ne_eq, not_true_eq_false, if_false, if_true]
  case sealLater =>
    refine doesWhen_objOp (fun _ => rfl) (.inl rfl) (fun v s c r => c.1 r.2.1) fun v s ⟨_, hh, hg, hs, ht⟩ => ?_
    simp only [hh, hg, hs, beq_eq_false_iff_ne.mpr ht, ne_eq, not_true_eq_false, if_false, Bool.false_eq_true]
    rfl
  case afree =>
    refine reports_objOp (fun _ => rfl) (.inl rfl) fun v s ⟨hh, hg, hs⟩ => ?_
    simp only [hh, hg, if_neg hs]
  case atail =>
    refine reports_objOp (fun _ => rfl) (.inl rfl) fun v s ⟨hh, hg, hb⟩ => ?_
    have word : v.w.readS b.toNat = 0 ↔ (v.w.readS b.toNat).toNat = 0 := by rw [← BitVec.toNat_inj]; rfl
    simp only [hh, hg, word]
    obtain h0 | h1 : (v.w.readS b.toNat).toNat = 0 ∨ (v.w.readS b.toNat).toNat = 1 := by omega
    · simp only [h0, if_true]
    · simp only [h1, Nat.one_ne_zero, if_false]
  case anewFails =>
    dsimp only
    refine ⟨fails_objOp (fun _ => rfl) (.inl rfl) fun v s outside => if_pos ((not_segmentFits_iff _ _).mp outside),
      failsIn_objOp (fun _ => rfl) (.inl rfl) fun v s ⟨fits, free⟩ => ?_,
      failsIn_objOp (fun _ => rfl) (.inl rfl) fun v s ⟨fits, free, charges⟩ => ?_,
      fun st => failsIn_objOp (fun _ => rfl) (.inl rfl) fun v s ⟨⟨fits, free, charges, held⟩, hm⟩ => ?_,
      fun m => ⟨failsIn_objOp (fun _ => rfl) (.inl rfl) fun v s ⟨⟨fits, free, charges, held⟩, hm, ht⟩ => ?_, fun fs s1 =>
        ⟨failsIn_objOp (fun _ => rfl) (.inl rfl) fun v s ⟨⟨⟨fits, free, charges, held⟩, hm, ht⟩, hs⟩ => ?_,
          fun s2 => failsIn_objOp (fun _ => rfl) (.inl rfl) fun v s ⟨⟨⟨fits, free, charges, held⟩, hm, ht⟩, hs, hz⟩ => ?_⟩⟩⟩
    all_goals rw [if_neg (mt (not_segmentFits_iff _ _).mpr (not_not.mpr fits))]
    all_goals unfold rootOf at *
    all_goals simp only [*, Bool.not_true, Bool.not_false, Bool.false_eq_true, if_true, if_false]
    all_goals rfl
  case fails =>
    dsimp only
    refine ⟨fails_objOp (fun _ => rfl) (.inl rfl) fun v s ⟨⟨hh, hg⟩, hs⟩ => ?_,
      fails_objOp (fun _ => rfl) (.inl rfl) fun v s ⟨⟨hh, hg⟩, hs⟩ => ?_,
      fails_objOp (fun _ => rfl) (.inl rfl) fun v s ⟨⟨hh, hg⟩, hb⟩ => ?_⟩
    · simp only [hh, hg, if_pos hs]
      rfl
    · simp only [hh, hg, if_pos hs]
      rfl
    · obtain ⟨n, hn⟩ := Nat.exists_eq_add_of_le hb
      simp only [hh, hg, hn, Nat.add_comm 2]
      rfl

end Sys2Proof.Machine

/-! SUPPORT. Supervisor instructions (spec/13 R251 to R259; spec/23 R377, R388, R389), and O40. -/

namespace Sys2Proof.Machine

open Sys2Proof

/-! A csaLoad or csaStore that a match takes apart is made opaque before `simp` (`∃ load, csaLoad = load`): the kernel would
otherwise evaluate it while it checks that the match reduces, and run out of stack. -/

theorem csaStores_cons {strict : Bool} {s t : State} {root : DWord} {gen die va : Nat} {bs : List (BitVec 8)}
    {items : List (Nat × List (BitVec 8))} (h : csaStore strict s root gen die va bs = .ok t) :
    csaStores strict s root gen die ((va, bs) :: items) = csaStores strict t root gen die items := by
  unfold csaStores
  obtain ⟨store, opaque'⟩ : ∃ store, csaStore = store := ⟨_, rfl⟩
  rw [opaque'] at h ⊢
  simp only [List.foldl_cons, h]

theorem csaStores_nil (strict : Bool) (s : State) (root : DWord) (gen die : Nat) : csaStores strict s root gen die [] = .ok s := rfl

/-! ### The end of a save (R259) -/

theorem foldl_regions_frame {α : Type} {f : State → α → State} (hf : ∀ s x, ∃ rs, f s x = { s with regions := rs }) :
    ∀ (l : List α) (s : State), ∃ rs, l.foldl f s = { s with regions := rs }
  | [], s => ⟨s.regions, rfl⟩
  | x :: l, s => by
    obtain ⟨rs, first⟩ := hf s x
    obtain ⟨rs', rest⟩ := foldl_regions_frame hf l { s with regions := rs }
    exact ⟨rs', by rw [List.foldl_cons, first, rest]⟩

theorem uncharge_regions_frame (s : State) (x : Resource) (r n : Nat) : ∃ rs, uncharge s x r n = { s with regions := rs } :=
  foldl_regions_frame (fun _ _ => ⟨_, rfl⟩) _ s

theorem joinWaiting_regions_frame (s : State) (rg : Nat) : ∃ rs, joinWaiting s rg = { s with regions := rs } := by
  dsimp only [joinWaiting]
  split
  · exact ⟨_, rfl⟩
  · split
    · exact ⟨_, rfl⟩
    · exact ⟨_, rfl⟩

/-- The state after a gang's memory is no longer charged to the region that it runs for. -/
def gangUncharged (rg : Nat) (s : State) (n : Nat) : State :=
  match fget s.gangs n with
  | none => s
  | some g => uncharge s .sram rg (g.regg + g.spadg + g.accg)

theorem gangUncharged_regions_frame (rg : Nat) (s : State) (n : Nat) : ∃ rs, gangUncharged rg s n = { s with regions := rs } := by
  unfold gangUncharged
  split
  · exact ⟨_, rfl⟩
  · exact uncharge_regions_frame ..

section
variable {s : State} {c : Nat} {k : Cohort} (hk : fget s.cohorts c = some k)
include hk

theorem finishSave_waits (h : k.gangs.all (gangSaved s) = false) : finishSave s c = s := by
  simp only [finishSave, hk, h, Bool.not_false, Bool.or_true, if_true]

theorem finishSave_saved (preempted : k.preempted = true) (resident : k.resident = true) (ended : k.ended = false)
    (saved : k.gangs.all (gangSaved s) = true) : ∃ rs, finishSave s c =
      placementDue { s with regions := rs, cohorts := fset s.cohorts c { k with resident := false, saved := true } }
        (· == k.cluster) := by
  have guard : (!k.preempted || !k.resident || k.ended || !k.gangs.all (gangSaved s)) = false := by
    rw [preempted, resident, ended, saved]
    rfl
  have result : finishSave s c = placementDue (modCohort (joinWaiting (k.gangs.foldl (gangUncharged k.region)
      (modCohort s c fun x => { x with resident := false })) k.region) c fun x => { x with resident := false, saved := true })
      (· == k.cluster) := by
    simp only [finishSave, hk, guard, Bool.false_eq_true, if_false]
    rfl
  obtain ⟨rs, fold⟩ := foldl_regions_frame (gangUncharged_regions_frame k.region) k.gangs
    (modCohort s c fun x => { x with resident := false })
  obtain ⟨rs', join⟩ := joinWaiting_regions_frame { modCohort s c (fun x => { x with resident := false }) with regions := rs } k.region
  refine ⟨rs', ?_⟩
  rw [result, fold, join]
  simp only [modCohort, fmod_of_get _ hk, fmod_of_get _ (fget_fset_same s.cohorts c _), fset_fset]

end

theorem all_gangSaved_eq_false {s : State} {ns : List Nat} {n : Nat} {g : Gang} (hn : n ∈ ns) (hg : fget s.gangs n = some g)
    (released : g.released = false) (ended : g.ended = false) : ns.all (gangSaved s) = false := by
  rw [List.all_eq_false]
  exact ⟨n, hn, by simp [gangSaved, hg, released, ended]⟩

theorem all_gangSaved {s : State} {ns : List Nat}
    (h : ∀ n ∈ ns, ∀ g, fget s.gangs n = some g → g.released = true ∨ g.ended = true) : ns.all (gangSaved s) = true := by
  rw [List.all_eq_true]
  intro n hn
  unfold gangSaved
  cases hg : fget s.gangs n with
  | none => rfl
  | some g => simpa using h n hn g hg

theorem releaseGang_of_get {s : State} {n : Nat} {g : Gang} (h : fget s.gangs n = some g) :
    releaseGang s n = finishSave (modGang s n fun x => { x with released := true, spad := [], acc := [] }) g.cohort := by
  simp only [releaseGang, h]

/-- The leader's gsaved goes on once every other wave is saved and no store of the gang is under way. -/
theorem leaderWaits_iff {s : State} {g wid : Nat} :
    (((gangWaves s g).filter fun p => p.1 != wid).any (fun p => !p.2.saved) ||
      (gangWaves s g).any fun p => appendsInFlight s p.1 != 0) = false ↔
      ∀ p ∈ gangWaves s g, (p.1 ≠ wid → p.2.saved = true) ∧ appendsInFlight s p.1 = 0 := by
  simp only [Bool.or_eq_false_iff, List.any_eq_false, List.mem_filter, bne_iff_ne, Bool.not_eq_true', Bool.not_eq_false, and_imp,
    not_not, ← forall_and]

theorem selector_allowed {q : Selector} (h : q.kind = 6 → srWritable q.num = true) : ¬ (q.kind = 6 ∧ (!srWritable q.num) = true) :=
  fun ⟨special, fixed⟩ => by simp [h special] at fixed

theorem word_zero_iff (x : Word) : x = 0 ↔ x.toNat = 0 := by
  rw [← BitVec.toNat_inj]
  rfl

theorem sumBy_map {α β : Type} (f : β → Nat) (g : α → β) (l : List α) : sumBy f (l.map g) = sumBy (fun x => f (g x)) l :=
  List.foldl_map

/-- Settles O40: each clause is one path through an instruction of R251 to R259, by its operands and the state it names. -/
theorem supervisorInstructions : Obligations.SupervisorInstructions := by
  unfold Obligations.SupervisorInstructions
  intro d a b two pair
  refine ⟨fun e img s1 m => ?rgnew, fun e s' => ?rgset, ?rest⟩
  case rgnew =>
    refine reports_objOp (fun _ => rfl) (.inl rfl) fun v s ⟨hh, ha, hf, hm⟩ => ?_
    unfold rootOf at hf
    simp only [hh, if_neg (not_not.mpr ha), hf, hm]
  case rgset =>
    refine reports_objOp (fun _ => rfl) (.inl rfl) fun v s ⟨hh, hne, hw, hs⟩ => ?_
    simp only [hh, hne, hw, hs, Bool.not_true, Bool.false_eq_true, or_self, if_false]
  intro write saves
  refine ⟨fun wid' u q => ?wreadWaits, fun wid' u q => ?wwriteWaits, fun wid' u q => ?wread, fun wid' u q s' => ?wwrite,
    fun wid' u => ?wresume, ?gsavedOther, ?gsavedLeader, fun s c k => ?finishSave, fun e => ?rdlog, fun g s1 s2 => ?csaveq,
    fun g blk s1 acc s2 => ?creplay, ?tlbinv, fun e n s' => ?ckmark, fun e st => ?ckmarkFails, ?startCheckpoint, ?rgnewFails,
    ?createRegion, ?rgsetFails, ?setRegion, ?otherWaveFails, ?gsavedFails, ?rdlogFails, ?csaveqFails, ?creplayFails,
    fun g blk s1 acc s2 => ?creplayMalformed, ?tlbinvFails⟩
  case wreadWaits =>
    refine doesWhen_objOp (fun _ => rfl) (.inr rfl) (fun v s c r => nomatch r.1) fun v s ⟨ht, hq, hw⟩ => ?_
    simp only [ht, hq, hw, if_true]
    rfl
  case wwriteWaits =>
    refine doesWhen_objOp (fun _ => rfl) (.inr rfl) (fun v s c r => nomatch r.1) fun v s ⟨ht, hq, hr, hw⟩ => ?_
    simp only [ht, hq, if_neg (selector_allowed hr), hw, if_true]
    rfl
  case wread =>
    refine reports_objOp (fun _ => rfl) (.inr rfl) fun v s ⟨ht, hq, hw⟩ => ?_
    simp only [ht, hq, hw, Bool.false_eq_true, if_false]
  case wwrite =>
    refine reports_objOp (fun _ => rfl) (.inr rfl) fun v s ⟨ht, hq, hr, hw, hs⟩ => ?_
    simp only [ht, hq, if_neg (selector_allowed hr), hw, hs, Bool.false_eq_true, if_false]
  case wresume =>
    refine reports_objOp (fun _ => rfl) (.inr rfl) fun v s ⟨ht, hne, hf, hl⟩ => ?_
    simp only [ht, hne, hf, hl, Bool.not_true, Bool.false_eq_true, or_self, if_false]
  case gsavedOther =>
    refine reports_objOp (fun _ => rfl) (.inr rfl) fun v s ⟨hs, l, u, hl, hne⟩ => ?_
    simp only [hs, hl, Option.map_some, Option.getD_some, Bool.not_true, Bool.false_eq_true, if_false, ne_eq, Ne.symm hne,
      not_false_eq_true, if_true]
  case gsavedLeader =>
    dsimp only
    refine ⟨doesWhen_objOp (fun _ => rfl) (.inr rfl) (fun v s c r => nomatch r.1) fun v s ⟨⟨hs, u, hl⟩, waits⟩ => ?_,
      fun g => reports_objOp (fun _ => rfl) (.inr rfl) fun v s ⟨⟨hs, u, hl⟩, done, hg⟩ => ?_⟩
    · rw [← leaderWaits_iff, Bool.not_eq_false] at waits
      simp only [hs, hl, Option.map_some, Option.getD_some, Bool.not_true, Bool.false_eq_true, if_false, ne_eq, not_true_eq_false,
        waits, if_true]
      rfl
    · rw [← leaderWaits_iff] at done
      simp only [hs, hl, Option.map_some, Option.getD_some, Bool.not_true, Bool.false_eq_true, if_false, ne_eq, not_true_eq_false,
        done]
      rw [releaseGang_of_get]
      exact hg
  case finishSave =>
    intro hk preempted resident ended
    refine ⟨fun ⟨n, g, hn, hg, hr, he⟩ => finishSave_waits hk (all_gangSaved_eq_false hn hg hr he), fun saved => ?_⟩
    obtain ⟨rs, result⟩ := finishSave_saved hk preempted resident ended (all_gangSaved saved)
    rw [result]
    refine ⟨fget_fset_same .., rfl, rfl, fun p hp hc started => ?_⟩
    obtain ⟨q, -, rfl⟩ := List.mem_map.mp hp
    dsimp only at hc started ⊢
    split at hc <;> simp_all
  case rdlog =>
    refine reports_objOp (fun _ => rfl) (.inr rfl) fun v s ⟨hn, he⟩ => ?_
    simp only [if_neg (Nat.not_le.mpr hn), he]
  case csaveq =>
    refine reports_objOp (fun _ => rfl) (.inr rfl) fun v s ⟨hs, hl, hg, h1, h2⟩ => ?_
    unfold rootOf at h1 h2
    have stored := (csaStores_cons h1).trans ((csaStores_cons h2).trans (csaStores_nil ..))
    obtain ⟨stores, opaque'⟩ : ∃ stores, csaStores = stores := ⟨_, rfl⟩
    rw [opaque'] at stored ⊢
    simp only [hs, hl, hg, stored, Bool.not_true, Bool.or_self, Bool.false_eq_true, if_false]
  case creplay =>
    refine reports_objOp (fun _ => rfl) (.inr rfl) fun v s ⟨hs, hl, hg, h1, h2, hb⟩ => ?_
    unfold rootOf at h1 h2
    obtain ⟨load, opaque'⟩ : ∃ load, csaLoad = load := ⟨_, rfl⟩
    rw [opaque'] at h1 h2 ⊢
    simp only [hs, hl, hg, h1, h2, hb, Bool.not_true, Bool.or_self, Bool.false_eq_true, if_false, sumBy_map]
  case tlbinv =>
    refine reports_objOp (fun _ => rfl) (.inr rfl) fun v s hn => ?_
    have zero : (v.w.readS b.toNat == 0) = ((v.w.readS b.toNat).toNat == 0) := by
      rw [Bool.eq_iff_iff, beq_iff_eq, beq_iff_eq, word_zero_iff]
    rw [word_zero_iff] at hn
    rw [zero]
    exact if_neg (by omega)
  case ckmark =>
    refine reports_objOp (fun _ => rfl) (.inr rfl) fun v s ⟨hh, hc⟩ => ?_
    simp only [hh, hc]
  case ckmarkFails =>
    refine fails_objOp (fun _ => rfl) (.inr rfl) fun v s ⟨hh, hc⟩ => ?_
    simp only [hh, hc]
  case startCheckpoint =>
    intro s r g packet hg owns
    have refuses : ((g.parent.isSome && g.ovr % 2 == 0) || g.ckDest.isNone) = true ↔ ¬ owns ∨ g.ckDest = none := by
      cases hp : g.parent <;> simp [owns, hp]
    simp only [startCheckpoint, hg]
    refine ⟨fun h => if_pos (refuses.mpr h), fun o dest => ?_⟩
    rw [if_neg (mt refuses.mp (not_or.mpr ⟨not_not.mpr o, dest⟩))]
    refine ⟨fun run => if_pos (Option.isSome_iff_ne_none.mpr run), fun run cut => ?_⟩
    rw [run, cut]
    rfl
  case rgnewFails =>
    dsimp only
    refine fun e s1 => ⟨fails_objOp (fun _ => rfl) (.inl rfl) fun v s ⟨hh, ha⟩ => ?_,
      failsIn_objOp (fun _ => rfl) (.inl rfl) fun v s ⟨hh, ha, hf⟩ => ?_,
      fun img st => failsIn_objOp (fun _ => rfl) (.inl rfl) fun v s ⟨hh, ha, hf, hm⟩ => ?_⟩
    · simp only [hh, if_pos ha]
      rfl
    · unfold rootOf at hf
      simp only [hh, if_neg (not_not.mpr ha), hf]
      rfl
    · unfold rootOf at hf
      simp only [hh, if_neg (not_not.mpr ha), hf, hm]
  case createRegion =>
    intro s parent issuer home img p hp made room
    simp only [made, createRegion, hp]
    refine ⟨fun deep => if_pos deep, fun deep full => ?_, fun deep fits bad => ?_⟩
    · rw [if_neg (Nat.not_le.mpr deep), if_pos (Nat.not_lt.mp full)]
      rfl
    · rw [if_neg (Nat.not_le.mpr deep), if_neg (Nat.not_le.mpr fits), bad]
      rfl
  case rgsetFails =>
    dsimp only
    refine fun e => ⟨fails_objOp (fun _ => rfl) (.inl rfl) fun v s ⟨hh, out⟩ => ?_,
      fun st => fails_objOp (fun _ => rfl) (.inl rfl) fun v s ⟨hh, ⟨hne, hw⟩, hs⟩ => ?_⟩
    · simp only [hh]
      refine if_pos ?_
      rwa [not_and_or, not_not, Bool.not_eq_true, ← Bool.not_eq_true'] at out
    · simp only [hh, hne, hw, hs, Bool.not_true, Bool.false_eq_true, or_self, if_false]
  case setRegion =>
    intro s r g n x hg
    refine ⟨fun hn hx => ?_, fun hn hx out => ?_, fun hn => ?_, fun hn none' => ?_⟩
    · obtain ⟨y, rfl⟩ := Nat.exists_eq_add_of_lt hx
      simp only [setRegion, hg, hn, if_true]
      rw [Nat.add_right_comm, Nat.add_comm]
      rfl
    · subst hx
      simp only [setRegion, hg, hn, if_true, if_neg out]
      rfl
    · obtain ⟨y, rfl⟩ := Nat.exists_eq_add_of_lt hn
      have unknown : g.withField (14 + y + 1) x = none := by
        rw [Nat.add_right_comm, Nat.add_comm]
        rfl
      simp only [setRegion, hg, if_neg (by omega : ¬ 14 + y + 1 = 14), unknown]
      split <;> rfl
    · simp only [setRegion, hg, if_neg hn, none']
      split <;> rfl
  case otherWaveFails =>
    dsimp only
    refine ⟨fun st => ⟨fails_objOp (fun _ => rfl) (.inr rfl) fun v s ht => ?_, fails_objOp (fun _ => rfl) (.inr rfl) fun v s ht => ?_,
      fails_objOp (fun _ => rfl) (.inr rfl) fun v s ht => ?_⟩, fun v s => ?target, fun wid' u =>
      ⟨fails_objOp (fun _ => rfl) (.inr rfl) fun v s ⟨ht, hq⟩ => ?_, fails_objOp (fun _ => rfl) (.inr rfl) fun v s ⟨ht, hq⟩ => ?_,
        fails_objOp (fun _ => rfl) (.inr rfl) fun v s ⟨ht, bad⟩ => ?_, fun q => ⟨fails_objOp (fun _ => rfl) (.inr rfl)
          fun v s ⟨ht, hq, hk, hr⟩ => ?_, fun st => fails_objOp (fun _ => rfl) (.inr rfl) fun v s ⟨ht, hq, hr, hw, hs⟩ => ?_⟩⟩⟩
    case target =>
      refine ⟨fun hf => by simp only [targetWave, hf]; rfl, fun p hf => ?_⟩
      simp only [targetWave, hf]
      refine ⟨fun other saving => if_pos ⟨other, by simpa [or_assoc] using saving⟩, fun free => if_neg ?_⟩
      rintro ⟨other, saving⟩
      obtain ⟨h1, h2, h3⟩ := free.resolve_left other
      simp [h1, h2, h3] at saving
    · simp only [ht]
    · simp only [ht]
    · simp only [ht]
    · simp only [ht, hq]
      rfl
    · simp only [ht, hq]
      rfl
    · simp only [ht]
      exact if_pos (by simpa using bad)
    · simp only [ht, hq, hk, hr, Bool.not_false, and_self, if_true]
      rfl
    · simp only [ht, hq, if_neg (selector_allowed hr), hw, hs, Bool.false_eq_true, if_false]
  case gsavedFails =>
    refine fails_objOp (fun _ => rfl) (.inr rfl) fun v s hs => ?_
    simp only [hs, Bool.not_false, if_true]
    rfl
  case rdlogFails =>
    refine fails_objOp (fun _ => rfl) (.inr rfl) fun v s bad => ?_
    by_cases hn : v.w.tlog.toNat % 8 ≤ (v.w.readS a.toNat).toNat % 4
    · exact if_pos hn
    · simp only [if_neg hn, bad.resolve_left hn]
      rfl
  case csaveqFails =>
    refine fails_objOp (fun _ => rfl) (.inr rfl) fun v s hn => if_pos ?_
    simpa using hn
  case creplayFails =>
    refine fails_objOp (fun _ => rfl) (.inr rfl) fun v s hn => if_pos ?_
    simpa using hn
  case creplayMalformed =>
    refine doesWhen_objOp (fun _ => rfl) (.inr rfl) (fun v s c r => nomatch r.1) fun v s ⟨hs, hl, hg, h1, h2, hb⟩ => ?_
    unfold rootOf at h1 h2
    obtain ⟨load, opaque'⟩ : ∃ load, csaLoad = load := ⟨_, rfl⟩
    rw [opaque'] at h1 h2 ⊢
    simp only [hs, hl, hg, h1, h2, hb, Bool.not_true, Bool.or_self, Bool.false_eq_true, if_false, if_true]
    rfl
  case tlbinvFails => 
    exact fails_objOp (fun _ => rfl) (.inr rfl) fun v s ⟨hn, ha⟩ =>
      if_pos ⟨mt (word_zero_iff _).mpr hn, ha⟩

end Sys2Proof.Machine

/-! SUPPORT. Timelines, flushes and the clock (spec/13 R227, R230 to R233), and O32. -/

namespace Sys2Proof.Machine

open Sys2Proof

/-- What a flush or an inval whose operands are aligned leaves before it closes: its walks' merges, the lines it covers, and
what its wave is to be told (R231, R232). -/
def flushed (discards : Bool) (d a b : BitVec 7) (v : Env) (s : State) : State :=
  let base := (v.w.readS64 a.toNat).toNat
  let n := (v.w.readS b.toNat).toNat
  let t := settleWalks s (rootOf s v.w) base (pagesOf base n)
  let held := hostLinesOf t (rootOf s v.w) base n
  let ls := if discards then held else held.filter fun l => ((fget t.hostL2 l).map fun x => x.dirty != 0).getD false
  let t' := { t with flushes := fset t.flushes t.serial ⟨v.wid, ls, discards⟩, serial := t.serial + 1 }
  if d = 0 then t' else modWave t' v.wid fun u => { u with dues := u.dues ++ [⟨d.toNat, .flush t.serial⟩] }

/-- What the issue of a flush or an inval comes to. -/
def flushBody (discards : Bool) (d a b : BitVec 7) (v : Env) (s : State) : Res :=
  if (v.w.readS64 a.toNat).toNat % 128 ≠ 0 ∨ (v.w.readS b.toNat).toNat % 128 ≠ 0 then .trap s cALIGN 64 (v.w.readS64 a.toNat)
  else .done (flushed discards d a b v s)

theorem flushOp_eq (discards : Bool) (d a b : BitVec 7) (s : State) : flushOp discards d a b s =
    issue s (fun _ _ => exInfo 26 [.s a.toNat 2, .s b.toNat 1] [.s d.toNat 1] [.s a.toNat 2] [.s b.toNat 1] (oddReg a))
      (flushBody discards d a b) := rfl

/-- The number that tlread reads names a context in its low three bits, and above 7 the count submitted. -/
theorem div_eight_eq_one_iff {n : Nat} (h : n ≤ 15) : n / 8 = 1 ↔ ¬ n < 8 := by omega

theorem issueCheck_not_bad {w : Wave} {i : OpInfo} {ws : List Word} {rm : Nat} (h : issueCheck w i ws rm = none) : i.bad = false := by
  by_contra bad
  simp [issueCheck, Bool.eq_true_of_not_eq_false bad] at h

theorem issue_held {s : State} {wid : Nat} {w : Wave} {pc : DWord} {iss : Word} {ws : List Word}
    {info : Wave → List Word → OpInfo} {body : Env → State → Res} (h : Stands s wid w pc iss ws) (p : Passes w (info w ws) ws)
    (hb : body (sees wid w pc iss ws (info w ws)) s = .hold) : issue s info body = s := by
  rw [issue_of_passes h p, hb]
  rfl

/-- A word that writes a pair of S registers, and no flag. -/
theorem issue_writes64 {s : State} {wid : Nat} {w : Wave} {pc : DWord} {iss : Word} {ws : List Word}
    {info : Wave → List Word → OpInfo} {body : Env → State → Res} {n : Nat} {x : DWord} (h : Stands s wid w pc iss ws)
    (p : Passes w (info w ws) ws) (hb : body (sees wid w pc iss ws (info w ws)) s =
      finishInt (sees wid w pc iss ws (info w ws)) s 0 fun u => u.writeS64 n x) :
    issue s info body = completed s (info w ws) (sees wid w pc iss ws (info w ws)) fun u => u.writeS64 n x := by
  refine issue_wave h p (hb.trans ?_) (by simp) (by simp) (by simp) (by simp)
  simp only [finishInt, Wave.orFlags_zero]
  rfl

/-- Settles O32: tlread, settle and clock read what they report, and flush and inval are `flushBody`. -/
theorem timelinesFlushesAndClock : Obligations.TimelinesFlushesAndClock := by
  unfold Obligations.TimelinesFlushesAndClock
  refine ⟨fun d a b nl ns nc nm => ?_, fun nl ns nc nm s wid w pc iss ws h p above => ?holds⟩
  case holds =>
    have waits : ¬ (loadCount w ≤ nl.toNat ∧ storeCount s wid w ≤ ns.toNat ∧ engineCount s wid w 24 ≤ nc.toNat ∧
        engineCount s wid w 25 ≤ nm.toNat) := by omega
    exact congrArg _ (issue_held h p (if_neg waits))
  intro one flush
  have flushes : ∀ (i : Instr) (discards : Bool), (∀ s, exec i s = .next (flushOp discards d a b s)) → flush i discards := by
    intro i discards he
    refine ⟨fun s wid w pc iss ws h p askew => ?_, fun s wid w pc iss ws h p ⟨ha, hb⟩ => ?_⟩
    · exact (he s).trans (congrArg _ (issue_trap h p (.inr (Nat.lt_of_sub_eq_succ rfl)) (if_pos askew)))
    · exact (he s).trans (congrArg _ (issue_done h p (if_neg (not_or.mpr ⟨not_not.mpr ha, not_not.mpr hb⟩))))
  refine ⟨fun s wid w pc iss ws gg c h p hg hc => ?tlread, fun s wid w pc iss ws h p below => ?settle,
    fun s wid w pc iss ws h p => ?fence, flushes _ _ fun _ => rfl, flushes _ _ fun _ => rfl, fun s wid w pc iss ws h p => ?clock⟩
  case tlread =>
    have low : (w.readS a.toNat).toNat ≤ 15 := by
      have good := issueCheck_not_bad p.checks
      simp only [exInfo, Bool.or_eq_false_iff, decide_eq_false_iff_not] at good
      omega
    refine congrArg _ (issue_writes64 h p ?_)
    simp only [sees, hg, hc, div_eight_eq_one_iff low, ite_not]
  case settle => exact congrArg _ (issue_goes_on h p (if_pos below))
  case fence => exact congrArg _ (issue_done h p rfl)
  case clock => exact congrArg _ (issue_writes64 h p rfl)

end Sys2Proof.Machine

/-! SUPPORT. Submission of copy operations (spec/13 R203 to R205, R209, R210), and O29. -/

namespace Sys2Proof.Machine

open Sys2Proof

/-! ### The parts of a copy operation (R203, R209) -/

/-- A copy operation that asks alignment of its operands: ccopy, cfill and cgather. -/
abbrev copyStrict (fn : Nat) : Prop := fn = 0 ∨ fn = 2 ∨ fn = 3

/-- The checks of alignment of the T register of an operand. -/
def copyOperand (r : BitVec 128) : List (Bool × Nat) := [(mult4 (tBase r), tBase r), (mult4 (tStride r), tBase r)]

def copyChecks (fn : Nat) (D S : BitVec 128) (x : Word) (idx : DWord) : List (Bool × Nat) :=
  (if fn < 4 ∧ copyStrict fn then copyOperand D else []) ++ (if fn ≠ 2 ∧ copyStrict fn then copyOperand S else []) ++
    (if copyStrict fn then [(mult4 (shapeBytes x), tBase D)] else []) ++ if fn = 3 then [(mult4 idx.toNat, idx.toNat)] else []

def copyBases (fn : Nat) (D S : BitVec 128) : List Nat :=
  (if fn < 4 then [tBase D] else []) ++ if fn ≠ 2 then [tBase S] else []

/-- What R205's checks of a copy operation find. -/
def copyTrap (fn : Nat) (td ts : BitVec 5) (sl : BitVec 6) (sb : BitVec 5) (s : State) (w : Wave) : Option (Nat × Nat) :=
  engineTrap s w.gang
    (copyChecks fn (w.readT td.toNat) (w.readT ts.toNat) (w.readS sl.toNat) (w.readS64 (sl.toNat + 2)))
    (copyBases fn (w.readT td.toNat) (w.readT ts.toNat)) (if sb = 0 then none else some (w.readS sb.toNat))

/-- The operation as its context takes it (R203). -/
def copyOp (fn : Nat) (td ts : BitVec 5) (sl : BitVec 6) (sb : BitVec 5) (v : Env) : EngOp :=
  { blankOp v 24 fn with
    bar := if sb = 0 then none else some (v.w.readS sb.toNat)
    ta := if fn < 4 then v.w.readT td.toNat else 0, tb := if fn ≠ 2 then v.w.readT ts.toNat else 0
    shape := v.w.readS sl.toNat, pat := if fn = 2 then v.w.readS ts.toNat else 0
    idx := if fn = 3 then v.w.readS64 (sl.toNat + 2) else 0 }

/-- The T registers that a copy operation names. -/
def copyNamed (fn : Nat) (td ts : BitVec 5) : List Nat :=
  (if fn < 4 then [td.toNat] else []) ++ if fn ≠ 2 then [ts.toNat] else []

/-- What the issue of a copy instruction comes to once the checks of Table 7.5 have passed. -/
def copyBody (fn : Nat) (ctx : BitVec 3) (td ts : BitVec 5) (sl : BitVec 6) (sb : BitVec 5) (v : Env) (s : State) : Res :=
  match copyTrap fn td ts sl sb s v.w with
  | some (c, a) => .trap s c 64 (BitVec.ofNat 64 a)
  | none => submit s v ctx.toNat (copyOp fn td ts sl sb v) (copyNamed fn td ts) 1

theorem copySubmit_eq (fn : Nat) (ctx : BitVec 3) (td ts : BitVec 5) (sl : BitVec 6) (sb : BitVec 5) (s : State) :
    copySubmit fn ctx td ts sl sb s = issue s (copyInfo fn ctx td ts sl sb) (copyBody fn ctx td ts sl sb) := by
  unfold copySubmit
  refine congrArg (issue s (copyInfo fn ctx td ts sl sb)) (funext fun v => funext fun s => ?_)
  simp only [copyBody, copyTrap, copyChecks, copyOperand, copyBases, copyOp, copyNamed, Bool.and_eq_true, Bool.or_eq_true,
    decide_eq_true_eq, bne_iff_ne, beq_iff_eq, or_assoc] <;> rfl

/-! ### What R205's checks of a copy operation find -/

theorem some_ite_or {α : Type} (c : Prop) [Decidable c] (a : α) (o : Option α) :
    (if c then some a else none).or o = if c then some a else o := by
  split <;> simp

theorem firstAskew_nat (n m : Nat) : firstAskew [(mult4 n, m)] = if n % 4 = 0 then none else some m :=
  (firstAskew_single n m).trans (if_congr (by omega) rfl rfl)

theorem firstAskew_check (c : Prop) [Decidable c] (n m : Nat) :
    firstAskew (if c then [(mult4 n, m)] else []) = if c ∧ n % 4 ≠ 0 then some m else none := by
  rw [firstAskew_ite, firstAskew_nat]
  by_cases hc : c <;> simp [hc]

theorem firstAskew_copyOperand (c : Prop) [Decidable c] (r : BitVec 128) : firstAskew (if c then copyOperand r else []) =
    if c ∧ ¬ (tBase r % 4 = 0 ∧ tStride r % 4 = 0) then some (tBase r) else none := by
  rw [firstAskew_ite, copyOperand, ← List.singleton_append, firstAskew_append, firstAskew_nat, firstAskew_single]
  by_cases hc : c
  · by_cases hb : tBase r % 4 = 0 <;> by_cases hs : tStride r % 4 = 0 <;> simp [hc, hb, hs]
  · simp [hc]

theorem firstAskew_copyChecks (fn : Nat) (D S : BitVec 128) (x : Word) (idx : DWord) : firstAskew (copyChecks fn D S x idx) =
    if (fn < 4 ∧ copyStrict fn) ∧ ¬ (tBase D % 4 = 0 ∧ tStride D % 4 = 0) then some (tBase D)
    else if (fn ≠ 2 ∧ copyStrict fn) ∧ ¬ (tBase S % 4 = 0 ∧ tStride S % 4 = 0) then some (tBase S)
    else if copyStrict fn ∧ shapeBytes x % 4 ≠ 0 then some (tBase D)
    else if fn = 3 ∧ idx.toNat % 4 ≠ 0 then some idx.toNat else none := by
  rw [copyChecks, firstAskew_append, firstAskew_append, firstAskew_append, firstAskew_copyOperand, firstAskew_copyOperand,
    firstAskew_check, firstAskew_check, Option.or_assoc, Option.or_assoc, some_ite_or, some_ite_or, some_ite_or]

theorem firstAbove_check (c : Prop) [Decidable c] (n : Nat) :
    firstAbove (if c then [n] else []) = if c ∧ 0xFFFF900000000000 ≤ n then some n else none := by
  simpa using firstAbove_ite (decide c) n

theorem firstAbove_copyBases (fn : Nat) (D S : BitVec 128) : firstAbove (copyBases fn D S) =
    if fn < 4 ∧ 0xFFFF900000000000 ≤ tBase D then some (tBase D)
    else if fn ≠ 2 ∧ 0xFFFF900000000000 ≤ tBase S then some (tBase S) else none := by
  rw [copyBases, firstAbove_append, firstAbove_check, firstAbove_check, some_ite_or]

theorem shapeBytes_eq (x : Word) : shapeBytes x = if x.extractLsb' 0 16 = 0 then 65536 else (x.extractLsb' 0 16).toNat := by
  have low : (x.extractLsb' 0 16).toNat = x.toNat % 65536 := by simp
  simp only [shapeBytes, ← low, BitVec.toNat_eq]
  rfl

theorem tAdvance_one (t : BitVec 128) : tAdvance t 1 = t.extractLsb' 64 64 ++ moveAddr (t.extractLsb' 0 64) (tKinc t) := by
  simp [tAdvance]

/-! ### How a copy instruction ends (R203) -/

section
variable {fn : Nat} {ctx : BitVec 3} {td ts : BitVec 5} {sl : BitVec 6} {sb : BitVec 5} {v : Env} {s : State}

theorem copyBody_traps {c a : Nat} (ht : copyTrap fn td ts sl sb s v.w = some (c, a)) :
    copyBody fn ctx td ts sl sb v s = .trap s c 64 (BitVec.ofNat 64 a) := by
  simp only [copyBody, ht]

theorem copyBody_submits (ht : copyTrap fn td ts sl sb s v.w = none) : copyBody fn ctx td ts sl sb v s =
    submit s v ctx.toNat (copyOp fn td ts sl sb v) (copyNamed fn td ts) 1 := by
  simp only [copyBody, ht]

end

@[simp] theorem copyInfo_cls (fn : Nat) (ctx : BitVec 3) (td ts : BitVec 5) (sl : BitVec 6) (sb : BitVec 5) (w : Wave)
    (ws : List Word) : (copyInfo fn ctx td ts sl sb w ws).cls = 24 := rfl

section
variable {fn : Nat} {ctx : BitVec 3} {td ts : BitVec 5} {sl : BitVec 6} {sb : BitVec 5} {s : State} {wid : Nat} {w : Wave}
  {pc : DWord} {iss : Word} {ws : List Word} (h : Stands s wid w pc iss ws) (p : Passes w (copyInfo fn ctx td ts sl sb w ws) ws)
include h p

theorem copySubmit_traps {c n : Nat} {a : DWord}
    (hb : copyBody fn ctx td ts sl sb (sees wid w pc iss ws (copyInfo fn ctx td ts sl sb w ws)) s = .trap s c n a) :
    copySubmit fn ctx td ts sl sb s = takeTrap s wid ⟨c, n, pc, pc, a, false⟩ :=
  (copySubmit_eq ..).trans (issue_trap h p (.inr (by simp)) hb)

theorem copySubmit_ends {r : Res}
    (hb : copyBody fn ctx td ts sl sb (sees wid w pc iss ws (copyInfo fn ctx td ts sl sb w ws)) s = r) :
    copySubmit fn ctx td ts sl sb s = ended' s wid w pc (copyInfo fn ctx td ts sl sb w ws)
      (sees wid w pc iss ws (copyInfo fn ctx td ts sl sb w ws)) r :=
  ((copySubmit_eq ..).trans (issue_of_passes h p)).trans (congrArg _ hb)

end

/-- Settles O29: the clauses are the checks of R205 in their order, and then what `submit` does with a full context and with room. -/
theorem copiesAreSubmitted : Obligations.CopiesAreSubmitted := by
  unfold Obligations.CopiesAreSubmitted
  intro ctx td ts sl sb sub
  have member : ∀ i fn td, (∀ s, exec i s = .next (copySubmit fn ctx td ts sl sb s)) → sub i fn td := by
    intro i fn td he s wid w pc iss ws gg c info v x rbytes idx D S hasD hasS strict askew above bar traps op named h p hg hc
    have found : ∀ {k a}, copyTrap fn td ts sl sb s w = some (k, a) → traps k a := fun ht =>
      (he s).trans (congrArg _ (copySubmit_traps h p (copyBody_traps ht)))
    have checks := firstAskew_copyChecks fn D S x idx
    have bases := firstAbove_copyBases fn D S
    simp only [shapeBytes_eq, and_assoc] at checks
    refine ⟨fun aD => found (engineTrap_askew (checks.trans (if_pos aD))),
      fun aD aS => found (engineTrap_askew (checks.trans ((if_neg aD).trans (if_pos aS)))),
      fun aD aS aB => found (engineTrap_askew (checks.trans ((if_neg aD).trans ((if_neg aS).trans (if_pos aB))))),
      fun aD aS aB => ?_⟩
    rw [if_neg aD, if_neg aS, if_neg aB] at checks
    refine ⟨fun aI => found (engineTrap_askew (checks.trans (if_pos aI))), fun aI => ?_⟩
    rw [if_neg aI] at checks
    refine ⟨fun hD => found (engineTrap_above checks (bases.trans (if_pos hD))),
      fun hD hS => found (engineTrap_above checks (bases.trans ((if_neg hD).trans (if_pos hS)))), fun hD hS => ?_⟩
    rw [if_neg hD, if_neg hS] at bases
    have barOnly := engineTrap_bar (s := s) (gid := w.gang) (bar := if sb = 0 then none else some bar) checks bases
    refine ⟨fun k hb ht => found (barOnly.trans (by rw [if_neg hb, Option.bind_some, ht]; rfl)), fun hb => ?_⟩
    have clear : copyTrap fn td ts sl sb s w = none := by
      refine barOnly.trans ?_
      split
      · rfl
      · rw [Option.bind_some, hb ‹_›]; rfl
    have issued : ∀ {r}, submit s v ctx.toNat (copyOp fn td ts sl sb v) (copyNamed fn td ts) 1 = r →
        exec i s = .next (ended' s wid w pc info v r) := fun hr =>
      (he s).trans (congrArg _ (copySubmit_ends h p ((copyBody_submits (v := v) clear).trans hr)))
    have full := ctxFull_of_get hg hc
    refine ⟨fun hl => issued (submit_full (full.trans (decide_eq_true hl))), fun hl => ?_⟩
    have room := submit_room (v := v) (op := copyOp fn td ts sl sb v) (adv := copyNamed fn td ts) (steps := 1)
      (full.trans (decide_eq_false (Nat.not_le.mpr hl)))
    simp only [tAdvance_one] at room
    exact issued room
  refine ⟨?_, ?_, ?_, ?_, ?_, ?_⟩ <;> exact member _ _ _ fun _ => rfl

end Sys2Proof.Machine

/-! SUPPORT. Ports, sends, grants and names (spec/13 R245 to R248; spec/19 R321 to R337), and O38. -/

namespace Sys2Proof.Machine

open Sys2Proof

theorem settleWalks_frame (s : State) (root : DWord) (va pages : Nat) :
    ∃ m p, settleWalks s root va pages = { s with mem := m, pool := p } := by
  unfold settleWalks
  split
  · exact ⟨s.mem, s.pool, rfl⟩
  · exact foldl_merges_frame (fun s _ => settleWalk_frame s root _) _ s

theorem waveRegion_settleWalks (s : State) (root : DWord) (va pages : Nat) (w : Wave) :
    waveRegion (settleWalks s root va pages) w = waveRegion s w := by
  obtain ⟨m, p, h⟩ := settleWalks_frame s root va pages
  rw [h]
  rfl

theorem effPtroot_settleWalks (s : State) (root : DWord) (va pages rg : Nat) :
    effPtroot (settleWalks s root va pages) rg = effPtroot s rg := by
  obtain ⟨m, p, h⟩ := settleWalks_frame s root va pages
  rw [h]
  rfl

theorem hRights_grant (h : DWord) : (hRights h / 4 % 2 == 1) = h.getLsbD 50 := by
  rw [hRights, BitVec.getLsbD, Nat.testBit_eq_decide_div_mod_eq, Bool.beq_eq_decide_eq]
  congr 2
  omega

/-! ### A send at the home of its port (R322, R323, R326) -/

section
variable {s : State} {pn : Nat} {p : Port} {m : Msg}

theorem sendHere_dead (h : portDead s pn = true) : sendHere s pn m = .error stDEAD := if_pos h

variable (live : portDead s pn = false) (hp : fget s.ports pn = some p)
include live hp

theorem sendHere_full (full : portRoom s p = false) : sendHere s pn m = .error stFULL := by
  simp only [sendHere, live, hp, full, Bool.false_eq_true, if_false]

theorem sendHere_room (room : p.queue.length + p.reserved < p.cap + p.borrowed) (noHint : p.pfN ≤ m.header.toNat % 65536) :
    sendHere s pn m = .ok { s with ports := fset s.ports pn { p with queue := p.queue ++ [m] } } := by
  have taken : takeRoom s pn = s := by simp only [takeRoom, hp, if_pos room]
  simp only [sendHere, live, hp, portRoom, room, decide_true, Bool.true_or, Bool.false_eq_true, if_true, if_false, taken, deliver,
    prefetchOf, if_pos noHint, fmod_of_get _ hp]

end

/-! ### A new send (R246, R247, R323) -/

/-- The grant that a block names. -/
def blockGrant (v : Env) (a : Nat) : Grant :=
  ⟨(v.w.readS64 (a + 2)).toNat, (v.w.readS (a + 4)).toNat % 512, (v.w.readS (a + 4)).toNat / 2 ^ 16 % 2 == 1,
    (v.w.readS (a + 4)).toNat / 2 ^ 17 % 2 == 1⟩

/-- A grant's block names one to 256 whole pages, and its reserved bits are zero (R247). -/
def grantNamed (v : Env) (a : Nat) : Prop :=
  (v.w.readS (a + 4)).toNat / 512 % 128 = 0 ∧ (v.w.readS (a + 4)).toNat / 2 ^ 18 = 0 ∧ 1 ≤ (v.w.readS (a + 4)).toNat % 512 ∧
    (v.w.readS (a + 4)).toNat % 512 ≤ 256 ∧ (v.w.readS64 (a + 2)).toNat % 65536 = 0

/-- What a send or a grant to a port of this module comes to. -/
def sendLocal (grant : Bool) (v : Env) (s : State) (a sb pn : Nat) : ObjRes :=
  if grant then grantHere s (waveRegion s v.w) pn (blockMsg s v.w a (64 ≤ sb)) (blockGrant v a)
  else match sendHere s pn (blockMsg s v.w a (64 ≤ sb)) with
    | .ok s' => .ok s' 0
    | .error st => .fail st

section
variable {grant : Bool} {v : Env} {s : State} {a sb : Nat} {h : DWord} {e : Entry}

theorem grantTest_iff : ((v.w.readS (a + 4)).toNat / 512 % 128 != 0 || (v.w.readS (a + 4)).toNat / 2 ^ 18 != 0 ||
    (v.w.readS (a + 4)).toNat % 512 == 0 || decide (256 < (v.w.readS (a + 4)).toNat % 512) ||
      (v.w.readS64 (a + 2)).toNat % 65536 != 0) = true ↔ ¬ grantNamed v a := by
  simp only [grantNamed, Bool.or_eq_true, bne_iff_ne, beq_iff_eq, decide_eq_true_eq]
  omega

variable (hs : slotHandle s v.w (sb % 64) = some h)
  (hc : checkHandle s (waveRegion s v.w) h [tPORT, tPROXY] (rSEND + if grant then rGRANT else 0) = .ok e)
include hs hc

theorem sendNew_malformed (hg : grant = true ∧ ¬ grantNamed v a) : sendNew grant v s a sb = .fail stBADARG := by
  simp only [sendNew, hs, hc]
  exact if_pos (Bool.and_eq_true_iff.mpr ⟨hg.1, grantTest_iff.mpr hg.2⟩)

theorem sendNew_named (hg : grant = true → grantNamed v a) : sendNew grant v s a sb =
    if e.type = tPORT then sendLocal grant v s a sb e.obj
    else match fget s.proxies e.obj with
      | none => .fail stDEAD
      | some x => if x.module = s.host.module then sendLocal grant v s a sb x.port
        else sendAway v s (waveRegion s v.w) x (if grant then some (blockGrant v a) else none) := by
  simp only [sendNew, hs, hc]
  exact if_neg fun bad => grantTest_iff.mp (Bool.and_eq_true_iff.mp bad).2 (hg (Bool.and_eq_true_iff.mp bad).1)

end

/-! ### A send to another module (R323, R334) -/

/-- The state after a send that has gone out to another module. -/
def wentOut (x : Proxy) (v : Env) (s : State) (grant owned : Bool) (va : DWord) (n : Nat) : State :=
  let t := meetPeer (progressed (writeBackAll s) (waveRegion s v.w)) x.module x.incarn
  transmitFor { t with
    sends := fset t.sends t.serial {
      wave := v.wid, pc := v.pc, region := waveRegion s v.w, module := x.module, grant := grant, owned := owned
      va := va, pages := n, reply := none, accepted := false, taken := false, past := false, frames := [] }
    serial := t.serial + 1 } (waveRegion s v.w) x.module

/-- What a grant to another module comes to, by what its pages are. -/
def grantOut (x : Proxy) (v : Env) (t : State) (g : Grant) : GrantPages → ObjRes
  | .bad => .failed t stBADARG
  | .wait => .await (grantVAs g)
  | .owned _ => .under (wentOut x v t true true (BitVec.ofNat 64 g.va) g.pages)
  | .sealed _ _ => .under (wentOut x v t true false (BitVec.ofNat 64 g.va) g.pages)

section
variable {v : Env} {s : State} {x : Proxy} {g : Option Grant}

theorem sendAway_retraining (h : linksRetraining s x.module = true) :
    sendAway v s (waveRegion s v.w) x g = .fail stAGAIN := if_pos h

variable (up : linksRetraining s x.module = false)
include up

theorem sendAway_plain : sendAway v s (waveRegion s v.w) x none = .under (wentOut x v s false false 0 0) :=
  if_neg (Bool.eq_false_iff.mp up)

variable {g : Grant}

theorem sendAway_unread (hr : g.read = false) : sendAway v s (waveRegion s v.w) x (some g) = .fail stBADARG := by
  simp only [sendAway, up, hr, Bool.not_false, Bool.false_eq_true, if_true, if_false]

theorem sendAway_read (hr : g.read = true) : sendAway v s (waveRegion s v.w) x (some g) =
    grantOut x v (settleWalks s (rootOf s v.w) g.va g.pages) g
      (grantPages (settleWalks s (rootOf s v.w) g.va g.pages) (rootOf s v.w) g.va g.pages) := by
  simp only [sendAway, up, hr, Bool.not_true, Bool.false_eq_true, if_false, effPtroot_settleWalks]
  unfold rootOf grantOut
  split <;> simp only [*, wentOut, waveRegion_settleWalks, Option.map_some, Option.getD_some, Option.isSome_some]

end

/-! ### A send that is tried again (R323) -/

theorem sendAgain_waits {s : State} {n : Nat} {r : RemoteSend} (hr : r.reply = none) (ha : r.accepted = false) :
    sendAgain s n r = .hold := by
  simp only [sendAgain, ha, answered, hr, Bool.false_and, Bool.false_eq_true, if_false]

theorem sendAgain_replied {s : State} {n st : Nat} {r : RemoteSend} (hr : r.reply = some st) : sendAgain s n r = answered s n r := by
  simp only [sendAgain, hr, Option.isNone_some, Bool.and_false, Bool.false_eq_true, if_false]

theorem sendAgain_passes {s : State} {n st : Nat} {r q : RemoteSend} (hr : r.reply = none) (ha : r.accepted = true)
    (hq : fget (passGrant s n r).sends n = some q) (hst : q.reply = some st) :
    sendAgain s n r = answered (passGrant s n r) n q := by
  simp only [sendAgain, hr, ha, hq, hst, Option.isNone_none, Option.isNone_some, Bool.and_true, Bool.false_eq_true, if_true, if_false]

/-! ### A grant at the home of its port (R323, R331) -/

theorem ite_not_or_not {α : Type} {x y : α} {p q : Bool} (h : p = false ∨ q = false) :
    (if (!p) = true then x else if (!q) = true then x else y) = x := by
  rcases h with rfl | rfl <;> simp

section
variable {s : State} {rg pn : Nat} {m : Msg} {g : Grant} {p : Port} (live : portDead s pn = false) (hp : fget s.ports pn = some p)
include live hp

theorem grantHere_unfit (h : p.lz = 0 ∨ p.lzP < g.pages ∨ g.read = false) : grantHere s rg pn m g = .fail stBADARG := by
  rw [← Bool.not_eq_true'] at h
  simp only [grantHere, live, hp, if_pos h, Bool.false_eq_true, if_false]

variable (lz : p.lz ≠ 0) (fit : g.pages ≤ p.lzP) (read : g.read = true)
include lz fit read

theorem grantHere_bad
    (h : grantPages (settleWalks s (effPtroot s rg) g.va g.pages) (effPtroot s rg) g.va g.pages = .bad) :
    grantHere s rg pn m g = .failed (settleWalks s (effPtroot s rg) g.va g.pages) stBADARG := by
  simp only [grantHere, live, hp, lz, Nat.not_lt.mpr fit, read, h, Bool.not_true, Bool.false_eq_true, or_self, if_false]

theorem grantHere_full {fs : List Nat}
    (h : grantPages (settleWalks s (effPtroot s rg) g.va g.pages) (effPtroot s rg) g.va g.pages = .owned fs ∨
      ∃ k, grantPages (settleWalks s (effPtroot s rg) g.va g.pages) (effPtroot s rg) g.va g.pages = .sealed k fs)
    (full : ringFree p = false ∨ portRoom (settleWalks s (effPtroot s rg) g.va g.pages) p = false) :
    grantHere s rg pn m g = .failed (settleWalks s (effPtroot s rg) g.va g.pages) stFULL := by
  simp only [grantHere, live, hp, lz, Nat.not_lt.mpr fit, read, Bool.not_true, Bool.false_eq_true, or_self, if_false]
  rcases h with owned | ⟨k, sealed'⟩
  · simp only [owned, ite_not_or_not full]
  · simp only [sealed', ite_not_or_not full]

theorem grantHere_over_budget {fs : List Nat}
    (h : grantPages (settleWalks s (effPtroot s rg) g.va g.pages) (effPtroot s rg) g.va g.pages = .owned fs)
    (free : ¬ (ringFree p = false ∨ portRoom (settleWalks s (effPtroot s rg) g.va g.pages) p = false))
    (poor : mayMove (settleWalks s (effPtroot s rg) g.va g.pages) rg p.region g.pages = false) :
    grantHere s rg pn m g = .failed (settleWalks s (effPtroot s rg) g.va g.pages) stBUDGET := by
  rw [not_or, Bool.not_eq_false, Bool.not_eq_false] at free
  simp only [grantHere, live, hp, lz, Nat.not_lt.mpr fit, read, h, free, poor, Bool.not_true, Bool.not_false, Bool.false_eq_true,
    or_self, if_true, if_false]

end

/-! ### Names (R336, R337) -/

section
variable {s : State} {name : Nat}

theorem resolveName_here (h : directoryHere s name = true) : resolveName s name = fget s.names name := if_pos h

theorem askDirectory_here {rg : Nat} (h : directoryHere s name = true) : askDirectory s rg name = s := by
  simp only [askDirectory, h, Bool.true_or, if_true]

theorem resolveName_away {x : Binding} (h : directoryHere s name = false)
    (hx : cachedName s name = some x ∨ (cachedName s name = none ∧ Config.remoteBinding s.fresh name 0 % 2 = 1 ∧
      x = ⟨Config.remoteBinding s.fresh name 1 % s.host.domainSize, Config.remoteBinding s.fresh name 2,
        Config.remoteBinding s.fresh name 3 % 2 ^ 24, Config.remoteBinding s.fresh name 4 % 2 == 1,
        Config.remoteBinding s.fresh name 5 % 2 == 0⟩)) : resolveName s name = some x := by
  rcases hx with kept | ⟨none', bound, rfl⟩
  · simp only [resolveName, h, kept, Bool.false_eq_true, if_false]
  · simp only [resolveName, h, none', bound, Bool.false_eq_true, one_ne_zero, if_false]

theorem askDirectory_away {rg : Nat} (h : directoryHere s name = false) : askDirectory s rg name =
    if cachedName s name = none then transmitFor s rg (name % s.host.domainSize) else s := by
  cases hc : cachedName s name <;> simp [askDirectory, h, hc]

end

/-- Settles O38: each clause is one path through an instruction on ports and names, by its handle, its operands and where its port or
its directory lies. -/
theorem portsAndNames : Obligations.PortsAndNames := by
  unfold Obligations.PortsAndNames
  intro d a b k sendForm pairForm va gw granted send fresh names local' away fails goesOut
  have runs : ∀ grant s, exec (send grant) s = .next (objOp (sendForm grant) (fun v s => sendOp grant v s a.toNat b.toNat) s) := by
    rintro (_ | _) s <;> rfl
  have cls : ∀ grant, (sendForm grant).cls = 27 ∨ (sendForm grant).cls = 28 := fun _ => .inl rfl
  have begins : ∀ {grant v s}, fresh v s → sendOp grant v s a.toNat b.toNat = sendNew grant v s a.toNat b.toNat := fun new => by
    simp only [sendOp, show openSend _ _ _ = none from new]
  have here : ∀ {grant v s pn}, local' grant v s pn → (grant = true → granted v) →
      sendNew grant v s a.toNat b.toNat = sendLocal grant v s a.toNat b.toNat pn := by
    rintro grant v s pn ⟨e, ⟨h, hs, hc⟩, own | proxy⟩ hg
    · obtain ⟨ht, rfl⟩ := own
      rw [sendNew_named hs hc hg, if_pos ht]
    · obtain ⟨ht, x, hx, hm, rfl⟩ := proxy
      have other : ¬ e.type = tPORT := by rw [ht]; decide
      rw [sendNew_named hs hc hg, if_neg other, hx]
      exact if_pos hm
  have there : ∀ {grant v s x}, away grant v s x → (grant = true → granted v) → sendNew grant v s a.toNat b.toNat =
      sendAway v s (waveRegion s v.w) x (if grant then some (blockGrant v a.toNat) else none) := by
    rintro grant v s x ⟨e, ⟨h, hs, hc⟩, ht, hx, hm⟩ hg
    have other : ¬ e.type = tPORT := by rw [ht]; decide
    rw [sendNew_named hs hc hg, if_neg other, hx]
    exact if_neg hm
  have refuses : ∀ grant st v s, fails grant st v s = refused s (sendForm grant) v st := fun grant st v s =>
    if_congr (by rw [← BitVec.toNat_inj]; rfl) rfl rfl
  refine ⟨fun s pn p m live hp => ⟨?sendRoom, ?sendFull⟩, fun pn s' => ?psend, fun pn s' => ?pgrant, fun x => ?away,
    fun grant n r => ?again, fun h e p m rest => ?precv, ?pslot, fun bs s1 p m s2 => ?pnew, fun x m => ?pnameHere,
    fun x m => ?pnameAway, fun e => ?pregHere, fun e => ?pregAway, fun s pn m => sendHere_dead, fun pn st => ?psendFails,
    fun e => ?pgrantFails, ?grantFails, ?grantHereFails, fun h e p => ?precvFails, ?pnewFails, ?pnameFails, ?pregFails⟩
  case sendRoom => exact sendHere_room live hp
  case sendFull =>
    intro full borrow
    refine sendHere_full live hp ?_
    rw [portRoom, decide_eq_false (Nat.not_lt.mpr full), Bool.false_or, Bool.and_eq_false_iff, decide_eq_false_iff_not, Nat.not_lt]
    exact borrow
  case psend =>
    refine reports_objOp (runs false) (cls false) fun v s ⟨new, here', hm⟩ => ?_
    rw [begins new, here here' fun no => nomatch no]
    simp only [sendLocal, hm, Bool.false_eq_true, if_false]
  case pgrant =>
    refine reports_objOp (runs true) (cls true) fun v s ⟨new, here', named, hm⟩ => ?_
    rw [begins new, here here' fun _ => named]
    exact hm
  case away =>
    have reach : ∀ {v s}, fresh v s → away true v s x → granted v → sendOp true v s a.toNat b.toNat =
        sendAway v s (waveRegion s v.w) x (some (blockGrant v a.toNat)) := fun new aw named => by
      rw [begins new, there aw fun _ => named]
      rfl
    have address : ∀ v, BitVec.ofNat 64 (blockGrant v a.toNat).va = va v := fun v => by simp [blockGrant, va]
    refine ⟨fun grant => ?retraining, ?plain, ?grants⟩
    case retraining =>
      refine doesWhen_objOp (runs grant) (cls grant) (fun v s c r => c.1 r.2.1) fun v s ⟨_, new, aw, named, down⟩ => ?_
      rw [begins new, there aw named, sendAway_retraining down]
      exact (refuses ..).symm
    case plain =>
      refine doesWhen_objOp (runs false) (cls false) (fun v s c r => c.1 r.2.1) fun v s ⟨_, new, aw, up⟩ => ?_
      rw [begins new, there aw fun no => nomatch no]
      exact congrArg _ (sendAway_plain up)
    case grants =>
      intro walked page grants
      have starts : ∀ {c t}, (∀ v s, linksRetraining s x.module = false → c v s →
          objEnded s (sendForm true) v (sendAway v s (waveRegion s v.w) x (some (blockGrant v a.toNat))) = t v s) → grants c t := by
        intro c t ht
        refine doesWhen_objOp (runs true) (cls true) (fun v s c r => c.1 r.2.1) fun v s ⟨_, new, aw, named, up, cond⟩ => ?_
        rw [reach new aw named, ht v s up cond]
      have read : ∀ {v}, gw v / 2 ^ 16 % 2 = 1 → (blockGrant v a.toNat).read = true := fun hr => beq_iff_eq.mpr hr
      refine ⟨starts fun v s up unread => ?_, starts fun v s up ⟨hr, hp⟩ => ?_, fun fs => starts fun v s up ⟨hr, hp⟩ => ?_,
        fun n fs => starts fun v s up ⟨hr, hp⟩ => ?_⟩
      · rw [sendAway_unread up (by simp [blockGrant, gw] at unread ⊢; omega)]
        exact (refuses ..).symm
      all_goals rw [sendAway_read up (read hr)]
      all_goals refine (congrArg (fun r => objEnded s (sendForm true) v (grantOut x v (walked v s) (blockGrant v a.toNat) r)) hp).trans ?_
      · exact (refuses ..).symm
      · exact congrArg (wentOut x v (walked v s) true true · (gw v % 512)) (address v)
      · exact congrArg (wentOut x v (walked v s) true false · (gw v % 512)) (address v)
  case again =>
    intro answered'
    have report : ∀ v s t q st, q.reply = some st → objEnded s (sendForm grant) v (answered t n q) = answered' v t q st := by
      intro v s t q st hq
      simp only [answered, hq, answered', refuses]
      split <;> rfl
    have open' : ∀ v s, openSend s v.wid v.pc = some (n, r) → ¬ restartBars (sendForm grant) v s := fun v s hn ⟨_, _, none'⟩ => by
      rw [hn] at none'
      cases none'
    refine ⟨doesWhen_objOp (runs grant) (cls grant) (fun v s c => open' v s c.1) fun v s ⟨hn, hr, ha⟩ => ?_,
      fun st => doesWhen_objOp (runs grant) (cls grant) (fun v s c => open' v s c.1) fun v s ⟨hn, hr⟩ => ?_,
      fun q st => doesWhen_objOp (runs grant) (cls grant) (fun v s c => open' v s c.1) fun v s ⟨hn, hr, ha, hq, hst⟩ => ?_⟩
    all_goals simp only [sendOp, hn]
    · rw [sendAgain_waits hr ha]
      rfl
    · rw [sendAgain_replied hr, report _ _ _ _ _ hr]
    · rw [sendAgain_passes hr ha hq hst, report _ _ _ _ _ hst]
  case precv =>
    refine reports_objOp (fun _ => rfl) (.inl rfl) fun v s ⟨hs, hc, hp, hq⟩ => ?_
    simp only [hs, hc, hp, hq]
  case pslot =>
    refine reports_objOp (fun _ => rfl) (.inl rfl) fun v s named => ?_
    by_cases hz : v.w.readS64 a.toNat = 0
    · simp only [if_pos hz]
    · obtain ⟨e, hc⟩ := named.resolve_left hz
      simp only [if_neg hz, hc]
  case pnew =>
    refine reports_objOp (fun _ => rfl) (.inl rfl) fun v s ⟨hf, hp, hu, hh, hm, ht⟩ => ?_
    unfold rootOf at *
    simp only [*, Bool.not_true, Bool.false_eq_true, if_false]
  case pnameHere =>
    refine reports_objOp (fun _ => rfl) (.inl rfl) fun v s ⟨hd, hn, live, hm⟩ => ?_
    simp only [resolveName_here hd, hn, live, askDirectory_here hd, hm, hd, Bool.false_eq_true, if_true, if_false,
      BitVec.ofNat_toNat, BitVec.setWidth_eq]
  case pnameAway =>
    refine reports_objOp (fun _ => rfl) (.inl rfl) fun v s ⟨hd, live, hn, hm⟩ => ?_
    have found := resolveName_away hd hn
    have asked := askDirectory_away (rg := waveRegion s v.w) hd
    unfold cachedName at asked
    rw [← asked] at hm
    simp only [found, live, hm, hd, Bool.false_eq_true, if_false, BitVec.ofNat_toNat, BitVec.setWidth_eq]
  case pregHere =>
    refine reports_objOp (fun _ => rfl) (.inl rfl) fun v s ⟨hc, hz, hd, free⟩ => ?_
    rw [← resolveName_here hd] at free
    cases hn : resolveName s (v.w.readS64 b.toNat).toNat with
    | none => simp only [hc, if_neg hz, hn, hd, hRights_grant, Bool.false_eq_true, if_true, if_false]
    | some x => simp only [hc, if_neg hz, hn, free x hn, hd, hRights_grant, Bool.not_true, Bool.false_eq_true, if_true, if_false]
  case pregAway =>
    refine reports_objOp (fun _ => rfl) (.inl rfl) fun v s ⟨hc, hz, hd, free⟩ => ?_
    cases hn : resolveName s (v.w.readS64 b.toNat).toNat with
    | none => simp only [hc, if_neg hz, hn, hd, hRights_grant, Bool.false_eq_true, if_false]
    | some x => simp only [hc, if_neg hz, hn, free x hn, hd, hRights_grant, Bool.not_true, Bool.false_eq_true, if_false]
  case psendFails =>
    refine fails_objOp (runs false) (cls false) fun v s ⟨new, here', hm⟩ => ?_
    rw [begins new, here here' fun no => nomatch no]
    simp only [sendLocal, hm, Bool.false_eq_true, if_false]
  case pgrantFails =>
    refine fails_objOp (runs true) (cls true) fun v s ⟨new, ⟨h, hs, hc⟩, bad⟩ => ?_
    rw [begins new, sendNew_malformed hs hc ⟨rfl, bad⟩]
    rfl
  case grantFails =>
    intro grants here'' pn st
    refine ⟨fails_objOp (runs true) (cls true) fun v s ⟨⟨new, here', named⟩, hm⟩ => ?_,
      fun t => failsIn_objOp (runs true) (cls true) fun v s ⟨⟨new, here', named⟩, hm⟩ => ?_⟩
    all_goals rw [begins new, here here' fun _ => named]
    all_goals exact hm
  case grantHereFails =>
    intro s rg pn m g p here'' t pages full
    refine ⟨fun dead => if_pos dead, fun live hp => ⟨grantHere_unfit live hp, fun lz fit read => ?_⟩⟩
    exact ⟨grantHere_bad live hp lz fit read, fun fs owned => ⟨grantHere_full live hp lz fit read (.inl owned),
      grantHere_over_budget live hp lz fit read owned⟩, fun n fs sealed' => grantHere_full live hp lz fit read (.inr ⟨n, sealed'⟩)⟩
  case precvFails =>
    refine fails_objOp (fun _ => rfl) (.inl rfl) fun v s ⟨hs, hc, hp, hq⟩ => ?_
    simp only [hs, hc, hp, hq]
    rfl
  case pnewFails =>
    dsimp only
    refine fun bs s1 p => ⟨failsIn_objOp (fun _ => rfl) (.inl rfl) fun v s hf => ?_,
      failsIn_objOp (fun _ => rfl) (.inl rfl) fun v s ⟨hf, hp⟩ => ?_,
      failsIn_objOp (fun _ => rfl) (.inl rfl) fun v s ⟨⟨hf, hp⟩, hu⟩ => ?_,
      fun st => failsIn_objOp (fun _ => rfl) (.inl rfl) fun v s ⟨⟨hf, hp⟩, ⟨hu, hh⟩, hm⟩ => ?_,
      fun m => failsIn_objOp (fun _ => rfl) (.inl rfl) fun v s ⟨⟨hf, hp⟩, ⟨hu, hh⟩, hm, ht⟩ => ?_⟩
    all_goals unfold rootOf at *
    all_goals simp only [*, Bool.not_true, Bool.not_false, Bool.false_eq_true, if_true, if_false]
    all_goals rfl
  case pnameFails =>
    dsimp only
    refine ⟨failsIn_objOp (fun _ => rfl) (.inl rfl) fun v s hn => ?_,
      fun x => ⟨failsIn_objOp (fun _ => rfl) (.inl rfl) fun v s ⟨hn, dead⟩ => ?_,
        fun st => failsIn_objOp (fun _ => rfl) (.inl rfl) fun v s ⟨hn, live, hm⟩ => ?_⟩⟩
    · simp only [hn]
      rfl
    · simp only [hn, dead, if_true]
      rfl
    · simp only [hn, live, hm, Bool.false_eq_true, if_false]
  case pregFails =>
    dsimp only
    refine fun e => ⟨fails_objOp (fun _ => rfl) (.inl rfl) fun v s ⟨hc, zero⟩ => ?_,
      fun x => failsIn_objOp (fun _ => rfl) (.inl rfl) fun v s ⟨hc, hz, hn, live⟩ => ?_⟩
    · simp only [hc, zero]
      rfl
    · have name : ¬ (v.w.readS64 b.toNat).toNat = 0 := fun h0 => hz (BitVec.eq_of_toNat_eq h0)
      simp only [hc, hn, live, if_neg name, Bool.not_false, if_true]
      rfl

end Sys2Proof.Machine

/-! SUPPORT. What every step keeps: the canonical form of memory and of the scratchpads, and the limits of the scheduler's
parameters (spec/15 R262, R267; spec/21 Table 21.2). Each operation is shown to keep it once, in the order of the model. -/

namespace Sys2Proof.Machine

open Sys2Proof

/-! ### What is kept -/

/-- From `s` to `t` the memory and the scratchpads stay in canonical form, and the scheduler's parameters within their limits. -/
structure Keeps (s t : State) : Prop where
  memory : s.memoryOk → t.memoryOk
  spads : s.spadsOk → t.spadsOk
  params : s.paramsOk → t.paramsOk

theorem Keeps.refl (s : State) : Keeps s s := ⟨id, id, id⟩

section
variable {s₀ s t : State} (h : Keeps s₀ s)
include h

/-- An update that leaves memory, gangs and parameters alone. -/
theorem Keeps.of_eq (mem : t.mem = s.mem) (gangs : t.gangs = s.gangs) (agelimit : t.agelimit = s.agelimit)
    (quantum : t.quantum = s.quantum) : Keeps s₀ t := by
  refine ⟨fun ok => ?_, fun ok => ?_, fun ok => ?_⟩
  · rw [State.memoryOk, mem]
    exact h.memory ok
  · rw [State.spadsOk, gangs]
    exact h.spads ok
  · rw [State.paramsOk, agelimit, quantum]
    exact h.params ok

/-- The same, where the update is written out. -/
theorem Keeps.frame {time fresh serial : Nat} {agenda : List (Nat × Instr)} {cur : Option Nat}
    {issued wants hbmFree deepFree : List Nat} {hostL2 : FMap HostLine} {hostLines : FMap (List (BitVec 8))}
    {flushes : FMap FlushJob} {tlb : FMap (List DWord)} {fetched : FMap (Nat × Word)} {pool : FMap PoolLine}
    {hbmNext deepNext resident intervals leases moved metered nextGen dedup late : FMap Nat} {moves : FMap (List Nat)}
    {migs : FMap Migration} {channels : FMap (Nat × Nat × Int)} {accesses : FMap (Nat × Nat)} {regions : FMap Region}
    {ranges : FMap Range} {cohorts : FMap Cohort} {waves : FMap Wave} {entries : FMap Entry} {charged : FMap Charged}
    {waitsets : FMap (FMap Member)} {timers : FMap Timer} {ports : FMap Port} {proxies : FMap Proxy}
    {segments : FMap Segment} {links : FMap LinkPort} {sends : FMap RemoteSend} {reservations : FMap Reservation}
    {held : List HeldSend} {names aqueduct : FMap Binding} {peers : FMap Peer} {clusters : FMap Cluster} {host : HostState} :
    Keeps s₀ { s with
      time := time, agenda := agenda, cur := cur, fresh := fresh, serial := serial, issued := issued, wants := wants
      hostL2 := hostL2, hostLines := hostLines, flushes := flushes, tlb := tlb, fetched := fetched, pool := pool
      hbmNext := hbmNext, hbmFree := hbmFree, deepNext := deepNext, deepFree := deepFree, resident := resident
      moves := moves, migs := migs, channels := channels, intervals := intervals, leases := leases, accesses := accesses
      moved := moved, metered := metered, regions := regions, ranges := ranges, cohorts := cohorts, waves := waves
      entries := entries, nextGen := nextGen, charged := charged, waitsets := waitsets, timers := timers, ports := ports
      proxies := proxies, segments := segments, links := links, dedup := dedup, sends := sends
      reservations := reservations, held := held, late := late, names := names, peers := peers, aqueduct := aqueduct
      clusters := clusters, host := host } :=
  h.of_eq rfl rfl rfl rfl

/-- An update that leaves gangs and parameters alone, and writes memory in its canonical form. -/
theorem Keeps.withMem (memory : s.memoryOk → t.memoryOk) (gangs : t.gangs = s.gangs) (agelimit : t.agelimit = s.agelimit)
    (quantum : t.quantum = s.quantum) : Keeps s₀ t := by
  refine ⟨fun ok => memory (h.memory ok), fun ok => ?_, fun ok => ?_⟩
  · rw [State.spadsOk, gangs]
    exact h.spads ok
  · rw [State.paramsOk, agelimit, quantum]
    exact h.params ok

/-- An update that leaves memory and parameters alone, and writes scratchpads in their canonical form. -/
theorem Keeps.withGangs (spads : s.spadsOk → t.spadsOk) (mem : t.mem = s.mem) (agelimit : t.agelimit = s.agelimit)
    (quantum : t.quantum = s.quantum) : Keeps s₀ t := by
  refine ⟨fun ok => ?_, fun ok => spads (h.spads ok), fun ok => ?_⟩
  · rw [State.memoryOk, mem]
    exact h.memory ok
  · rw [State.paramsOk, agelimit, quantum]
    exact h.params ok

theorem keeps_ite {p : Prop} [Decidable p] (h' : Keeps s₀ t) : Keeps s₀ (if p then s else t) := by
  split
  · exact h
  · exact h'

theorem keeps_foldl {α : Type} {f : State → α → State} {l : List α} (hf : ∀ s x, Keeps s₀ s → Keeps s₀ (f s x)) :
    Keeps s₀ (l.foldl f s) := by
  induction l generalizing s with
  | nil => exact h
  | cons x l ih => exact ih (hf s x h)

end

/-- The same of a fold that carries the state with something else. -/
theorem keeps_foldl_of {α β : Type} {s₀ : State} {get : β → State} {f : β → α → β} {l : List α} {b : β}
    (h : Keeps s₀ (get b))
    (hf : ∀ b x, Keeps s₀ (get b) → Keeps s₀ (get (f b x))) : Keeps s₀ (get (l.foldl f b)) := by
  induction l generalizing b with
  | nil => exact h
  | cons x l ih => exact ih (hf b x h)

/-! ### What holds a state

A result that may hold a state keeps what that state keeps. -/

def KeepsOpt (s₀ : State) : Option State → Prop
  | some t => Keeps s₀ t
  | none => True

def KeepsOptPair {α : Type} (s₀ : State) : Option (α × State) → Prop
  | some (_, t) => Keeps s₀ t
  | none => True

def KeepsExc (s₀ : State) : Except Nat State → Prop
  | .ok t => Keeps s₀ t
  | .error _ => True

def KeepsExcPair {α : Type} (s₀ : State) : Except Nat (α × State) → Prop
  | .ok (_, t) => Keeps s₀ t
  | .error _ => True

def KeepsMade (s₀ : State) : Except Nat Made → Prop
  | .ok m => Keeps s₀ m.st
  | .error _ => True

def KeepsFetched (s₀ : State) : Fetched → Prop
  | .ok _ t => Keeps s₀ t
  | .wait _ => True
  | .bad t => Keeps s₀ t

def KeepsParsed {α : Type} (s₀ : State) : Parsed α → Prop
  | .ok _ t => Keeps s₀ t
  | .wait _ => True
  | .bad t => Keeps s₀ t

def KeepsLaunched (s₀ : State) : Launched → Prop
  | .ok m => Keeps s₀ m.st
  | .wait _ => True
  | .refused t _ => Keeps s₀ t

def KeepsObj (s₀ : State) : ObjRes → Prop
  | .ok t _ => Keeps s₀ t
  | .fail _ => True
  | .failed t _ => Keeps s₀ t
  | .due t _ => Keeps s₀ t
  | .hold => True
  | .await _ => True
  | .under t => Keeps s₀ t
  | .trap _ _ _ => True
  | .raw t => Keeps s₀ t

def KeepsCsa (s₀ : State) : CsaAccess State → Prop
  | .ok t => Keeps s₀ t
  | .wait _ => True
  | .fail _ _ => True

def KeepsCsaPair {α : Type} (s₀ : State) : CsaAccess (α × State) → Prop
  | .ok (_, t) => Keeps s₀ t
  | .wait _ => True
  | .fail _ _ => True

def KeepsStarted (s₀ : State) : Started → Prop
  | .runs t => Keeps s₀ t
  | .ends t _ => Keeps s₀ t
  | .pages _ _ => True

def KeepsFetch (s₀ : State) : FetchEnd → Prop
  | .word _ t => Keeps s₀ t
  | .trap t => Keeps s₀ t
  | .wait _ => True

def KeepsRes (s₀ : State) : Res → Prop
  | .done t => Keeps s₀ t
  | .jump t _ => Keeps s₀ t
  | .logged t => Keeps s₀ t
  | .trap t _ _ _ => Keeps s₀ t
  | .hold => True
  | .await _ => True
  | .raw t => Keeps s₀ t

/-- The outcome is a next state, which keeps what a state keeps. -/
def KeepsOut (s₀ : State) : Host.Outcome State Fault Refusal → Prop
  | .next t => Keeps s₀ t
  | _ => False

section
variable {s₀ t : State}

theorem KeepsOpt.of_some {o : Option State} (h : KeepsOpt s₀ o) (e : o = some t) : Keeps s₀ t := by
  subst e
  exact h

theorem KeepsOptPair.of_some {α : Type} {o : Option (α × State)} {x : α} (h : KeepsOptPair s₀ o) (e : o = some (x, t)) :
    Keeps s₀ t := by
  subst e
  exact h

theorem KeepsExc.of_ok {o : Except Nat State} (h : KeepsExc s₀ o) (e : o = .ok t) : Keeps s₀ t := by
  subst e
  exact h

theorem KeepsExcPair.of_ok {α : Type} {o : Except Nat (α × State)} {x : α} (h : KeepsExcPair s₀ o) (e : o = .ok (x, t)) :
    Keeps s₀ t := by
  subst e
  exact h

theorem KeepsMade.of_ok {o : Except Nat Made} {m : Made} (h : KeepsMade s₀ o) (e : o = .ok m) : Keeps s₀ m.st := by
  subst e
  exact h

theorem KeepsFetched.of_ok {f : Fetched} {bs : List (BitVec 8)} (h : KeepsFetched s₀ f) (e : f = .ok bs t) : Keeps s₀ t := by
  subst e
  exact h

theorem KeepsFetched.of_bad {f : Fetched} (h : KeepsFetched s₀ f) (e : f = .bad t) : Keeps s₀ t := by
  subst e
  exact h

theorem KeepsParsed.of_ok {α : Type} {o : Parsed α} {x : α} (h : KeepsParsed s₀ o) (e : o = .ok x t) : Keeps s₀ t := by
  subst e
  exact h

theorem KeepsParsed.of_bad {α : Type} {o : Parsed α} (h : KeepsParsed s₀ o) (e : o = .bad t) : Keeps s₀ t := by
  subst e
  exact h

theorem KeepsLaunched.of_ok {o : Launched} {m : Made} (h : KeepsLaunched s₀ o) (e : o = .ok m) : Keeps s₀ m.st := by
  subst e
  exact h

theorem KeepsLaunched.of_refused {o : Launched} {st : Nat} (h : KeepsLaunched s₀ o) (e : o = .refused t st) : Keeps s₀ t := by
  subst e
  exact h

theorem KeepsCsa.of_ok {o : CsaAccess State} (h : KeepsCsa s₀ o) (e : o = .ok t) : Keeps s₀ t := by
  subst e
  exact h

theorem KeepsCsaPair.of_ok {α : Type} {o : CsaAccess (α × State)} {x : α} (h : KeepsCsaPair s₀ o) (e : o = .ok (x, t)) :
    Keeps s₀ t := by
  subst e
  exact h

theorem KeepsStarted.of_runs {o : Started} (h : KeepsStarted s₀ o) (e : o = .runs t) : Keeps s₀ t := by
  subst e
  exact h

theorem KeepsStarted.of_ends {o : Started} {st : Nat} (h : KeepsStarted s₀ o) (e : o = .ends t st) : Keeps s₀ t := by
  subst e
  exact h

theorem KeepsFetch.of_word {o : FetchEnd} {x : Word} (h : KeepsFetch s₀ o) (e : o = .word x t) : Keeps s₀ t := by
  subst e
  exact h

theorem KeepsFetch.of_trap {o : FetchEnd} (h : KeepsFetch s₀ o) (e : o = .trap t) : Keeps s₀ t := by
  subst e
  exact h

theorem KeepsRes.of_done {r : Res} (h : KeepsRes s₀ r) (e : r = .done t) : Keeps s₀ t := by
  subst e
  exact h

theorem KeepsRes.of_jump {r : Res} {pcs : List DWord} (h : KeepsRes s₀ r) (e : r = .jump t pcs) : Keeps s₀ t := by
  subst e
  exact h

theorem KeepsRes.of_logged {r : Res} (h : KeepsRes s₀ r) (e : r = .logged t) : Keeps s₀ t := by
  subst e
  exact h

theorem KeepsRes.of_trap {r : Res} {c i : Nat} {a : DWord} (h : KeepsRes s₀ r) (e : r = .trap t c i a) : Keeps s₀ t := by
  subst e
  exact h

theorem KeepsRes.of_raw {r : Res} (h : KeepsRes s₀ r) (e : r = .raw t) : Keeps s₀ t := by
  subst e
  exact h

theorem KeepsOut.of_next {o : Host.Outcome State Fault Refusal} (h : KeepsOut s₀ o) (e : o = .next t) : Keeps s₀ t := by
  subst e
  exact h

theorem KeepsOpt.map {o : Option State} {f : State → State} (h : KeepsOpt s₀ o) (hf : ∀ t, Keeps s₀ t → Keeps s₀ (f t)) :
    KeepsOpt s₀ (o.map f) := by
  cases o
  · trivial
  · exact hf _ h

theorem KeepsOpt.bind {o : Option State} {f : State → Option State} (h : KeepsOpt s₀ o)
    (hf : ∀ t, Keeps s₀ t → KeepsOpt s₀ (f t)) : KeepsOpt s₀ (o.bind f) := by
  cases o
  · trivial
  · exact hf _ h

theorem KeepsOpt.bindPair {α : Type} {o : Option State} {f : State → Option (α × State)} (h : KeepsOpt s₀ o)
    (hf : ∀ t, Keeps s₀ t → KeepsOptPair s₀ (f t)) : KeepsOptPair s₀ (o.bind f) := by
  cases o
  · trivial
  · exact hf _ h

theorem KeepsOptPair.map {α : Type} {o : Option (α × State)} {f : α × State → State} (h : KeepsOptPair s₀ o)
    (hf : ∀ x, Keeps s₀ x.2 → Keeps s₀ (f x)) : KeepsOpt s₀ (o.map f) := by
  cases o
  · trivial
  · exact hf _ h

theorem KeepsOptPair.mapPair {α β : Type} {o : Option (α × State)} {f : α × State → β × State} (h : KeepsOptPair s₀ o)
    (hf : ∀ x, Keeps s₀ x.2 → Keeps s₀ (f x).2) : KeepsOptPair s₀ (o.map f) := by
  cases o
  · trivial
  · exact hf _ h

theorem KeepsOptPair.bind {α : Type} {o : Option (α × State)} {f : α × State → Option State} (h : KeepsOptPair s₀ o)
    (hf : ∀ x, Keeps s₀ x.2 → KeepsOpt s₀ (f x)) : KeepsOpt s₀ (o.bind f) := by
  cases o
  · trivial
  · exact hf _ h

theorem KeepsOpt.mapToPair {α : Type} {o : Option State} {f : State → α × State} (h : KeepsOpt s₀ o)
    (hf : ∀ t, Keeps s₀ t → Keeps s₀ (f t).2) : KeepsOptPair s₀ (o.map f) := by
  cases o
  · trivial
  · exact hf _ h

theorem KeepsOptPair.bindPair {α β : Type} {o : Option (α × State)} {f : α × State → Option (β × State)}
    (h : KeepsOptPair s₀ o) (hf : ∀ x, Keeps s₀ x.2 → KeepsOptPair s₀ (f x)) : KeepsOptPair s₀ (o.bind f) := by
  cases o
  · trivial
  · exact hf _ h

theorem KeepsExc.bind {o : Except Nat State} {f : State → Except Nat State} (h : KeepsExc s₀ o)
    (hf : ∀ t, Keeps s₀ t → KeepsExc s₀ (f t)) : KeepsExc s₀ (o.bind f) := by
  cases o
  · trivial
  · exact hf _ h

theorem keeps_getD {s : State} {o : Option State} (h : KeepsOpt s₀ o) (h' : Keeps s₀ s) : Keeps s₀ (o.getD s) := by
  cases o
  · exact h'
  · exact h

theorem keepsRes_ite {p : Prop} [Decidable p] {a b : Res} (ha : KeepsRes s₀ a) (hb : KeepsRes s₀ b) :
    KeepsRes s₀ (if p then a else b) := by
  split
  · exact ha
  · exact hb

theorem keepsObj_ite {p : Prop} [Decidable p] {a b : ObjRes} (ha : KeepsObj s₀ a) (hb : KeepsObj s₀ b) :
    KeepsObj s₀ (if p then a else b) := by
  split
  · exact ha
  · exact hb

end

/-! ### Scratchpads -/

/-- Values that a map holds once a key's value is changed: the old ones, and the changed one. -/
theorem mem_fmod {α : Type} {m : FMap α} {k : Nat} {f : α → α} {p : Nat × α} (h : p ∈ fmod m k f) :
    p ∈ m ∨ ∃ x, (k, x) ∈ m ∧ p = (k, f x) := by
  unfold fmod at h
  split at h
  · next x found => exact (mem_of_mem_fset h).symm.imp_right fun e => ⟨x, mem_of_fget found, e⟩
  · exact .inl h

/-- Gangs may change as they please, as long as their scratchpads stay in canonical form. -/
theorem keeps_modGang {s₀ s : State} {g : Nat} {f : Gang → Gang} (h : Keeps s₀ s)
    (hf : ∀ x, Memory.wf x.spad = true → Memory.wf (f x).spad = true) :
    Keeps s₀ (modGang s g f) := by
  refine h.withGangs (fun ok p hp => ?_) rfl rfl rfl
  rcases mem_fmod hp with old | ⟨x, old, rfl⟩
  · exact ok p old
  · exact hf x (ok _ old)

/-- The same where every gang changes. -/
theorem keeps_mapGangs {s₀ s : State} {f : Nat → Gang → Gang} (h : Keeps s₀ s)
    (hf : ∀ k x, Memory.wf x.spad = true → Memory.wf (f k x).spad = true) :
    Keeps s₀ { s with gangs := fmapv f s.gangs } := by
  refine h.withGangs (fun ok p hp => ?_) rfl rfl rfl
  obtain ⟨q, old, rfl⟩ := List.mem_map.mp hp
  exact hf _ _ (ok q old)

/-- The same where a gang comes that has nothing in its scratchpad. -/
theorem keeps_setGang {s₀ s : State} {g : Nat} {x : Gang} (h : Keeps s₀ s) (hx : Memory.wf x.spad = true) :
    Keeps s₀ { s with gangs := fset s.gangs g x } := by
  refine h.withGangs (fun ok p hp => ?_) rfl rfl rfl
  rcases mem_of_mem_fset hp with rfl | old
  · exact hx
  · exact ok p old

end Sys2Proof.Machine

/-! SUPPORT. The operations over memory, frames and page tables, and the ends of waves, gangs and cohorts, keep what every step
keeps (spec/03 R40, R41, R47; spec/15 R265 to R290; spec/17 R300 to R305). -/

namespace Sys2Proof.Machine

open Sys2Proof

section
variable {s₀ s : State} (h : Keeps s₀ s)
include h

/-! ### Operations of the state -/

theorem keeps_setWave {w : Nat} {v : Wave} : Keeps s₀ (setWave s w v) :=
  h.frame

theorem keeps_modWave {w : Nat} {f : Wave → Wave} : Keeps s₀ (modWave s w f) :=
  h.frame

theorem keeps_modCohort {c : Nat} {f : Cohort → Cohort} : Keeps s₀ (modCohort s c f) :=
  h.frame

theorem keeps_modRegion {r : Nat} {f : Region → Region} : Keeps s₀ (modRegion s r f) :=
  h.frame

theorem keeps_modHost {f : HostState → HostState} : Keeps s₀ (modHost s f) :=
  h.frame

theorem keeps_charge {x : Resource} {r n : Nat} : Keeps s₀ (charge s x r n) :=
  keeps_foldl h fun _ _ h => keeps_modRegion h

theorem keeps_uncharge {x : Resource} {r n : Nat} : Keeps s₀ (uncharge s x r n) :=
  keeps_foldl h fun _ _ h => keeps_modRegion h

theorem keeps_pushEvent {r code : Nat} {hd : DWord} : Keeps s₀ (pushEvent s r code hd) :=
  keeps_modRegion h

theorem keeps_placementDue {f : Nat → Bool} : Keeps s₀ (placementDue s f) :=
  h.frame

theorem keeps_touchLine {pa : Nat} : Keeps s₀ (touchLine s pa) := by
  unfold touchLine
  refine keeps_ite h.frame ?_
  split
  · exact h.withMem (fun ok => wf_setBytes _ _ ok) rfl rfl rfl
  · exact h

theorem keeps_devSet {pa : Nat} {x : BitVec 8} : Keeps s₀ (devSet s pa x) := by
  unfold devSet
  dsimp only
  exact keeps_ite (keeps_touchLine h).frame ((keeps_touchLine h).withMem (fun ok => wf_setByte _ _ ok) rfl rfl rfl)

theorem keeps_devSetBytes {l : List (BitVec 8)} {a : Nat} : Keeps s₀ (devSetBytes s a l) := by
  induction l generalizing s a with
  | nil => exact h
  | cons x l ih => exact ih (keeps_devSet h)

theorem keeps_writeBack {line : Nat} : Keeps s₀ (writeBack s line) := by
  obtain ⟨m, l, e⟩ := writeBack_frame s line
  exact h.withMem (memoryOk_writeBack line) (by rw [e]) (by rw [e]) (by rw [e])

theorem keeps_hostWrite {pa : Nat} {bs : List (BitVec 8)} : Keeps s₀ (hostWrite s pa bs) :=
  h.withMem (fun ok => wf_setBytes _ _ ok) rfl rfl rfl

theorem keeps_writeBackAll : Keeps s₀ (writeBackAll s) :=
  keeps_foldl h fun _ _ h => keeps_writeBack h

theorem keeps_evictLines : Keeps s₀ (evictLines s) := by
  unfold evictLines
  dsimp only
  exact keeps_foldl h fun _ _ h => (keeps_writeBack h).frame

theorem keeps_discardHostLines : Keeps s₀ (discardHostLines s) := by
  unfold discardHostLines
  dsimp only
  exact (keeps_writeBackAll h).frame

theorem keeps_takeHbm {d : Nat} : KeepsOptPair s₀ (takeHbm s d) := by
  unfold takeHbm
  dsimp only
  split
  · exact h.frame
  · split
    · exact trivial
    · exact h.frame

theorem keeps_freeFrame {f : Nat} : Keeps s₀ (freeFrame s f) := by
  unfold freeFrame
  dsimp only
  exact keeps_ite h.frame h.frame

theorem keeps_takeDeep {d : Nat} : KeepsOptPair s₀ (takeDeep s d) := by
  unfold takeDeep
  dsimp only
  split
  · exact h.frame
  · split
    · exact trivial
    · exact h.frame

theorem keeps_copyFrame {src dst : Nat} : Keeps s₀ (copyFrame s src dst) :=
  h.withMem (memoryOk_copyFrame src dst) rfl rfl rfl

theorem keeps_zeroFrame {f : Nat} : Keeps s₀ (zeroFrame s f) :=
  h.withMem (memoryOk_zeroFrame f) rfl rfl rfl

theorem keeps_discard {dom : Nat} : Keeps s₀ (discard s dom) := by
  unfold discard
  dsimp only
  exact keeps_modHost h.frame

theorem keeps_discardOf {r : Nat} : Keeps s₀ (discardOf s r) :=
  keeps_discard h

theorem keeps_takeTrap {wid : Nat} {t : TrapRegs} : Keeps s₀ (takeTrap s wid t) := by
  unfold takeTrap
  dsimp only
  split
  · exact h
  · exact keeps_ite (keeps_discardOf h) (keeps_setWave h)

theorem keeps_addPending {wid : Nat} {p : Pending} : Keeps s₀ (addPending s wid p) :=
  keeps_modWave h

theorem keeps_newEntry {type obj rights holder home : Nat} : KeepsOptPair s₀ (newEntry s type obj rights holder home) := by
  unfold newEntry
  dsimp only
  split
  · exact trivial
  · exact h.frame

theorem keeps_settleCharge {obj : Nat} : Keeps s₀ (settleCharge s obj) := by
  unfold settleCharge
  dsimp only
  split
  · exact keeps_ite ((keeps_uncharge h).frame) h
  · exact h

theorem keeps_objectEnded {obj : Nat} : Keeps s₀ (objectEnded s obj) :=
  keeps_settleCharge h.frame

theorem keeps_freeEntry {i : Nat} : Keeps s₀ (freeEntry s i) := by
  unfold freeEntry
  dsimp only
  split
  · exact h
  · exact keeps_ite (keeps_settleCharge h.frame) h.frame

theorem keeps_writeCompletion {hd : HeldWord} : Keeps s₀ (writeCompletion s hd) := by
  unfold writeCompletion
  dsimp only
  exact keeps_ite (keeps_ite (keeps_writeBackAll h) h) (keeps_hostWrite (keeps_ite (keeps_writeBackAll h) h))

theorem keeps_traffic {r kind bytes : Nat} : Keeps s₀ (traffic s r kind bytes) :=
  h.frame

theorem keeps_pageTraffic {src dst : Nat} : Keeps s₀ (pageTraffic s src dst) :=
  keeps_traffic (keeps_traffic h)

theorem keeps_askedBy {r : Nat} : Keeps s₀ (askedBy s r) := by
  unfold askedBy
  split
  · exact h
  · exact h.frame

theorem keeps_completePacket {pk status : Nat} : Keeps s₀ (completePacket s pk status) := by
  unfold completePacket
  dsimp only
  split
  · exact h
  · exact keeps_ite (keeps_modHost (keeps_modHost h)) (keeps_writeCompletion (keeps_modHost h))

theorem keeps_finishRange {r : Nat} : Keeps s₀ (finishRange s r) := by
  unfold finishRange
  dsimp only
  split
  · exact h
  · refine keeps_ite h ?_
    split
    · exact (keeps_objectEnded (keeps_pushEvent h.frame)).frame
    · exact keeps_completePacket ((keeps_objectEnded (keeps_pushEvent h.frame)).frame)

/-! ### The pool of lines -/

theorem keeps_mergeAt {pa : Nat} : Keeps s₀ (mergeAt s pa).1 := by
  obtain ⟨m, p, e⟩ := mergeAt_frame s pa
  exact h.withMem (memoryOk_mergeAt pa) (by rw [e]) (by rw [e]) (by rw [e])

theorem keeps_mergeFrame {f : Nat} : Keeps s₀ (mergeFrame s f) :=
  keeps_foldl h fun _ _ h => keeps_ite (keeps_mergeAt h) h

theorem keeps_contribute {core op : Nat} {anchor : Int} {pa : Nat} {v : Int} :
    Keeps s₀ (contribute s core op anchor pa v).1 := by
  have merged {same : Bool} : Keeps s₀ (if same then (s, none) else mergeAt s pa).1 := by
    cases same
    · exact keeps_mergeAt h
    · exact h
  exact merged.frame

/-! ### Tables and walks -/

theorem keeps_putEntry {a : Nat} {e : DWord} : Keeps s₀ (putEntry s a e) :=
  (keeps_touchLine (keeps_mergeAt h)).withMem (fun ok => wf_setBytes _ _ ok) rfl rfl rfl

theorem keeps_dropPage {va : Nat} : Keeps s₀ (dropPage s va) :=
  h.frame

theorem keeps_setLeaf {root : DWord} {va : Nat} {f : DWord → DWord} : Keeps s₀ (setLeaf s root va f) := by
  unfold setLeaf
  split
  · exact keeps_dropPage (keeps_putEntry h)
  · exact h

theorem keeps_markDirty {gen leafAt : Nat} {e : DWord} : Keeps s₀ (markDirty s gen leafAt e) := by
  unfold markDirty
  dsimp only
  exact keeps_ite h (keeps_ite h (keeps_putEntry h))

theorem keeps_settleWalk {root : DWord} {va : Nat} : Keeps s₀ (settleWalk s root va) :=
  keeps_ite h (keeps_foldl h fun _ _ h => keeps_mergeAt h)

theorem keeps_settleWalks {root : DWord} {va pages : Nat} : Keeps s₀ (settleWalks s root va pages) :=
  keeps_ite h (keeps_foldl h fun _ _ h => keeps_settleWalk h)

theorem keeps_noteResident {e : DWord} : Keeps s₀ (noteResident s e) :=
  keeps_ite h.frame h

theorem keeps_fillTlb {root : DWord} {va : Nat} {e : DWord} : Keeps s₀ (fillTlb s root va e) := by
  unfold fillTlb
  dsimp only
  exact (keeps_settleWalk (keeps_noteResident h)).frame

theorem keeps_writeEntry {root : DWord} {va : Nat} {e : DWord} : Keeps s₀ (writeEntry s root va e) := by
  unfold writeEntry
  split
  · exact keeps_dropPage (keeps_putEntry h)
  · exact h

theorem keeps_ensureTables {r die va fuel level t : Nat} : KeepsOptPair s₀ (ensureTables s r die va fuel level t) := by
  induction fuel generalizing s level t with
  | zero => trivial
  | succ fuel ih =>
    rw [ensureTables]
    dsimp only
    split
    · exact h
    · split
      · exact ih h
      · split
        · trivial
        · exact ih (keeps_putEntry (keeps_traffic (keeps_charge (keeps_zeroFrame ((keeps_takeHbm h).of_some ‹_›)))))

theorem keeps_mapPage {root : DWord} {r die va : Nat} {leaf : DWord} : KeepsOpt s₀ (mapPage s root r die va leaf) := by
  unfold mapPage
  split
  · exact trivial
  · exact keeps_dropPage (keeps_putEntry ((keeps_ensureTables h).of_some ‹_›))

/-! ### Residency of pages -/

theorem keeps_settleTables {root : DWord} : Keeps s₀ (settleTables s root) :=
  keeps_ite h (keeps_foldl h fun _ _ h => keeps_mergeFrame h)

theorem keeps_retarget {frame : Nat} {f : DWord → DWord} : Keeps s₀ (retarget s frame f) :=
  keeps_foldl h fun _ _ h => keeps_dropPage (keeps_putEntry h)

theorem keeps_moveUndo {old new : Nat} : Keeps s₀ (moveUndo s old new) := by
  refine h.withGangs (fun ok p hp => ?_) rfl rfl rfl
  obtain ⟨q, before, rfl⟩ := List.mem_map.mp hp
  exact ok q before

theorem keeps_dropFrame {f : Nat} : Keeps s₀ (dropFrame s f) :=
  h.frame

theorem keeps_movePage {old new : Nat} : Keeps s₀ (movePage s old new) :=
  keeps_dropFrame (keeps_moveUndo (keeps_copyFrame h))

theorem keeps_startMove {root : DWord} {va frame die : Nat} : Keeps s₀ (startMove s root va frame die) := by
  unfold startMove
  dsimp only
  exact (keeps_retarget h).frame

theorem keeps_modMoving {a : Nat} {f : DWord → DWord} : Keeps s₀ (modMoving s a f) :=
  h.frame

theorem keeps_endMove {frame : Nat} {f : Moving → DWord} : Keeps s₀ (endMove s frame f) := by
  unfold endMove
  dsimp only
  split
  · exact h
  · exact (keeps_foldl h fun _ _ h => keeps_dropPage (keeps_putEntry h)).frame

theorem keeps_dropMoving {a : Nat} : Keeps s₀ (dropMoving s a) :=
  h.frame

theorem keeps_settleFrame {f : Nat} : Keeps s₀ (settleFrame s f) :=
  keeps_foldl (keeps_mergeFrame h) fun _ _ h => keeps_touchLine h

theorem keeps_copyHostFrame {old new : Nat} : Keeps s₀ (copyHostFrame s old new) := by
  have written : Keeps s₀ ((s.hostL2.filter fun p => p.1 / 512 == old).foldl (fun s p => writeBack s p.1) s) :=
    keeps_foldl h fun _ _ h => keeps_writeBack h
  exact (keeps_movePage written).withMem (fun ok => wf_foldl _ (fun _ _ ok => wf_setBytes _ _ ok) _ ok) rfl rfl rfl

theorem keeps_evict {l : Leaf} : Keeps s₀ (evict s l) := by
  unfold evict
  dsimp only
  split
  · exact h
  · exact keeps_pageTraffic (keeps_charge (keeps_uncharge (keeps_freeFrame (keeps_retarget (keeps_movePage (keeps_settleFrame
      ((keeps_takeDeep h).of_some ‹_›)))))))

theorem keeps_dropReplicas {die n : Nat} : Keeps s₀ (dropReplicas die n s) :=
  keeps_foldl h fun _ _ h => keeps_ite h (keeps_freeFrame h.frame)

theorem keeps_makeRoomFor {prefetch : Bool} {die r n fuel : Nat} : KeepsOpt s₀ (makeRoomFor prefetch die r n fuel s) := by
  induction fuel generalizing s with
  | zero => trivial
  | succ fuel ih =>
    have dropped := keeps_dropReplicas (die := die) (n := n) h
    rw [makeRoomFor]
    dsimp only
    split
    · split
      · exact ih (keeps_evict dropped)
      · trivial
    · split
      · split
        · split
          · exact keeps_evict dropped
          · exact ih (keeps_evict dropped)
        · split
          · exact dropped
          · trivial
      · exact dropped

theorem keeps_makeRoom {die r n fuel : Nat} : KeepsOpt s₀ (makeRoom die r n fuel s) :=
  keeps_makeRoomFor h

theorem keeps_noteMove {frame : Nat} : Keeps s₀ (noteMove s frame) :=
  h.frame

theorem keeps_fillRoomFor {prefetch : Bool} {root : DWord} {va die : Nat} :
    KeepsOpt s₀ (fillRoomFor prefetch s root va die) := by
  unfold fillRoomFor
  split
  · split
    · exact keeps_makeRoomFor h
    · split
      · exact h
      · exact keeps_makeRoomFor h
    · exact h
  · split
    · exact trivial
    · exact keeps_makeRoomFor h

theorem keeps_fillRoom {root : DWord} {va die : Nat} : KeepsOpt s₀ (fillRoom s root va die) :=
  keeps_fillRoomFor h

theorem keeps_fillStack {root : DWord} {va die : Nat} : Keeps s₀ (fillStack s root va die) := by
  unfold fillStack
  dsimp only
  split
  · exact h
  · exact keeps_getD (keeps_mapPage (keeps_traffic (keeps_charge (keeps_zeroFrame ((keeps_takeHbm h).of_some ‹_›))))) h

theorem keeps_fillDeep {root : DWord} {frame : Nat} : Keeps s₀ (fillDeep s root frame) := by
  unfold fillDeep
  dsimp only
  split
  · exact h
  · exact keeps_pageTraffic (keeps_charge (keeps_uncharge (keeps_freeFrame (keeps_retarget (keeps_movePage
      ((keeps_takeHbm h).of_some ‹_›))))))

theorem keeps_bringHome {root : DWord} {frame die : Nat} : KeepsOptPair s₀ (bringHome s root frame die) :=
  (keeps_makeRoom h).bindPair fun _ h => (keeps_takeHbm h).mapPair fun _ h =>
    keeps_pageTraffic (keeps_charge (keeps_copyHostFrame h))

theorem keeps_residentNow {root : DWord} {va die : Nat} : KeepsOpt s₀ (residentNow s root va die) := by
  -- Made a variable, since the check of the branches would evaluate the function.
  obtain ⟨home, same⟩ : ∃ f, f = bringHome := ⟨_, rfl⟩
  have read {t : State} {root frame die} (h : Keeps s₀ t) : KeepsOptPair s₀ (home t root frame die) := same ▸ keeps_bringHome h
  rw [residentNow, ← same]
  split
  · split
    · exact keeps_settleWalk h
    · split
      · exact trivial
      · split
        · exact (keeps_fillRoom (keeps_settleWalk h)).map fun _ h => keeps_fillDeep h
        · split
          · exact keeps_settleWalk h
          · split
            · exact keeps_retarget (keeps_settleWalk h)
            · exact (read (keeps_startMove (keeps_settleWalk h))).map fun _ h => keeps_noteMove (keeps_endMove h)
        · exact keeps_settleWalk h
  · exact keeps_settleWalk h

theorem keeps_resolvePage {root : DWord} {va die : Nat} : Keeps s₀ (resolvePage s root va die) := by
  unfold resolvePage
  dsimp only
  split
  · refine keeps_ite (keeps_settleWalk h) ?_
    split
    · exact keeps_fillDeep ((keeps_fillRoom (keeps_settleWalk h)).of_some ‹_›)
    · exact keeps_ite (keeps_settleWalk h) (keeps_ite (keeps_retarget (keeps_settleWalk h)) (keeps_startMove
        (keeps_settleWalk h)))
    · exact keeps_settleWalk h
  · refine keeps_ite ?_ (keeps_settleWalk h)
    split
    · exact keeps_fillStack ((keeps_fillRoom (keeps_settleWalk h)).of_some ‹_›)
    · exact keeps_settleWalk h

/-! ### Accesses through the tables -/

theorem keeps_prepareList {ls : List Loc} : Keeps s₀ (prepareList s ls).1 := by
  refine keeps_foldl_of (get := Prod.fst) h fun acc l h => ?_
  cases l
  · exact keeps_touchLine (keeps_mergeAt h)
  · exact h

theorem keeps_setLoc {l : Loc} {x : BitVec 8} : Keeps s₀ (setLoc s l x) := by
  unfold setLoc
  split
  · exact keeps_devSet h
  · exact keeps_modGang h fun _ ok => wf_setByte _ _ ok

theorem keeps_setLocs {ls : List Loc} {bs : List (BitVec 8)} : Keeps s₀ (setLocs s ls bs) := by
  induction ls generalizing s bs with
  | nil => exact h
  | cons l ls ih =>
    cases bs
    · exact h
    · exact ih (keeps_setLoc h)

theorem keeps_useLeaves {root : DWord} {p : Place} {writes : Option Nat} : Keeps s₀ (useLeaves s root p writes) := by
  unfold useLeaves
  dsimp only
  refine keeps_foldl h fun _ _ h => keeps_fillTlb ?_
  split
  · exact keeps_markDirty h
  · exact h

theorem keeps_readPlace {root : DWord} {p : Place} : Keeps s₀ (readPlace s root p).2.1 := by
  unfold readPlace
  dsimp only
  exact keeps_useLeaves (keeps_prepareList h)

theorem keeps_writePlace {root : DWord} {gen : Nat} {p : Place} {x : Nat} : Keeps s₀ (writePlace s root gen p x).1 := by
  unfold writePlace
  dsimp only
  exact keeps_setLocs (keeps_useLeaves (keeps_prepareList h))

/-! ### Ends of waves, gangs and cohorts -/

theorem keeps_freePage {r f : Nat} : Keeps s₀ (freePage s r f) := by
  unfold freePage
  split
  · exact keeps_uncharge (keeps_freeFrame h)
  · exact keeps_uncharge (keeps_freeFrame h)
  · exact h

theorem keeps_unmapPage {root : DWord} {r va : Nat} : Keeps s₀ (unmapPage s root r va) := by
  unfold unmapPage
  split
  · exact h
  · exact keeps_freePage (keeps_dropPage (keeps_putEntry (keeps_dropMoving (keeps_mergeFrame h))))

theorem keeps_unmapRange {root : DWord} {r va pages : Nat} : Keeps s₀ (unmapRange s root r va pages) :=
  keeps_foldl h fun _ _ h => keeps_unmapPage h

theorem keeps_finishCohort {c : Nat} : Keeps s₀ (finishCohort s c) := by
  unfold finishCohort
  dsimp only
  split
  · exact h
  · refine keeps_ite h (keeps_finishRange (keeps_placementDue ((keeps_modCohort (keeps_foldl h fun _ _ h => ?_)).frame)))
    split
    · exact h
    · exact keeps_modGang (keeps_ite (keeps_uncharge (keeps_unmapRange h)) (keeps_unmapRange h)) fun _ _ => rfl

theorem keeps_enqueueRun {wid : Nat} {idle : Bool} : Keeps s₀ (enqueueRun s wid idle) := by
  unfold enqueueRun
  dsimp only
  split
  · exact h
  · split
    · exact h
    · exact keeps_ite h ((keeps_setWave h).frame)

theorem keeps_joinWaiting {rg : Nat} : Keeps s₀ (joinWaiting s rg) := by
  unfold joinWaiting
  dsimp only
  refine keeps_ite h ?_
  split
  · exact h
  · exact keeps_modRegion h

theorem keeps_finishSave {c : Nat} : Keeps s₀ (finishSave s c) := by
  unfold finishSave
  dsimp only
  split
  · exact h
  · refine keeps_ite h (keeps_placementDue (keeps_modCohort (keeps_joinWaiting (keeps_foldl
      (keeps_modCohort h) fun _ _ h => ?_))))
    split
    · exact h
    · exact keeps_uncharge h

theorem keeps_finishGang {g : Nat} : Keeps s₀ (finishGang s g) := by
  unfold finishGang
  dsimp only
  split
  · exact h
  · exact keeps_ite h (keeps_finishSave (keeps_finishCohort (keeps_objectEnded (keeps_modGang h (by exact fun _ => id)))))

theorem keeps_handOver {g : Nat} {ps : List Pending} : Keeps s₀ (handOver s g ps) := by
  unfold handOver
  refine keeps_foldl h fun _ _ h => ?_
  split
  · exact keeps_addPending h
  · exact keeps_ite (keeps_discardOf h) h

theorem keeps_finishWave {w : Nat} : Keeps s₀ (finishWave s w) := by
  unfold finishWave
  dsimp only
  split
  · exact h
  · exact keeps_ite h (keeps_finishGang (keeps_objectEnded (keeps_handOver (keeps_setWave h))))

theorem keeps_modCtx {g k : Nat} {f : Ctx → Ctx} : Keeps s₀ (modCtx s g k f) :=
  keeps_modGang h fun _ => id

theorem keeps_completeOp {g k num : Nat} : Keeps s₀ (completeOp s g k num) := by
  unfold completeOp
  dsimp only
  split
  · exact h
  · split
    · exact h
    · split
      · exact h
      · exact keeps_finishGang (keeps_modGang (keeps_modCtx h) (by exact fun _ => id))

theorem keeps_progressed {r : Nat} : Keeps s₀ (progressed s r) :=
  keeps_modRegion h

/-! ### Issue -/

theorem keeps_retired {wid : Nat} : Keeps s₀ (retired s wid) := by
  unfold retired
  dsimp only
  split
  · exact h
  · exact keeps_modRegion (keeps_setWave h)

theorem keeps_settleIssue {wid : Nat} {f : Wave → Wave} : Keeps s₀ (settleIssue s wid f) := by
  unfold settleIssue
  dsimp only
  split
  · exact keeps_ite (keeps_finishWave (keeps_retired (keeps_modWave h))) (keeps_retired (keeps_modWave h))
  · exact keeps_retired (keeps_modWave h)

/-- An instruction keeps what its own part keeps. -/
theorem keeps_issue {info : Wave → List Word → OpInfo} {body : Env → State → Res}
    (part : ∀ v t, Keeps s₀ t → KeepsRes s₀ (body v t)) : Keeps s₀ (issue s info body) := by
  unfold issue
  dsimp only
  split
  · exact h
  · split
    · exact h
    · split
      · exact h
      · refine keeps_ite h (keeps_ite h (keeps_ite h ?_))
        split
        · exact keeps_ite h (keeps_takeTrap h)
        · split
          · next e => exact keeps_settleIssue ((part _ _ h).of_done e)
          · next e => exact keeps_settleIssue ((part _ _ h).of_jump e)
          · next e => exact keeps_settleIssue ((part _ _ h).of_logged e)
          · next e => exact keeps_ite h (keeps_takeTrap ((part _ _ h).of_trap e))
          · exact h
          · exact h.frame
          · next e => exact (part _ _ h).of_raw e

theorem keeps_finishFp {v : Env} {fl : Word} {lanes : Word → Word} {write : Wave → Wave} :
    KeepsRes s₀ (finishFp v s fl lanes write) := by
  unfold finishFp
  dsimp only
  split
  · exact keeps_modWave h
  · exact keeps_modWave (keeps_modWave h)

theorem keeps_finishInt {v : Env} {fl : Word} {write : Wave → Wave} : KeepsRes s₀ (finishInt v s fl write) :=
  keeps_modWave h

end

end Sys2Proof.Machine

/-! SUPPORT. What the instructions of registers, of memory and of the engines, waits and launches do keeps what every step keeps
(spec/09; spec/11 R176 to R201; spec/13 R203 to R233). -/

namespace Sys2Proof.Machine

open Sys2Proof

section
variable {s₀ s : State} (h : Keeps s₀ s)
include h

/-! ### Vector integer instructions -/

theorem keeps_intBin {cls : Nat} {g : BitVec 3} {d a b : BitVec 7} {f : Word → Word → Word × Word} :
    Keeps s₀ (intBin cls g d a b f s) := by
  unfold intBin
  dsimp only
  exact keeps_issue h fun _ _ h => keeps_finishInt h

theorem keeps_intTern {cls : Nat} {g : BitVec 3} {d a b : BitVec 7} {f : Word → Word → Word → Word} :
    Keeps s₀ (intTern cls g d a b f s) :=
  keeps_issue h fun _ _ h => keeps_finishInt h

theorem keeps_intUn {cls : Nat} {g : BitVec 3} {d a : BitVec 7} {f : Word → Word} : Keeps s₀ (intUn cls g d a f s) :=
  keeps_issue h fun _ _ h => keeps_finishInt h

theorem keeps_intImm {g : BitVec 3} {d a : BitVec 7} {imm : Nat} {f : Word → Word → Word} :
    Keeps s₀ (intImm g d a imm f s) := by
  unfold intImm
  dsimp only
  exact keeps_issue h fun _ _ h => keeps_finishInt h

theorem keeps_intShiftImm {g : BitVec 3} {d a : BitVec 7} {n : BitVec 5} {f : Word → Nat → Word} :
    Keeps s₀ (intShiftImm g d a n f s) := by
  unfold intShiftImm
  dsimp only
  exact keeps_issue h fun _ _ h => keeps_finishInt h

theorem keeps_cmpInt {g : BitVec 3} {d a b : BitVec 7} {f : Word → Word → Bool} : Keeps s₀ (cmpInt g d a b f s) := by
  unfold cmpInt
  dsimp only
  exact keeps_issue h fun _ _ h => keeps_finishInt h

theorem keeps_shuffle {g : BitVec 3} {d a b : BitVec 7} {src : Nat → Word → Nat} : Keeps s₀ (shuffle g d a b src s) :=
  keeps_issue h fun _ _ h => keeps_finishInt h

theorem keeps_intDot {g : BitVec 3} {d a b : BitVec 7} {n len : Nat} {sa sb : Bool} :
    Keeps s₀ (intDot g d a b n len sa sb s) := by
  unfold intDot
  dsimp only
  exact keeps_issue h fun _ _ h => keeps_finishInt h

/-! ### Vector floating-point instructions -/

theorem keeps_finish32 {v : Env} {d : Nat} {f : Nat → Nat × Word} : KeepsRes s₀ (finish32 v s d f) := by
  unfold finish32
  dsimp only
  exact keeps_finishFp h

theorem keeps_finish64 {v : Env} {d : Nat} {f : Nat → Nat × Word} : KeepsRes s₀ (finish64 v s d f) := by
  unfold finish64
  dsimp only
  exact keeps_finishFp h

theorem keeps_f32Bin {cls : Nat} {g : BitVec 3} {d a b : BitVec 7} {op : REnv → XVal → XVal → XVal × Word} :
    Keeps s₀ (f32Bin cls g d a b op s) := by
  unfold f32Bin
  dsimp only
  exact keeps_issue h fun _ _ h => keeps_finish32 h

theorem keeps_f32Un {cls : Nat} {g : BitVec 3} {d a : BitVec 7} {op : XVal → XVal × Word} : Keeps s₀ (f32Un cls g d a op s) :=
  keeps_issue h fun _ _ h => keeps_finish32 h

theorem keeps_f32Plain {cls : Nat} {g : BitVec 3} {d a : BitVec 7} {flush : Bool} {op : Nat → Nat × Word} :
    Keeps s₀ (f32Plain cls g d a flush op s) :=
  keeps_issue h fun _ _ h => keeps_finish32 h

theorem keeps_f32MinMax {mx : Bool} {g : BitVec 3} {d a b : BitVec 7} : Keeps s₀ (f32MinMax mx g d a b s) :=
  keeps_issue h fun _ _ h => keeps_finish32 h

theorem keeps_packed {f : FloatFmt} {third : Bool} {g : BitVec 3} {d a b : BitVec 7}
    {op : REnv → XVal → XVal → XVal → XVal × Word} :
    Keeps s₀ (packed f third g d a b op s) := by
  unfold packed
  dsimp only
  exact keeps_issue h fun _ _ h => keeps_finish32 h

theorem keeps_packedMinMax {mx : Bool} {g : BitVec 3} {d a b : BitVec 7} : Keeps s₀ (packedMinMax mx g d a b s) := by
  unfold packedMinMax
  dsimp only
  exact keeps_issue h fun _ _ h => keeps_finish32 h

theorem keeps_f64Bin {lb third : Nat} {g : BitVec 3} {d a b : BitVec 7} {op : REnv → XVal → XVal → XVal → XVal × Word} :
    Keeps s₀ (f64Bin lb third g d a b op s) := by
  unfold f64Bin
  dsimp only
  exact keeps_issue h fun _ _ h => keeps_finish64 h

theorem keeps_f64MinMax {mx : Bool} {g : BitVec 3} {d a b : BitVec 7} : Keeps s₀ (f64MinMax mx g d a b s) :=
  keeps_issue h fun _ _ h => keeps_finish64 h

theorem keeps_cmpF32 {iv : Bool} {g : BitVec 3} {d a b : BitVec 7} {f : XVal → XVal → Bool} :
    Keeps s₀ (cmpF32 iv g d a b f s) := by
  unfold cmpF32
  dsimp only
  exact keeps_issue h fun _ _ h => keeps_finishFp h

theorem keeps_floatDot {f : FloatFmt} {n len : Nat} {g : BitVec 3} {d a b : BitVec 7} :
    Keeps s₀ (floatDot f n len g d a b s) := by
  unfold floatDot
  dsimp only
  exact keeps_issue h fun _ _ h => keeps_finish32 h

/-! ### Conversions -/

theorem keeps_finishCvt {v : Env} {d : Nat} {two : Bool} {el : Nat → List (Nat × Word)} {put : Word → List Nat → Word} :
    KeepsRes s₀ (finishCvt v s d two el put) := by
  unfold finishCvt
  dsimp only
  exact keeps_finishFp h

/-! ### Scalar instructions -/

theorem keeps_scalar32 {d a b : BitVec 7} {f : Word → Word → Word} : Keeps s₀ (scalar32 d a b f s) :=
  keeps_issue h fun _ _ h => keeps_finishInt h

theorem keeps_scalar64 {d a b : BitVec 7} {f : DWord → DWord → DWord} : Keeps s₀ (scalar64 d a b f s) :=
  keeps_issue h fun _ _ h => keeps_finishInt h

theorem keeps_scalarShift64 {d a b : BitVec 7} {f : DWord → Nat → DWord} : Keeps s₀ (scalarShift64 d a b f s) :=
  keeps_issue h fun _ _ h => keeps_finishInt h

theorem keeps_finishScalarFp {v : Env} {d : Nat} {r : Nat × Word} : KeepsRes s₀ (finishScalarFp v s d r) :=
  keeps_finishFp h

theorem keeps_scalarImmOp {d a : BitVec 7} {imm : BitVec 10} {f : Word → Word → Word} : Keeps s₀ (scalarImmOp d a imm f s) := by
  unfold scalarImmOp
  dsimp only
  exact keeps_issue h fun _ _ h => keeps_finishInt h

theorem keeps_scalarShiftImm {d a : BitVec 7} {imm : BitVec 10} {f : Word → Nat → Word} :
    Keeps s₀ (scalarShiftImm d a imm f s) := by
  unfold scalarShiftImm
  dsimp only
  exact keeps_issue h fun _ _ h => keeps_finishInt h

theorem keeps_writeProg {g k p : Nat} : Keeps s₀ (writeProg s g k p) :=
  keeps_modCtx h

theorem keeps_srWrite {wid gid n x : Nat} : Keeps s₀ (srWrite s wid gid n x) := by
  unfold srWrite
  dsimp only
  split
  · exact keeps_modWave h
  · exact keeps_modWave h
  · exact keeps_modWave h
  · exact keeps_modWave h
  · exact keeps_modGang h fun _ => id
  · exact keeps_modWave h
  · exact keeps_modWave h
  · exact keeps_modWave h
  · exact keeps_modWave h
  · exact keeps_modWave h
  · exact keeps_modWave h
  · exact keeps_modWave h
  · exact keeps_modWave h
  · exact keeps_writeProg h

theorem keeps_predOp {d a b : BitVec 7} {f : Word → Word → Word} : Keeps s₀ (predOp d a b f s) :=
  keeps_issue h fun _ _ h => keeps_finishInt h

/-! ### Control flow -/

theorem keeps_branch {rs : List RegRun} {off : BitVec 20} {taken : Env → Nat → Bool} : Keeps s₀ (branch rs off taken s) :=
  keeps_issue h fun _ _ h => h

theorem keeps_jumpTo {v : Env} {scalar : Bool} {tgt : Nat → DWord} : KeepsRes s₀ (jumpTo v s scalar tgt) := by
  unfold jumpTo
  split <;> exact h

theorem keeps_prefixWord {kind payload : Nat} : Keeps s₀ (prefixWord kind payload s) :=
  keeps_issue h fun _ _ h => keeps_modWave h

/-! ### Memory instructions -/

theorem keeps_notePoolOvf {wid : Nat} {e : LogEntry} {op : MemOp} {l : Nat} {p : Place} {os : List Nat} :
    Keeps s₀ (notePoolOvf s wid e op l p os) :=
  keeps_foldl h fun _ _ h => keeps_addPending h

theorem keeps_countLoads {core : Nat} {unleased : Bool} {ps : List (Nat × Place)} : Keeps s₀ (countLoads s core unleased ps) :=
  h.frame

theorem keeps_countStores {core : Nat} {ps : List (Nat × Place)} : Keeps s₀ (countStores s core ps) :=
  h.frame

theorem keeps_performLoad {wid : Nat} {root : DWord} {e : LogEntry} {op : MemOp} {d : Nat} {ps : List (Nat × Place)} :
    Keeps s₀ (performLoad s wid root e op d ps) := by
  unfold performLoad
  dsimp only
  refine keeps_countLoads (keeps_modWave ?_)
  exact keeps_foldl_of (get := Prod.fst) h fun _ _ h => keeps_notePoolOvf (keeps_readPlace h)

theorem keeps_performStore {wid : Nat} {root : DWord} {e : LogEntry} {op : MemOp} {d : Nat} {ps : List (Nat × Place)} :
    Keeps s₀ (performStore s wid root e op d ps) := by
  unfold performStore
  dsimp only
  split
  · exact h
  · exact keeps_countStores (keeps_foldl h fun _ _ h => keeps_notePoolOvf (keeps_writePlace h))

theorem keeps_performAtomic {wid : Nat} {root : DWord} {e : LogEntry} {op : MemOp} {a : AtomOp} {d : Nat} {ps : List
    (Nat × Place)} :
    Keeps s₀ (performAtomic s wid root e op a d ps) := by
  unfold performAtomic
  dsimp only
  split
  · exact h
  · refine keeps_countStores (keeps_modWave ?_)
    exact keeps_foldl_of (get := Prod.fst) h fun _ _ h => keeps_notePoolOvf (keeps_writePlace (keeps_readPlace h))

theorem keeps_performPool {wid : Nat} {root : DWord} {e : LogEntry} {op : MemOp} {d : Nat} {ps : List (Nat × Place)} :
    Keeps s₀ (performPool s wid root e op d ps) := by
  unfold performPool
  dsimp only
  split
  · exact h
  · refine keeps_foldl h fun _ _ h => ?_
    split
    · split
      · exact h
      · exact keeps_notePoolOvf (keeps_contribute (keeps_useLeaves h))
    · exact h

theorem keeps_performAppend {wid : Nat} {root : DWord} {e : LogEntry} {op : MemOp} {d vo : Nat} :
    Keeps s₀ (performAppend s wid root e op d vo) := by
  unfold performAppend
  dsimp only
  split
  · exact h
  · split
    · exact h
    · exact keeps_modWave h.frame

theorem keeps_performMem {wid : Nat} {root : DWord} {e : LogEntry} {op : MemOp} {d vo : Nat} {ps : List (Nat × Place)} :
    Keeps s₀ (performMem s wid root e op d vo ps) := by
  unfold performMem
  split
  · exact keeps_performLoad h
  · exact keeps_performLoad h
  · exact keeps_performStore h
  · exact keeps_performStore h
  · exact keeps_performAtomic h
  · exact keeps_performAtomic h
  · exact keeps_performPool h
  · exact keeps_performAppend h
  · exact keeps_performAppend h

theorem keeps_enterLog {wid : Nat} {e : LogEntry} : Keeps s₀ (enterLog s wid e) :=
  keeps_modWave h

theorem keeps_walkEntry {w : Wave} {root : DWord} {e : LogEntry} {op : MemOp} : Keeps s₀ (walkEntry s w root e op) :=
  keeps_ite h (keeps_foldl h fun _ _ h => keeps_settleWalk h)

theorem keeps_memBody {v : Env} {e : LogEntry} {op : MemOp} {d vo : Nat} : KeepsRes s₀ (memBody v s e op d vo) := by
  unfold memBody
  dsimp only
  refine keepsRes_ite trivial (keepsRes_ite h (keepsRes_ite trivial ?_))
  split
  · exact h
  · refine keepsRes_ite (keeps_enterLog h) ?_
    split
    · exact keeps_performMem h
    · exact trivial
    · exact keepsRes_ite (keeps_enterLog (keeps_walkEntry h)) trivial
    · exact keepsRes_ite (keeps_enterLog (keeps_walkEntry h)) (keeps_walkEntry h)

theorem keeps_memVector {cls f : Nat} {op : MemOp} {g : BitVec 3} {vt vo : BitVec 7} {sp : BitVec 5} :
    Keeps s₀ (memVector cls f op g vt vo sp s) :=
  keeps_issue h fun _ _ h => keeps_memBody h

theorem keeps_memScalar {f : Nat} {op : MemOp} {d : BitVec 7} {sp : BitVec 5} {off : BitVec 12} :
    Keeps s₀ (memScalar f op d sp off s) :=
  keeps_issue h fun _ _ h => keeps_memBody h

theorem keeps_replay {fuel wid : Nat} : Keeps s₀ (replay fuel s wid) := by
  induction fuel generalizing s with
  | zero => exact h
  | succ fuel ih =>
    rw [replay]
    dsimp only
    split
    · exact h
    · split
      · exact h
      · refine keeps_ite h ?_
        split
        · exact keeps_modWave h
        · split
          · exact ih (keeps_modWave (keeps_performMem (keeps_modWave h)))
          · exact keeps_walkEntry h
          · exact keeps_modWave (keeps_walkEntry h)
          · exact keeps_modWave (keeps_walkEntry h)

theorem keeps_replayAll : Keeps s₀ (replayAll s) :=
  keeps_foldl h fun _ _ h => keeps_ite h (keeps_replay h)

/-! ### Engines: submission -/

theorem keeps_writeBarrier {pl : Nat × Nat} {b : Barrier} : Keeps s₀ (writeBarrier s pl b) :=
  keeps_setLocs h

theorem keeps_updateBarrier {gid : Nat} {b : Word} {f : Barrier → Barrier} : Keeps s₀ (updateBarrier s gid b f) := by
  unfold updateBarrier
  split
  · exact h
  · exact keeps_writeBarrier h

theorem keeps_submit {v : Env} {k : Nat} {op : EngOp} {adv : List Nat} {steps : Nat} :
    KeepsRes s₀ (submit s v k op adv steps) := by
  unfold submit
  dsimp only
  exact keepsRes_ite trivial (keeps_modWave (keeps_modCtx h))

theorem keeps_copySubmit {fn : Nat} {ctx : BitVec 3} {td ts : BitVec 5} {sl : BitVec 6} {sb : BitVec 5} :
    Keeps s₀ (copySubmit fn ctx td ts sl sb s) := by
  unfold copySubmit
  dsimp only
  refine keeps_issue h fun _ _ h => ?_
  split
  · exact h
  · exact keeps_submit h

theorem keeps_matrixSubmit {m : MForm} {acc : BitVec 4} {ta tb sk vf : BitVec 5} :
    Keeps s₀ (matrixSubmit m acc ta tb sk vf s) := by
  unfold matrixSubmit
  dsimp only
  refine keeps_issue h fun _ _ h => keepsRes_ite h (keepsRes_ite h (keepsRes_ite h (keepsRes_ite h ?_)))
  split
  · exact h
  · exact keeps_submit h

/-! ### Engines: what they do -/

theorem keeps_placeTraffic {r : Nat} {ls : List Loc} : Keeps s₀ (placeTraffic s r ls) := by
  unfold placeTraffic
  refine keeps_foldl h fun _ _ h => ?_
  split
  · exact h
  · exact keeps_traffic h

theorem keeps_engineOvf {gid k : Nat} {op : EngOp} {write : Bool} {marks : List (Nat × DWord × Nat)} {os : List Nat} :
    Keeps s₀ (engineOvf s gid k op write marks os) := by
  unfold engineOvf
  split
  · exact h
  · exact keeps_foldl h fun _ _ h => keeps_addPending h

theorem keeps_modOp {gid k num : Nat} {f : EngOp → EngOp} : Keeps s₀ (modOp s gid k num f) :=
  keeps_modCtx h

theorem keeps_chunkLanded {gid k : Nat} {o : EngOp} {chunk : Nat} : Keeps s₀ (chunkLanded s gid k o chunk) := by
  have noted {f : EngOp → EngOp} {c : Ctx → Ctx} : Keeps s₀ (match o.bar with
      | some b => updateBarrier (modCtx (modOp s gid k o.num f) gid k c) gid b fun x =>
          { x with landed := x.landed + min 4096 (o.total - 4096 * chunk) }
      | none => modCtx (modOp s gid k o.num f) gid k c) := by
    split
    · exact keeps_updateBarrier (keeps_modCtx (keeps_modOp h))
    · exact keeps_modCtx (keeps_modOp h)
  unfold chunkLanded
  dsimp only
  exact keeps_ite (keeps_completeOp (keeps_progressed noted)) (keeps_progressed noted)

theorem keeps_settleRead {root : DWord} {gid k : Nat} {o : EngOp} {ix : EngReach} {va : Option Nat} :
    Keeps s₀ (settleRead s root gid k o ix va) := by
  have read : Keeps s₀ (match ix with
      | .ok p => engineOvf (useLeaves (prepareList s p.locs).1 root p none) gid k o false p.marks (prepareList s p.locs).2
      | _ => s) := by
    split
    · exact keeps_engineOvf (keeps_useLeaves (keeps_prepareList h))
    · exact h
  unfold settleRead
  dsimp only
  refine keeps_ite h ?_
  split
  · exact keeps_settleWalk read
  · exact read

theorem keeps_landChunk {root : DWord} {gid k : Nat} {o : EngOp} {chunk : Nat} : Keeps s₀ (landChunk s root gid k o chunk) := by
  unfold landChunk
  dsimp only
  split
  · exact keeps_chunkLanded (keeps_placeTraffic (keeps_setLocs (keeps_engineOvf (keeps_engineOvf (keeps_useLeaves
      (keeps_useLeaves (keeps_prepareList (keeps_prepareList h))))))))
  · exact keeps_settleRead h

theorem keeps_runRow {root : DWord} {gid k : Nat} {g : Gang} {c : Ctx} {o : EngOp} : Keeps s₀ (runRow s root gid k g c o) := by
  unfold runRow
  dsimp only
  refine keeps_ite (keeps_completeOp h) ?_
  split
  · have written {p d : Place} {w : Option Nat} {bs : List (BitVec 8)} {r : Nat} {x : Bool} {os : List Nat} :=
      keeps_placeTraffic (r := r) (ls := p.locs) (keeps_setLocs (ls := d.locs) (bs := bs) (keeps_engineOvf (gid := gid) (k := k)
        (op := o) (write := x) (marks := p.marks) (os := os) (keeps_useLeaves (root := root) (p := p) (writes := w)
        (keeps_prepareList (ls := p.locs) h))))
    exact keeps_ite (keeps_completeOp (keeps_progressed (keeps_modCtx (keeps_modOp (keeps_modGang written (by exact fun _ => id))))))
      (keeps_progressed (keeps_modCtx (keeps_modOp (keeps_modGang written (by exact fun _ => id)))))
  · exact keeps_settleRead h

/-! ### Waits -/

theorem keeps_settleWord {root : DWord} {va : Nat} : Keeps s₀ (settleWord s root va) := by
  unfold settleWord
  dsimp only
  refine keeps_ite h ?_
  split
  · exact keeps_mergeAt (keeps_settleWalk h)
  · exact keeps_settleWalk h

theorem keeps_settleWait {w : Wave} {on : WaitOn} : Keeps s₀ (settleWait s w on) :=
  keeps_ite h (keeps_foldl h fun _ _ h => keeps_settleWord h)

theorem keeps_takeEvent {r : Nat} {ev : Option (Nat × DWord)} : Keeps s₀ (takeEvent s r ev) := by
  unfold takeEvent
  split
  · exact h
  · exact keeps_modRegion h

theorem keeps_wakeGroup {wid i : Nat} {r : WaitResult} : Keeps s₀ (wakeGroup s wid i r) := by
  unfold wakeGroup
  dsimp only
  split
  · exact h
  · split
    · exact h
    · exact keeps_progressed (keeps_takeEvent (keeps_modWave (keeps_enqueueRun h)))

theorem keeps_noteMembers : Keeps s₀ (noteMembers s) :=
  keeps_ite h h.frame

theorem keeps_reevaluate {fuel wid i : Nat} : Keeps s₀ (reevaluate fuel s wid i) := by
  induction fuel generalizing s i with
  | zero => exact h
  | succ fuel ih =>
    rw [reevaluate]
    dsimp only
    split
    · exact h
    · split
      · exact h
      · split
        · exact ih (keeps_wakeGroup (keeps_settleWait h))
        · exact ih (keeps_settleWait h)

theorem keeps_resolution {u : State} {root : DWord} {va : Nat} : Keeps s₀ (resolution u s root va) := by
  unfold resolution
  refine keeps_ite ?_ h
  exact keeps_foldl h fun _ _ h => keeps_progressed h

theorem keeps_resolutionFor {u : State} {rg : Nat} {root : DWord} {va : Nat} :
    Keeps s₀ (resolutionFor u s rg root va) :=
  keeps_resolution (keeps_ite (keeps_progressed h) h)

/-! ### Barriers, waits and flushes -/

theorem keeps_barrierOp {v : Env} {a : BitVec 7} {f : Nat × Nat → Res} (part : ∀ pl, KeepsRes s₀ (f pl)) :
    KeepsRes s₀ (barrierOp v s a f) := by
  unfold barrierOp
  dsimp only
  split
  · exact h
  · exact part _
  · exact h

theorem keeps_waitWrite {v : Env} {d st idx : Nat} : KeepsRes s₀ (waitWrite v s d st idx) :=
  keeps_modWave h

theorem keeps_waitOn {v : Env} {d : Nat} {t : DWord} {on : WaitOn} : KeepsRes s₀ (waitOn v s d t on) := by
  unfold waitOn
  dsimp only
  split
  · exact keeps_waitWrite (keeps_takeEvent (keeps_settleWait h))
  · exact keepsRes_ite (keeps_waitWrite (keeps_settleWait h)) (keeps_modWave (keeps_settleWait h))

theorem keeps_flushOp {discards : Bool} {d a b : BitVec 7} : Keeps s₀ (flushOp discards d a b s) := by
  unfold flushOp
  dsimp only
  exact keeps_issue h fun _ _ h => keepsRes_ite h (keeps_ite ((keeps_settleWalks h).frame) (keeps_modWave
    ((keeps_settleWalks h).frame)))

theorem keeps_settleDue {wid : Nat} {on : Awaits} {st : Nat} : Keeps s₀ (settleDue s wid on st) := by
  unfold settleDue
  dsimp only
  exact keeps_modWave h

/-! ### Launches -/

theorem keeps_makeObject {type rg rights home : Nat} {charged : Bool} :
    KeepsMade s₀ (makeObject s type rg rights home charged) := by
  unfold makeObject
  dsimp only
  split
  · exact trivial
  · split
    · exact trivial
    · next made =>
      have made := (keeps_newEntry h).of_some made
      exact keeps_ite (keeps_charge made.frame).frame made.frame

theorem keeps_fetchBytes {root : DWord} {gid va n : Nat} : KeepsFetched s₀ (fetchBytes s root gid va n) := by
  rw [fetchBytes]
  split
  · exact keeps_useLeaves (keeps_prepareList h)
  · exact trivial
  · exact keeps_settleWalk h

theorem keeps_seatWave {wid core : Nat} : Keeps s₀ (seatWave s wid core) := by
  unfold seatWave
  dsimp only
  exact keeps_modWave h

theorem keeps_readTemplate {root : DWord} {gid va : Nat} : KeepsParsed s₀ (readTemplate s root gid va) := by
  have read := keeps_fetchBytes (root := root) (gid := gid) (va := va) (n := 336) h
  unfold readTemplate
  split
  · exact h
  · generalize fetchBytes s root gid va 336 = fetched at read ⊢
    cases fetched with
    | wait a => trivial
    | bad t => exact read
    | ok bs t =>
      dsimp only
      split <;> exact read

theorem keeps_readUses {root : DWord} {va n : Nat} : KeepsParsed s₀ (readUses s root va n) := by
  rw [readUses]
  split
  · exact h
  · split
    · exact trivial
    · exact (keeps_fetchBytes h).of_bad ‹_›
    · dsimp only
      split <;> exact (keeps_fetchBytes h).of_ok ‹_›

theorem keeps_launchRange {q : Reader} {rg holder home lo hi grain tva : Nat} {uses : Nat × Nat} {packet : Option Nat} :
    KeepsLaunched s₀ (launchRange s q rg holder home lo hi grain tva uses packet) := by
  unfold launchRange
  dsimp only
  split
  · exact h
  · split
    · exact trivial
    · exact (keeps_readTemplate h).of_bad ‹_›
    · next parsed =>
      have parsed := (keeps_readTemplate h).of_ok parsed
      split
      · exact trivial
      · exact (keeps_readUses parsed).of_bad ‹_›
      · next listed =>
        have listed := (keeps_readUses parsed).of_ok listed
        split
        · exact listed
        · next made =>
          have made := (keeps_makeObject listed).of_ok made
          have joined := keeps_ite (p := lo < hi) (keeps_joinWaiting (rg := rg) made) made
          dsimp only [KeepsLaunched]
          refine keeps_placementDue (keeps_finishRange ?_)
          exact joined.frame

/-! ### How object instructions report -/

theorem keeps_failReport {v : Env} {d : Nat} {val : Bool} {st : Nat} : KeepsRes s₀ (failReport v d val s st) :=
  keepsRes_ite h (keeps_modWave h)

theorem keeps_objReport {v : Env} {d : Nat} {val : Bool} {r : ObjRes} (part : KeepsObj s₀ r) :
    KeepsRes s₀ (objReport v d val s r) := by
  cases r with
  | ok t x => exact keeps_modWave part
  | fail st => exact keeps_failReport h
  | failed t st => exact keeps_failReport part
  | due t on => exact keeps_ite part (keeps_modWave part)
  | hold => trivial
  | await vas => trivial
  | under t => exact part
  | trap c i a => exact h
  | raw t => exact part

/-- An object instruction keeps what its own part keeps. -/
theorem keeps_objOp {form : ObjForm} {f : Env → State → ObjRes} (part : ∀ v t, Keeps s₀ t → KeepsObj s₀ (f v t)) :
    Keeps s₀ (objOp form f s) := by
  refine keeps_issue h fun v t h => keeps_objReport h ?_
  split
  · trivial
  · exact part v t h

end

end Sys2Proof.Machine

/-! SUPPORT. What the instructions of ports, objects, regions, the save area, traps and supervisors do keeps what every step keeps
(spec/13 R234 to R258; spec/23 R369 to R386). -/

namespace Sys2Proof.Machine

open Sys2Proof

section
variable {s₀ s : State} (h : Keeps s₀ s)
include h

/-! ### Ports -/

theorem keeps_freeSlot {root : DWord} {pn i : Nat} : Keeps s₀ (freeSlot s root pn i) := by
  unfold freeSlot
  dsimp only
  split
  · exact h
  · exact (keeps_foldl h fun _ _ h => keeps_writeEntry h).frame

theorem keeps_sweepPort {pn : Nat} : Keeps s₀ (sweepPort s pn) := by
  unfold sweepPort
  split
  · exact h
  · exact keeps_foldl h fun _ _ h => keeps_ite h (keeps_freeSlot h)

theorem keeps_sweepPorts : Keeps s₀ (sweepPorts s) :=
  keeps_foldl h fun _ _ h => keeps_sweepPort h

theorem keeps_mapLanding {pn i : Nat} {frames : List Nat} {write : Bool} {shared : Option Nat} {src : Nat} :
    Keeps s₀ (mapLanding s pn i frames write shared src) := by
  unfold mapLanding
  dsimp only
  split
  · exact h
  · refine (keeps_foldl h fun _ _ h => ?_).frame
    split
    · exact keeps_writeEntry h
    · exact keeps_getD (keeps_mapPage h) h

theorem keeps_dropReceived {f : Port → Nat → Landing → Nat → Bool} : Keeps s₀ (dropReceived s f) :=
  keeps_sweepPorts h.frame

theorem keeps_grantPoint {root : DWord} {va : Nat} {frames : List Nat} {owned : Bool} :
    Keeps s₀ (grantPoint s root va frames owned) := by
  unfold grantPoint
  dsimp only
  exact keeps_ite (keeps_dropReceived (keeps_foldl
    (keeps_foldl h fun _ _ h => keeps_mergeFrame h) fun _ _ h => keeps_setLeaf h))
    (keeps_foldl h fun _ _ h => keeps_mergeFrame h)

theorem keeps_takeRoom {pn : Nat} : Keeps s₀ (takeRoom s pn) := by
  unfold takeRoom
  dsimp only
  split
  · exact h
  · exact keeps_ite h ((keeps_charge h).frame)

theorem keeps_prefetchPage {root : DWord} {va : Nat} : Keeps s₀ (prefetchPage s root va) := by
  unfold prefetchPage
  split
  · refine keeps_ite ?_ h
    split
    · exact keeps_resolution (keeps_fillDeep ((keeps_fillRoomFor h).of_some ‹_›))
    · exact h
  · exact h

theorem keeps_prefetchOf {p : Port} {m : Msg} : Keeps s₀ (prefetchOf s p m) := by
  fun_cases prefetchOf s p m with
  | case1 | case2 | case5 => exact h
  | case3 hint root va beyond t filled bs u read =>
    exact (keeps_fetchBytes (keeps_resolution ((keeps_residentNow h).of_some filled))).of_ok read
  | case4 hint root va beyond t filled bs u read =>
    have fetched := (keeps_fetchBytes (keeps_resolution ((keeps_residentNow h).of_some filled))).of_ok read
    exact keeps_askedBy (keeps_foldl fetched fun _ _ h => keeps_prefetchPage h)

theorem keeps_deliver {pn : Nat} {m : Msg} : Keeps s₀ (deliver s pn m) := by
  unfold deliver
  dsimp only
  split
  · exact keeps_prefetchOf h.frame
  · exact h.frame

theorem keeps_takeSlot {pn : Nat} : Keeps s₀ (takeSlot s pn) :=
  h.frame

theorem keeps_sendHere {pn : Nat} {m : Msg} : KeepsExc s₀ (sendHere s pn m) := by
  unfold sendHere
  split
  · exact trivial
  · split
    · exact trivial
    · split
      · exact keeps_deliver (keeps_takeRoom h)
      · exact trivial

theorem keeps_grantHere {rg pn : Nat} {m : Msg} {g : Grant} : KeepsObj s₀ (grantHere s rg pn m g) := by
  unfold grantHere
  dsimp only
  refine keepsObj_ite trivial ?_
  split
  · exact trivial
  · refine keepsObj_ite trivial ?_
    split
    · exact keeps_settleWalks h
    · exact trivial
    · exact keepsObj_ite (keeps_settleWalks h) (keepsObj_ite (keeps_settleWalks h) (keepsObj_ite (keeps_settleWalks h)
        (keepsObj_ite trivial (keeps_deliver (keeps_mapLanding (keeps_takeSlot (keeps_takeRoom (keeps_grantPoint
        (keeps_charge (keeps_uncharge (keeps_settleWalks h)))))))))))
    · exact keepsObj_ite (keeps_settleWalks h) (keepsObj_ite (keeps_settleWalks h) (keepsObj_ite trivial (keeps_deliver
        (keeps_mapLanding (keeps_takeSlot (keeps_takeRoom (keeps_grantPoint (keeps_settleWalks h))))))))

theorem keeps_modLink {p : Nat} {f : LinkPort → LinkPort} : Keeps s₀ (modLink s p f) :=
  h.frame

theorem keeps_routeFlits {fs : List (Nat × Nat × List (BitVec 8))} : Keeps s₀ (routeFlits s fs) := by
  unfold routeFlits
  dsimp only
  refine keeps_foldl h fun _ _ h => ?_
  split
  · exact h
  · exact keeps_modLink h

theorem keeps_transmit {m : Nat} : Keeps s₀ (transmit s m) :=
  keeps_ite h (keeps_routeFlits h)

theorem keeps_transmitFor {r m : Nat} : Keeps s₀ (transmitFor s r m) :=
  keeps_ite h (keeps_traffic (keeps_transmit h))

theorem keeps_meetPeer {m incarn : Nat} : Keeps s₀ (meetPeer s m incarn) := by
  unfold meetPeer
  split
  · exact h
  · exact h.frame

theorem keeps_passGrant {n : Nat} {r : RemoteSend} : Keeps s₀ (passGrant s n r) := by
  unfold passGrant
  dsimp only
  split
  · exact (keeps_traffic (keeps_traffic (keeps_transmit (keeps_grantPoint (keeps_writeBackAll (keeps_settleWalks h)))))).frame
  · exact (keeps_traffic (keeps_traffic (keeps_transmit (keeps_grantPoint (keeps_writeBackAll (keeps_settleWalks h)))))).frame
  · exact (keeps_settleWalks h).frame
  · exact (keeps_settleWalks h).frame

theorem keeps_answered {n : Nat} {r : RemoteSend} : KeepsObj s₀ (answered s n r) := by
  unfold answered
  dsimp only
  split
  · exact trivial
  · exact keepsObj_ite h.frame h.frame

theorem keeps_sendAgain {n : Nat} {r : RemoteSend} : KeepsObj s₀ (sendAgain s n r) := by
  unfold sendAgain
  dsimp only
  refine keepsObj_ite ?_ (keeps_answered h)
  split
  · exact keepsObj_ite trivial (keeps_answered (keeps_passGrant h))
  · exact trivial

theorem keeps_sendAway {v : Env} {rg : Nat} {x : Proxy} {g : Option Grant} : KeepsObj s₀ (sendAway v s rg x g) := by
  unfold sendAway
  dsimp only
  refine keepsObj_ite trivial ?_
  split
  · exact keeps_transmitFor ((keeps_meetPeer (keeps_progressed (keeps_writeBackAll h))).frame)
  · refine keepsObj_ite trivial ?_
    split
    · exact keeps_settleWalks h
    · exact trivial
    · exact keeps_transmitFor ((keeps_meetPeer (keeps_progressed (keeps_writeBackAll (keeps_settleWalks h)))).frame)
    · exact keeps_transmitFor ((keeps_meetPeer (keeps_progressed (keeps_writeBackAll (keeps_settleWalks h)))).frame)

theorem keeps_sendNew {grant : Bool} {v : Env} {a sb : Nat} : KeepsObj s₀ (sendNew grant v s a sb) := by
  unfold sendNew
  dsimp only
  split
  · exact trivial
  · split
    · exact trivial
    · refine keepsObj_ite trivial (keepsObj_ite (keepsObj_ite (keeps_grantHere h) ?_) ?_)
      · split
        · exact (keeps_sendHere h).of_ok ‹_›
        · exact trivial
      · split
        · exact trivial
        · refine keepsObj_ite (keepsObj_ite (keeps_grantHere h) ?_) (keeps_sendAway h)
          split
          · exact (keeps_sendHere h).of_ok ‹_›
          · exact trivial

theorem keeps_sendOp {grant : Bool} {v : Env} {a sb : Nat} : KeepsObj s₀ (sendOp grant v s a sb) := by
  unfold sendOp
  split
  · exact keeps_sendAgain h
  · exact keeps_sendNew h

theorem keeps_sendInstr {grant : Bool} {d a b : BitVec 7} : Keeps s₀ (sendInstr grant d a b s) := by
  unfold sendInstr
  dsimp only
  exact keeps_objOp h fun _ _ h => keeps_sendOp h

theorem keeps_execPrecv {d a : BitVec 7} {b : BitVec 6} : KeepsOut s₀ (execPrecv d a b s) := by
  show Keeps s₀ _
  dsimp only
  refine keeps_objOp h fun _ _ h => ?_
  split
  · exact trivial
  · split
    · exact trivial
    · split
      · exact trivial
      · split
        · exact trivial
        · exact keeps_modWave ((keeps_ite (keeps_uncharge h) h).frame)

theorem keeps_execPslot {d a : BitVec 7} {b : BitVec 6} : KeepsOut s₀ (execPslot d a b s) := by
  show Keeps s₀ _
  dsimp only
  refine keeps_objOp h fun _ _ h => keepsObj_ite (keeps_modGang h fun _ => id) ?_
  split
  · exact keeps_modGang h fun _ => id
  · exact keepsObj_ite (keeps_modGang h fun _ => id) trivial

theorem keeps_reserveTables {root : DWord} {rg die va pages : Nat} : KeepsOpt s₀ (reserveTables s root rg die va pages) := by
  unfold reserveTables
  dsimp only
  refine KeepsOpt.bind ?_ fun t h => ?_
  · exact List.foldlRecOn (motive := KeepsOpt s₀) _ _ h fun _ h _ _ => h.bind fun _ h => (keeps_ensureTables h).map fun _ h => h
  · split
    · exact h
    · trivial

theorem keeps_execPnew {d a : BitVec 7} : KeepsOut s₀ (execPnew d a s) := by
  -- Made a variable, since the check of the branches would evaluate the function.
  obtain ⟨fetch, same⟩ : ∃ f, f = fetchBytes := ⟨_, rfl⟩
  have read {t : State} {root gid va n} (h : Keeps s₀ t) : KeepsFetched s₀ (fetch t root gid va n) := same ▸ keeps_fetchBytes h
  unfold execPnew
  show Keeps s₀ _
  rw [← same]
  dsimp only
  refine keeps_objOp h fun _ _ h => ?_
  split
  · exact trivial
  · exact (read h).of_bad ‹_›
  · split
    · exact (read h).of_ok ‹_›
    · refine keepsObj_ite (keeps_settleWalks ((read h).of_ok ‹_›)) (keepsObj_ite trivial ?_)
      split
      · exact keeps_settleWalks ((read h).of_ok ‹_›)
      · split
        · exact keeps_settleWalks ((read h).of_ok ‹_›)
        · exact ((keeps_reserveTables ((keeps_makeObject (keeps_settleWalks
            ((read h).of_ok ‹_›))).of_ok ‹_›)).of_some ‹_›).frame

theorem keeps_notePeer {m inc : Nat} : Keeps s₀ (notePeer s m inc) :=
  h.frame

theorem keeps_noteBinding {b : Binding} : Keeps s₀ (noteBinding s b) :=
  keeps_ite (keeps_notePeer h) h

theorem keeps_askDirectory {rg name : Nat} : Keeps s₀ (askDirectory s rg name) :=
  keeps_ite h (keeps_transmitFor h)

theorem keeps_execPname {d a : BitVec 7} : KeepsOut s₀ (execPname d a s) := by
  show Keeps s₀ _
  dsimp only
  refine keeps_objOp h fun _ _ h => ?_
  split
  · exact keeps_askDirectory h
  · refine keepsObj_ite (keeps_askDirectory h) ?_
    split
    · exact keeps_askDirectory h
    · exact ((keeps_makeObject (keeps_noteBinding (keeps_askDirectory h))).of_ok ‹_›).frame

theorem keeps_execPreg {d a b : BitVec 7} : KeepsOut s₀ (execPreg d a b s) := by
  show Keeps s₀ _
  dsimp only
  refine keeps_objOp h fun _ _ h => ?_
  split
  · exact trivial
  · exact keepsObj_ite trivial (keepsObj_ite (keeps_askDirectory h) (keeps_ite h.frame (keeps_transmitFor h.frame)))

theorem keeps_takeFrames {die n : Nat} {fs : List Nat} : KeepsOptPair s₀ (takeFrames s die n fs) := by
  induction n generalizing s fs with
  | zero => exact h
  | succ n ih =>
    rw [takeFrames]
    split
    · trivial
    · exact ih ((keeps_takeHbm h).of_some ‹_›)

theorem keeps_answerAgain {link src : Nat} : Keeps s₀ (answerAgain s link src) :=
  keeps_transmitFor (keeps_modLink h)

theorem keeps_replyOnce {src key st : Nat} : Keeps s₀ (replyOnce s src key st) :=
  keeps_transmitFor h.frame

theorem keeps_admitSend {hd : HeldSend} : Keeps s₀ (admitSend s hd).2 := by
  unfold admitSend
  split
  · exact h
  · exact (keeps_sendHere h).of_ok ‹_›

theorem keeps_admitGrant {hd : HeldSend} {gword : Nat} : Keeps s₀ (admitGrant s hd gword).2 := by
  unfold admitGrant
  dsimp only
  split
  · exact h
  · split
    · exact h
    · split
      · exact h
      · split
        · exact h
        · split
          · exact h
          · split
            · exact h
            · exact (keeps_takeSlot (keeps_takeRoom (keeps_charge ((keeps_takeFrames h).of_some ‹_›)))).frame

theorem keeps_admitHeld {hd : HeldSend} : Keeps s₀ (admitHeld s hd) := by
  unfold admitHeld
  dsimp only
  refine keeps_replyOnce (keeps_progressed ?_)
  split
  · exact keeps_admitSend h
  · exact keeps_admitGrant h

theorem keeps_releaseHeld {fuel : Nat} : Keeps s₀ (releaseHeld fuel s) := by
  induction fuel generalizing s with
  | zero => exact h
  | succ fuel ih =>
    rw [releaseHeld]
    split
    · exact h
    · exact ih (keeps_admitHeld h.frame)

theorem keeps_endBindings {f : Binding → Bool} : Keeps s₀ (endBindings s f) := by
  unfold endBindings
  dsimp only
  exact (keeps_foldl h fun _ _ h => keeps_transmitFor h).frame

theorem keeps_endSlots {pn : Nat} {p : Port} : Keeps s₀ (endSlots s pn p) := by
  unfold endSlots
  dsimp only
  refine keeps_foldl h fun _ _ h => keeps_freeSlot (keeps_ite h (keeps_foldl h fun _ _ h => keeps_freePage
    (keeps_mergeFrame ?_)))
  split
  · exact keeps_dropMoving h
  · exact h

theorem keeps_endPortGrants {pn : Nat} {p : Port} : Keeps s₀ (endPortGrants s pn p) := by
  unfold endPortGrants
  dsimp only
  exact (keeps_foldl h fun _ _ h => keeps_uncharge (keeps_foldl h fun _ _ h => keeps_freeFrame h)).frame

theorem keeps_endPort {pn : Nat} : Keeps s₀ (endPort s pn) := by
  unfold endPort
  dsimp only
  split
  · exact h
  · exact keeps_ite h (keeps_releaseHeld ((keeps_endBindings (keeps_uncharge (keeps_endPortGrants (keeps_endSlots h)))).frame))

/-! ### Objects -/

theorem keeps_execWspawn {d a b : BitVec 7} : KeepsOut s₀ (execWspawn d a b s) := by
  show Keeps s₀ _
  dsimp only
  refine keeps_objOp h fun _ _ h => ?_
  split
  · exact trivial
  · refine keepsObj_ite trivial (keepsObj_ite trivial ?_)
    split
    · exact trivial
    · exact keeps_enqueueRun (keeps_seatWave (keeps_setWave ((keeps_makeObject h).of_ok ‹_›)))

theorem keeps_endWave {wid self : Nat} : Keeps s₀ (endWave s wid self) :=
  keeps_ite (keeps_modWave h) (keeps_finishWave h)

theorem keeps_execWexit {d a : BitVec 7} : KeepsOut s₀ (execWexit d a s) := by
  show Keeps s₀ _
  refine keeps_objOp h fun _ _ h => ?_
  split
  · exact trivial
  · split
    · exact trivial
    · exact keepsObj_ite trivial (keepsObj_ite trivial (keeps_endWave h))

theorem keeps_execRspawn {d a b : BitVec 7} : KeepsOut s₀ (execRspawn d a b s) := by
  show Keeps s₀ _
  dsimp only
  refine keeps_objOp h fun _ _ h => ?_
  split
  · exact trivial
  · refine keepsObj_ite trivial ?_
    split
    · exact trivial
    · exact (keeps_fetchBytes h).of_bad ‹_›
    · split
      · exact trivial
      · exact (keeps_launchRange ((keeps_fetchBytes h).of_ok ‹_›)).of_refused ‹_›
      · exact (keeps_launchRange ((keeps_fetchBytes h).of_ok ‹_›)).of_ok ‹_›

theorem keeps_execOdup {d a b : BitVec 7} : KeepsOut s₀ (execOdup d a b s) := by
  show Keeps s₀ _
  dsimp only
  refine keeps_objOp h fun _ _ h => ?_
  split
  · exact trivial
  · refine keepsObj_ite trivial ?_
    split
    · exact trivial
    · split
      · exact trivial
      · exact (keeps_newEntry h).of_some ‹_›

theorem keeps_lastClosed {type obj : Nat} : Keeps s₀ (lastClosed s type obj) := by
  unfold lastClosed
  split
  · exact keeps_ite (keeps_modRegion h) h
  · exact keeps_objectEnded (keeps_endPort h)
  · exact keeps_objectEnded h.frame
  · exact keeps_objectEnded h.frame
  · exact keeps_objectEnded h.frame
  · exact h

theorem keeps_closeEntry {i : Nat} : Keeps s₀ (closeEntry s i) := by
  unfold closeEntry
  dsimp only
  split
  · exact h
  · exact keeps_ite (keeps_lastClosed (keeps_freeEntry h)) (keeps_freeEntry h)

theorem keeps_execOclose {d a : BitVec 7} : KeepsOut s₀ (execOclose d a s) := by
  show Keeps s₀ _
  refine keeps_objOp h fun _ _ h => ?_
  split
  · exact trivial
  · exact keeps_closeEntry h

theorem keeps_execOinfo {d a b : BitVec 7} : KeepsOut s₀ (execOinfo d a b s) := by
  show Keeps s₀ _
  refine keeps_objOp h fun _ _ h => ?_
  split
  · exact trivial
  · split
    · exact trivial
    · exact h

theorem keeps_makeSimple {d : BitVec 7} {type : Nat} {put : State → Nat → State}
    (part : ∀ t o, Keeps s₀ t → Keeps s₀ (put t o)) : Keeps s₀ (makeSimple d type put s) := by
  unfold makeSimple
  refine keeps_objOp h fun _ _ h => ?_
  split
  · exact trivial
  · exact part _ _ ((keeps_makeObject h).of_ok ‹_›)

theorem keeps_execWsadd {d a b : BitVec 7} : KeepsOut s₀ (execWsadd d a b s) := by
  show Keeps s₀ _
  dsimp only
  refine keeps_objOp h fun _ _ h => ?_
  split
  · exact trivial
  · split
    · exact trivial
    · split
      · exact trivial
      · exact keepsObj_ite trivial h.frame

theorem keeps_execWsdel {d a b : BitVec 7} : KeepsOut s₀ (execWsdel d a b s) := by
  show Keeps s₀ _
  dsimp only
  refine keeps_objOp h fun _ _ h => ?_
  split
  · exact trivial
  · exact keepsObj_ite trivial h.frame

theorem keeps_execTarm {d a b : BitVec 7} : KeepsOut s₀ (execTarm d a b s) := by
  show Keeps s₀ _
  refine keeps_objOp h fun _ _ h => ?_
  split
  · exact trivial
  · exact h.frame

theorem keeps_execTcancel {d a : BitVec 7} : KeepsOut s₀ (execTcancel d a s) := by
  show Keeps s₀ _
  refine keeps_objOp h fun _ _ h => ?_
  split
  · exact trivial
  · exact h.frame

theorem keeps_mapSegment {root : DWord} {rg die base : Nat} {fs : List Nat} :
    KeepsOpt s₀ (mapSegment s root rg die base fs) :=
  List.foldlRecOn (motive := KeepsOpt s₀) _ _ h fun _ h _ _ => h.bind fun _ h => keeps_mapPage h

theorem keeps_execAnew {d a b : BitVec 7} : KeepsOut s₀ (execAnew d a b s) := by
  show Keeps s₀ _
  dsimp only
  refine keeps_objOp h fun _ _ h => keepsObj_ite trivial (keepsObj_ite (keeps_settleWalks h) (keepsObj_ite
    (keeps_settleWalks h) (keepsObj_ite trivial ?_)))
  split
  · exact keeps_settleWalks h
  · split
    · exact keeps_settleWalks h
    · split
      · exact keeps_settleWalks h
      · exact keepsObj_ite (keeps_settleWalks h) (((keeps_mapSegment (keeps_charge ((keeps_takeFrames ((keeps_makeObject
          (keeps_settleWalks h)).of_ok ‹_›)).of_some ‹_›))).of_some ‹_›).frame)

theorem keeps_execAseal {d a : BitVec 7} : KeepsOut s₀ (execAseal d a s) := by
  show Keeps s₀ _
  dsimp only
  refine keeps_objOp h fun _ _ h => ?_
  split
  · exact trivial
  · split
    · exact trivial
    · exact keepsObj_ite trivial (keepsObj_ite h.frame h.frame)

theorem keeps_execAfree {d a : BitVec 7} : KeepsOut s₀ (execAfree d a s) := by
  show Keeps s₀ _
  dsimp only
  refine keeps_objOp h fun _ _ h => ?_
  split
  · exact trivial
  · split
    · exact trivial
    · exact keepsObj_ite trivial (keeps_foldl h.frame fun _ _ h => keeps_transmitFor h)

theorem keeps_execAtail {d a b : BitVec 7} : KeepsOut s₀ (execAtail d a b s) := by
  show Keeps s₀ _
  refine keeps_objOp h fun _ _ h => ?_
  split
  · exact trivial
  · split
    · exact h
    · exact h
    · exact trivial

theorem keeps_execCommitTailAdvance {seg blk : Nat} : KeepsOut s₀ (execCommitTailAdvance seg blk s) := by
  show Keeps s₀ _
  dsimp only
  split
  · exact h
  · split
    · exact h
    · refine keeps_ite h ((keeps_foldl (keeps_foldl h fun _ _ h => ?_) fun _ _ h => ?_).frame)
      · exact h.withMem (fun ok => wf_setByte _ _ ok) rfl rfl rfl
      · split
        · exact keeps_markDirty h
        · exact h

theorem keeps_settleSeal {seg : Nat} : Keeps s₀ (settleSeal s seg) :=
  keeps_foldl h fun _ _ h => keeps_settleDue h

theorem keeps_execAsealDone {seg : Nat} : KeepsOut s₀ (execAsealDone seg s) := by
  show Keeps s₀ _
  split
  · exact h
  · exact keeps_ite h (keeps_settleSeal h.frame)

theorem keeps_execAfreeDone {seg : Nat} : KeepsOut s₀ (execAfreeDone seg s) := by
  show Keeps s₀ _
  dsimp only
  split
  · exact h
  · exact keeps_ite h (keeps_objectEnded (keeps_pushEvent ((keeps_unmapRange (keeps_dropReceived (keeps_foldl
      (keeps_settleSeal h) fun _ _ h => keeps_freeFrame h))).frame)))

theorem keeps_execReplicaCreate {seg page die : Nat} : KeepsOut s₀ (execReplicaCreate seg page die s) := by
  show Keeps s₀ _
  dsimp only
  split
  · exact h
  · refine keeps_ite h ?_
    split
    · exact h
    · exact (keeps_askedBy (keeps_pageTraffic (keeps_copyFrame ((keeps_takeHbm h).of_some ‹_›)))).frame

/-! ### Regions -/

theorem keeps_openAccounts {old : State} {r : Nat} : Keeps s₀ (openAccounts old s r) :=
  keeps_foldl h fun _ _ h => keeps_ite (keeps_modRegion h) h

theorem keeps_createRegion {parent issuer home : Nat} {img : List (BitVec 8)} :
    KeepsMade s₀ (createRegion s parent issuer home img) := by
  unfold createRegion
  dsimp only
  split
  · exact trivial
  · split
    · exact trivial
    · split
      · exact trivial
      · split
        · exact trivial
        · split
          · exact trivial
          · split
            · exact trivial
            · exact keeps_openAccounts (((keeps_makeObject h).of_ok ‹_›).frame)

theorem keeps_setRegion {r n x : Nat} : KeepsExc s₀ (setRegion s r n x) := by
  unfold setRegion
  dsimp only
  split
  · exact trivial
  · split
    · split
      · exact keeps_placementDue (keeps_modRegion h)
      · exact keeps_modRegion h
      · split
        · exact keeps_discard h
        · exact trivial
      · exact trivial
    · split
      · exact trivial
      · split
        · exact trivial
        · split
          · exact keeps_openAccounts h.frame
          · exact trivial

theorem keeps_execRgnew {d a b : BitVec 7} : KeepsOut s₀ (execRgnew d a b s) := by
  show Keeps s₀ _
  dsimp only
  refine keeps_objOp h fun _ _ h => ?_
  split
  · exact trivial
  · refine keepsObj_ite trivial ?_
    split
    · exact trivial
    · exact (keeps_fetchBytes h).of_bad ‹_›
    · split
      · exact (keeps_fetchBytes h).of_ok ‹_›
      · exact (keeps_createRegion ((keeps_fetchBytes h).of_ok ‹_›)).of_ok ‹_›

theorem keeps_execRgset {d a b : BitVec 7} : KeepsOut s₀ (execRgset d a b s) := by
  show Keeps s₀ _
  dsimp only
  refine keeps_objOp h fun _ _ h => ?_
  split
  · exact trivial
  · refine keepsObj_ite trivial ?_
    split
    · exact trivial
    · exact (keeps_setRegion h).of_ok ‹_›

theorem keeps_dropCohort {c : Nat} : Keeps s₀ (dropCohort s c) := by
  unfold dropCohort
  dsimp only
  split
  · exact h
  · refine keeps_ite h (keeps_modCohort (keeps_foldl
      (keeps_foldl h fun _ _ h => ?_) fun _ _ h => keeps_foldl h fun _ _ h => keeps_objectEnded h))
    split
    · exact h
    · exact keeps_objectEnded (keeps_modGang ((keeps_ite (keeps_unmapRange (keeps_ite (keeps_uncharge h) h)) (keeps_ite
        (keeps_uncharge h) h)).frame) fun _ _ => rfl)

theorem keeps_dropRange {r : Nat} : Keeps s₀ (dropRange s r) := by
  unfold dropRange
  dsimp only
  split
  · exact h
  · refine keeps_ite h ?_
    split
    · exact keeps_objectEnded h.frame
    · exact keeps_completePacket (keeps_objectEnded h.frame)

theorem keeps_releaseSubtree {sub : List Nat} : Keeps s₀ (releaseSubtree s sub) := by
  unfold releaseSubtree
  extract_lets s1 s2 s3 s4 s5 s6 s7 s8 s9 s10
  have h1 : Keeps s₀ s1 := keeps_foldl h fun _ _ h => keeps_dropCohort h
  have h2 : Keeps s₀ s2 := keeps_foldl h1 fun _ _ h => keeps_dropRange h
  have h3 : Keeps s₀ s3 := keeps_foldl h2 fun _ _ h => keeps_completePacket h
  have h4 : Keeps s₀ s4 := keeps_foldl h3 fun _ _ h => keeps_objectEnded (keeps_endPort h)
  have h5 : Keeps s₀ s5 := keeps_foldl h4 fun _ _ h => keeps_objectEnded h.frame
  have h6 : Keeps s₀ s6 := keeps_foldl h5 fun _ _ h => keeps_objectEnded h.frame
  have h7 : Keeps s₀ s7 := keeps_foldl h6 fun _ _ h => keeps_objectEnded h.frame
  have h8 : Keeps s₀ s8 := h7.frame
  have h9 : Keeps s₀ s9 := keeps_foldl h8 fun _ _ h => keeps_closeEntry h
  have h10 : Keeps s₀ s10 := keeps_foldl h9 fun _ _ h => keeps_objectEnded h
  exact h10.frame

theorem keeps_execDiscardRelease {rg : Nat} : KeepsOut s₀ (execDiscardRelease rg s) := by
  show Keeps s₀ _
  dsimp only
  split
  · exact h
  · refine keeps_ite h ?_
    split
    · exact keeps_modRegion (keeps_releaseSubtree h)
    · exact keeps_placementDue (keeps_pushEvent (keeps_modRegion (keeps_releaseSubtree h)))

/-! ### The save area -/

theorem keeps_storeVA {root : DWord} {gen va : Nat} {bs : List (BitVec 8)} : KeepsCsa s₀ (storeVA s root gen va bs) := by
  rw [storeVA]
  split
  · exact keeps_setLocs (keeps_useLeaves (keeps_prepareList h))
  · exact trivial
  · exact trivial

theorem keeps_loadVA {root : DWord} {va n : Nat} : KeepsCsaPair s₀ (loadVA s root va n) := by
  rw [loadVA]
  split
  · exact keeps_useLeaves (keeps_prepareList h)
  · exact trivial
  · exact trivial

theorem keeps_csaPage {strict : Bool} {root : DWord} {die va : Nat} : KeepsOpt s₀ (csaPage strict s root die va) := by
  unfold csaPage
  split
  · exact keeps_resolution ((keeps_residentNow h).of_some ‹_›)
  · split
    · exact h
    · exact trivial

theorem keeps_csaLoad {strict : Bool} {root : DWord} {die va n : Nat} : KeepsCsaPair s₀ (csaLoad strict s root die va n) := by
  -- Made a variable, since the check of the branches would evaluate the function.
  obtain ⟨page, same⟩ : ∃ f, f = csaPage := ⟨_, rfl⟩
  obtain ⟨load, alike⟩ : ∃ f, f = loadVA := ⟨_, rfl⟩
  have paged {t : State} {va : Nat} (h : Keeps s₀ t) : KeepsOpt s₀ (page strict t root die va) := same ▸ keeps_csaPage h
  have loaded {t : State} {va n : Nat} (h : Keeps s₀ t) : KeepsCsaPair s₀ (load t root va n) := alike ▸ keeps_loadVA h
  rw [csaLoad, ← same, ← alike]
  refine List.foldlRecOn (motive := KeepsCsaPair s₀) _ _ h fun acc h p _ => ?_
  split
  · split
    · trivial
    · next made =>
      have made := (paged h).of_some made
      split
      · exact (loaded made).of_ok ‹_›
      · trivial
      · split
        · trivial
        · exact made
  · exact h

theorem keeps_csaStore {strict : Bool} {root : DWord} {gen die va : Nat} {bs : List (BitVec 8)} :
    KeepsCsa s₀ (csaStore strict s root gen die va bs) := by
  -- Made a variable, since the check of the branches would evaluate the function.
  obtain ⟨page, same⟩ : ∃ f, f = csaPage := ⟨_, rfl⟩
  obtain ⟨store, alike⟩ : ∃ f, f = storeVA := ⟨_, rfl⟩
  have paged {t : State} {va : Nat} (h : Keeps s₀ t) : KeepsOpt s₀ (page strict t root die va) := same ▸ keeps_csaPage h
  have stored {t : State} {va : Nat} {bs : List (BitVec 8)} (h : Keeps s₀ t) : KeepsCsa s₀ (store t root gen va bs) :=
    alike ▸ keeps_storeVA h
  rw [csaStore, ← same, ← alike]
  refine List.foldlRecOn (motive := KeepsCsa s₀) _ _ h fun acc h p _ => ?_
  split
  · split
    · trivial
    · next made =>
      have made := (paged h).of_some made
      split
      · exact (stored made).of_ok ‹_›
      · trivial
      · split
        · trivial
        · exact made
  · exact h

theorem keeps_csaStores {strict : Bool} {root : DWord} {gen die : Nat} {items : List (Nat × List (BitVec 8))} :
    KeepsCsa s₀ (csaStores strict s root gen die items) := by
  refine List.foldlRecOn (motive := KeepsCsa s₀) _ _ h fun acc h p _ => ?_
  split
  · exact keeps_csaStore h
  · exact h

omit h in
theorem KeepsCsa.made {a : CsaAccess State} (h : KeepsCsa s₀ a) : KeepsOpt s₀ a.made := by
  cases a with
  | ok t => exact h
  | wait va => trivial
  | fail c va => trivial

omit h in
theorem KeepsCsaPair.made {α : Type} {a : CsaAccess (α × State)} (h : KeepsCsaPair s₀ a) : KeepsOptPair s₀ a.made := by
  cases a with
  | ok t => exact h
  | wait va => trivial
  | fail c va => trivial

theorem keeps_csaNat {root : DWord} {die va n : Nat} : KeepsOptPair s₀ (csaNat s root die va n) :=
  (keeps_csaLoad h).made.mapPair fun _ h => h

theorem keeps_writeDeviceItems {root : DWord} {die base : Nat} {w : Wave} :
    KeepsOpt s₀ (writeDeviceItems s root die base w) :=
  (keeps_csaStores h).made

theorem keeps_mapCsa {root : DWord} {rg : Nat} {g : Gang} : KeepsOpt s₀ (mapCsa s root rg g) := by
  refine List.foldlRecOn (motive := KeepsOpt s₀) _ _ h fun _ h i _ => h.bind fun t h => ?_
  have dropped : Keeps s₀ (dropReplicas (dieOf g.core) 1 t) := keeps_dropReplicas h
  dsimp only
  split
  · trivial
  · refine KeepsOptPair.bind (keeps_takeHbm (keeps_ite ?_ dropped)) fun _ h =>
      keeps_mapPage (keeps_traffic (keeps_charge (keeps_zeroFrame h)))
    split
    · exact keeps_evict dropped
    · exact dropped

theorem keeps_savedMask {root : DWord} {die : Nat} {g : Gang} : KeepsOptPair s₀ (savedMask s root die g) :=
  (keeps_csaNat h).mapPair fun _ h => h

/-! ### Traps -/

theorem keeps_raisePreempt {c : Nat} : Keeps s₀ (raisePreempt s c) := by
  unfold raisePreempt
  dsimp only
  split
  · exact h
  · exact keeps_ite h (keeps_foldl (keeps_modCohort h) fun _ _ h => keeps_foldl
      (keeps_modGang h (by exact fun _ => id)) fun _ _ h => keeps_addPending h)

theorem keeps_haltContexts {g : Nat} : Keeps s₀ (haltContexts s g) :=
  keeps_modGang h fun _ => id

theorem keeps_enterPreempt {wid : Nat} {w : Wave} {tresume : DWord} : KeepsOpt s₀ (enterPreempt s wid w tresume) := by
  unfold enterPreempt
  dsimp only
  split
  · trivial
  · refine KeepsOpt.bind ?_ fun t h => ?_
    · have halted := keeps_haltContexts (g := w.gang)
        (keeps_modWave (w := wid) (f := fun w => { w with frozen := false }) h)
      split
      · exact halted
      · exact keeps_mapCsa halted
    · have entered {c} {f : Cohort → Cohort} {a} := keeps_takeTrap (wid := wid) (t := a)
        (keeps_modCohort (c := c) (f := f) (keeps_modGang (g := w.gang) (f := fun x => { x with csa := true }) h fun _ => id))
      split
      · split
        · exact (keeps_writeDeviceItems entered).map fun _ h => keeps_modWave (keeps_askedBy h)
        · exact entered
      · exact entered

theorem keeps_enterFirst {wid : Nat} {w : Wave} {tresume : DWord} : KeepsOpt s₀ (enterFirst s wid w tresume) := by
  unfold enterFirst
  dsimp only
  split
  · exact trivial
  · split
    · exact keeps_enterPreempt (keeps_modWave h)
    · exact keeps_takeTrap (keeps_modWave (keeps_modWave h))

theorem keeps_execTrapEntry {w : Nat} : KeepsOut s₀ (execTrapEntry w s) := by
  show Keeps s₀ _
  split
  · exact h
  · exact keeps_ite h (keeps_getD (keeps_enterFirst h) h)

theorem keeps_execDeferredPreciseTrap {w : Nat} : KeepsOut s₀ (execDeferredPreciseTrap w s) := by
  show Keeps s₀ _
  dsimp only
  split
  · exact h
  · split
    · exact h
    · exact keeps_ite h (keeps_takeTrap (keeps_modWave h))

theorem keeps_retryContexts {w : Wave} : Keeps s₀ (retryContexts s w) := by
  unfold retryContexts
  dsimp only
  refine keeps_ite (keeps_modGang ?_ (by exact fun _ => id)) ?_
  · split
    · exact keeps_modCtx h
    · exact h
  · split
    · exact keeps_modCtx h
    · exact h

theorem keeps_closeRestore {g : Nat} : Keeps s₀ (closeRestore s g) := by
  unfold closeRestore
  dsimp only
  split
  · exact h
  · exact keeps_ite (keeps_modGang (keeps_unmapRange h) (by exact fun _ => id)) h

theorem keeps_returnFromTrap {wid : Nat} {w : Wave} : KeepsOpt s₀ (returnFromTrap s wid w) := by
  have resumed := keeps_modWave (w := wid) (f := Wave.resumeHeld) (keeps_retryContexts (w := w) h)
  have closed := keeps_ite (p := w.inRestore) (keeps_closeRestore (g := w.gang) resumed) resumed
  have ready {f g r} := keeps_modRegion (r := r) (f := g)
    (keeps_modWave (w := wid) (f := f) (keeps_reevaluate (fuel := 64) (wid := wid) (i := 0) closed))
  unfold returnFromTrap
  dsimp only
  split
  · exact ready
  · split
    · exact keeps_finishWave ready
    · split
      · exact keeps_enterFirst ready
      · exact keeps_replay (keeps_modWave ready)

theorem keeps_returnState {wid : Nat} {w : Wave} : KeepsOpt s₀ (returnState s wid w) := by
  unfold returnState
  split
  · trivial
  · split
    · exact h
    · cases fget s.gangs w.gang with
      | none => trivial
      | some g =>
        rw [Option.bind_some]
        exact (keeps_csaLoad h).made.map fun _ h => keeps_modGang (keeps_modWave (keeps_askedBy h)) fun _ => id

theorem keeps_execEreturn : KeepsOut s₀ (execEreturn s) := by
  refine keeps_issue h fun _ _ h => ?_
  split
  · exact ((keeps_returnState h).bind fun _ h => keeps_returnFromTrap h).of_some ‹_›
  · trivial

theorem keeps_releaseGang {g : Nat} : Keeps s₀ (releaseGang s g) := by
  unfold releaseGang
  dsimp only
  split
  · exact h
  · exact keeps_finishSave (keeps_modGang h fun _ _ => rfl)

/-! ### Supervisor instructions -/

theorem keeps_holdWave {self wid : Nat} {w : Wave} : Keeps s₀ (holdWave s self wid w) := by
  unfold holdWave
  dsimp only
  exact keeps_ite h (keeps_setWave h)

theorem keeps_execWread {d a b : BitVec 7} : KeepsOut s₀ (execWread d a b s) := by
  show Keeps s₀ _
  dsimp only
  refine keeps_objOp h fun _ _ h => ?_
  split
  · exact trivial
  · split
    · exact trivial
    · exact keepsObj_ite trivial (keeps_holdWave h)

theorem keeps_selectWrite {wid : Nat} {w : Wave} {q : Selector} {x : Nat} : KeepsExc s₀ (selectWrite s wid w q x) := by
  unfold selectWrite
  dsimp only
  split
  · exact keeps_modWave h
  · exact keeps_modWave h
  · exact keeps_modWave h
  · exact keeps_modWave h
  · exact keeps_modWave h
  · split
    · exact h
    · exact h
    · exact h
    · exact keeps_modWave h
    · exact keeps_modWave h
    · exact keeps_modWave h
    · exact trivial
  · exact iteInduction (motive := KeepsExc s₀) (fun _ => keeps_srWrite h) fun _ => trivial

theorem keeps_execWwrite {d a b : BitVec 7} : KeepsOut s₀ (execWwrite d a b s) := by
  show Keeps s₀ _
  dsimp only
  refine keeps_objOp h fun _ _ h => ?_
  split
  · exact trivial
  · split
    · exact trivial
    · refine keepsObj_ite trivial (keepsObj_ite trivial ?_)
      split
      · exact trivial
      · exact (keeps_selectWrite (keeps_holdWave h)).of_ok ‹_›

theorem keeps_execWresume {d a : BitVec 7} : KeepsOut s₀ (execWresume d a s) := by
  show Keeps s₀ _
  dsimp only
  refine keeps_objOp h fun _ _ h => ?_
  split
  · exact trivial
  · exact keepsObj_ite trivial (keeps_ite (keeps_finishWave (keeps_setWave h)) (keeps_replay (keeps_setWave h)))

theorem keeps_execGsaved {d : BitVec 7} : KeepsOut s₀ (execGsaved d s) := by
  show Keeps s₀ _
  dsimp only
  exact keeps_objOp h fun _ _ h => keepsObj_ite trivial (keepsObj_ite (keeps_modWave h) (keepsObj_ite trivial
    (keeps_releaseGang (keeps_modWave h))))

theorem keeps_execRdlog {d a b : BitVec 7} : KeepsOut s₀ (execRdlog d a b s) := by
  show Keeps s₀ _
  dsimp only
  refine keeps_objOp h fun _ _ h => keepsObj_ite trivial ?_
  split
  · exact trivial
  · exact h

theorem keeps_execCsaveq {d a : BitVec 7} : KeepsOut s₀ (execCsaveq d a s) := by
  -- Made a variable, since the check of the branches would evaluate the function.
  obtain ⟨store, same⟩ : ∃ f, f = csaStores := ⟨_, rfl⟩
  have read {t : State} {strict root gen die items} (h : Keeps s₀ t) :
      KeepsCsa s₀ (store strict t root gen die items) := same ▸ keeps_csaStores h
  unfold execCsaveq
  show Keeps s₀ _
  rw [← same]
  dsimp only
  refine keeps_objOp h fun _ _ h => keepsObj_ite trivial ?_
  split
  · exact trivial
  · split
    · exact keeps_askedBy ((read h).of_ok ‹_›)
    · exact trivial
    · exact trivial

theorem keeps_execCreplay {d a : BitVec 7} : KeepsOut s₀ (execCreplay d a s) := by
  -- Made a variable, since the check of the branches would evaluate the function.
  obtain ⟨load, same⟩ : ∃ f, f = csaLoad := ⟨_, rfl⟩
  have read {t : State} {strict root die va n} (h : Keeps s₀ t) :
      KeepsCsaPair s₀ (load strict t root die va n) := same ▸ keeps_csaLoad h
  unfold execCreplay
  show Keeps s₀ _
  rw [← same]
  dsimp only
  refine keeps_objOp h fun _ _ h => keepsObj_ite trivial ?_
  split
  · exact trivial
  · split
    · exact trivial
    · exact trivial
    · split
      · exact trivial
      · exact trivial
      · exact keepsObj_ite trivial (keeps_modGang (keeps_askedBy ((read ((read h).of_ok ‹_›)).of_ok ‹_›)) fun _ => id)

theorem keeps_execTlbinv {d a b : BitVec 7} : KeepsOut s₀ (execTlbinv d a b s) := by
  show Keeps s₀ _
  dsimp only
  exact keeps_objOp h fun _ _ h => keepsObj_ite trivial h.frame

theorem keeps_startCheckpoint {r : Nat} {packet : Option Nat} : KeepsExcPair s₀ (startCheckpoint s r packet) := by
  unfold startCheckpoint
  dsimp only
  split
  · exact trivial
  · split
    · exact trivial
    · split
      · exact trivial
      · split
        · exact trivial
        · exact keeps_modRegion (keeps_settleTables h)

theorem keeps_execCkmark {d a : BitVec 7} : KeepsOut s₀ (execCkmark d a s) := by
  show Keeps s₀ _
  refine keeps_objOp h fun _ _ h => ?_
  split
  · exact trivial
  · split
    · exact trivial
    · exact (keeps_startCheckpoint h).of_ok ‹_›

end

end Sys2Proof.Machine

/-! SUPPORT. What the events of the Cistern, the arbiters, the fabric, power, boot, the host window and packets do keeps what every step
keeps (spec/15 R275 to R290; spec/21 R351 to R368; spec/25 R393 to R413). -/

namespace Sys2Proof.Machine

open Sys2Proof

section
variable {s₀ s : State} (h : Keeps s₀ s)
include h

/-! ### The Cistern -/

theorem keeps_execPageFill {rg va die : Nat} : KeepsOut s₀ (execPageFill rg va die s) := by
  show Keeps s₀ _
  dsimp only
  exact keeps_ite h (keeps_replayAll (keeps_askedBy (keeps_resolutionFor (keeps_resolvePage h))))

theorem keeps_migDone {r : Nat} : Keeps s₀ (migDone s r) :=
  keeps_modHost h

theorem keeps_serveMig : Keeps s₀ (serveMig s) := by
  unfold serveMig
  dsimp only
  split
  · exact h
  · refine keeps_ite h ?_
    split
    · exact keeps_migDone h
    · refine keeps_ite (keeps_migDone (keeps_settleWalk h)) ?_
      split
      · exact keeps_ite (keeps_settleWalk h) (keeps_ite (keeps_ite (keeps_migDone (keeps_settleWalk h)) (keeps_migDone
          (keeps_retarget (keeps_settleWalk h)))) (keeps_ite (keeps_ite (keeps_settleWalk h) (keeps_migDone
          (keeps_settleWalk h))) (keeps_ite (keeps_ite (keeps_migDone (keeps_settleWalk h)) (keeps_ite (keeps_migDone
          (keeps_settleWalk h)) (keeps_modHost (keeps_startMove (keeps_settleWalk h))))) (keeps_ite (keeps_migDone
          (keeps_settleWalk h)) (keeps_ite (keeps_migDone (keeps_settleWalk h)) (keeps_ite (keeps_migDone (keeps_retarget
          (keeps_settleWalk h))) (keeps_modHost (keeps_startMove (keeps_settleWalk h)))))))))
      · exact keeps_migDone (keeps_settleWalk h)

theorem keeps_moveToDevice {rg : Nat} {root : DWord} {frame die : Nat} : KeepsOpt s₀ (moveToDevice s rg root frame die) :=
  (keeps_bringHome h).map fun _ h => keeps_noteMove (keeps_endMove h)

theorem keeps_moveToHost {root : DWord} {frame given : Nat} : Keeps s₀ (moveToHost s root frame given) := by
  unfold moveToHost
  dsimp only
  exact keeps_noteMove (keeps_pageTraffic (keeps_uncharge (keeps_freeFrame (keeps_endMove ((keeps_movePage
    (keeps_settleFrame h)).frame)))))

theorem keeps_execMigrationDone {rg va die : Nat} : KeepsOut s₀ (execMigrationDone rg va die s) := by
  show Keeps s₀ _
  dsimp only
  split
  · exact h
  · refine keeps_ite h (keeps_ite (keeps_replayAll (keeps_askedBy (keeps_ite (keeps_migDone (keeps_endMove h))
      (keeps_serveMig (keeps_endMove h))))) (keeps_ite ?_ (keeps_replayAll (keeps_askedBy (keeps_ite (keeps_migDone
      (keeps_moveToHost h)) (keeps_serveMig (keeps_moveToHost h)))))))
    split
    · exact keeps_replayAll (keeps_askedBy (keeps_ite (keeps_migDone (keeps_resolutionFor
        ((keeps_moveToDevice h).of_some ‹_›))) (keeps_serveMig (keeps_resolutionFor ((keeps_moveToDevice h).of_some ‹_›)))))
    · exact keeps_replayAll (keeps_askedBy (keeps_ite (keeps_migDone (keeps_endMove h)) (keeps_serveMig (keeps_endMove h))))

theorem keeps_migCommand {region va cmd frame : Nat} : Keeps s₀ (migCommand s region va cmd frame) :=
  keeps_ite h (keeps_serveMig (keeps_modHost h))

theorem keeps_execCheckpointPageCopy {rg page : Nat} : KeepsOut s₀ (execCheckpointPageCopy rg page s) := by
  show Keeps s₀ _
  dsimp only
  split
  · exact h
  · split
    · exact h
    · refine keeps_ite h ?_
      split
      · exact keeps_ite (keeps_replayAll (keeps_modRegion h)) (keeps_replayAll (keeps_modRegion (keeps_ite (keeps_modMoving
          (keeps_putEntry (keeps_askedBy (keeps_pageTraffic (keeps_hostWrite (keeps_settleFrame h)))))) (keeps_askedBy
          (keeps_pageTraffic (keeps_hostWrite (keeps_settleFrame h)))))))
      · exact keeps_replayAll (keeps_modRegion h)

theorem keeps_runCkptPacket {pk : Nat} {p : Packet} : Keeps s₀ (runCkptPacket s pk p) := by
  unfold runCkptPacket
  dsimp only
  split
  · exact (keeps_startCheckpoint (keeps_modRegion h)).of_ok ‹_›
  · exact keeps_completePacket (keeps_modRegion h)

theorem keeps_execCheckpointImageDone {rg : Nat} : KeepsOut s₀ (execCheckpointImageDone rg s) := by
  show Keeps s₀ _
  dsimp only
  split
  · exact h
  · split
    · exact h
    · refine keeps_ite h ?_
      split
      · refine keeps_runCkptPacket ?_
        split
        · exact keeps_completePacket (keeps_modRegion (keeps_ite (keeps_hostWrite h) h))
        · exact keeps_modRegion (keeps_ite (keeps_hostWrite h) h)
      · split
        · exact keeps_completePacket (keeps_modRegion (keeps_ite (keeps_hostWrite h) h))
        · exact keeps_modRegion (keeps_ite (keeps_hostWrite h) h)

/-! ### Placement -/

theorem keeps_returnClaims {c keep : Nat} : Keeps s₀ (returnClaims s c keep) :=
  h.frame

theorem keeps_makeWaves {gang core lo hi gidx rg i0 : Nat} {argp handle : DWord} {es : List RoleEntry} :
    KeepsOpt s₀ (makeWaves gang core lo hi gidx rg argp handle es i0 s) := by
  induction es generalizing s i0 with
  | nil => exact h
  | cons e es ih =>
    rw [makeWaves]
    refine KeepsOpt.bind ?_ fun _ h => ih h
    refine List.foldlRecOn (motive := KeepsOpt s₀) _ _ h fun _ h _ _ => h.bind fun _ h => ?_
    split
    · trivial
    · exact keeps_setWave ((keeps_makeObject h).of_ok ‹_›)

theorem keeps_makeGang {cohort rg gidx core lo hi : Nat} {argp handle : DWord} {e : GangEntry} :
    KeepsOptPair s₀ (makeGang cohort rg gidx core lo hi argp handle e s) := by
  unfold makeGang
  dsimp only
  split
  · trivial
  · next made =>
    have made := (keeps_makeObject h).of_ok made
    exact (keeps_makeWaves (keeps_setGang made rfl)).mapToPair fun _ h => keeps_foldl h fun _ _ h => keeps_seatWave h

theorem keeps_makeGangs {cohort rg lo hi : Nat} {argp handle : DWord} {es : List (Nat × GangEntry × Nat)} {gs : List Nat} :
    KeepsOptPair s₀ (makeGangs cohort rg lo hi argp handle es gs s) := by
  induction es generalizing s gs with
  | nil => exact h
  | cons e es ih =>
    obtain ⟨gidx, e, core⟩ := e
    rw [makeGangs]
    split
    · trivial
    · exact ih ((keeps_makeGang h).of_some ‹_›)

theorem keeps_endReservations {u : Bool × Nat} : Keeps s₀ (endReservations s u) :=
  h.frame

theorem keeps_placeRange {r c : Nat} {cores : List Nat} : Keeps s₀ (placeRange s r c cores) := by
  unfold placeRange
  dsimp only
  split
  · exact keeps_returnClaims h
  · split
    · exact keeps_returnClaims h
    · split
      · exact (keeps_returnClaims h).frame
      · next made =>
        have made := (keeps_makeGangs (keeps_returnClaims h).frame).of_some made
        exact keeps_endReservations (keeps_charge (keeps_modCohort made)).frame

theorem keeps_savedMasks {k : Cohort} {cores : List Nat} : KeepsOptPair s₀ (savedMasks s k cores) := by
  refine List.foldlRecOn (motive := KeepsOptPair s₀) _ _ h fun _ h _ _ => h.bindPair fun x h => ?_
  split
  · exact h
  · split
    · exact h
    · exact (keeps_savedMask h).mapPair fun _ h => h

theorem keeps_leaveOut {g : Nat} {mask : Word} : Keeps s₀ (leaveOut s g mask) :=
  keeps_foldl h fun _ _ h => keeps_ite h (keeps_finishWave h)

theorem keeps_unseat {g : Nat} : Keeps s₀ (unseat s g) :=
  h.frame

theorem keeps_placeSavedGang {rg g core : Nat} {mask : Word} : Keeps s₀ (placeSavedGang s rg g core mask) := by
  unfold placeSavedGang
  dsimp only
  exact keeps_foldl (keeps_leaveOut (keeps_charge (keeps_modGang h (by exact fun _ => id)))) fun _ _ h => keeps_seatWave h

theorem keeps_placeSaved {k c : Nat} {cores : List Nat} : Keeps s₀ (placeSaved s k c cores) := by
  unfold placeSaved
  cases fget s.cohorts k with
  | none => exact h
  | some x =>
    have masked : KeepsOptPair s₀ (savedMasks s x cores) := keeps_savedMasks h
    rw [Option.map_some]
    generalize savedMasks s x cores = o at masked ⊢
    cases o with
    | none => exact h.frame
    | some r =>
      exact keeps_endReservations (keeps_askedBy (keeps_foldl
        (keeps_foldl (keeps_modCohort masked) fun _ _ h => keeps_unseat h) fun _ _ h => keeps_placeSavedGang h))

theorem keeps_placeUnit {c : Nat} {free : List Nat} {u : Bool × Nat} : Keeps s₀ (placeUnit s c free u) := by
  unfold placeUnit
  refine keeps_ite h ?_
  split
  · exact h
  · exact keeps_ite (keeps_placeSaved h) (keeps_placeRange h)

theorem keeps_arbiter : Keeps s₀ (arbiter s) := by
  unfold arbiter
  dsimp only
  refine keeps_ite h (keeps_foldl h fun _ _ h => ?_)
  split
  · exact h
  · exact h.frame

theorem keeps_execPlacement {cluster : Nat} : KeepsOut s₀ (execPlacement cluster s) := by
  show Keeps s₀ _
  dsimp only
  split
  · exact h
  · refine keeps_ite h (keeps_arbiter ?_)
    split
    · exact keeps_placeUnit h.frame
    · exact keeps_foldl h.frame fun _ _ h => keeps_placeUnit h

theorem keeps_restoreGang {g : Nat} : KeepsOpt s₀ (restoreGang s g) := by
  unfold restoreGang
  dsimp only
  split
  · exact h
  · split
    · exact keeps_discardOf h
    · exact List.foldlRecOn (motive := KeepsOpt s₀) _ _ h fun _ h _ _ => h.bind fun _ h =>
        (keeps_csaLoad h).made.map fun _ h => keeps_setWave h

theorem keeps_startCohort {cohort : Nat} {k : Cohort} : KeepsOpt s₀ (startCohort s cohort k) := by
  unfold startCohort
  dsimp only
  refine KeepsOpt.map ?_ fun _ h => keeps_askedBy (keeps_foldl h fun _ _ h => keeps_foldl h fun _ _ h => keeps_enqueueRun h)
  refine List.foldlRecOn (motive := KeepsOpt s₀) _ _ (keeps_modCohort h) fun _ h _ _ => h.bind fun _ h => ?_
  split
  · exact keeps_restoreGang h
  · exact h

theorem keeps_execCohortStart {cohort : Nat} : KeepsOut s₀ (execCohortStart cohort s) := by
  show Keeps s₀ _
  split
  · exact h
  · exact keeps_ite h (keeps_getD (keeps_startCohort h) h)

theorem keeps_execUnitAged {saved : Bool} {unit : Nat} : KeepsOut s₀ (execUnitAged saved unit s) := by
  show Keeps s₀ _
  dsimp only
  exact keeps_ite h (keeps_arbiter (keeps_ite (keeps_modCohort h) h.frame))

theorem keeps_execQuantumExpiry {gang : Nat} : KeepsOut s₀ (execQuantumExpiry gang s) := by
  show Keeps s₀ _
  dsimp only
  split
  · exact h
  · exact keeps_ite h (keeps_raisePreempt h)

theorem keeps_execSaveDrainOverrun {cohort : Nat} : KeepsOut s₀ (execSaveDrainOverrun cohort s) := by
  show Keeps s₀ _
  dsimp only
  split
  · exact h
  · exact keeps_ite h (keeps_discardOf h)

theorem keeps_execDeadlockDetect {rg : Nat} : KeepsOut s₀ (execDeadlockDetect rg s) := by
  show Keeps s₀ _
  split
  · exact h
  · exact keeps_ite h (keeps_foldl (keeps_modRegion h) fun _ _ h => keeps_addPending h)

theorem keeps_execProgressStall {rg : Nat} : KeepsOut s₀ (execProgressStall rg s) := by
  show Keeps s₀ _
  dsimp only
  split
  · exact h
  · refine keeps_ite h (keeps_foldl ?_ fun _ _ h => keeps_addPending h)
    split
    · exact keeps_pushEvent (keeps_modRegion h)
    · exact keeps_modRegion h

/-! ### The fabric -/

theorem keeps_arrives {link m inc : Nat} {f : State → State} (part : ∀ t, Keeps s₀ t → Keeps s₀ (f t)) :
    Keeps s₀ (arrives s link m inc f) :=
  keeps_ite (keeps_modLink h) (part _ (keeps_notePeer h))

theorem keeps_takeRequest {hd : HeldSend} : Keeps s₀ (takeRequest s hd) :=
  keeps_ite (keeps_answerAgain h) (keeps_ite h (keeps_ite h.frame (keeps_admitHeld h)))

theorem keeps_writeFrame {f : Nat} {bs : List (BitVec 8)} : Keeps s₀ (writeFrame s f bs) :=
  h.withMem (memoryOk_writeFrame f bs) rfl rfl rfl

theorem keeps_arrivesLate {link incarn n : Nat} : Keeps s₀ (arrivesLate s link incarn n) := by
  unfold arrivesLate
  split
  · exact h
  · exact keeps_arrives h fun _ h => h

theorem keeps_dropReservation {n : Nat} {r : Reservation} : Keeps s₀ (dropReservation s n r) := by
  unfold dropReservation
  dsimp only
  split
  · exact h.frame
  · exact (keeps_ite (keeps_uncharge ((keeps_uncharge (keeps_foldl h fun _ _ h => keeps_freeFrame h)).frame))
      ((keeps_uncharge (keeps_foldl h fun _ _ h => keeps_freeFrame h)).frame)).frame

theorem keeps_execGrantPageCopy {link incarn resv : Nat} {pages : List (List (BitVec 8))} :
    KeepsOut s₀ (execGrantPageCopy link incarn resv pages s) := by
  show Keeps s₀ _
  dsimp only
  split
  · split
    · exact keeps_arrives h fun _ h => keeps_answerAgain h
    · exact keeps_arrivesLate h
  · exact keeps_arrives h fun _ h => keeps_ite (keeps_replyOnce ((keeps_dropReservation h).frame)) (keeps_ite h
      (keeps_releaseHeld (keeps_progressed (keeps_deliver ((keeps_mapLanding (keeps_replyOnce ((keeps_foldl
      (keeps_traffic h) fun _ _ h => keeps_writeFrame h).frame))).frame)))))

theorem keeps_execSendReply {link incarn send status : Nat} : KeepsOut s₀ (execSendReply link incarn send status s) := by
  show Keeps s₀ _
  split
  · exact keeps_arrivesLate h
  · exact keeps_arrives h fun _ h => keeps_ite h (keeps_progressed h.frame)

theorem keeps_execGrantPointReply {link incarn send status : Nat} :
    KeepsOut s₀ (execGrantPointReply link incarn send status s) := by
  show Keeps s₀ _
  dsimp only
  split
  · exact keeps_arrivesLate h
  · exact keeps_ite (keeps_ite h (keeps_passGrant h)) (keeps_arrives h fun _ h => keeps_ite h (keeps_ite (keeps_passGrant
      (keeps_progressed h)) (keeps_ite ((keeps_progressed h).frame) (keeps_progressed h))))

theorem keeps_freeSent {n : Nat} {r : RemoteSend} : Keeps s₀ (freeSent s n r) := by
  unfold freeSent
  dsimp only
  exact (keeps_uncharge (keeps_foldl h fun _ _ h => keeps_freeFrame h)).frame

theorem keeps_execGrantAck {link incarn send : Nat} : KeepsOut s₀ (execGrantAck link incarn send s) := by
  show Keeps s₀ _
  split
  · exact keeps_arrivesLate h
  · exact keeps_arrives h fun _ h => keeps_ite (keeps_freeSent (keeps_progressed h)) h

theorem keeps_endOwnBindings : Keeps s₀ (endOwnBindings s) := by
  unfold endOwnBindings
  dsimp only
  exact (keeps_endBindings h).frame

theorem keeps_declareDead {module : Nat} : Keeps s₀ (declareDead s module) := by
  unfold declareDead
  dsimp only
  exact keeps_foldl (keeps_foldl h.frame fun _ _ h => keeps_ite (keeps_freeSent h)
    (keeps_ite h.frame h)) fun _ _ h => keeps_dropReservation h

theorem keeps_releaseShared {src pn slot : Nat} : Keeps s₀ (releaseShared s src pn slot) := by
  unfold releaseShared
  split
  · exact h
  · split
    · exact keeps_ite (keeps_dropReceived (keeps_foldl h fun _ _ h => keeps_freePage (keeps_mergeFrame h))) h
    · exact h

theorem keeps_requestOnce {link src tag : Nat} {f : State → State} (part : ∀ t, Keeps s₀ t → Keeps s₀ (f t)) :
    Keeps s₀ (requestOnce s link src tag f) :=
  keeps_ite (keeps_answerAgain h) (keeps_replyOnce (part _ h))

theorem keeps_bindFor {src incarn name port : Nat} {grant : Bool} : Keeps s₀ (bindFor s src incarn name port grant) :=
  keeps_ite h h.frame

theorem keeps_endProxiesOf {name module : Nat} : Keeps s₀ (endProxiesOf s name module) :=
  h.frame

theorem keeps_unbindFor {src name owner : Nat} : Keeps s₀ (unbindFor s src name owner) := by
  unfold unbindFor
  dsimp only
  exact keeps_ite (keeps_endProxiesOf (keeps_ite (keeps_foldl h.frame fun _ _ h => keeps_transmitFor h) h.frame)) (keeps_ite
    (keeps_endProxiesOf h.frame) h)

theorem keeps_flitCarried {link src : Nat} : Keeps s₀ (flitCarried s link src) := by
  unfold flitCarried
  dsimp only
  split
  · exact keeps_arrives h fun _ h => keeps_requestOnce h fun _ h => keeps_bindFor h
  · exact keeps_arrives h fun _ h => keeps_requestOnce h fun _ h => keeps_unbindFor h
  · exact keeps_arrives h fun _ h => keeps_requestOnce h fun _ h => keeps_releaseShared h
  · exact keeps_arrives h fun _ h => h.frame
  · exact keeps_arrives h fun _ h => h.frame
  · exact h

theorem keeps_execFlitReceive {port : Nat} {flit : List (BitVec 8)} {crcOk : Bool} :
    KeepsOut s₀ (execFlitReceive port flit crcOk s) := by
  show Keeps s₀ _
  dsimp only
  split
  · exact h
  · exact keeps_ite h (keeps_ite (keeps_modLink h) (keeps_ite ((keeps_modLink h).frame) (keeps_ite (keeps_traffic
      (keeps_routeFlits ((keeps_modLink h).frame))) (keeps_flitCarried (keeps_modLink ((keeps_modLink h).frame))))))

theorem keeps_execLinkRetrainDone {port : Nat} {ok : Bool} : KeepsOut s₀ (execLinkRetrainDone port ok s) := by
  show Keeps s₀ _
  dsimp only
  split
  · exact h
  · exact keeps_ite h (keeps_ite h.frame (keeps_ite (keeps_routeFlits h.frame) h.frame))

/-! ### Power and heat -/

theorem keeps_execRefreshInterval {ch : Nat} : KeepsOut s₀ (execRefreshInterval ch s) := by
  show Keeps s₀ _
  dsimp only
  exact keeps_ite h h.frame

theorem keeps_execRefresh {ch : Nat} {waiting : Bool} : KeepsOut s₀ (execRefresh ch waiting s) := by
  show Keeps s₀ _
  dsimp only
  exact keeps_ite h (keeps_ite h.frame (keeps_ite h (keeps_ite h.frame h.frame)))

theorem keeps_execEnergyWindowStart : KeepsOut s₀ (execEnergyWindowStart s) := by
  show Keeps s₀ _
  dsimp only
  exact keeps_ite h (keeps_placementDue (keeps_modHost h.frame))

theorem keeps_chargeEnergy {r e : Nat} : Keeps s₀ (chargeEnergy s r e) :=
  keeps_foldl h fun _ _ h => keeps_ite h (keeps_modRegion h)

theorem keeps_chargeModule {e : Nat} : Keeps s₀ (chargeModule s e) :=
  keeps_modHost h

theorem keeps_chargeBoth {r e : Nat} : Keeps s₀ (chargeBoth s r e) :=
  keeps_chargeEnergy (keeps_chargeModule h)

theorem keeps_chargeMoved : Keeps s₀ (chargeMoved s) :=
  keeps_foldl h fun _ _ h => keeps_chargeBoth h.frame

theorem keeps_execEnergyMeterRead {core energy : Nat} {lines : List (Nat × Nat × Nat)} :
    KeepsOut s₀ (execEnergyMeterRead core energy lines s) := by
  show Keeps s₀ _
  dsimp only
  exact keeps_ite h (keeps_chargeMoved (keeps_foldl (keeps_foldl (keeps_chargeModule h.frame) fun _ _ h => keeps_modGang
    (keeps_ite h (keeps_chargeEnergy h)) (by exact fun _ => id)) fun _ _ h => keeps_traffic h))

theorem keeps_capWrite {v : Nat} : Keeps s₀ (capWrite v s) :=
  keeps_modHost h

theorem keeps_execThermalCapUpdate {tjmax tin flow : Nat} : KeepsOut s₀ (execThermalCapUpdate tjmax tin flow s) := by
  show Keeps s₀ _
  dsimp only
  exact keeps_ite h (keeps_modHost h)

theorem keeps_discardRoot : Keeps s₀ (discardRoot s) := by
  unfold discardRoot
  split
  · exact keeps_discard h
  · exact h

theorem keeps_tripNow : Keeps s₀ (tripNow s) :=
  keeps_modHost (keeps_discardRoot h)

/-! ### Boot and the mailbox -/

theorem keeps_releaseReset {cold : Bool} : Keeps s₀ (releaseReset cold s) :=
  ⟨fun ok => memoryOk_releaseReset cold (h.memory ok), fun _ => List.forall_mem_nil _, fun _ => reset_invariants.2.2⟩

theorem keeps_bootImages : Keeps s₀ (bootImages s) := by
  unfold bootImages
  split <;> exact keeps_modHost h

theorem keeps_loadImages : Keeps s₀ (loadImages s) := by
  unfold loadImages
  dsimp only
  split
  · exact h
  · exact (keeps_modHost h).frame

theorem keeps_createRoot : Keeps s₀ (createRoot s) := by
  unfold createRoot
  dsimp only
  split
  · exact h
  · split
    · exact h
    · exact ((keeps_makeObject (keeps_zeroFrame ((keeps_takeHbm h).of_some ‹_›))).of_ok ‹_›).frame

theorem keeps_finishBoot : Keeps s₀ (finishBoot s) := by
  unfold finishBoot
  dsimp only
  exact keeps_modHost (keeps_createRoot h.frame)

theorem keeps_execClusterStart {cluster : Nat} : KeepsOut s₀ (execClusterStart cluster s) := by
  show Keeps s₀ _
  dsimp only
  split
  · exact keeps_ite (keeps_loadImages h) h
  · exact keeps_ite (keeps_ite (keeps_loadImages h) h) (keeps_ite (keeps_finishBoot ((keeps_ite
      (keeps_loadImages h) h).frame)) ((keeps_ite (keeps_loadImages h) h).frame))

theorem keeps_startRestart : Keeps s₀ (startRestart s) := by
  unfold startRestart
  dsimp only
  exact keeps_ite h (keeps_ite (keeps_modHost (keeps_discardRoot (keeps_modHost h))) (keeps_modHost (keeps_modHost h)))

theorem keeps_biasEnd : Keeps s₀ (biasEnd s) :=
  keeps_modHost h

theorem keeps_beginFlip : Keeps s₀ (beginFlip s) := by
  unfold beginFlip
  dsimp only
  exact keeps_ite h (keeps_ite (keeps_biasEnd h) (keeps_modHost h))

theorem keeps_execFirmwareRestartDone : KeepsOut s₀ (execFirmwareRestartDone s) := by
  show Keeps s₀ _
  dsimp only
  exact keeps_ite h (keeps_serveMig (keeps_beginFlip (keeps_modHost (keeps_foldl h fun _ _ h => keeps_writeCompletion h))))

theorem keeps_mailboxDone {result : Nat} : Keeps s₀ (mailboxDone s result) :=
  keeps_modHost h

theorem keeps_request {words : List Nat} : Keeps s₀ (request s words) :=
  keeps_ite h (keeps_modHost h)

theorem keeps_runDomain {m d : Nat} : Keeps s₀ (runDomain m d s) :=
  keeps_ite (keeps_mailboxDone h) (keeps_mailboxDone (keeps_modHost h))

theorem keeps_runCommit {image version : Nat} : Keeps s₀ (runCommit image version s) :=
  keeps_ite (keeps_mailboxDone h) (keeps_mailboxDone (keeps_modHost h))

theorem keeps_runMailbox : Keeps s₀ (runMailbox s) := by
  unfold runMailbox
  dsimp only
  refine keeps_ite h ?_
  split
  · exact keeps_runDomain h
  · exact keeps_ite (keeps_mailboxDone (keeps_startRestart h)) (keeps_mailboxDone h)
  · exact h
  · exact keeps_runCommit h
  · exact keeps_mailboxDone h

theorem keeps_execStage {image version : Nat} {sigOk : Bool} {digest : Nat} :
    KeepsOut s₀ (execStage image version sigOk digest s) := by
  show Keeps s₀ _
  dsimp only
  exact keeps_ite h (keeps_ite (keeps_mailboxDone (keeps_request h)) (keeps_mailboxDone (keeps_modHost (keeps_request h))))

theorem keeps_spdmAnswer {kind : Nat} {words : List Nat} : Keeps s₀ (spdmAnswer s kind words) :=
  keeps_ite h (keeps_modHost h)

/-! ### The host window -/

theorem keeps_setQueue {q : Nat} {x : Queue} : Keeps s₀ (setQueue s q x) :=
  keeps_modHost h

theorem keeps_doorbell {q size w : Nat} : Keeps s₀ (doorbell s q size w) := by
  unfold doorbell
  dsimp only
  exact keeps_ite h (keeps_ite (keeps_setQueue h) (keeps_ite h (keeps_ite (keeps_setQueue h) (keeps_setQueue h))))

theorem keeps_enableQueue {q : Nat} : Keeps s₀ (enableQueue s q) := by
  unfold enableQueue
  dsimp only
  exact keeps_ite h (keeps_setQueue h)

theorem keeps_disableQueue {q : Nat} : Keeps s₀ (disableQueue s q) := by
  unfold disableQueue
  dsimp only
  exact keeps_setQueue h

theorem keeps_writeParam {quantum : Bool} {v : Nat} : Keeps s₀ (writeParam s quantum v) := by
  unfold writeParam
  split
  · split
    · next inside =>
      refine ⟨h.memory, h.spads, fun ok => ?_⟩
      obtain ⟨low, high, -, -⟩ := h.params ok
      exact ⟨low, high, inside⟩
    · exact h
  · split
    · next inside =>
      refine ⟨h.memory, h.spads, fun ok => ?_⟩
      obtain ⟨-, -, quanta⟩ := h.params ok
      exact ⟨inside.1, inside.2, quanta⟩
    · exact h

theorem keeps_biasWrite {lo hi : Bool} {v : Nat} : Keeps s₀ (biasWrite s lo hi v) := by
  unfold biasWrite
  dsimp only
  exact keeps_ite h (keeps_ite (keeps_modHost h) (keeps_ite (keeps_modHost h) (keeps_ite (keeps_modHost (keeps_modHost h))
    (keeps_beginFlip (keeps_modHost (keeps_modHost h))))))

theorem keeps_lineSettled {f : Flip} {line : Nat} : Keeps s₀ (lineSettled s f line) := by
  unfold lineSettled
  dsimp only
  exact keeps_replayAll (keeps_ite (keeps_biasEnd (keeps_modHost h)) (keeps_modHost h))

theorem keeps_execBiasSnoopResponse {line : Nat} {modified : Bool} {data : List (BitVec 8)} :
    KeepsOut s₀ (execBiasSnoopResponse line modified data s) := by
  show Keeps s₀ _
  dsimp only
  split
  · exact h
  · refine keeps_ite h (keeps_lineSettled (keeps_ite ?_ (keeps_touchLine h)))
    exact h.withMem (fun ok => wf_setBytes _ _ ok) rfl rfl rfl

theorem keeps_execBiasSnoopTimeout {line : Nat} : KeepsOut s₀ (execBiasSnoopTimeout line s) := by
  show Keeps s₀ _
  dsimp only
  split
  · exact h
  · exact keeps_ite h (keeps_lineSettled (keeps_modHost h.frame))

theorem keeps_execBiasFlipHostDone : KeepsOut s₀ (execBiasFlipHostDone s) := by
  show Keeps s₀ _
  split
  · exact h
  · exact keeps_ite h (keeps_biasEnd (keeps_modHost h))

theorem keeps_hostWriteByte {pa : Nat} {x : BitVec 8} : Keeps s₀ (hostWriteByte s pa x) := by
  unfold hostWriteByte
  dsimp only
  refine keeps_ite h.frame ?_
  exact h.withMem (fun ok => wf_setByte _ _ ok) rfl rfl rfl

theorem keeps_execHostWindowAccess {write : Bool} {pa size val : Nat} :
    KeepsOut s₀ (execHostWindowAccess write pa size val s) := by
  show Keeps s₀ _
  refine keeps_ite h (keeps_ite (keeps_foldl h fun _ _ h => keeps_hostWriteByte h) (keeps_ite ?_ h))
  exact h.withMem (fun ok => wf_setBytes _ _ ok) rfl rfl rfl

theorem keeps_queueWrite {q i v : Nat} {lo hi : Bool} : Keeps s₀ (queueWrite s q i v lo hi) := by
  unfold queueWrite
  dsimp only
  split
  · exact keeps_ite (keeps_ite (keeps_setQueue h) h) (keeps_ite (keeps_enableQueue (keeps_ite (keeps_ite
      (keeps_setQueue h) h) (keeps_setQueue h))) (keeps_disableQueue (keeps_ite (keeps_ite (keeps_setQueue h) h)
      (keeps_setQueue h))))
  · exact keeps_ite h (keeps_setQueue h)
  · exact h

theorem keeps_writeOwners {q v : Nat} {lo hi : Bool} : Keeps s₀ (writeOwners s q v lo hi) := by
  unfold writeOwners
  dsimp only
  exact keeps_foldl h fun _ _ h => keeps_ite h (keeps_setQueue h)

theorem keeps_commandWrite {o v : Nat} {lo hi : Bool} : Keeps s₀ (commandWrite s o v lo hi) := by
  unfold commandWrite
  dsimp only
  exact keeps_ite (keeps_biasWrite h) (keeps_ite h.frame (keeps_ite h.frame (keeps_ite (keeps_ite (keeps_migCommand h) h)
    (keeps_ite (keeps_ite h (keeps_ite (keeps_runMailbox h.frame) h.frame)) h))))

theorem keeps_pfWrite {off v : Nat} {lo hi : Bool} : Keeps s₀ (pfWrite s off v lo hi) :=
  keeps_ite (keeps_writeParam h) (keeps_ite (keeps_writeParam h) (keeps_ite (keeps_ite (keeps_capWrite (keeps_modHost h)) h)
    (keeps_ite (keeps_commandWrite h) (keeps_ite (keeps_queueWrite h) (keeps_ite (keeps_writeOwners h) h)))))

theorem keeps_execRegisterWrite {fn off size val : Nat} : KeepsOut s₀ (execRegisterWrite fn off size val s) := by
  show Keeps s₀ _
  dsimp only
  refine keeps_ite h (keeps_ite (keeps_ite (keeps_doorbell h) (keeps_ite (keeps_pfWrite h) h)) (keeps_ite ?_ (keeps_ite h ?_)))
  · split
    · exact keeps_doorbell h
    · exact h
  · split
    · exact keeps_queueWrite h
    · exact h

/-! ### Packets -/

theorem keeps_resolveAll {rg : Nat} {root : DWord} {vas : List Nat} : Keeps s₀ (resolveAll s rg root vas) :=
  keeps_askedBy (keeps_foldl h fun _ _ h => keeps_replayAll (keeps_resolution (keeps_resolvePage h)))

theorem keeps_acceptPacket {q : Nat} {kind : List (BitVec 8) → Bool} {f : State → Nat → Packet → List (BitVec 8) → Started}
    (part : ∀ t pk p bs, Keeps s₀ t → KeepsStarted s₀ (f t pk p bs)) : Keeps s₀ (acceptPacket s q kind f) := by
  have taken {n x y g} {p : Prop} [Decidable p] :=
    have t := keeps_modHost (f := g) (keeps_setQueue (q := x) (x := y) (h.of_eq (t := { s with serial := n }) rfl rfl rfl rfl))
    keeps_ite (p := p) (keeps_discardHostLines t) t
  fun_cases acceptPacket s q kind f with
  | case1 | case2 => exact h
  | case3 bs next ok x w rg pk p s1 s2 s3 t runs => exact (part s3 pk p bs taken).of_runs runs
  | case4 bs next ok x w rg pk p s1 s2 s3 t st ends => exact keeps_completePacket ((part s3 pk p bs taken).of_ends ends)
  | case5 => exact keeps_resolveAll h

theorem keeps_modPacket {pk : Nat} {f : Packet → Packet} : Keeps s₀ (modPacket s pk f) :=
  keeps_modHost h

theorem keeps_execLaunch {q : Nat} : KeepsOut s₀ (execLaunch q s) := by
  show Keeps s₀ _
  dsimp only
  refine keeps_acceptPacket h fun _ _ _ _ h => ?_
  split
  · exact h
  · split
    · exact (keeps_launchRange (keeps_modPacket h)).of_ok ‹_›
    · exact (keeps_launchRange (keeps_modPacket h)).of_refused ‹_›
    · exact trivial

theorem keeps_packetWrite {rg : Nat} {p : Place} {bs : List (BitVec 8)} : Keeps s₀ (packetWrite s rg p bs) :=
  keeps_setLocs (keeps_useLeaves (keeps_prepareList h))

theorem keeps_execSignal {q : Nat} : KeepsOut s₀ (execSignal q s) := by
  -- Made a variable, since the check of the branches would evaluate the function.
  obtain ⟨reach, same⟩ : ∃ f, f = packetReach := ⟨_, rfl⟩
  unfold execSignal
  show Keeps s₀ _
  rw [← same]
  refine keeps_acceptPacket h fun _ _ _ _ h => ?_
  dsimp only
  split
  · exact keeps_hostWrite (keeps_writeBackAll h)
  · split
    · exact keeps_settleWalk (keeps_writeBackAll h)
    · trivial
    · exact keeps_packetWrite (keeps_writeBackAll h)

theorem keeps_execWaitsig {q : Nat} : KeepsOut s₀ (execWaitsig q s) := by
  show Keeps s₀ _
  refine keeps_acceptPacket h fun _ _ _ _ h => ?_
  split
  · exact keeps_settleWalk h
  · exact keeps_modPacket h

theorem keeps_execWaitsigSatisfied {pkt : Nat} : KeepsOut s₀ (execWaitsigSatisfied pkt s) := by
  -- Made a variable, since the check of the branches would evaluate the function.
  obtain ⟨reach, same⟩ : ∃ f, f = packetReach := ⟨_, rfl⟩
  unfold execWaitsigSatisfied
  show Keeps s₀ _
  rw [← same]
  dsimp only
  split
  · exact h
  · refine keeps_ite h ?_
    split
    · exact keeps_completePacket (keeps_settleWalk h)
    · exact h
    · exact keeps_ite (keeps_completePacket (keeps_useLeaves (keeps_prepareList h))) (keeps_prepareList h)

theorem keeps_execPacketCopyDone {pkt : Nat} : KeepsOut s₀ (execPacketCopyDone pkt s) := by
  rw [execPacketCopyDone]
  show Keeps s₀ _
  split
  · exact h
  · refine keeps_ite h ?_
    split
    · exact keeps_completePacket (keeps_settleWalk h)
    · exact keeps_completePacket (keeps_settleWalk h)
    · exact keeps_ite (keeps_completePacket (keeps_placeTraffic (keeps_setLocs (keeps_useLeaves (keeps_useLeaves
        (keeps_prepareList h)))))) (keeps_modPacket (keeps_placeTraffic (keeps_setLocs (keeps_useLeaves (keeps_useLeaves
        (keeps_prepareList h))))))
    · exact h

theorem keeps_execRegionCreate {q : Nat} : KeepsOut s₀ (execRegionCreate q s) := by
  show Keeps s₀ _
  dsimp only
  refine keeps_acceptPacket h fun _ _ _ _ h => ?_
  split
  · exact h
  · split
    · exact h
    · exact keeps_hostWrite ((keeps_createRegion h).of_ok ‹_›)

theorem keeps_execRegionSet {q : Nat} : KeepsOut s₀ (execRegionSet q s) := by
  show Keeps s₀ _
  dsimp only
  refine keeps_acceptPacket h fun _ _ _ _ h => ?_
  split
  · exact h
  · split
    · exact h
    · exact (keeps_setRegion h).of_ok ‹_›

theorem keeps_execRegionDiscard {q : Nat} : KeepsOut s₀ (execRegionDiscard q s) := by
  show Keeps s₀ _
  refine keeps_acceptPacket h fun _ _ _ _ h => ?_
  split
  · exact h
  · split
    · exact keeps_discard h
    · exact h

theorem keeps_execCkpt {q : Nat} : KeepsOut s₀ (execCkpt q s) := by
  show Keeps s₀ _
  dsimp only
  refine keeps_acceptPacket h fun _ _ _ _ h => ?_
  split
  · exact h
  · split
    · exact keeps_modPacket h
    · split
      · exact keeps_modPacket h
      · split
        · exact keeps_modPacket h
        · exact keeps_runCkptPacket (keeps_modPacket h)

theorem keeps_execRestore {q : Nat} : KeepsOut s₀ (execRestore q s) := by
  show Keeps s₀ _
  dsimp only
  refine keeps_acceptPacket h fun _ _ _ _ h => ?_
  split
  · exact h
  · split
    · exact h
    · split
      · exact h
      · split
        · exact h
        · exact keeps_modPacket h

theorem keeps_restorePage {root : DWord} {rg va : Nat} {bs : List (BitVec 8)} : KeepsExc s₀ (restorePage s root rg va bs) := by
  unfold restorePage
  dsimp only
  split
  · split
    · exact trivial
    · split
      · exact keeps_settleFrame h
      · refine keeps_pageTraffic (keeps_markDirty ?_)
        exact (keeps_zeroFrame (keeps_settleFrame h)).withMem (fun ok => wf_setBytes _ _ ok) rfl rfl rfl
  · split
    · exact trivial
    · split
      · exact trivial
      · split
        · exact trivial
        · split
          · exact keeps_markDirty ((keeps_mapPage (keeps_pageTraffic (keeps_charge (keeps_writeFrame ((keeps_takeHbm
              ((keeps_makeRoom h).of_some ‹_›)).of_some ‹_›))))).of_some ‹_›)
          · exact (keeps_mapPage (keeps_pageTraffic (keeps_charge (keeps_writeFrame ((keeps_takeHbm
              ((keeps_makeRoom h).of_some ‹_›)).of_some ‹_›))))).of_some ‹_›

theorem keeps_restoreImage {root : DWord} {rg : Nat} {hd : ImageHead} : KeepsExc s₀ (restoreImage s root rg hd) :=
  List.foldlRecOn (motive := KeepsExc s₀) _ _ h fun _ h _ _ => h.bind fun _ h => keeps_restorePage h

theorem keeps_execRestoreDone {pkt : Nat} : KeepsOut s₀ (execRestoreDone pkt s) := by
  show Keeps s₀ _
  split
  · exact h
  · next p _ =>
    have restored : KeepsExc s₀ ((imageHeads s p).foldl (fun s hd => s.bind fun s =>
        restoreImage s (effPtroot s p.obj) p.obj hd) (.ok s)) :=
      List.foldlRecOn (motive := KeepsExc s₀) _ _ h fun _ h _ _ => h.bind fun _ h => keeps_restoreImage h
    refine keeps_ite h ?_
    split
    · exact keeps_completePacket h
    · exact keeps_completePacket (keeps_askedBy (restored.of_ok ‹_›))

end

end Sys2Proof.Machine

/-! SUPPORT. What one instruction or event does, and what one step does, keeps what every step keeps (spec/11; spec/13; spec/01
R15, R16; spec/03 R37, R43, R52, R55). -/

namespace Sys2Proof.Machine

open Sys2Proof

section
variable {s₀ s : State} (h : Keeps s₀ s)
include h

/-! ### Instructions and events -/

theorem keeps_execBarinit {a b : BitVec 7} : KeepsOut s₀ (execBarinit a b s) :=
  keeps_issue h fun _ _ h => keeps_barrierOp h fun _ => keeps_writeBarrier h

theorem keeps_execBararrive {d a b : BitVec 7} : KeepsOut s₀ (execBararrive d a b s) :=
  keeps_issue h fun _ _ h => keeps_barrierOp h fun _ => keeps_modWave (keeps_writeBarrier h)

theorem keeps_execBarexpect {d a b : BitVec 7} : KeepsOut s₀ (execBarexpect d a b s) :=
  keeps_issue h fun _ _ h => keeps_barrierOp h fun _ => keeps_modWave (keeps_writeBarrier h)

theorem keeps_execBarquery {d a : BitVec 7} : KeepsOut s₀ (execBarquery d a s) :=
  keeps_issue h fun _ _ h => keeps_barrierOp h fun _ => keeps_finishInt h

theorem keeps_execWaitInline {d a : BitVec 7} {tmo : BitVec 6} : KeepsOut s₀ (execWaitInline d a tmo s) := by
  show Keeps s₀ _
  refine keeps_issue h fun _ _ h => ?_
  split
  · exact keeps_waitWrite h
  · exact keeps_waitOn h

theorem keeps_execEngineChunkLand {gang ctx num chunk : Nat} : KeepsOut s₀ (execEngineChunkLand gang ctx num chunk s) := by
  show Keeps s₀ _
  dsimp only
  split
  · exact h
  · exact keeps_ite h (keeps_ite (keeps_completeOp h) (keeps_ite h (keeps_ite (keeps_landChunk h) (keeps_ite
      (keeps_chunkLanded h) h))))

theorem keeps_execMatrixRowDone {gang ctx : Nat} : KeepsOut s₀ (execMatrixRowDone gang ctx s) := by
  show Keeps s₀ _
  split
  · exact h
  · exact keeps_ite h (keeps_runRow h)

theorem keeps_execMprogArrive {gang ctx : Nat} : KeepsOut s₀ (execMprogArrive gang ctx s) := by
  show Keeps s₀ _
  dsimp only
  split
  · exact h
  · refine keeps_ite h (keeps_completeOp ?_)
    split
    · exact keeps_updateBarrier h
    · exact h

theorem keeps_execEngineFault {gang ctx num : Nat} : KeepsOut s₀ (execEngineFault gang ctx num s) := by
  show Keeps s₀ _
  dsimp only
  split
  · exact h
  · refine keeps_ite h ?_
    split
    · exact h
    · split
      · exact keeps_discardOf (keeps_modCtx (keeps_settleRead h))
      · exact keeps_addPending (keeps_modCtx (keeps_settleRead h))

theorem keeps_execWaitWake {w grp : Nat} : KeepsOut s₀ (execWaitWake w grp s) := by
  show Keeps s₀ _
  dsimp only
  split
  · exact h
  · split
    · exact h
    · refine keeps_ite h ?_
      split
      · exact keeps_wakeGroup (keeps_settleWait h)
      · exact keeps_settleWait h

theorem keeps_execWaitTimeout {w grp : Nat} : KeepsOut s₀ (execWaitTimeout w grp s) := by
  show Keeps s₀ _
  split
  · exact h
  · split
    · exact h
    · refine keeps_ite h ?_
      split
      · exact keeps_ite (keeps_wakeGroup h) h
      · exact h

theorem keeps_execFlushDone {job : Nat} : KeepsOut s₀ (execFlushDone job s) := by
  show Keeps s₀ _
  dsimp only
  split
  · exact h
  · exact keeps_settleDue ((keeps_ite ((keeps_foldl h fun _ _ h => keeps_writeBack h).frame)
      (keeps_foldl h fun _ _ h => keeps_writeBack h)).frame)

/-- Every instruction and every event answers a state, and keeps what every step keeps. -/
theorem keeps_exec {i : Instr} : KeepsOut s₀ (exec i s) := by
  cases i with
  | vaddI32 | vsubI32 | vmulloI32 | vmulhiI32 | vmulhiN32 | vminI32 | vminN32 | vmaxI32 | vmaxN32 | vabsdI32 | vabsdN32
  | vaddsI32 | vsubsI32 | vaddsN32 | vsubsN32 | vand | vor | vxor | vandn | vshl | vshrN32 | vshrI32 | vrotl | vbfeN32
  | vbfeI32 => exact keeps_intBin h
  | vmadI32 | vbfi => exact keeps_intTern h
  | vpopc | vclz | vbrev | vmov => exact keeps_intUn h
  | vsel | vfsgnF32 | vmxs | vredsumI32 | vscanI32 | smovi | vbcast | vrdlane | vwrlane | vlpc | p2s | s2p | pcount | twr
  | trd | tlread | clock => exact keeps_issue h fun _ _ h => keeps_finishInt h
  | vfaddF32 | vfsubF32 | vfmulF32 | vdivF32 => exact keeps_f32Bin h
  | vfmaF32 | vfscaleF32 | vsrnd | vfrint | vfmed3 => exact keeps_issue h fun _ _ h => keeps_finish32 h
  | vfminF32 | vfmaxF32 => exact keeps_f32MinMax h
  | vhaddF16x2 | vhmulF16x2 | vhfmaF16x2 | vhaddBf16x2 | vhmulBf16x2 | vhfmaBf16x2 => exact keeps_packed h
  | vhminF16x2 | vhmaxF16x2 => exact keeps_packedMinMax h
  | vdaddF64 | vdsubF64 | vdmulF64 | vdfmaF64 | vdsqrtF64 | vddivF64 => exact keeps_f64Bin h
  | vdminF64 | vdmaxF64 => exact keeps_f64MinMax h
  | vrcpF32 | vrsqF32 | vsqrtF32 | vexp2F32 | vlog2F32 | vsinpiF32 | vcospiF32 => exact keeps_f32Un h
  | vcmpEqI32 | vcmpLtI32 | vcmpLtN32 | vcmpLeI32 => exact keeps_cmpInt h
  | vcmpEqF32 | vcmpLtF32 | vcmpLeF32 | vcmpUnF32 => exact keeps_cmpF32 h
  | vcvtn | vcvtw | vcvti2f | vcvtf2i | vcvtd2f => exact keeps_issue h fun _ _ h => keeps_finishCvt h
  | vcvtf2d => exact keeps_issue h fun _ _ h => keeps_finish64 h
  | vaddi | vmuli | vandi | vori | vxori => exact keeps_intImm h
  | vshli | vshriN32 | vshriI32 => exact keeps_intShiftImm h
  | vshf | vshfx | vshfup | vshfdn => exact keeps_shuffle h
  | vredmaxF32 | vredsumF32 => exact keeps_issue h fun _ _ h => keeps_finishFp h
  | vdot4I8 | vdot4N8 | vdot4In8 | vdot8I4 | vdot8N4 => exact keeps_intDot h
  | vdot2Bf16 | vdot4E4m3 | vdot8E2m1 => exact keeps_floatDot h
  | sadd | ssub | smullo | smulhiI32 | smulhiN32 | sdivI32 | sdivN32 | sremI32 | sremN32 | sminI32 | sminN32 | smaxI32
  | smaxN32 | sand | sor | sxor | sshl | sshrN32 | sshrI32 | scmpEq | scmpLtI32 | scmpLtN32 => exact keeps_scalar32 h
  | saddI64 | ssubI64 | smulI64 => exact keeps_scalar64 h
  | sshlB64 | sshrN64 => exact keeps_scalarShift64 h
  | sfaddF32 | sfmulF32 | sfmaF32 | scvtf2i | scvti2f => exact keeps_issue h fun _ _ h => keeps_finishScalarFp h
  | saddi | sandi | sori | sxori | slui => exact keeps_scalarImmOp h
  | sshli | sshri => exact keeps_scalarShiftImm h
  | srsr => exact keeps_issue h fun _ _ h => keepsRes_ite trivial (keeps_finishInt h)
  | swsr => exact keeps_issue h fun _ _ h => keepsRes_ite trivial (keeps_srWrite h)
  | pand | por | pxor | pnot => exact keeps_predOp h
  | ptag => exact keeps_issue h fun _ _ h => keepsRes_ite h (keeps_finishInt h)
  | br | brp | brnp | brz | brnz => exact keeps_branch h
  | call => exact keeps_issue h fun _ _ h => keeps_modWave h
  | jmpi | jmpv | ret => exact keeps_issue h fun _ _ h => keeps_jumpTo h
  | exit => exact keeps_issue h fun _ _ h => keepsRes_ite trivial (keeps_modWave h)
  | nop | yield | sprefetch | illegalEncoding => exact keeps_issue h fun _ _ h => h
  | trap => exact keeps_issue h fun _ _ h => keepsRes_ite trivial (keeps_takeTrap (keeps_settleIssue h))
  | brk => exact keeps_issue h fun _ _ h => keepsRes_ite trivial (keeps_takeTrap (keeps_retired h))
  | ereturn => exact keeps_execEreturn h
  | ldN8 | ldI8 | ldN16 | ldI16 | ldB32 | ldB64 | ldB128 | stB8 | stB16 | stB32 | stB64 | stB128 | aaddI32 | aaddI64
  | aaddF32 | aminI32 | amaxI32 | aminN32 | amaxN32 | aminF32 | amaxF32 | aand | aor | axor | axchgB32 | axchgB64 | acasB32
  | acasB64 | vpoolB32 | vpoolB64 | aappB32 | aappB128 | aappl => exact keeps_memVector h
  | sldB32 | sldB64 | sstB32 | sstB64 | saaddB64 | scasB64 | slduB32 => exact keeps_memScalar h
  | ccopy | cblock | cfill | cgather | cprefetch | cpromote => exact keeps_copySubmit h
  | mloop | mloopG | mloopCx | mdrain | mdrainMx | mzero | mload | mprog => exact keeps_matrixSubmit h
  | barinit => exact keeps_execBarinit h
  | bararrive => exact keeps_execBararrive h
  | barexpect => exact keeps_execBarexpect h
  | barquery => exact keeps_execBarquery h
  | wait => exact keeps_issue h fun _ _ h => keeps_waitOn h
  | waitInline => exact keeps_execWaitInline h
  | settle => exact keeps_issue h fun _ _ h => keepsRes_ite h trivial
  | fenceSys => exact keeps_issue h fun _ _ h => keeps_writeBackAll h
  | flush | inval => exact keeps_flushOp h
  | wspawn => exact keeps_execWspawn h
  | wexit => exact keeps_execWexit h
  | rspawn => exact keeps_execRspawn h
  | odup => exact keeps_execOdup h
  | oclose => exact keeps_execOclose h
  | oinfo => exact keeps_execOinfo h
  | wsnew | tnew => exact keeps_makeSimple h fun _ _ h => h.frame
  | wsadd => exact keeps_execWsadd h
  | wsdel => exact keeps_execWsdel h
  | tarm => exact keeps_execTarm h
  | tcancel => exact keeps_execTcancel h
  | pnew => exact keeps_execPnew h
  | psend | pgrant => exact keeps_sendInstr h
  | precv => exact keeps_execPrecv h
  | pslot => exact keeps_execPslot h
  | pname => exact keeps_execPname h
  | preg => exact keeps_execPreg h
  | anew => exact keeps_execAnew h
  | aseal => exact keeps_execAseal h
  | afree => exact keeps_execAfree h
  | atail => exact keeps_execAtail h
  | rgnew => exact keeps_execRgnew h
  | rgset => exact keeps_execRgset h
  | wread => exact keeps_execWread h
  | wwrite => exact keeps_execWwrite h
  | wresume => exact keeps_execWresume h
  | gsaved => exact keeps_execGsaved h
  | rdlog => exact keeps_execRdlog h
  | csaveq => exact keeps_execCsaveq h
  | creplay => exact keeps_execCreplay h
  | tlbinv => exact keeps_execTlbinv h
  | ckmark => exact keeps_execCkmark h
  | vffloor | vfceil | vftrunc | vfclass | vfexp | vfmant => exact keeps_f32Plain h
  | ximm | xop | hint | guard => exact keeps_prefixWord h
  | trapEntry => exact keeps_execTrapEntry h
  | deferredPreciseTrap => exact keeps_execDeferredPreciseTrap h
  | pageFill => exact keeps_execPageFill h
  | migrationDone => exact keeps_execMigrationDone h
  | engineChunkLand => exact keeps_execEngineChunkLand h
  | matrixRowDone => exact keeps_execMatrixRowDone h
  | mprogArrive => exact keeps_execMprogArrive h
  | engineFault => exact keeps_execEngineFault h
  | waitWake => exact keeps_execWaitWake h
  | waitTimeout => exact keeps_execWaitTimeout h
  | timerExpire | unsupportedRequest => exact h
  | placement => exact keeps_execPlacement h
  | cohortStart => exact keeps_execCohortStart h
  | unitAged => exact keeps_execUnitAged h
  | quantumExpiry => exact keeps_execQuantumExpiry h
  | saveDrainOverrun => exact keeps_execSaveDrainOverrun h
  | deadlockDetect => exact keeps_execDeadlockDetect h
  | progressStall => exact keeps_execProgressStall h
  | memerr => exact keeps_ite (keeps_discardOf h) h
  | discardRelease => exact keeps_execDiscardRelease h
  | commitTailAdvance => exact keeps_execCommitTailAdvance h
  | asealDone => exact keeps_execAsealDone h
  | afreeDone => exact keeps_execAfreeDone h
  | replicaCreate => exact keeps_execReplicaCreate h
  | remoteSendRequest | grantReservation => exact keeps_arrives h fun _ h => keeps_takeRequest h
  | sendReply => exact keeps_execSendReply h
  | grantPointReply => exact keeps_execGrantPointReply h
  | grantPageCopy => exact keeps_execGrantPageCopy h
  | grantAck => exact keeps_execGrantAck h
  | peerDead => exact keeps_ite (keeps_endOwnBindings (keeps_modHost h)) (keeps_ite (keeps_declareDead h) h)
  | flitReceive => exact keeps_execFlitReceive h
  | nakReceive => exact keeps_modLink h
  | linkRetrainDone => exact keeps_execLinkRetrainDone h
  | checkpointPageCopy => exact keeps_execCheckpointPageCopy h
  | checkpointImageDone => exact keeps_execCheckpointImageDone h
  | refreshInterval => exact keeps_execRefreshInterval h
  | refresh => exact keeps_execRefresh h
  | flushDone => exact keeps_execFlushDone h
  | energyWindowStart => exact keeps_execEnergyWindowStart h
  | energyMeterRead => exact keeps_execEnergyMeterRead h
  | thermalCapUpdate => exact keeps_execThermalCapUpdate h
  | thermalTrip | coolantTimeout => exact keeps_ite (keeps_tripNow h) h
  | diePowerOff => exact keeps_ite (keeps_modHost h.frame) h
  | coldReset => exact keeps_bootImages (keeps_releaseReset h)
  | warmBoot => exact keeps_ite h (keeps_bootImages (keeps_releaseReset h))
  | clusterStart => exact keeps_execClusterStart h
  | jasperHeartbeatTimeout | jasperException => exact keeps_startRestart h
  | firmwareRestartDone => exact keeps_execFirmwareRestartDone h
  | doorbellWrite => exact keeps_doorbell h
  | queueEnable => exact keeps_ite (keeps_enableQueue h) h
  | queueDisable => exact keeps_ite (keeps_disableQueue h) h
  | schedParamWrite => exact keeps_ite (keeps_writeParam h) h
  | capWrite => exact keeps_ite (keeps_capWrite h) h
  | registerWrite => exact keeps_execRegisterWrite h
  | pktNop | badpkt => exact keeps_acceptPacket h fun _ _ _ _ h => h
  | launch => exact keeps_execLaunch h
  | signal => exact keeps_execSignal h
  | waitsig => exact keeps_execWaitsig h
  | waitsigSatisfied => exact keeps_execWaitsigSatisfied h
  | copy => exact keeps_acceptPacket h fun _ _ _ _ h => keeps_modPacket h
  | packetCopyDone => exact keeps_execPacketCopyDone h
  | regionCreate => exact keeps_execRegionCreate h
  | regionSet => exact keeps_execRegionSet h
  | regionDiscard => exact keeps_execRegionDiscard h
  | ckpt => exact keeps_execCkpt h
  | restore => exact keeps_execRestore h
  | biasFlipDevice | biasFlipHost => exact keeps_ite (keeps_biasWrite h) h
  | biasSnoopResponse => exact keeps_execBiasSnoopResponse h
  | biasSnoopTimeout => exact keeps_execBiasSnoopTimeout h
  | biasFlipHostDone => exact keeps_execBiasFlipHostDone h
  | migToHost | migToDevice | migPinRelease => exact keeps_ite (keeps_migCommand h) h
  | domain | restart | commit => exact keeps_runMailbox (keeps_request h)
  | stage => exact keeps_execStage h
  | getVersion | getCapabilities | negotiateAlgorithms | getDigests | getCertificate | challenge | getMeasurements =>
    exact keeps_spdmAnswer h
  | hostWindowAccess => exact keeps_execHostWindowAccess h
  | restoreDone => exact keeps_execRestoreDone h
  | unknownMailboxCommand => exact keeps_ite h (keeps_runMailbox (keeps_request h))

theorem keeps_runWord {x : Word} : KeepsOut s₀ (runWord x s) :=
  keeps_exec h

theorem keeps_runDue {e : Due} : KeepsOut s₀ (runDue e s) :=
  keeps_exec h

/-! ### Time -/

theorem keeps_takeRuns {n : Nat} : Keeps s₀ (takeRuns s n) :=
  keeps_foldl h fun _ _ h => keeps_ite h (keeps_foldl h.frame fun _ _ h => keeps_modWave h)

theorem keeps_setRuns : Keeps s₀ (setRuns s) :=
  h.frame

theorem keeps_elapse {dt : Nat} : Keeps s₀ (elapse s dt) := by
  have timed : Keeps s₀ { s with time := s.time + dt, agenda := nearer dt s.agenda } := h.frame
  have run := keeps_ite (p := fabricCycle s.time < fabricCycle (s.time + dt)) (keeps_setRuns timed) timed
  have worked {n : Nat} (k : Nat) (g : Gang) (ok : Memory.wf g.spad = true) : Memory.wf (if gangResident s g &&
      g.ctxs.any (fun c => !c.ops.isEmpty && !c.stopped && !c.halted) then { g with work := g.work + n } else g).spad = true := by
    split <;> exact ok
  exact keeps_ite run (keeps_takeRuns ((keeps_mapGangs run worked).of_eq (by rfl) (by rfl) (by rfl) (by rfl)))

/-! ### Fetch and issue -/

theorem keeps_fetchTrap {wid cause : Nat} {w : Wave} {pc x : DWord} : KeepsFetch s₀ (fetchTrap s wid w pc x cause) := by
  unfold fetchTrap
  split
  · trivial
  · exact keeps_takeTrap h

theorem keeps_noteFetch {gang va pa : Nat} {x : Word} : Keeps s₀ (noteFetch s gang va pa x) :=
  h.frame

theorem keeps_fetchWord {wid : Nat} {w : Wave} : KeepsFetch s₀ (fetchWord s wid w) := by
  fun_cases fetchWord s wid w with
  | case1 | case5 => trivial
  | case2 => exact keeps_fetchTrap h
  | case3 => exact keeps_noteFetch (keeps_fillTlb h)
  | case4 => exact keeps_fetchTrap (keeps_settleWalk h)

theorem keeps_issueWave {wid : Nat} : KeepsOut s₀ (issueWave s wid) := by
  unfold issueWave
  split
  · exact h
  · split
    · exact keeps_runWord ((keeps_fetchWord h).of_word ‹_›).frame
    · exact (keeps_fetchWord h).of_trap ‹_›
    · exact h.frame

theorem keeps_settleWants {w : Wave} {vas : List Nat} : Keeps s₀ (settleWants s w vas) :=
  keeps_ite h (keeps_foldl h fun _ _ h => keeps_settleWalk h)

theorem keeps_markIssued {u : State} {wid : Nat} : Keeps s₀ (markIssued u s wid) := by
  unfold markIssued
  split
  · exact h.frame
  · exact h

/-- What happens at the turn of a wave, where something does. -/
theorem keeps_waveTurn {wid : Nat} {o : Host.Outcome State Fault Refusal} (turn : waveTurn s wid = some o) : KeepsOut s₀ o := by
  unfold waveTurn at turn
  split at turn
  · next issued =>
    split at turn
    · cases turn
      exact keeps_markIssued ((keeps_issueWave h).of_next issued)
    · obtain ⟨w, -, turn⟩ := Option.bind_eq_some_iff.mp turn
      dsimp only at turn
      split at turn
      · cases turn
        exact keeps_settleWants h
      · obtain ⟨e, -, rfl⟩ := Option.map_eq_some_iff.mp turn
        exact keeps_runDue h
  · cases turn
    exact keeps_issueWave h

theorem keeps_issueFirst {kept ws : List Nat} {o : Host.Outcome State Fault Refusal} (turn : issueFirst s kept ws = some o) :
    KeepsOut s₀ o := by
  induction ws generalizing kept with
  | nil => cases turn
  | cons w ws ih =>
    rw [issueFirst] at turn
    split at turn
    · exact ih turn
    · split at turn
      · exact ih turn
      · split at turn
        · next taken =>
          cases turn
          exact keeps_waveTurn h taken
        · exact ih turn

theorem keeps_endCycle : Keeps s₀ (endCycle s) :=
  keeps_elapse h.frame

theorem keeps_runTurn {t : Turn} : KeepsOut s₀ (runTurn t s) := by
  unfold runTurn
  cases t with
  | wake e =>
    dsimp only
    have due := keeps_runDue (e := e) h
    generalize runDue e s = o at due ⊢
    cases o with
    | next t => exact Keeps.frame due
    | fault f => exact due
    | refused r => exact due
  | issue wid =>
    dsimp only
    have issued := keeps_issueWave (wid := wid) h
    generalize issueWave s wid = o at issued ⊢
    cases o with
    | next t => exact (keeps_markIssued issued).frame
    | fault f => exact issued
    | refused r => exact issued

/-! ### A step -/

omit h in
theorem keeps_closeStep {o : Host.Outcome State Fault Refusal} (h : KeepsOut s₀ o) : KeepsOut s₀ (closeStep o) := by
  cases o with
  | next t =>
    have h : Keeps s₀ t := h
    unfold closeStep
    dsimp only
    split
    · split
      · exact keeps_noteMembers (keeps_evictLines (keeps_modGang h (by exact fun _ => id))).frame
      · exact keeps_noteMembers (keeps_evictLines h).frame
    · exact keeps_noteMembers (keeps_evictLines h).frame
  | fault f => exact h
  | refused r => exact h

theorem keeps_stepLast : KeepsOut s₀ (stepLast s) := by
  unfold stepLast
  split
  · exact keeps_closeStep (keeps_runTurn h)
  · exact keeps_closeStep (o := .next _) (keeps_endCycle h)

theorem keeps_stepAlone : KeepsOut s₀ (stepAlone s) := by
  unfold stepAlone
  split
  · exact keeps_stepLast h
  · split
    · exact keeps_closeStep (keeps_runDue h)
    · split
      · exact keeps_closeStep (keeps_issueFirst h ‹_›)
      · exact keeps_stepLast h

theorem keeps_step : KeepsOut s₀ (step s) := by
  unfold step
  split
  · exact keeps_closeStep (keeps_exec h.frame)
  · exact keeps_stepAlone h

end

/-- Settles O57: every operation keeps the three, from the accesses to memory up to the step. -/
theorem stepKeepsTheInvariants : Obligations.StepKeepsTheInvariants := by
  intro s t stepped
  obtain ⟨memory, spads, params⟩ := (keeps_step (Keeps.refl s)).of_next stepped
  exact ⟨memory, spads, params⟩

end Sys2Proof.Machine

/-! SUPPORT. Refresh, the energy accounts and heat (spec/15 R283; spec/21 R365 to R367; spec/25 R406 to R408), and O51. -/

namespace Sys2Proof.Machine

open Sys2Proof

/-! ### Refresh (R283) -/

section
variable (s : State) (ch : Nat) (waiting : Bool)

/-- A channel's debt rises at the end of an interval that it has not counted, while it is below 8. -/
theorem refreshInterval_rises (hc : ch < 384) (room : (fgetD s.channels ch (0, 0, 0)).2.2 < 8)
    (new : fgetD s.intervals ch 0 < refreshIntervals s) :
    exec (.refreshInterval ch) s = .next { s with
      channels := fset s.channels ch ((fgetD s.channels ch (0, 0, 0)).1, (fgetD s.channels ch (0, 0, 0)).2.1,
        (fgetD s.channels ch (0, 0, 0)).2.2 + 1)
      intervals := fset s.intervals ch (fgetD s.intervals ch 0 + 1) } :=
  congrArg _ (if_neg (not_or.mpr ⟨not_le.mpr hc, not_or.mpr ⟨not_le.mpr room, not_le.mpr new⟩⟩))

theorem refreshInterval_counted (old : refreshIntervals s ≤ fgetD s.intervals ch 0) :
    exec (.refreshInterval ch) s = .next s :=
  congrArg _ (if_pos (.inr (.inr old)))

theorem refresh_forced (hc : ch < 384) (full : 8 ≤ (fgetD s.channels ch (0, 0, 0)).2.2) :
    exec (.refresh ch waiting) s = .next { s with channels := fset s.channels ch ((fgetD s.channels ch (0, 0, 0)).1,
      ((fgetD s.channels ch (0, 0, 0)).2.1 + 1) % 2 ^ 64, (fgetD s.channels ch (0, 0, 0)).2.2 - 1) } :=
  congrArg _ ((if_neg (not_le.mpr hc)).trans (if_pos full))

/-- Below 8 a refresh waits while requests do, and from −8 down. -/
theorem refresh_postponed (room : (fgetD s.channels ch (0, 0, 0)).2.2 < 8)
    (waits : waiting = true ∨ (fgetD s.channels ch (0, 0, 0)).2.2 ≤ -8) : exec (.refresh ch waiting) s = .next s := by
  have kept : ¬ 8 ≤ (fgetD s.channels ch (0, 0, 0)).2.2 := not_le.mpr room
  refine congrArg Host.Outcome.next ?_
  dsimp only
  rw [if_neg kept, if_pos waits, ite_self]

/-- An owed interval is served, while no request waits. -/
theorem refresh_owed (hc : ch < 384) (owed : 0 < (fgetD s.channels ch (0, 0, 0)).2.2)
    (room : (fgetD s.channels ch (0, 0, 0)).2.2 < 8) :
    exec (.refresh ch false) s = .next { s with channels := fset s.channels ch ((fgetD s.channels ch (0, 0, 0)).1,
      (fgetD s.channels ch (0, 0, 0)).2.1, (fgetD s.channels ch (0, 0, 0)).2.2 - 1) } := by
  have idle : ¬ (false = true ∨ (fgetD s.channels ch (0, 0, 0)).2.2 ≤ -8) := by
    simp only [Bool.false_eq_true, false_or]
    omega
  exact congrArg _ ((if_neg (not_le.mpr hc)).trans ((if_neg (not_le.mpr room)).trans ((if_neg idle).trans
    (if_neg (not_le.mpr owed)))))

/-- With none owed a refresh is pulled in. -/
theorem refresh_pulled (hc : ch < 384) (low : -8 < (fgetD s.channels ch (0, 0, 0)).2.2)
    (none : (fgetD s.channels ch (0, 0, 0)).2.2 ≤ 0) :
    exec (.refresh ch false) s = .next { s with channels := fset s.channels ch (((fgetD s.channels ch (0, 0, 0)).1 + 1) % 2 ^ 64,
      (fgetD s.channels ch (0, 0, 0)).2.1, (fgetD s.channels ch (0, 0, 0)).2.2 - 1) } := by
  have idle : ¬ (false = true ∨ (fgetD s.channels ch (0, 0, 0)).2.2 ≤ -8) := by
    simp only [Bool.false_eq_true, false_or]
    omega
  have room : ¬ 8 ≤ (fgetD s.channels ch (0, 0, 0)).2.2 := by omega
  exact congrArg _ ((if_neg (not_le.mpr hc)).trans ((if_neg room).trans ((if_neg idle).trans (if_pos none))))

end

/-! ### The thermal cap (R407) -/

theorem thermalCap_cool {t16 : Nat} (h : t16 ≤ 1440) : thermalCap t16 = 2100 := if_pos h

theorem thermalCap_hot {t16 : Nat} (h : 1600 ≤ t16) : thermalCap t16 = 600 :=
  (if_neg (by omega)).trans (if_pos h)

theorem thermalCap_between {t16 : Nat} (low : 1440 < t16) (high : t16 < 1600) :
    thermalCap t16 = (33600 - 150 * (t16 - 1440)) / 400 * 25 :=
  (if_neg (by omega)).trans (if_neg (by omega))

/-- Between 90 and 100 degrees it is the line of R407 rounded down to a multiple of 25. -/
theorem thermalCap_bounds {t16 : Nat} (low : 1440 < t16) (high : t16 < 1600) :
    (thermalCap t16 : ℚ) ≤ 2100 - 150 * ((t16 : ℚ) / 16 - 90) ∧ 2100 - 150 * ((t16 : ℚ) / 16 - 90) < thermalCap t16 + 25 ∧
      thermalCap t16 % 25 = 0 := by
  have cap := thermalCap_between low high
  have below : 16 * thermalCap t16 + 150 * t16 ≤ 249600 := by omega
  have above : 249600 < 16 * thermalCap t16 + 150 * t16 + 400 := by omega
  refine ⟨?_, ?_, by omega⟩
  · have := (Nat.cast_le (α := ℚ)).mpr below
    push_cast at this
    linarith
  · have := (Nat.cast_lt (α := ℚ)).mpr above
    push_cast at this
    linarith

theorem thermalCap_antitone {t16 u : Nat} (h : t16 ≤ u) : thermalCap u ≤ thermalCap t16 := by
  unfold thermalCap
  split_ifs <;> omega

/-! ### Energy (R366) -/

theorem trafficRate_eq (kind : Nat) : trafficRate kind = [17, 37, 23, 10].getD kind 10 := by
  match kind with
  | 0 | 1 | 2 | 3 => rfl
  | n + 4 => rfl

section
variable {s t : State}

theorem sameTree_of_regions (same : t.regions = s.regions) : SameTree Region.energy s t :=
  fun k => congrArg (fun m => (fget m k).map fun g => (g.parent, g.ovr, g.energy)) same

theorem regionPath_of_regions (same : t.regions = s.regions) (r : Nat) : regionPath t r = regionPath s r :=
  (sameTree_of_regions same).pathUp 9 r

theorem energyOf_of_regions (same : t.regions = s.regions) (r : Nat) : energyOf t r = energyOf s r := by
  rw [energyOf, energyOf, eff, eff, (sameTree_of_regions same).effNode]

end

/-- A charge leaves the record of the meters that have been read alone. -/
theorem chargeEnergy_metered (s : State) (r e : Nat) (m : FMap Nat) :
    chargeEnergy { s with metered := m } r e = { chargeEnergy s r e with metered := m } := by
  have path := regionPath_of_regions (s := s) (t := { s with metered := m }) rfl r
  have own := energyOf_of_regions (s := s) (t := { s with metered := m }) rfl
  unfold chargeEnergy
  rw [path]
  refine List.foldl_hom (fun t : State => { t with metered := m }) fun t k => ?_
  rw [own]
  split <;> rfl

theorem sameUnits_chargeEnergy (s : State) (r e : Nat) : SameUnits s (chargeEnergy s r e) := by
  refine SameUnits.foldl (fun t k => ?_) _ _
  split
  · exact .refl t
  · exact ⟨rfl, rfl, rfl, fun _ => rfl⟩

theorem chargeEnergy_moved (s : State) (r e : Nat) : (chargeEnergy s r e).moved = s.moved := by
  refine List.foldlRecOn (motive := fun t : State => t.moved = s.moved) _ _ rfl fun t h k _ => ?_
  split
  · exact h
  · exact h

/-- A gang's part of its core's reading, by its work among that of the core's resident gangs (R366). -/
def gangShare (energy total : Nat) (s : State) (p : Nat × Gang) : State :=
  let s := if total = 0 then s else chargeEnergy s (gangRegion s p.1) (energy * p.2.work / total)
  modGang s p.1 fun g => { g with work := 0 }

theorem gangShare_metered (energy total : Nat) (s : State) (p : Nat × Gang) (m : FMap Nat) :
    gangShare energy total { s with metered := m } p = { gangShare energy total s p with metered := m } := by
  have region : gangRegion { s with metered := m } p.1 = gangRegion s p.1 := rfl
  unfold gangShare
  rw [region, chargeEnergy_metered]
  split <;> rfl

theorem sameUnits_gangShare (energy total : Nat) (s : State) (p : Nat × Gang) : SameUnits s (gangShare energy total s p) := by
  unfold gangShare
  dsimp only
  split
  · exact sameUnits_modGang _ _ fun _ => rfl
  · exact (sameUnits_chargeEnergy _ _ _).trans (sameUnits_modGang _ _ fun _ => rfl)

theorem gangShare_moved (energy total : Nat) (s : State) (p : Nat × Gang) : (gangShare energy total s p).moved = s.moved := by
  unfold gangShare
  dsimp only
  split
  · rfl
  · exact chargeEnergy_moved _ _ _

/-- The gangs' parts of a reading leave the noted traffic alone. -/
theorem gangShares_moved (energy total : Nat) (l : List (Nat × Gang)) (s : State) :
    (l.foldl (gangShare energy total) s).moved = s.moved :=
  List.foldlRecOn (motive := fun t : State => t.moved = s.moved) _ _ rfl fun t h p _ => (gangShare_moved energy total t p).trans h

theorem gangShares_metered (energy total : Nat) (l : List (Nat × Gang)) (s : State) (m : FMap Nat) :
    l.foldl (gangShare energy total) { s with metered := m } = { l.foldl (gangShare energy total) s with metered := m } :=
  List.foldl_hom (fun t : State => { t with metered := m }) fun t p => gangShare_metered energy total t p m

theorem sameUnits_gangShares (energy total : Nat) (l : List (Nat × Gang)) (s : State) :
    SameUnits s (l.foldl (gangShare energy total) s) :=
  SameUnits.foldl (sameUnits_gangShare energy total) l s

theorem energyMeterRead_early (s : State) (core energy : Nat) (lines : List (Nat × Nat × Nat))
    (h : (s.time - s.host.resetAt) / 120000 ≤ fgetD s.metered core 0) : exec (.energyMeterRead core energy lines) s = .next s :=
  congrArg _ (if_pos (by simp [h]))

/-- A reading in its time is divided among the gangs, the gangs' lines are noted, and what is noted is charged. -/
theorem energyMeterRead_due (s : State) (core energy : Nat) (lines : List (Nat × Nat × Nat)) (powered : s.host.powered = true)
    (h : fgetD s.metered core 0 < (s.time - s.host.resetAt) / 120000) :
    exec (.energyMeterRead core energy lines) s =
      let mine := s.gangs.filter fun p => p.2.core == core && gangResident s p.2
      let split := mine.foldl (gangShare energy (sumBy (fun p : Nat × Gang => p.2.work) mine)) (chargeModule s energy)
      .next (chargeMoved (lines.foldl (fun s t => traffic s (gangRegion s t.1) t.2.1 (128 * t.2.2))
        { split with metered := fset s.metered core ((s.time - s.host.resetAt) / 120000) })) := by
  extract_lets mine split
  have ready : ¬ (!s.host.powered || decide ((s.time - s.host.resetAt) / 120000 ≤ fgetD s.metered core 0)) = true := by
    simp [powered, h]
  rw [← gangShares_metered]
  exact congrArg _ (if_neg ready)

/-- What is noted for the one region whose lines a reading brings (R366). -/
theorem energyMeterRead_one (s : State) (core energy gang kind lines : Nat) (powered : s.host.powered = true)
    (h : fgetD s.metered core 0 < (s.time - s.host.resetAt) / 120000) :
    exec (.energyMeterRead core energy [(gang, kind, lines)]) s =
      let mine := s.gangs.filter fun p => p.2.core == core && gangResident s p.2
      let split := mine.foldl (gangShare energy (sumBy (fun p : Nat × Gang => p.2.work) mine)) (chargeModule s energy)
      let r := gangRegion s gang
      .next (chargeMoved { split with
        moved := fset s.moved r (fgetD s.moved r 0 + 128 * lines * [17, 37, 23, 10].getD kind 10)
        metered := fset s.metered core ((s.time - s.host.resetAt) / 120000) }) := by
  extract_lets mine split r
  have kept : split.moved = s.moved := gangShares_moved _ _ _ _
  have region : gangRegion split gang = r := (sameUnits_gangShares _ _ _ _).gangRegion gang
  rw [energyMeterRead_due s core energy _ powered h, ← trafficRate_eq, ← kept, ← region]
  rfl

/-! ### The energy window (R365, R367, R406) -/

theorem energyWindowStart_due (s : State) (powered : s.host.powered = true) (new : s.host.windows < s.time / 12000000) :
    exec .energyWindowStart s = .next (placementDue { s with
      regions := fmapv (fun k g => if energyOf s k = unlimitedEnergy then g
        else { g with account := refill g.account (energyOf s k) }) s.regions
      host := { s.host with
        windows := s.host.windows + 1, cap := s.host.capNext.getD s.host.cap, capNext := none
        ecap := min (s.host.capNext.getD s.host.cap) (thermalCap s.host.tjmax)
        account := refill s.host.account (1000 * (min (s.host.capNext.getD s.host.cap) (thermalCap s.host.tjmax) : Nat))
        draw := s.host.windowDrawn / 1000 % 2 ^ 32, windowDrawn := 0 } } fun _ => true) := by
  have ready : ¬ (s.time / millisecond ≤ s.host.windows ∨ (!s.host.powered) = true) := by
    rw [powered]
    simpa [millisecond] using new
  exact congrArg _ (if_neg ready)

/-! ### The trip (R407, R408) -/

theorem thermalCapUpdate_powered (s : State) {tj tin flow : Nat} (powered : s.host.powered = true) (htj : tj < 65536)
    (htin : tin < 65536) (hflow : flow < 65536) :
    exec (.thermalCapUpdate tj tin flow) s = .next { s with host := { s.host with
      tjmax := tj, tin := tin, flow := flow, ecap := min s.host.cap (thermalCap tj)
      hotSince := if 720 < tin then some (s.host.hotSince.getD s.time) else none
      dryAt := if flow < 750 then some (s.host.dryAt.getD s.time) else none } } := by
  have ready : ¬ (!s.host.powered) = true := by simp [powered]
  refine congrArg Host.Outcome.next ((if_neg ready).trans ?_)
  simp only [modHost, sinceWhen, Nat.mod_eq_of_lt htj, Nat.mod_eq_of_lt htin, Nat.mod_eq_of_lt hflow, decide_eq_true_eq]

theorem canTrip_of (s : State) (powered : s.host.powered = true) (live : s.host.trip = false) : canTrip s = true := by
  simp [canTrip, powered, live]

theorem secondSince_of (s : State) {o : Option Nat} {t : Nat} (since : o = some t) (late : t + 12000000000 ≤ s.time) :
    secondSince s o = true := by
  subst since
  exact decide_eq_true late

theorem thermalTrip_hot (s : State) (powered : s.host.powered = true) (live : s.host.trip = false)
    (hot : 1680 ≤ s.host.tjmax) : exec .thermalTrip s = .next (tripNow s) :=
  congrArg _ (if_pos (by simp [canTrip_of s powered live, hot]))

theorem coolantTimeout_late (s : State) {t : Nat} (powered : s.host.powered = true) (live : s.host.trip = false)
    (since : s.host.hotSince = some t ∨ s.host.dryAt = some t) (late : t + 12000000000 ≤ s.time) :
    exec .coolantTimeout s = .next (tripNow s) := by
  have passed : (secondSince s s.host.hotSince || secondSince s s.host.dryAt) = true :=
    Bool.or_eq_true_iff.mpr (since.imp (secondSince_of s · late) (secondSince_of s · late))
  exact congrArg _ (if_pos (by simp [canTrip_of s powered live, passed]))

theorem diePowerOff_late (s : State) {t : Nat} (powered : s.host.powered = true) (since : s.host.tripAt = some t)
    (late : t + 12000000000 ≤ s.time) : exec .diePowerOff s = .next { s with
      hostL2 := [], tlb := [], pool := [], flushes := [], host := { s.host with powered := false } } :=
  congrArg _ (if_pos (by simp [powered, secondSince_of s since late]))

/-- Settles O51, clause by clause. -/
theorem refreshEnergyAndHeat : Obligations.RefreshEnergyAndHeat := by
  refine ⟨fun s ch waiting hc => ?_, energyWindowStart_due, fun t16 => ?_, fun s core energy kind lines gang powered => ?_,
    fun s r kind bytes src dst => ?_, fun s tj tin flow powered => thermalCapUpdate_powered s powered,
    fun s powered live => ⟨thermalTrip_hot s powered live, fun t => coolantTimeout_late s powered live⟩,
    fun s t => diePowerOff_late s⟩
  · exact ⟨refreshInterval_rises s ch hc, refreshInterval_counted s ch, refresh_forced s ch waiting hc, refresh_owed s ch hc,
      refresh_pulled s ch hc, fun low => refresh_postponed s ch waiting (by omega) (.inr low),
      fun room => refresh_postponed s ch true room (.inl rfl)⟩
  · exact ⟨thermalCap_cool, thermalCap_hot, thermalCap_bounds, fun _ => thermalCap_antitone⟩
  · exact ⟨energyMeterRead_early s core energy _, energyMeterRead_one s core energy gang kind lines powered⟩
  · refine ⟨?_, rfl, fun m other => if_neg other, if_pos rfl, fun n noted => ?_⟩
    · rw [traffic, trafficRate_eq]
    · rw [askedBy, noted]

end Sys2Proof.Machine

/-! SUPPORT. Page fills, migrations and the progress that a resolved fault counts as (spec/15 R265, R275, R289, R290; spec/23 R383),
and O43. -/

namespace Sys2Proof.Machine

open Sys2Proof

/-! ### Fills (R265, R275, R289, R290) -/

theorem pageFill_eq {s : State} {rg : Nat} (va die : Nat) (live : (fget s.regions rg).isSome = true) :
    exec (.pageFill rg va die) s = .next (replayAll (askedBy (resolutionFor s
      (resolvePage s (effPtroot s rg) va (die % 4)) rg (effPtroot s rg) va) rg)) := by
  have known : ¬ (fget s.regions rg).isNone = true := by
    simpa [Option.isNone_iff_eq_none, Option.isSome_iff_ne_none] using live
  exact congrArg Host.Outcome.next (if_neg known)

section
variable {s s1 : State} {root : DWord} {va die : Nat}

/-- A stack page is filled where the walk finds no entry. -/
theorem resolvePage_stack (free : tablesHeld (settleWalk s root va) root va = false)
    (unmapped : walk (settleWalk s root va) root va = .invalid) (stack : isStackVA va = true)
    (room : fillRoom (settleWalk s root va) root va die = some s1) : resolvePage s root va die = fillStack s1 root va die := by
  simp only [resolvePage, unmapped, stack, free, room, Bool.not_false, Bool.and_self, if_true]

theorem fillStack_mapped {f : Nat} {s2 s3 : State} (took : takeHbm s1 die = some (f, s2))
    (mapped : mapPage (traffic (charge (zeroFrame s2 f) .hbm (stackRegion s1 root va) 1) 0 0 65536) root (stackRegion s1 root va)
      die (va / 65536 * 65536) (hbmLeaf f true false false) = some s3) : fillStack s1 root va die = s3 := by
  simp only [fillStack, took, mapped, Option.getD_some]

section
variable {a f : Nat} {e : DWord} (free : tablesHeld (settleWalk s root va) root va = false)
  (leaf : walk (settleWalk s root va) root va = .leaf a e f false) (still : pMig e = false) (own : pGranted e = false)
  (writable : leavesHeld (settleWalk s root va) f = false)
include free leaf still own writable

theorem resolvePage_deep (deep : pTier e = 1) (room : fillRoom (settleWalk s root va) root va die = some s1) :
    resolvePage s root va die = fillDeep s1 root f := by
  simp [resolvePage, leaf, still, own, free, writable, deep, room]

/-- A host-side page moves, or is pinned at its fourth move. -/
theorem resolvePage_host (tier : pTier e = 2) (unpinned : pPin e = false)
    (room : fillRoom (settleWalk s root va) root va die = some s1) :
    resolvePage s root va die = if fourthMove (settleWalk s root va) f then
      retarget (settleWalk s root va) f fun e => pSet e 11 true else startMove (settleWalk s root va) root va f die := by
  simp [resolvePage, leaf, still, own, free, writable, tier, unpinned, room]

end

theorem fillDeep_took {f d : Nat} {s2 : State} (took : takeHbm s1 ((f - 0x1000000) / Config.deepPages) = some (d, s2)) :
    fillDeep s1 root f =
      let moved := retarget (movePage s2 f d) f fun e => pField (pField e 8 2 0) 22 36 d
      pageTraffic (charge (uncharge (freeFrame moved f) .deep (pageCharge s1 root f) 1) .hbm (pageCharge s1 root f) 1) f d := by
  simp only [fillDeep, took]

end

/-! ### The command that MIGCMD runs, which moves of pages leave alone (R396) -/

/-- The command that MIGCMD runs is the same. -/
def SameJob (s t : State) : Prop := t.host.mig = s.host.mig

theorem SameJob.refl (s : State) : SameJob s s := rfl

theorem SameJob.trans {s t u : State} (h : SameJob s t) (h' : SameJob t u) : SameJob s u := Eq.trans h' h

theorem SameJob.idle {s t : State} (h : SameJob s t) (idle : s.host.mig = none) : t.host.mig = none := Eq.trans h idle

theorem SameJob.foldl {α : Type} {f : State → α → State} (hf : ∀ s x, SameJob s (f s x)) (l : List α) (s : State) :
    SameJob s (l.foldl f s) :=
  List.foldlRecOn (motive := SameJob s) _ _ rfl fun t h x _ => h.trans (hf t x)

theorem sameJob_mergeAt (s : State) (a : Nat) : SameJob s (mergeAt s a).1 := by
  obtain ⟨m, p, h⟩ := mergeAt_frame s a
  rw [h]
  rfl

theorem sameJob_mergeFrame (s : State) (f : Nat) : SameJob s (mergeFrame s f) := by
  refine .foldl (fun s p => ?_) _ s
  split
  · exact sameJob_mergeAt s _
  · rfl

theorem sameJob_touchLine (s : State) (a : Nat) : SameJob s (touchLine s a) := by
  unfold touchLine
  split
  · rfl
  · split <;> rfl

theorem sameJob_writeBack (s : State) (line : Nat) : SameJob s (writeBack s line) := by
  obtain ⟨m, l, h⟩ := writeBack_frame s line
  rw [h]
  rfl

theorem sameJob_dropPage_putEntry (s : State) (a va : Nat) (e : DWord) : SameJob s (dropPage (putEntry s a e) va) :=
  (sameJob_mergeAt s a).trans (sameJob_touchLine _ a)

theorem sameJob_retarget (s : State) (frame : Nat) (f : DWord → DWord) : SameJob s (retarget s frame f) :=
  .foldl (fun s (l : Leaf) => sameJob_dropPage_putEntry s l.at' l.va _) _ s

theorem sameJob_modRegion (s : State) (k : Nat) (f : Region → Region) : SameJob s (modRegion s k f) := rfl

theorem sameJob_charge (s : State) (x : Resource) (r n : Nat) : SameJob s (charge s x r n) :=
  .foldl (fun s k => sameJob_modRegion s k _) _ s

theorem sameJob_uncharge (s : State) (x : Resource) (r n : Nat) : SameJob s (uncharge s x r n) :=
  .foldl (fun s k => sameJob_modRegion s k _) _ s

theorem sameJob_pageTraffic (s : State) (src dst : Nat) : SameJob s (pageTraffic s src dst) := rfl

theorem sameJob_noteMove (s : State) (f : Nat) : SameJob s (noteMove s f) := rfl

theorem sameJob_freeFrame (s : State) (f : Nat) : SameJob s (freeFrame s f) := by
  unfold freeFrame
  split <;> rfl

theorem sameJob_takeHbm {s t : State} {d f : Nat} (h : takeHbm s d = some (f, t)) : SameJob s t := by
  unfold takeHbm at h
  split at h
  · cases h
    rfl
  · split at h <;> cases h
    rfl

theorem sameJob_takeDeep {s t : State} {d f : Nat} (h : takeDeep s d = some (f, t)) : SameJob s t := by
  unfold takeDeep at h
  split at h
  · cases h
    rfl
  · dsimp only at h
    split at h <;> cases h
    rfl

theorem sameJob_settleFrame (s : State) (f : Nat) : SameJob s (settleFrame s f) :=
  (sameJob_mergeFrame s f).trans (.foldl (fun s _ => sameJob_touchLine s _) _ _)

theorem sameJob_copyHostFrame (s : State) (old new : Nat) : SameJob s (copyHostFrame s old new) :=
  SameJob.foldl (f := fun (s : State) (p : Nat × HostLine) => writeBack s p.1) (fun s p => sameJob_writeBack s p.1)
    (s.hostL2.filter fun p => p.1 / 512 == old) s

theorem sameJob_evict (s : State) (l : Leaf) : SameJob s (evict s l) := by
  unfold evict
  dsimp only
  split
  · rfl
  · next d s1 took =>
    have copied : SameJob s (movePage (settleFrame s1 l.frame) l.frame d) :=
      (sameJob_takeDeep took).trans (sameJob_settleFrame s1 l.frame)
    exact ((((copied.trans (sameJob_retarget _ _ _)).trans (sameJob_freeFrame _ _)).trans (sameJob_uncharge _ _ _ _)).trans
      (sameJob_charge _ _ _ _)).trans (sameJob_pageTraffic _ _ _)

theorem sameJob_dropReplicas (die n : Nat) (s : State) : SameJob s (dropReplicas die n s) := by
  refine .foldl (fun s x => ?_) _ s
  split
  · rfl
  · exact sameJob_freeFrame _ _

theorem sameJob_makeRoomFor (prefetch : Bool) (die r n fuel : Nat) {s t : State}
    (h : makeRoomFor prefetch die r n fuel s = some t) : SameJob s t := by
  induction fuel generalizing s with
  | zero => cases h
  | succ fuel ih =>
    have dropped := sameJob_dropReplicas die n s
    have evicted (l : Leaf) := dropped.trans (sameJob_evict (dropReplicas die n s) l)
    rw [makeRoomFor] at h
    dsimp only at h
    split at h
    · split at h
      · exact (evicted _).trans (ih h)
      · cases h
    · split at h
      · split at h
        · split at h
          · cases h
            exact evicted _
          · exact (evicted _).trans (ih h)
        · split at h <;> cases h
          exact dropped
      · cases h
        exact dropped

theorem sameJob_endMove (s : State) (frame : Nat) (f : Moving → DWord) : SameJob s (endMove s frame f) := by
  unfold endMove
  split
  · rfl
  · next m _ =>
    exact SameJob.foldl (f := fun (s : State) (l : Moving) => dropPage (putEntry s l.at' (f l)) l.va)
      (fun s l => sameJob_dropPage_putEntry s l.at' l.va _) _ s

theorem sameJob_resolution (s t : State) (root : DWord) (va : Nat) : SameJob t (resolution s t root va) := by
  unfold resolution
  split
  · exact .foldl (fun s k => sameJob_modRegion s k _) _ t
  · rfl

theorem sameJob_resolutionFor (s t : State) (rg : Nat) (root : DWord) (va : Nat) : SameJob t (resolutionFor s t rg root va) := by
  unfold resolutionFor
  refine SameJob.trans ?_ (sameJob_resolution _ _ _ _)
  split <;> rfl

/-! ### Migrations (R289) -/

theorem serveMig_idle {s : State} (idle : s.host.mig = none) : serveMig s = s := by
  rw [serveMig, idle]

theorem migrationDone_waits {s : State} {rg va f : Nat} {m : Migration} (die : Nat)
    (here : migrationOf s (effPtroot s rg) va = some (f, m)) (waits : moveWaits s f m = true) :
    exec (.migrationDone rg va die) s = .next s := by
  show Host.Outcome.next _ = _
  simp only [here, waits, if_true]

section
variable {s : State} {rg va f : Nat} {m : Migration} {die : Nat} (here : migrationOf s (effPtroot s rg) va = some (f, m))
  (ready : moveWaits s f m = false) (idle : s.host.mig = none) (leaves : m.leaves ≠ []) (host : isHostPA (f * 65536) = true)
include here ready idle leaves host

/-- A page of the host moves to the die where a frame can be had, and no command ends with it. -/
theorem migrationDone_host : exec (.migrationDone rg va die) s = .next (match moveToDevice s rg m.root f (die % 4) with
    | some t => replayAll (askedBy (serveMig (resolutionFor s t rg m.root m.va)) rg)
    | none => replayAll (askedBy (serveMig (endMove s f Moving.e)) rg)) := by
  have some_leaf : m.leaves.isEmpty = false := by simpa using leaves
  show Host.Outcome.next _ = _
  simp only [here, ready, idle, some_leaf, host, Option.bind_none, Option.isSome_none, Bool.false_eq_true, if_false, if_true]
    <;> rfl

theorem migrationDone_moves {s1 s2 : State} {d : Nat} (room : makeRoom (die % 4) (pageCharge s m.root f) 1 64 s = some s1)
    (took : takeHbm s1 (die % 4) = some (d, s2)) :
    let t := pageTraffic (charge (copyHostFrame s2 f d) .hbm (pageCharge s m.root f) 1) f d
    exec (.migrationDone rg va die) s = .next (replayAll (askedBy (resolutionFor s
      (noteMove (endMove t f fun l => landedLeaf t d (genFor t rg l.root) l.e) d) rg m.root m.va) rg)) := by
  intro t
  have moved : moveToDevice s rg m.root f (die % 4) =
      some (noteMove (endMove t f fun l => landedLeaf t d (genFor t rg l.root) l.e) d) := by
    rw [moveToDevice, bringHome, room, Option.bind_some, took, Option.map_some, Option.map_some]
  have copied : SameJob s t := ((((sameJob_makeRoomFor _ _ _ _ _ room).trans (sameJob_takeHbm took)).trans
    (sameJob_copyHostFrame s2 f d)).trans (sameJob_charge _ _ _ _)).trans (sameJob_pageTraffic _ _ _)
  have ended := (copied.trans (sameJob_endMove t f fun l => landedLeaf t d (genFor t rg l.root) l.e)).trans
    ((sameJob_noteMove _ d).trans (sameJob_resolutionFor s _ rg m.root m.va))
  rw [migrationDone_host here ready idle leaves host, moved]
  dsimp only
  rw [serveMig_idle (ended.idle idle)]

theorem migrationDone_no_room (room : makeRoom (die % 4) (pageCharge s m.root f) 1 64 s = none) :
    exec (.migrationDone rg va die) s = .next (replayAll (askedBy (endMove s f Moving.e) rg)) := by
  have stays : moveToDevice s rg m.root f (die % 4) = none := by
    rw [moveToDevice, bringHome, room, Option.bind_none, Option.map_none]
  have ended : SameJob s (endMove s f Moving.e) := sameJob_endMove _ _ _
  rw [migrationDone_host here ready idle leaves host, stays]
  dsimp only
  rw [serveMig_idle (ended.idle idle)]

end

/-! ### Progress (spec/23 R383) -/

/-- The progress counter of a region, where it exists, stands at 0. -/
def Progressed (s : State) (r : Nat) : Prop :=
  (fget s.regions r).isSome = true → (fget s.regions r).map Region.progress = some 0

theorem fget_progressed (s : State) (k r : Nat) :
    fget (progressed s k).regions r = (fget s.regions r).map fun g => if r = k then { g with progress := 0 } else g := by
  simp only [progressed, modRegion, fmod]
  cases hk : fget s.regions k with
  | none =>
    obtain rfl | other := eq_or_ne r k
    · rw [hk, Option.map_none]
    · simp only [if_neg other, Option.map_id_fun', id]
  | some g =>
    obtain rfl | other := eq_or_ne r k
    · rw [fget_fset_same, hk, Option.map_some, if_pos rfl]
    · rw [fget_fset_other _ _ _ _ other]
      simp only [if_neg other, Option.map_id_fun', id]

theorem progressed_same (s : State) (r : Nat) : Progressed (progressed s r) r := by
  intro live
  rw [fget_progressed] at live ⊢
  cases h : fget s.regions r with
  | none => simp [h] at live
  | some g => simp

theorem Progressed.progressed {s : State} {r : Nat} (h : Progressed s r) (k : Nat) : Progressed (progressed s k) r := by
  intro live
  rw [fget_progressed] at live ⊢
  cases hr : fget s.regions r with
  | none => simp [hr] at live
  | some g =>
    have zero : g.progress = 0 := by simpa [hr] using h (by simp [hr])
    simp only [Option.map_some]
    split <;> simp [zero]

theorem Progressed.foldl {s : State} {r : Nat} (h : Progressed s r) (l : List Nat) : Progressed (l.foldl Machine.progressed s) r :=
  List.foldlRecOn (motive := fun t => Progressed t r) _ _ h fun _ h k _ => h.progressed k

theorem progressed_of_mem {r : Nat} {l : List Nat} (h : r ∈ l) (s : State) : Progressed (l.foldl progressed s) r := by
  induction l generalizing s with
  | nil => cases h
  | cons k l ih =>
    obtain rfl | later := List.mem_cons.mp h
    · exact (progressed_same s r).foldl l
    · exact ih later _

/-- Progress of regions is noted in the regions alone, and none comes or goes. -/
theorem foldl_progressed (l : List Nat) (s : State) : (l.foldl progressed s).mem = s.mem ∧
    (l.foldl progressed s).waves = s.waves ∧ ∀ r, (fget (l.foldl progressed s).regions r).isSome = (fget s.regions r).isSome := by
  induction l generalizing s with
  | nil => exact ⟨rfl, rfl, fun _ => rfl⟩
  | cons k l ih =>
    obtain ⟨mem, waves, live⟩ := ih (progressed s k)
    exact ⟨mem, waves, fun r => (live r).trans (by rw [fget_progressed, Option.isSome_map])⟩

/-- Whether a fault is to be resolved does not depend on the regions' progress. -/
theorem unresolved_progressed (s : State) (r : Nat) (root : DWord) (va : Nat) :
    unresolved (progressed s r) root va = unresolved s root va := by
  have same : walk (progressed s r) root va = walk s root va := walkFrom_congr _ _ _ _ fun _ _ => rfl
  rw [unresolved, unresolved, same]

/-- The regions whose waves or engines wait for a page. -/
def waitingFor (s : State) (root : DWord) (va : Nat) : List Nat :=
  (s.waves.filterMap fun p =>
    let r := waveRegion s p.2
    if (p.2.waitsFor s).any (samePage s root va (effPtroot s r)) then some r else none) ++
  s.gangs.filterMap fun p =>
    let r := gangRegion s p.1
    if !p.2.idle && (engineWants s p.1 p.2).any (samePage s root va (effPtroot s r)) then some r else none

theorem mem_waitingFor_of_wave {s : State} {root : DWord} {va x : Nat} {p : Nat × Wave} (here : p ∈ s.waves)
    (waits : x ∈ p.2.waitsFor s) (meant : samePage s root va (effPtroot s (waveRegion s p.2)) x = true) :
    waveRegion s p.2 ∈ waitingFor s root va :=
  List.mem_append_left _ (List.mem_filterMap.mpr ⟨p, here, if_pos (List.any_eq_true.mpr ⟨x, waits, meant⟩)⟩)

theorem mem_waitingFor_of_engine {s : State} {root : DWord} {va x : Nat} {p : Nat × Gang} (here : p ∈ s.gangs)
    (busy : p.2.idle = false) (waits : x ∈ engineWants s p.1 p.2)
    (meant : samePage s root va (effPtroot s (gangRegion s p.1)) x = true) : gangRegion s p.1 ∈ waitingFor s root va := by
  have any := List.any_eq_true.mpr ⟨x, waits, meant⟩
  exact List.mem_append_right _ (List.mem_filterMap.mpr ⟨p, here, if_pos (by simp only [busy, any, Bool.not_false, Bool.and_self])⟩)

theorem resolutionFor_unchanged {s t : State} {root : DWord} {va : Nat} (rg : Nat)
    (h : unresolved s root va = false ∨ unresolved t root va = true) : resolutionFor s t rg root va = t := by
  have kept : ¬ (unresolved s root va && !unresolved t root va) = true := by
    obtain h | h := h <;> simp [h]
  rw [resolutionFor, if_neg kept, resolution, if_neg kept]

theorem resolutionFor_resolved {s t : State} {root : DWord} {va : Nat} (rg : Nat) (before : unresolved s root va = true)
    (after : unresolved t root va = false) :
    resolutionFor s t rg root va = (waitingFor s root va).foldl progressed (progressed t rg) := by
  rw [resolutionFor, if_pos (by simp [before, after]), resolution, if_pos (by simp [before, after, unresolved_progressed])]
  rfl

/-- Settles O43: fills and moves by the branches of the two events, progress by the regions that `resolution` lists. -/
theorem pagesAreFilledAndMoved : Obligations.PagesAreFilledAndMoved := by
  refine ⟨?_, ?_, ?_⟩
  · intro s0 rg va die s1 live
    extract_lets root s filled ends
    intro free
    have fill : filled = ends (resolvePage s0 root va (die % 4)) := pageFill_eq va die live
    refine ⟨fun f s2 s3 unmapped stack room took mapped => ?_, fun a e f d s2 leaf still own writable deep room took => ?_,
      fun a e f leaf still own writable tier unpinned room => ?_⟩
    · rw [fill, resolvePage_stack free unmapped stack room, fillStack_mapped took mapped]
    · rw [fill, resolvePage_deep free leaf still own writable deep room, fillDeep_took took]
    · rw [fill, resolvePage_host free leaf still own writable tier unpinned room]
      exact ⟨fun fourth => congrArg ends (if_pos fourth), fun early => congrArg ends (if_neg (by simp [s, early]))⟩
  · intro s rg va die s1
    exact ⟨fun f m here waits => migrationDone_waits die here waits, fun f m here ready idle leaves host =>
      ⟨fun d s2 room took => migrationDone_moves here ready idle leaves host room took,
        migrationDone_no_room here ready idle leaves host⟩⟩
  · intro s t rg root va
    extract_lets u counts meant
    refine ⟨resolutionFor_unchanged rg, fun before after => ?_⟩
    have resolved := resolutionFor_resolved rg before after
    obtain ⟨mem, waves, live⟩ := foldl_progressed (waitingFor s root va) (progressed t rg)
    rw [← resolved] at mem waves live
    have count {r : Nat} (h : Progressed (resolutionFor s t rg root va) r) : counts r := fun known =>
      h ((live r).trans (by rw [fget_progressed, Option.isSome_map]; exact known))
    have listed {r : Nat} (h : r ∈ waitingFor s root va) : counts r := count (resolved ▸ progressed_of_mem h _)
    exact ⟨count (resolved ▸ (progressed_same t rg).foldl _),
      fun p here x waits page => listed (mem_waitingFor_of_wave here waits page),
      fun p here busy x waits page => listed (mem_waitingFor_of_engine here busy waits page), mem, waves⟩

end Sys2Proof.Machine
